-- ==== Sys2Proof/Word.lean ====
section
/-! DEFINITION. The word types of the Hedan, and tables that list only what differs from a default. -/

namespace Sys2Proof

/-- A 64-bit register or memory word (01_anatomy R17). -/
abbrev Word := BitVec 64

/-- A byte of memory (00_scope R3). -/
abbrev Byte := BitVec 8

/-- A 12-bit provenance tag (00_scope R12). -/
abbrev PTag := BitVec 12

/-- A 10-bit shroud tag (19_shroud R404). -/
abbrev STag := BitVec 10

/-- A table from numbers to values, as a list of its entries. A number that no entry names has the table's default. -/
abbrev Tab (α : Type) := List (Nat × α)

end Sys2Proof
end

