-- ==== Sys2Proof/Syntax.lean ====
section
/-! DEFINITION. The instructions and events of the Hedan: one constructor for each row of the opcode table.
The operands of a word are its fields (03_encoding R58 to R71), each as wide as the field; the operands of an event say
which unit acts and, where the outside world supplies a value, that value. Words and events with operands stand first,
those without next, and the words of majors 0x20 to 0x24 last: compiled code can build a constructor with operands only
among the first 245, and it builds those last words as Row.arith (WellFormed.lean). -/

namespace Sys2Proof

/-- What a VECTOR_ISSUE names: which entry of the winning slot's queue issues, as its distance from the oldest (05_vector R129), and the lane groups
whose residue check fails, in the order of the attempts (19_shroud R417): a number above 7 is 8 more than a group that computes in the place of the
one before it. -/
structure VectorBeat where
  place : Nat
  bad : List Nat
  deriving DecidableEq, Repr

/-- What a RECHECK_EXECUTION names (19_shroud R418, R419): the outcome of the comparison, the lane groups that have executed the instruction, in turn,
and those whose residue check fails in this execution, as in a VECTOR_ISSUE (R417). -/
structure RecheckVote where
  vote : Nat
  groups : List Nat
  bad : List Nat
  deriving DecidableEq, Repr

/-- What bring-up has found beyond the HBM stacks and the size of the CXL range (21_device R435; 20_link R422, R425): the CXL ports that failed their
training, those whose expander holds poison, the ports that the range interleaves over with their granularity, and the bytes of BAR4 that the host has
granted to each of its ports. -/
structure Trained where
  badPorts : List Nat
  poisonPorts : List Nat
  ways : Nat
  gran : Nat
  bar4 : List (Nat × Nat)
  deriving DecidableEq, Repr

/-- One constructor per row of the opcode table: 280 words and 69 events, which have no encoding. -/
inductive Instr where
  /-- R83: Writes sa + sb modulo 2^64 to sd. -/
  | add (d : BitVec 6) (a : BitVec 6) (b : BitVec 6)
  /-- R83: Writes sa − sb modulo 2^64 to sd. -/
  | sub (d : BitVec 6) (a : BitVec 6) (b : BitVec 6)
  /-- R83: Writes the bitwise AND of sa and sb to sd. -/
  | and (d : BitVec 6) (a : BitVec 6) (b : BitVec 6)
  /-- R83: Writes the bitwise OR of sa and sb to sd. -/
  | or (d : BitVec 6) (a : BitVec 6) (b : BitVec 6)
  /-- R83: Writes the bitwise XOR of sa and sb to sd. -/
  | xor (d : BitVec 6) (a : BitVec 6) (b : BitVec 6)
  /-- R83: Writes sa AND NOT sb to sd. -/
  | andn (d : BitVec 6) (a : BitVec 6) (b : BitVec 6)
  /-- R83: Shifts sa left by sb[5:0] into sd. -/
  | shl (d : BitVec 6) (a : BitVec 6) (b : BitVec 6)
  /-- R83: Shifts sa right logically by sb[5:0] into sd. -/
  | shr (d : BitVec 6) (a : BitVec 6) (b : BitVec 6)
  /-- R83: Shifts sa right arithmetically by sb[5:0] into sd. -/
  | sar (d : BitVec 6) (a : BitVec 6) (b : BitVec 6)
  /-- R83: Writes the low 64 bits of sa × sb to sd. -/
  | mul (d : BitVec 6) (a : BitVec 6) (b : BitVec 6)
  /-- R83: Writes the high 64 bits of the signed 128-bit product to sd. -/
  | mulh (d : BitVec 6) (a : BitVec 6) (b : BitVec 6)
  /-- R83: Writes the high 64 bits of the unsigned 128-bit product to sd. -/
  | mulhz (d : BitVec 6) (a : BitVec 6) (b : BitVec 6)
  /-- R84: Writes the signed quotient truncated toward zero, with the no-trap corner cases. -/
  | div (d : BitVec 6) (a : BitVec 6) (b : BitVec 6)
  /-- R84: Writes the unsigned quotient, all ones for a zero divisor. -/
  | divz (d : BitVec 6) (a : BitVec 6) (b : BitVec 6)
  /-- R84: Writes the signed remainder, the dividend for a zero divisor. -/
  | rem (d : BitVec 6) (a : BitVec 6) (b : BitVec 6)
  /-- R84: Writes the unsigned remainder, the dividend for a zero divisor. -/
  | remz (d : BitVec 6) (a : BitVec 6) (b : BitVec 6)
  /-- R83: Writes the signed smaller of sa and sb to sd. -/
  | min (d : BitVec 6) (a : BitVec 6) (b : BitVec 6)
  /-- R83: Writes the signed larger of sa and sb to sd. -/
  | max (d : BitVec 6) (a : BitVec 6) (b : BitVec 6)
  /-- R83: Writes the unsigned smaller of sa and sb to sd. -/
  | minz (d : BitVec 6) (a : BitVec 6) (b : BitVec 6)
  /-- R83: Writes the unsigned larger of sa and sb to sd. -/
  | maxz (d : BitVec 6) (a : BitVec 6) (b : BitVec 6)
  /-- R83: Writes sa + (sb << n) modulo 2^64, with n taken from the low func bits. -/
  | addsh (d : BitVec 6) (a : BitVec 6) (b : BitVec 6) (n : BitVec 2)
  /-- R83: Writes sa if the old sd is non-zero, else sb. -/
  | sel (d : BitVec 6) (a : BitVec 6) (b : BitVec 6)
  /-- R83: Writes 1 if sa equals sb, else 0. -/
  | cmpeq (d : BitVec 6) (a : BitVec 6) (b : BitVec 6)
  /-- R83: Writes 1 if sa < sb signed, else 0. -/
  | cmplt (d : BitVec 6) (a : BitVec 6) (b : BitVec 6)
  /-- R83: Writes 1 if sa < sb unsigned, else 0. -/
  | cmpltz (d : BitVec 6) (a : BitVec 6) (b : BitVec 6)
  /-- R83: Writes the count of leading zero bits of sa. -/
  | clz (d : BitVec 6) (a : BitVec 6)
  /-- R83: Writes the count of trailing zero bits of sa. -/
  | ctz (d : BitVec 6) (a : BitVec 6)
  /-- R83: Writes the number of one bits in sa. -/
  | popc (d : BitVec 6) (a : BitVec 6)
  /-- R83: Writes the eight bytes of sa in reverse order. -/
  | bswap (d : BitVec 6) (a : BitVec 6)
  /-- R92: Writes the rounded sum of sa and sb in binary64 or binary32. -/
  | fadd (d : BitVec 6) (a : BitVec 6) (b : BitVec 6) (p : BitVec 1)
  /-- R92: Writes the rounded difference of sa and sb. -/
  | fsub (d : BitVec 6) (a : BitVec 6) (b : BitVec 6) (p : BitVec 1)
  /-- R92: Writes the rounded product of sa and sb. -/
  | fmul (d : BitVec 6) (a : BitVec 6) (b : BitVec 6) (p : BitVec 1)
  /-- R92: Writes the rounded quotient of sa by sb. -/
  | fdiv (d : BitVec 6) (a : BitVec 6) (b : BitVec 6) (p : BitVec 1)
  /-- R92: Writes the rounded square root of sa. -/
  | fsqrt (d : BitVec 6) (a : BitVec 6) (p : BitVec 1)
  /-- R92: Writes sa × sb + sd with a single rounding. -/
  | fma (d : BitVec 6) (a : BitVec 6) (b : BitVec 6) (p : BitVec 1)
  /-- R30: Writes the IEEE minimumNumber of sa and sb. -/
  | fmin (d : BitVec 6) (a : BitVec 6) (b : BitVec 6) (p : BitVec 1)
  /-- R30: Writes the IEEE maximumNumber of sa and sb. -/
  | fmax (d : BitVec 6) (a : BitVec 6) (b : BitVec 6) (p : BitVec 1)
  /-- R93: Writes 1 when the selected floating-point condition holds, else 0. -/
  | fcmp (d : BitVec 6) (a : BitVec 6) (b : BitVec 6) (c : BitVec 2) (p : BitVec 1)
  /-- R94: Converts binary32 sa exactly to binary64. -/
  | fcvtDS (d : BitVec 6) (a : BitVec 6)
  /-- R94: Converts binary64 sa to binary32 under FRM. -/
  | fcvtSD (d : BitVec 6) (a : BitVec 6)
  /-- R94: Converts signed 64-bit sa to binary64 under FRM. -/
  | fcvtDI64 (d : BitVec 6) (a : BitVec 6)
  /-- R94: Converts signed 64-bit sa to binary32 under FRM. -/
  | fcvtSI64 (d : BitVec 6) (a : BitVec 6)
  /-- R94: Converts unsigned 64-bit sa to binary64 under FRM. -/
  | fcvtDZ64 (d : BitVec 6) (a : BitVec 6)
  /-- R94: Converts unsigned 64-bit sa to binary32 under FRM. -/
  | fcvtSZ64 (d : BitVec 6) (a : BitVec 6)
  /-- R35: Converts binary64 sa to a signed 64-bit integer. -/
  | fcvtI64D (d : BitVec 6) (a : BitVec 6)
  /-- R35: Converts binary32 sa to a signed 64-bit integer. -/
  | fcvtI64S (d : BitVec 6) (a : BitVec 6)
  /-- R35: Converts binary64 sa to an unsigned 64-bit integer. -/
  | fcvtZ64D (d : BitVec 6) (a : BitVec 6)
  /-- R35: Converts binary32 sa to an unsigned 64-bit integer. -/
  | fcvtZ64S (d : BitVec 6) (a : BitVec 6)
  /-- R85: Writes sa plus the sign-extended immediate to sd. -/
  | addi (d : BitVec 6) (a : BitVec 6) (i : BitVec 14)
  /-- R85: Writes sa AND the sign-extended immediate to sd. -/
  | andi (d : BitVec 6) (a : BitVec 6) (i : BitVec 14)
  /-- R85: Writes sa OR the sign-extended immediate to sd. -/
  | ori (d : BitVec 6) (a : BitVec 6) (i : BitVec 14)
  /-- R85: Writes sa XOR the sign-extended immediate to sd. -/
  | xori (d : BitVec 6) (a : BitVec 6) (i : BitVec 14)
  /-- R85: Shifts sa left by the 6-bit immediate count. -/
  | shli (d : BitVec 6) (a : BitVec 6) (h : BitVec 6)
  /-- R85: Shifts sa right logically by the 6-bit immediate count. -/
  | shri (d : BitVec 6) (a : BitVec 6) (h : BitVec 6)
  /-- R85: Shifts sa right arithmetically by the 6-bit immediate count. -/
  | sari (d : BitVec 6) (a : BitVec 6) (h : BitVec 6)
  /-- R85: Writes 1 if sa is below the signed immediate, else 0. -/
  | cmplti (d : BitVec 6) (a : BitVec 6) (i : BitVec 14)
  /-- R86: Writes the sign-extended imm20 shifted left by 14 to sd. -/
  | lih (d : BitVec 6) (i : BitVec 20)
  /-- R86: Writes the 4 KiB-aligned PC plus imm20 << 12 to sd. -/
  | addpc (d : BitVec 6) (i : BitVec 20)
  /-- R88: Loads size bytes at sa + scaled offset into sd, sign- or zero-extended. -/
  | ld (d : BitVec 6) (a : BitVec 6) (t : BitVec 3) (o : BitVec 11)
  /-- R88: Stores the low size bytes of sd at sa + scaled offset. -/
  | st (d : BitVec 6) (a : BitVec 6) (t : BitVec 2) (o : BitVec 11)
  /-- R241: Acquire-loads N bytes at sa, zero-extended into sd. -/
  | ldacq (d : BitVec 6) (a : BitVec 6) (q : BitVec 2) (s : BitVec 3)
  /-- R241: Release-stores the low N bytes of sd at sa. -/
  | strel (d : BitVec 6) (a : BitVec 6) (q : BitVec 2) (s : BitVec 3)
  /-- R241: Performs an acquire read of the 8-byte word at sa and discards it. -/
  | acq (a : BitVec 6) (s : BitVec 3)
  /-- R241: Performs a release by atomically adding 1 to the 8-byte word at sa. -/
  | rel (a : BitVec 6) (s : BitVec 3)
  /-- R237: Binds the region described at sa to its guard in the region table and returns the entry index. -/
  | gbind (d : BitVec 6) (a : BitVec 6)
  /-- R237: Invalidates region-table entry sa, subject to the tag check. -/
  | gunbind (a : BitVec 6)
  /-- R243: Full fence: later accesses wait until all earlier accesses are performed. -/
  | gfence (s : BitVec 3)
  /-- R246: Atomically adds sd to memory at sa and returns the old value. -/
  | amoadd (d : BitVec 6) (a : BitVec 6) (q : BitVec 1) (c : BitVec 1) (l : BitVec 1) (s : BitVec 3)
  /-- R246: Atomically swaps sd with memory at sa. -/
  | amoswap (d : BitVec 6) (a : BitVec 6) (q : BitVec 1) (c : BitVec 1) (l : BitVec 1) (s : BitVec 3)
  /-- R246: Atomically writes s(sd+1) at sa when memory equals sd and returns the old value. -/
  | amocas (d : BitVec 6) (a : BitVec 6) (q : BitVec 1) (c : BitVec 1) (l : BitVec 1) (s : BitVec 3)
  /-- R246: Atomically stores the signed minimum of memory and sd. -/
  | amomin (d : BitVec 6) (a : BitVec 6) (q : BitVec 1) (c : BitVec 1) (l : BitVec 1) (s : BitVec 3)
  /-- R246: Atomically stores the signed maximum of memory and sd. -/
  | amomax (d : BitVec 6) (a : BitVec 6) (q : BitVec 1) (c : BitVec 1) (l : BitVec 1) (s : BitVec 3)
  /-- R246: Atomically stores the unsigned minimum of memory and sd. -/
  | amominz (d : BitVec 6) (a : BitVec 6) (q : BitVec 1) (c : BitVec 1) (l : BitVec 1) (s : BitVec 3)
  /-- R246: Atomically stores the unsigned maximum of memory and sd. -/
  | amomaxz (d : BitVec 6) (a : BitVec 6) (q : BitVec 1) (c : BitVec 1) (l : BitVec 1) (s : BitVec 3)
  /-- R246: Atomically ANDs sd into memory at sa. -/
  | amoand (d : BitVec 6) (a : BitVec 6) (q : BitVec 1) (c : BitVec 1) (l : BitVec 1) (s : BitVec 3)
  /-- R246: Atomically ORs sd into memory at sa. -/
  | amoor (d : BitVec 6) (a : BitVec 6) (q : BitVec 1) (c : BitVec 1) (l : BitVec 1) (s : BitVec 3)
  /-- R246: Atomically XORs sd into memory at sa. -/
  | amoxor (d : BitVec 6) (a : BitVec 6) (q : BitVec 1) (c : BitVec 1) (l : BitVec 1) (s : BitVec 3)
  /-- R95: Branches by off14 when sa equals sb. -/
  | beq (a : BitVec 6) (b : BitVec 6) (o : BitVec 14)
  /-- R95: Branches by off14 when sa differs from sb. -/
  | bne (a : BitVec 6) (b : BitVec 6) (o : BitVec 14)
  /-- R95: Branches when sa < sb signed. -/
  | blt (a : BitVec 6) (b : BitVec 6) (o : BitVec 14)
  /-- R95: Branches when sa ≥ sb signed. -/
  | bge (a : BitVec 6) (b : BitVec 6) (o : BitVec 14)
  /-- R95: Branches when sa < sb unsigned. -/
  | bltz (a : BitVec 6) (b : BitVec 6) (o : BitVec 14)
  /-- R95: Branches when sa ≥ sb unsigned. -/
  | bgez (a : BitVec 6) (b : BitVec 6) (o : BitVec 14)
  /-- R96: Jumps to PC + 4 × off26. -/
  | j (o : BitVec 26)
  /-- R97: Pushes the return address and VSW on the stack and jumps by off26. -/
  | call (o : BitVec 26)
  /-- R96: Jumps to the address in sa. -/
  | jr (a : BitVec 6)
  /-- R96: Pushes the return frame and jumps to the address in sa. -/
  | callr (a : BitVec 6)
  /-- R101: Pushes a counted hardware loop over the following body, or skips it for count 0. -/
  | loop (l : BitVec 10) (c : BitVec 16)
  /-- R101: Pushes a hardware loop whose count is taken from sa. -/
  | loopr (l : BitVec 10) (a : BitVec 6)
  /-- R103: Pops the top loop frame and jumps past its end, unconditionally or when sa is non-zero. -/
  | lbrk (a : BitVec 6)
  /-- R105: Pushes a repeat frame that runs the next n words times times with register-offset strides. -/
  | rep (n : BitVec 4) (t : BitVec 8) (v : BitVec 4) (s : BitVec 6)
  /-- R111: Stalls until the slot's outstanding load, store, copy and tile counters are at or below the given counts. -/
  | wait (l : BitVec 6) (s : BitVec 6) (c : BitVec 6) (t : BitVec 6)
  /-- R345: Initialises the barrier word at sa with N participants. -/
  | bari (d : BitVec 6) (a : BitVec 6)
  /-- R346: Places a barrier arrival marker in the vector queue. -/
  | bara (a : BitVec 6) (s : BitVec 3)
  /-- R348: Waits until the phase joined by the oldest marker completes, then acquires. -/
  | barw (a : BitVec 6) (s : BitVec 3)
  /-- R353: Reads a full future or links the continuation record and retires the context. -/
  | fwait (d : BitVec 6) (a : BitVec 6) (s : BitVec 3)
  /-- R354: Releases and atomically fills an empty future with sd, capturing its waiter list. -/
  | ffill (d : BitVec 6) (a : BitVec 6) (s : BitVec 3)
  /-- R356: Returns a future to EMPTY by zeroing its 16 bytes. -/
  | freset (a : BitVec 6)
  /-- R131: Sets VCFG from sb and VL from sa clamped to VLMAX. -/
  | vsetvl (d : BitVec 6) (a : BitVec 6) (b : BitVec 6)
  /-- R131: Sets VCFG from the immediate and VL from sa clamped to VLMAX. -/
  | vsetvli (d : BitVec 6) (a : BitVec 6) (c : BitVec 12)
  /-- R132: Atomically claims the next strip of a strip task and sets VL. -/
  | vgrant (d : BitVec 6) (a : BitVec 6)
  /-- R137: Integer compare of two vectors into a mask. -/
  | vcmp (d : BitVec 3) (a : BitVec 5) (b : BitVec 5) (m : BitVec 3) (c : BitVec 4)
  /-- R137: Integer compare of a vector with a scalar into a mask. -/
  | vcmpVs (d : BitVec 3) (a : BitVec 5) (b : BitVec 5) (m : BitVec 3) (c : BitVec 4)
  /-- R137: Floating-point compare of two vectors into a mask. -/
  | vfcmp (d : BitVec 3) (a : BitVec 5) (b : BitVec 5) (m : BitVec 3) (c : BitVec 4)
  /-- R137: Floating-point compare of a vector with a scalar into a mask. -/
  | vfcmpVs (d : BitVec 3) (a : BitVec 5) (b : BitVec 5) (m : BitVec 3) (c : BitVec 4)
  /-- R149: Unit-stride vector load, probed whole before any element. -/
  | vld (d : BitVec 5) (a : BitVec 6) (m : BitVec 3)
  /-- R149: Strided vector load. -/
  | vlds (d : BitVec 5) (a : BitVec 6) (b : BitVec 6) (m : BitVec 3)
  /-- R149: Indexed vector gather. -/
  | vldx (d : BitVec 5) (a : BitVec 6) (b : BitVec 5) (m : BitVec 3)
  /-- R154: Ordered indexed vector gather. -/
  | vldxo (d : BitVec 5) (a : BitVec 6) (b : BitVec 5) (m : BitVec 3)
  /-- R158: Unit-stride load that trims VL at the first failing element after the first. -/
  | vldff (d : BitVec 5) (a : BitVec 6) (m : BitVec 3)
  /-- R149: Unit-stride vector store. -/
  | vst (d : BitVec 5) (a : BitVec 6) (m : BitVec 3)
  /-- R149: Strided vector store. -/
  | vsts (d : BitVec 5) (a : BitVec 6) (b : BitVec 6) (m : BitVec 3)
  /-- R149: Indexed vector scatter. -/
  | vstx (d : BitVec 5) (a : BitVec 6) (b : BitVec 5) (m : BitVec 3)
  /-- R154: Ordered indexed vector scatter. -/
  | vstxo (d : BitVec 5) (a : BitVec 6) (b : BitVec 5) (m : BitVec 3)
  /-- R159: Non-atomic indexed scatter-add of each active element into memory. -/
  | vstxadd (d : BitVec 5) (a : BitVec 6) (b : BitVec 5) (m : BitVec 3)
  /-- R163: Loads and widens a narrow memory format into vector elements. -/
  | vldn (d : BitVec 5) (a : BitVec 6) (z : BitVec 1) (s : BitVec 5) (m : BitVec 3) (t : BitVec 1) (f : BitVec 4)
  /-- R164: Narrows vector elements into a narrow memory format and stores them. -/
  | vstn (d : BitVec 5) (a : BitVec 6) (z : BitVec 1) (s : BitVec 5) (m : BitVec 3) (t : BitVec 1) (f : BitVec 4)
  /-- R395: Stores a key row into its KV page and links the token into its signature bucket. -/
  | kst (d : BitVec 5) (a : BitVec 5) (b : BitVec 6)
  /-- R394: Computes the signature of the key in va under a projection slot. -/
  | ksig (d : BitVec 5) (a : BitVec 5) (b : BitVec 6)
  /-- R185: Zeroes every cell and resets every segment status of the tile. -/
  | tzero (t : BitVec 6)
  /-- R186: Accumulates A × B from two ports into the tile in strict K order. -/
  | tmma (t : BitVec 6) (a : BitVec 3) (b : BitVec 3) (k : BitVec 6)
  /-- R186: Accumulates A × B in groups of eight K. -/
  | tmmaf (t : BitVec 6) (a : BitVec 3) (b : BitVec 3) (k : BitVec 6)
  /-- R187: Accumulates a gang-wide product across the 16 gang members. -/
  | tmmag (t : BitVec 6) (a : BitVec 3) (b : BitVec 3) (k : BitVec 6)
  /-- R188: Multiplies a 4-in-8 sparse A by dense B using metadata in v. -/
  | tmmas (t : BitVec 6) (a : BitVec 3) (b : BitVec 3) (k : BitVec 6) (v : BitVec 5)
  /-- R190: Loads a tile image of segment records from memory. -/
  | tld (t : BitVec 6) (k : BitVec 6)
  /-- R191: Stores the tile converted to FP32 or BF16. -/
  | tst (t : BitVec 6) (u : BitVec 1) (f : BitVec 1) (k : BitVec 6)
  /-- R192: Moves tile cells into a vector register group. -/
  | tmovr (t : BitVec 6) (v : BitVec 5)
  /-- R192: Writes raw cells from a vector register group into the tile. -/
  | tmovw (t : BitVec 6) (v : BitVec 5)
  /-- R194: Applies a reef of the given shift to every non-empty segment of the tile. -/
  | treef (t : BitVec 6) (k : BitVec 6)
  /-- R196: Reads a segment status word or a reef-log entry into sd. -/
  | tstat (t : BitVec 6) (d : BitVec 6)
  /-- R195: Sets the exponent of every segment of the tile. -/
  | tsetx (t : BitVec 6) (k : BitVec 6)
  /-- R189: Adds partial tiles of selected gang members into the issuer's tile. -/
  | taddx (t : BitVec 6) (k : BitVec 6)
  /-- R201: Captures a stream specification and opens a port, starting its fetch. -/
  | sopen (a : BitVec 6) (p : BitVec 3) (c : BitVec 1) (s : BitVec 3)
  /-- R202: Closes a port, cancelling fetching and dropping its binding. -/
  | sclose (p : BitVec 3)
  /-- R202: Binds an open port to a vector register group. -/
  | sbind (v : BitVec 5) (p : BitVec 3)
  /-- R202: Drops a port's register binding. -/
  | sunbind (p : BitVec 3)
  /-- R207: Reads the port status word into sd. -/
  | sstat (d : BitVec 6) (p : BitVec 3)
  /-- R208: Discards undelivered port elements and refetches after the slot's earlier writes. -/
  | sbar (p : BitVec 3)
  /-- R215: Starts an all-or-nothing bulk copy on a copy engine. -/
  | cpy (d : BitVec 6) (a : BitVec 6) (c : BitVec 1) (l : BitVec 1) (s : BitVec 3)
  /-- R215: Starts a bulk copy that performs elements in order and stops at the first failure. -/
  | cpys (d : BitVec 6) (a : BitVec 6) (c : BitVec 1) (l : BitVec 1) (s : BitVec 3)
  /-- R295: Requests HBM residency of a range, migrating CXL pages to popped frames. -/
  | cpypf (d : BitVec 6) (a : BitVec 6)
  /-- R302: Checks and captures a launch record and creates a pending kernel. -/
  | klaunch (d : BitVec 6) (a : BitVec 6)
  /-- R313: Gives the upper half of the issuer's lane groups to a new child context. -/
  | vfork (d : BitVec 6) (a : BitVec 6)
  /-- R315: Ends a forked child, or rejoins a child's lane groups into the parent. -/
  | vjoin (a : BitVec 6)
  /-- R317: Starts one to three laneless sibling contexts. -/
  | efork (a : BitVec 6) (c : BitVec 6)
  /-- R319: Reads the index of the issuer's group at level n. -/
  | gid (d : BitVec 6) (n : BitVec 6)
  /-- R339: Pushes a task record into a device-fed queue, trapping when full. -/
  | tqpush (a : BitVec 6) (b : BitVec 6)
  /-- R339: Pushes a task record and returns a status instead of trapping. -/
  | tqpushn (d : BitVec 6) (a : BitVec 6) (b : BitVec 6)
  /-- R340: Ends the issuing context's task or leaf group. -/
  | tdone (a : BitVec 6)
  /-- R341: Reads the status word of a queue. -/
  | tqstat (d : BitVec 6) (a : BitVec 6)
  /-- R367: Builds a mesh from an exchange image on the issuer's topology engine. -/
  | mimport (d : BitVec 6) (a : BitVec 6) (c : BitVec 1) (l : BitVec 1) (s : BitVec 3)
  /-- R367: Writes the mesh in exchange layout. -/
  | mexport (d : BitVec 6) (a : BitVec 6) (c : BitVec 1) (l : BitVec 1) (s : BitVec 3)
  /-- R368: Refines marked leaves with their balance closure and commits a new generation. -/
  | mrefine (d : BitVec 6) (a : BitVec 6) (c : BitVec 1) (l : BitVec 1) (s : BitVec 3)
  /-- R369: Merges parents whose children are all marked leaves. -/
  | mcoarsen (d : BitVec 6) (a : BitVec 6) (c : BitVec 1) (l : BitVec 1) (s : BitVec 3)
  /-- R367: Replaces vertex coordinates and renumbers, or performs one field remap. -/
  | mrenum (d : BitVec 6) (a : BitVec 6) (c : BitVec 1) (l : BitVec 1) (s : BitVec 3)
  /-- R367: Writes mesh counts and state to a destination. -/
  | mstat (d : BitVec 6) (a : BitVec 6) (c : BitVec 1) (l : BitVec 1) (s : BitVec 3)
  /-- R377: Greedily colours a cell range at face distance 1 or 2. -/
  | mcolour (d : BitVec 6) (a : BitVec 6) (c : BitVec 1) (l : BitVec 1) (s : BitVec 3)
  /-- R383: Proposes new partition cuts by cell weight. -/
  | mtrim (d : BitVec 6) (a : BitVec 6) (c : BitVec 1) (l : BitVec 1) (s : BitVec 3)
  /-- R384: Applies new cuts or exchanges part data with the mesh fields. -/
  | mmigr (d : BitVec 6) (a : BitVec 6) (c : BitVec 1) (l : BitVec 1) (s : BitVec 3)
  /-- R385: Refreshes ghost slots of selected parts and fields. -/
  | mghost (d : BitVec 6) (a : BitVec 6) (c : BitVec 1) (l : BitVec 1) (s : BitVec 3)
  /-- R403: Loads or empties a KBU projection slot. -/
  | kproj (d : BitVec 6) (a : BitVec 6) (c : BitVec 1) (l : BitVec 1) (s : BitVec 3)
  /-- R403: Validates and resets a bucket table, homing it at the issuer's KBU. -/
  | kreset (d : BitVec 6) (a : BitVec 6) (c : BitVec 1) (l : BitVec 1) (s : BitVec 3)
  /-- R403: Writes bucket table and head statistics. -/
  | kstat (d : BitVec 6) (a : BitVec 6) (c : BitVec 1) (l : BitVec 1) (s : BitVec 3)
  /-- R271: Reads system register n into sd. -/
  | srd (d : BitVec 6) (n : BitVec 12)
  /-- R271: Writes sa into system register n under its access codes. -/
  | swr (a : BitVec 6) (n : BitVec 12)
  /-- R271: ORs sa into the RW fields of system register n. -/
  | srset (a : BitVec 6) (n : BitVec 12)
  /-- R271: Clears the bits of sa in the RW fields of system register n. -/
  | srclr (a : BitVec 6) (n : BitVec 12)
  /-- R272: Posts a pre-emption request to a global slot. -/
  | ctxsv (d : BitVec 6) (a : BitVec 6)
  /-- R273: Loads the context image at sa into the slot from a handler. -/
  | ctxld (d : BitVec 6) (a : BitVec 6)
  /-- R297: Removes matching cached translations package-wide after a GFENCE. -/
  | tlbinv (d : BitVec 6) (a : BitVec 6)
  /-- R298: Walks an address without trapping and returns the leaf word. -/
  | probe (d : BitVec 6) (a : BitVec 6)
  /-- R290: Migrates one page to a destination frame. -/
  | pgmig (d : BitVec 6) (a : BitVec 6)
  /-- R421: Kills the shroud tag in sa. -/
  | shkill (a : BitVec 6)
  /-- R276: Completes and then traps with cause 0x31 and TRAPAUX n. -/
  | trap (n : BitVec 18)
  /-- R276: Completes and then traps with cause 0x30 and TRAPAUX n. -/
  | brk (n : BitVec 18)
  /-- R80: A stalled slot's condition clears and the stalled instruction proceeds. -/
  | slotStallRelease (q : Nat)
  /-- R114: At an instruction boundary a pending enabled user-level interrupt enters the handler at UIVEC. -/
  | ulInterruptEntry (q : Nat)
  /-- R338: Each cycle the core issues one element group to the winning slot and charges it; k says which entry and which residue checks fail (R417). -/
  | vectorIssue (core : Nat) (k : VectorBeat)
  /-- R418: A recheck-queue entry re-executes in idle beats on another lane group and retires on agreement. -/
  | recheckExecution (core : Nat) (vote : RecheckVote)
  /-- R418: A recheck entry waiting 256 cycles takes beats ahead of every slot. -/
  | recheckAgeExpiry (core : Nat)
  /-- R420: Once all affected slots leave their handlers the core remaps logical lane groups and lowers VLCAP. -/
  | laneGroupRemap (core : Nat)
  /-- R179: The matrix unit performs one step of a tile operation once its operands are delivered. -/
  | matrixStep (core : Nat)
  /-- R214: A copy engine moves up to 128 bytes per cycle round-robin among its copies and port streams. -/
  | copyEngineTransfer (isPort : Bool) (n : Nat)
  /-- R216: A copy completes, writing its completion word, flags, release and optional interrupt. -/
  | copyCompletion (n : Nat)
  /-- R223: Each cycle the scratchpad banks serve requests oldest first. -/
  | scratchpadBankArbitration (core : Nat)
  /-- R262: A trap or landing pre-emption drains the slot, saves the context image and enters the handler. -/
  | firstStageSave (q : Nat)
  /-- R264: A pending pre-emption request lands at a landing point and traps with cause 0x21. -/
  | preemptionLanding (q : Nat)
  /-- R285: A page walker reads table entries, sets A and D, and fills a TLB slice. -/
  | pageWalk (slice : Nat) (asid : Nat) (va : BitVec 64) (wr : Bool)
  /-- R287: A migration's copy ends and the leaf is switched or reverted. -/
  | migrationCommit (n : Nat) (ok : Bool)
  /-- R287: An HBM controller or CXL expander reports a whole frame unreadable and its page becomes POISONED. -/
  | frameUnreadableReport (pa : Nat)
  /-- R325: An aligned 8-byte write to a notify page raises the queue's notified count. -/
  | doorbell (queue : Nat) (off : Nat) (size : Nat) (v : BitVec 64) (outside : Bool)
  /-- R330: The queue unit takes the next present record into the ready pool. -/
  | taskTake (queue : Nat)
  /-- R335: The ready pool dispatches an entry to a free slot or engine by priority and deficit. -/
  | readyPoolDispatch (die : Nat)
  /-- R336: An entry that has waited AGELIMIT cycles rises one priority level. -/
  | aging (die : Nat) (n : Nat)
  /-- R304: A kernel creates its next leaf group when a CSA is free and placement admits it. -/
  | leafGroupCreate (kernel : Nat)
  /-- R312: A leaf group ends once all its contexts have ended and their operations finished, freeing its resources. -/
  | leafGroupEnded (kernel : Nat) (leaf : Nat)
  /-- R306: A draining kernel whose groups and children are done fills DONE with release. -/
  | kernelComplete (kernel : Nat)
  /-- R305: An aborting kernel whose groups and children have ended becomes ABORTED and fills DONE with status 2. -/
  | kernelAborted (kernel : Nat)
  /-- R346: A barrier marker fires once earlier accesses are performed, releasing and counting its arrival. -/
  | barrierMarkerFire (q : Nat) (k : Nat)
  /-- R354: After a fill the waiter list is walked and each continuation made ready. -/
  | continuationWalk (n : Nat)
  /-- R366: A mesh, partition or bucket command run by its unit completes and returns its status word. -/
  | engineCommandCompletion (n : Nat)
  /-- R371: After a commit the engine pushes one remap task per field, waiting for queue room. -/
  | remapPush (n : Nat)
  /-- R397: When a KST's row is performed the KBU inserts and publishes the token link. -/
  | kstLinkPublish (n : Nat)
  /-- R407: All contexts and state of a shroud tag are stopped, discarded or invalidated. -/
  | shroudKill (tag : Nat)
  /-- R405: An uncorrectable error in tagged state of a unit, by class and index, poisons, retries, breaks an object or kills a tag; sub names what has
  failed in it (log 37). -/
  | uncorrectableError (cls : Nat) (n : Nat) (sub : Nat)
  /-- R424: A host access arrives through a BAR and is checked against the inbound windows; of a CXL port it is what an expander asks, which no decoder
  lets in (R434). -/
  | hostInboundAccess (port : Nat) (bar : Nat) (off : Nat) (size : Nat) (wr : Bool) (v : List (BitVec 8)) (ep : Bool)
  /-- R424: A surprise link-down stops inbound traffic and drops queued MSI-X writes. -/
  | hostLinkDown (port : Nat)
  /-- R426: An expander or port fails, poisoning its frames and losing outstanding writes. -/
  | cxlPortFailure (port : Nat)
  /-- R410: Poison arriving with a CXL read is given an error record. -/
  | cxlPoisonReceived (pa : Nat)
  /-- R428: A Muaris flit is checked and delivered once in sequence order, or NAKed; its 256 bytes as words (R427): SEQ, ACK and CREDIT, the reserved word,
  the 24 words of DATA, the 4 of REQ, and the last two. -/
  | flitReceive (link : Nat) (head : BitVec 64) (rsv : BitVec 64) (data : List (BitVec 64)) (req : List (BitVec 64)) (tail : BitVec 128)
  /-- R428: A NAK makes the sender replay from the flit after its ACK. -/
  | nakReceive (link : Nat) (ack : BitVec 12)
  /-- R429: Link training finishes with a lane count, moving the link UP, DEGRADED or retrying. -/
  | linkTrainingResult (link : Nat) (lanes : Nat)
  /-- R429: Training that lasts 10 ms counts as a failure. -/
  | linkTrainingTimeout (link : Nat)
  /-- R429: A lost lane moves an UP or DEGRADED link to RETRAINING. -/
  | laneLost (link : Nat)
  /-- R434: A Hedan requester receives an error response: reads return poison, writes kill the tag. -/
  | errorResponseReceived (link : Nat) (pa : Nat) (wr : Bool) (tag : Nat)
  /-- R435: Stable clocks move the device from RESET to SELFTEST. -/
  | clocksStable (bad : List (Nat × Nat))
  /-- R435: The end of memory training moves the device to FIRMWARE. -/
  | memtrainEnd (badStacks : BitVec 12) (cxlBytes : Nat) (found : Trained)
  /-- R438: Setting or clearing FREEZE stops or resumes the unit RBSEL selects. -/
  | mctlFreeze (on : Bool)
  /-- R441: Setting CAPT starts replay capture. -/
  | mctlCapt (on : Bool)
  /-- R442: Setting RERUN replays a captured buffer. -/
  | mctlRerun (on : Bool)
  /-- R436: A write of a CSA address loads it at firmware level into a free slot of die 0. -/
  | fwlaunch (csa : BitVec 64)
  /-- R439: Writes the package power budget, clamped to its range. -/
  | pbudgetWrite (v : BitVec 64)
  /-- R439: Every 2^16 cycles the arbiter divides the budget and sets die gates. -/
  | powerArbitration (gates : List Nat)
  /-- R429: Writing LINKEN enables links into TRAINING or disables them to DOWN. -/
  | linken (v : BitVec 64)
  /-- R414: Writing a record's HDR as zero through the window frees it. -/
  | errorRecordFree (n : Nat)
  /-- R436: An aligned 8-byte write to a window word without behaviour of its own sets it. -/
  | mgmtRegisterWrite (off : Nat) (v : BitVec 64)
  /-- R221: A write of SPBASE waits for window accesses to drain and moves the window. -/
  | spbaseWrite (q : Nat) (v : BitVec 64)
  /-- R118: A write of VL waits for the vector queue and clamps to VLMAX. -/
  | vlWrite (q : Nat) (v : BitVec 64)
  /-- R119: A write of VCFG checks reserved codes and clamps VL. -/
  | vcfgWrite (q : Nat) (v : BitVec 64)
  /-- R121: A write of VLCAP accepts only legal caps and changes VLEN. -/
  | vlcapWrite (q : Nat) (v : BitVec 64)
  /-- R167: A write of ACCBASE or ACCLIM waits for tile operations and checks the range. -/
  | accrangeWrite (q : Nat) (lim : Bool) (v : BitVec 64)
  /-- R168: Writing REEFCTL.CLR invalidates the context's reef-log entries and clears OVF. -/
  | reefctlClr (q : Nat)
  /-- R336: A write of AGELIMIT sets the aging limit, trapping for values 1 to 1,023. -/
  | agelimitWrite (q : Nat) (v : BitVec 64)
  /-- R271: A write of SHTAG, ASID or CSABASE traps in context mode and changes the image in handler mode. -/
  | contextIdWrite (q : Nat) (n : BitVec 12) (v : BitVec 64)
  /-- R109: A scalar or vector memory access, or a release, passed on earlier is performed or returns its data, and its LOADS or STORES count falls. -/
  | accessPerformed (q : Nat) (k : Nat)
  /-- R374: The topology engine or the KBU serving an open NEIGH or BUCKET port stream reads its next records or bucket chains and delivers elements, or stops the stream with a status. -/
  | neighBucketStreamFetch (core : Nat) (p : Nat)
  /-- R98: Checks and pops the return address and VSW, restoring VL and VCFG fields. -/
  | ret
  /-- R233: Orders earlier scalar accesses before later vector accesses of the slot. -/
  | fenceSv
  /-- R233: Stalls the scalar side until earlier vector accesses are performed. -/
  | fenceVs
  /-- R233: Occupies a vector-queue entry that orders earlier vector accesses before later ones. -/
  | fenceVv
  /-- R318: Ends a sibling, or makes the issuer wait for all its siblings. -/
  | erdv
  /-- R320: Ends the issuer's leaf group. -/
  | gexit
  /-- R274: Ends the handler by yielding or loading the served image. -/
  | eret
  /-- R115: Returns from a user-level interrupt handler to UIEPC. -/
  | uiret
  /-- R275: Ends the handler, leaving the served context READY or PARKED and the slot FREE. -/
  | idle
  /-- R419: Every 2^24 cycles each non-zero lane-group suspect score falls by 1. -/
  | suspectScoreDecay
  /-- R435: Power-on resets the device. -/
  | powerOn
  /-- R435: PERST asserted on both host ports resets the device. -/
  | perst
  /-- R435: The end of self-test moves the device to MEMTRAIN. -/
  | selftestEnd
  /-- R437: Writing 1 to MCTL.RESET resets the device. -/
  | mctlReset
  /-- R435: Setting MCTL.BOOT starts the ready pools and queue units. -/
  | mctlBoot
  /-- R437: Writing 1 to MCTL.HINT raises MSI-X vector 1. -/
  | mctlHint
  /-- R438: Once the selected unit stops, FROZEN reads 1 and the aperture is consistent. -/
  | freezeHold
  /-- R133: Element-wise integer add of two vectors. -/
  | vadd (d : BitVec 5) (a : BitVec 5) (b : BitVec 5) (m : BitVec 3)
  /-- R133: Element-wise integer subtract of two vectors. -/
  | vsub (d : BitVec 5) (a : BitVec 5) (b : BitVec 5) (m : BitVec 3)
  /-- R133: Element-wise low product of two vectors. -/
  | vmul (d : BitVec 5) (a : BitVec 5) (b : BitVec 5) (m : BitVec 3)
  /-- R133: Element-wise signed high product. -/
  | vmulh (d : BitVec 5) (a : BitVec 5) (b : BitVec 5) (m : BitVec 3)
  /-- R133: Element-wise unsigned high product. -/
  | vmulhz (d : BitVec 5) (a : BitVec 5) (b : BitVec 5) (m : BitVec 3)
  /-- R133: Element-wise signed division without trap. -/
  | vdiv (d : BitVec 5) (a : BitVec 5) (b : BitVec 5) (m : BitVec 3)
  /-- R133: Element-wise signed minimum. -/
  | vmin (d : BitVec 5) (a : BitVec 5) (b : BitVec 5) (m : BitVec 3)
  /-- R133: Element-wise signed maximum. -/
  | vmax (d : BitVec 5) (a : BitVec 5) (b : BitVec 5) (m : BitVec 3)
  /-- R133: Element-wise unsigned minimum. -/
  | vminz (d : BitVec 5) (a : BitVec 5) (b : BitVec 5) (m : BitVec 3)
  /-- R133: Element-wise unsigned maximum. -/
  | vmaxz (d : BitVec 5) (a : BitVec 5) (b : BitVec 5) (m : BitVec 3)
  /-- R133: Element-wise bitwise AND. -/
  | vand (d : BitVec 5) (a : BitVec 5) (b : BitVec 5) (m : BitVec 3)
  /-- R133: Element-wise bitwise OR. -/
  | vor (d : BitVec 5) (a : BitVec 5) (b : BitVec 5) (m : BitVec 3)
  /-- R133: Element-wise bitwise XOR. -/
  | vxor (d : BitVec 5) (a : BitVec 5) (b : BitVec 5) (m : BitVec 3)
  /-- R133: Element-wise left shift. -/
  | vshl (d : BitVec 5) (a : BitVec 5) (b : BitVec 5) (m : BitVec 3)
  /-- R133: Element-wise logical right shift. -/
  | vshr (d : BitVec 5) (a : BitVec 5) (b : BitVec 5) (m : BitVec 3)
  /-- R133: Element-wise arithmetic right shift. -/
  | vsar (d : BitVec 5) (a : BitVec 5) (b : BitVec 5) (m : BitVec 3)
  /-- R133: Element-wise saturating signed add. -/
  | vadds (d : BitVec 5) (a : BitVec 5) (b : BitVec 5) (m : BitVec 3)
  /-- R133: Element-wise saturating signed subtract. -/
  | vsubs (d : BitVec 5) (a : BitVec 5) (b : BitVec 5) (m : BitVec 3)
  /-- R133: Element-wise absolute value. -/
  | vabs (d : BitVec 5) (a : BitVec 5) (m : BitVec 3)
  /-- R134: Element-wise widening signed add into a double-width group. -/
  | vwadd (d : BitVec 5) (a : BitVec 5) (b : BitVec 5) (m : BitVec 3)
  /-- R134: Element-wise widening signed multiply. -/
  | vwmul (d : BitVec 5) (a : BitVec 5) (b : BitVec 5) (m : BitVec 3)
  /-- R134: Narrowing arithmetic right shift of double-width elements. -/
  | vnshr (d : BitVec 5) (a : BitVec 5) (b : BitVec 5) (m : BitVec 3)
  /-- R134: Adds the dot product of four packed signed sub-fields into vd. -/
  | vdot4 (d : BitVec 5) (a : BitVec 5) (b : BitVec 5) (m : BitVec 3)
  /-- R133: Integer add of a vector and a scalar. -/
  | vaddVs (d : BitVec 5) (a : BitVec 5) (b : BitVec 6) (m : BitVec 3)
  /-- R133: Integer subtract of a scalar from a vector. -/
  | vsubVs (d : BitVec 5) (a : BitVec 5) (b : BitVec 6) (m : BitVec 3)
  /-- R133: Low product of a vector and a scalar. -/
  | vmulVs (d : BitVec 5) (a : BitVec 5) (b : BitVec 6) (m : BitVec 3)
  /-- R133: Signed high product of a vector and a scalar. -/
  | vmulhVs (d : BitVec 5) (a : BitVec 5) (b : BitVec 6) (m : BitVec 3)
  /-- R133: Unsigned high product of a vector and a scalar. -/
  | vmulhzVs (d : BitVec 5) (a : BitVec 5) (b : BitVec 6) (m : BitVec 3)
  /-- R133: Signed division of a vector by a scalar. -/
  | vdivVs (d : BitVec 5) (a : BitVec 5) (b : BitVec 6) (m : BitVec 3)
  /-- R133: Signed minimum with a scalar. -/
  | vminVs (d : BitVec 5) (a : BitVec 5) (b : BitVec 6) (m : BitVec 3)
  /-- R133: Signed maximum with a scalar. -/
  | vmaxVs (d : BitVec 5) (a : BitVec 5) (b : BitVec 6) (m : BitVec 3)
  /-- R133: Unsigned minimum with a scalar. -/
  | vminzVs (d : BitVec 5) (a : BitVec 5) (b : BitVec 6) (m : BitVec 3)
  /-- R133: Unsigned maximum with a scalar. -/
  | vmaxzVs (d : BitVec 5) (a : BitVec 5) (b : BitVec 6) (m : BitVec 3)
  /-- R133: Bitwise AND with a scalar. -/
  | vandVs (d : BitVec 5) (a : BitVec 5) (b : BitVec 6) (m : BitVec 3)
  /-- R133: Bitwise OR with a scalar. -/
  | vorVs (d : BitVec 5) (a : BitVec 5) (b : BitVec 6) (m : BitVec 3)
  /-- R133: Bitwise XOR with a scalar. -/
  | vxorVs (d : BitVec 5) (a : BitVec 5) (b : BitVec 6) (m : BitVec 3)
  /-- R133: Left shift by a scalar amount. -/
  | vshlVs (d : BitVec 5) (a : BitVec 5) (b : BitVec 6) (m : BitVec 3)
  /-- R133: Logical right shift by a scalar amount. -/
  | vshrVs (d : BitVec 5) (a : BitVec 5) (b : BitVec 6) (m : BitVec 3)
  /-- R133: Arithmetic right shift by a scalar amount. -/
  | vsarVs (d : BitVec 5) (a : BitVec 5) (b : BitVec 6) (m : BitVec 3)
  /-- R133: Saturating signed add of a scalar. -/
  | vaddsVs (d : BitVec 5) (a : BitVec 5) (b : BitVec 6) (m : BitVec 3)
  /-- R133: Saturating signed subtract of a scalar. -/
  | vsubsVs (d : BitVec 5) (a : BitVec 5) (b : BitVec 6) (m : BitVec 3)
  /-- R134: Widening signed add of a scalar. -/
  | vwaddVs (d : BitVec 5) (a : BitVec 5) (b : BitVec 6) (m : BitVec 3)
  /-- R134: Widening signed multiply by a scalar. -/
  | vwmulVs (d : BitVec 5) (a : BitVec 5) (b : BitVec 6) (m : BitVec 3)
  /-- R134: Narrowing arithmetic right shift by a scalar amount. -/
  | vnshrVs (d : BitVec 5) (a : BitVec 5) (b : BitVec 6) (m : BitVec 3)
  /-- R134: Packed four-way dot product with the fields of a scalar. -/
  | vdot4Vs (d : BitVec 5) (a : BitVec 5) (b : BitVec 6) (m : BitVec 3)
  /-- R135: Element-wise rounded floating-point add. -/
  | vfadd (d : BitVec 5) (a : BitVec 5) (b : BitVec 5) (m : BitVec 3)
  /-- R135: Element-wise rounded floating-point subtract. -/
  | vfsub (d : BitVec 5) (a : BitVec 5) (b : BitVec 5) (m : BitVec 3)
  /-- R135: Element-wise rounded floating-point multiply. -/
  | vfmul (d : BitVec 5) (a : BitVec 5) (b : BitVec 5) (m : BitVec 3)
  /-- R135: Element-wise rounded floating-point divide. -/
  | vfdiv (d : BitVec 5) (a : BitVec 5) (b : BitVec 5) (m : BitVec 3)
  /-- R135: Element-wise rounded square root. -/
  | vfsqrt (d : BitVec 5) (a : BitVec 5) (m : BitVec 3)
  /-- R135: Element-wise fused multiply-add into vd. -/
  | vfma (d : BitVec 5) (a : BitVec 5) (b : BitVec 5) (m : BitVec 3)
  /-- R135: Element-wise fused d − a × b. -/
  | vfnms (d : BitVec 5) (a : BitVec 5) (b : BitVec 5) (m : BitVec 3)
  /-- R135: Element-wise minimumNumber. -/
  | vfmin (d : BitVec 5) (a : BitVec 5) (b : BitVec 5) (m : BitVec 3)
  /-- R135: Element-wise maximumNumber. -/
  | vfmax (d : BitVec 5) (a : BitVec 5) (b : BitVec 5) (m : BitVec 3)
  /-- R136: Converts each element from the VCFG source kind to the type in vb. -/
  | vfcvt (d : BitVec 5) (a : BitVec 5) (t : BitVec 5) (m : BitVec 3)
  /-- R136: Converts each element to type t with saturation. -/
  | vfcvtSat (d : BitVec 5) (a : BitVec 5) (t : BitVec 5) (m : BitVec 3)
  /-- R135: Element-wise correctly rounded reciprocal. -/
  | vfrec (d : BitVec 5) (a : BitVec 5) (m : BitVec 3)
  /-- R135: Element-wise correctly rounded reciprocal square root. -/
  | vfrsq (d : BitVec 5) (a : BitVec 5) (m : BitVec 3)
  /-- R135: Element-wise correctly rounded 2^a. -/
  | vfexp2 (d : BitVec 5) (a : BitVec 5) (m : BitVec 3)
  /-- R135: Writes a one-hot class word for each element. -/
  | vfclass (d : BitVec 5) (a : BitVec 5) (m : BitVec 3)
  /-- R135: Floating-point add of a scalar to each element. -/
  | vfaddVs (d : BitVec 5) (a : BitVec 5) (b : BitVec 6) (m : BitVec 3)
  /-- R135: Floating-point subtract of a scalar from each element. -/
  | vfsubVs (d : BitVec 5) (a : BitVec 5) (b : BitVec 6) (m : BitVec 3)
  /-- R135: Floating-point multiply of each element by a scalar. -/
  | vfmulVs (d : BitVec 5) (a : BitVec 5) (b : BitVec 6) (m : BitVec 3)
  /-- R135: Floating-point divide of each element by a scalar. -/
  | vfdivVs (d : BitVec 5) (a : BitVec 5) (b : BitVec 6) (m : BitVec 3)
  /-- R135: Fused multiply-add with a scalar multiplier. -/
  | vfmaVs (d : BitVec 5) (a : BitVec 5) (b : BitVec 6) (m : BitVec 3)
  /-- R135: Fused d − a × s with a scalar. -/
  | vfnmsVs (d : BitVec 5) (a : BitVec 5) (b : BitVec 6) (m : BitVec 3)
  /-- R135: minimumNumber of each element and a scalar. -/
  | vfminVs (d : BitVec 5) (a : BitVec 5) (b : BitVec 6) (m : BitVec 3)
  /-- R135: maximumNumber of each element and a scalar. -/
  | vfmaxVs (d : BitVec 5) (a : BitVec 5) (b : BitVec 6) (m : BitVec 3)
  /-- R138: Bitwise AND of two mask registers. -/
  | mand (d : BitVec 3) (a : BitVec 3) (b : BitVec 3)
  /-- R138: Bitwise OR of two mask registers. -/
  | mor (d : BitVec 3) (a : BitVec 3) (b : BitVec 3)
  /-- R138: Bitwise XOR of two mask registers. -/
  | mxor (d : BitVec 3) (a : BitVec 3) (b : BitVec 3)
  /-- R138: va AND NOT vb of two mask registers. -/
  | mandn (d : BitVec 3) (a : BitVec 3) (b : BitVec 3)
  /-- R139: Counts the set active bits of a mask into a scalar. -/
  | mpopc (d : BitVec 5) (a : BitVec 3) (m : BitVec 3)
  /-- R139: Writes the index of the first set active mask bit, or all ones. -/
  | mffs (d : BitVec 5) (a : BitVec 3) (m : BitVec 3)
  /-- R139: Sets mask bits below the first set bit of va. -/
  | msbf (d : BitVec 3) (a : BitVec 3) (m : BitVec 3)
  /-- R138: Sets every mask bit below VL. -/
  | mset (d : BitVec 3)
  /-- R139: Sets mask bits where vector elements are non-zero. -/
  | mfromv (d : BitVec 3) (a : BitVec 5) (m : BitVec 3)
  /-- R139: Writes each mask bit as a 0 or 1 element. -/
  | mtov (d : BitVec 5) (a : BitVec 3) (m : BitVec 3)
  /-- R139: Writes for each element the count of set active mask bits below it. -/
  | viota (d : BitVec 5) (a : BitVec 3) (m : BitVec 3)
  /-- R140: Slides elements up by a scalar amount. -/
  | vslup (d : BitVec 5) (a : BitVec 5) (b : BitVec 5) (m : BitVec 3)
  /-- R140: Slides elements down by a scalar amount. -/
  | vsldn (d : BitVec 5) (a : BitVec 5) (b : BitVec 5) (m : BitVec 3)
  /-- R140: Gathers elements of va by the indices in vb. -/
  | vperm (d : BitVec 5) (a : BitVec 5) (b : BitVec 5) (m : BitVec 3)
  /-- R140: Compresses the active elements of va to the bottom of vd. -/
  | vcomp (d : BitVec 5) (a : BitVec 5) (m : BitVec 3)
  /-- R140: Expands consecutive elements of va into the active positions of vd. -/
  | vexpd (d : BitVec 5) (a : BitVec 5) (m : BitVec 3)
  /-- R140: Selects va where active and vb elsewhere. -/
  | vmerge (d : BitVec 5) (a : BitVec 5) (b : BitVec 5) (m : BitVec 3)
  /-- R140: Broadcasts a scalar into the active elements. -/
  | vbcast (d : BitVec 5) (a : BitVec 5) (m : BitVec 3)
  /-- R140: Extracts element s of va into a scalar. -/
  | vextr (d : BitVec 5) (a : BitVec 5) (b : BitVec 5)
  /-- R140: Inserts a scalar into element s of vd. -/
  | vins (d : BitVec 5) (a : BitVec 5) (b : BitVec 5)
  /-- R141: Integer sum reduction of active elements into vd.e[0]. -/
  | vredsum (d : BitVec 5) (a : BitVec 5) (b : BitVec 5) (m : BitVec 3)
  /-- R141: Signed maximum reduction. -/
  | vredmax (d : BitVec 5) (a : BitVec 5) (b : BitVec 5) (m : BitVec 3)
  /-- R141: Signed minimum reduction. -/
  | vredmin (d : BitVec 5) (a : BitVec 5) (b : BitVec 5) (m : BitVec 3)
  /-- R55: Ordered floating-point sum reduction. -/
  | vfredo (d : BitVec 5) (a : BitVec 5) (b : BitVec 5) (m : BitVec 3)
  /-- R55: Tree-ordered floating-point sum reduction. -/
  | vfredu (d : BitVec 5) (a : BitVec 5) (b : BitVec 5) (m : BitVec 3)
  /-- R55: Floating-point maximumNumber reduction. -/
  | vfredmax (d : BitVec 5) (a : BitVec 5) (b : BitVec 5) (m : BitVec 3)
  /-- R142: Inclusive prefix sum over active elements. -/
  | vscan (d : BitVec 5) (a : BitVec 5) (m : BitVec 3)
  /-- R143: Prunes each group of eight INT8 elements to four with metadata. -/
  | vprune48 (d : BitVec 5) (a : BitVec 5)
  deriving DecidableEq, Repr

end Sys2Proof
end

