-- ==== Sys2Proof/WellFormed.lean ====
section
/-! DEFINITION. Which operands an instruction admits (03_encoding R58 to R71; 01_anatomy R20, R25), beyond the width of
each field. The decoder refuses an instruction that fails this check, which at run time is a trap with cause 0x01 (R62). -/

namespace Sys2Proof

/-- A scope that names agents: every code but 7 (01_anatomy R24, R25). -/
def scopeOk (sc : BitVec 3) : Bool := sc != 7

/-- The acquire bit, release bit and scope of a format X word: scope 7 is reserved, and with neither bit set the scope is 0
(03_encoding R60). -/
def orderingOk (a r : BitVec 1) (sc : BitVec 3) : Bool := scopeOk sc && (a == 1 || r == 1 || sc == 0)

/-- The operands of VLDN and VSTN: a format that exists, and no scale base or ZB outside the MX formats (R69). -/
def narrowOk (z : BitVec 1) (ss : BitVec 5) (f : BitVec 4) : Bool :=
  decide (f.toNat ≤ 0xB) && (decide (2 ≤ f.toNat ∧ f.toNat ≤ 7) || (z == 0 && ss == 0))

/-- The destination type codes of VFCVT (R67). -/
def cvtTypeOk (t : BitVec 5) : Bool := decide (t.toNat ≤ 9 ∨ (0xC ≤ t.toNat ∧ t.toNat ≤ 0xF))

/-- A slot number (01_anatomy R20). -/
def slotOk (q : Nat) : Bool := decide (q < 8192)

/-- A core number (01_anatomy R20). -/
def coreOk (k : Nat) : Bool := decide (k < 1024)

/-- A Muaris link number (01_anatomy R20). -/
def linkOk (n : Nat) : Bool := decide (n < 18)

/-- A compute die number (01_anatomy R20). -/
def dieOk (d : Nat) : Bool := decide (d < 8)

/-- The operand checks of each instruction. For a word they are those R62 makes at decode beyond the fixed bits; for an
event they say that the unit it names exists. -/
def wellFormed : Instr → Bool
  | .ld _ _ t _ => t != 7
  | .ldacq _ _ _ sc | .strel _ _ _ sc | .acq _ sc | .rel _ sc | .gfence sc => scopeOk sc
  | .bara _ sc | .barw _ sc | .fwait _ _ sc | .ffill _ _ sc => scopeOk sc
  | .amoadd _ _ _ a r sc | .amoswap _ _ _ a r sc | .amomin _ _ _ a r sc | .amomax _ _ _ a r sc => orderingOk a r sc
  | .amominz _ _ _ a r sc | .amomaxz _ _ _ a r sc | .amoand _ _ _ a r sc => orderingOk a r sc
  | .amoor _ _ _ a r sc | .amoxor _ _ _ a r sc => orderingOk a r sc
  | .amocas d _ _ a r sc => orderingOk a r sc && d.toNat % 2 == 0
  | .vfcvt _ _ t _ | .vfcvtSat _ _ t _ => cvtTypeOk t
  | .vsetvli _ _ c => decide (c.toNat % 8 ≤ 5)
  | .vgrant d _ => decide (1 ≤ d.toNat ∧ d.toNat ≤ 62)
  | .vcmp _ _ _ _ c | .vcmpVs _ _ _ _ c => decide (c.toNat ≤ 5)
  | .vfcmp _ _ _ _ c | .vfcmpVs _ _ _ _ c => decide (c.toNat ≤ 4)
  | .vldn _ _ z ss _ _ f | .vstn _ _ z ss _ _ f => narrowOk z ss f
  | .kst _ _ b => decide (b.toNat ≤ 62)
  | .tmma _ a b _ | .tmmaf _ a b _ | .tmmag _ a b _ | .tmmas _ a b _ _ => a != b
  | .sopen _ _ c sc => orderingOk c 0 sc
  | .cpy _ _ a r sc | .cpys _ _ a r sc => orderingOk a r sc
  | .mimport _ _ a r sc | .mexport _ _ a r sc | .mrefine _ _ a r sc | .mcoarsen _ _ a r sc => orderingOk a r sc
  | .mrenum _ _ a r sc | .mstat _ _ a r sc | .mcolour _ _ a r sc | .mtrim _ _ a r sc => orderingOk a r sc
  | .mmigr _ _ a r sc | .mghost _ _ a r sc | .kproj _ _ a r sc | .kreset _ _ a r sc => orderingOk a r sc
  | .kstat _ _ a r sc => orderingOk a r sc
  | .srd _ n | .swr _ n | .srset _ n | .srclr _ n => decide (n.toNat < 0xF00)
  | .slotStallRelease q | .ulInterruptEntry q | .firstStageSave q | .preemptionLanding q => slotOk q
  | .barrierMarkerFire q _ | .accessPerformed q _ | .spbaseWrite q _ | .vlWrite q _ | .vcfgWrite q _ => slotOk q
  | .vlcapWrite q _ | .accrangeWrite q _ _ | .reefctlClr q | .agelimitWrite q _ | .contextIdWrite q _ _ => slotOk q
  | .vectorIssue k _ | .recheckExecution k _ | .recheckAgeExpiry k | .laneGroupRemap k | .matrixStep k => coreOk k
  | .scratchpadBankArbitration k => coreOk k
  | .neighBucketStreamFetch k p => coreOk k && decide (p < 8)
  | .readyPoolDispatch d | .aging d _ => dieOk d
  | .flitReceive l _ _ d r _ => linkOk l && d.length == 24 && r.length == 4
  | .memtrainEnd _ n t => n % 2 ^ 14 == 0 && decide (n ≤ 2 ^ 43) && (t.ways == 1 || t.ways == 2 || t.ways == 4) && (t.gran == 256 || t.gran == 4096)
  | .nakReceive l _ | .linkTrainingResult l _ | .linkTrainingTimeout l => linkOk l
  | .laneLost l | .errorResponseReceived l _ _ _ => linkOk l
  | .hostInboundAccess p _ _ _ _ _ _ => decide (p < 6)
  | .hostLinkDown p => p == 0 || p == 3
  | .cxlPortFailure p => p == 1 || p == 2 || p == 4 || p == 5
  | _ => true

/-- The words of majors 0x20 to 0x24, the vector arithmetic, mask, permutation and reduction instructions, as the vector
queue holds them: constructor by constructor those of Instr (03_encoding R67, R68). -/
inductive VArith where
  | vadd (d : BitVec 5) (a : BitVec 5) (b : BitVec 5) (m : BitVec 3)
  | vsub (d : BitVec 5) (a : BitVec 5) (b : BitVec 5) (m : BitVec 3)
  | vmul (d : BitVec 5) (a : BitVec 5) (b : BitVec 5) (m : BitVec 3)
  | vmulh (d : BitVec 5) (a : BitVec 5) (b : BitVec 5) (m : BitVec 3)
  | vmulhz (d : BitVec 5) (a : BitVec 5) (b : BitVec 5) (m : BitVec 3)
  | vdiv (d : BitVec 5) (a : BitVec 5) (b : BitVec 5) (m : BitVec 3)
  | vmin (d : BitVec 5) (a : BitVec 5) (b : BitVec 5) (m : BitVec 3)
  | vmax (d : BitVec 5) (a : BitVec 5) (b : BitVec 5) (m : BitVec 3)
  | vminz (d : BitVec 5) (a : BitVec 5) (b : BitVec 5) (m : BitVec 3)
  | vmaxz (d : BitVec 5) (a : BitVec 5) (b : BitVec 5) (m : BitVec 3)
  | vand (d : BitVec 5) (a : BitVec 5) (b : BitVec 5) (m : BitVec 3)
  | vor (d : BitVec 5) (a : BitVec 5) (b : BitVec 5) (m : BitVec 3)
  | vxor (d : BitVec 5) (a : BitVec 5) (b : BitVec 5) (m : BitVec 3)
  | vshl (d : BitVec 5) (a : BitVec 5) (b : BitVec 5) (m : BitVec 3)
  | vshr (d : BitVec 5) (a : BitVec 5) (b : BitVec 5) (m : BitVec 3)
  | vsar (d : BitVec 5) (a : BitVec 5) (b : BitVec 5) (m : BitVec 3)
  | vadds (d : BitVec 5) (a : BitVec 5) (b : BitVec 5) (m : BitVec 3)
  | vsubs (d : BitVec 5) (a : BitVec 5) (b : BitVec 5) (m : BitVec 3)
  | vabs (d : BitVec 5) (a : BitVec 5) (m : BitVec 3)
  | vwadd (d : BitVec 5) (a : BitVec 5) (b : BitVec 5) (m : BitVec 3)
  | vwmul (d : BitVec 5) (a : BitVec 5) (b : BitVec 5) (m : BitVec 3)
  | vnshr (d : BitVec 5) (a : BitVec 5) (b : BitVec 5) (m : BitVec 3)
  | vdot4 (d : BitVec 5) (a : BitVec 5) (b : BitVec 5) (m : BitVec 3)
  | vaddVs (d : BitVec 5) (a : BitVec 5) (b : BitVec 6) (m : BitVec 3)
  | vsubVs (d : BitVec 5) (a : BitVec 5) (b : BitVec 6) (m : BitVec 3)
  | vmulVs (d : BitVec 5) (a : BitVec 5) (b : BitVec 6) (m : BitVec 3)
  | vmulhVs (d : BitVec 5) (a : BitVec 5) (b : BitVec 6) (m : BitVec 3)
  | vmulhzVs (d : BitVec 5) (a : BitVec 5) (b : BitVec 6) (m : BitVec 3)
  | vdivVs (d : BitVec 5) (a : BitVec 5) (b : BitVec 6) (m : BitVec 3)
  | vminVs (d : BitVec 5) (a : BitVec 5) (b : BitVec 6) (m : BitVec 3)
  | vmaxVs (d : BitVec 5) (a : BitVec 5) (b : BitVec 6) (m : BitVec 3)
  | vminzVs (d : BitVec 5) (a : BitVec 5) (b : BitVec 6) (m : BitVec 3)
  | vmaxzVs (d : BitVec 5) (a : BitVec 5) (b : BitVec 6) (m : BitVec 3)
  | vandVs (d : BitVec 5) (a : BitVec 5) (b : BitVec 6) (m : BitVec 3)
  | vorVs (d : BitVec 5) (a : BitVec 5) (b : BitVec 6) (m : BitVec 3)
  | vxorVs (d : BitVec 5) (a : BitVec 5) (b : BitVec 6) (m : BitVec 3)
  | vshlVs (d : BitVec 5) (a : BitVec 5) (b : BitVec 6) (m : BitVec 3)
  | vshrVs (d : BitVec 5) (a : BitVec 5) (b : BitVec 6) (m : BitVec 3)
  | vsarVs (d : BitVec 5) (a : BitVec 5) (b : BitVec 6) (m : BitVec 3)
  | vaddsVs (d : BitVec 5) (a : BitVec 5) (b : BitVec 6) (m : BitVec 3)
  | vsubsVs (d : BitVec 5) (a : BitVec 5) (b : BitVec 6) (m : BitVec 3)
  | vwaddVs (d : BitVec 5) (a : BitVec 5) (b : BitVec 6) (m : BitVec 3)
  | vwmulVs (d : BitVec 5) (a : BitVec 5) (b : BitVec 6) (m : BitVec 3)
  | vnshrVs (d : BitVec 5) (a : BitVec 5) (b : BitVec 6) (m : BitVec 3)
  | vdot4Vs (d : BitVec 5) (a : BitVec 5) (b : BitVec 6) (m : BitVec 3)
  | vfadd (d : BitVec 5) (a : BitVec 5) (b : BitVec 5) (m : BitVec 3)
  | vfsub (d : BitVec 5) (a : BitVec 5) (b : BitVec 5) (m : BitVec 3)
  | vfmul (d : BitVec 5) (a : BitVec 5) (b : BitVec 5) (m : BitVec 3)
  | vfdiv (d : BitVec 5) (a : BitVec 5) (b : BitVec 5) (m : BitVec 3)
  | vfsqrt (d : BitVec 5) (a : BitVec 5) (m : BitVec 3)
  | vfma (d : BitVec 5) (a : BitVec 5) (b : BitVec 5) (m : BitVec 3)
  | vfnms (d : BitVec 5) (a : BitVec 5) (b : BitVec 5) (m : BitVec 3)
  | vfmin (d : BitVec 5) (a : BitVec 5) (b : BitVec 5) (m : BitVec 3)
  | vfmax (d : BitVec 5) (a : BitVec 5) (b : BitVec 5) (m : BitVec 3)
  | vfcvt (d : BitVec 5) (a : BitVec 5) (t : BitVec 5) (m : BitVec 3)
  | vfcvtSat (d : BitVec 5) (a : BitVec 5) (t : BitVec 5) (m : BitVec 3)
  | vfrec (d : BitVec 5) (a : BitVec 5) (m : BitVec 3)
  | vfrsq (d : BitVec 5) (a : BitVec 5) (m : BitVec 3)
  | vfexp2 (d : BitVec 5) (a : BitVec 5) (m : BitVec 3)
  | vfclass (d : BitVec 5) (a : BitVec 5) (m : BitVec 3)
  | vfaddVs (d : BitVec 5) (a : BitVec 5) (b : BitVec 6) (m : BitVec 3)
  | vfsubVs (d : BitVec 5) (a : BitVec 5) (b : BitVec 6) (m : BitVec 3)
  | vfmulVs (d : BitVec 5) (a : BitVec 5) (b : BitVec 6) (m : BitVec 3)
  | vfdivVs (d : BitVec 5) (a : BitVec 5) (b : BitVec 6) (m : BitVec 3)
  | vfmaVs (d : BitVec 5) (a : BitVec 5) (b : BitVec 6) (m : BitVec 3)
  | vfnmsVs (d : BitVec 5) (a : BitVec 5) (b : BitVec 6) (m : BitVec 3)
  | vfminVs (d : BitVec 5) (a : BitVec 5) (b : BitVec 6) (m : BitVec 3)
  | vfmaxVs (d : BitVec 5) (a : BitVec 5) (b : BitVec 6) (m : BitVec 3)
  | mand (d : BitVec 3) (a : BitVec 3) (b : BitVec 3)
  | mor (d : BitVec 3) (a : BitVec 3) (b : BitVec 3)
  | mxor (d : BitVec 3) (a : BitVec 3) (b : BitVec 3)
  | mandn (d : BitVec 3) (a : BitVec 3) (b : BitVec 3)
  | mpopc (d : BitVec 5) (a : BitVec 3) (m : BitVec 3)
  | mffs (d : BitVec 5) (a : BitVec 3) (m : BitVec 3)
  | msbf (d : BitVec 3) (a : BitVec 3) (m : BitVec 3)
  | mset (d : BitVec 3)
  | mfromv (d : BitVec 3) (a : BitVec 5) (m : BitVec 3)
  | mtov (d : BitVec 5) (a : BitVec 3) (m : BitVec 3)
  | viota (d : BitVec 5) (a : BitVec 3) (m : BitVec 3)
  | vslup (d : BitVec 5) (a : BitVec 5) (b : BitVec 5) (m : BitVec 3)
  | vsldn (d : BitVec 5) (a : BitVec 5) (b : BitVec 5) (m : BitVec 3)
  | vperm (d : BitVec 5) (a : BitVec 5) (b : BitVec 5) (m : BitVec 3)
  | vcomp (d : BitVec 5) (a : BitVec 5) (m : BitVec 3)
  | vexpd (d : BitVec 5) (a : BitVec 5) (m : BitVec 3)
  | vmerge (d : BitVec 5) (a : BitVec 5) (b : BitVec 5) (m : BitVec 3)
  | vbcast (d : BitVec 5) (a : BitVec 5) (m : BitVec 3)
  | vextr (d : BitVec 5) (a : BitVec 5) (b : BitVec 5)
  | vins (d : BitVec 5) (a : BitVec 5) (b : BitVec 5)
  | vredsum (d : BitVec 5) (a : BitVec 5) (b : BitVec 5) (m : BitVec 3)
  | vredmax (d : BitVec 5) (a : BitVec 5) (b : BitVec 5) (m : BitVec 3)
  | vredmin (d : BitVec 5) (a : BitVec 5) (b : BitVec 5) (m : BitVec 3)
  | vfredo (d : BitVec 5) (a : BitVec 5) (b : BitVec 5) (m : BitVec 3)
  | vfredu (d : BitVec 5) (a : BitVec 5) (b : BitVec 5) (m : BitVec 3)
  | vfredmax (d : BitVec 5) (a : BitVec 5) (b : BitVec 5) (m : BitVec 3)
  | vscan (d : BitVec 5) (a : BitVec 5) (m : BitVec 3)
  | vprune48 (d : BitVec 5) (a : BitVec 5)
  deriving DecidableEq, Repr

/-- The instruction that a vector arithmetic word is. -/
noncomputable def VArith.toInstr : VArith → Instr
  | .vadd d a b m => .vadd d a b m
  | .vsub d a b m => .vsub d a b m
  | .vmul d a b m => .vmul d a b m
  | .vmulh d a b m => .vmulh d a b m
  | .vmulhz d a b m => .vmulhz d a b m
  | .vdiv d a b m => .vdiv d a b m
  | .vmin d a b m => .vmin d a b m
  | .vmax d a b m => .vmax d a b m
  | .vminz d a b m => .vminz d a b m
  | .vmaxz d a b m => .vmaxz d a b m
  | .vand d a b m => .vand d a b m
  | .vor d a b m => .vor d a b m
  | .vxor d a b m => .vxor d a b m
  | .vshl d a b m => .vshl d a b m
  | .vshr d a b m => .vshr d a b m
  | .vsar d a b m => .vsar d a b m
  | .vadds d a b m => .vadds d a b m
  | .vsubs d a b m => .vsubs d a b m
  | .vabs d a m => .vabs d a m
  | .vwadd d a b m => .vwadd d a b m
  | .vwmul d a b m => .vwmul d a b m
  | .vnshr d a b m => .vnshr d a b m
  | .vdot4 d a b m => .vdot4 d a b m
  | .vaddVs d a b m => .vaddVs d a b m
  | .vsubVs d a b m => .vsubVs d a b m
  | .vmulVs d a b m => .vmulVs d a b m
  | .vmulhVs d a b m => .vmulhVs d a b m
  | .vmulhzVs d a b m => .vmulhzVs d a b m
  | .vdivVs d a b m => .vdivVs d a b m
  | .vminVs d a b m => .vminVs d a b m
  | .vmaxVs d a b m => .vmaxVs d a b m
  | .vminzVs d a b m => .vminzVs d a b m
  | .vmaxzVs d a b m => .vmaxzVs d a b m
  | .vandVs d a b m => .vandVs d a b m
  | .vorVs d a b m => .vorVs d a b m
  | .vxorVs d a b m => .vxorVs d a b m
  | .vshlVs d a b m => .vshlVs d a b m
  | .vshrVs d a b m => .vshrVs d a b m
  | .vsarVs d a b m => .vsarVs d a b m
  | .vaddsVs d a b m => .vaddsVs d a b m
  | .vsubsVs d a b m => .vsubsVs d a b m
  | .vwaddVs d a b m => .vwaddVs d a b m
  | .vwmulVs d a b m => .vwmulVs d a b m
  | .vnshrVs d a b m => .vnshrVs d a b m
  | .vdot4Vs d a b m => .vdot4Vs d a b m
  | .vfadd d a b m => .vfadd d a b m
  | .vfsub d a b m => .vfsub d a b m
  | .vfmul d a b m => .vfmul d a b m
  | .vfdiv d a b m => .vfdiv d a b m
  | .vfsqrt d a m => .vfsqrt d a m
  | .vfma d a b m => .vfma d a b m
  | .vfnms d a b m => .vfnms d a b m
  | .vfmin d a b m => .vfmin d a b m
  | .vfmax d a b m => .vfmax d a b m
  | .vfcvt d a t m => .vfcvt d a t m
  | .vfcvtSat d a t m => .vfcvtSat d a t m
  | .vfrec d a m => .vfrec d a m
  | .vfrsq d a m => .vfrsq d a m
  | .vfexp2 d a m => .vfexp2 d a m
  | .vfclass d a m => .vfclass d a m
  | .vfaddVs d a b m => .vfaddVs d a b m
  | .vfsubVs d a b m => .vfsubVs d a b m
  | .vfmulVs d a b m => .vfmulVs d a b m
  | .vfdivVs d a b m => .vfdivVs d a b m
  | .vfmaVs d a b m => .vfmaVs d a b m
  | .vfnmsVs d a b m => .vfnmsVs d a b m
  | .vfminVs d a b m => .vfminVs d a b m
  | .vfmaxVs d a b m => .vfmaxVs d a b m
  | .mand d a b => .mand d a b
  | .mor d a b => .mor d a b
  | .mxor d a b => .mxor d a b
  | .mandn d a b => .mandn d a b
  | .mpopc d a m => .mpopc d a m
  | .mffs d a m => .mffs d a m
  | .msbf d a m => .msbf d a m
  | .mset d => .mset d
  | .mfromv d a m => .mfromv d a m
  | .mtov d a m => .mtov d a m
  | .viota d a m => .viota d a m
  | .vslup d a b m => .vslup d a b m
  | .vsldn d a b m => .vsldn d a b m
  | .vperm d a b m => .vperm d a b m
  | .vcomp d a m => .vcomp d a m
  | .vexpd d a m => .vexpd d a m
  | .vmerge d a b m => .vmerge d a b m
  | .vbcast d a m => .vbcast d a m
  | .vextr d a b => .vextr d a b
  | .vins d a b => .vins d a b
  | .vredsum d a b m => .vredsum d a b m
  | .vredmax d a b m => .vredmax d a b m
  | .vredmin d a b m => .vredmin d a b m
  | .vfredo d a b m => .vfredo d a b m
  | .vfredu d a b m => .vfredu d a b m
  | .vfredmax d a b m => .vfredmax d a b m
  | .vscan d a m => .vscan d a m
  | .vprune48 d a => .vprune48 d a

/-- What the decoder reads from a word: a vector arithmetic word, or any other instruction. -/
inductive Row where
  | instr (i : Instr)
  | arith (c : VArith)
  deriving DecidableEq, Repr

/-- The instruction that a decoded word is. -/
noncomputable def Row.toInstr : Row → Instr
  | .instr i => i
  | .arith c => c.toInstr

/-- The operand checks of a vector arithmetic word: only the type code of VFCVT leaves values out (R67). -/
def wellFormedArith : VArith → Bool
  | .vfcvt _ _ t _ | .vfcvtSat _ _ t _ => cvtTypeOk t
  | _ => true

/-- The operand checks of a decoded word. -/
def wellFormedRow : Row → Bool
  | .instr i => wellFormed i
  | .arith c => wellFormedArith c

/-- Why a word is no instruction. Every reason is a trap with cause 0x01 at run time (03_encoding R62). -/
inductive DecodeError where
  /-- Fewer than four bytes are there to decode. -/
  | tooShort
  /-- An illegal or reserved major opcode (R61). -/
  | illegalMajor
  /-- A function, op or kind code that no table assigns, or a non-zero bit in a field marked zero (R62). -/
  | unassignedCode
  /-- An operand outside the set its field allows (R60, R63 to R71). -/
  | operandOutOfSet
  deriving DecidableEq, Repr

/-- Whether a field names a scalar or a vector register, for the offsets of a REP frame (04_sequencer R106). -/
inductive RegKind where
  | scalar
  | vector
  deriving DecidableEq, Repr

/-- One register field of a word: its kind, its width and its lowest bit (03_encoding R58). -/
structure RegField where
  kind : RegKind
  width : Nat
  lo : Nat
  deriving DecidableEq, Repr

end Sys2Proof
end

