-- ==== Sys2Proof/Decode.lean ====
section
/-! DEFINITION. The decoder and the encoder of instruction words (03_encoding R58 to R71), and the register offsets of a
REP frame (04_sequencer R106). Memory is little-endian (00_scope R3), so a word is its four bytes, lowest first. -/

namespace Sys2Proof

/-- Bits hi down to lo of the word w, as a number (00_scope R3). -/
def field (w hi lo : Nat) : Nat := w / 2 ^ lo % 2 ^ (hi + 1 - lo)

/-- The n bits of the word w from bit lo upward. -/
def bits (n w lo : Nat) : BitVec n := BitVec.ofNat n (w / 2 ^ lo)

/-- The rows of major 0x01 (03_encoding R61 to R71), read field by field. -/
def decodeMajor01 (w : Nat) : Option Instr :=
  if field w 7 0 = 0 then some (.add (bits 6 w 20) (bits 6 w 14) (bits 6 w 8)) else
  if field w 7 0 = 1 then some (.sub (bits 6 w 20) (bits 6 w 14) (bits 6 w 8)) else
  if field w 7 0 = 2 then some (.and (bits 6 w 20) (bits 6 w 14) (bits 6 w 8)) else
  if field w 7 0 = 3 then some (.or (bits 6 w 20) (bits 6 w 14) (bits 6 w 8)) else
  if field w 7 0 = 4 then some (.xor (bits 6 w 20) (bits 6 w 14) (bits 6 w 8)) else
  if field w 7 0 = 5 then some (.andn (bits 6 w 20) (bits 6 w 14) (bits 6 w 8)) else
  if field w 7 0 = 6 then some (.shl (bits 6 w 20) (bits 6 w 14) (bits 6 w 8)) else
  if field w 7 0 = 7 then some (.shr (bits 6 w 20) (bits 6 w 14) (bits 6 w 8)) else
  if field w 7 0 = 8 then some (.sar (bits 6 w 20) (bits 6 w 14) (bits 6 w 8)) else
  if field w 7 0 = 9 then some (.mul (bits 6 w 20) (bits 6 w 14) (bits 6 w 8)) else
  if field w 7 0 = 0xa then some (.mulh (bits 6 w 20) (bits 6 w 14) (bits 6 w 8)) else
  if field w 7 0 = 0xb then some (.mulhz (bits 6 w 20) (bits 6 w 14) (bits 6 w 8)) else
  if field w 7 0 = 0xc then some (.div (bits 6 w 20) (bits 6 w 14) (bits 6 w 8)) else
  if field w 7 0 = 0xd then some (.divz (bits 6 w 20) (bits 6 w 14) (bits 6 w 8)) else
  if field w 7 0 = 0xe then some (.rem (bits 6 w 20) (bits 6 w 14) (bits 6 w 8)) else
  if field w 7 0 = 0xf then some (.remz (bits 6 w 20) (bits 6 w 14) (bits 6 w 8)) else
  if field w 7 0 = 0x10 then some (.min (bits 6 w 20) (bits 6 w 14) (bits 6 w 8)) else
  if field w 7 0 = 0x11 then some (.max (bits 6 w 20) (bits 6 w 14) (bits 6 w 8)) else
  if field w 7 0 = 0x12 then some (.minz (bits 6 w 20) (bits 6 w 14) (bits 6 w 8)) else
  if field w 7 0 = 0x13 then some (.maxz (bits 6 w 20) (bits 6 w 14) (bits 6 w 8)) else
  if field w 7 2 = 5 then some (.addsh (bits 6 w 20) (bits 6 w 14) (bits 6 w 8) (bits 2 w 0)) else
  if field w 7 0 = 0x18 then some (.sel (bits 6 w 20) (bits 6 w 14) (bits 6 w 8)) else
  if field w 7 0 = 0x19 then some (.cmpeq (bits 6 w 20) (bits 6 w 14) (bits 6 w 8)) else
  if field w 7 0 = 0x1a then some (.cmplt (bits 6 w 20) (bits 6 w 14) (bits 6 w 8)) else
  if field w 7 0 = 0x1b then some (.cmpltz (bits 6 w 20) (bits 6 w 14) (bits 6 w 8)) else
  if field w 13 0 = 0x1c then some (.clz (bits 6 w 20) (bits 6 w 14)) else
  if field w 13 0 = 0x1d then some (.ctz (bits 6 w 20) (bits 6 w 14)) else
  if field w 13 0 = 0x1e then some (.popc (bits 6 w 20) (bits 6 w 14)) else
  if field w 13 0 = 0x1f then some (.bswap (bits 6 w 20) (bits 6 w 14)) else
  none

/-- The rows of major 0x02 (03_encoding R61 to R71), read field by field. -/
def decodeMajor02 (w : Nat) : Option Instr :=
  if field w 7 1 = 0 then some (.fadd (bits 6 w 20) (bits 6 w 14) (bits 6 w 8) (bits 1 w 0)) else
  if field w 7 1 = 1 then some (.fsub (bits 6 w 20) (bits 6 w 14) (bits 6 w 8) (bits 1 w 0)) else
  if field w 7 1 = 2 then some (.fmul (bits 6 w 20) (bits 6 w 14) (bits 6 w 8) (bits 1 w 0)) else
  if field w 7 1 = 3 then some (.fdiv (bits 6 w 20) (bits 6 w 14) (bits 6 w 8) (bits 1 w 0)) else
  if field w 13 1 = 4 then some (.fsqrt (bits 6 w 20) (bits 6 w 14) (bits 1 w 0)) else
  if field w 7 1 = 5 then some (.fma (bits 6 w 20) (bits 6 w 14) (bits 6 w 8) (bits 1 w 0)) else
  if field w 7 1 = 6 then some (.fmin (bits 6 w 20) (bits 6 w 14) (bits 6 w 8) (bits 1 w 0)) else
  if field w 7 1 = 7 then some (.fmax (bits 6 w 20) (bits 6 w 14) (bits 6 w 8) (bits 1 w 0)) else
  if field w 7 3 = 2 then some (.fcmp (bits 6 w 20) (bits 6 w 14) (bits 6 w 8) (bits 2 w 1) (bits 1 w 0)) else
  if field w 13 0 = 0x20 then some (.fcvtDS (bits 6 w 20) (bits 6 w 14)) else
  if field w 13 0 = 0x21 then some (.fcvtSD (bits 6 w 20) (bits 6 w 14)) else
  if field w 13 0 = 0x22 then some (.fcvtDI64 (bits 6 w 20) (bits 6 w 14)) else
  if field w 13 0 = 0x23 then some (.fcvtSI64 (bits 6 w 20) (bits 6 w 14)) else
  if field w 13 0 = 0x24 then some (.fcvtDZ64 (bits 6 w 20) (bits 6 w 14)) else
  if field w 13 0 = 0x25 then some (.fcvtSZ64 (bits 6 w 20) (bits 6 w 14)) else
  if field w 13 0 = 0x26 then some (.fcvtI64D (bits 6 w 20) (bits 6 w 14)) else
  if field w 13 0 = 0x27 then some (.fcvtI64S (bits 6 w 20) (bits 6 w 14)) else
  if field w 13 0 = 0x28 then some (.fcvtZ64D (bits 6 w 20) (bits 6 w 14)) else
  if field w 13 0 = 0x29 then some (.fcvtZ64S (bits 6 w 20) (bits 6 w 14)) else
  none

/-- The rows of major 0x03 (03_encoding R61 to R71), read field by field. -/
def decodeMajor03 (w : Nat) : Option Instr :=
  some (.addi (bits 6 w 20) (bits 6 w 14) (bits 14 w 0))

/-- The rows of major 0x04 (03_encoding R61 to R71), read field by field. -/
def decodeMajor04 (w : Nat) : Option Instr :=
  some (.andi (bits 6 w 20) (bits 6 w 14) (bits 14 w 0))

/-- The rows of major 0x05 (03_encoding R61 to R71), read field by field. -/
def decodeMajor05 (w : Nat) : Option Instr :=
  some (.ori (bits 6 w 20) (bits 6 w 14) (bits 14 w 0))

/-- The rows of major 0x06 (03_encoding R61 to R71), read field by field. -/
def decodeMajor06 (w : Nat) : Option Instr :=
  some (.xori (bits 6 w 20) (bits 6 w 14) (bits 14 w 0))

/-- The rows of major 0x07 (03_encoding R61 to R71), read field by field. -/
def decodeMajor07 (w : Nat) : Option Instr :=
  if field w 13 6 = 0 then some (.shli (bits 6 w 20) (bits 6 w 14) (bits 6 w 0)) else
  if field w 13 6 = 0x40 then some (.shri (bits 6 w 20) (bits 6 w 14) (bits 6 w 0)) else
  if field w 13 6 = 0x80 then some (.sari (bits 6 w 20) (bits 6 w 14) (bits 6 w 0)) else
  none

/-- The rows of major 0x08 (03_encoding R61 to R71), read field by field. -/
def decodeMajor08 (w : Nat) : Option Instr :=
  some (.cmplti (bits 6 w 20) (bits 6 w 14) (bits 14 w 0))

/-- The rows of major 0x09 (03_encoding R61 to R71), read field by field. -/
def decodeMajor09 (w : Nat) : Option Instr :=
  some (.lih (bits 6 w 20) (bits 20 w 0))

/-- The rows of major 0x0a (03_encoding R61 to R71), read field by field. -/
def decodeMajor0A (w : Nat) : Option Instr :=
  some (.addpc (bits 6 w 20) (bits 20 w 0))

/-- The rows of major 0x0b (03_encoding R61 to R71), read field by field. -/
def decodeMajor0B (w : Nat) : Option Instr :=
  some (.ld (bits 6 w 20) (bits 6 w 14) (bits 3 w 11) (bits 11 w 0))

/-- The rows of major 0x0c (03_encoding R61 to R71), read field by field. -/
def decodeMajor0C (w : Nat) : Option Instr :=
  if field w 11 11 = 0 then some (.st (bits 6 w 20) (bits 6 w 14) (bits 2 w 12) (bits 11 w 0)) else
  none

/-- The rows of major 0x0d (03_encoding R61 to R71), read field by field. -/
def decodeMajor0D (w : Nat) : Option Instr :=
  if field w 4 3 = 2 ∧ field w 13 7 = 0 then some (.ldacq (bits 6 w 20) (bits 6 w 14) (bits 2 w 5) (bits 3 w 0)) else
  if field w 4 3 = 1 ∧ field w 13 7 = 2 then some (.strel (bits 6 w 20) (bits 6 w 14) (bits 2 w 5) (bits 3 w 0)) else
  if field w 13 3 = 0x4e ∧ field w 25 20 = 0 then some (.acq (bits 6 w 14) (bits 3 w 0)) else
  if field w 13 3 = 0x6d ∧ field w 25 20 = 0 then some (.rel (bits 6 w 14) (bits 3 w 0)) else
  if field w 13 0 = 0x400 then some (.gbind (bits 6 w 20) (bits 6 w 14)) else
  if field w 13 0 = 0x500 ∧ field w 25 20 = 0 then some (.gunbind (bits 6 w 14)) else
  if field w 25 3 = 0xc3 then some (.gfence (bits 3 w 0)) else
  none

/-- The rows of major 0x0e (03_encoding R61 to R71), read field by field. -/
def decodeMajor0E (w : Nat) : Option Instr :=
  if field w 13 6 = 1 then some (.amoadd (bits 6 w 20) (bits 6 w 14) (bits 1 w 5) (bits 1 w 4) (bits 1 w 3) (bits 3 w 0)) else
  if field w 13 6 = 5 then some (.amoswap (bits 6 w 20) (bits 6 w 14) (bits 1 w 5) (bits 1 w 4) (bits 1 w 3) (bits 3 w 0)) else
  if field w 13 6 = 9 then some (.amocas (bits 6 w 20) (bits 6 w 14) (bits 1 w 5) (bits 1 w 4) (bits 1 w 3) (bits 3 w 0)) else
  if field w 13 6 = 0xd then some (.amomin (bits 6 w 20) (bits 6 w 14) (bits 1 w 5) (bits 1 w 4) (bits 1 w 3) (bits 3 w 0)) else
  if field w 13 6 = 0x11 then some (.amomax (bits 6 w 20) (bits 6 w 14) (bits 1 w 5) (bits 1 w 4) (bits 1 w 3) (bits 3 w 0)) else
  if field w 13 6 = 0x15 then some (.amominz (bits 6 w 20) (bits 6 w 14) (bits 1 w 5) (bits 1 w 4) (bits 1 w 3) (bits 3 w 0)) else
  if field w 13 6 = 0x19 then some (.amomaxz (bits 6 w 20) (bits 6 w 14) (bits 1 w 5) (bits 1 w 4) (bits 1 w 3) (bits 3 w 0)) else
  if field w 13 6 = 0x1d then some (.amoand (bits 6 w 20) (bits 6 w 14) (bits 1 w 5) (bits 1 w 4) (bits 1 w 3) (bits 3 w 0)) else
  if field w 13 6 = 0x21 then some (.amoor (bits 6 w 20) (bits 6 w 14) (bits 1 w 5) (bits 1 w 4) (bits 1 w 3) (bits 3 w 0)) else
  if field w 13 6 = 0x25 then some (.amoxor (bits 6 w 20) (bits 6 w 14) (bits 1 w 5) (bits 1 w 4) (bits 1 w 3) (bits 3 w 0)) else
  none

/-- The rows of major 0x10 (03_encoding R61 to R71), read field by field. -/
def decodeMajor10 (w : Nat) : Option Instr :=
  some (.beq (bits 6 w 20) (bits 6 w 14) (bits 14 w 0))

/-- The rows of major 0x11 (03_encoding R61 to R71), read field by field. -/
def decodeMajor11 (w : Nat) : Option Instr :=
  some (.bne (bits 6 w 20) (bits 6 w 14) (bits 14 w 0))

/-- The rows of major 0x12 (03_encoding R61 to R71), read field by field. -/
def decodeMajor12 (w : Nat) : Option Instr :=
  some (.blt (bits 6 w 20) (bits 6 w 14) (bits 14 w 0))

/-- The rows of major 0x13 (03_encoding R61 to R71), read field by field. -/
def decodeMajor13 (w : Nat) : Option Instr :=
  some (.bge (bits 6 w 20) (bits 6 w 14) (bits 14 w 0))

/-- The rows of major 0x14 (03_encoding R61 to R71), read field by field. -/
def decodeMajor14 (w : Nat) : Option Instr :=
  some (.bltz (bits 6 w 20) (bits 6 w 14) (bits 14 w 0))

/-- The rows of major 0x15 (03_encoding R61 to R71), read field by field. -/
def decodeMajor15 (w : Nat) : Option Instr :=
  some (.bgez (bits 6 w 20) (bits 6 w 14) (bits 14 w 0))

/-- The rows of major 0x16 (03_encoding R61 to R71), read field by field. -/
def decodeMajor16 (w : Nat) : Option Instr :=
  some (.j (bits 26 w 0))

/-- The rows of major 0x17 (03_encoding R61 to R71), read field by field. -/
def decodeMajor17 (w : Nat) : Option Instr :=
  some (.call (bits 26 w 0))

/-- The rows of major 0x18 (03_encoding R61 to R71), read field by field. -/
def decodeMajor18 (w : Nat) : Option Instr :=
  if field w 13 0 = 0 ∧ field w 25 20 = 0 then some (.jr (bits 6 w 14)) else
  if field w 13 0 = 1 ∧ field w 25 20 = 0 then some (.callr (bits 6 w 14)) else
  if field w 25 0 = 2 then some .ret else
  none

/-- The rows of major 0x19 (03_encoding R61 to R71), read field by field. -/
def decodeMajor19 (w : Nat) : Option Instr :=
  some (.loop (bits 10 w 16) (bits 16 w 0))

/-- The rows of major 0x1a (03_encoding R61 to R71), read field by field. -/
def decodeMajor1A (w : Nat) : Option Instr :=
  if field w 9 0 = 0 then some (.loopr (bits 10 w 16) (bits 6 w 10)) else
  if field w 9 0 = 1 ∧ field w 25 16 = 0 then some (.lbrk (bits 6 w 10)) else
  none

/-- The rows of major 0x1b (03_encoding R61 to R71), read field by field. -/
def decodeMajor1B (w : Nat) : Option Instr :=
  if field w 3 0 = 0 then some (.rep (bits 4 w 22) (bits 8 w 14) (bits 4 w 10) (bits 6 w 4)) else
  none

/-- The rows of major 0x1c (03_encoding R61 to R71), read field by field. -/
def decodeMajor1C (w : Nat) : Option Instr :=
  if field w 1 0 = 0 then some (.wait (bits 6 w 20) (bits 6 w 14) (bits 6 w 8) (bits 6 w 2)) else
  none

/-- The rows of major 0x1d (03_encoding R61 to R71), read field by field. -/
def decodeMajor1D (w : Nat) : Option Instr :=
  if field w 25 0 = 0 then some .fenceSv else
  if field w 25 0 = 0x100 then some .fenceVs else
  if field w 25 0 = 0x200 then some .fenceVv else
  if field w 13 0 = 0x800 then some (.bari (bits 6 w 20) (bits 6 w 14)) else
  if field w 13 3 = 0x121 ∧ field w 25 20 = 0 then some (.bara (bits 6 w 14) (bits 3 w 0)) else
  if field w 13 3 = 0x142 ∧ field w 25 20 = 0 then some (.barw (bits 6 w 14) (bits 3 w 0)) else
  if field w 13 3 = 0x202 then some (.fwait (bits 6 w 20) (bits 6 w 14) (bits 3 w 0)) else
  if field w 13 3 = 0x221 then some (.ffill (bits 6 w 20) (bits 6 w 14) (bits 3 w 0)) else
  if field w 13 0 = 0x1200 ∧ field w 25 20 = 0 then some (.freset (bits 6 w 14)) else
  none

/-- The rows of major 0x20 (03_encoding R61 to R71), read field by field. -/
def decodeMajor20 (w : Nat) : Option VArith :=
  if field w 7 0 = 0 then some (.vadd (bits 5 w 21) (bits 5 w 16) (bits 5 w 11) (bits 3 w 8)) else
  if field w 7 0 = 1 then some (.vsub (bits 5 w 21) (bits 5 w 16) (bits 5 w 11) (bits 3 w 8)) else
  if field w 7 0 = 2 then some (.vmul (bits 5 w 21) (bits 5 w 16) (bits 5 w 11) (bits 3 w 8)) else
  if field w 7 0 = 3 then some (.vmulh (bits 5 w 21) (bits 5 w 16) (bits 5 w 11) (bits 3 w 8)) else
  if field w 7 0 = 4 then some (.vmulhz (bits 5 w 21) (bits 5 w 16) (bits 5 w 11) (bits 3 w 8)) else
  if field w 7 0 = 5 then some (.vdiv (bits 5 w 21) (bits 5 w 16) (bits 5 w 11) (bits 3 w 8)) else
  if field w 7 0 = 6 then some (.vmin (bits 5 w 21) (bits 5 w 16) (bits 5 w 11) (bits 3 w 8)) else
  if field w 7 0 = 7 then some (.vmax (bits 5 w 21) (bits 5 w 16) (bits 5 w 11) (bits 3 w 8)) else
  if field w 7 0 = 8 then some (.vminz (bits 5 w 21) (bits 5 w 16) (bits 5 w 11) (bits 3 w 8)) else
  if field w 7 0 = 9 then some (.vmaxz (bits 5 w 21) (bits 5 w 16) (bits 5 w 11) (bits 3 w 8)) else
  if field w 7 0 = 0xa then some (.vand (bits 5 w 21) (bits 5 w 16) (bits 5 w 11) (bits 3 w 8)) else
  if field w 7 0 = 0xb then some (.vor (bits 5 w 21) (bits 5 w 16) (bits 5 w 11) (bits 3 w 8)) else
  if field w 7 0 = 0xc then some (.vxor (bits 5 w 21) (bits 5 w 16) (bits 5 w 11) (bits 3 w 8)) else
  if field w 7 0 = 0xd then some (.vshl (bits 5 w 21) (bits 5 w 16) (bits 5 w 11) (bits 3 w 8)) else
  if field w 7 0 = 0xe then some (.vshr (bits 5 w 21) (bits 5 w 16) (bits 5 w 11) (bits 3 w 8)) else
  if field w 7 0 = 0xf then some (.vsar (bits 5 w 21) (bits 5 w 16) (bits 5 w 11) (bits 3 w 8)) else
  if field w 7 0 = 0x10 then some (.vadds (bits 5 w 21) (bits 5 w 16) (bits 5 w 11) (bits 3 w 8)) else
  if field w 7 0 = 0x11 then some (.vsubs (bits 5 w 21) (bits 5 w 16) (bits 5 w 11) (bits 3 w 8)) else
  if field w 7 0 = 0x12 ∧ field w 15 11 = 0 then some (.vabs (bits 5 w 21) (bits 5 w 16) (bits 3 w 8)) else
  if field w 7 0 = 0x13 then some (.vwadd (bits 5 w 21) (bits 5 w 16) (bits 5 w 11) (bits 3 w 8)) else
  if field w 7 0 = 0x14 then some (.vwmul (bits 5 w 21) (bits 5 w 16) (bits 5 w 11) (bits 3 w 8)) else
  if field w 7 0 = 0x15 then some (.vnshr (bits 5 w 21) (bits 5 w 16) (bits 5 w 11) (bits 3 w 8)) else
  if field w 7 0 = 0x16 then some (.vdot4 (bits 5 w 21) (bits 5 w 16) (bits 5 w 11) (bits 3 w 8)) else
  none

/-- The rows of major 0x21 (03_encoding R61 to R71), read field by field. -/
def decodeMajor21 (w : Nat) : Option VArith :=
  if field w 6 0 = 0 then some (.vaddVs (bits 5 w 21) (bits 5 w 16) (bits 6 w 10) (bits 3 w 7)) else
  if field w 6 0 = 1 then some (.vsubVs (bits 5 w 21) (bits 5 w 16) (bits 6 w 10) (bits 3 w 7)) else
  if field w 6 0 = 2 then some (.vmulVs (bits 5 w 21) (bits 5 w 16) (bits 6 w 10) (bits 3 w 7)) else
  if field w 6 0 = 3 then some (.vmulhVs (bits 5 w 21) (bits 5 w 16) (bits 6 w 10) (bits 3 w 7)) else
  if field w 6 0 = 4 then some (.vmulhzVs (bits 5 w 21) (bits 5 w 16) (bits 6 w 10) (bits 3 w 7)) else
  if field w 6 0 = 5 then some (.vdivVs (bits 5 w 21) (bits 5 w 16) (bits 6 w 10) (bits 3 w 7)) else
  if field w 6 0 = 6 then some (.vminVs (bits 5 w 21) (bits 5 w 16) (bits 6 w 10) (bits 3 w 7)) else
  if field w 6 0 = 7 then some (.vmaxVs (bits 5 w 21) (bits 5 w 16) (bits 6 w 10) (bits 3 w 7)) else
  if field w 6 0 = 8 then some (.vminzVs (bits 5 w 21) (bits 5 w 16) (bits 6 w 10) (bits 3 w 7)) else
  if field w 6 0 = 9 then some (.vmaxzVs (bits 5 w 21) (bits 5 w 16) (bits 6 w 10) (bits 3 w 7)) else
  if field w 6 0 = 0xa then some (.vandVs (bits 5 w 21) (bits 5 w 16) (bits 6 w 10) (bits 3 w 7)) else
  if field w 6 0 = 0xb then some (.vorVs (bits 5 w 21) (bits 5 w 16) (bits 6 w 10) (bits 3 w 7)) else
  if field w 6 0 = 0xc then some (.vxorVs (bits 5 w 21) (bits 5 w 16) (bits 6 w 10) (bits 3 w 7)) else
  if field w 6 0 = 0xd then some (.vshlVs (bits 5 w 21) (bits 5 w 16) (bits 6 w 10) (bits 3 w 7)) else
  if field w 6 0 = 0xe then some (.vshrVs (bits 5 w 21) (bits 5 w 16) (bits 6 w 10) (bits 3 w 7)) else
  if field w 6 0 = 0xf then some (.vsarVs (bits 5 w 21) (bits 5 w 16) (bits 6 w 10) (bits 3 w 7)) else
  if field w 6 0 = 0x10 then some (.vaddsVs (bits 5 w 21) (bits 5 w 16) (bits 6 w 10) (bits 3 w 7)) else
  if field w 6 0 = 0x11 then some (.vsubsVs (bits 5 w 21) (bits 5 w 16) (bits 6 w 10) (bits 3 w 7)) else
  if field w 6 0 = 0x13 then some (.vwaddVs (bits 5 w 21) (bits 5 w 16) (bits 6 w 10) (bits 3 w 7)) else
  if field w 6 0 = 0x14 then some (.vwmulVs (bits 5 w 21) (bits 5 w 16) (bits 6 w 10) (bits 3 w 7)) else
  if field w 6 0 = 0x15 then some (.vnshrVs (bits 5 w 21) (bits 5 w 16) (bits 6 w 10) (bits 3 w 7)) else
  if field w 6 0 = 0x16 then some (.vdot4Vs (bits 5 w 21) (bits 5 w 16) (bits 6 w 10) (bits 3 w 7)) else
  none

/-- The rows of major 0x22 (03_encoding R61 to R71), read field by field. -/
def decodeMajor22 (w : Nat) : Option VArith :=
  if field w 7 0 = 0 then some (.vfadd (bits 5 w 21) (bits 5 w 16) (bits 5 w 11) (bits 3 w 8)) else
  if field w 7 0 = 1 then some (.vfsub (bits 5 w 21) (bits 5 w 16) (bits 5 w 11) (bits 3 w 8)) else
  if field w 7 0 = 2 then some (.vfmul (bits 5 w 21) (bits 5 w 16) (bits 5 w 11) (bits 3 w 8)) else
  if field w 7 0 = 3 then some (.vfdiv (bits 5 w 21) (bits 5 w 16) (bits 5 w 11) (bits 3 w 8)) else
  if field w 7 0 = 4 ∧ field w 15 11 = 0 then some (.vfsqrt (bits 5 w 21) (bits 5 w 16) (bits 3 w 8)) else
  if field w 7 0 = 5 then some (.vfma (bits 5 w 21) (bits 5 w 16) (bits 5 w 11) (bits 3 w 8)) else
  if field w 7 0 = 6 then some (.vfnms (bits 5 w 21) (bits 5 w 16) (bits 5 w 11) (bits 3 w 8)) else
  if field w 7 0 = 7 then some (.vfmin (bits 5 w 21) (bits 5 w 16) (bits 5 w 11) (bits 3 w 8)) else
  if field w 7 0 = 8 then some (.vfmax (bits 5 w 21) (bits 5 w 16) (bits 5 w 11) (bits 3 w 8)) else
  if field w 7 0 = 9 then some (.vfcvt (bits 5 w 21) (bits 5 w 16) (bits 5 w 11) (bits 3 w 8)) else
  if field w 7 0 = 0xa then some (.vfcvtSat (bits 5 w 21) (bits 5 w 16) (bits 5 w 11) (bits 3 w 8)) else
  if field w 7 0 = 0xb ∧ field w 15 11 = 0 then some (.vfrec (bits 5 w 21) (bits 5 w 16) (bits 3 w 8)) else
  if field w 7 0 = 0xc ∧ field w 15 11 = 0 then some (.vfrsq (bits 5 w 21) (bits 5 w 16) (bits 3 w 8)) else
  if field w 7 0 = 0xd ∧ field w 15 11 = 0 then some (.vfexp2 (bits 5 w 21) (bits 5 w 16) (bits 3 w 8)) else
  if field w 7 0 = 0xe ∧ field w 15 11 = 0 then some (.vfclass (bits 5 w 21) (bits 5 w 16) (bits 3 w 8)) else
  none

/-- The rows of major 0x23 (03_encoding R61 to R71), read field by field. -/
def decodeMajor23 (w : Nat) : Option VArith :=
  if field w 6 0 = 0 then some (.vfaddVs (bits 5 w 21) (bits 5 w 16) (bits 6 w 10) (bits 3 w 7)) else
  if field w 6 0 = 1 then some (.vfsubVs (bits 5 w 21) (bits 5 w 16) (bits 6 w 10) (bits 3 w 7)) else
  if field w 6 0 = 2 then some (.vfmulVs (bits 5 w 21) (bits 5 w 16) (bits 6 w 10) (bits 3 w 7)) else
  if field w 6 0 = 3 then some (.vfdivVs (bits 5 w 21) (bits 5 w 16) (bits 6 w 10) (bits 3 w 7)) else
  if field w 6 0 = 5 then some (.vfmaVs (bits 5 w 21) (bits 5 w 16) (bits 6 w 10) (bits 3 w 7)) else
  if field w 6 0 = 6 then some (.vfnmsVs (bits 5 w 21) (bits 5 w 16) (bits 6 w 10) (bits 3 w 7)) else
  if field w 6 0 = 7 then some (.vfminVs (bits 5 w 21) (bits 5 w 16) (bits 6 w 10) (bits 3 w 7)) else
  if field w 6 0 = 8 then some (.vfmaxVs (bits 5 w 21) (bits 5 w 16) (bits 6 w 10) (bits 3 w 7)) else
  none

/-- The rows of major 0x24 (03_encoding R61 to R71), read field by field. -/
def decodeMajor24 (w : Nat) : Option VArith :=
  if field w 10 0 = 0 ∧ field w 15 14 = 0 ∧ field w 20 19 = 0 ∧ field w 25 24 = 0 then some (.mand (bits 3 w 21) (bits 3 w 16) (bits 3 w 11)) else
  if field w 10 0 = 1 ∧ field w 15 14 = 0 ∧ field w 20 19 = 0 ∧ field w 25 24 = 0 then some (.mor (bits 3 w 21) (bits 3 w 16) (bits 3 w 11)) else
  if field w 10 0 = 2 ∧ field w 15 14 = 0 ∧ field w 20 19 = 0 ∧ field w 25 24 = 0 then some (.mxor (bits 3 w 21) (bits 3 w 16) (bits 3 w 11)) else
  if field w 10 0 = 3 ∧ field w 15 14 = 0 ∧ field w 20 19 = 0 ∧ field w 25 24 = 0 then some (.mandn (bits 3 w 21) (bits 3 w 16) (bits 3 w 11)) else
  if field w 7 0 = 4 ∧ field w 15 11 = 0 ∧ field w 20 19 = 0 then some (.mpopc (bits 5 w 21) (bits 3 w 16) (bits 3 w 8)) else
  if field w 7 0 = 5 ∧ field w 15 11 = 0 ∧ field w 20 19 = 0 then some (.mffs (bits 5 w 21) (bits 3 w 16) (bits 3 w 8)) else
  if field w 7 0 = 6 ∧ field w 15 11 = 0 ∧ field w 20 19 = 0 ∧ field w 25 24 = 0 then some (.msbf (bits 3 w 21) (bits 3 w 16) (bits 3 w 8)) else
  if field w 20 0 = 7 ∧ field w 25 24 = 0 then some (.mset (bits 3 w 21)) else
  if field w 7 0 = 8 ∧ field w 15 11 = 0 ∧ field w 25 24 = 0 then some (.mfromv (bits 3 w 21) (bits 5 w 16) (bits 3 w 8)) else
  if field w 7 0 = 9 ∧ field w 15 11 = 0 ∧ field w 20 19 = 0 then some (.mtov (bits 5 w 21) (bits 3 w 16) (bits 3 w 8)) else
  if field w 7 0 = 0xa ∧ field w 15 11 = 0 ∧ field w 20 19 = 0 then some (.viota (bits 5 w 21) (bits 3 w 16) (bits 3 w 8)) else
  if field w 7 0 = 0x10 then some (.vslup (bits 5 w 21) (bits 5 w 16) (bits 5 w 11) (bits 3 w 8)) else
  if field w 7 0 = 0x11 then some (.vsldn (bits 5 w 21) (bits 5 w 16) (bits 5 w 11) (bits 3 w 8)) else
  if field w 7 0 = 0x12 then some (.vperm (bits 5 w 21) (bits 5 w 16) (bits 5 w 11) (bits 3 w 8)) else
  if field w 7 0 = 0x13 ∧ field w 15 11 = 0 then some (.vcomp (bits 5 w 21) (bits 5 w 16) (bits 3 w 8)) else
  if field w 7 0 = 0x14 ∧ field w 15 11 = 0 then some (.vexpd (bits 5 w 21) (bits 5 w 16) (bits 3 w 8)) else
  if field w 7 0 = 0x15 then some (.vmerge (bits 5 w 21) (bits 5 w 16) (bits 5 w 11) (bits 3 w 8)) else
  if field w 7 0 = 0x16 ∧ field w 15 11 = 0 then some (.vbcast (bits 5 w 21) (bits 5 w 16) (bits 3 w 8)) else
  if field w 10 0 = 0x17 then some (.vextr (bits 5 w 21) (bits 5 w 16) (bits 5 w 11)) else
  if field w 10 0 = 0x18 then some (.vins (bits 5 w 21) (bits 5 w 16) (bits 5 w 11)) else
  if field w 7 0 = 0x20 then some (.vredsum (bits 5 w 21) (bits 5 w 16) (bits 5 w 11) (bits 3 w 8)) else
  if field w 7 0 = 0x21 then some (.vredmax (bits 5 w 21) (bits 5 w 16) (bits 5 w 11) (bits 3 w 8)) else
  if field w 7 0 = 0x22 then some (.vredmin (bits 5 w 21) (bits 5 w 16) (bits 5 w 11) (bits 3 w 8)) else
  if field w 7 0 = 0x23 then some (.vfredo (bits 5 w 21) (bits 5 w 16) (bits 5 w 11) (bits 3 w 8)) else
  if field w 7 0 = 0x24 then some (.vfredu (bits 5 w 21) (bits 5 w 16) (bits 5 w 11) (bits 3 w 8)) else
  if field w 7 0 = 0x25 then some (.vfredmax (bits 5 w 21) (bits 5 w 16) (bits 5 w 11) (bits 3 w 8)) else
  if field w 7 0 = 0x26 ∧ field w 15 11 = 0 then some (.vscan (bits 5 w 21) (bits 5 w 16) (bits 3 w 8)) else
  if field w 15 0 = 0x28 then some (.vprune48 (bits 5 w 21) (bits 5 w 16)) else
  none

/-- The rows of major 0x25 (03_encoding R61 to R71), read field by field. -/
def decodeMajor25 (w : Nat) : Option Instr :=
  if field w 5 0 = 0 ∧ field w 13 12 = 0 then some (.vsetvl (bits 6 w 20) (bits 6 w 14) (bits 6 w 6)) else
  if field w 13 12 = 1 then some (.vsetvli (bits 6 w 20) (bits 6 w 14) (bits 12 w 0)) else
  if field w 13 0 = 0x2000 then some (.vgrant (bits 6 w 20) (bits 6 w 14)) else
  none

/-- The rows of major 0x26 (03_encoding R61 to R71), read field by field. -/
def decodeMajor26 (w : Nat) : Option Instr :=
  if field w 7 4 = 0 ∧ field w 25 24 = 0 then some (.vcmp (bits 3 w 21) (bits 5 w 16) (bits 5 w 11) (bits 3 w 8) (bits 4 w 0)) else
  if field w 7 4 = 4 ∧ field w 25 24 = 0 then some (.vcmpVs (bits 3 w 21) (bits 5 w 16) (bits 5 w 11) (bits 3 w 8) (bits 4 w 0)) else
  if field w 7 4 = 8 ∧ field w 25 24 = 0 then some (.vfcmp (bits 3 w 21) (bits 5 w 16) (bits 5 w 11) (bits 3 w 8) (bits 4 w 0)) else
  if field w 7 4 = 0xc ∧ field w 25 24 = 0 then some (.vfcmpVs (bits 3 w 21) (bits 5 w 16) (bits 5 w 11) (bits 3 w 8) (bits 4 w 0)) else
  none

/-- The rows of major 0x28 (03_encoding R61 to R71), read field by field. -/
def decodeMajor28 (w : Nat) : Option Instr :=
  if field w 5 0 = 0 ∧ field w 14 9 = 0 then some (.vld (bits 5 w 21) (bits 6 w 15) (bits 3 w 6)) else
  if field w 5 0 = 1 then some (.vlds (bits 5 w 21) (bits 6 w 15) (bits 6 w 9) (bits 3 w 6)) else
  if field w 5 0 = 2 ∧ field w 9 9 = 0 then some (.vldx (bits 5 w 21) (bits 6 w 15) (bits 5 w 10) (bits 3 w 6)) else
  if field w 5 0 = 3 ∧ field w 9 9 = 0 then some (.vldxo (bits 5 w 21) (bits 6 w 15) (bits 5 w 10) (bits 3 w 6)) else
  if field w 5 0 = 4 ∧ field w 14 9 = 0 then some (.vldff (bits 5 w 21) (bits 6 w 15) (bits 3 w 6)) else
  none

/-- The rows of major 0x29 (03_encoding R61 to R71), read field by field. -/
def decodeMajor29 (w : Nat) : Option Instr :=
  if field w 5 0 = 0 ∧ field w 14 9 = 0 then some (.vst (bits 5 w 21) (bits 6 w 15) (bits 3 w 6)) else
  if field w 5 0 = 1 then some (.vsts (bits 5 w 21) (bits 6 w 15) (bits 6 w 9) (bits 3 w 6)) else
  if field w 5 0 = 2 ∧ field w 9 9 = 0 then some (.vstx (bits 5 w 21) (bits 6 w 15) (bits 5 w 10) (bits 3 w 6)) else
  if field w 5 0 = 3 ∧ field w 9 9 = 0 then some (.vstxo (bits 5 w 21) (bits 6 w 15) (bits 5 w 10) (bits 3 w 6)) else
  if field w 5 0 = 4 ∧ field w 9 9 = 0 then some (.vstxadd (bits 5 w 21) (bits 6 w 15) (bits 5 w 10) (bits 3 w 6)) else
  none

/-- The rows of major 0x2a (03_encoding R61 to R71), read field by field. -/
def decodeMajor2A (w : Nat) : Option Instr :=
  if field w 5 5 = 0 then some (.vldn (bits 5 w 21) (bits 6 w 15) (bits 1 w 14) (bits 5 w 9) (bits 3 w 6) (bits 1 w 4) (bits 4 w 0)) else
  if field w 5 5 = 1 then some (.vstn (bits 5 w 21) (bits 6 w 15) (bits 1 w 14) (bits 5 w 9) (bits 3 w 6) (bits 1 w 4) (bits 4 w 0)) else
  none

/-- The rows of major 0x2b (03_encoding R61 to R71), read field by field. -/
def decodeMajor2B (w : Nat) : Option Instr :=
  if field w 9 0 = 0 then some (.kst (bits 5 w 21) (bits 5 w 16) (bits 6 w 10)) else
  if field w 9 0 = 1 then some (.ksig (bits 5 w 21) (bits 5 w 16) (bits 6 w 10)) else
  none

/-- The rows of major 0x30 (03_encoding R61 to R71), read field by field. -/
def decodeMajor30 (w : Nat) : Option Instr :=
  if field w 19 0 = 0 then some (.tzero (bits 6 w 20)) else
  if field w 7 0 = 1 then some (.tmma (bits 6 w 20) (bits 3 w 17) (bits 3 w 14) (bits 6 w 8)) else
  if field w 7 0 = 2 then some (.tmmaf (bits 6 w 20) (bits 3 w 17) (bits 3 w 14) (bits 6 w 8)) else
  if field w 7 0 = 3 then some (.tmmag (bits 6 w 20) (bits 3 w 17) (bits 3 w 14) (bits 6 w 8)) else
  if field w 7 5 = 1 then some (.tmmas (bits 6 w 20) (bits 3 w 17) (bits 3 w 14) (bits 6 w 8) (bits 5 w 0)) else
  if field w 7 0 = 8 ∧ field w 19 14 = 0 then some (.tld (bits 6 w 20) (bits 6 w 8)) else
  if field w 7 0 = 9 ∧ field w 19 16 = 0 then some (.tst (bits 6 w 20) (bits 1 w 15) (bits 1 w 14) (bits 6 w 8)) else
  if field w 13 0 = 0xa ∧ field w 19 19 = 0 then some (.tmovr (bits 6 w 20) (bits 5 w 14)) else
  if field w 13 0 = 0xb ∧ field w 19 19 = 0 then some (.tmovw (bits 6 w 20) (bits 5 w 14)) else
  if field w 7 0 = 0xc ∧ field w 19 14 = 0 then some (.treef (bits 6 w 20) (bits 6 w 8)) else
  if field w 13 0 = 0xd then some (.tstat (bits 6 w 20) (bits 6 w 14)) else
  if field w 7 0 = 0xe ∧ field w 19 14 = 0 then some (.tsetx (bits 6 w 20) (bits 6 w 8)) else
  if field w 7 0 = 0xf ∧ field w 19 14 = 0 then some (.taddx (bits 6 w 20) (bits 6 w 8)) else
  none

/-- The rows of major 0x31 (03_encoding R61 to R71), read field by field. -/
def decodeMajor31 (w : Nat) : Option Instr :=
  if field w 3 3 = 0 ∧ field w 13 8 = 0 ∧ field w 25 20 = 0 then some (.sopen (bits 6 w 14) (bits 3 w 5) (bits 1 w 4) (bits 3 w 0)) else
  if field w 4 0 = 0 ∧ field w 25 8 = 1 then some (.sclose (bits 3 w 5)) else
  if field w 4 0 = 0 ∧ field w 19 8 = 2 ∧ field w 25 25 = 0 then some (.sbind (bits 5 w 20) (bits 3 w 5)) else
  if field w 4 0 = 0 ∧ field w 25 8 = 3 then some (.sunbind (bits 3 w 5)) else
  if field w 4 0 = 0 ∧ field w 19 8 = 4 then some (.sstat (bits 6 w 20) (bits 3 w 5)) else
  if field w 4 0 = 0 ∧ field w 25 8 = 5 then some (.sbar (bits 3 w 5)) else
  if field w 13 5 = 0x80 then some (.cpy (bits 6 w 20) (bits 6 w 14) (bits 1 w 4) (bits 1 w 3) (bits 3 w 0)) else
  if field w 13 5 = 0x88 then some (.cpys (bits 6 w 20) (bits 6 w 14) (bits 1 w 4) (bits 1 w 3) (bits 3 w 0)) else
  if field w 13 0 = 0x1200 then some (.cpypf (bits 6 w 20) (bits 6 w 14)) else
  none

/-- The rows of major 0x32 (03_encoding R61 to R71), read field by field. -/
def decodeMajor32 (w : Nat) : Option Instr :=
  if field w 13 0 = 0 then some (.klaunch (bits 6 w 20) (bits 6 w 14)) else
  if field w 13 0 = 8 then some (.vfork (bits 6 w 20) (bits 6 w 14)) else
  if field w 13 0 = 9 ∧ field w 25 20 = 0 then some (.vjoin (bits 6 w 14)) else
  if field w 7 0 = 0xa ∧ field w 25 20 = 0 then some (.efork (bits 6 w 14) (bits 6 w 8)) else
  if field w 25 0 = 0xb then some .erdv else
  if field w 25 0 = 0xc then some .gexit else
  if field w 7 0 = 0xd ∧ field w 19 14 = 0 then some (.gid (bits 6 w 20) (bits 6 w 8)) else
  if field w 7 0 = 0x10 ∧ field w 25 20 = 0 then some (.tqpush (bits 6 w 14) (bits 6 w 8)) else
  if field w 7 0 = 0x11 then some (.tqpushn (bits 6 w 20) (bits 6 w 14) (bits 6 w 8)) else
  if field w 13 0 = 0x12 ∧ field w 25 20 = 0 then some (.tdone (bits 6 w 14)) else
  if field w 13 0 = 0x13 then some (.tqstat (bits 6 w 20) (bits 6 w 14)) else
  none

/-- The rows of major 0x33 (03_encoding R61 to R71), read field by field. -/
def decodeMajor33 (w : Nat) : Option Instr :=
  if field w 13 5 = 0 then some (.mimport (bits 6 w 20) (bits 6 w 14) (bits 1 w 4) (bits 1 w 3) (bits 3 w 0)) else
  if field w 13 5 = 8 then some (.mexport (bits 6 w 20) (bits 6 w 14) (bits 1 w 4) (bits 1 w 3) (bits 3 w 0)) else
  if field w 13 5 = 0x10 then some (.mrefine (bits 6 w 20) (bits 6 w 14) (bits 1 w 4) (bits 1 w 3) (bits 3 w 0)) else
  if field w 13 5 = 0x18 then some (.mcoarsen (bits 6 w 20) (bits 6 w 14) (bits 1 w 4) (bits 1 w 3) (bits 3 w 0)) else
  if field w 13 5 = 0x20 then some (.mrenum (bits 6 w 20) (bits 6 w 14) (bits 1 w 4) (bits 1 w 3) (bits 3 w 0)) else
  if field w 13 5 = 0x28 then some (.mstat (bits 6 w 20) (bits 6 w 14) (bits 1 w 4) (bits 1 w 3) (bits 3 w 0)) else
  if field w 13 5 = 0x80 then some (.mcolour (bits 6 w 20) (bits 6 w 14) (bits 1 w 4) (bits 1 w 3) (bits 3 w 0)) else
  if field w 13 5 = 0x88 then some (.mtrim (bits 6 w 20) (bits 6 w 14) (bits 1 w 4) (bits 1 w 3) (bits 3 w 0)) else
  if field w 13 5 = 0x90 then some (.mmigr (bits 6 w 20) (bits 6 w 14) (bits 1 w 4) (bits 1 w 3) (bits 3 w 0)) else
  if field w 13 5 = 0x98 then some (.mghost (bits 6 w 20) (bits 6 w 14) (bits 1 w 4) (bits 1 w 3) (bits 3 w 0)) else
  if field w 13 5 = 0x100 then some (.kproj (bits 6 w 20) (bits 6 w 14) (bits 1 w 4) (bits 1 w 3) (bits 3 w 0)) else
  if field w 13 5 = 0x108 then some (.kreset (bits 6 w 20) (bits 6 w 14) (bits 1 w 4) (bits 1 w 3) (bits 3 w 0)) else
  if field w 13 5 = 0x110 then some (.kstat (bits 6 w 20) (bits 6 w 14) (bits 1 w 4) (bits 1 w 3) (bits 3 w 0)) else
  none

/-- The rows of major 0x38 (03_encoding R61 to R71), read field by field. -/
def decodeMajor38 (w : Nat) : Option Instr :=
  if field w 13 12 = 1 ∧ field w 25 20 = 0 then some (.swr (bits 6 w 14) (bits 12 w 0)) else
  if field w 13 12 = 2 ∧ field w 25 20 = 0 then some (.srset (bits 6 w 14) (bits 12 w 0)) else
  if field w 13 12 = 3 ∧ field w 25 20 = 0 then some (.srclr (bits 6 w 14) (bits 12 w 0)) else
  if field w 13 0 = 0xf00 then some (.ctxsv (bits 6 w 20) (bits 6 w 14)) else
  if field w 13 0 = 0xf01 then some (.ctxld (bits 6 w 20) (bits 6 w 14)) else
  if field w 13 0 = 0xf02 then some (.tlbinv (bits 6 w 20) (bits 6 w 14)) else
  if field w 13 0 = 0xf03 then some (.probe (bits 6 w 20) (bits 6 w 14)) else
  if field w 13 0 = 0xf04 then some (.pgmig (bits 6 w 20) (bits 6 w 14)) else
  if field w 13 0 = 0xf05 ∧ field w 25 20 = 0 then some (.shkill (bits 6 w 14)) else
  if field w 19 12 = 0 then some (.srd (bits 6 w 20) (bits 12 w 0)) else
  none

/-- The rows of major 0x39 (03_encoding R61 to R71), read field by field. -/
def decodeMajor39 (w : Nat) : Option Instr :=
  if field w 7 0 = 0 then some (.trap (bits 18 w 8)) else
  if field w 7 0 = 3 then some (.brk (bits 18 w 8)) else
  if field w 25 0 = 1 then some .eret else
  if field w 25 0 = 2 then some .uiret else
  if field w 25 0 = 4 then some .idle else
  none

/-- The row of the opcode table that a word belongs to, before the operand checks (03_encoding R61): none for an
illegal or reserved major, an unassigned code, or a non-zero bit in a field marked zero or unused. -/
def decodeRow (w : Nat) : Option Row :=
  match w / 2 ^ 26 with
  | 0x01 => (decodeMajor01 w).map Row.instr
  | 0x02 => (decodeMajor02 w).map Row.instr
  | 0x03 => (decodeMajor03 w).map Row.instr
  | 0x04 => (decodeMajor04 w).map Row.instr
  | 0x05 => (decodeMajor05 w).map Row.instr
  | 0x06 => (decodeMajor06 w).map Row.instr
  | 0x07 => (decodeMajor07 w).map Row.instr
  | 0x08 => (decodeMajor08 w).map Row.instr
  | 0x09 => (decodeMajor09 w).map Row.instr
  | 0x0a => (decodeMajor0A w).map Row.instr
  | 0x0b => (decodeMajor0B w).map Row.instr
  | 0x0c => (decodeMajor0C w).map Row.instr
  | 0x0d => (decodeMajor0D w).map Row.instr
  | 0x0e => (decodeMajor0E w).map Row.instr
  | 0x10 => (decodeMajor10 w).map Row.instr
  | 0x11 => (decodeMajor11 w).map Row.instr
  | 0x12 => (decodeMajor12 w).map Row.instr
  | 0x13 => (decodeMajor13 w).map Row.instr
  | 0x14 => (decodeMajor14 w).map Row.instr
  | 0x15 => (decodeMajor15 w).map Row.instr
  | 0x16 => (decodeMajor16 w).map Row.instr
  | 0x17 => (decodeMajor17 w).map Row.instr
  | 0x18 => (decodeMajor18 w).map Row.instr
  | 0x19 => (decodeMajor19 w).map Row.instr
  | 0x1a => (decodeMajor1A w).map Row.instr
  | 0x1b => (decodeMajor1B w).map Row.instr
  | 0x1c => (decodeMajor1C w).map Row.instr
  | 0x1d => (decodeMajor1D w).map Row.instr
  | 0x20 => (decodeMajor20 w).map Row.arith
  | 0x21 => (decodeMajor21 w).map Row.arith
  | 0x22 => (decodeMajor22 w).map Row.arith
  | 0x23 => (decodeMajor23 w).map Row.arith
  | 0x24 => (decodeMajor24 w).map Row.arith
  | 0x25 => (decodeMajor25 w).map Row.instr
  | 0x26 => (decodeMajor26 w).map Row.instr
  | 0x28 => (decodeMajor28 w).map Row.instr
  | 0x29 => (decodeMajor29 w).map Row.instr
  | 0x2a => (decodeMajor2A w).map Row.instr
  | 0x2b => (decodeMajor2B w).map Row.instr
  | 0x30 => (decodeMajor30 w).map Row.instr
  | 0x31 => (decodeMajor31 w).map Row.instr
  | 0x32 => (decodeMajor32 w).map Row.instr
  | 0x33 => (decodeMajor33 w).map Row.instr
  | 0x38 => (decodeMajor38 w).map Row.instr
  | 0x39 => (decodeMajor39 w).map Row.instr
  | _ => none

/-- Whether R61 allocates the major opcode. -/
def majorAllocated (m : Nat) : Bool :=
  decide ((0x01 ≤ m ∧ m ≤ 0x0E) ∨ (0x10 ≤ m ∧ m ≤ 0x1D) ∨ (0x20 ≤ m ∧ m ≤ 0x26) ∨ (0x28 ≤ m ∧ m ≤ 0x2B) ∨
    (0x30 ≤ m ∧ m ≤ 0x33) ∨ m = 0x38 ∨ m = 0x39)

/-- Decode a 32-bit word to its row of the opcode table, if its operands lie in their sets (R62, first check). -/
def decodeToRow (w : Nat) : Except DecodeError Row :=
  match decodeRow w with
  | none => .error (if majorAllocated (w / 2 ^ 26) then .unassignedCode else .illegalMajor)
  | some i => if wellFormedRow i then .ok i else .error .operandOutOfSet

/-- Decode a 32-bit word to its instruction (R62, first check). -/
noncomputable def decodeWord (w : Nat) : Except DecodeError Instr :=
  match decodeToRow w with
  | .ok r => .ok r.toInstr
  | .error e => .error e

/-- The number that four bytes hold, lowest address first (00_scope R3). -/
def wordOfBytes (b0 b1 b2 b3 : Byte) : Nat := b0.toNat + b1.toNat * 0x100 + b2.toNat * 0x10000 + b3.toNat * 0x1000000

/-- The four bytes of a word, lowest address first (00_scope R3). -/
def bytesOfWord (w : Nat) : List Byte :=
  [BitVec.ofNat 8 w, BitVec.ofNat 8 (w / 0x100), BitVec.ofNat 8 (w / 0x10000), BitVec.ofNat 8 (w / 0x1000000)]

/-- Decode the instruction at the head of a list of bytes, and give the bytes after it. -/
noncomputable def decode : List Byte → Except DecodeError (Instr × List Byte)
  | b0 :: b1 :: b2 :: b3 :: rest =>
    match decodeWord (wordOfBytes b0 b1 b2 b3) with
    | .ok i => .ok (i, rest)
    | .error e => .error e
  | _ => .error .tooShort

/-- The instruction that the decoder reads from the word whose bits are w, laid out little-endian. Every word has 32 bits,
so a row of fewer bits is filled up with zeros. -/
noncomputable def decodeTableWord (_nbits w : Nat) : Option Instr :=
  match decode (bytesOfWord w) with
  | .ok (i, _) => some i
  | .error _ => none

/-- The word of a vector arithmetic instruction, as a number (03_encoding R58, R67, R68). -/
def encodeArith : VArith → Nat
  | .vadd d a b m => 0x80000000 + d.toNat * 0x200000 + a.toNat * 0x10000 + b.toNat * 0x800 + m.toNat * 0x100
  | .vsub d a b m => 0x80000001 + d.toNat * 0x200000 + a.toNat * 0x10000 + b.toNat * 0x800 + m.toNat * 0x100
  | .vmul d a b m => 0x80000002 + d.toNat * 0x200000 + a.toNat * 0x10000 + b.toNat * 0x800 + m.toNat * 0x100
  | .vmulh d a b m => 0x80000003 + d.toNat * 0x200000 + a.toNat * 0x10000 + b.toNat * 0x800 + m.toNat * 0x100
  | .vmulhz d a b m => 0x80000004 + d.toNat * 0x200000 + a.toNat * 0x10000 + b.toNat * 0x800 + m.toNat * 0x100
  | .vdiv d a b m => 0x80000005 + d.toNat * 0x200000 + a.toNat * 0x10000 + b.toNat * 0x800 + m.toNat * 0x100
  | .vmin d a b m => 0x80000006 + d.toNat * 0x200000 + a.toNat * 0x10000 + b.toNat * 0x800 + m.toNat * 0x100
  | .vmax d a b m => 0x80000007 + d.toNat * 0x200000 + a.toNat * 0x10000 + b.toNat * 0x800 + m.toNat * 0x100
  | .vminz d a b m => 0x80000008 + d.toNat * 0x200000 + a.toNat * 0x10000 + b.toNat * 0x800 + m.toNat * 0x100
  | .vmaxz d a b m => 0x80000009 + d.toNat * 0x200000 + a.toNat * 0x10000 + b.toNat * 0x800 + m.toNat * 0x100
  | .vand d a b m => 0x8000000a + d.toNat * 0x200000 + a.toNat * 0x10000 + b.toNat * 0x800 + m.toNat * 0x100
  | .vor d a b m => 0x8000000b + d.toNat * 0x200000 + a.toNat * 0x10000 + b.toNat * 0x800 + m.toNat * 0x100
  | .vxor d a b m => 0x8000000c + d.toNat * 0x200000 + a.toNat * 0x10000 + b.toNat * 0x800 + m.toNat * 0x100
  | .vshl d a b m => 0x8000000d + d.toNat * 0x200000 + a.toNat * 0x10000 + b.toNat * 0x800 + m.toNat * 0x100
  | .vshr d a b m => 0x8000000e + d.toNat * 0x200000 + a.toNat * 0x10000 + b.toNat * 0x800 + m.toNat * 0x100
  | .vsar d a b m => 0x8000000f + d.toNat * 0x200000 + a.toNat * 0x10000 + b.toNat * 0x800 + m.toNat * 0x100
  | .vadds d a b m => 0x80000010 + d.toNat * 0x200000 + a.toNat * 0x10000 + b.toNat * 0x800 + m.toNat * 0x100
  | .vsubs d a b m => 0x80000011 + d.toNat * 0x200000 + a.toNat * 0x10000 + b.toNat * 0x800 + m.toNat * 0x100
  | .vabs d a m => 0x80000012 + d.toNat * 0x200000 + a.toNat * 0x10000 + m.toNat * 0x100
  | .vwadd d a b m => 0x80000013 + d.toNat * 0x200000 + a.toNat * 0x10000 + b.toNat * 0x800 + m.toNat * 0x100
  | .vwmul d a b m => 0x80000014 + d.toNat * 0x200000 + a.toNat * 0x10000 + b.toNat * 0x800 + m.toNat * 0x100
  | .vnshr d a b m => 0x80000015 + d.toNat * 0x200000 + a.toNat * 0x10000 + b.toNat * 0x800 + m.toNat * 0x100
  | .vdot4 d a b m => 0x80000016 + d.toNat * 0x200000 + a.toNat * 0x10000 + b.toNat * 0x800 + m.toNat * 0x100
  | .vaddVs d a b m => 0x84000000 + d.toNat * 0x200000 + a.toNat * 0x10000 + b.toNat * 0x400 + m.toNat * 0x80
  | .vsubVs d a b m => 0x84000001 + d.toNat * 0x200000 + a.toNat * 0x10000 + b.toNat * 0x400 + m.toNat * 0x80
  | .vmulVs d a b m => 0x84000002 + d.toNat * 0x200000 + a.toNat * 0x10000 + b.toNat * 0x400 + m.toNat * 0x80
  | .vmulhVs d a b m => 0x84000003 + d.toNat * 0x200000 + a.toNat * 0x10000 + b.toNat * 0x400 + m.toNat * 0x80
  | .vmulhzVs d a b m => 0x84000004 + d.toNat * 0x200000 + a.toNat * 0x10000 + b.toNat * 0x400 + m.toNat * 0x80
  | .vdivVs d a b m => 0x84000005 + d.toNat * 0x200000 + a.toNat * 0x10000 + b.toNat * 0x400 + m.toNat * 0x80
  | .vminVs d a b m => 0x84000006 + d.toNat * 0x200000 + a.toNat * 0x10000 + b.toNat * 0x400 + m.toNat * 0x80
  | .vmaxVs d a b m => 0x84000007 + d.toNat * 0x200000 + a.toNat * 0x10000 + b.toNat * 0x400 + m.toNat * 0x80
  | .vminzVs d a b m => 0x84000008 + d.toNat * 0x200000 + a.toNat * 0x10000 + b.toNat * 0x400 + m.toNat * 0x80
  | .vmaxzVs d a b m => 0x84000009 + d.toNat * 0x200000 + a.toNat * 0x10000 + b.toNat * 0x400 + m.toNat * 0x80
  | .vandVs d a b m => 0x8400000a + d.toNat * 0x200000 + a.toNat * 0x10000 + b.toNat * 0x400 + m.toNat * 0x80
  | .vorVs d a b m => 0x8400000b + d.toNat * 0x200000 + a.toNat * 0x10000 + b.toNat * 0x400 + m.toNat * 0x80
  | .vxorVs d a b m => 0x8400000c + d.toNat * 0x200000 + a.toNat * 0x10000 + b.toNat * 0x400 + m.toNat * 0x80
  | .vshlVs d a b m => 0x8400000d + d.toNat * 0x200000 + a.toNat * 0x10000 + b.toNat * 0x400 + m.toNat * 0x80
  | .vshrVs d a b m => 0x8400000e + d.toNat * 0x200000 + a.toNat * 0x10000 + b.toNat * 0x400 + m.toNat * 0x80
  | .vsarVs d a b m => 0x8400000f + d.toNat * 0x200000 + a.toNat * 0x10000 + b.toNat * 0x400 + m.toNat * 0x80
  | .vaddsVs d a b m => 0x84000010 + d.toNat * 0x200000 + a.toNat * 0x10000 + b.toNat * 0x400 + m.toNat * 0x80
  | .vsubsVs d a b m => 0x84000011 + d.toNat * 0x200000 + a.toNat * 0x10000 + b.toNat * 0x400 + m.toNat * 0x80
  | .vwaddVs d a b m => 0x84000013 + d.toNat * 0x200000 + a.toNat * 0x10000 + b.toNat * 0x400 + m.toNat * 0x80
  | .vwmulVs d a b m => 0x84000014 + d.toNat * 0x200000 + a.toNat * 0x10000 + b.toNat * 0x400 + m.toNat * 0x80
  | .vnshrVs d a b m => 0x84000015 + d.toNat * 0x200000 + a.toNat * 0x10000 + b.toNat * 0x400 + m.toNat * 0x80
  | .vdot4Vs d a b m => 0x84000016 + d.toNat * 0x200000 + a.toNat * 0x10000 + b.toNat * 0x400 + m.toNat * 0x80
  | .vfadd d a b m => 0x88000000 + d.toNat * 0x200000 + a.toNat * 0x10000 + b.toNat * 0x800 + m.toNat * 0x100
  | .vfsub d a b m => 0x88000001 + d.toNat * 0x200000 + a.toNat * 0x10000 + b.toNat * 0x800 + m.toNat * 0x100
  | .vfmul d a b m => 0x88000002 + d.toNat * 0x200000 + a.toNat * 0x10000 + b.toNat * 0x800 + m.toNat * 0x100
  | .vfdiv d a b m => 0x88000003 + d.toNat * 0x200000 + a.toNat * 0x10000 + b.toNat * 0x800 + m.toNat * 0x100
  | .vfsqrt d a m => 0x88000004 + d.toNat * 0x200000 + a.toNat * 0x10000 + m.toNat * 0x100
  | .vfma d a b m => 0x88000005 + d.toNat * 0x200000 + a.toNat * 0x10000 + b.toNat * 0x800 + m.toNat * 0x100
  | .vfnms d a b m => 0x88000006 + d.toNat * 0x200000 + a.toNat * 0x10000 + b.toNat * 0x800 + m.toNat * 0x100
  | .vfmin d a b m => 0x88000007 + d.toNat * 0x200000 + a.toNat * 0x10000 + b.toNat * 0x800 + m.toNat * 0x100
  | .vfmax d a b m => 0x88000008 + d.toNat * 0x200000 + a.toNat * 0x10000 + b.toNat * 0x800 + m.toNat * 0x100
  | .vfcvt d a t m => 0x88000009 + d.toNat * 0x200000 + a.toNat * 0x10000 + t.toNat * 0x800 + m.toNat * 0x100
  | .vfcvtSat d a t m => 0x8800000a + d.toNat * 0x200000 + a.toNat * 0x10000 + t.toNat * 0x800 + m.toNat * 0x100
  | .vfrec d a m => 0x8800000b + d.toNat * 0x200000 + a.toNat * 0x10000 + m.toNat * 0x100
  | .vfrsq d a m => 0x8800000c + d.toNat * 0x200000 + a.toNat * 0x10000 + m.toNat * 0x100
  | .vfexp2 d a m => 0x8800000d + d.toNat * 0x200000 + a.toNat * 0x10000 + m.toNat * 0x100
  | .vfclass d a m => 0x8800000e + d.toNat * 0x200000 + a.toNat * 0x10000 + m.toNat * 0x100
  | .vfaddVs d a b m => 0x8c000000 + d.toNat * 0x200000 + a.toNat * 0x10000 + b.toNat * 0x400 + m.toNat * 0x80
  | .vfsubVs d a b m => 0x8c000001 + d.toNat * 0x200000 + a.toNat * 0x10000 + b.toNat * 0x400 + m.toNat * 0x80
  | .vfmulVs d a b m => 0x8c000002 + d.toNat * 0x200000 + a.toNat * 0x10000 + b.toNat * 0x400 + m.toNat * 0x80
  | .vfdivVs d a b m => 0x8c000003 + d.toNat * 0x200000 + a.toNat * 0x10000 + b.toNat * 0x400 + m.toNat * 0x80
  | .vfmaVs d a b m => 0x8c000005 + d.toNat * 0x200000 + a.toNat * 0x10000 + b.toNat * 0x400 + m.toNat * 0x80
  | .vfnmsVs d a b m => 0x8c000006 + d.toNat * 0x200000 + a.toNat * 0x10000 + b.toNat * 0x400 + m.toNat * 0x80
  | .vfminVs d a b m => 0x8c000007 + d.toNat * 0x200000 + a.toNat * 0x10000 + b.toNat * 0x400 + m.toNat * 0x80
  | .vfmaxVs d a b m => 0x8c000008 + d.toNat * 0x200000 + a.toNat * 0x10000 + b.toNat * 0x400 + m.toNat * 0x80
  | .mand d a b => 0x90000000 + d.toNat * 0x200000 + a.toNat * 0x10000 + b.toNat * 0x800
  | .mor d a b => 0x90000001 + d.toNat * 0x200000 + a.toNat * 0x10000 + b.toNat * 0x800
  | .mxor d a b => 0x90000002 + d.toNat * 0x200000 + a.toNat * 0x10000 + b.toNat * 0x800
  | .mandn d a b => 0x90000003 + d.toNat * 0x200000 + a.toNat * 0x10000 + b.toNat * 0x800
  | .mpopc d a m => 0x90000004 + d.toNat * 0x200000 + a.toNat * 0x10000 + m.toNat * 0x100
  | .mffs d a m => 0x90000005 + d.toNat * 0x200000 + a.toNat * 0x10000 + m.toNat * 0x100
  | .msbf d a m => 0x90000006 + d.toNat * 0x200000 + a.toNat * 0x10000 + m.toNat * 0x100
  | .mset d => 0x90000007 + d.toNat * 0x200000
  | .mfromv d a m => 0x90000008 + d.toNat * 0x200000 + a.toNat * 0x10000 + m.toNat * 0x100
  | .mtov d a m => 0x90000009 + d.toNat * 0x200000 + a.toNat * 0x10000 + m.toNat * 0x100
  | .viota d a m => 0x9000000a + d.toNat * 0x200000 + a.toNat * 0x10000 + m.toNat * 0x100
  | .vslup d a b m => 0x90000010 + d.toNat * 0x200000 + a.toNat * 0x10000 + b.toNat * 0x800 + m.toNat * 0x100
  | .vsldn d a b m => 0x90000011 + d.toNat * 0x200000 + a.toNat * 0x10000 + b.toNat * 0x800 + m.toNat * 0x100
  | .vperm d a b m => 0x90000012 + d.toNat * 0x200000 + a.toNat * 0x10000 + b.toNat * 0x800 + m.toNat * 0x100
  | .vcomp d a m => 0x90000013 + d.toNat * 0x200000 + a.toNat * 0x10000 + m.toNat * 0x100
  | .vexpd d a m => 0x90000014 + d.toNat * 0x200000 + a.toNat * 0x10000 + m.toNat * 0x100
  | .vmerge d a b m => 0x90000015 + d.toNat * 0x200000 + a.toNat * 0x10000 + b.toNat * 0x800 + m.toNat * 0x100
  | .vbcast d a m => 0x90000016 + d.toNat * 0x200000 + a.toNat * 0x10000 + m.toNat * 0x100
  | .vextr d a b => 0x90000017 + d.toNat * 0x200000 + a.toNat * 0x10000 + b.toNat * 0x800
  | .vins d a b => 0x90000018 + d.toNat * 0x200000 + a.toNat * 0x10000 + b.toNat * 0x800
  | .vredsum d a b m => 0x90000020 + d.toNat * 0x200000 + a.toNat * 0x10000 + b.toNat * 0x800 + m.toNat * 0x100
  | .vredmax d a b m => 0x90000021 + d.toNat * 0x200000 + a.toNat * 0x10000 + b.toNat * 0x800 + m.toNat * 0x100
  | .vredmin d a b m => 0x90000022 + d.toNat * 0x200000 + a.toNat * 0x10000 + b.toNat * 0x800 + m.toNat * 0x100
  | .vfredo d a b m => 0x90000023 + d.toNat * 0x200000 + a.toNat * 0x10000 + b.toNat * 0x800 + m.toNat * 0x100
  | .vfredu d a b m => 0x90000024 + d.toNat * 0x200000 + a.toNat * 0x10000 + b.toNat * 0x800 + m.toNat * 0x100
  | .vfredmax d a b m => 0x90000025 + d.toNat * 0x200000 + a.toNat * 0x10000 + b.toNat * 0x800 + m.toNat * 0x100
  | .vscan d a m => 0x90000026 + d.toNat * 0x200000 + a.toNat * 0x10000 + m.toNat * 0x100
  | .vprune48 d a => 0x90000028 + d.toNat * 0x200000 + a.toNat * 0x10000

/-- The word of an instruction, as a number: its major and fixed codes and its fields at their places
(03_encoding R58 to R71); none for an event, which has no encoding. -/
def encode : Instr → Option Nat
  | .add d a b => some (0x04000000 + d.toNat * 0x100000 + a.toNat * 0x4000 + b.toNat * 0x100)
  | .sub d a b => some (0x04000001 + d.toNat * 0x100000 + a.toNat * 0x4000 + b.toNat * 0x100)
  | .and d a b => some (0x04000002 + d.toNat * 0x100000 + a.toNat * 0x4000 + b.toNat * 0x100)
  | .or d a b => some (0x04000003 + d.toNat * 0x100000 + a.toNat * 0x4000 + b.toNat * 0x100)
  | .xor d a b => some (0x04000004 + d.toNat * 0x100000 + a.toNat * 0x4000 + b.toNat * 0x100)
  | .andn d a b => some (0x04000005 + d.toNat * 0x100000 + a.toNat * 0x4000 + b.toNat * 0x100)
  | .shl d a b => some (0x04000006 + d.toNat * 0x100000 + a.toNat * 0x4000 + b.toNat * 0x100)
  | .shr d a b => some (0x04000007 + d.toNat * 0x100000 + a.toNat * 0x4000 + b.toNat * 0x100)
  | .sar d a b => some (0x04000008 + d.toNat * 0x100000 + a.toNat * 0x4000 + b.toNat * 0x100)
  | .mul d a b => some (0x04000009 + d.toNat * 0x100000 + a.toNat * 0x4000 + b.toNat * 0x100)
  | .mulh d a b => some (0x0400000a + d.toNat * 0x100000 + a.toNat * 0x4000 + b.toNat * 0x100)
  | .mulhz d a b => some (0x0400000b + d.toNat * 0x100000 + a.toNat * 0x4000 + b.toNat * 0x100)
  | .div d a b => some (0x0400000c + d.toNat * 0x100000 + a.toNat * 0x4000 + b.toNat * 0x100)
  | .divz d a b => some (0x0400000d + d.toNat * 0x100000 + a.toNat * 0x4000 + b.toNat * 0x100)
  | .rem d a b => some (0x0400000e + d.toNat * 0x100000 + a.toNat * 0x4000 + b.toNat * 0x100)
  | .remz d a b => some (0x0400000f + d.toNat * 0x100000 + a.toNat * 0x4000 + b.toNat * 0x100)
  | .min d a b => some (0x04000010 + d.toNat * 0x100000 + a.toNat * 0x4000 + b.toNat * 0x100)
  | .max d a b => some (0x04000011 + d.toNat * 0x100000 + a.toNat * 0x4000 + b.toNat * 0x100)
  | .minz d a b => some (0x04000012 + d.toNat * 0x100000 + a.toNat * 0x4000 + b.toNat * 0x100)
  | .maxz d a b => some (0x04000013 + d.toNat * 0x100000 + a.toNat * 0x4000 + b.toNat * 0x100)
  | .addsh d a b n => some (0x04000014 + d.toNat * 0x100000 + a.toNat * 0x4000 + b.toNat * 0x100 + n.toNat)
  | .sel d a b => some (0x04000018 + d.toNat * 0x100000 + a.toNat * 0x4000 + b.toNat * 0x100)
  | .cmpeq d a b => some (0x04000019 + d.toNat * 0x100000 + a.toNat * 0x4000 + b.toNat * 0x100)
  | .cmplt d a b => some (0x0400001a + d.toNat * 0x100000 + a.toNat * 0x4000 + b.toNat * 0x100)
  | .cmpltz d a b => some (0x0400001b + d.toNat * 0x100000 + a.toNat * 0x4000 + b.toNat * 0x100)
  | .clz d a => some (0x0400001c + d.toNat * 0x100000 + a.toNat * 0x4000)
  | .ctz d a => some (0x0400001d + d.toNat * 0x100000 + a.toNat * 0x4000)
  | .popc d a => some (0x0400001e + d.toNat * 0x100000 + a.toNat * 0x4000)
  | .bswap d a => some (0x0400001f + d.toNat * 0x100000 + a.toNat * 0x4000)
  | .fadd d a b p => some (0x08000000 + d.toNat * 0x100000 + a.toNat * 0x4000 + b.toNat * 0x100 + p.toNat)
  | .fsub d a b p => some (0x08000002 + d.toNat * 0x100000 + a.toNat * 0x4000 + b.toNat * 0x100 + p.toNat)
  | .fmul d a b p => some (0x08000004 + d.toNat * 0x100000 + a.toNat * 0x4000 + b.toNat * 0x100 + p.toNat)
  | .fdiv d a b p => some (0x08000006 + d.toNat * 0x100000 + a.toNat * 0x4000 + b.toNat * 0x100 + p.toNat)
  | .fsqrt d a p => some (0x08000008 + d.toNat * 0x100000 + a.toNat * 0x4000 + p.toNat)
  | .fma d a b p => some (0x0800000a + d.toNat * 0x100000 + a.toNat * 0x4000 + b.toNat * 0x100 + p.toNat)
  | .fmin d a b p => some (0x0800000c + d.toNat * 0x100000 + a.toNat * 0x4000 + b.toNat * 0x100 + p.toNat)
  | .fmax d a b p => some (0x0800000e + d.toNat * 0x100000 + a.toNat * 0x4000 + b.toNat * 0x100 + p.toNat)
  | .fcmp d a b c p => some (0x08000010 + d.toNat * 0x100000 + a.toNat * 0x4000 + b.toNat * 0x100 + c.toNat * 0x2 + p.toNat)
  | .fcvtDS d a => some (0x08000020 + d.toNat * 0x100000 + a.toNat * 0x4000)
  | .fcvtSD d a => some (0x08000021 + d.toNat * 0x100000 + a.toNat * 0x4000)
  | .fcvtDI64 d a => some (0x08000022 + d.toNat * 0x100000 + a.toNat * 0x4000)
  | .fcvtSI64 d a => some (0x08000023 + d.toNat * 0x100000 + a.toNat * 0x4000)
  | .fcvtDZ64 d a => some (0x08000024 + d.toNat * 0x100000 + a.toNat * 0x4000)
  | .fcvtSZ64 d a => some (0x08000025 + d.toNat * 0x100000 + a.toNat * 0x4000)
  | .fcvtI64D d a => some (0x08000026 + d.toNat * 0x100000 + a.toNat * 0x4000)
  | .fcvtI64S d a => some (0x08000027 + d.toNat * 0x100000 + a.toNat * 0x4000)
  | .fcvtZ64D d a => some (0x08000028 + d.toNat * 0x100000 + a.toNat * 0x4000)
  | .fcvtZ64S d a => some (0x08000029 + d.toNat * 0x100000 + a.toNat * 0x4000)
  | .addi d a i => some (0x0c000000 + d.toNat * 0x100000 + a.toNat * 0x4000 + i.toNat)
  | .andi d a i => some (0x10000000 + d.toNat * 0x100000 + a.toNat * 0x4000 + i.toNat)
  | .ori d a i => some (0x14000000 + d.toNat * 0x100000 + a.toNat * 0x4000 + i.toNat)
  | .xori d a i => some (0x18000000 + d.toNat * 0x100000 + a.toNat * 0x4000 + i.toNat)
  | .shli d a h => some (0x1c000000 + d.toNat * 0x100000 + a.toNat * 0x4000 + h.toNat)
  | .shri d a h => some (0x1c001000 + d.toNat * 0x100000 + a.toNat * 0x4000 + h.toNat)
  | .sari d a h => some (0x1c002000 + d.toNat * 0x100000 + a.toNat * 0x4000 + h.toNat)
  | .cmplti d a i => some (0x20000000 + d.toNat * 0x100000 + a.toNat * 0x4000 + i.toNat)
  | .lih d i => some (0x24000000 + d.toNat * 0x100000 + i.toNat)
  | .addpc d i => some (0x28000000 + d.toNat * 0x100000 + i.toNat)
  | .ld d a t o => some (0x2c000000 + d.toNat * 0x100000 + a.toNat * 0x4000 + t.toNat * 0x800 + o.toNat)
  | .st d a t o => some (0x30000000 + d.toNat * 0x100000 + a.toNat * 0x4000 + t.toNat * 0x1000 + o.toNat)
  | .ldacq d a q s => some (0x34000010 + d.toNat * 0x100000 + a.toNat * 0x4000 + q.toNat * 0x20 + s.toNat)
  | .strel d a q s => some (0x34000108 + d.toNat * 0x100000 + a.toNat * 0x4000 + q.toNat * 0x20 + s.toNat)
  | .acq a s => some (0x34000270 + a.toNat * 0x4000 + s.toNat)
  | .rel a s => some (0x34000368 + a.toNat * 0x4000 + s.toNat)
  | .gbind d a => some (0x34000400 + d.toNat * 0x100000 + a.toNat * 0x4000)
  | .gunbind a => some (0x34000500 + a.toNat * 0x4000)
  | .gfence s => some (0x34000618 + s.toNat)
  | .amoadd d a q c l s => some (0x38000040 + d.toNat * 0x100000 + a.toNat * 0x4000 + q.toNat * 0x20 + c.toNat * 0x10 + l.toNat * 0x8 + s.toNat)
  | .amoswap d a q c l s => some (0x38000140 + d.toNat * 0x100000 + a.toNat * 0x4000 + q.toNat * 0x20 + c.toNat * 0x10 + l.toNat * 0x8 + s.toNat)
  | .amocas d a q c l s => some (0x38000240 + d.toNat * 0x100000 + a.toNat * 0x4000 + q.toNat * 0x20 + c.toNat * 0x10 + l.toNat * 0x8 + s.toNat)
  | .amomin d a q c l s => some (0x38000340 + d.toNat * 0x100000 + a.toNat * 0x4000 + q.toNat * 0x20 + c.toNat * 0x10 + l.toNat * 0x8 + s.toNat)
  | .amomax d a q c l s => some (0x38000440 + d.toNat * 0x100000 + a.toNat * 0x4000 + q.toNat * 0x20 + c.toNat * 0x10 + l.toNat * 0x8 + s.toNat)
  | .amominz d a q c l s => some (0x38000540 + d.toNat * 0x100000 + a.toNat * 0x4000 + q.toNat * 0x20 + c.toNat * 0x10 + l.toNat * 0x8 + s.toNat)
  | .amomaxz d a q c l s => some (0x38000640 + d.toNat * 0x100000 + a.toNat * 0x4000 + q.toNat * 0x20 + c.toNat * 0x10 + l.toNat * 0x8 + s.toNat)
  | .amoand d a q c l s => some (0x38000740 + d.toNat * 0x100000 + a.toNat * 0x4000 + q.toNat * 0x20 + c.toNat * 0x10 + l.toNat * 0x8 + s.toNat)
  | .amoor d a q c l s => some (0x38000840 + d.toNat * 0x100000 + a.toNat * 0x4000 + q.toNat * 0x20 + c.toNat * 0x10 + l.toNat * 0x8 + s.toNat)
  | .amoxor d a q c l s => some (0x38000940 + d.toNat * 0x100000 + a.toNat * 0x4000 + q.toNat * 0x20 + c.toNat * 0x10 + l.toNat * 0x8 + s.toNat)
  | .beq a b o => some (0x40000000 + a.toNat * 0x100000 + b.toNat * 0x4000 + o.toNat)
  | .bne a b o => some (0x44000000 + a.toNat * 0x100000 + b.toNat * 0x4000 + o.toNat)
  | .blt a b o => some (0x48000000 + a.toNat * 0x100000 + b.toNat * 0x4000 + o.toNat)
  | .bge a b o => some (0x4c000000 + a.toNat * 0x100000 + b.toNat * 0x4000 + o.toNat)
  | .bltz a b o => some (0x50000000 + a.toNat * 0x100000 + b.toNat * 0x4000 + o.toNat)
  | .bgez a b o => some (0x54000000 + a.toNat * 0x100000 + b.toNat * 0x4000 + o.toNat)
  | .j o => some (0x58000000 + o.toNat)
  | .call o => some (0x5c000000 + o.toNat)
  | .jr a => some (0x60000000 + a.toNat * 0x4000)
  | .callr a => some (0x60000001 + a.toNat * 0x4000)
  | .ret => some (0x60000002)
  | .loop l c => some (0x64000000 + l.toNat * 0x10000 + c.toNat)
  | .loopr l a => some (0x68000000 + l.toNat * 0x10000 + a.toNat * 0x400)
  | .lbrk a => some (0x68000001 + a.toNat * 0x400)
  | .rep n t v s => some (0x6c000000 + n.toNat * 0x400000 + t.toNat * 0x4000 + v.toNat * 0x400 + s.toNat * 0x10)
  | .wait l s c t => some (0x70000000 + l.toNat * 0x100000 + s.toNat * 0x4000 + c.toNat * 0x100 + t.toNat * 0x4)
  | .fenceSv => some (0x74000000)
  | .fenceVs => some (0x74000100)
  | .fenceVv => some (0x74000200)
  | .bari d a => some (0x74000800 + d.toNat * 0x100000 + a.toNat * 0x4000)
  | .bara a s => some (0x74000908 + a.toNat * 0x4000 + s.toNat)
  | .barw a s => some (0x74000a10 + a.toNat * 0x4000 + s.toNat)
  | .fwait d a s => some (0x74001010 + d.toNat * 0x100000 + a.toNat * 0x4000 + s.toNat)
  | .ffill d a s => some (0x74001108 + d.toNat * 0x100000 + a.toNat * 0x4000 + s.toNat)
  | .freset a => some (0x74001200 + a.toNat * 0x4000)
  | .vadd d a b m => some (encodeArith (.vadd d a b m))
  | .vsub d a b m => some (encodeArith (.vsub d a b m))
  | .vmul d a b m => some (encodeArith (.vmul d a b m))
  | .vmulh d a b m => some (encodeArith (.vmulh d a b m))
  | .vmulhz d a b m => some (encodeArith (.vmulhz d a b m))
  | .vdiv d a b m => some (encodeArith (.vdiv d a b m))
  | .vmin d a b m => some (encodeArith (.vmin d a b m))
  | .vmax d a b m => some (encodeArith (.vmax d a b m))
  | .vminz d a b m => some (encodeArith (.vminz d a b m))
  | .vmaxz d a b m => some (encodeArith (.vmaxz d a b m))
  | .vand d a b m => some (encodeArith (.vand d a b m))
  | .vor d a b m => some (encodeArith (.vor d a b m))
  | .vxor d a b m => some (encodeArith (.vxor d a b m))
  | .vshl d a b m => some (encodeArith (.vshl d a b m))
  | .vshr d a b m => some (encodeArith (.vshr d a b m))
  | .vsar d a b m => some (encodeArith (.vsar d a b m))
  | .vadds d a b m => some (encodeArith (.vadds d a b m))
  | .vsubs d a b m => some (encodeArith (.vsubs d a b m))
  | .vabs d a m => some (encodeArith (.vabs d a m))
  | .vwadd d a b m => some (encodeArith (.vwadd d a b m))
  | .vwmul d a b m => some (encodeArith (.vwmul d a b m))
  | .vnshr d a b m => some (encodeArith (.vnshr d a b m))
  | .vdot4 d a b m => some (encodeArith (.vdot4 d a b m))
  | .vaddVs d a b m => some (encodeArith (.vaddVs d a b m))
  | .vsubVs d a b m => some (encodeArith (.vsubVs d a b m))
  | .vmulVs d a b m => some (encodeArith (.vmulVs d a b m))
  | .vmulhVs d a b m => some (encodeArith (.vmulhVs d a b m))
  | .vmulhzVs d a b m => some (encodeArith (.vmulhzVs d a b m))
  | .vdivVs d a b m => some (encodeArith (.vdivVs d a b m))
  | .vminVs d a b m => some (encodeArith (.vminVs d a b m))
  | .vmaxVs d a b m => some (encodeArith (.vmaxVs d a b m))
  | .vminzVs d a b m => some (encodeArith (.vminzVs d a b m))
  | .vmaxzVs d a b m => some (encodeArith (.vmaxzVs d a b m))
  | .vandVs d a b m => some (encodeArith (.vandVs d a b m))
  | .vorVs d a b m => some (encodeArith (.vorVs d a b m))
  | .vxorVs d a b m => some (encodeArith (.vxorVs d a b m))
  | .vshlVs d a b m => some (encodeArith (.vshlVs d a b m))
  | .vshrVs d a b m => some (encodeArith (.vshrVs d a b m))
  | .vsarVs d a b m => some (encodeArith (.vsarVs d a b m))
  | .vaddsVs d a b m => some (encodeArith (.vaddsVs d a b m))
  | .vsubsVs d a b m => some (encodeArith (.vsubsVs d a b m))
  | .vwaddVs d a b m => some (encodeArith (.vwaddVs d a b m))
  | .vwmulVs d a b m => some (encodeArith (.vwmulVs d a b m))
  | .vnshrVs d a b m => some (encodeArith (.vnshrVs d a b m))
  | .vdot4Vs d a b m => some (encodeArith (.vdot4Vs d a b m))
  | .vfadd d a b m => some (encodeArith (.vfadd d a b m))
  | .vfsub d a b m => some (encodeArith (.vfsub d a b m))
  | .vfmul d a b m => some (encodeArith (.vfmul d a b m))
  | .vfdiv d a b m => some (encodeArith (.vfdiv d a b m))
  | .vfsqrt d a m => some (encodeArith (.vfsqrt d a m))
  | .vfma d a b m => some (encodeArith (.vfma d a b m))
  | .vfnms d a b m => some (encodeArith (.vfnms d a b m))
  | .vfmin d a b m => some (encodeArith (.vfmin d a b m))
  | .vfmax d a b m => some (encodeArith (.vfmax d a b m))
  | .vfcvt d a t m => some (encodeArith (.vfcvt d a t m))
  | .vfcvtSat d a t m => some (encodeArith (.vfcvtSat d a t m))
  | .vfrec d a m => some (encodeArith (.vfrec d a m))
  | .vfrsq d a m => some (encodeArith (.vfrsq d a m))
  | .vfexp2 d a m => some (encodeArith (.vfexp2 d a m))
  | .vfclass d a m => some (encodeArith (.vfclass d a m))
  | .vfaddVs d a b m => some (encodeArith (.vfaddVs d a b m))
  | .vfsubVs d a b m => some (encodeArith (.vfsubVs d a b m))
  | .vfmulVs d a b m => some (encodeArith (.vfmulVs d a b m))
  | .vfdivVs d a b m => some (encodeArith (.vfdivVs d a b m))
  | .vfmaVs d a b m => some (encodeArith (.vfmaVs d a b m))
  | .vfnmsVs d a b m => some (encodeArith (.vfnmsVs d a b m))
  | .vfminVs d a b m => some (encodeArith (.vfminVs d a b m))
  | .vfmaxVs d a b m => some (encodeArith (.vfmaxVs d a b m))
  | .mand d a b => some (encodeArith (.mand d a b))
  | .mor d a b => some (encodeArith (.mor d a b))
  | .mxor d a b => some (encodeArith (.mxor d a b))
  | .mandn d a b => some (encodeArith (.mandn d a b))
  | .mpopc d a m => some (encodeArith (.mpopc d a m))
  | .mffs d a m => some (encodeArith (.mffs d a m))
  | .msbf d a m => some (encodeArith (.msbf d a m))
  | .mset d => some (encodeArith (.mset d))
  | .mfromv d a m => some (encodeArith (.mfromv d a m))
  | .mtov d a m => some (encodeArith (.mtov d a m))
  | .viota d a m => some (encodeArith (.viota d a m))
  | .vslup d a b m => some (encodeArith (.vslup d a b m))
  | .vsldn d a b m => some (encodeArith (.vsldn d a b m))
  | .vperm d a b m => some (encodeArith (.vperm d a b m))
  | .vcomp d a m => some (encodeArith (.vcomp d a m))
  | .vexpd d a m => some (encodeArith (.vexpd d a m))
  | .vmerge d a b m => some (encodeArith (.vmerge d a b m))
  | .vbcast d a m => some (encodeArith (.vbcast d a m))
  | .vextr d a b => some (encodeArith (.vextr d a b))
  | .vins d a b => some (encodeArith (.vins d a b))
  | .vredsum d a b m => some (encodeArith (.vredsum d a b m))
  | .vredmax d a b m => some (encodeArith (.vredmax d a b m))
  | .vredmin d a b m => some (encodeArith (.vredmin d a b m))
  | .vfredo d a b m => some (encodeArith (.vfredo d a b m))
  | .vfredu d a b m => some (encodeArith (.vfredu d a b m))
  | .vfredmax d a b m => some (encodeArith (.vfredmax d a b m))
  | .vscan d a m => some (encodeArith (.vscan d a m))
  | .vprune48 d a => some (encodeArith (.vprune48 d a))
  | .vsetvl d a b => some (0x94000000 + d.toNat * 0x100000 + a.toNat * 0x4000 + b.toNat * 0x40)
  | .vsetvli d a c => some (0x94001000 + d.toNat * 0x100000 + a.toNat * 0x4000 + c.toNat)
  | .vgrant d a => some (0x94002000 + d.toNat * 0x100000 + a.toNat * 0x4000)
  | .vcmp d a b m c => some (0x98000000 + d.toNat * 0x200000 + a.toNat * 0x10000 + b.toNat * 0x800 + m.toNat * 0x100 + c.toNat)
  | .vcmpVs d a b m c => some (0x98000040 + d.toNat * 0x200000 + a.toNat * 0x10000 + b.toNat * 0x800 + m.toNat * 0x100 + c.toNat)
  | .vfcmp d a b m c => some (0x98000080 + d.toNat * 0x200000 + a.toNat * 0x10000 + b.toNat * 0x800 + m.toNat * 0x100 + c.toNat)
  | .vfcmpVs d a b m c => some (0x980000c0 + d.toNat * 0x200000 + a.toNat * 0x10000 + b.toNat * 0x800 + m.toNat * 0x100 + c.toNat)
  | .vld d a m => some (0xa0000000 + d.toNat * 0x200000 + a.toNat * 0x8000 + m.toNat * 0x40)
  | .vlds d a b m => some (0xa0000001 + d.toNat * 0x200000 + a.toNat * 0x8000 + b.toNat * 0x200 + m.toNat * 0x40)
  | .vldx d a b m => some (0xa0000002 + d.toNat * 0x200000 + a.toNat * 0x8000 + b.toNat * 0x400 + m.toNat * 0x40)
  | .vldxo d a b m => some (0xa0000003 + d.toNat * 0x200000 + a.toNat * 0x8000 + b.toNat * 0x400 + m.toNat * 0x40)
  | .vldff d a m => some (0xa0000004 + d.toNat * 0x200000 + a.toNat * 0x8000 + m.toNat * 0x40)
  | .vst d a m => some (0xa4000000 + d.toNat * 0x200000 + a.toNat * 0x8000 + m.toNat * 0x40)
  | .vsts d a b m => some (0xa4000001 + d.toNat * 0x200000 + a.toNat * 0x8000 + b.toNat * 0x200 + m.toNat * 0x40)
  | .vstx d a b m => some (0xa4000002 + d.toNat * 0x200000 + a.toNat * 0x8000 + b.toNat * 0x400 + m.toNat * 0x40)
  | .vstxo d a b m => some (0xa4000003 + d.toNat * 0x200000 + a.toNat * 0x8000 + b.toNat * 0x400 + m.toNat * 0x40)
  | .vstxadd d a b m => some (0xa4000004 + d.toNat * 0x200000 + a.toNat * 0x8000 + b.toNat * 0x400 + m.toNat * 0x40)
  | .vldn d a z s m t f => some (0xa8000000 + d.toNat * 0x200000 + a.toNat * 0x8000 + z.toNat * 0x4000 + s.toNat * 0x200 + m.toNat * 0x40 + t.toNat * 0x10 + f.toNat)
  | .vstn d a z s m t f => some (0xa8000020 + d.toNat * 0x200000 + a.toNat * 0x8000 + z.toNat * 0x4000 + s.toNat * 0x200 + m.toNat * 0x40 + t.toNat * 0x10 + f.toNat)
  | .kst d a b => some (0xac000000 + d.toNat * 0x200000 + a.toNat * 0x10000 + b.toNat * 0x400)
  | .ksig d a b => some (0xac000001 + d.toNat * 0x200000 + a.toNat * 0x10000 + b.toNat * 0x400)
  | .tzero t => some (0xc0000000 + t.toNat * 0x100000)
  | .tmma t a b k => some (0xc0000001 + t.toNat * 0x100000 + a.toNat * 0x20000 + b.toNat * 0x4000 + k.toNat * 0x100)
  | .tmmaf t a b k => some (0xc0000002 + t.toNat * 0x100000 + a.toNat * 0x20000 + b.toNat * 0x4000 + k.toNat * 0x100)
  | .tmmag t a b k => some (0xc0000003 + t.toNat * 0x100000 + a.toNat * 0x20000 + b.toNat * 0x4000 + k.toNat * 0x100)
  | .tmmas t a b k v => some (0xc0000020 + t.toNat * 0x100000 + a.toNat * 0x20000 + b.toNat * 0x4000 + k.toNat * 0x100 + v.toNat)
  | .tld t k => some (0xc0000008 + t.toNat * 0x100000 + k.toNat * 0x100)
  | .tst t u f k => some (0xc0000009 + t.toNat * 0x100000 + u.toNat * 0x8000 + f.toNat * 0x4000 + k.toNat * 0x100)
  | .tmovr t v => some (0xc000000a + t.toNat * 0x100000 + v.toNat * 0x4000)
  | .tmovw t v => some (0xc000000b + t.toNat * 0x100000 + v.toNat * 0x4000)
  | .treef t k => some (0xc000000c + t.toNat * 0x100000 + k.toNat * 0x100)
  | .tstat t d => some (0xc000000d + t.toNat * 0x100000 + d.toNat * 0x4000)
  | .tsetx t k => some (0xc000000e + t.toNat * 0x100000 + k.toNat * 0x100)
  | .taddx t k => some (0xc000000f + t.toNat * 0x100000 + k.toNat * 0x100)
  | .sopen a p c s => some (0xc4000000 + a.toNat * 0x4000 + p.toNat * 0x20 + c.toNat * 0x10 + s.toNat)
  | .sclose p => some (0xc4000100 + p.toNat * 0x20)
  | .sbind v p => some (0xc4000200 + v.toNat * 0x100000 + p.toNat * 0x20)
  | .sunbind p => some (0xc4000300 + p.toNat * 0x20)
  | .sstat d p => some (0xc4000400 + d.toNat * 0x100000 + p.toNat * 0x20)
  | .sbar p => some (0xc4000500 + p.toNat * 0x20)
  | .cpy d a c l s => some (0xc4001000 + d.toNat * 0x100000 + a.toNat * 0x4000 + c.toNat * 0x10 + l.toNat * 0x8 + s.toNat)
  | .cpys d a c l s => some (0xc4001100 + d.toNat * 0x100000 + a.toNat * 0x4000 + c.toNat * 0x10 + l.toNat * 0x8 + s.toNat)
  | .cpypf d a => some (0xc4001200 + d.toNat * 0x100000 + a.toNat * 0x4000)
  | .klaunch d a => some (0xc8000000 + d.toNat * 0x100000 + a.toNat * 0x4000)
  | .vfork d a => some (0xc8000008 + d.toNat * 0x100000 + a.toNat * 0x4000)
  | .vjoin a => some (0xc8000009 + a.toNat * 0x4000)
  | .efork a c => some (0xc800000a + a.toNat * 0x4000 + c.toNat * 0x100)
  | .erdv => some (0xc800000b)
  | .gexit => some (0xc800000c)
  | .gid d n => some (0xc800000d + d.toNat * 0x100000 + n.toNat * 0x100)
  | .tqpush a b => some (0xc8000010 + a.toNat * 0x4000 + b.toNat * 0x100)
  | .tqpushn d a b => some (0xc8000011 + d.toNat * 0x100000 + a.toNat * 0x4000 + b.toNat * 0x100)
  | .tdone a => some (0xc8000012 + a.toNat * 0x4000)
  | .tqstat d a => some (0xc8000013 + d.toNat * 0x100000 + a.toNat * 0x4000)
  | .mimport d a c l s => some (0xcc000000 + d.toNat * 0x100000 + a.toNat * 0x4000 + c.toNat * 0x10 + l.toNat * 0x8 + s.toNat)
  | .mexport d a c l s => some (0xcc000100 + d.toNat * 0x100000 + a.toNat * 0x4000 + c.toNat * 0x10 + l.toNat * 0x8 + s.toNat)
  | .mrefine d a c l s => some (0xcc000200 + d.toNat * 0x100000 + a.toNat * 0x4000 + c.toNat * 0x10 + l.toNat * 0x8 + s.toNat)
  | .mcoarsen d a c l s => some (0xcc000300 + d.toNat * 0x100000 + a.toNat * 0x4000 + c.toNat * 0x10 + l.toNat * 0x8 + s.toNat)
  | .mrenum d a c l s => some (0xcc000400 + d.toNat * 0x100000 + a.toNat * 0x4000 + c.toNat * 0x10 + l.toNat * 0x8 + s.toNat)
  | .mstat d a c l s => some (0xcc000500 + d.toNat * 0x100000 + a.toNat * 0x4000 + c.toNat * 0x10 + l.toNat * 0x8 + s.toNat)
  | .mcolour d a c l s => some (0xcc001000 + d.toNat * 0x100000 + a.toNat * 0x4000 + c.toNat * 0x10 + l.toNat * 0x8 + s.toNat)
  | .mtrim d a c l s => some (0xcc001100 + d.toNat * 0x100000 + a.toNat * 0x4000 + c.toNat * 0x10 + l.toNat * 0x8 + s.toNat)
  | .mmigr d a c l s => some (0xcc001200 + d.toNat * 0x100000 + a.toNat * 0x4000 + c.toNat * 0x10 + l.toNat * 0x8 + s.toNat)
  | .mghost d a c l s => some (0xcc001300 + d.toNat * 0x100000 + a.toNat * 0x4000 + c.toNat * 0x10 + l.toNat * 0x8 + s.toNat)
  | .kproj d a c l s => some (0xcc002000 + d.toNat * 0x100000 + a.toNat * 0x4000 + c.toNat * 0x10 + l.toNat * 0x8 + s.toNat)
  | .kreset d a c l s => some (0xcc002100 + d.toNat * 0x100000 + a.toNat * 0x4000 + c.toNat * 0x10 + l.toNat * 0x8 + s.toNat)
  | .kstat d a c l s => some (0xcc002200 + d.toNat * 0x100000 + a.toNat * 0x4000 + c.toNat * 0x10 + l.toNat * 0x8 + s.toNat)
  | .srd d n => some (0xe0000000 + d.toNat * 0x100000 + n.toNat)
  | .swr a n => some (0xe0001000 + a.toNat * 0x4000 + n.toNat)
  | .srset a n => some (0xe0002000 + a.toNat * 0x4000 + n.toNat)
  | .srclr a n => some (0xe0003000 + a.toNat * 0x4000 + n.toNat)
  | .ctxsv d a => some (0xe0000f00 + d.toNat * 0x100000 + a.toNat * 0x4000)
  | .ctxld d a => some (0xe0000f01 + d.toNat * 0x100000 + a.toNat * 0x4000)
  | .tlbinv d a => some (0xe0000f02 + d.toNat * 0x100000 + a.toNat * 0x4000)
  | .probe d a => some (0xe0000f03 + d.toNat * 0x100000 + a.toNat * 0x4000)
  | .pgmig d a => some (0xe0000f04 + d.toNat * 0x100000 + a.toNat * 0x4000)
  | .shkill a => some (0xe0000f05 + a.toNat * 0x4000)
  | .trap n => some (0xe4000000 + n.toNat * 0x100)
  | .brk n => some (0xe4000003 + n.toNat * 0x100)
  | .eret => some (0xe4000001)
  | .uiret => some (0xe4000002)
  | .idle => some (0xe4000004)
  | .slotStallRelease _ => none
  | .ulInterruptEntry _ => none
  | .vectorIssue _ _ => none
  | .recheckExecution _ _ => none
  | .recheckAgeExpiry _ => none
  | .suspectScoreDecay => none
  | .laneGroupRemap _ => none
  | .matrixStep _ => none
  | .copyEngineTransfer _ _ => none
  | .copyCompletion _ => none
  | .scratchpadBankArbitration _ => none
  | .firstStageSave _ => none
  | .preemptionLanding _ => none
  | .pageWalk _ _ _ _ => none
  | .migrationCommit _ _ => none
  | .frameUnreadableReport _ => none
  | .doorbell _ _ _ _ _ => none
  | .taskTake _ => none
  | .readyPoolDispatch _ => none
  | .aging _ _ => none
  | .leafGroupCreate _ => none
  | .leafGroupEnded _ _ => none
  | .kernelComplete _ => none
  | .kernelAborted _ => none
  | .barrierMarkerFire _ _ => none
  | .continuationWalk _ => none
  | .engineCommandCompletion _ => none
  | .remapPush _ => none
  | .kstLinkPublish _ => none
  | .shroudKill _ => none
  | .uncorrectableError _ _ _ => none
  | .hostInboundAccess _ _ _ _ _ _ _ => none
  | .hostLinkDown _ => none
  | .cxlPortFailure _ => none
  | .cxlPoisonReceived _ => none
  | .flitReceive _ _ _ _ _ _ => none
  | .nakReceive _ _ => none
  | .linkTrainingResult _ _ => none
  | .linkTrainingTimeout _ => none
  | .laneLost _ => none
  | .errorResponseReceived _ _ _ _ => none
  | .powerOn => none
  | .perst => none
  | .clocksStable _ => none
  | .selftestEnd => none
  | .memtrainEnd _ _ _ => none
  | .mctlReset => none
  | .mctlBoot => none
  | .mctlHint => none
  | .mctlFreeze _ => none
  | .freezeHold => none
  | .mctlCapt _ => none
  | .mctlRerun _ => none
  | .fwlaunch _ => none
  | .pbudgetWrite _ => none
  | .powerArbitration _ => none
  | .linken _ => none
  | .errorRecordFree _ => none
  | .mgmtRegisterWrite _ _ => none
  | .spbaseWrite _ _ => none
  | .vlWrite _ _ => none
  | .vcfgWrite _ _ => none
  | .vlcapWrite _ _ => none
  | .accrangeWrite _ _ _ => none
  | .reefctlClr _ => none
  | .agelimitWrite _ _ => none
  | .contextIdWrite _ _ _ => none
  | .accessPerformed _ _ => none
  | .neighBucketStreamFetch _ _ => none

/-- The word of a decoded row. -/
def encodeRow : Row → Nat
  | .instr i => (encode i).getD 0
  | .arith c => encodeArith c

/-- The register fields of a vector arithmetic word. -/
def regFieldsArith : VArith → List RegField
  | .vadd _ _ _ _ | .vsub _ _ _ _ | .vmul _ _ _ _ | .vmulh _ _ _ _ | .vmulhz _ _ _ _ | .vdiv _ _ _ _
  | .vmin _ _ _ _ | .vmax _ _ _ _ | .vminz _ _ _ _ | .vmaxz _ _ _ _ | .vand _ _ _ _ | .vor _ _ _ _
  | .vxor _ _ _ _ | .vshl _ _ _ _ | .vshr _ _ _ _ | .vsar _ _ _ _ | .vadds _ _ _ _ | .vsubs _ _ _ _
  | .vwadd _ _ _ _ | .vwmul _ _ _ _ | .vnshr _ _ _ _ | .vdot4 _ _ _ _ | .vfadd _ _ _ _ | .vfsub _ _ _ _
  | .vfmul _ _ _ _ | .vfdiv _ _ _ _ | .vfma _ _ _ _ | .vfnms _ _ _ _ | .vfmin _ _ _ _ | .vfmax _ _ _ _
  | .vperm _ _ _ _ | .vmerge _ _ _ _ | .vredsum _ _ _ _ | .vredmax _ _ _ _ | .vredmin _ _ _ _
  | .vfredo _ _ _ _ | .vfredu _ _ _ _ | .vfredmax _ _ _ _ => [⟨.vector, 5, 21⟩, ⟨.vector, 5, 16⟩, ⟨.vector, 5, 11⟩]
  | .vabs _ _ _ | .vfsqrt _ _ _ | .vfcvt _ _ _ _ | .vfcvtSat _ _ _ _ | .vfrec _ _ _ | .vfrsq _ _ _
  | .vfexp2 _ _ _ | .vfclass _ _ _ | .vcomp _ _ _ | .vexpd _ _ _ | .vscan _ _ _ | .vprune48 _ _ => [⟨.vector, 5, 21⟩, ⟨.vector, 5, 16⟩]
  | .vaddVs _ _ _ _ | .vsubVs _ _ _ _ | .vmulVs _ _ _ _ | .vmulhVs _ _ _ _ | .vmulhzVs _ _ _ _
  | .vdivVs _ _ _ _ | .vminVs _ _ _ _ | .vmaxVs _ _ _ _ | .vminzVs _ _ _ _ | .vmaxzVs _ _ _ _
  | .vandVs _ _ _ _ | .vorVs _ _ _ _ | .vxorVs _ _ _ _ | .vshlVs _ _ _ _ | .vshrVs _ _ _ _ | .vsarVs _ _ _ _
  | .vaddsVs _ _ _ _ | .vsubsVs _ _ _ _ | .vwaddVs _ _ _ _ | .vwmulVs _ _ _ _ | .vnshrVs _ _ _ _
  | .vdot4Vs _ _ _ _ | .vfaddVs _ _ _ _ | .vfsubVs _ _ _ _ | .vfmulVs _ _ _ _ | .vfdivVs _ _ _ _
  | .vfmaVs _ _ _ _ | .vfnmsVs _ _ _ _ | .vfminVs _ _ _ _ | .vfmaxVs _ _ _ _ => [⟨.vector, 5, 21⟩, ⟨.vector, 5, 16⟩, ⟨.scalar, 6, 10⟩]
  | .mand _ _ _ | .mor _ _ _ | .mxor _ _ _ | .mandn _ _ _ | .msbf _ _ _ | .mset _ => []
  | .mpopc _ _ _ | .mffs _ _ _ => [⟨.scalar, 5, 21⟩]
  | .mfromv _ _ _ => [⟨.vector, 5, 16⟩]
  | .mtov _ _ _ | .viota _ _ _ => [⟨.vector, 5, 21⟩]
  | .vslup _ _ _ _ | .vsldn _ _ _ _ => [⟨.vector, 5, 21⟩, ⟨.vector, 5, 16⟩, ⟨.scalar, 5, 11⟩]
  | .vbcast _ _ _ => [⟨.vector, 5, 21⟩, ⟨.scalar, 5, 16⟩]
  | .vextr _ _ _ => [⟨.scalar, 5, 21⟩, ⟨.vector, 5, 16⟩, ⟨.scalar, 5, 11⟩]
  | .vins _ _ _ => [⟨.vector, 5, 21⟩, ⟨.scalar, 5, 16⟩, ⟨.scalar, 5, 11⟩]

/-- The register fields of any other word. Those of majors 0x20 to 0x24 are read by regFieldsArith. -/
def regFieldsInstr : Instr → List RegField
  | .add _ _ _ | .sub _ _ _ | .and _ _ _ | .or _ _ _ | .xor _ _ _ | .andn _ _ _ | .shl _ _ _ | .shr _ _ _
  | .sar _ _ _ | .mul _ _ _ | .mulh _ _ _ | .mulhz _ _ _ | .div _ _ _ | .divz _ _ _ | .rem _ _ _ | .remz _ _ _
  | .min _ _ _ | .max _ _ _ | .minz _ _ _ | .maxz _ _ _ | .addsh _ _ _ _ | .sel _ _ _ | .cmpeq _ _ _
  | .cmplt _ _ _ | .cmpltz _ _ _ | .fadd _ _ _ _ | .fsub _ _ _ _ | .fmul _ _ _ _ | .fdiv _ _ _ _
  | .fma _ _ _ _ | .fmin _ _ _ _ | .fmax _ _ _ _ | .fcmp _ _ _ _ _ | .tqpushn _ _ _ => [⟨.scalar, 6, 20⟩, ⟨.scalar, 6, 14⟩, ⟨.scalar, 6, 8⟩]
  | .clz _ _ | .ctz _ _ | .popc _ _ | .bswap _ _ | .fsqrt _ _ _ | .fcvtDS _ _ | .fcvtSD _ _ | .fcvtDI64 _ _
  | .fcvtSI64 _ _ | .fcvtDZ64 _ _ | .fcvtSZ64 _ _ | .fcvtI64D _ _ | .fcvtI64S _ _ | .fcvtZ64D _ _
  | .fcvtZ64S _ _ | .addi _ _ _ | .andi _ _ _ | .ori _ _ _ | .xori _ _ _ | .shli _ _ _ | .shri _ _ _
  | .sari _ _ _ | .cmplti _ _ _ | .ld _ _ _ _ | .st _ _ _ _ | .ldacq _ _ _ _ | .strel _ _ _ _ | .gbind _ _
  | .amoadd _ _ _ _ _ _ | .amoswap _ _ _ _ _ _ | .amocas _ _ _ _ _ _ | .amomin _ _ _ _ _ _
  | .amomax _ _ _ _ _ _ | .amominz _ _ _ _ _ _ | .amomaxz _ _ _ _ _ _ | .amoand _ _ _ _ _ _
  | .amoor _ _ _ _ _ _ | .amoxor _ _ _ _ _ _ | .beq _ _ _ | .bne _ _ _ | .blt _ _ _ | .bge _ _ _ | .bltz _ _ _
  | .bgez _ _ _ | .bari _ _ | .fwait _ _ _ | .ffill _ _ _ | .vsetvli _ _ _ | .vgrant _ _ | .tstat _ _
  | .cpy _ _ _ _ _ | .cpys _ _ _ _ _ | .cpypf _ _ | .klaunch _ _ | .vfork _ _ | .tqstat _ _
  | .mimport _ _ _ _ _ | .mexport _ _ _ _ _ | .mrefine _ _ _ _ _ | .mcoarsen _ _ _ _ _ | .mrenum _ _ _ _ _
  | .mstat _ _ _ _ _ | .mcolour _ _ _ _ _ | .mtrim _ _ _ _ _ | .mmigr _ _ _ _ _ | .mghost _ _ _ _ _
  | .kproj _ _ _ _ _ | .kreset _ _ _ _ _ | .kstat _ _ _ _ _ | .ctxsv _ _ | .ctxld _ _ | .tlbinv _ _
  | .probe _ _ | .pgmig _ _ => [⟨.scalar, 6, 20⟩, ⟨.scalar, 6, 14⟩]
  | .lih _ _ | .addpc _ _ | .tzero _ | .sstat _ _ | .gid _ _ | .srd _ _ => [⟨.scalar, 6, 20⟩]
  | .acq _ _ | .rel _ _ | .gunbind _ | .jr _ | .callr _ | .bara _ _ | .barw _ _ | .freset _ | .sopen _ _ _ _
  | .vjoin _ | .efork _ _ | .tdone _ | .swr _ _ | .srset _ _ | .srclr _ _ | .shkill _ => [⟨.scalar, 6, 14⟩]
  | .gfence _ | .j _ | .call _ | .ret | .loop _ _ | .rep _ _ _ _ | .wait _ _ _ _ | .fenceSv | .fenceVs
  | .fenceVv | .sclose _ | .sunbind _ | .sbar _ | .erdv | .gexit | .trap _ | .brk _ | .eret | .uiret | .idle
  | .slotStallRelease _ | .ulInterruptEntry _ | .vectorIssue _ _ | .recheckExecution _ _ | .recheckAgeExpiry _
  | .suspectScoreDecay | .laneGroupRemap _ | .matrixStep _ | .copyEngineTransfer _ _ | .copyCompletion _
  | .scratchpadBankArbitration _ | .firstStageSave _ | .preemptionLanding _ | .pageWalk _ _ _ _
  | .migrationCommit _ _ | .frameUnreadableReport _ | .doorbell _ _ _ _ _ | .taskTake _ | .readyPoolDispatch _
  | .aging _ _ | .leafGroupCreate _ | .leafGroupEnded _ _ | .kernelComplete _ | .kernelAborted _
  | .barrierMarkerFire _ _ | .continuationWalk _ | .engineCommandCompletion _ | .remapPush _
  | .kstLinkPublish _ | .shroudKill _ | .uncorrectableError _ _ _ | .hostInboundAccess _ _ _ _ _ _ _
  | .hostLinkDown _ | .cxlPortFailure _ | .cxlPoisonReceived _ | .flitReceive _ _ _ _ _ _ | .nakReceive _ _
  | .linkTrainingResult _ _ | .linkTrainingTimeout _ | .laneLost _ | .errorResponseReceived _ _ _ _ | .powerOn
  | .perst | .clocksStable _ | .selftestEnd | .memtrainEnd _ _ _ | .mctlReset | .mctlBoot | .mctlHint
  | .mctlFreeze _ | .freezeHold | .mctlCapt _ | .mctlRerun _ | .fwlaunch _ | .pbudgetWrite _
  | .powerArbitration _ | .linken _ | .errorRecordFree _ | .mgmtRegisterWrite _ _ | .spbaseWrite _ _
  | .vlWrite _ _ | .vcfgWrite _ _ | .vlcapWrite _ _ | .accrangeWrite _ _ _ | .reefctlClr _
  | .agelimitWrite _ _ | .contextIdWrite _ _ _ | .accessPerformed _ _ | .neighBucketStreamFetch _ _ => []
  | .loopr _ _ | .lbrk _ => [⟨.scalar, 6, 10⟩]
  | .vsetvl _ _ _ => [⟨.scalar, 6, 20⟩, ⟨.scalar, 6, 14⟩, ⟨.scalar, 6, 6⟩]
  | .vcmp _ _ _ _ _ | .vfcmp _ _ _ _ _ => [⟨.vector, 5, 16⟩, ⟨.vector, 5, 11⟩]
  | .vcmpVs _ _ _ _ _ | .vfcmpVs _ _ _ _ _ => [⟨.vector, 5, 16⟩, ⟨.scalar, 5, 11⟩]
  | .vld _ _ _ | .vldff _ _ _ | .vst _ _ _ => [⟨.vector, 5, 21⟩, ⟨.scalar, 6, 15⟩]
  | .vlds _ _ _ _ | .vsts _ _ _ _ => [⟨.vector, 5, 21⟩, ⟨.scalar, 6, 15⟩, ⟨.scalar, 6, 9⟩]
  | .vldx _ _ _ _ | .vldxo _ _ _ _ | .vstx _ _ _ _ | .vstxo _ _ _ _ | .vstxadd _ _ _ _ => [⟨.vector, 5, 21⟩, ⟨.scalar, 6, 15⟩, ⟨.vector, 5, 10⟩]
  | .vldn _ _ _ _ _ _ _ | .vstn _ _ _ _ _ _ _ => [⟨.vector, 5, 21⟩, ⟨.scalar, 6, 15⟩, ⟨.scalar, 5, 9⟩]
  | .kst _ _ _ | .ksig _ _ _ => [⟨.scalar, 5, 21⟩, ⟨.vector, 5, 16⟩, ⟨.scalar, 6, 10⟩]
  | .tmma _ _ _ _ | .tmmaf _ _ _ _ | .tmmag _ _ _ _ | .tld _ _ | .tst _ _ _ _ | .treef _ _ | .tsetx _ _
  | .taddx _ _ => [⟨.scalar, 6, 20⟩, ⟨.scalar, 6, 8⟩]
  | .tmmas _ _ _ _ _ => [⟨.scalar, 6, 20⟩, ⟨.scalar, 6, 8⟩, ⟨.vector, 5, 0⟩]
  | .tmovr _ _ | .tmovw _ _ => [⟨.scalar, 6, 20⟩, ⟨.vector, 5, 14⟩]
  | .sbind _ _ => [⟨.vector, 5, 20⟩]
  | .tqpush _ _ => [⟨.scalar, 6, 14⟩, ⟨.scalar, 6, 8⟩]
  | .vadd _ _ _ _ | .vsub _ _ _ _ | .vmul _ _ _ _ | .vmulh _ _ _ _ | .vmulhz _ _ _ _ | .vdiv _ _ _ _
  | .vmin _ _ _ _ | .vmax _ _ _ _ | .vminz _ _ _ _ | .vmaxz _ _ _ _ | .vand _ _ _ _ | .vor _ _ _ _
  | .vxor _ _ _ _ | .vshl _ _ _ _ | .vshr _ _ _ _ | .vsar _ _ _ _ | .vadds _ _ _ _ | .vsubs _ _ _ _
  | .vabs _ _ _ | .vwadd _ _ _ _ | .vwmul _ _ _ _ | .vnshr _ _ _ _ | .vdot4 _ _ _ _ | .vaddVs _ _ _ _
  | .vsubVs _ _ _ _ | .vmulVs _ _ _ _ | .vmulhVs _ _ _ _ | .vmulhzVs _ _ _ _ | .vdivVs _ _ _ _
  | .vminVs _ _ _ _ | .vmaxVs _ _ _ _ | .vminzVs _ _ _ _ | .vmaxzVs _ _ _ _ | .vandVs _ _ _ _ | .vorVs _ _ _ _
  | .vxorVs _ _ _ _ | .vshlVs _ _ _ _ | .vshrVs _ _ _ _ | .vsarVs _ _ _ _ | .vaddsVs _ _ _ _
  | .vsubsVs _ _ _ _ | .vwaddVs _ _ _ _ | .vwmulVs _ _ _ _ | .vnshrVs _ _ _ _ | .vdot4Vs _ _ _ _
  | .vfadd _ _ _ _ | .vfsub _ _ _ _ | .vfmul _ _ _ _ | .vfdiv _ _ _ _ | .vfsqrt _ _ _ | .vfma _ _ _ _
  | .vfnms _ _ _ _ | .vfmin _ _ _ _ | .vfmax _ _ _ _ | .vfcvt _ _ _ _ | .vfcvtSat _ _ _ _ | .vfrec _ _ _
  | .vfrsq _ _ _ | .vfexp2 _ _ _ | .vfclass _ _ _ | .vfaddVs _ _ _ _ | .vfsubVs _ _ _ _ | .vfmulVs _ _ _ _
  | .vfdivVs _ _ _ _ | .vfmaVs _ _ _ _ | .vfnmsVs _ _ _ _ | .vfminVs _ _ _ _ | .vfmaxVs _ _ _ _ | .mand _ _ _
  | .mor _ _ _ | .mxor _ _ _ | .mandn _ _ _ | .mpopc _ _ _ | .mffs _ _ _ | .msbf _ _ _ | .mset _
  | .mfromv _ _ _ | .mtov _ _ _ | .viota _ _ _ | .vslup _ _ _ _ | .vsldn _ _ _ _ | .vperm _ _ _ _
  | .vcomp _ _ _ | .vexpd _ _ _ | .vmerge _ _ _ _ | .vbcast _ _ _ | .vextr _ _ _ | .vins _ _ _
  | .vredsum _ _ _ _ | .vredmax _ _ _ _ | .vredmin _ _ _ _ | .vfredo _ _ _ _ | .vfredu _ _ _ _
  | .vfredmax _ _ _ _ | .vscan _ _ _ | .vprune48 _ _ => []

/-- The register fields of a word, the fields that a REP frame offsets (04_sequencer R106): those that R63 to R71 give a
scalar or a vector register, each with its width and lowest bit. -/
def regFields : Row → List RegField
  | .instr i => regFieldsInstr i
  | .arith c => regFieldsArith c

/-- A register field offset for repetition j of a REP frame with the given strides (04_sequencer R106): its full offset
value. A scalar field that names s0 stays s0. -/
def offsetValue (k : RegKind) (v j vstr sstr : Nat) : Nat :=
  match k with
  | .vector => (v + j * vstr) % 32
  | .scalar => if v = 0 then 0 else (v + j * sstr) % 64

/-- The word w with one register field offset: the field holds the low bits of its offset value that fit (R106). -/
def offsetField (w j vstr sstr : Nat) (f : RegField) : Nat :=
  let v := field w (f.lo + f.width - 1) f.lo
  let v' := offsetValue f.kind v j vstr sstr % 2 ^ f.width
  w - v * 2 ^ f.lo + v' * 2 ^ f.lo

/-- Whether a field's offset value leaves the field, as a 5-bit scalar field above s31 does (R106). -/
def offsetEscapes (w j vstr sstr : Nat) (f : RegField) : Bool :=
  decide (2 ^ f.width ≤ offsetValue f.kind (field w (f.lo + f.width - 1) f.lo) j vstr sstr)

/-- The offset word of repetition j: every register field of the instruction offset (R106). -/
def offsetWord (r : Row) (w j vstr sstr : Nat) : Nat :=
  (regFields r).foldl (fun acc f => offsetField acc j vstr sstr f) w

/-- Decode the word w in repetition j of a REP frame (R106): the fetched word's row gives its register fields, they are
offset, and the offset word passes every check, also that no offset value leaves its field. The first component is the
word that TRAPAUX reports. -/
def decodeOffset (w j vstr sstr : Nat) : Nat × Except DecodeError Row :=
  match decodeRow w with
  | none => (w, decodeToRow w)
  | some r =>
    let w' := offsetWord r w j vstr sstr
    (w', if (regFields r).any (offsetEscapes w j vstr sstr) then .error .operandOutOfSet else decodeToRow w')

end Sys2Proof
end

