-- ==== Sys2Proof/Machine/Flags.lean ====
section
/-! DEFINITION. Exact values, the floating-point formats, and Round with its flags (00_scope R8; 02_numbers R27 to R33, R38 to
R42, R51). -/

namespace Sys2Proof.Machine

/-- An exact value: a NaN, an infinity, or a real. A real has its sign and its magnitude: m × 2^e when it is exact, else some
number strictly between m × 2^e and (m + 1) × 2^e. Zero has m = 0. -/
inductive FVal where
  | nan (signalling : Bool)
  | inf (neg : Bool)
  | fin (neg : Bool) (m : Nat) (e : Int) (inexact : Bool)
  deriving DecidableEq, Repr

/-- FFLAGS bits (02_numbers R32). -/
abbrev FFlags := BitVec 5
def flagNV : FFlags := 16#5
def flagDZ : FFlags := 8#5
def flagOF : FFlags := 4#5
def flagUF : FFlags := 2#5
def flagNX : FFlags := 1#5

/-- A flag when a condition holds. -/
def flagIf (c : Bool) (f : FFlags) : FFlags := if c then f else 0

/-- The rounding modes (02_numbers R31). -/
inductive RMode where
  | rne
  | rtz
  | rdn
  | rup
  deriving DecidableEq, Repr

/-- The mode that a FRM value selects (02_numbers R31). -/
def RMode.ofFrm (frm : BitVec 2) : RMode :=
  match frm.toNat with
  | 0 => .rne
  | 1 => .rtz
  | 2 => .rdn
  | _ => .rup

/-- A format with sign, exponent and fraction (02_numbers R27, R38, R42): its widths and bias, the code of its largest finite
magnitude, and the magnitude codes of infinity and of the canonical NaN, where it has them. -/
structure Fmt where
  ebits : Nat
  fbits : Nat
  bias : Nat
  maxCode : Nat
  infCode : Option Nat
  nanCode : Option Nat
  deriving DecidableEq, Repr

/-- The formats of R27, R38 and R42. -/
def fmtF64 : Fmt := ⟨11, 52, 1023, 0x7FEFFFFFFFFFFFFF, some 0x7FF0000000000000, some 0x7FF8000000000000⟩
def fmtF32 : Fmt := ⟨8, 23, 127, 0x7F7FFFFF, some 0x7F800000, some 0x7FC00000⟩
def fmtF16 : Fmt := ⟨5, 10, 15, 0x7BFF, some 0x7C00, some 0x7E00⟩
def fmtBF16 : Fmt := ⟨8, 7, 127, 0x7F7F, some 0x7F80, some 0x7FC0⟩
def fmtE4M3 : Fmt := ⟨4, 3, 7, 0x7E, none, some 0x7F⟩
def fmtE5M2 : Fmt := ⟨5, 2, 15, 0x7B, some 0x7C, some 0x7E⟩
def fmtE2M3 : Fmt := ⟨2, 3, 1, 0x1F, none, none⟩
def fmtE3M2 : Fmt := ⟨3, 2, 3, 0x1F, none, none⟩
def fmtE2M1 : Fmt := ⟨2, 1, 1, 0x7, none, none⟩

/-- The weight of the sign bit of a format. -/
def Fmt.signBit (f : Fmt) : Nat := 2 ^ (f.ebits + f.fbits)

/-- A magnitude code with its sign. -/
def Fmt.withSign (f : Fmt) (neg : Bool) (code : Nat) : Nat := if neg then f.signBit + code else code

/-- The value of an encoding (02_numbers R27, R38, R42). -/
def Fmt.decode (f : Fmt) (code : Nat) : FVal :=
  let neg := code.testBit (f.ebits + f.fbits)
  let body := code % f.signBit
  let e := body / 2 ^ f.fbits
  let frac := body % 2 ^ f.fbits
  if f.infCode.isSome && e == 2 ^ f.ebits - 1 then
    (if frac = 0 then .inf neg else .nan (!frac.testBit (f.fbits - 1)))
  else if f.infCode.isNone && f.nanCode == some body then .nan false
  else if e = 0 then .fin neg frac (1 - (f.bias : Int) - (f.fbits : Int)) false
  else .fin neg (2 ^ f.fbits + frac) ((e : Int) - (f.bias : Int) - (f.fbits : Int)) false

/-- The larger magnitude member near a value: n rounded to an integer under a mode, from its floor and what the floor leaves,
given as the comparison of the rest with one half (lt, eq, gt) and whether there is a rest. -/
def roundUp (mode : RMode) (neg : Bool) (n : Nat) (half : Ordering) (rest : Bool) : Bool :=
  match mode with
  | .rne => match half with
    | .lt => false
    | .gt => true
    | .eq => n % 2 == 1
  | .rtz => false
  | .rdn => neg && rest
  | .rup => !neg && rest

/-- A magnitude in units of 2^q, rounded to an integer under a mode, and whether that is exact. The magnitude is m × 2^e, or lies
strictly above it and below (m + 1) × 2^e. -/
def roundUnits (mode : RMode) (neg : Bool) (m : Nat) (e : Int) (inexact : Bool) (q : Int) : Nat × Bool :=
  if q ≤ e then
    -- no bit is cut; a value that is not exact has a rest below one half of a unit only when q = e
    let n := m * 2 ^ (e - q).toNat
    (if inexact && roundUp mode neg n .lt true then n + 1 else n, !inexact)
  else
    let k := (q - e).toNat
    let n := m / 2 ^ k
    let r := m % 2 ^ k
    let rest := decide (r ≠ 0) || inexact
    let half := if r < 2 ^ (k - 1) then Ordering.lt else if r = 2 ^ (k - 1) ∧ inexact = false then .eq else .gt
    (if roundUp mode neg n half rest then n + 1 else n, !rest)

/-- The result of an overflow in a format (00_scope R8; 02_numbers R38, R51): infinity or the largest magnitude by mode; where
there is no infinity, the NaN in place of infinity, and the largest magnitude where there is no NaN either. -/
def Fmt.overflow (f : Fmt) (mode : RMode) (sat neg : Bool) : Nat :=
  let toInf := match mode with
    | .rne => true
    | .rtz => false
    | .rdn => neg
    | .rup => !neg
  if sat || !toInf then f.withSign neg f.maxCode
  else match f.infCode, f.nanCode with
    | some i, _ => f.withSign neg i
    | none, some n => n
    | none, none => f.withSign neg f.maxCode

/-- Round(x, f, mode, sat) and its flags (00_scope R8; 02_numbers R29, R38, R51). The code of a magnitude in units of the format's
least quantum grows by one per member, so a code above the largest is an overflow. -/
def Fmt.round (f : Fmt) (mode : RMode) (sat : Bool) (x : FVal) : Nat × FFlags :=
  match x with
  | .nan _ =>
    (match f.nanCode with
      | some n => (n, 0)
      | none => (0, flagNV))
  | .inf neg =>
    if sat then (f.withSign neg f.maxCode, flagNX)
    else (match f.infCode, f.nanCode with
      | some i, _ => (f.withSign neg i, 0)
      | none, some n => (n, flagNV)
      | none, none => (f.withSign neg f.maxCode, flagNX))
  | .fin neg m e inexact =>
    if m = 0 ∧ inexact = false then (f.withSign neg 0, 0)
    else
      let qmin : Int := 1 - (f.bias : Int) - (f.fbits : Int)
      let top : Int := (Nat.log2 m : Int) + e
      let q := max (top - f.fbits) qmin
      let r := roundUnits mode neg m e inexact q
      let code := (q - qmin).toNat * 2 ^ f.fbits + r.1
      let u := roundUnits mode neg m e inexact (top - f.fbits)
      let tiny := decide (top - f.fbits < qmin) && decide (u.1 < 2 ^ (qmin + f.fbits - (top - f.fbits)).toNat)
      if f.maxCode < code then (f.overflow mode sat neg, flagOF ||| flagNX)
      else (f.withSign neg code, flagIf (!r.2) flagNX ||| flagIf (tiny && !r.2) flagUF)

/-- Whether a value is a signalling NaN, as the flag NV (02_numbers R29). -/
def FVal.nv : FVal → FFlags
  | .nan true => flagNV
  | _ => 0

/-- The magnitude of a T8 or T6 body in units of 2^−20 (02_numbers R39): the run of equal bits from the top of a body of n bits
gives the regime; T8 (steps of 4, exponent bit) and T6 (steps of 2). -/
def regimeRun (body : Nat) (first : Bool) : Nat → Nat
  | 0 => 0
  | n + 1 => if body.testBit n = first then regimeRun body first n + 1 else 0

/-- The exponent and the fraction of a body of n bits (02_numbers R39): (power of two, f, F). -/
def taperParts (t8 : Bool) (body : Nat) : Int × Nat × Nat :=
  let n := if t8 then 7 else 5
  let first := body.testBit (n - 1)
  let l := regimeRun body first n
  let k : Int := if first then (l : Int) - 1 else -(l : Int)
  let rem := n - l - 1
  if t8 then
    let e := if 0 < rem then (body.testBit (rem - 1)).toNat else 0
    let fb := rem - 1
    (2 * k + e, body % 2 ^ fb, fb)
  else (k, body % 2 ^ rem, rem)

/-- The value of a T8 or T6 code (02_numbers R39). -/
def taperDecode (t8 : Bool) (code : Nat) : FVal :=
  let n := if t8 then 7 else 5
  let neg := code.testBit n
  let body := code % 2 ^ n
  if body = 0 then (if neg then .nan false else .fin false 0 0 false)
  else
    let p := taperParts t8 body
    .fin neg (2 ^ p.2.2 + p.2.1) (p.1 - p.2.2) false

/-- The magnitude of a non-zero body in units of 2^−20; zero for body 0. -/
def taperUnits (t8 : Bool) (body : Nat) : Nat :=
  match taperDecode t8 body with
  | .fin _ m e _ => m * 2 ^ (e + 20).toNat
  | _ => 0

/-- The greatest body of a list of bodies, taken downward from n, whose magnitude does not exceed m × 2^e; 0 when none does. -/
def taperFloor (t8 : Bool) (m : Nat) (e : Int) : Nat → Nat
  | 0 => 0
  | n + 1 =>
    let u := taperUnits t8 (n + 1)
    if (if -20 ≤ e then decide (u ≤ m * 2 ^ (e + 20).toNat) else decide (u * 2 ^ (-20 - e).toNat ≤ m)) then n + 1
    else taperFloor t8 m e n

/-- Narrowing to T8 or T6 (02_numbers R41). -/
def taperRound (t8 : Bool) (mode : RMode) (x : FVal) : Nat × FFlags :=
  let n := if t8 then 7 else 5
  let top := 2 ^ n - 1
  let withSign := fun (neg : Bool) (b : Nat) => if b = 0 then 0 else if neg then 2 ^ n + b else b
  match x with
  | .nan s => (2 ^ n, flagIf s flagNV)
  | .inf neg => (withSign neg top, flagNX)
  | .fin neg m e _ =>
    if m = 0 then (0, 0)
    else
      -- both magnitudes in units of 2^min(e, −20)
      let lo := min e (-20)
      let mx := m * 2 ^ (e - lo).toNat
      let b := taperFloor t8 m e top
      let ub := taperUnits t8 b * 2 ^ (-20 - lo).toNat
      if b = top then
        (withSign neg top, flagIf (decide (ub < mx)) (flagOF ||| flagNX))
      else
        let uc := taperUnits t8 (b + 1) * 2 ^ (-20 - lo).toNat
        let rest := decide (ub < mx)
        let half := if 2 * mx < ub + uc then Ordering.lt else if 2 * mx = ub + uc then .eq else .gt
        let c := if roundUp mode neg b half rest then b + 1 else b
        (withSign neg c, flagIf rest flagNX ||| flagIf (rest && b == 0) flagUF)

/-- Rounding a real to an integer under a mode, and whether that is exact (02_numbers R35). -/
def roundInt (mode : RMode) (neg : Bool) (m : Nat) (e : Int) (inexact : Bool) : Int × Bool :=
  let r := roundUnits mode neg m e inexact 0
  (if neg then -(r.1 : Int) else (r.1 : Int), r.2)

/-- The bounds of an integer type of n bits (02_numbers R37). -/
def intMin (signed : Bool) (n : Nat) : Int := if signed then -(2 ^ (n - 1) : Int) else 0
def intMax (signed : Bool) (n : Nat) : Int := if signed then 2 ^ (n - 1) - 1 else 2 ^ n - 1

/-- The low n bits of an integer, as a number. -/
def intBits (n : Nat) (x : Int) : Nat := (x % (2 ^ n : Int)).toNat

/-- The signed value of the low n bits of a number (02_numbers R37). -/
def signedOf (n x : Nat) : Int := if (x % 2 ^ n).testBit (n - 1) then (x % 2 ^ n : Int) - 2 ^ n else (x % 2 ^ n : Int)

/-- An integer clamped to the bounds of a type (02_numbers R36). -/
def clampInt (signed : Bool) (n : Nat) (x : Int) : Int := max (intMin signed n) (min (intMax signed n) x)

/-- Conversion to an integer type of n bits, and its flags (02_numbers R35). -/
def toInteger (mode : RMode) (signed : Bool) (n : Nat) (x : FVal) : Nat × FFlags :=
  match x with
  | .nan _ => (0, flagNV)
  | .inf neg => (intBits n (if neg then intMin signed n else intMax signed n), flagNV)
  | .fin neg m e inexact =>
    let r := roundInt mode neg m e inexact
    if intMin signed n ≤ r.1 ∧ r.1 ≤ intMax signed n then (intBits n r.1, flagIf (!r.2) flagNX)
    else (intBits n (clampInt signed n r.1), flagNV)

/-- An integer as an exact value (02_numbers R36). -/
def FVal.ofInt (x : Int) : FVal := .fin (decide (x < 0)) x.natAbs 0 false

end Sys2Proof.Machine
end

