-- ==== Sys2Proof/Machine/Float.lean ====
section
/-! DEFINITION. The floating-point operations on exact values, before Round (02_numbers R28 to R33; 04_sequencer R92, R93;
05_vector R135). -/

namespace Sys2Proof.Machine

/-- The sign of a value; a NaN has sign 0. -/
def FVal.neg : FVal → Bool
  | .nan _ => false
  | .inf n => n
  | .fin n _ _ _ => n

/-- Whether a value is zero. -/
def FVal.isZero : FVal → Bool
  | .fin _ m _ i => m == 0 && !i
  | _ => false

/-- The negative of a value. -/
def FVal.negate : FVal → FVal
  | .nan s => .nan s
  | .inf n => .inf (!n)
  | .fin n m e i => .fin (!n) m e i

/-- The quiet NaN. -/
def FVal.qnan : FVal := .nan false

/-- A real from a signed integer in units of 2^e; an exact zero has the given sign. -/
def realOf (x : Int) (e : Int) (zeroNeg : Bool) : FVal :=
  if x = 0 then .fin zeroNeg 0 0 false else .fin (decide (x < 0)) x.natAbs e false

/-- The signed integer that a magnitude is in units of 2^q, for q at or below its exponent. -/
def unitsOf (neg : Bool) (m : Nat) (e q : Int) : Int :=
  let n : Int := m * 2 ^ (e - q).toNat
  if neg then -n else n

/-- The exact sum of two values, and NV (02_numbers R28, R33): an exact zero sum of unlike signs is +0, and −0 under RDN. -/
def fAdd (mode : RMode) : FVal → FVal → FVal × FFlags
  | .nan s, b => (.qnan, (FVal.nan s).nv ||| b.nv)
  | a, .nan s => (.qnan, a.nv ||| (FVal.nan s).nv)
  | .inf n, .inf n' => if n = n' then (.inf n, 0) else (.qnan, flagNV)
  | .inf n, .fin _ _ _ _ => (.inf n, 0)
  | .fin _ _ _ _, .inf n => (.inf n, 0)
  | .fin n m e _, .fin n' m' e' _ =>
    let q := min e e'
    (realOf (unitsOf n m e q + unitsOf n' m' e' q) q (if n = n' then n else decide (mode = .rdn)), 0)

/-- The exact product of two values, and NV (02_numbers R33). -/
def fMul : FVal → FVal → FVal × FFlags
  | .nan s, b => (.qnan, (FVal.nan s).nv ||| b.nv)
  | a, .nan s => (.qnan, a.nv ||| (FVal.nan s).nv)
  | .inf n, .inf n' => (.inf (n != n'), 0)
  | .inf n, .fin n' m e i => if (FVal.fin n' m e i).isZero then (.qnan, flagNV) else (.inf (n != n'), 0)
  | .fin n m e i, .inf n' => if (FVal.fin n m e i).isZero then (.qnan, flagNV) else (.inf (n != n'), 0)
  | .fin n m e _, .fin n' m' e' _ => (.fin (n != n') (m * m') (e + e') false, 0)

/-- The exact value a × b + c, and NV (04_sequencer R92): NV for 0 × ±Inf even when c is NaN. -/
def fFma (mode : RMode) (a b c : FVal) : FVal × FFlags :=
  let p := fMul a b
  let s := fAdd mode p.1 c
  (s.1, p.2 ||| s.2)

/-- The quotient of two values, and NV or DZ (02_numbers R32, R33): at least 70 bits of it, and whether it goes on. -/
def fDiv : FVal → FVal → FVal × FFlags
  | .nan s, b => (.qnan, (FVal.nan s).nv ||| b.nv)
  | a, .nan s => (.qnan, a.nv ||| (FVal.nan s).nv)
  | .inf _, .inf _ => (.qnan, flagNV)
  | .inf n, .fin n' _ _ _ => (.inf (n != n'), 0)
  | .fin n _ _ _, .inf n' => (.fin (n != n') 0 0 false, 0)
  | .fin n m e _, .fin n' m' e' _ =>
    if m' = 0 then (if m = 0 then (.qnan, flagNV) else (.inf (n != n'), flagDZ))
    else if m = 0 then (.fin (n != n') 0 0 false, 0)
    else
      let k := Nat.log2 m' + 70
      (.fin (n != n') (m * 2 ^ k / m') (e - e' - k) (decide (m * 2 ^ k % m' ≠ 0)), 0)

/-- The integer square root, bit by bit from bit n − 1 down. -/
def isqrtFrom (x : Nat) : Nat → Nat → Nat
  | 0, r => r
  | n + 1, r => if (r + 2 ^ n) * (r + 2 ^ n) ≤ x then isqrtFrom x n (r + 2 ^ n) else isqrtFrom x n r

/-- The greatest integer whose square is at most x. -/
def isqrt (x : Nat) : Nat := isqrtFrom x (Nat.log2 x / 2 + 1) 0

/-- The square root of a value, and NV (04_sequencer R92): at least 70 bits of it; √−0 = −0. -/
def fSqrt : FVal → FVal × FFlags
  | .nan s => (.qnan, (FVal.nan s).nv)
  | .inf n => if n then (.qnan, flagNV) else (.inf false, 0)
  | .fin n m e _ =>
    if m = 0 then (.fin n 0 0 false, 0)
    else if n then (.qnan, flagNV)
    else
      let x := m * 2 ^ ((e % 2).toNat + 140)
      (.fin false (isqrt x) (e / 2 - 70) (decide (isqrt x * isqrt x ≠ x)), 0)

/-- 1 / a, with DZ for ±0 (05_vector R135). -/
def fRec (a : FVal) : FVal × FFlags := fDiv (.fin false 1 0 false) a

/-- 1 / √a (05_vector R135): at least 70 bits of it. -/
def fRsqrt : FVal → FVal × FFlags
  | .nan s => (.qnan, (FVal.nan s).nv)
  | .inf n => if n then (.qnan, flagNV) else (.fin false 0 0 false, 0)
  | .fin n m e _ =>
    if m = 0 then (.inf n, flagDZ)
    else if n then (.qnan, flagNV)
    else
      let x := m * 2 ^ (e % 2).toNat
      let k := Nat.log2 x + 80
      let r := isqrt (2 ^ (2 * k) / x)
      (.fin false r (-(e / 2) - k) (decide (r * r * x ≠ 2 ^ (2 * k))), 0)

/-- The natural logarithm of 2 in units of 2^−256, cut. -/
def ln2Units : Nat := 0xB17217F7D1CF79ABC9E3B39803F2F6AF40F343267298B62D8A0D175B8BAAFA2B

/-- The sum of n further terms of the series of e^y, from the term t of number k, in units of 2^−256. -/
def expSeries (y : Nat) : Nat → Nat → Nat → Nat
  | 0, _, _ => 0
  | n + 1, k, t => t + expSeries y n (k + 1) (t * y / 2 ^ 256 / (k + 1))

/-- 2^f in units of 2^−100, cut, for f in units of 2^−256 below 1: the series of e^(f ln 2). -/
def exp2Frac (f : Nat) : Nat := expSeries (f * ln2Units / 2 ^ 256) 70 0 (2 ^ 256) / 2 ^ 156

/-- 2^a (05_vector R135): exact for an integer a; else 100 bits after the point of an irrational number. -/
def fExp2 : FVal → FVal × FFlags
  | .nan s => (.qnan, (FVal.nan s).nv)
  | .inf n => (if n then .fin false 0 0 false else .inf false, 0)
  | .fin n m e _ =>
    -- a = k + f / 2^256 with 0 ≤ f < 2^256; an exponent beyond ±16,384 rounds as that one does
    let whole : Int := if 0 ≤ e then (m : Int) * 2 ^ (min e 15).toNat else (m / 2 ^ (-e).toNat : Nat)
    let frac : Nat := if 0 ≤ e then 0 else (m % 2 ^ (-e).toNat) * 2 ^ 256 / 2 ^ (-e).toNat
    let exact := decide (0 ≤ e) || m % 2 ^ (-e).toNat == 0
    let up := n && !exact
    let k : Int := if n then -whole - (if up then 1 else 0) else whole
    let f : Nat := if up then 2 ^ 256 - 1 - (if frac = 0 then 0 else frac - 1) else frac
    let kc := max (-16384) (min 16384 k)
    if exact then (.fin false 1 kc false, 0)
    else (.fin false (exp2Frac f) (kc - 100) true, 0)

/-- The comparison of two values that are not NaN (04_sequencer R93): +0 equals −0. -/
def fCompare : FVal → FVal → Option Ordering
  | .nan _, _ => none
  | _, .nan _ => none
  | .inf n, .inf n' => some (if n = n' then .eq else if n then .lt else .gt)
  | .inf n, .fin _ _ _ _ => some (if n then .lt else .gt)
  | .fin _ _ _ _, .inf n => some (if n then .gt else .lt)
  | .fin n m e _, .fin n' m' e' _ =>
    let q := min e e'
    some (compare (unitsOf n m e q) (unitsOf n' m' e' q))

/-- The conditions of FCMP (04_sequencer R93) and their flag, by code: 0 eq, 1 lt, 2 le, 3 un. -/
def fCondition (c : Nat) (a b : FVal) : Bool × FFlags :=
  let r := fCompare a b
  let signal := a.nv ||| b.nv
  match c with
  | 0 => (r == some .eq, signal)
  | 1 => (r == some .lt, if r.isNone then flagNV else 0)
  | 2 => (r == some .lt || r == some .eq, if r.isNone then flagNV else 0)
  | _ => (r.isNone, signal)

/-- minimumNumber or maximumNumber of two encodings of a format (02_numbers R30): −0 is below +0. -/
def fMinMax (f : Fmt) (isMax : Bool) (a b : Nat) : Nat × FFlags :=
  let x := f.decode a
  let y := f.decode b
  let nv := x.nv ||| y.nv
  match x, y with
  | .nan _, .nan _ => (f.nanCode.getD 0, nv)
  | .nan _, _ => (b, nv)
  | _, .nan _ => (a, nv)
  | _, _ =>
    let below := match fCompare x y with
      | some .lt => true
      | some .gt => false
      | _ => x.neg
    (if below != isMax then a else b, nv)

/-- Round a computed value into a format, with the flags of its computation (02_numbers R28). -/
def Fmt.finish (f : Fmt) (mode : RMode) (r : FVal × FFlags) : Nat × FFlags :=
  let c := f.round mode false r.1
  (c.1, c.2 ||| r.2)

/-- VFCLASS (05_vector R135). -/
def fClass (f : Fmt) (code : Nat) : Nat :=
  match f.decode code with
  | .nan s => if s then 2 ^ 8 else 2 ^ 9
  | .inf n => if n then 1 else 2 ^ 7
  | .fin n m _ _ =>
    if m = 0 then (if n then 2 ^ 3 else 2 ^ 4)
    else if m < 2 ^ f.fbits then (if n then 2 ^ 2 else 2 ^ 5)
    else if n then 2 ^ 1 else 2 ^ 6

/-- The floating type of a VCFG (05_vector R135), none at EW 2, 4 and 8. -/
def floatType (vcfg : BitVec 14) : Option Fmt :=
  match vcfg.toNat % 8 with
  | 3 => some (if vcfg.getLsbD 7 then fmtF16 else fmtBF16)
  | 4 => some fmtF32
  | 5 => some fmtF64
  | _ => none

/-- Conversion between two floating formats (02_numbers R34). -/
def fConvert (src dst : Fmt) (mode : RMode) (sat : Bool) (a : Nat) : Nat × FFlags :=
  let v := src.decode a
  let r := dst.round mode sat v
  (r.1, r.2 ||| v.nv)

/-- The value of the 32-element MX format with a code of major 0x2A (03_encoding R69): 2 mx8a, 3 mx8b, 4 mx6a, 5 mx6b, 6 mx4. -/
def mxFmt : Nat → Fmt
  | 2 => fmtE4M3
  | 3 => fmtE5M2
  | 4 => fmtE2M3
  | 5 => fmtE3M2
  | _ => fmtE2M1

/-- A value times a power of two. -/
def FVal.scale (v : FVal) (k : Int) : FVal :=
  match v with
  | .fin n m e i => .fin n m (e + k) i
  | x => x

end Sys2Proof.Machine
end

