-- ==== Sys2Proof/Machine/Formats.lean ====
section
/-! DEFINITION. Element formats of vectors, streams and tiles: decoding, conversion (02_numbers R34 to R41) and the microscaling
blocks (R42 to R46). -/

namespace Sys2Proof.Machine

/-- An element format: IEEE-like, tapered, a microscaling element, microscaling integers, or an integer. -/
inductive EFmt where
  | flt (f : Fmt)
  | taper (t8 : Bool)
  | mx (f : Fmt)
  | mxi8
  | int (signed : Bool) (bits : Nat)
  deriving DecidableEq, Repr

/-- The width of a format in bits. -/
def EFmt.width : EFmt → Nat
  | .flt f => 1 + f.ebits + f.fbits
  | .taper t8 => if t8 then 8 else 6
  | .mx f => 1 + f.ebits + f.fbits
  | .mxi8 => 8
  | .int _ n => n

/-- Whether a format is a microscaling format (02_numbers R42). -/
def EFmt.isMx : EFmt → Bool
  | .mx _ | .mxi8 => true
  | _ => false

/-- Whether a format holds integers. -/
def EFmt.isInt : EFmt → Bool
  | .int _ _ => true
  | _ => false

/-- The narrow formats by their code (03_encoding R69). -/
def narrowFmt (code : Nat) : EFmt :=
  match code with
  | 0 => .flt fmtE4M3
  | 1 => .flt fmtE5M2
  | 2 => .mx fmtE4M3
  | 3 => .mx fmtE5M2
  | 4 => .mx fmtE2M3
  | 5 => .mx fmtE3M2
  | 6 => .mx fmtE2M1
  | 7 => .mxi8
  | 8 => .taper true
  | 9 => .taper false
  | 10 => .int true 2
  | _ => .int true 4

/-- The wide floating formats .bf16, .f16, .f32 and .f64 in order. -/
def wideFmt (i : Nat) : Fmt :=
  match i with
  | 0 => fmtBF16
  | 1 => fmtF16
  | 2 => fmtF32
  | _ => fmtF64

/-- The formats of a stream by their code (08_stream R200); none for a reserved code. -/
def streamFmt (code : Nat) : Option EFmt :=
  if code ≤ 0xB then some (narrowFmt code)
  else if 0x10 ≤ code ∧ code ≤ 0x13 then some (.int true (8 * 2 ^ (code - 0x10)))
  else if 0x14 ≤ code ∧ code ≤ 0x17 then some (.int false (8 * 2 ^ (code - 0x14)))
  else if 0x18 ≤ code ∧ code ≤ 0x1B then some (.flt (wideFmt (code - 0x18)))
  else none

/-- The destination formats of VFCVT by their type code (03_encoding R67). -/
def cvtFmt (code : Nat) : EFmt :=
  if code ≤ 5 then .int true (2 ^ (code + 1))
  else if code ≤ 9 then .int false (2 ^ (code - 3))
  else .flt (wideFmt (code - 0xC))

/-- Whether a format is one of the narrow codes. Its NaN codes raise no flag when read (06_vector_access R163). -/
def EFmt.isNarrow (f : EFmt) : Bool :=
  match f with
  | .flt g => decide (g.fbits < 4)
  | .taper _ | .mx _ | .mxi8 => true
  | .int s n => s && decide (n < 8)

/-- The value of an element in a format, with the scale byte of its block (02_numbers R42, R44, R46). -/
def EFmt.value (f : EFmt) (bits scale : Nat) (zb : Bool) : FVal :=
  let scaled := fun (v : FVal) =>
    if zb && scale == 0 then .fin false 0 0 false
    else if scale = 0xFF then .nan false
    else match v with
      | .nan _ => .nan false
      | x => x.scale ((scale : Int) - 127)
  match f with
  | .flt g => (match g.decode bits with
      | .nan s => .nan (s && decide (4 ≤ g.fbits))
      | x => x)
  | .taper t8 => taperDecode t8 bits
  | .mx g => scaled (g.decode bits)
  | .mxi8 => scaled ((FVal.ofInt (signedOf 8 bits)).scale (-6))
  | .int s n => FVal.ofInt (if s then signedOf n bits else (bits % 2 ^ n : Nat))

/-- The integer that an element of an integer format is (02_numbers R37). -/
def intValue (signed : Bool) (n bits : Nat) : Int := if signed then signedOf n bits else (bits % 2 ^ n : Nat)

/-- Narrow a value into a format that is not microscaling, with flags (02_numbers R34 to R41; 06_vector_access R164). -/
def EFmt.narrow (f : EFmt) (mode : RMode) (sat : Bool) (v : FVal) : Nat × FFlags :=
  match f with
  | .flt g | .mx g => let r := g.round mode sat v; (r.1, r.2 ||| v.nv)
  | .taper t8 => taperRound t8 mode v
  | .mxi8 => toInteger mode true 8 v
  | .int s n => toInteger mode s n v

/-- Convert an element between formats that are not microscaling (02_numbers R34 to R36; 05_vector R136; 08_stream R219). Among integers SAT clamps where
the destination is not wider; one that is wider extends by the source's kind (DEDUCED, log 89). Where the source is e5m2 and the destination floating,
SAT takes an infinity to the largest number, as R51 has it of any exact result, although R163 delivers it as an infinity (DEDUCED, log 107). -/
def convertElem (src dst : EFmt) (mode : RMode) (sat : Bool) (bits : Nat) : Nat × FFlags :=
  if src = dst then (bits % 2 ^ src.width, 0)
  else
    match src, dst with
    | .int s n, .int s' n' =>
      let x := intValue s n bits
      (intBits n' (if sat && decide (n' ≤ n) then clampInt s' n' x else x), 0)
    | _, _ => dst.narrow mode sat (src.value bits 127 false)

/-- emax of a microscaling format (02_numbers R42). -/
def EFmt.emax : EFmt → Int
  | .mx f => if f.fbits = 3 ∧ f.ebits = 4 then 8 else if f.ebits = 5 then 15 else if f.ebits = 3 then 4 else 2
  | _ => 0

/-- The exponent floor(log2 |x|) of a finite non-zero value. -/
def FVal.exponent : FVal → Option Int
  | .fin _ m e _ => if m = 0 then none else some ((Nat.log2 m : Int) + e)
  | _ => none

/-- Round with saturation into a microscaling element (02_numbers R45). An mxi8 element is n × 2^−6, clamped at −2 (log 16) and
at 1.984375; having no smallest normal number, it is never tiny, and sets no UF (DEDUCED, log 108). -/
def mxRound (f : EFmt) (mode : RMode) (sat : Bool) (y : FVal) : Nat × FFlags :=
  match f with
  | .mxi8 =>
    (match y with
      | .fin n m e i =>
        let r := roundInt mode n m (e + 6) i
        let c := clampInt true 8 r.1
        (intBits 8 c, if c = r.1 then flagIf (!r.2) flagNX else flagOF ||| flagNX)
      | .inf n => (intBits 8 (if n then -128 else 127), flagNX)
      | .nan _ => (0, flagNV))
  | .mx g => (match y with
      | .inf n => if g.infCode.isSome && !sat then (g.withSign n (g.infCode.getD 0), 0) else (g.withSign n g.maxCode, flagNX)
      | v => g.round mode true v)
  | _ => (0, 0)

/-- Encode a block of 32 values (02_numbers R45): its scale byte, its element codes and the flags, with NV for a signalling NaN among them
(R29). -/
def mxEncode (f : EFmt) (mode : RMode) (sat zb : Bool) (xs : List FVal) : Nat × List Nat × FFlags :=
  let isNan := fun (v : FVal) => match v with | .nan _ => true | _ => false
  let isInf := fun (v : FVal) => match v with | .inf _ => true | _ => false
  let infBad := f != .mx fmtE5M2 && !sat && xs.any isInf
  if xs.any isNan || infBad then (0xFF, xs.map fun _ => 0, flagIf (infBad || xs.any fun v => v == .nan true) flagNV)
  else
    let top := xs.foldl (fun (a : Option Int) v => match a, v.exponent with
      | none, t => t
      | t, none => t
      | some p, some q => some (max p q)) none
    let c0 : Int := match top with | none => 127 | some t => t - f.emax + 127
    let big := decide (254 < c0)
    let c : Int := max (if zb then 1 else 0) (min 254 c0)
    let rs := xs.map fun v =>
      let r := mxRound f mode sat (v.scale (127 - c))
      (r.1, if c = 254 then r.2 else r.2 &&& ~~~flagOF)
    let zeroCode := fun (n : Nat) => n % 2 ^ (f.width - 1) == 0 && (f != .mxi8 || n == 0)
    (if zb && rs.all fun r => zeroCode r.1 then 0 else c.toNat, rs.map (·.1),
      rs.foldl (fun a r => a ||| r.2) (flagIf big flagOF))

end Sys2Proof.Machine
end

