-- ==== Sys2Proof/Config.lean ====
section
/-! DEFINITION. What one part fixes, and the values the spec leaves open. The free values are opaque: no proof can learn what
they are, so a statement that mentions one holds for every value (log 7). -/

namespace Sys2Proof.Config

/-- A value that the spec leaves open, for each number of State.free (log 7). -/
opaque freeValue : Nat → BitVec 64

/-- Words of the readback aperture of unit classes whose layout the spec leaves open (21_device R438; log 57): for a class, the state that the unit
holds, as numbers, and an offset in words. -/
opaque readbackWord : Nat → List Nat → Nat → BitVec 64

/-- DATA of a captured dispatch (21_device R441; log 58): for what the entry dispatches, as numbers, each of its six words. -/
opaque replayIdentity : List Nat → Nat → BitVec 64

/-- DETAIL of an unresolved recheck (19_shroud R415, R419): how it shows the lane groups that took part (log 33). -/
opaque recheckDetail : List Nat → BitVec 64

/-- The CRC-64 of a flit (20_link R427): for its bytes 0x00 to 0xF7 (log 8). -/
opaque flitCrc : List (BitVec 8) → BitVec 64

/-- The hash by which PA[13:8] selects a Muaris link among the usable ones of a routing mask (20_link R430; log 8). -/
opaque linkHash : Nat → Nat

/-- Sequencer slots of the package, eight for each core (01_anatomy R20). -/
def slots : Nat := 8192

/-- Cores of the package (01_anatomy R20). -/
def cores : Nat := 1024

/-- Bytes of HBM, twelve stacks of 64 GiB (01_anatomy R14, R22). DESIGN CHOICE (log 3): they lie from physical address 0. -/
def hbmBytes : Nat := 768 * 2 ^ 30

/-- Bytes of one HBM stack (01_anatomy R14). DESIGN CHOICE (log 3): stack h lies at h times this. -/
def stackBytes : Nat := 64 * 2 ^ 30

/-- The largest CXL range, 8 TiB (01_anatomy R22). DESIGN CHOICE (log 3): it lies directly above HBM. -/
def cxlMax : Nat := 8 * 2 ^ 40

/-- Where the memory key space of the scratchpads begins: above every 52-bit physical address (11_page R280). -/
def padKey : Nat := 2 ^ 52

/-- Bytes of one scratchpad (01_anatomy R16). -/
def padBytes : Nat := 2 ^ 20

/-- The scratchpad window of a cluster, 64 scratchpads (01_anatomy R15). -/
def windowBytes : Nat := 64 * 2 ^ 20

end Sys2Proof.Config
end

