-- ==== Sys2Proof/Machine/Memory.lean ====
section
/-! DEFINITION. The bytes of memory: a list of cells at strictly rising addresses, none of them zero, since a byte that no
cell lists reads as zero (log 2). Scratchpad bytes have addresses above the physical ones (Config.padKey). -/

namespace Sys2Proof.Machine

/-- The canonical form: addresses strictly rise from above lo and no listed byte is zero. -/
def cellsFrom : Nat → List Host.Cell → Bool
  | _, [] => true
  | lo, (a, v) :: m => decide (lo ≤ a) && v != 0 && cellsFrom (a + 1) m

/-- Memory is in canonical form. -/
abbrev Memory.wf (m : List Host.Cell) : Prop := cellsFrom 0 m = true

/-- The byte at an address (00_scope R3). -/
def readByte : List Host.Cell → Nat → Byte
  | [], _ => 0
  | (a', v) :: m, a => if a' = a then v else if a < a' then 0 else readByte m a

/-- The cells of a block of bytes from address a, zero bytes left out. -/
def blockCells : Nat → List Byte → List Host.Cell
  | _, [] => []
  | a, b :: bs => if b = 0 then blockCells (a + 1) bs else (a, b) :: blockCells (a + 1) bs

/-- The cells at and above an address. -/
def cellsAbove (a : Nat) : List Host.Cell → List Host.Cell
  | [] => []
  | (a', v) :: m => if a' < a then cellsAbove a m else (a', v) :: m

/-- Memory with a block of bytes written from address a. -/
def writeBytes (a : Nat) (bs : List Byte) : List Host.Cell → List Host.Cell
  | [] => blockCells a bs
  | (a', v) :: m =>
    if a' < a then (a', v) :: writeBytes a bs m
    else blockCells a bs ++ cellsAbove (a + bs.length) ((a', v) :: m)

/-- The n bytes from address a. -/
def readBytes (m : List Host.Cell) : Nat → Nat → List Byte
  | _, 0 => []
  | a, n + 1 => readByte m a :: readBytes m (a + 1) n

/-- The number that bytes hold, lowest address first (00_scope R3). -/
def leNat : List Byte → Nat
  | [] => 0
  | b :: bs => b.toNat + 256 * leNat bs

/-- The n low bytes of a number, lowest first (00_scope R3). -/
def leBytes : Nat → Nat → List Byte
  | 0, _ => []
  | n + 1, x => BitVec.ofNat 8 x :: leBytes n (x / 256)

/-- The little-endian number of n bytes at address a (00_scope R3). -/
def readLE (m : List Host.Cell) (a n : Nat) : Nat := leNat (readBytes m a n)

/-- The 8-byte word at address a. -/
def readWord (m : List Host.Cell) (a : Nat) : Word := BitVec.ofNat 64 (readLE m a 8)

/-- Memory with the n low bytes of x written little-endian at address a. -/
def writeLE (m : List Host.Cell) (a n x : Nat) : List Host.Cell := writeBytes a (leBytes n x) m

end Sys2Proof.Machine
end

