-- ==== Sys2Proof/Machine/State.lean ====
section
/-! DEFINITION. The state of one Hedan package as plain data: slots, cores, clusters, memory, and every table the spec gives the
device. A table lists only what differs from its reset value. -/

namespace Sys2Proof.Machine

/-- Why the machine stops. The Hedan has no such reason: no error stops the device (00_scope R1; 19_shroud R404 to R413), an
access that may not proceed traps, and a fault of a unit ends only the contexts it concerns. So the type has no value. -/
inductive Fault where
  deriving DecidableEq, Repr

/-- Why a step has no meaning. -/
inductive Refusal where
  /-- Raised by exec for an instruction that has no meaning yet, by its mnemonic. Safe: nothing can be proved of what it does. -/
  | notModelled (mnemonic : String)
  /-- Raised by step when the agenda names an instruction word as a move of a unit. Safe: no unit of the device makes such a
  move, so no behaviour of the device is left out. -/
  | wordIsNoUnitMove
  deriving DecidableEq, Repr

/-- Privilege levels (10_context R250). -/
inductive Level where
  | user
  | supervisor
  | firmware
  deriving DecidableEq, Repr

/-- The modes of a running slot (10_context R251). -/
inductive Mode where
  | context
  | handler
  deriving DecidableEq, Repr

/-- What a scalar register waits for (04_sequencer R81; 10_context R256). -/
inductive Pend where
  /-- the register is not pending -/
  | ready
  /-- an entry of the vector or tile queue will write it -/
  | queue
  /-- an engine command in flight will write it -/
  | engine
  deriving DecidableEq, Repr

/-- A scalar register: its value, its poison (04_sequencer R87) and its pending mark (R81). -/
structure SReg where
  val : Word
  poison : Option PTag
  pend : Pend
  deriving DecidableEq, Repr

/-- A loop-stack entry: the words P, START and COUNT (04_sequencer R100). -/
structure LoopEntry where
  p : Word
  start : Word
  count : Word
  deriving DecidableEq, Repr

/-- Why a slot stalls (04_sequencer R80, R81, R82, R109, R111). -/
inductive Stall where
  /-- a register that the instruction names is pending (R81) -/
  | register (r : Nat)
  /-- the vector queue holds 32 entries (R82) -/
  | vectorQueueFull
  /-- the core's tile queue holds 16 entries (07_tile R172) -/
  | tileQueueFull
  /-- a counter would pass 255 (R108) -/
  | counterFull
  /-- the core's copy port holds 128 copies (R109) -/
  | copyPortFull
  /-- VL is pending (06_vector_access R157) -/
  | vlPending
  /-- the slot's vector queue is not empty (05_vector R123) -/
  | vectorBusy
  /-- the slot has tile operations outstanding (07_tile R167, R168) -/
  | tilesBusy
  /-- the counts of WAIT are not met (R111) -/
  | counts (loads stores copies tiles : Nat)
  /-- an earlier access of the slot has not been performed (09_guard R242, R243) -/
  | accesses
  /-- an earlier vector or tile access has not been performed (09_guard R233) -/
  | vectorAccesses
  /-- the instruction looks again at memory or at other agents each time it is tried (barriers, joins, migrating pages) -/
  | retry
  /-- its context has ended its leaf group, and counted operations still stand in its queues (13_group R320) -/
  | draining
  deriving DecidableEq, Repr

/-- The states of a sequencer slot (04_sequencer R80). -/
inductive SlotState where
  | free
  | run
  | stall (why : Stall)
  deriving DecidableEq, Repr

/-- UISTAT (04_sequencer R112). -/
structure UiStat where
  pcopy : Bool
  preef : Bool
  cause : Byte
  act : Bool
  en : Bool
  deriving DecidableEq, Repr

/-- The outstanding-operation counters (04_sequencer R109), each at most 255. -/
structure Counters where
  loads : Nat
  stores : Nat
  copies : Nat
  tiles : Nat
  deriving DecidableEq, Repr

/-- What a vector-queue entry is (10_context R255). -/
inductive VKind where
  | instr
  | marker
  | fenceVV
  deriving DecidableEq, Repr

/-- A translation that an access holds from its Probe until it has completed or stopped (06_vector_access R151): the TLB
slice it went through, the address of the page, its bytes, the key of its first byte, and the tag of a POISONED page. -/
structure HeldPage where
  slice : Nat
  va : Nat
  bytes : Nat
  key : Nat
  poison : Option PTag
  deriving DecidableEq, Repr

/-- A Probe that an access has passed (06_vector_access R149, R151): the pages it found, and, where a write found one of them MIGRATING, the ranges of bytes that wait (11_page R292). -/
structure Probed where
  pages : List HeldPage
  waits : List (Nat × Nat)
  /-- of poisoned granules that a store has written in part (06_vector_access R160): the bits that it wrote, in order, each run with its first bit in key
  space, its width and whether what was written is unpoisoned; and those granules' tags after the store's last write -/
  wrote : List (Nat × Nat × Bool) := []
  seen : List (Nat × Option PTag) := []
  deriving DecidableEq, Repr

/-- A vector-queue entry (05_vector R120; 10_context R255; 04_sequencer R82): the captured program counter, word, progress index,
VL, VCFG and scalar operands with their poison. -/
structure VEntry where
  pc : Word
  word : Nat
  p : Nat
  vl : Nat
  vcfg : BitVec 14
  kind : VKind
  op0 : Word
  op1 : Word
  poison0 : Option PTag
  poison1 : Option PTag
  /-- what the Probe of an access has found, once it has passed (06_vector_access R149, R151) -/
  probed : Option Probed
  /-- the barrier phase a BARA marker joined (15_barrier R346) -/
  joined : Option Word
  /-- Load brought it from an image (10_context R266) -/
  restored : Bool
  /-- its place in program order (09_guard R227), and the progress index with which the scalar side passed it on -/
  ord : Nat
  began : Nat
  deriving DecidableEq, Repr

/-- A tile-queue entry of a core (07_tile R172; 10_context R255). -/
structure TEntry where
  /-- the slot that passed it on -/
  slot : Nat
  pc : Word
  word : Nat
  seq : BitVec 32
  /-- the next step -/
  kp : Nat
  frm : BitVec 2
  reefTh : BitVec 6
  reefTrap : Bool
  accRow : BitVec 7
  desc : Word
  opk : Word
  poison : Option PTag
  /-- the captured SHTAG -/
  tag : STag
  /-- for a gang member's part, the issuing core (07_tile R187) -/
  gangOf : Option Nat
  /-- a reef of this entry made cause 0x13 pending (00_scope R11) -/
  reefed : Bool
  /-- its place in program order (09_guard R227), and the register it writes, remembered with its bank; 0 for none (04_sequencer
  R81, R112) -/
  ord : Nat
  dest : Nat
  /-- the ranges of bytes of a TST whose Probe has found a MIGRATING page (11_page R292) -/
  waits : List (Nat × Nat)
  deriving DecidableEq, Repr

/-- Where the context that an operation in flight belongs to stands (10_context R256): in a slot, in the image at a key, or
nowhere, when the operation outlives its context; an ended context of a leaf group holds its group back (13_group R312), and where it
ended in its image, that image's counts still go down (12_kernel R305). -/
inductive Home where
  | slot (q : Nat)
  | image (key : Nat)
  | ended (kernel index : Nat) (image : Option Nat)
  | gone
  deriving DecidableEq, Repr

/-- A scalar store or release that the scalar side has passed on and that is not yet performed (04_sequencer R89, R109). -/
structure PendAcc where
  /-- the slot that issued it -/
  slot : Nat
  /-- the context it belongs to (10_context R256) -/
  home : Home
  va : Word
  /-- where it performs: the key of its first byte -/
  key : Nat
  /-- the page was MIGRATING when it was probed: it waits and is translated afresh (11_page R292) -/
  waiting : Bool
  bytes : List Byte
  poison : Option PTag
  /-- REL: add one to the 8 bytes instead of writing bytes (09_guard R241) -/
  increment : Bool
  /-- a release: performed after every earlier access (09_guard R242) -/
  release : Bool
  asid : BitVec 12
  level : Level
  tag : STag
  /-- its instruction, and its place in program order (09_guard R227) -/
  pc : Word
  ord : Nat
  deriving DecidableEq, Repr

/-- A trap report: the contents of the trap registers (10_context R260, R270). -/
structure Report where
  cause : Nat
  pc : Word
  addr : Word
  aux : Word
  queue : Bool
  frlost : Bool
  deriving DecidableEq, Repr

/-- A pre-emption request (10_context R264, R265). -/
structure Request where
  prio : BitVec 4
  fromCtxsv : Bool
  issuer : Nat
  deriving DecidableEq, Repr

/-- What a context works for (12_kernel R304; 14_queue R337). -/
inductive Work where
  /-- a context that CTXLD or FWLAUNCH brought, for no task and no kernel -/
  | none
  /-- a task of a queue, by its position in queue order -/
  | task (queue : Nat) (pos : Nat)
  /-- a leaf group of a kernel, by its linear index -/
  | leaf (kernel : Nat) (index : Nat)
  deriving DecidableEq, Repr

/-- The source that a pool entry or a running context charges (14_queue R334). -/
inductive Source where
  | queue (n : Nat)
  | kernel (k : Nat)
  /-- a context of no queue and no kernel, by its number -/
  | own (ctx : Nat)
  deriving DecidableEq, Repr

/-- What a parent keeps of a VFORK child until it joins it (13_group R314, R315). -/
structure Child where
  /-- the slot that VFORK returned -/
  slot : Nat
  ended : Bool
  /-- its parent has joined it and waits for the lane groups between (R18) -/
  joined : Bool
  fflags : BitVec 5
  laneBase : Nat
  laneCount : Nat
  /-- its CSA index, held until the join -/
  csa : Nat
  /-- element width, grouping code, and the VLENs of the issuer before, of the issuer after and of the child -/
  w : Nat
  g : Nat
  vOld : Nat
  vIssuer : Nat
  vChild : Nat
  deriving DecidableEq, Repr

/-- What the device knows of a context beside its registers; it moves with the context between slot and image. -/
structure Ctx where
  /-- a number of its own -/
  id : Nat
  work : Work
  /-- the context that forked it, and whether by EFORK (13_group R314, R317) -/
  parent : Option Nat
  sibling : Bool
  children : List Child
  /-- EFORK siblings not yet arrived at ERDV, and the flags of those that have (13_group R317, R318) -/
  siblings : Nat
  sibFlags : BitVec 5
  /-- its CSA index in the pool of its queue or kernel -/
  csa : Option Nat
  /-- its leaf group is ending (13_group R312): it ends at its next landing point -/
  ending : Bool
  /-- the queue or kernel whose share it charges -/
  source : Source
  /-- the weight with which its work was taken (14_queue R324, R335) -/
  weight : Nat
  /-- a member of an admitted gang (13_group R311) -/
  gang : Bool
  /-- the place in program order of its last FENCE.SV, after which its engine commands follow the vector accesses before it (09_guard R247) -/
  fence : Nat := 0
  deriving DecidableEq, Repr

/-- A sequencer slot (01_anatomy R17; 04_sequencer; 05_vector; 10_context). -/
structure Slot where
  st : SlotState
  mode : Mode
  level : Level
  pc : Word
  /-- the address that a fetch fault reports: of the preceding or transferring instruction; none before the first instruction of a
  run and at a handler's entry (04_sequencer R99) -/
  prev : Option Word
  /-- the boundary the slot stands at is a landing point inside a loop (10_context R264) -/
  land : Bool
  /-- s1 to s63, with bank 0 of s56 to s61 -/
  regs : Tab SReg
  /-- bank 1 of s56 to s61 (04_sequencer R112) -/
  bank1 : Tab SReg
  /-- the loop stack, newest entry first (04_sequencer R100) -/
  loops : List LoopEntry
  fflags : BitVec 5
  frm : BitVec 2
  vl : Nat
  vcfg : BitVec 14
  vstart : Nat
  vlcap : Nat
  vdirty : BitVec 6
  vowner : Word
  vuse : Bool
  uivec : Word
  uiepc : Word
  uistat : UiStat
  cnt : Counters
  accBase : BitVec 7
  accLim : BitVec 8
  reefTh : BitVec 6
  reefTrap : Bool
  trapCause : Byte
  trapNested : Bool
  trapQueue : Bool
  trapFrlost : Bool
  trapPc : Word
  trapAddr : Word
  trapAux : Word
  faultRec : Word
  asid : BitVec 12
  shtag : STag
  prio : BitVec 4
  csaBase : Word
  /-- in a handler, the tag of the context that it serves (10_context R262, R274) -/
  servedTag : STag
  rechk : Bool
  /-- the vector queue, oldest first -/
  vq : List VEntry
  /-- lane groups owned: the first and their number (01_anatomy R18) -/
  laneBase : Nat
  laneCount : Nat
  /-- a trap raised by a queue entry, or a landing, that the first-stage save is to take (10_context R261) -/
  due : Option Report
  /-- the place in program order of the entry that raised it: older entries complete first (10_context R261) -/
  dueOrd : Nat
  /-- the pending or latched pre-emption request (10_context R264, R265) -/
  request : Option Request
  ctx : Ctx
  /-- the running priority, the order of its dispatch, and its charge (14_queue R335, R338) -/
  runPrio : Nat
  order : Nat
  charge : Nat
  deriving DecidableEq, Repr

/-- The states of a stream port (08_stream R202). -/
inductive PortState where
  | closed
  | opened
  | bound
  | ended
  deriving DecidableEq, Repr

/-- A stream element that a port has fetched and not delivered (08_stream R206): its bits in the form of FMT, its poison, and
for a matrix operand the scale byte of its block and the poison of the scale line (02_numbers R46, R47). -/
structure Element where
  bits : Word
  poison : Option PTag
  scale : Nat
  deriving DecidableEq, Repr

/-- How far a stream has been read (08_stream R209 to R213): its elements so far, its places in two lists, and the last keys read
from them. -/
structure StreamCur where
  n : Nat
  a : Nat
  b : Nat
  ka : Option Nat
  kb : Option Nat
  deriving DecidableEq, Repr

/-- A stream port of a core (08_stream R202, R203, R207). -/
structure Port where
  st : PortState
  owner : Nat
  /-- the eight words of the captured specification -/
  spec : List Word
  /-- elements delivered -/
  pos : Nat
  status : Nat
  /-- the list a MERGE stream stopped in -/
  list : Bool
  /-- the bound register group and its grouping code -/
  bindReg : Nat
  bindG : Nat
  /-- elements fetched and not delivered, oldest first -/
  fifo : List Element
  /-- the stream has no further element: it has ended, or stopped with this status and this offending list -/
  stop : Option (Nat × Bool)
  /-- scope, and whether the acquire of SOPEN is still to be performed (08_stream R218) -/
  scope : BitVec 3
  acquire : Bool
  /-- elements to fetch again and discard after a restore (08_stream R203), the mesh generation of a NEIGH stream (16_mesh R373), and the tokens a BUCKET
  stream has read and not yet turned into elements (18_bucket R401) -/
  skip : Nat
  gen : Nat
  toks : List Nat
  cur : StreamCur
  /-- its place in program order (09_guard R227) -/
  op : Nat
  /-- the registers of SSTATs that wait for earlier deliveries, remembered with their bank, and the places of those SSTATs in program order
  (08_stream R204) -/
  stats : List (Nat × Nat)
  deriving DecidableEq, Repr

/-- Where a copy in flight stands (08_stream R214 to R218). -/
inductive CopyPhase where
  /-- the acquire and the first Probe are still to be made -/
  | start
  /-- elements are moving -/
  | moving
  /-- no further element moves; completion with this status is due -/
  | done (status : Nat)
  deriving DecidableEq, Repr

/-- Which kind of transfer a copy is (08_stream R215). -/
inductive CopyKind where
  | cpy
  | cpys
  | cpypf
  deriving DecidableEq, Repr

/-- A copy in flight (08_stream R215 to R220). -/
structure Copy where
  kind : CopyKind
  phase : CopyPhase
  /-- the captured specification; for CPYPF its base and length -/
  spec : List Word
  specAddr : Word
  home : Home
  /-- the issuing slot, and the register that receives the completion word -/
  slot : Nat
  dest : Nat
  /-- the queue task that issued it instead (14_queue R333) -/
  task : Option (Nat × Nat)
  core : Nat
  engine : Nat
  asid : BitVec 12
  level : Level
  tag : STag
  pc : Word
  a : Bool
  r : Bool
  scope : BitVec 3
  frm : BitVec 2
  /-- elements completed; for CPYPF the bytes treated -/
  count : Nat
  cur : StreamCur
  fflags : BitVec 5
  deriving DecidableEq, Repr

/-- A migration in flight (11_page R291). -/
structure Migration where
  asid : BitVec 12
  va : Word
  dest : Nat
  /-- where the leaf stands, its value before, and the value the device left there -/
  leafAt : Nat
  leaf0 : Word
  leaf1 : Word
  size : Nat
  /-- the number of the PGMIG command or the prefetch that runs it, and whether it is a prefetch (11_page R290, R295) -/
  owner : Nat
  prefetch : Bool
  deriving DecidableEq, Repr

/-- What an engine command is (11_page R290; 16_mesh R364; 17_partition R376; 18_bucket R403), by its op of major 0x33. -/
inductive CmdKind where
  | pgmig
  | unit (op : Nat)
  deriving DecidableEq, Repr

/-- An engine command in flight (16_mesh R364; 11_page R290). -/
structure Cmd where
  kind : CmdKind
  /-- the descriptor's address and the words captured from it -/
  descAddr : Word
  desc : List Word
  home : Home
  slot : Nat
  dest : Nat
  task : Option (Nat × Nat)
  die : Nat
  cluster : Nat
  asid : BitVec 12
  level : Level
  tag : STag
  pc : Word
  a : Bool
  r : Bool
  scope : BitVec 3
  /-- the unit has taken it and holds its objects -/
  running : Bool
  /-- the key of the descriptor whose STATE it has set to BUSY, with the state before (16_mesh R363) -/
  claim : Option (Nat × Nat)
  /-- mesh generation that it read at its start (17_partition R377, R382) -/
  gen : Nat
  /-- the unit that performs it, as its status word reports (16_mesh R366) -/
  engine : Nat
  /-- it has run, with this status and COUNT, and waits for what its release covers (09_guard R247) -/
  ended : Option (Nat × Nat)
  deriving DecidableEq, Repr

/-- A context that rests in its image: PARKED, or READY with a resume entry in a pool (10_context R252). -/
structure Image where
  csa : Word
  asid : BitVec 12
  /-- the key of its CSA -/
  key : Nat
  tag : STag
  parked : Bool
  ctx : Ctx
  /-- the slot it left, the lane groups it had there, and whether they are held for it (13_group R316) -/
  slot : Nat
  laneBase : Nat
  laneCount : Nat
  held : Bool
  accBase : BitVec 7
  accLim : BitVec 8
  deriving DecidableEq, Repr

/-- What the device still knows of a queue entry that a first-stage save has written to an image, beside its record (10_context
R255): its place in program order, the progress index it was passed on with, whether it is an access or an arrival marker still
to be performed, the register it writes, whether a reef of it made cause 0x13 pending, and the sequence numbers of the parts of a
TMMAG on the other members of its gang (log 83). -/
structure SavedEntry where
  ord : Nat
  began : Nat
  access : Bool
  dest : Nat
  reefed : Bool
  parts : List (BitVec 32)
  deriving DecidableEq, Repr

/-- What the device still knows of a saved port beside its record (10_context R255): its number, scope, whether its acquire is
still to be performed, and the mesh generation of a NEIGH stream (log 83). -/
structure SavedPort where
  port : Nat
  scope : BitVec 3
  acquire : Bool
  gen : Nat
  deriving DecidableEq, Repr

/-- What the device still knows of the vector queue, the tile-queue entries and the ports that a first-stage save has written to an
image (log 83). -/
structure Saved where
  vq : List SavedEntry
  tq : List SavedEntry
  ports : List SavedPort
  deriving DecidableEq, Repr

/-- What a ready-pool entry dispatches (14_queue R334). -/
inductive EntryKind where
  /-- a worker of an eligible task -/
  | task (queue : Nat) (pos : Nat)
  | leaf (kernel : Nat) (index : Nat)
  /-- the image of a switched-out context -/
  | resume (csa : Word) (asid : BitVec 12)
  /-- a continuation (15_barrier R355): its work, ENTRY, the future's value with its poison, ARG and the future's address -/
  | cont (work : Work) (entry value : Word) (poison : Option PTag) (arg fut : Word)
  /-- an EFORK sibling (13_group R317): the issuer's context, the entry address and the slot state it starts in -/
  | sibling (parent : Nat) (entry : Word) (slot : Nat)
  deriving DecidableEq, Repr

/-- A ready-pool entry (14_queue R334, R336). -/
structure PoolEntry where
  die : Nat
  kind : EntryKind
  prio : Nat
  source : Source
  weight : Nat
  tag : STag
  /-- the core or slot it is bound to (13_group R309, R316) -/
  core : Option Nat
  slot : Option Nat
  /-- the registers an EFORK sibling starts with (13_group R317) -/
  start : List SReg
  /-- switched out at a barrier (15_barrier R350) -/
  blocked : Bool
  deriving DecidableEq, Repr

/-- A source in the round of a die and a priority (14_queue R335): its deficit, whether the round stands at it, and whether its visit there is
still to come, since the source before it has left. -/
structure Share where
  die : Nat
  prio : Nat
  source : Source
  deficit : Int
  cur : Bool
  fresh : Bool
  deriving DecidableEq, Repr

/-- Where a taken task stands (14_queue R331, R333). -/
inductive TaskState where
  | waiting
  /-- eligible and in the pool, or running: workers still to dispatch, and workers still to end -/
  | active (toStart toEnd : Nat)
  deriving DecidableEq, Repr

/-- A task taken and not complete (14_queue R327, R330). -/
structure Task where
  queue : Nat
  pos : Nat
  /-- the eight words of its record -/
  words : List Word
  npred : Nat
  st : TaskState
  /-- from the queue's table entry and descriptor when it was taken -/
  asid : BitVec 12
  tag : STag
  prio : Nat
  weight : Nat
  die : Nat
  deriving DecidableEq, Repr

/-- What the queue unit keeps of a queue (14_queue R324, R325, R331). -/
structure Queue where
  notified : Nat
  /-- the position after the last one taken (R330, R331) -/
  taken : Nat
  /-- successor decrements held for positions not yet taken -/
  heldDec : List Nat
  /-- a failure was counted and recorded, and no take has succeeded since (R324) -/
  failed : Bool
  /-- the queue waits for a doorbell, a push or a completion before it tries again (R324) -/
  waits : Bool
  /-- CSA indexes in use -/
  csas : List Nat
  deriving DecidableEq, Repr

/-- The states of a kernel (12_kernel R303); COMPLETE and ABORTED kernels are no longer held. -/
inductive KernelState where
  | pending
  | running
  | draining
  | aborting
  deriving DecidableEq, Repr

/-- Where a leaf group stands (13_group R312). -/
inductive LeafState where
  | waiting
  | running
  | ending
  deriving DecidableEq, Repr

/-- What an ended context of an ENDING leaf group still holds until the group has ended (13_group R312): its slot, unless that was
given up before, lane groups of a core, and accumulator rows. -/
structure Kept where
  slot : Option Nat
  core : Nat
  laneBase : Nat
  laneCount : Nat
  accBase : Nat
  accRows : Nat
  deriving DecidableEq, Repr

/-- A leaf group that has been created and has not ended (12_kernel R304; 13_group R309). -/
structure Leaf where
  index : Nat
  core : Nat
  st : LeafState
  /-- CSA indexes it holds: its own first, then those of its forks -/
  csas : List Nat
  gang : Bool
  kept : List Kept
  deriving DecidableEq, Repr

/-- A live kernel (12_kernel R303). -/
structure Kernel where
  /-- the address and the 32 words of the captured record -/
  recAddr : Word
  words : List Word
  st : KernelState
  cursor : Nat
  /-- the kernel whose leaf group launched it, and that leaf's linear index -/
  parent : Option (Nat × Nat)
  /-- that parent has ended, and its identifier may name another kernel now (R303) -/
  orphaned : Bool
  depth : Nat
  /-- the cores it is confined to: the first and their number (12_kernel R302) -/
  cores : Nat × Nat
  asid : BitVec 12
  tag : STag
  leaves : List Leaf
  /-- the instance each group is bound to, by level and linear index at that level (13_group R309) -/
  bindings : List (Nat × Nat × Nat)
  deriving DecidableEq, Repr

/-- A continuation walk in progress (15_barrier R354). -/
structure Walker where
  /-- the next record's address; 0 ends the walk -/
  next : Word
  asid : BitVec 12
  level : Level
  tag : STag
  cluster : Nat
  value : Word
  poison : Option PTag
  fut : Word
  /-- a device fill that still waits for a MIGRATING page (11_page R292), and the task whose completion waits for it (14_queue R333) -/
  fills : Bool
  task : Option (Nat × Nat)
  deriving DecidableEq, Repr

/-- A 64-bit chunk of a vector or mask register, with its poison: the tag, and the bits that have not received an unpoisoned
value since (05_vector R127). -/
structure VChunk where
  bits : Word
  poison : Option (PTag × Word)
  deriving DecidableEq, Repr

/-- An accumulator cell (02_numbers R52). A poisoned cell of FP64 mode keeps its tag beside it (07_tile R181). -/
structure AccCell where
  bits : Word
  side : Option PTag
  deriving DecidableEq, Repr

/-- The status word of a 32-cell segment (02_numbers R53). -/
structure SegStatus where
  reefCnt : Nat
  empty : Bool
  hr : Nat
  exp : Int
  deriving DecidableEq, Repr

/-- An entry of the reef log (07_tile R183): the segment, the shift, the sequence number and the issuer's tag. -/
structure ReefEntry where
  word : Word
  tag : STag
  deriving DecidableEq, Repr

/-- An entry of a core's recheck queue (19_shroud R418): a vector instruction executed once and not retired. Its flags and its
scalar result wait; undo holds the chunks as they were before it. -/
structure Recheck where
  slot : Nat
  /-- the place in program order of its instruction (09_guard R227), and where it stands -/
  ord : Nat
  pc : Word
  laneBase : Nat
  laneCount : Nat
  flags : BitVec 5
  dest : Option (Nat × SReg)
  undo : List (Nat × VChunk)
  /-- it has waited 256 cycles -/
  aged : Bool
  deriving DecidableEq, Repr

/-- A core (01_anatomy R16). -/
structure Core where
  /-- vector and mask chunks, by lane group, register and place (State.vecKey) -/
  vec : Tab VChunk
  /-- suspect scores of the physical lane groups (19_shroud R417) -/
  score : Tab Nat
  /-- quarantined physical lane groups (19_shroud R419) -/
  quarantined : List Nat
  /-- quarantined lane groups that the core still maps (19_shroud R420) -/
  remapDue : Bool
  /-- slots that are still to execute ERET, IDLE or CTXLD before the remap (19_shroud R420), each with the number of its context then -/
  remapWait : List (Nat × Nat)
  /-- the physical groups that the core presents, in order (19_shroud R420) -/
  laneMap : List Nat
  /-- the tag of the context that each lane group was last given to (12_kernel R304) -/
  laneTag : Tab STag
  /-- lane groups (0 to 7) and accumulator rows (8 and up) whose unlisted contents are free values, from a number on (R304) -/
  fresh : Tab Nat
  acc : Tab AccCell
  seg : Tab SegStatus
  rowTag : Tab STag
  tq : List TEntry
  seq : BitVec 32
  /-- the valid entries of the reef log, by index (07_tile R183) -/
  reefLog : Tab ReefEntry
  /-- the reefs logged so far: HEAD is their number modulo 64 -/
  reefs : Nat
  /-- tags whose entries were overwritten -/
  reefOvf : List STag
  ports : Tab Port
  rechecks : List Recheck
  deriving DecidableEq, Repr

/-- A cached translation (11_page R288). -/
structure TlbEntry where
  slice : Nat
  asid : BitVec 12
  /-- the virtual address of the page -/
  page : Nat
  /-- its size code (06_vector_access R156) -/
  size : Nat
  leaf : Word
  tag : STag
  /-- where the leaf stands in memory, for the compare-and-swap of D and for the device's own changes (R285, R289) -/
  place : Nat
  deriving DecidableEq, Repr

/-- A region entry (09_guard R235, R236). -/
structure Region where
  base : Word
  len : Word
  guard : Word
  tag : STag
  deriving DecidableEq, Repr

/-- An error record (19_shroud R415). -/
structure ErrRec where
  hdr : Word
  time : Word
  unit : Word
  addr : Word
  victim : Word
  slot : Word
  pc : Word
  detail : Word
  deriving DecidableEq, Repr

/-- Whose access is checked (00_scope R13; 11_page R284, R288; 08_stream R225): the TLB slice it goes through, its address
space, privilege level, shroud tag and cluster. -/
structure Agent where
  slice : Nat
  asid : BitVec 12
  level : Level
  tag : STag
  cluster : Nat
  /-- the address of the instruction that it serves, where that is not the slot's present one (19_shroud R415) -/
  pc : Option Word := none
  deriving DecidableEq, Repr

/-- The kinds of access that R284 tells apart: update reads and writes (AMO, REL, VSTXADD). -/
inductive Access where
  | read
  | write
  | update
  | fetch
  deriving DecidableEq, Repr

/-- What a check of one address finds when it passes: the key of the byte, the leaf's STATE (0 for the scratchpad window), the
tag of a POISONED page, and the page with its size code. -/
structure Hit where
  key : Nat
  state : Nat
  poison : Option PTag
  page : Nat
  size : Nat
  deriving DecidableEq, Repr

/-- What a check of one address finds when it fails: the page R13 reports, its size code, and WHY (06_vector_access R156). -/
structure Miss where
  page : Nat
  size : Nat
  why : Nat
  deriving DecidableEq, Repr

/-- Where a page-table walk ends (11_page R280 to R283): nowhere, with a mark for a malformed or poisoned entry, or at a leaf of
a level, whose entry stands at a physical address. -/
inductive WalkEnd where
  | unmapped (malformed : Bool)
  | leaf (level : Nat) (entryAt : Nat) (entry : Word)
  deriving DecidableEq, Repr

/-- Why a queue cannot be used (14_queue R324). -/
inductive QueueFail where
  /-- its table entry is invalid (R323) -/
  | noEntry
  /-- its descriptor or an entry cannot be read: the failing page -/
  | unreadable (m : Miss)
  /-- its descriptor breaks the table of R324, or is poisoned -/
  | broken
  deriving DecidableEq, Repr

/-- A cell of a mesh (16_mesh R357): its root, in exchange order, and the child numbers that lead to it from there. -/
structure Cell where
  root : Nat
  path : List Nat
  deriving DecidableEq, Repr

/-- A mesh that a topology engine holds (16_mesh R357 to R363), by the key of its descriptor. The contents of the topology store
are the engine's own. -/
structure Mesh where
  dim : Nat
  /-- vertex coordinates, DIM encodings for each vertex in turn -/
  coords : List Word
  /-- the vertex numbers of each root, in exchange order -/
  roots : List (List Nat)
  /-- the leaves in curve order: a leaf's index is its place (R358) -/
  leaves : List Cell
  /-- the tag of the issuer of its MIMPORT (R366) -/
  tag : STag
  /-- remap tasks of the current generation that are not complete, by queue and position (R363) -/
  pending : List (Nat × Nat)
  deriving DecidableEq, Repr

/-- A command that has committed a mesh and still pushes its remap tasks (16_mesh R371): the mesh's key, the next field, and the status and
COUNT that it will report. -/
structure RemapPush where
  mesh : Nat
  field : Nat
  status : Nat
  count : Nat
  deriving DecidableEq, Repr

/-- A LOADED projection slot of a KBU (18_bucket R387). -/
structure Proj where
  d : Nat
  b : Nat
  ktype : Nat
  signs : List Byte
  tag : STag
  deriving DecidableEq, Repr

/-- A KST that has claimed its token and not yet published its link (18_bucket R395, R397). -/
structure KLink where
  table : Word
  agent : Agent
  /-- the key of the table descriptor -/
  key : Nat
  head : Nat
  token : Nat
  bucket : Nat
  slot : Nat
  dest : Nat
  /-- its place in program order (09_guard R227) -/
  ord : Nat
  /-- the row it writes, as its address and bytes with their poison, the pages that its Probe found, and whether one of them was MIGRATING
  (11_page R292) -/
  row : Nat
  bytes : List Byte
  poison : List (Option PTag)
  pages : List HeldPage
  waiting : Bool
  /-- the signature bits of its table (18_bucket R389, R395) -/
  bits : Nat
  /-- its KST has finished, its link inserted and published; until the entry goes, a stream that does not synchronise with the publication may miss
  its token (09_guard R249; 24_programs_attention_sparse R454) -/
  published : Bool
  deriving DecidableEq, Repr

/-- The states of a Muaris link (20_link R429). -/
inductive LinkState where
  | down
  | training
  | retraining
  | up
  | degraded
  | quarantined
  deriving DecidableEq, Repr

/-- A Muaris link (20_link R427 to R429): its state, the failures in a row, the last sequence number received in order, whether
flits are discarded until the sender replays, the sender's last acknowledged number and the replays of one flit. -/
structure MLink where
  st : LinkState
  fails : Nat
  rx : BitVec 12
  nak : Bool
  acked : BitVec 12
  replays : Nat
  /-- the error record of its quarantine or failure -/
  record : PTag
  /-- the sequence number of the last flit put into the replay buffer, and the receive-buffer credits returned so far (20_link R427) -/
  tx : BitVec 12
  credits : Nat
  deriving DecidableEq, Repr

/-- A write to another package that no ACK covers yet (20_link R428, R431, R432): its link and sequence number, the context and the tag that issued
it, its physical address, bytes and poison. The oldest 1,024 of a link stand in its replay buffer; later ones wait for a place there. -/
structure Sent where
  link : Nat
  seq : BitVec 12
  home : Home
  tag : STag
  key : Nat
  bytes : List Byte
  poison : Option PTag
  deriving DecidableEq, Repr

/-- What leaves the package: flits of a Muaris link (20_link R427, R428, R434) and answers to the host and to CXL expanders (R424, R434). -/
inductive Output where
  /-- a flit of a link: its TYPE, SEQ and ACK, and for a data flit the address and bytes of the request that it carries -/
  | flit (link : Nat) (ty : BitVec 4) (seq ack : BitVec 12) (key : Nat) (bytes : List Byte)
  /-- the completion of a host read, with its EP bit -/
  | completion (port : Nat) (bytes : List Byte) (ep : Bool)
  /-- the refusal of a host access -/
  | unsupported (port : Nat)
  /-- the refusal of an access of an expander -/
  | cxlError (port : Nat)
  deriving DecidableEq, Repr

/-- What an error record says beside its time (19_shroud R415). -/
structure Event where
  kind : Nat
  cause : Nat
  held : Bool
  unitClass : Nat
  unitIndex : Nat
  sub : Nat
  addr : Nat
  victim : Word
  slot : Option Nat
  pc : Word
  detail : Word
  deriving DecidableEq, Repr

/-- The management controller (21_device R435 to R442). -/
structure Mgmt where
  phase : Nat
  boot : Bool
  freeze : Bool
  frozen : Bool
  capt : Bool
  rerun : Bool
  rfull : Bool
  quar : Nat
  linken : Word
  pbudget : Nat
  rbsel : Word
  rpbase : Word
  rplen : Word
  /-- bytes of the replay buffer written, and in a replay run the bytes followed (R441, R442) -/
  rpos : Nat
  rcur : Nat
  /-- FWLAUNCH writes whose image still waits for tile-queue entries (R436; 10_context R266) -/
  launches : List Word
  /-- shroud kills that wait for the end of a freeze (R438), each with its record -/
  kills : List (STag × Event)
  /-- what the frozen scratchpad and its sector tags held when the freeze took hold (R438) -/
  snap : List Host.Cell
  snapTags : Tab STag
  gates : Tab Nat
  routing : Tab Word
  /-- inbound windows, by source × 16 + window: base and length words (20_link R433) -/
  windows : Tab (Word × Word)
  deriving DecidableEq, Repr

/-- Who moves next (log 4): a slot's scalar side, or a unit of the device by one of the events of the opcode table. -/
inductive Move where
  | slot (q : Nat)
  | unit (i : Instr)
  deriving DecidableEq, Repr

/-- The whole package. -/
structure State where
  /-- the moves to make next, first first (log 4) -/
  agenda : List Move
  /-- the slot whose scalar side acts (log 4) -/
  cur : Nat
  /-- the number of moves made by default (log 4) -/
  turn : Nat
  /-- the number of free values drawn (log 7) -/
  free : Nat
  slots : Tab Slot
  cores : Tab Core
  mem : List Host.Cell
  /-- poisoned 64-byte granules and their tags, by key / 64 (00_scope R12) -/
  poison : Tab PTag
  /-- shroud tags of the 64 KiB scratchpad sectors, by core × 16 + sector (08_stream R225) -/
  sectors : Tab STag
  /-- SPBASE of each cluster (08_stream R221) -/
  spbase : Tab Word
  tlb : List TlbEntry
  /-- the ASIDs in the order of their last use by a translation, the latest last (11_page R279) -/
  asidUse : List (BitVec 12)
  /-- scalar stores and releases passed on and not performed, oldest first (04_sequencer R109) -/
  stores : List PendAcc
  copies : Tab Copy
  cmds : Tab Cmd
  /-- the number of the next operation: a place in program order for each access, queue entry, copy, command and stream that a
  scalar side passes on (09_guard R227), and a name for migrations and walks -/
  nextOp : Nat
  migrations : Tab Migration
  images : List Image
  /-- what is known of saved queues and ports, by the key of the CSA (log 83) -/
  saved : Tab Saved
  /-- the number of the next context, and of the next dispatch -/
  nextCtx : Nat
  nextOrder : Nat
  pool : List PoolEntry
  /-- the sources that hold eligible entries, in the order of their first arrival (14_queue R335) -/
  shares : List Share
  queues : Tab Queue
  tasks : List Task
  kernels : Tab Kernel
  walkers : Tab Walker
  /-- futures whose value a fill has written poisoned, by the key of the pair, with the tag (15_barrier R353; log 75) -/
  futPoison : Tab PTag
  /-- region tables, by ASID × 64 + entry (09_guard R235) -/
  regions : Tab Region
  /-- error records, by entry (19_shroud R414) -/
  errors : Tab ErrRec
  /-- bytes of the CXL range, the ports that it interleaves over and their granularity, and the SerDes ports whose expander holds poison
  (20_link R425) -/
  cxlBytes : Nat
  cxlWays : Nat
  cxlGran : Nat
  cxlPoison : List Nat
  /-- HBM stacks and CXL ports out of service, with the provenance tag their frames read as (19_shroud R409; 20_link R426) -/
  deadStacks : Tab PTag
  deadPorts : Tab PTag
  /-- the words ASIDTAB, QTAB, ERRQ, ERRENTRY, NOTIFY and NID of the management window (21_device R436) -/
  asidTab : Word
  qtab : Word
  errq : Word
  errEntry : Word
  /-- MSI-X messages queued for the host ports: port and vector (20_link R423) -/
  msix : List (Nat × Nat)
  /-- host ports whose link is down (20_link R424), and the bytes of BAR4 that the host has granted to each (R422) -/
  hostDown : List Nat
  bar4 : Tab Nat
  notify : Word
  nid : Byte
  mgmt : Mgmt
  /-- quarantined units, by class and index (19_shroud R409, R415) -/
  quarUnits : List (Nat × Nat)
  muaris : Tab MLink
  /-- the writes in the replay buffers of the Muaris links, oldest first (20_link R428) -/
  sent : List Sent
  /-- reads that wait behind traffic of their granule on a RETRAINING link: the link and the granule (20_link R431, R432) -/
  heldReads : List (Nat × Nat)
  /-- what has left the package, oldest first (20_link R424, R428, R434) -/
  out : List Output
  /-- AGELIMIT of each die (14_queue R336; log 11) -/
  ageLimit : Tab Word
  meshes : Tab Mesh
  /-- remap tasks to push, by the number of the command (16_mesh R371) -/
  remaps : Tab RemapPush
  /-- the tag that owns a partition, by the key of its descriptor (17_partition R381) -/
  parts : Tab STag
  /-- projection slots, by KBU × 64 + slot (18_bucket R387) -/
  proj : Tab Proj
  klinks : Tab KLink
  /-- the owner of each bucket table that KRESET has filled, by the key of its descriptor (18_bucket R389, R392) -/
  tables : Tab STag
  deriving DecidableEq, Repr

/-- A scalar register after reset. DESIGN CHOICE (log 1): the spec gives no value; it is zero, unpoisoned and not pending. -/
def SReg.zero : SReg := ⟨0, none, .ready⟩

/-- No context: the bookkeeping of a FREE slot. -/
def Ctx.none : Ctx :=
  { id := 0, work := .none, parent := Option.none, sibling := false, children := [], siblings := 0, sibFlags := 0,
    csa := Option.none, ending := false, source := .own 0, weight := 16, gang := false }

/-- A slot after reset: FREE (21_device R435), every system register at the Reset column of its layout. Where the spec gives no
value (mode, level, program counter, registers) the choice is zero (log 1). -/
def Slot.reset : Slot :=
  { st := .free, mode := .context, level := .user, pc := 0, prev := none, land := false, regs := [], bank1 := [], loops := [],
    fflags := 0, frm := 0, vl := 0, vcfg := 0b101, vstart := 0, vlcap := 16384, vdirty := 0, vowner := 0, vuse := false,
    uivec := 0, uiepc := 0, uistat := ⟨false, false, 0, false, false⟩, cnt := ⟨0, 0, 0, 0⟩, accBase := 0, accLim := 0,
    reefTh := 4, reefTrap := false, trapCause := 0, trapNested := false, trapQueue := false, trapFrlost := false, trapPc := 0,
    trapAddr := 0, trapAux := 0, faultRec := 0, asid := 0, shtag := 0, prio := 0, csaBase := 0, servedTag := 0, rechk := false, vq := [],
    laneBase := 0, laneCount := 0, due := none, dueOrd := 0, request := none, ctx := Ctx.none, runPrio := 0, order := 0, charge := 0 }

/-- A core after reset: vector, mask and accumulator contents zero (log 1; 02_numbers R52), eight healthy lane groups. -/
def Core.reset : Core :=
  { vec := [], score := [], quarantined := [], remapDue := false, remapWait := [], laneMap := [0, 1, 2, 3, 4, 5, 6, 7], laneTag := [], fresh := [], acc := [], seg := [],
    rowTag := [], tq := [], seq := 0, reefLog := [], reefs := 0, reefOvf := [], ports := [],
    rechecks := [] }

/-- A stream of which nothing has been read. -/
def StreamCur.start : StreamCur := ⟨0, 0, 0, none, none⟩

/-- A port after reset: CLOSED (08_stream R202). -/
def Port.reset : Port :=
  { st := .closed, owner := 0, spec := [], pos := 0, status := 0, list := false, bindReg := 0, bindG := 0, fifo := [],
    stop := none, scope := 0, acquire := false, skip := 0, gen := 0, toks := [], cur := StreamCur.start, op := 0, stats := [] }

/-- A queue after reset: nothing notified, nothing taken (14_queue R325; log 1). -/
def Queue.reset : Queue := ⟨0, 0, [], false, false, []⟩

/-- A segment after reset (02_numbers R53). -/
def SegStatus.reset : SegStatus := ⟨0, true, 61, 0⟩

/-- A Muaris link after reset: DOWN (20_link R429). -/
def MLink.reset : MLink := ⟨.down, 0, 0, false, 0, 0, 0, 0, 0⟩

/-- The management controller after reset (21_device R437, R439). -/
def Mgmt.reset : Mgmt :=
  { phase := 0, boot := false, freeze := false, frozen := false, capt := false, rerun := false, rfull := false, quar := 0,
    linken := 0, pbudget := 2700, rbsel := 0, rpbase := 0, rplen := 0, rpos := 0, rcur := 0, launches := [], kills := [], snap := [], snapTags := [], gates := [], routing := [], windows := [] }

/-- The package right after reset (21_device R435): every slot FREE, nothing listed in any table, memory reading zero (log 2). -/
def State.reset : State :=
  { agenda := [], cur := 0, turn := 0, free := 0, slots := [], cores := [], mem := [], poison := [], sectors := [], spbase := [], tlb := [], asidUse := [],
    stores := [], copies := [], cmds := [], nextOp := 0, migrations := [], images := [], saved := [], nextCtx := 1, nextOrder := 0, pool := [],
    shares := [], queues := [], tasks := [], kernels := [], walkers := [], futPoison := [], regions := [], errors := [], cxlBytes := 0,
    cxlWays := 1, cxlGran := 4096, cxlPoison := [], deadStacks := [], deadPorts := [], asidTab := 0, qtab := 0, errq := 0, errEntry := 0, msix := [], hostDown := [], bar4 := [],
    notify := 0, nid := 0, mgmt := Mgmt.reset, quarUnits := [], muaris := [], sent := [], heldReads := [], out := [], ageLimit := [], meshes := [], remaps := [],
    parts := [], proj := [], klinks := [], tables := [] }

end Sys2Proof.Machine
end

