-- ==== Sys2Proof/Machine/Tab.lean ====
section
/-! DEFINITION. Tables with a default: reading, writing and removing an entry. Keys rise from the head in every table that
State.reset and these operations make, but no law about reading needs that. -/

namespace Sys2Proof.Machine

/-- The entry of key k, if the table lists one. -/
def tabFind {α : Type} : Tab α → Nat → Option α
  | [], _ => none
  | (k', v) :: t, k => if k' = k then some v else tabFind t k

/-- The value of key k: its entry, or the default d. -/
def tabGet {α : Type} (t : Tab α) (d : α) (k : Nat) : α := (tabFind t k).getD d

/-- The table with key k set to v: its entry replaced, or a new one placed before the first greater key. -/
def tabSet {α : Type} : Tab α → Nat → α → Tab α
  | [], k, v => [(k, v)]
  | (k', v') :: t, k, v =>
    if k' = k then (k, v) :: t
    else if k < k' then (k, v) :: (k', v') :: t
    else (k', v') :: tabSet t k v

/-- The table without the entries of key k. -/
def tabDel {α : Type} : Tab α → Nat → Tab α
  | [], _ => []
  | (k', v') :: t, k => if k' = k then tabDel t k else (k', v') :: tabDel t k

/-- The table with key k set to v, or without it when there is no value. -/
def tabPut {α : Type} (t : Tab α) (k : Nat) (v : Option α) : Tab α :=
  match v with
  | some x => tabSet t k x
  | none => tabDel t k

end Sys2Proof.Machine
end

