-- ==== Sys2Proof/Machine/Phys.lean ====
section
/-! DEFINITION. Physical accesses: bytes with their poison (00_scope R12; 19_shroud R410), and the classes of address
(20_link R430; 08_stream R221; 21_device R436). A key is a physical address of the package's own map, PA[51:44] naming another
package, or a scratchpad byte. -/

namespace Sys2Proof.Machine

/-- The lower of two provenance tags that may be absent (00_scope R12). -/
def lowerTag : Option PTag → Option PTag → Option PTag
  | none, t => t
  | t, none => t
  | some a, some b => some (if a.toNat ≤ b.toNat then a else b)

/-- The key of a scratchpad byte: offset off of the scratchpad of a core. -/
def padKeyOf (core off : Nat) : Nat := Config.padKey + core * Config.padBytes + off

/-- Whether a key is a scratchpad byte. -/
def isPad (key : Nat) : Bool := decide (Config.padKey ≤ key)

/-- Whether a key lies in the map of another package (20_link R430). -/
def isRemote (key : Nat) : Bool := decide (2 ^ 44 ≤ key) && decide (key < Config.padKey)

/-- The base of the management window for firmware-level contexts (21_device, introduction). -/
def windowBase : Nat := 0x0FFFFC000000

/-- Whether a key lies in the management window. -/
def isWindow (key : Nat) : Bool := decide (windowBase ≤ key) && decide (key < 2 ^ 44)

/-- Whether a key lies in the notify area (21_device R436). -/
def isNotify (s : State) (key : Nat) : Bool :=
  decide (s.notify.toNat ≤ key) && decide (key < s.notify.toNat + 2 ^ 24) && s.notify != 0

/-- Whether a key lies in the HBM range (log 3). -/
def isHbm (key : Nat) : Bool := decide (key < Config.hbmBytes)

/-- Whether a key lies in the CXL range (20_link R425; log 3). -/
def isCxl (s : State) (key : Nat) : Bool := decide (Config.hbmBytes ≤ key) && decide (key < Config.hbmBytes + s.cxlBytes)

/-- The key of a 52-bit physical address: the package's own node number is routed locally (20_link R430). -/
def keyOfPa (s : State) (pa : Nat) : Nat :=
  if pa / 2 ^ 44 = s.nid.toNat then pa % 2 ^ 44 else pa

/-- The SerDes ports of the CXL tier in the order of their ranges (01_anatomy R21; log 3). -/
def cxlPort (i : Nat) : Nat := [1, 2, 4, 5].getD i 5

/-- The place of a CXL port in that order. -/
def cxlIndex (port : Nat) : Nat := match port with | 1 => 0 | 2 => 1 | 4 => 2 | _ => 3

/-- The place of the port that serves a key of the CXL range (20_link R425): the range falls into sets of as many ports as it interleaves over, and
within a set the ports take turns at the granularity (log 3). -/
def cxlPlace (s : State) (key : Nat) : Nat :=
  let off := key - Config.hbmBytes
  let set := s.cxlBytes * s.cxlWays / 4
  off / set * s.cxlWays + off % set / s.cxlGran % s.cxlWays

/-- Whether a frame of len bytes lies in an HBM or CXL range, the notify area or the management window (11_page R283; 20_link
R430; 21_device R436). A remote frame is judged by a map like this package's own (log 8). -/
def frameOk (s : State) (pa len : Nat) : Bool :=
  let k := keyOfPa s pa
  let e := k + len - 1
  if isRemote k then (isHbm (k % 2 ^ 44) && isHbm (e % 2 ^ 44)) || (isCxl s (k % 2 ^ 44) && isCxl s (e % 2 ^ 44))
  else (isHbm k && isHbm e) || (isCxl s k && isCxl s e) || (isNotify s k && isNotify s e) || (isWindow k && isWindow e)

/-- The provenance tag that an out-of-service stack or port gives a granule (19_shroud R409; 20_link R426; log 3 places the
frames of the four CXL ports). -/
def deadTag (s : State) (key : Nat) : Option PTag :=
  if isHbm key then tabFind s.deadStacks (key / Config.stackBytes)
  else if isCxl s key then tabFind s.deadPorts (cxlPlace s key)
  else none

/-- The poison of the granule that holds a key (00_scope R12). -/
def granulePoison (s : State) (key : Nat) : Option PTag := lowerTag (tabFind s.poison (key / 64)) (deadTag s key)

/-- The lowest tag among the n granules from granule g upward. -/
def granulesPoison (s : State) : Nat → Nat → Option PTag
  | _, 0 => none
  | g, n + 1 => lowerTag (granulePoison s (g * 64)) (granulesPoison s (g + 1) n)

/-- How many granules n bytes from a key touch. -/
def granuleCount (key n : Nat) : Nat := if n = 0 then 0 else (key + n - 1) / 64 - key / 64 + 1

/-- The poison of n bytes from a key: the lowest tag among the granules they touch. -/
def rangePoison (s : State) (key n : Nat) : Option PTag := granulesPoison s (key / 64) (granuleCount key n)

/-- The poison table after a write to bytes [key, key + n) of the granules from g upward: a poisoned write poisons each granule
(R12), an unpoisoned one clears a granule only when it writes all its 64 bytes (06_vector_access R160) (DEDUCED, log 45). -/
def poisonGranules (t : Option PTag) (key n : Nat) : Tab PTag → Nat → Nat → Tab PTag
  | tab, _, 0 => tab
  | tab, g, c + 1 =>
    let tab' := match t with
      | some tag => tabPut tab g (lowerTag (some tag) (tabFind tab g))
      | none => if key ≤ g * 64 ∧ g * 64 + 64 ≤ key + n then tabDel tab g else tab
    poisonGranules t key n tab' (g + 1) c

/-- The state after bytes are written at a key, with the poison of the data. Scratchpad, HBM and CXL only. -/
def physWrite (s : State) (key : Nat) (bytes : List Byte) (t : Option PTag) : State :=
  { s with
    mem := writeBytes key bytes s.mem
    poison := poisonGranules t key bytes.length s.poison (key / 64) (granuleCount key bytes.length) }

/-- The n bytes at a key. -/
def physRead (s : State) (key n : Nat) : List Byte := readBytes s.mem key n

/-- The number in n bytes at a key (00_scope R3). -/
def physLE (s : State) (key n : Nat) : Nat := readLE s.mem key n

/-- The 8-byte word at a key. -/
def physWord (s : State) (key : Nat) : Word := readWord s.mem key

/-- The state after an 8-byte word is written at a key, unpoisoned. -/
def physPut (s : State) (key : Nat) (w : Word) : State := physWrite s key (leBytes 8 w.toNat) none

/-- The state after the low n bytes of a number are written at a key, unpoisoned. -/
def physPutLE (s : State) (key n x : Nat) : State := physWrite s key (leBytes n x) none

/-- The next free value, and the state that has drawn it (log 7). -/
def drawFree (s : State) : Word × State := (Config.freeValue s.free, { s with free := s.free + 1 })

/-- Whether memory at a key can hold poison (19_shroud R411). -/
def holdsPoison (s : State) (key : Nat) : Bool :=
  if isPad key || isRemote key then true
  else if isNotify s key || isWindow key then false
  else if isCxl s key then s.cxlPoison.contains (cxlPort (cxlPlace s key))
  else true

end Sys2Proof.Machine
end

