-- ==== Sys2Proof/Machine/Translate.lean ====
section
/-! DEFINITION. Translation (11_page): the page-table walk, the TLB slices, Probe (00_scope R13), and the scratchpad window with
its sector tags (08_stream R221, R225). -/

namespace Sys2Proof.Machine

/-- SPBASE of a cluster (08_stream R221): bits 55:26, the top 64 MiB after reset. -/
def spBase (s : State) (cluster : Nat) : Word := tabGet s.spbase 0x00FFFFFFFC000000#64 cluster

/-- The levels of the walk (11_page R280): the lowest index bit and the index width of each level. -/
def walkLevels : List (Nat × Nat) := [(46, 10), (36, 10), (28, 8), (24, 4), (16, 8), (12, 4)]

/-- The size code of a leaf at a level (11_page R280; 06_vector_access R156). -/
def sizeCode (level : Nat) : Nat :=
  match level with
  | 1 => 4
  | 2 => 3
  | 3 => 2
  | 4 => 1
  | _ => 0

/-- The bytes of a page by its size code (06_vector_access R156). -/
def pageBytes (size : Nat) : Nat :=
  match size with
  | 0 => 2 ^ 12
  | 1 => 2 ^ 16
  | 2 => 2 ^ 24
  | 3 => 2 ^ 28
  | _ => 2 ^ 36

/-- Bits hi down to lo of a word as a number (00_scope R3). -/
def wbits (w : Word) (hi lo : Nat) : Nat := w.toNat / 2 ^ lo % 2 ^ (hi + 1 - lo)

/-- STATE of a leaf (11_page R282). -/
def leafState (e : Word) : Nat := wbits e 4 2

/-- The frame address of a leaf (11_page R282). -/
def leafPa (e : Word) : Nat := wbits e 51 12 * 4096

/-- Whether a leaf at a level is well formed (11_page R282, R283). -/
def leafOk (s : State) (level : Nat) (e : Word) : Bool :=
  level != 0 && e.getLsbD 9 == false && decide (1 ≤ leafState e ∧ leafState e ≤ 5) &&
  (leafState e == 4 || wbits e 63 52 == 0) && leafPa e % pageBytes (sizeCode level) == 0 &&
  frameOk s (leafPa e) (pageBytes (sizeCode level))

/-- Whether a pointer to the table of the next level is well formed (11_page R281, R283): aligned to that table's size. -/
def tableOk (s : State) (nextBits : Nat) (e : Word) : Bool :=
  wbits e 63 52 == 0 && wbits e 6 2 == 0 && wbits e 51 7 * 128 % (8 * 2 ^ nextBits) == 0 &&
  frameOk s (wbits e 51 7 * 128) (8 * 2 ^ nextBits)

/-- The walk from the table at key tbl over the levels that remain (11_page R280 to R283). -/
def walkFrom (s : State) (va : Nat) : List (Nat × Nat) → Nat → Nat → WalkEnd
  | [], _, _ => .unmapped true
  | (lo, n) :: rest, level, tbl =>
    let at_ := tbl + va / 2 ^ lo % 2 ^ n * 8
    let e := physWord s at_
    if (rangePoison s at_ 8).isSome then .unmapped true
    else if wbits e 1 0 = 0 then .unmapped false
    else if wbits e 1 0 = 2 then (if leafOk s level e then .leaf level at_ e else .unmapped true)
    else if wbits e 1 0 = 1 then
      match rest with
      | [] => .unmapped true
      | (_, n') :: _ =>
        if tableOk s n' e then walkFrom s va rest (level + 1) (keyOfPa s (wbits e 51 7 * 128)) else .unmapped true
    else .unmapped true

/-- The key of an ASID's entry of the ASID table (11_page R278; 21_device R436). -/
def asidEntry (s : State) (asid : BitVec 12) : Nat := keyOfPa s s.asidTab.toNat + asid.toNat * 32

/-- Whether an ASID table entry is valid: VALID set and every reserved bit zero (11_page R278). -/
def asidOk (s : State) (asid : BitVec 12) : Bool :=
  let a := asidEntry s asid
  let root := physWord s a
  root.getLsbD 63 && wbits root 62 52 == 0 && wbits root 12 0 == 0 && wbits (physWord s (a + 8)) 63 52 == 0 &&
  wbits (physWord s (a + 8)) 5 0 == 0 && wbits (physWord s (a + 16)) 63 52 == 0 &&
  wbits (physWord s (a + 16)) 5 0 == 0 && physWord s (a + 24) == 0 && (rangePoison s a 32).isNone

/-- The walk of a virtual address under an ASID (11_page R278 to R283). -/
def walk (s : State) (asid : BitVec 12) (va : Nat) : WalkEnd :=
  if asidOk s asid then
    walkFrom s va walkLevels 0 (keyOfPa s (wbits (physWord s (asidEntry s asid)) 51 13 * 8192))
  else .unmapped false

/-- The entry of a TLB slice that translates an address: it matches on ASID and address only (11_page R288). -/
def tlbFind (s : State) (slice : Nat) (asid : BitVec 12) (va : Nat) : Option TlbEntry :=
  s.tlb.find? fun e => e.slice == slice && e.asid == asid && e.page == va / pageBytes e.size * pageBytes e.size

/-- The slots that hold a context (04_sequencer R80). -/
def busyAsids (s : State) : List (BitVec 12) :=
  s.slots.filterMap fun (_, x) => if x.st = .free then none else some x.asid

/-- The live ASIDs (11_page R279). -/
def liveAsids (s : State) : List (BitVec 12) := (busyAsids s ++ s.tlb.map (·.asid)).eraseDups

/-- The slice number of a unit that has no TLB slice (11_page R288): it walks at each access and caches nothing. -/
def noSlice : Nat := 9 * Config.cores + 280

/-- The least recently used of some ASIDs (11_page R279): one that no translation has used yet comes before all others. -/
def leastUsed (s : State) (l : List (BitVec 12)) : Option (BitVec 12) :=
  match l.find? fun a => !s.asidUse.contains a with
  | some a => some a
  | none => s.asidUse.find? l.contains

/-- The TLB entries that stay when a walk through a slice makes an ASID live (11_page R279): when 1,024 others are live, those of the
least recently used live ASID without a context go; none when every live ASID has a context in a slot, and the access fails. A walk
that caches nothing makes no ASID live. What counts as a use is log 49. -/
def tlbForAsid (s : State) (slice : Nat) (asid : BitVec 12) : Option (List TlbEntry) :=
  let live := liveAsids s
  if slice == noSlice || live.contains asid || live.length < 1024 then some s.tlb
  else (leastUsed s (live.filter fun a => !(busyAsids s).contains a)).map fun v => s.tlb.filter fun e => e.asid != v

/-- Whether a leaf permits an access at a level (11_page R284, check 2). -/
def leafPermits (e : Word) (level : Level) (k : Access) : Bool :=
  (match k with
    | .read => e.getLsbD 5
    | .write => e.getLsbD 6
    | .update => e.getLsbD 5 && e.getLsbD 6
    | .fetch => e.getLsbD 7) &&
  (level != .user || e.getLsbD 8)

/-- Whether an access writes. -/
def Access.writes : Access → Bool
  | .write | .update => true
  | .read | .fetch => false

/-- The check of a leaf found for an address (11_page R283, R284, R286): STATE RETIRED is no translation; then permission, also
that only firmware reaches the management window (log 3); then no write to a POISONED page. -/
def checkLeaf (s : State) (ag : Agent) (va : Nat) (k : Access) (size : Nat) (e : Word) : Except Miss Hit :=
  let page := va / pageBytes size * pageBytes size
  let key := keyOfPa s (leafPa e + va % pageBytes size)
  if leafState e = 5 then .error ⟨page, size, 0⟩
  else if leafPermits e ag.level k = false || (isWindow key && ag.level != .firmware) then .error ⟨page, size, 1⟩
  else if leafState e = 4 ∧ k.writes = true then .error ⟨page, size, 1⟩
  else .ok ⟨key, leafState e, if leafState e = 4 then some (BitVec.ofNat 12 (wbits e 63 52)) else none, page, size⟩

/-- Whether an address lies in the scratchpad window of a cluster (08_stream R221). -/
def inWindow (s : State) (cluster : Nat) (va : Nat) : Bool :=
  decide ((spBase s cluster).toNat ≤ va) && decide (va < (spBase s cluster).toNat + Config.windowBytes)

/-- The key of a window address (08_stream R221; 01_anatomy R19). -/
def windowKey (s : State) (cluster : Nat) (va : Nat) : Nat :=
  Config.padKey + cluster * Config.windowBytes + (va - (spBase s cluster).toNat)

/-- The sector of a scratchpad key (08_stream R225). -/
def sectorOf (key : Nat) : Nat := (key - Config.padKey) / 0x10000

/-- Whether D is still to be set in a leaf before a write through a cached entry (11_page R282). -/
def TlbEntry.needsD (e : TlbEntry) (k : Access) : Bool := k.writes && !e.leaf.getLsbD 11

/-- The cached translation that an access uses (11_page R285, R288): none where the slice holds none, and none where D is still to be
set and the leaf in memory is no longer the one cached, so that the compare-and-swap fails and the walker walks again. -/
def tlbUse (s : State) (ag : Agent) (va : Nat) (k : Access) : Option TlbEntry :=
  match tlbFind s ag.slice ag.asid va with
  | some e => if e.needsD k && (physWord s e.place != e.leaf || (rangePoison s e.place 8).isSome) then none else some e
  | none => none

/-- The check of one address (00_scope R13; 11_page R280, R284; 08_stream R221, R225). A RETIRED leaf is no translation, and makes no ASID live
(11_page R279, R283). -/
def checkAddr (s : State) (ag : Agent) (va : Nat) (k : Access) : Except Miss Hit :=
  let granule := va / 4096 * 4096
  if inWindow s ag.cluster va then
    let key := windowKey s ag.cluster va
    let t := tabGet s.sectors 0 (sectorOf key)
    if ag.tag = 0 ∨ t = 0 ∨ t = ag.tag then .ok ⟨key, 0, none, granule, 0⟩ else .error ⟨granule, 0, 3⟩
  else if 2 ^ 56 ≤ va then .error ⟨granule, 0, 0⟩
  else
    match tlbUse s ag va k with
    | some e => checkLeaf s ag va k e.size e.leaf
    | none =>
      match walk s ag.asid va with
      | .unmapped _ => .error ⟨granule, 0, 0⟩
      | .leaf level _ e =>
        if leafState e ≠ 5 ∧ (tlbForAsid s ag.slice ag.asid).isNone then .error ⟨va / pageBytes (sizeCode level) * pageBytes (sizeCode level), sizeCode level, 1⟩
        else checkLeaf s ag va k (sizeCode level) e

/-- The addresses at which a range of n bytes is checked: its first byte, and the first byte of each further 4 KiB granule. -/
def granuleAddrs (va n : Nat) : List Nat :=
  if n = 0 then [] else
    va :: (List.range ((va + n - 1) / 4096 - va / 4096)).map fun i => (va / 4096 + i + 1) * 4096

/-- The check of one address of a range: past the end of the window the range began in, WHY is 2 (08_stream R221). -/
def checkInRange (s : State) (ag : Agent) (first va : Nat) (k : Access) : Except Miss Hit :=
  if inWindow s ag.cluster first && !inWindow s ag.cluster va then .error ⟨va / 4096 * 4096, 0, 2⟩ else checkAddr s ag va k

/-- Insert a failing page into a list sorted by address, once (00_scope R13). -/
def insertMiss (m : Miss) : List Miss → List Miss
  | [] => [m]
  | x :: xs => if m.page = x.page then x :: xs else if m.page < x.page then m :: x :: xs else x :: insertMiss m xs

/-- The failing pages of one range (00_scope R13). -/
def probeRange (s : State) (ag : Agent) (k : Access) (va n : Nat) : List Miss :=
  (granuleAddrs va n).foldl (fun acc a => match checkInRange s ag va a k with
    | .ok _ => acc
    | .error m => insertMiss m acc) []

/-- Probe: the sorted distinct failing pages of a list of ranges (00_scope R13). -/
def probe (s : State) (ag : Agent) (k : Access) (ranges : List (Nat × Nat)) : List Miss :=
  ranges.foldl (fun acc r => (probeRange s ag k r.1 r.2).foldl (fun l m => insertMiss m l) acc) []

/-- The trap cause of a failing page: translation is 0x09, everything else protection (00_scope R13; 04_sequencer R88). -/
def missCause (m : Miss) : Nat := if m.why = 0 then 0x09 else 0x0A

/-- The TLB with an entry added for a translated page (11_page R288): it replaces what its slice holds for addresses of the page. -/
def tlbFill (t : List TlbEntry) (e : TlbEntry) : List TlbEntry :=
  if e.slice = noSlice then t
  else
    (t.filter fun x => !(x.slice == e.slice && x.asid == e.asid && decide (x.page < e.page + pageBytes e.size) &&
      decide (e.page < x.page + pageBytes x.size))) ++ [e]

/-- An ASID becomes the most recently used (11_page R279). -/
def useAsid (l : List (BitVec 12)) (a : BitVec 12) : List (BitVec 12) :=
  if l.getLast? = some a then l else (l.filter fun x => x != a) ++ [a]

/-- The state after an access that passes has used the translation of an address: the walk sets A before the entry is cached and
D before the first write through it, and the slice holds the leaf (11_page R282, R285, R288). A RETIRED leaf is not cached (R286). -/
def touch (s : State) (ag : Agent) (va : Nat) (k : Access) : State :=
  if inWindow s ag.cluster va then s
  else
    match tlbUse s ag va k with
    | some e =>
      let s1 := if e.needsD k then
          let e1 := { e with leaf := e.leaf ||| 0x800#64 }
          { physPut s e.place e1.leaf with tlb := tlbFill s.tlb e1 }
        else s
      { s1 with asidUse := useAsid s.asidUse ag.asid }
    | none =>
      match walk s ag.asid va with
      | .leaf level at_ w =>
        if leafState w = 5 then s
        else
          let w' := w ||| (if k.writes then 0xC00#64 else 0x400#64)
          let s' := if w' = w then s else physPut s at_ w'
          if ag.slice = noSlice then s'
          else
            { s' with
              asidUse := useAsid s.asidUse ag.asid
              tlb := tlbFill ((tlbForAsid s ag.slice ag.asid).getD s.tlb)
                ⟨ag.slice, ag.asid, va / pageBytes (sizeCode level) * pageBytes (sizeCode level), sizeCode level, w', ag.tag, at_⟩ }
      | .unmapped _ => s

/-- The state after an access of n bytes that passes has used its translations. -/
def touchRange (s : State) (ag : Agent) (k : Access) (va n : Nat) : State :=
  (granuleAddrs va n).foldl (fun s a => touch s ag a k) s

/-- A range of bytes cut at 4 KiB boundaries: the address and the length of each piece. -/
def spans (va n : Nat) : List (Nat × Nat) :=
  (granuleAddrs va n).map fun a => (a, min (a / 4096 * 4096 + 4096) (va + n) - a)

/-- The key of a byte that passes its check; 0 where it does not. -/
def keyOfVa (s : State) (ag : Agent) (va : Nat) (k : Access) : Nat :=
  match checkAddr s ag va k with
  | .ok h => h.key
  | .error _ => 0

/-- The state after bytes are written at a key under a shroud tag: a scratchpad sector takes the tag (08_stream R225). Nothing is
written to an address that is no memory; what a program's write does there is stated in Access.lean (DEDUCED, log 51). -/
def storeKey (s : State) (tag : STag) (key : Nat) (bytes : List Byte) (t : Option PTag) : State :=
  if isPad key then { physWrite s key bytes t with sectors := tabSet s.sectors (sectorOf key) tag }
  else if isHbm key || isCxl s key then physWrite s key bytes t
  else s

/-- The n bytes at a virtual address that passes Probe for an access of a kind, read from memory. -/
def vReadAs (s : State) (ag : Agent) (k : Access) (va n : Nat) : List Byte :=
  (spans va n).foldl (fun acc p => acc ++ physRead s (keyOfVa s ag p.1 k) p.2) []

/-- The n bytes at a virtual address that passes Probe for read. -/
def vRead (s : State) (ag : Agent) (va n : Nat) : List Byte := vReadAs s ag .read va n

/-- The poison that n bytes at a translated address read with: every granule of a POISONED page returns the page's TAG (11_page
R286). -/
def Hit.poisonIn (h : Hit) (s : State) (n : Nat) : Option PTag :=
  match h.poison with
  | some t => some t
  | none => rangePoison s h.key n

/-- The poison of n bytes at a virtual address that passes Probe for an access of a kind (11_page R286). -/
def vPoisonAs (s : State) (ag : Agent) (k : Access) (va n : Nat) : Option PTag :=
  (spans va n).foldl (fun acc p => match checkAddr s ag p.1 k with
    | .ok h => lowerTag acc (h.poisonIn s p.2)
    | .error _ => acc) none

/-- The poison of n bytes at a virtual address that passes Probe for read. -/
def vPoison (s : State) (ag : Agent) (va n : Nat) : Option PTag := vPoisonAs s ag .read va n

/-- The key of a mapped byte, whatever its page permits (11_page R283); 0 where there is none. -/
def mappedKey (s : State) (ag : Agent) (va : Nat) : Nat :=
  if inWindow s ag.cluster va then windowKey s ag.cluster va
  else if 2 ^ 56 ≤ va then 0
  else
    match walk s ag.asid va with
    | .leaf level _ e => if leafState e = 5 then 0 else keyOfPa s (leafPa e + va % pageBytes (sizeCode level))
    | .unmapped _ => 0

/-- The state after bytes are written at a virtual address that passes Probe for write; a byte that does not pass is not written. -/
def vWrite (s : State) (ag : Agent) (va : Nat) (bytes : List Byte) (t : Option PTag) : State :=
  (spans va bytes.length).foldl (fun st p => match checkAddr s ag p.1 .write with
    | .ok h => storeKey (touch st ag p.1 .write) ag.tag h.key ((bytes.drop (p.1 - va)).take p.2) t
    | .error _ => st) s

/-- The words of a list of bytes, eight bytes each. -/
def wordsOfBytes : List Byte → List Word
  | a :: b :: c :: d :: e :: f :: g :: h :: rest => BitVec.ofNat 64 (leNat [a, b, c, d, e, f, g, h]) :: wordsOfBytes rest
  | [] => []
  | rest => [BitVec.ofNat 64 (leNat rest)]

/-- The bytes of a list of words. -/
def bytesOfWords (ws : List Word) : List Byte := ws.flatMap fun w => leBytes 8 w.toNat

/-- Word i of a list of words, zero past its end. -/
def wordAt (ws : List Word) (i : Nat) : Word := ws.getD i 0

end Sys2Proof.Machine
end

