-- ==== Sys2Proof/Machine/Slots.lean ====
section
/-! DEFINITION. Slots, cores and scalar registers: one home for each, reached through the accessors of this file; the loop
stack's frame-end step and the completion of an instruction (04_sequencer R80, R81, R99 to R103). -/

namespace Sys2Proof.Machine

/-- The slot with number q. -/
def State.slot (s : State) (q : Nat) : Slot := tabGet s.slots Slot.reset q

/-- The state with slot q replaced. -/
def State.setSlot (s : State) (q : Nat) (x : Slot) : State := { s with slots := tabSet s.slots q x }

/-- The core with number k. -/
def State.core (s : State) (k : Nat) : Core := tabGet s.cores Core.reset k

/-- The state with core k replaced. -/
def State.setCore (s : State) (k : Nat) (c : Core) : State := { s with cores := tabSet s.cores k c }

/-- The core of a slot (01_anatomy R20). -/
def coreOf (q : Nat) : Nat := q / 8

/-- The cluster of a core, and of a slot (01_anatomy R20). -/
def clusterOfCore (k : Nat) : Nat := k / 64
def clusterOf (q : Nat) : Nat := clusterOfCore (coreOf q)

/-- The compute die of a cluster, a core and a slot (01_anatomy R20). -/
def dieOfCluster (c : Nat) : Nat := c / 2
def dieOfCore (k : Nat) : Nat := dieOfCluster (clusterOfCore k)
def dieOf (q : Nat) : Nat := dieOfCore (coreOf q)

/-- The TLB slices (11_page R288): a core's scalar slice and one for each lane group, then copy engines, topology engines, KBUs. -/
def scalarSlice (core : Nat) : Nat := 9 * core
def laneSlice (core g : Nat) : Nat := 9 * core + 1 + g
def copySlice (engine : Nat) : Nat := 9 * Config.cores + engine
def topologySlice (die : Nat) : Nat := 9 * Config.cores + 256 + die
def kbuSlice (cluster : Nat) : Nat := 9 * Config.cores + 264 + cluster

/-- The agent of a slot's scalar accesses (09_guard R227): its address space, level and tag. -/
def scalarAgent (s : State) (q : Nat) : Agent :=
  let x := s.slot q
  { slice := scalarSlice (coreOf q), asid := x.asid, level := x.level, tag := x.shtag, cluster := clusterOf q }

/-- Whether a register number selects bank 1 now (04_sequencer R112). -/
def Slot.banked (x : Slot) (r : Nat) : Bool := x.uistat.act && decide (56 ≤ r) && decide (r ≤ 61)

/-- Scalar register r (03_encoding R56): s0 reads zero; s56 to s61 name bank 1 in a user-level handler. -/
def Slot.sreg (x : Slot) (r : Nat) : SReg :=
  if r = 0 then SReg.zero
  else if x.banked r then tabGet x.bank1 SReg.zero r
  else tabGet x.regs SReg.zero r

/-- The slot with scalar register r replaced; a write to s0 is discarded (03_encoding R56). -/
def Slot.setReg (x : Slot) (r : Nat) (v : SReg) : Slot :=
  if r = 0 then x
  else if x.banked r then { x with bank1 := tabSet x.bank1 r v }
  else { x with regs := tabSet x.regs r v }

/-- The value of scalar register r. -/
def Slot.val (x : Slot) (r : Nat) : Word := (x.sreg r).val

/-- The poison of scalar register r (04_sequencer R87). -/
def Slot.poisonOf (x : Slot) (r : Nat) : Option PTag := (x.sreg r).poison

/-- The slot with a value and its poison written to scalar register r: it is no longer pending (04_sequencer R81). -/
def Slot.put (x : Slot) (r : Nat) (v : Word) (p : Option PTag) : Slot := x.setReg r ⟨v, p, .ready⟩

/-- The slot with scalar register r marked pending; s0 never is (04_sequencer R81). -/
def Slot.markPending (x : Slot) (r : Nat) (p : Pend) : Slot := x.setReg r { x.sreg r with pend := p }

/-- The number under which a scalar register is remembered for a later result: 0 to 63, or 64 to 69 for bank 1 (04_sequencer R112;
10_context R253). -/
def Slot.regIndex (x : Slot) (r : Nat) : Nat := if x.banked r then r + 8 else r

/-- The slot with a result in a remembered register, no longer pending (04_sequencer R81). -/
def Slot.landAt (x : Slot) (i : Nat) (v : Word) (p : Option PTag) : Slot :=
  if i = 0 then x
  else if i < 64 then { x with regs := tabSet x.regs i ⟨v, p, .ready⟩ }
  else { x with bank1 := tabSet x.bank1 (i - 8) ⟨v, p, .ready⟩ }

/-- A scalar register that nothing will write any more is no longer pending, but one whose number is listed (04_sequencer R81). -/
def settleRegs (off : Nat) (gone : Pend → Bool) (kept : List Nat) (t : Tab SReg) : Tab SReg :=
  t.map fun e => if gone e.2.pend && !kept.contains (e.1 + off) then (e.1, { e.2 with pend := .ready }) else e

/-- The slot without the pending marks of some kind, but for remembered registers that are listed (04_sequencer R81, R112). -/
def Slot.settle (x : Slot) (gone : Pend → Bool) (kept : List Nat) : Slot :=
  { x with regs := settleRegs 0 gone kept x.regs, bank1 := settleRegs 8 gone kept x.bank1 }

/-- The first of some registers that is pending (04_sequencer R81). -/
def Slot.pendingAmong (x : Slot) (rs : List Nat) : Option Nat := rs.find? fun r => decide ((x.sreg r).pend ≠ .ready)

/-- The lowest tag among some registers (04_sequencer R87). -/
def Slot.poisonAmong (x : Slot) (rs : List Nat) : Option PTag := rs.foldl (fun t r => lowerTag t (x.poisonOf r)) none

/-- The fields of a loop-stack entry's word P (04_sequencer R100). -/
def LoopEntry.kind (e : LoopEntry) : Nat := wbits e.p 63 62
def LoopEntry.len (e : LoopEntry) : Nat := wbits e.p 61 52
def LoopEntry.vstr (e : LoopEntry) : Nat := wbits e.p 51 48
def LoopEntry.sstr (e : LoopEntry) : Nat := wbits e.p 47 42
def LoopEntry.times (e : LoopEntry) : Nat := wbits e.p 41 34
def LoopEntry.j (e : LoopEntry) : Nat := wbits e.p 33 26

/-- The end address of an entry (04_sequencer R100). -/
def LoopEntry.endAddr (e : LoopEntry) : Word := e.start + BitVec.ofNat 64 (4 * e.len)

/-- The entry with its repetition index raised by one (04_sequencer R102). -/
def LoopEntry.nextJ (e : LoopEntry) : LoopEntry := { e with p := e.p + 0x4000000#64 }

/-- Whether the address is the END of the top entry (04_sequencer R101, R105). -/
def atTopEnd (x : Slot) : Bool :=
  match x.loops with
  | e :: _ => x.pc == e.endAddr
  | [] => false

/-- The frame-end step (04_sequencer R102): from the address of the completed instruction and the loop stack, the next address,
the stack, and whether the step set the address to START or popped an entry (10_context R264). -/
def frameEnd (pc : Word) : List LoopEntry → Bool → Word × List LoopEntry × Bool
  | [], popped => (pc + 4, [], popped)
  | e :: rest, popped =>
    if pc = e.endAddr then
      if e.kind = 1 then
        if e.count - 1 ≠ 0 then (e.start, { e with count := e.count - 1 } :: rest, true) else frameEnd pc rest true
      else if e.j < e.times then (e.start, e.nextJ :: rest, true)
      else frameEnd pc rest true
    else (pc + 4, e :: rest, popped)

/-- The slot after its instruction completes without a taken transfer (04_sequencer R99, R102). -/
def Slot.complete (x : Slot) : Slot :=
  let r := frameEnd x.pc x.loops false
  { x with st := .run, prev := some x.pc, pc := r.1, loops := r.2.1, land := r.2.2 }

/-- The slot after a taken transfer to an address (04_sequencer R96, R99). -/
def Slot.jump (x : Slot) (target : Word) : Slot :=
  { x with st := .run, prev := some x.pc, pc := target, land := false }

/-- The state with the instruction of slot q completed (R102). -/
def State.complete (s : State) (q : Nat) : State := s.setSlot q (s.slot q).complete

/-- The state with a stall of slot q (04_sequencer R80): the instruction has had no effect. -/
def State.stallSlot (s : State) (q : Nat) (why : Stall) : State := s.setSlot q { s.slot q with st := .stall why }

/-- The state with a value and its poison in scalar register r of slot q, its instruction completed. -/
def State.finish (s : State) (q r : Nat) (v : Word) (p : Option PTag) : State := s.setSlot q ((s.slot q).put r v p).complete

/-- The live ports of a core. -/
def Core.port (c : Core) (p : Nat) : Port := tabGet c.ports Port.reset p

/-- The core with port p replaced. -/
def Core.setPort (c : Core) (p : Nat) (x : Port) : Core := { c with ports := tabSet c.ports p x }

/-- The port after a state in which no element is held and none will come: ENDED (08_stream R202). -/
def Port.settle (x : Port) : Port :=
  match x.stop with
  | some (st, l) => if x.fifo.isEmpty && (x.st == .opened || x.st == .bound) then { x with st := .ended, status := st, list := l } else x
  | none => x

/-- The kind of a captured specification (08_stream R199). -/
def specKind (spec : List Word) : Nat := wbits (wordAt spec 0) 2 0

/-- The agent of a KBU's accesses for a slot (11_page R288; 18_bucket R395) (DEDUCED, log 81). -/
def kbuAgent (s : State) (q : Nat) : Agent := { scalarAgent s q with slice := kbuSlice (clusterOf q) }

/-- The bucket table that a specification names (18_bucket R395, R399). -/
def kTable (p : List Word) : Nat := wbits (wordAt p 5) 55 6 * 64

/-- Slots that run or stall on a context, with their numbers (04_sequencer R80). -/
def busySlots (s : State) : List (Nat × Slot) := s.slots.filter fun e => decide (e.2.st ≠ .free)

/-- The eight slots of a core (01_anatomy R20). -/
def slotsOfCore (k : Nat) : List Nat := (List.range 8).map fun i => 8 * k + i

/-- Whether slot q has work in the vector unit or at a KBU that has left its queue and is not done: instructions that are executed again (19_shroud
R418) and links not yet published and settled (18_bucket R395). A save waits for it, since their registers are written before it completes (10_context R256). -/
def unitsPending (s : State) (q : Nat) : Bool :=
  (s.klinks.any fun k => k.2.slot == q) || (s.core (coreOf q)).rechecks.any fun r => r.slot == q

/-- The claims of KSTs that are still to be published (18_bucket R395). -/
def State.claims (s : State) : Tab KLink := s.klinks.filter fun e => !e.2.published

/-- Every publication made so far is seen from now on (09_guard R240, R249; 18_bucket R397): an acquire may read from it. -/
def State.settleLinks (s : State) : State := { s with klinks := s.claims }

/-- The queue of a number (14_queue R323). -/
def State.queue (s : State) (n : Nat) : Queue := tabGet s.queues Queue.reset n

/-- The state with a queue replaced. -/
def State.setQueue (s : State) (n : Nat) (x : Queue) : State := { s with queues := tabSet s.queues n x }

end Sys2Proof.Machine
end

