-- ==== Sys2Proof/Machine/Records.lean ====
section
/-! DEFINITION. Queue descriptors and the push of a record (14_queue R323, R324, R339), and error records with their two signals
(19_shroud R414 to R416). -/

namespace Sys2Proof.Machine

/-- The key of a queue's entry of the queue table (14_queue R323). -/
def qEntryKey (s : State) (n : Nat) : Nat := keyOfPa s s.qtab.toNat + 16 * n

/-- The words DESC and OWNER of a queue's table entry (14_queue R323). -/
def qDescWord (s : State) (n : Nat) : Word := physWord s (qEntryKey s n)
def qOwner (s : State) (n : Nat) : Word := physWord s (qEntryKey s n + 8)

/-- Whether a queue's table entry is valid and its other bits are zero (14_queue R323). -/
def qEntryOk (s : State) (n : Nat) : Bool :=
  decide (n < 4096) && (qDescWord s n).getLsbD 63 && wbits (qDescWord s n) 62 56 == 0 && wbits (qDescWord s n) 5 0 == 0 &&
  wbits (qOwner s n) 63 33 == 0 && wbits (qOwner s n) 31 26 == 0 && wbits (qOwner s n) 15 12 == 0 &&
  (rangePoison s (qEntryKey s n) 16).isNone

/-- The address space and tag of a queue's tasks (14_queue R323). -/
def qAsid (s : State) (n : Nat) : BitVec 12 := BitVec.ofNat 12 (wbits (qOwner s n) 11 0)
def qTag (s : State) (n : Nat) : STag := BitVec.ofNat 10 (wbits (qOwner s n) 25 16)
def qHostOk (s : State) (n : Nat) : Bool := (qOwner s n).getLsbD 32

/-- The descriptor's address (14_queue R323). -/
def qDescVa (s : State) (n : Nat) : Nat := wbits (qDescWord s n) 55 6 * 64

/-- The agent that reads and writes a queue's descriptor and rings: under the queue's ASID and tag (14_queue R324, R330), with
the rights of the supervisor (DEDUCED, log 10), through no TLB slice. -/
def qAgent (s : State) (n : Nat) : Agent :=
  { slice := noSlice, asid := qAsid s n, level := .supervisor, tag := qTag s n, cluster := 0 }

/-- Fields of a queue descriptor's sixteen words (14_queue R324). -/
def dBase (d : List Word) : Nat := (wordAt d 0).toNat
def dNent (d : List Word) : Nat := wbits (wordAt d 1) 31 0
def dPrio (d : List Word) : Nat := wbits (wordAt d 1) 35 32
def dWeight (d : List Word) : Nat := wbits (wordAt d 1) 47 40
def dPool (d : List Word) : Nat := wbits (wordAt d 1) 50 48
def dEn (d : List Word) : Bool := (wordAt d 1).getLsbD 56
def dDev (d : List Word) : Bool := (wordAt d 1).getLsbD 57
def dHead (d : List Word) : Nat := (wordAt d 2).toNat
def dTail (d : List Word) : Nat := (wordAt d 3).toNat
def dSpill (d : List Word) : Nat := (wordAt d 4).toNat
def dSnent (d : List Word) : Nat := wbits (wordAt d 5) 31 0
def dShead (d : List Word) : Nat := (wordAt d 6).toNat
def dStail (d : List Word) : Nat := (wordAt d 7).toNat
def dCsaPool (d : List Word) : Nat := (wordAt d 8).toNat
def dNcsa (d : List Word) : Nat := wbits (wordAt d 9) 31 0
def dVcfg (d : List Word) : Nat := wbits (wordAt d 9) 47 32
def dNlg (d : List Word) : Nat := wbits (wordAt d 9) 55 48
def dAccRows (d : List Word) : Nat := wbits (wordAt d 9) 63 56
def dStack (d : List Word) : Word := wordAt d 10
def dSstride (d : List Word) : Word := wordAt d 11

/-- Whether a number is a power of two from 16 to 65,536 (14_queue R324). -/
def ringSizeOk (n : Nat) : Bool := (List.range 13).any fun i => n == 2 ^ (i + 4)

/-- Whether a number of lane groups is 0, 1, 2, 4 or 8 (12_kernel R299; 14_queue R324). -/
def nlgOk (n : Nat) : Bool := n == 0 || n == 1 || n == 2 || n == 4 || n == 8

/-- Whether a descriptor meets the table of R324. -/
def descOk (d : List Word) : Bool :=
  dBase d % 64 == 0 && ringSizeOk (dNent d) && wbits (wordAt d 1) 39 36 == 0 && decide (1 ≤ dWeight d) &&
  wbits (wordAt d 1) 55 51 == 0 && wbits (wordAt d 1) 63 58 == 0 && dSpill d % 64 == 0 &&
  (dSnent d == 0 || ringSizeOk (dSnent d)) && wbits (wordAt d 5) 63 32 == 0 && dCsaPool d % 4096 == 0 &&
  decide (1 ≤ dNcsa d ∧ dNcsa d ≤ 65536) && decide (dVcfg d < 2 ^ 14) && nlgOk (dNlg d) && decide (dAccRows d ≤ 128) &&
  decide (16 ≤ (dSstride d).toNat) && (dSstride d).toNat % 16 == 0 && wordAt d 14 == 0 && wordAt d 15 == 0

/-- The words of a queue's descriptor that can be read, whether or not they break the table of R324 (14_queue R324). -/
def descWords (s : State) (n : Nat) : Except QueueFail (List Word) :=
  if qEntryOk s n = false then .error .noEntry
  else
    match probeRange s (qAgent s n) .read (qDescVa s n) 128 with
    | m :: _ => .error (.unreadable m)
    | [] =>
      if (vPoison s (qAgent s n) (qDescVa s n) 128).isNone then .ok (wordsOfBytes (vRead s (qAgent s n) (qDescVa s n) 128))
      else .error .broken

/-- The descriptor of a queue, read afresh (14_queue R324). -/
def readDesc (s : State) (n : Nat) : Except QueueFail (List Word) :=
  match descWords s n with
  | .error f => .error f
  | .ok d => if descOk d then .ok d else .error .broken

/-- The failing page of a word of a queue's descriptor that the device is to write, if there is one (DESIGN CHOICE, log 84). -/
def descLocked (s : State) (n off : Nat) : Option Miss := (probeRange s (qAgent s n) .write (qDescVa s n + off) 8).head?

/-- The state with a word of a queue's descriptor written by the device (14_queue R324). -/
def descPut (s : State) (n off : Nat) (v : Nat) : State :=
  vWrite s (qAgent s n) (qDescVa s n + off) (leBytes 8 v) none

/-- Push a record into the ring or the spill area (14_queue R339): the status 0 ring, 1 spill, 2 full, 3 unavailable. An entry or a
count that cannot be written makes the queue unavailable (DESIGN CHOICE, log 84). -/
def pushWith (s : State) (n : Nat) (d : List Word) (rec : List Byte) : Nat × State :=
  let ringVa := dBase d + 64 * (dTail d % dNent d)
  let spillVa := dSpill d + 64 * (dStail d % dSnent d)
  if dTail d - dHead d < dNent d ∧ dStail d = dShead d then
    if (probeRange s (qAgent s n) .write ringVa 64).isEmpty && (descLocked s n 0x18).isNone then
      (0, descPut (vWrite s (qAgent s n) ringVa rec none) n 0x18 (dTail d + 1))
    else (3, s)
  else if dStail d - dShead d < dSnent d then
    if (probeRange s (qAgent s n) .write spillVa 64).isEmpty && (descLocked s n 0x38).isNone then
      (1, descPut (vWrite s (qAgent s n) spillVa rec none) n 0x38 (dStail d + 1))
    else (3, s)
  else (2, s)

/-- A queue tries again at each later doorbell write, push or completion (14_queue R324). -/
def wakeQueue (s : State) (n : Nat) : State := s.setQueue n { s.queue n with waits := false }

/-- The lowest error record from 1 to 4,094 that is not in use; 4,095 when none is (19_shroud R414). -/
def freeRecord (s : State) : Nat :=
  match (List.range 4094).find? fun i => match tabFind s.errors (i + 1) with | some r => !r.hdr.getLsbD 63 | none => true with
  | some i => i + 1
  | none => 4095

/-- The HDR word of a record (19_shroud R415). -/
def eventHdr (e : Event) (notask : Bool) (count : Nat) : Word :=
  BitVec.ofNat 64 (2 ^ 63 + (if e.held then 2 ^ 62 else 0) + (if notask then 2 ^ 61 else 0) + e.cause % 256 * 2 ^ 48 +
    e.kind % 256 * 2 ^ 40 + count % 2 ^ 32)

/-- The other words of a record (19_shroud R415). -/
def eventRec (e : Event) (notask : Bool) (count : Nat) (time : Word) : ErrRec :=
  { hdr := eventHdr e notask count, time := time,
    unit := BitVec.ofNat 64 (e.sub + e.unitClass * 2 ^ 8 + e.unitIndex * 2 ^ 16), addr := BitVec.ofNat 64 e.addr,
    victim := e.victim, slot := match e.slot with | some q => BitVec.ofNat 64 (2 ^ 63 + q) | none => 0,
    pc := if e.slot.isSome then e.pc else 0, detail := e.detail }

/-- The TYPE 1 task record that signals an error record (19_shroud R416; 14_queue R327). -/
def errorTask (s : State) (i : Nat) : List Byte :=
  bytesOfWords [1, s.errEntry, BitVec.ofNat 64 i, 0, 0, 0, 0, 0]

/-- The pager ring descriptor of an ASID (11_page R278, R293): its key, when there is one. -/
def pagerKey (s : State) (asid : BitVec 12) : Option Nat :=
  if asidOk s asid && physWord s (asidEntry s asid + 8) != 0 then
    some (keyOfPa s (physWord s (asidEntry s asid + 8)).toNat)
  else none

/-- Post a pager request (11_page R293): its ADDR, size code and kind. A full ring drops it and counts it in LOST. -/
def pagerPost (s : State) (asid : BitVec 12) (addr size kind : Nat) : State :=
  match pagerKey s asid with
  | none => s
  | some k =>
    let nent := physLE s (k + 8) 8
    let prod := physLE s (k + 16) 8
    let cons := physLE s (k + 24) 8
    if prod - cons = nent ∨ nent = 0 then physPutLE s (k + 32) 8 ((physLE s (k + 32) 8 + 1) % 2 ^ 64)
    else
      let e := keyOfPa s (physLE s k 8) + 16 * (prod % nent)
      let s1 := physPutLE s e 8 (addr / 4096 * 4096 + size * 256 + kind)
      let s2 := physPutLE s1 (e + 8) 8 (asid.toNat * 2 ^ 52)
      physPutLE s2 (k + 16) 8 ((prod + 1) % 2 ^ 64)

/-- The push of an error task (19_shroud R416): whether it was pushed, and how the queue's descriptor failed, if it did. -/
def pushErrorTask (s : State) (i : Nat) : Bool × Option QueueFail × State :=
  let n := s.errq.toNat % 4096
  if s.errq.getLsbD 63 = false then (false, none, s)
  else
    match readDesc s n with
    | .error f => (false, some f, s)
    | .ok d =>
      if dDev d && dEn d then
        let r := pushWith s n d (errorTask s i)
        (r.1 < 2, none, wakeQueue r.2 n)
      else (false, none, s)

/-- MSI-X messages on the host ports whose link is up (20_link R423) (DEDUCED, log 50). -/
def raiseMsix (s : State) (vector : Nat) : State :=
  { s with msix := s.msix ++ (([0, 3].filter fun p => !s.hostDown.contains p).map fun p => (p, vector)) }

/-- Write an error record and signal it (19_shroud R414, R416); its TIME is a free value (log 7). The result names the record,
and tells how the error queue's descriptor failed, if it did. -/
def writeRecord (s : State) (e : Event) : Nat × Option QueueFail × State :=
  let i := freeRecord s
  let r := drawFree s
  let count := match tabFind s.errors i with | some old => if i = 4095 then wbits old.hdr 31 0 + 1 else 1 | none => 1
  let s1 := { r.2 with errors := tabSet r.2.errors i (eventRec e false count r.1) }
  let p := pushErrorTask s1 i
  let s2 := if p.1 then p.2.2 else { p.2.2 with errors := tabSet p.2.2.errors i (eventRec e true count r.1) }
  (i, p.2.1, raiseMsix s2 0)

/-- The event of an unusable queue (14_queue R324): KIND 0x0B of the queue unit, whose index is the queue's number (DESIGN CHOICE,
log 85). -/
def queueEvent (n : Nat) : Event :=
  { kind := 0x0B, cause := 0, held := false, unitClass := 16, unitIndex := n, sub := 0, addr := 0, victim := 0, slot := none,
    pc := 0, detail := 0 }

/-- Count one failure of a queue in ERRCNT, if it can be written (14_queue R324). -/
def countErr (s : State) (n : Nat) : State :=
  if qEntryOk s n && (descLocked s n 0x68).isNone && (probeRange s (qAgent s n) .read (qDescVa s n + 0x68) 8).isEmpty then
    let v := leNat (vRead s (qAgent s n) (qDescVa s n + 0x68) 8)
    descPut s n 0x68 ((v + 1) % 2 ^ 64)
  else s

/-- The failure of a queue (14_queue R324): what a translation fails on becomes a pager request of kind 0 under the queue's ASID each time, and the
failure is counted once until a take succeeds; whether it is to be recorded. Nothing is asked of a queue without a valid table entry. -/
def queueFailing (s : State) (n : Nat) (f : QueueFail) : State × Bool :=
  let s1 := s.setQueue n { s.queue n with waits := true }
  match f with
  | .noEntry => (s, false)
  | .unreadable m =>
    let s2 := if m.why = 0 then pagerPost s1 (qAsid s1 n) m.page m.size 0 else s1
    if (s.queue n).failed then (s2, false) else (countErr (s2.setQueue n { s2.queue n with failed := true }) n, true)
  | .broken => if (s.queue n).failed then (s1, false) else (countErr (s1.setQueue n { s1.queue n with failed := true }) n, true)

/-- Error record of an event. Where the error queue cannot be used its failure is handled as that of any queue (14_queue R324, R339; 19_shroud
R416). -/
def recordEvent (s : State) (e : Event) : Nat × State :=
  let r := writeRecord s e
  let n := s.errq.toNat % 4096
  match r.2.1 with
  | some f =>
    let x := queueFailing r.2.2 n f
    (r.1, if x.2 then (writeRecord x.1 (queueEvent n)).2.2 else x.1)
  | none => (r.1, r.2.2)

/-- Handle a queue that cannot be used (14_queue R324, R330), with its error record. -/
def queueFailed (s : State) (n : Nat) (f : QueueFail) : State :=
  let x := queueFailing s n f
  if x.2 then (recordEvent x.1 (queueEvent n)).2 else x.1

end Sys2Proof.Machine
end

