-- ==== Sys2Proof/Machine/Tasks.lean ====
section
/-! DEFINITION. Futures and the device's fills of them (15_barrier R351 to R355), the completion of tasks (14_queue R331, R333) and
the end of kernels (12_kernel R303, R306). -/

namespace Sys2Proof.Machine

/-- STATE and HEAD of a future's state word, and whether its reserved bits are zero (15_barrier R351). -/
def futState (w : Word) : Nat := wbits w 63 62
def futHead (w : Word) : Word := w &&& 0x00FFFFFFFFFFFFC0#64
def futReserved (w : Word) : Bool := wbits w 61 56 != 0 || wbits w 5 0 != 0

/-- Begin the walk of the continuations from a record (15_barrier R354); address 0 is no walk. -/
def startWalk (s : State) (ag : Agent) (head : Word) (value : Word) (p : Option PTag) (fut : Word) : State :=
  if head = 0 then s
  else
    { s with
      walkers := tabSet s.walkers s.nextOp ⟨head, ag.asid, ag.level, ag.tag, ag.cluster, value, p, fut, false, none⟩
      nextOp := s.nextOp + 1 }

/-- The event of a failed device fill or of a walk cut short (15_barrier R354): KIND 0x0A of the queue unit, index 0 (DESIGN CHOICE,
log 85). -/
def fillEvent (pa : Nat) : Event :=
  { kind := 0x0A, cause := 0, held := false, unitClass := 16, unitIndex := 0, sub := 0, addr := pa, victim := 0, slot := none,
    pc := 0, detail := 0 }

/-- The agent of a device fill, a walk or an engine task (15_barrier R354; 14_queue R333): an address space and tag at user level. -/
def deviceAgent (asid : BitVec 12) (tag : STag) : Agent :=
  { slice := noSlice, asid := asid, level := .user, tag := tag, cluster := 0 }

/-- The state with a future filled (15_barrier R354): value, then STATE FULL and HEAD 0, and the walk begun. -/
def fillFuture (s : State) (ag : Agent) (fut : Word) (value : Word) (p : Option PTag) : State :=
  let head := futHead (BitVec.ofNat 64 (leNat (vReadAs s ag .write fut.toNat 8)))
  let s1 := vWrite s ag fut.toNat (leBytes 8 (2 ^ 62) ++ leBytes 8 value.toNat) p
  startWalk s1 ag head value p fut

/-- Whether the only poison of a pair's granule is that of its value, which a fill wrote poisoned, and the tag (15_barrier R353, R354;
DESIGN CHOICE, log 75). -/
def valuePoison (s : State) (key : Nat) (p : Option PTag) : Bool := p.isSome && tabFind s.futPoison key == p

/-- The device's fill of a task's or kernel's DONE future at a place that it can reach (15_barrier R354): a pair that is misaligned,
unreachable, poisoned or not EMPTY is left alone under an error record. -/
def deviceFillNow (s : State) (ag : Agent) (fut : Word) (value : Word) : State :=
  if fut.toNat % 16 ≠ 0 ∨ (probeRange s ag .write fut.toNat 16) ≠ [] then
    (recordEvent s (fillEvent (mappedKey s ag fut.toNat))).2
  else
    let w := BitVec.ofNat 64 (leNat (vReadAs s ag .write fut.toNat 8))
    let p := vPoisonAs s ag .write fut.toNat 16
    if futState w ≠ 0 ∨ futReserved w = true ∨ (p.isSome ∧ valuePoison s (keyOfVa s ag fut.toNat .write) p = false) then
      (recordEvent s (fillEvent (keyOfVa s ag fut.toNat .write))).2
    else fillFuture s ag fut value none

/-- Whether an address lies in a MIGRATING page that an agent may write (11_page R292). -/
def writeWaits (s : State) (ag : Agent) (va : Nat) : Bool :=
  match checkAddr s ag va .write with
  | .ok h => h.state == 3
  | .error _ => false

/-- Whether the device's fill of a DONE has to wait (11_page R292): its pair lies in a MIGRATING page. -/
def fillWaits (s : State) (ag : Agent) (fut : Word) : Bool := fut != 0 && fut.toNat % 16 == 0 && writeWaits s ag fut.toNat

/-- The device's fill of a task's or kernel's DONE (15_barrier R354): address 0 fills nothing. -/
def deviceFillOnce (s : State) (ag : Agent) (fut : Word) (value : Word) : State := if fut = 0 then s else deviceFillNow s ag fut value

/-- The state with a device fill that waits until a page is no longer MIGRATING (11_page R292), and the task whose completion follows it. -/
def fillLater (s : State) (ag : Agent) (fut : Word) (value : Word) (task : Option (Nat × Nat)) : State :=
  { s with
    walkers := tabSet s.walkers s.nextOp ⟨0, ag.asid, ag.level, ag.tag, ag.cluster, value, none, fut, true, task⟩
    nextOp := s.nextOp + 1 }

/-- The device's fill of a task's or kernel's DONE (15_barrier R354), made now or once its page has left MIGRATING (11_page R292). -/
def deviceFill (s : State) (ag : Agent) (fut : Word) (value : Word) : State :=
  if fillWaits s ag fut then fillLater s ag fut value none else deviceFillOnce s ag fut value

/-- Fields of a task record's eight words (14_queue R327). -/
def recType (r : List Word) : Nat := wbits (wordAt r 0) 7 0
def recNpred (r : List Word) : Nat := wbits (wordAt r 0) 15 8
def recSucc0 (r : List Word) : Nat := wbits (wordAt r 0) 23 16
def recSucc1 (r : List Word) : Nat := wbits (wordAt r 0) 31 24
def recNw (r : List Word) : Nat := wbits (wordAt r 0) 63 56
def recEntry (r : List Word) : Word := wordAt r 1
def recArg (r : List Word) : Word := wordAt r 2
def recDone (r : List Word) : Word := wordAt r 3

/-- Whether an operand range is well formed (14_queue R328). -/
def rangeOk (w : Word) : Bool :=
  if wbits w 63 62 = 0 then w == 0
  else decide (6 ≤ wbits w 61 56 ∧ wbits w 61 56 ≤ 56) && wbits w 55 0 % 2 ^ wbits w 61 56 == 0

/-- Whether the op of a TYPE 3, 4 or 5 task is one of that type's range (14_queue R327; 03_encoding R71). -/
def taskOpOk (ty op : Nat) : Bool :=
  match ty with
  | 3 => decide (op ≤ 5)
  | 4 => decide (0x10 ≤ op ∧ op ≤ 0x13)
  | _ => decide (0x20 ≤ op ∧ op ≤ 0x22)

/-- The checks of a task record by the offset of each field (14_queue R327, R328): the first that fails names the offset. -/
def recordBadField (r : List Word) : Option Nat :=
  let ty := recType r
  let checks : List (Nat × Bool) :=
    [(0x00, decide (1 ≤ ty ∧ ty ≤ 7)), (0x02, decide (recSucc0 r ≤ 63)), (0x03, decide (recSucc1 r ≤ 63)),
     (0x04, wbits (wordAt r 0) 55 32 == 0), (0x07, if ty = 6 then decide (1 ≤ recNw r ∧ recNw r ≤ 64) else recNw r == 0),
     (0x08, if ty = 1 ∨ ty = 6 then (recEntry r).toNat % 4 == 0 else true),
     (0x10, if ty = 2 then wbits (recArg r) 63 1 == 0
       else if 3 ≤ ty ∧ ty ≤ 5 then wbits (recArg r) 63 6 == 0 && taskOpOk ty (recArg r).toNat
       else if ty = 7 then recArg r == 0 else true),
     (0x18, (recDone r).toNat % 16 == 0), (0x20, rangeOk (wordAt r 4)), (0x28, rangeOk (wordAt r 5)),
     (0x30, rangeOk (wordAt r 6)), (0x38, rangeOk (wordAt r 7))]
  (checks.find? fun c => !c.2).map (·.1)

/-- Whether two operand ranges conflict (14_queue R328). -/
def rangesConflict (a b : Word) : Bool :=
  let am := wbits a 63 62
  let bm := wbits b 63 62
  am != 0 && bm != 0 && (am.testBit 1 || bm.testBit 1) &&
  decide (wbits a 55 0 < wbits b 55 0 + 2 ^ wbits b 61 56) && decide (wbits b 55 0 < wbits a 55 0 + 2 ^ wbits a 61 56)

/-- Whether two records have conflicting ranges (14_queue R331). -/
def recordsConflict (a b : List Word) : Bool :=
  (a.drop 4).any fun x => (b.drop 4).any fun y => rangesConflict x y

/-- Whether a task is eligible (14_queue R331). -/
def taskEligible (s : State) (t : Task) : Bool :=
  t.npred == 0 &&
  !(s.tasks.any fun u => u.queue == t.queue && decide (u.pos < t.pos) && recordsConflict u.words t.words)

/-- The state with one task replaced. -/
def setTask (s : State) (t : Task) : State :=
  { s with tasks := s.tasks.map fun u => if u.queue = t.queue ∧ u.pos = t.pos then t else u }

/-- The task at a position of a queue. -/
def findTask (s : State) (queue pos : Nat) : Option Task := s.tasks.find? fun t => t.queue == queue && t.pos == pos

/-- The pending predecessor count of a task falls by one (14_queue R331); the decrement is held for a task that has not yet been taken,
and lost on one that is complete. -/
def decPred (s : State) (queue pos : Nat) : State :=
  match findTask s queue pos with
  | some t => setTask s { t with npred := t.npred - 1 }
  | none =>
    if pos < (s.queue queue).taken then s
    else s.setQueue queue { s.queue queue with heldDec := pos :: (s.queue queue).heldDec }

/-- The decrements of a completed task's successors (14_queue R331). -/
def decSuccessors (s : State) (queue pos : Nat) (r : List Word) : State :=
  let s1 := if recSucc0 r = 0 then s else decPred s queue (pos + recSucc0 r)
  if recSucc1 r = 0 then s1 else decPred s1 queue (pos + recSucc1 r)

/-- Increment a queue's DONECNT, if it can be written (14_queue R333). -/
def countDone (s : State) (n : Nat) : State :=
  if qEntryOk s n && (probeRange s (qAgent s n) .update (qDescVa s n + 0x60) 8).isEmpty then
    descPut s n 0x60 ((leNat (vRead s (qAgent s n) (qDescVa s n + 0x60) 8) + 1) % 2 ^ 64)
  else s

/-- A resume entry for an image that becomes READY (10_context R252; 13_group R316), with the weight that its work was taken with
(14_queue R324, R335). -/
def resumeEntry (im : Image) (prio : Nat) (blocked : Bool) : PoolEntry :=
  { die := dieOf im.slot, kind := .resume im.csa im.asid, prio := prio, source := im.ctx.source, weight := im.ctx.weight, tag := im.tag,
    core := (match im.ctx.work with
      | .leaf _ _ => some (coreOf im.slot)
      | _ => if im.ctx.sibling || im.ctx.siblings != 0 then some (coreOf im.slot) else none),
    slot := if im.held then some im.slot else none, start := [], blocked := blocked }

/-- Whether the instruction at an image's PC is a BARW (15_barrier R350), as the context would fetch it. -/
def imageAtBarw (s : State) (im : Image) : Bool :=
  let pc := physLE s (im.key + 0x10) 8
  let ag : Agent :=
    { deviceAgent (BitVec.ofNat 12 (physLE s (im.key + 0x40 + 13 * 8) 8)) 0 with level := .supervisor, cluster := clusterOf im.slot }
  match checkAddr s ag pc .fetch with
  | .ok h => physLE s h.key 4 / 2 ^ 26 == 0x1D && physLE s h.key 4 / 2 ^ 8 % 64 == 0x0A
  | .error _ => false

/-- Whether a saved image is blocked at a barrier (15_barrier R350): its PC is a BARW, or its queue holds an unfired marker. -/
def imageBlocked (s : State) (im : Image) : Bool :=
  imageAtBarw s im ||
  let nvq := wbits (physWord s (im.key + 0x18)) 33 28
  (List.range nvq).any fun i => physLE s (im.key + 0x3C0 + 48 * i + 0x12) 2 == 2 && physLE s (im.key + 0x3C0 + 48 * i + 0xC) 2 == 0

/-- The PRIO saved in an image (10_context R253). -/
def imagePrio (s : State) (key : Nat) : Nat := physLE s (key + 0x40 + 15 * 8) 1 % 16

/-- The state with the image of a CSA made READY (10_context R252). -/
def readyImage (s : State) (im : Image) : State :=
  { s with
    images := s.images.map fun x => if x.csa = im.csa ∧ x.asid = im.asid then { x with parked := false } else x
    pool := s.pool ++ [resumeEntry im (imagePrio s im.key) (imageBlocked s im)] }

/-- A task that is complete or cancelled no longer counts among the remap tasks of a mesh (16_mesh R363). -/
def dropRemap (s : State) (queue pos : Nat) : State :=
  { s with meshes := s.meshes.map fun e => (e.1, { e.2 with pending := e.2.pending.filter fun p => p != (queue, pos) }) }

/-- What follows the fill of a complete task's DONE (14_queue R333): it is taken off the list, DONECNT counted, its successors decremented. -/
def afterFill (s : State) (queue pos : Nat) : State :=
  match findTask s queue pos with
  | none => s
  | some t =>
    let s1 := dropRemap { s with tasks := s.tasks.filter fun u => !(u.queue == queue && u.pos == pos) } queue pos
    wakeQueue (decSuccessors (countDone s1 queue) queue pos t.words) queue

/-- The completion of a task (14_queue R333): DONE is filled, then the rest follows. While DONE's page is MIGRATING both wait, and the task with
no worker left stays on the list (11_page R292). -/
def completeTask (s : State) (queue pos : Nat) (value : Word) : State :=
  match findTask s queue pos with
  | none => s
  | some t =>
    let ag := deviceAgent t.asid t.tag
    if fillWaits s ag (recDone t.words) then
      fillLater (setTask s { t with st := .active 0 0 }) ag (recDone t.words) value (some (queue, pos))
    else afterFill (deviceFillOnce s ag (recDone t.words) value) queue pos

/-- A TYPE 7 task at its eligibility (14_queue R333): its PARKED context becomes READY; DONE 1 when there is none. -/
def resumeTask (s : State) (t : Task) : State :=
  match s.images.find? fun im => im.csa == recEntry t.words && im.asid == t.asid && im.parked with
  | some im => completeTask (readyImage s im) t.queue t.pos 0
  | none => completeTask s t.queue t.pos 1

/-- The number of entries of a die's ready pool (14_queue R334). -/
def poolCount (s : State) (d : Nat) : Nat := (s.pool.filter fun e => e.die == d).length

/-- The workers that a task's contexts or its one command come to (14_queue R333). -/
def workersOf (t : Task) : Nat := if recType t.words = 6 then recNw t.words else 1

/-- Whether the entries of an eligible task fit its die's pool beside the places that resume entries and continuations need (14_queue
R334) (DESIGN CHOICE, log 86). -/
def poolTakes (s : State) (t : Task) : Bool := recType t.words == 7 || decide (poolCount s t.die + workersOf t ≤ 3072)

/-- The pool entries of an eligible task (14_queue R333, R334): one for each worker. -/
def taskEntries (t : Task) : List PoolEntry :=
  List.replicate (workersOf t)
    { die := t.die, kind := .task t.queue t.pos, prio := t.prio, source := .queue t.queue, weight := t.weight, tag := t.tag,
      core := none, slot := none, start := [], blocked := false }

/-- Make the first waiting task that is eligible and has room active (14_queue R331, R334), as often as the fuel says. -/
def admitTasks : Nat → State → State
  | 0, s => s
  | n + 1, s =>
    match s.tasks.find? fun t => t.st == .waiting && taskEligible s t && poolTakes s t with
    | none => s
    | some t =>
      if recType t.words = 7 then admitTasks n (resumeTask s t)
      else
        let s1 := setTask s { t with st := .active (workersOf t) (workersOf t) }
        admitTasks n { s1 with pool := s1.pool ++ taskEntries t }

/-- Every task that has become eligible enters its pool, as far as there is room (14_queue R331, R334). -/
def admitTop (s : State) : State := admitTasks (s.tasks.length + 1) s

/-- A task's completion, with the tasks that it makes eligible (14_queue R331, R333). -/
def finishTask (s : State) (queue pos : Nat) (value : Word) : State := admitTop (completeTask s queue pos value)

/-- One worker of a task has ended (14_queue R333): the last one completes the task with its value. -/
def workerDone (s : State) (queue pos : Nat) (value : Word) : State :=
  match findTask s queue pos with
  | some t =>
    match t.st with
    | .active a (n + 2) => setTask s { t with st := .active a (n + 1) }
    | _ => finishTask s queue pos value
  | none => s

/-- A shroud kill cancels a task (14_queue R333): DONE is filled without release, and the successors are decremented. -/
def cancelTask (s : State) (t : Task) : State :=
  let s1 := dropRemap { s with
    tasks := s.tasks.filter fun u => !(u.queue == t.queue && u.pos == t.pos)
    walkers := s.walkers.filter fun w => w.2.task != some (t.queue, t.pos) } t.queue t.pos
  wakeQueue (decSuccessors (deviceFill s1 (deviceAgent t.asid t.tag) (recDone t.words) 0xFFFFFFFFFFFFFFFE#64) t.queue t.pos t.words) t.queue

/-- Fields of a launch record's 32 words (12_kernel R299, R300). -/
def kNlev (r : List Word) : Nat := wbits (wordAt r 0) 23 16
def kPrio (r : List Word) : Nat := wbits (wordAt r 0) 27 24
def kCscope (r : List Word) : Nat := wbits (wordAt r 0) 34 32
def kAnchor (r : List Word) : Nat := wbits (wordAt r 0) 42 40
def kEntry (r : List Word) : Word := wordAt r 1
def kArg (r : List Word) : Word := wordAt r 2
def kDone (r : List Word) : Word := wordAt r 3
def kCsaPool (r : List Word) : Word := wordAt r 4
def kNcsa (r : List Word) : Nat := wbits (wordAt r 5) 31 0
def kStack (r : List Word) : Word := wordAt r 6
def kSstride (r : List Word) : Word := wordAt r 7
def kVcfg (r : List Word) : Nat := wbits (wordAt r 8) 15 0
def kNlg (r : List Word) : Nat := wbits (wordAt r 8) 23 16
def kAccRows (r : List Word) : Nat := wbits (wordAt r 8) 31 24
def kExtent (r : List Word) (l : Nat) : Nat := wbits (wordAt r (16 + 2 * l)) 31 0
def kDomain (r : List Word) (l : Nat) : Nat := wbits (wordAt r (16 + 2 * l)) 34 32
def kScope (r : List Word) (l : Nat) : Nat := wbits (wordAt r (16 + 2 * l)) 42 40
def kGang (r : List Word) (l : Nat) : Bool := (wordAt r (16 + 2 * l)).getLsbD 48

/-- Whether the innermost level is a LANE level (12_kernel R301). -/
def kHasLane (r : List Word) : Bool := kDomain r (kNlev r - 1) == 0

/-- The leaf level, the SEQ level (12_kernel R301). -/
def kLeafLevel (r : List Word) : Nat := if kHasLane r then kNlev r - 2 else kNlev r - 1

/-- The number of leaf groups: the product of the extents down to the leaf level (12_kernel R301). -/
def kLeaves (r : List Word) : Nat := (List.range (kLeafLevel r + 1)).foldl (fun n l => n * kExtent r l) 1

/-- The kernels with those that a kernel has launched marked as having lost their parent (12_kernel R303). -/
def orphanChildren (ks : Tab Kernel) (k : Nat) : Tab Kernel :=
  ks.map fun e => (e.1, match e.2.parent with | some (p, _) => if p = k then { e.2 with orphaned := true } else e.2 | none => e.2)

/-- The writes to other packages that no ACK covers yet, when a kernel ends (12_kernel R306): they pass to its parent, whose completion covers its
descendants' too. -/
def passWrites (sent : List Sent) (k : Nat) (x : Kernel) : List Sent :=
  let heir : Home := match x.parent with
    | some (p, i) => if x.orphaned then .gone else .ended p i none
    | none => .gone
  sent.map fun e => match e.home with
    | .ended k' _ _ => if k' = k then { e with home := heir } else e
    | _ => e

/-- A kernel ends with a status (12_kernel R303, R306): DONE is filled and its identifier freed. Kernels that its leaf groups launched
and that have not ended have no parent from then on. -/
def endKernel (s : State) (k : Nat) (status : Nat) : State :=
  match tabFind s.kernels k with
  | none => s
  | some x =>
    deviceFill { s with kernels := orphanChildren (tabDel s.kernels k) k, sent := passWrites s.sent k x }
      (deviceAgent x.asid x.tag) (kDone x.words) (BitVec.ofNat 64 status)

end Sys2Proof.Machine
end

