-- ==== Sys2Proof/Machine/Leaves.lean ====
section
/-! DEFINITION. The homes of operations in flight (10_context R256) and the end of leaf groups (13_group R312; 12_kernel R305). -/

namespace Sys2Proof.Machine

/-- The image that counts an operation of a home, by its key (10_context R256; 12_kernel R305). -/
def Home.inImage : Home → Option Nat
  | .image k => some k
  | .ended _ _ i => i
  | .slot _ | .gone => none

/-- Whether an operation of a home holds back a leaf group that is ending (13_group R312). -/
def Home.holds (h : Home) (k i : Nat) : Bool :=
  match h with
  | .ended k' i' _ => k' == k && i' == i
  | _ => false

/-- Operations in flight of one home move to another (10_context R256). -/
def moveHome (s : State) (a b : Home) : State :=
  { s with
    stores := s.stores.map fun x => if x.home = a then { x with home := b } else x
    copies := s.copies.map fun x => if x.2.home = a then (x.1, { x.2 with home := b }) else x
    cmds := s.cmds.map fun x => if x.2.home = a then (x.1, { x.2 with home := b }) else x
    sent := s.sent.map fun x => if x.home = a then { x with home := b } else x }

/-- CSTAT.VALID := 0 in the image at a key (10_context R254). Nothing is known any more of what it holds but its bytes. -/
def invalidateImage (s : State) (key : Nat) : State :=
  { physPut s (key + 0x18) (physWord s (key + 0x18) &&& ~~~(0x0800000000000000#64)) with saved := tabDel s.saved key }

/-- The leaf group of a kernel at a linear index, while it is live. -/
def findLeaf (s : State) (k i : Nat) : Option (Kernel × Leaf) :=
  match tabFind s.kernels k with
  | none => none
  | some x => (x.leaves.find? fun l => l.index == i).map fun l => (x, l)

/-- The leaf group of a kernel with a leaf changed. -/
def setLeaf (s : State) (k : Nat) (i : Nat) (f : Leaf → Leaf) : State :=
  match tabFind s.kernels k with
  | none => s
  | some x => { s with kernels := tabSet s.kernels k { x with leaves := x.leaves.map fun l => if l.index = i then f l else l } }

/-- Whether a pool entry works for a leaf group (13_group R312). -/
def entryOfLeaf (s : State) (k i : Nat) (e : PoolEntry) : Bool :=
  match e.kind with
  | .leaf k' i' => k' == k && i' == i
  | .cont w _ _ _ _ _ => w == .leaf k i
  | .sibling _ _ _ => e.source == .kernel k && (e.start.getD 70 SReg.zero).val == BitVec.ofNat 64 i
  | .resume c a => s.images.any fun im => im.csa == c && im.asid == a && im.ctx.work == .leaf k i
  | .task _ _ => false

/-- A context of an ending leaf group that rests in its image ends there (12_kernel R305): its operations in flight, which the image goes on
counting, hold the group back, and the lane groups that were held for it and its accumulator rows stay held. -/
def endImage (s : State) (k i : Nat) (im : Image) : State :=
  let s1 := moveHome (invalidateImage s im.key) (.image im.key) (.ended k i (some im.key))
  let own : Kept :=
    ⟨if im.held then some im.slot else none, coreOf im.slot, if im.held then im.laneBase else 0, if im.held then im.laneCount else 0,
      im.accBase.toNat, im.accLim.toNat⟩
  let forks : List Kept := im.ctx.children.map fun c => ⟨none, coreOf im.slot, c.laneBase, c.laneCount, 0, 0⟩
  setLeaf s1 k i fun l => { l with kept := l.kept ++ own :: forks.filter fun c => c.laneCount != 0 }

/-- A leaf group becomes ENDING (13_group R312; 12_kernel R305): its running contexts are to end at their next landing points, those
in images end where they rest, and its pool entries are discarded. -/
def endLeaf (s : State) (k i : Nat) : State :=
  let mine := fun (c : Ctx) => c.work == .leaf k i
  let s1 := { setLeaf s k i (fun l => { l with st := .ending }) with
    pool := s.pool.filter fun e => !entryOfLeaf s k i e
    slots := s.slots.map fun e => if e.2.st ≠ .free ∧ mine e.2.ctx = true then (e.1, { e.2 with ctx := { e.2.ctx with ending := true } }) else e
    images := s.images.filter fun im => !mine im.ctx }
  (s.images.filter fun im => mine im.ctx).foldl (fun st im => endImage st k i im) s1

/-- A context that has ended other than through ERDV (13_group R318): where it was an EFORK sibling, its issuer's leaf group ends. -/
def siblingLost (s : State) (c : Ctx) : State :=
  match c.work with
  | .leaf k i => if c.sibling then endLeaf s k i else s
  | _ => s

end Sys2Proof.Machine
end

