-- ==== Sys2Proof/Machine/Kill.lean ====
section
/-! DEFINITION. The kill of a shroud tag (19_shroud R407, R408), the end of a single tag-0 context (R413), and the poison sink
(R412). -/

namespace Sys2Proof.Machine

/-- The event of an end or a kill that concerns a slot (19_shroud R415): class 1, the slot and its program counter. -/
def slotEvent (kind cause q : Nat) (pc : Word) (victim detail : Word) : Event :=
  { kind := kind, cause := cause, held := false, unitClass := 1, unitIndex := q, sub := 0, addr := 0, victim := victim,
    slot := some q, pc := pc, detail := detail }

/-- The VICTIM word: tag killed, ASID, contexts ended (19_shroud R415). -/
def victimWord (tag : STag) (asid : BitVec 12) (ended : Nat) : Word :=
  BitVec.ofNat 64 (tag.toNat + asid.toNat * 2 ^ 16 + ended * 2 ^ 32)

/-- A slot without a context, before it takes one (04_sequencer R80). The registers that belong to the slot stay (10_context R268;
05_vector R121; 19_shroud R418). -/
def Slot.blank (x : Slot) : Slot :=
  { Slot.reset with
    vlcap := x.vlcap, vdirty := x.vdirty, vowner := x.vowner, vuse := x.vuse, faultRec := x.faultRec, rechk := x.rechk }

/-- A slot whose context has ended or left it (04_sequencer R80): FREE, without queues and lane groups. Its registers keep what they hold until
the next context, for which they are loaded (log 38). -/
def Slot.freed (x : Slot) : Slot :=
  { x with
    st := .free, vq := [], laneBase := 0, laneCount := 0, due := none, request := none, ctx := Ctx.none, cnt := ⟨0, 0, 0, 0⟩,
    runPrio := 0, order := 0, charge := 0 }

/-- A port closed (08_stream R202, R217): CLOSED, its status CANCEL. Its status word keeps KIND and POS until the next SOPEN, which alone sets
them (DEDUCED, log 31). -/
def Port.close (x : Port) : Port := { Port.reset with spec := x.spec, pos := x.pos, status := 5 }

/-- The ports of a core that a slot owns become CLOSED (08_stream R202). -/
def closePorts (s : State) (q : Nat) : State :=
  let k := coreOf q
  s.setCore k ((List.range 8).foldl (fun c p =>
    if (c.port p).st ≠ .closed ∧ (c.port p).owner = q then c.setPort p (c.port p).close else c) (s.core k))

/-- The 16 cores of the gang of a core, in gang order (07_tile R187). -/
def gangCores (k : Nat) : List Nat := (List.range 16).map fun g => k / 16 * 16 + g

/-- The tile-queue entries that a slot passed on are discarded, with the parts of gang members (07_tile R184, R187). -/
def dropTiles (s : State) (q : Nat) : State :=
  (gangCores (coreOf q)).foldl (fun st k =>
    if (st.core k).tq.any fun e => e.slot == q then st.setCore k { st.core k with tq := (st.core k).tq.filter fun e => e.slot != q }
    else st) s

/-- The object that a command has claimed and that is still BUSY returns to the state it had (16_mesh R362). -/
def releaseClaim (s : State) (c : Cmd) : State :=
  match c.claim with
  | some (key, st) => if physLE s (key + 2) 1 = 2 then physWrite s (key + 2) [BitVec.ofNat 8 st] none else s
  | none => s

/-- Whether a command is a migration that has begun (11_page R291). -/
def Cmd.migrates (c : Cmd) : Bool := c.kind == .pgmig && c.running

/-- The operations of a context in flight are cancelled (04_sequencer R109; 19_shroud R407): its unperformed stores are never
performed, its copies, prefetches and commands stop before any further write; a migration that has begun runs to its end (11_page R291). An object that a
cancelled command has claimed returns to the state it had (16_mesh R362; 17_partition R381; 18_bucket R392). -/
def cancelOps (s0 : State) (h : Home) : State :=
  let s := s0.cmds.foldl (fun st c => if c.2.home = h ∧ c.2.kind ≠ .pgmig then releaseClaim st c.2 else st) s0
  { s with
    stores := s.stores.filter fun a => a.home != h
    copies := s.copies.filter fun c => c.2.home != h
    cmds := (s.cmds.filter fun c => !(c.2.home == h && !c.2.migrates)).map fun c =>
      if c.2.home = h then (c.1, { c.2 with home := .gone }) else c
    remaps := s.remaps.filter fun r => match tabFind s.cmds r.1 with | some c => c.home != h | none => false
    sent := s.sent.map fun x => if x.home = h then { x with home := .gone } else x }

/-- The key of the CSA that a slot's CSABASE names, when it can be read at supervisor level (10_context R266, R274). -/
def csaKey (s : State) (q : Nat) : Option Nat :=
  let x := s.slot q
  match checkAddr s { scalarAgent s q with level := .supervisor } x.csaBase.toNat .read with
  | .ok h => some h.key
  | .error _ => none

/-- A slot's context ends at once (04_sequencer R80; 19_shroud R407): queues, ports, operations and, for a stopped handler, the
served context's image. -/
def endSlot (s : State) (q : Nat) : State :=
  let s1 := match (s.slot q).mode, csaKey s q with
    | .handler, some k => cancelOps (invalidateImage s k) (.image k)
    | _, _ => s
  let s2 := dropTiles (closePorts (cancelOps s1 (.slot q)) q) q
  let c := s2.core (coreOf q)
  let s3 := s2.setCore (coreOf q) { c with rechecks := c.rechecks.filter fun r => r.slot != q }
  { s3.setSlot q (s3.slot q).blank with klinks := s3.klinks.filter fun k => k.2.slot != q }

/-- The slots whose contexts run under a tag (19_shroud R407). -/
def slotsOfTag (s : State) (tag : STag) : List Nat :=
  (busySlots s).filterMap fun e => if e.2.shtag = tag then some e.1 else none

/-- Zero the scratchpad sectors of a tag and release them (08_stream R225). -/
def zeroSectors (s : State) (tag : STag) : State :=
  (s.sectors.filter fun e => e.2 == tag).foldl (fun st e =>
    { st with
      mem := (st.mem.filter fun c => !(isPad c.1 && sectorOf c.1 == e.1))
      poison := st.poison.filter fun c => !(isPad (c.1 * 64) && sectorOf (c.1 * 64) == e.1)
      sectors := tabSet st.sectors e.1 0 }) s

/-- Clear the accumulator rows of a tag in one core (19_shroud R407): cells zero, EMPTY, E and REEFCNT zero, tag 0. -/
def clearRows (c : Core) (tag : STag) : Core :=
  let rows := (c.rowTag.filter fun e => e.2 == tag).map (·.1)
  { c with
    acc := c.acc.filter fun e => !rows.contains (e.1 / 128)
    seg := c.seg.filter fun e => !rows.contains (e.1 / 4)
    rowTag := c.rowTag.filter fun e => e.2 != tag
    fresh := c.fresh.filter fun e => !(decide (8 ≤ e.1) && rows.contains (e.1 - 8))
    reefLog := c.reefLog.filter fun e => e.2.tag != tag }

/-- The pool entries of a tag leave the pool; the CSA of a discarded resume entry is no longer VALID (19_shroud R407). -/
def dropEntries (s : State) (tag : STag) : State :=
  let s1 := s.images.foldl (fun st im => if im.tag = tag ∧ im.parked = false then invalidateImage st im.key else st) s
  { s1 with
    pool := s1.pool.filter fun e => e.tag != tag
    images := s1.images.filter fun im => im.tag != tag
    saved := (s1.images.filter fun im => im.tag == tag).foldl (fun t im => tabDel t im.key) s1.saved }

/-- The operations in flight of images of a tag, and the engine tasks of its queues, are cancelled (19_shroud R407). -/
def cancelTag (s : State) (tag : STag) : State :=
  { s with
    stores := s.stores.filter fun a => a.tag != tag
    copies := s.copies.filter fun c => c.2.tag != tag
    cmds := (s.cmds.filter fun c => !(c.2.tag == tag && !c.2.migrates)).map fun c =>
      if c.2.tag = tag then (c.1, { c.2 with home := .gone, task := none }) else c
    remaps := s.remaps.filter fun r => match tabFind s.cmds r.1 with | some c => c.tag != tag | none => false }

/-- Whether a port holds an open BUCKET stream of the table whose descriptor stands at a key (18_bucket R392, R401). -/
def Port.streamsTable (s : State) (key : Nat) (x : Port) : Bool :=
  (x.st == .opened || x.st == .bound) && specKind x.spec == 6 &&
  keyOfVa s (kbuAgent s x.owner) (kTable x.spec) .read == key

/-- The open streams of a table end with a status once what they hold is delivered (18_bucket R392): those of a condition. -/
def endStreams (s : State) (key status : Nat) (f : Port → Bool) : State :=
  { s with cores := s.cores.map fun e => (e.1, { e.2 with ports := e.2.ports.map fun p =>
      (p.1, if p.2.streamsTable s key && f p.2 then ({ p.2 with stop := some (status, false), skip := 0, toks := [] } : Port).settle else p.2) }) }

/-- A mesh, partition or bucket table becomes BROKEN, with an error record of KIND 0x09 (16_mesh R362; 17_partition R381;
18_bucket R392): the STATE byte of the descriptor at a key, and the class and index of the unit that held the object. -/
def breakBy (s : State) (cls idx key : Nat) : State :=
  (recordEvent (physWrite (if cls = 7 then endStreams s key 0x15 fun _ => true else s) (key + 2) [3] none)
    { kind := 0x09, cause := 0, held := false, unitClass := cls, unitIndex := idx, sub := 0, addr := key, victim := 0, slot := none,
      pc := 0, detail := 0 }).2

/-- The index of the unit that serves the object of a descriptor (01_anatomy R20): the HOME of a mesh (16_mesh R360) or of a bucket table
(18_bucket R389); 0 for the one trim unit (16_mesh R366). -/
def homeUnit (s : State) (cls key : Nat) : Nat :=
  match cls with
  | 7 => physLE s (key + 0xB) 1
  | 8 => physLE s (key + 7) 1
  | _ => 0

/-- An object becomes BROKEN, its error record naming the unit that serves it. -/
def breakObject (s : State) (cls key : Nat) : State := breakBy s cls (homeUnit s cls key) key

/-- The unit class of a command of major 0x33, by its op (19_shroud R415): topology engine, trim unit or KBU. -/
def cmdClass (k : CmdKind) : Nat :=
  match k with
  | .pgmig => 11
  | .unit op => if op < 0x10 then 8 else if op = 0x10 then 9 else if op < 0x20 then 15 else 7

/-- The objects that commands of a tag hold BUSY, and the bucket tables that it owns, become BROKEN (19_shroud R407); claims of
KSTs are withdrawn (18_bucket R398), and its projection slots become EMPTY (R387). -/
def breakOwned (s : State) (tag : STag) : State :=
  let s1 := s.cmds.foldl (fun st c => match c.2.claim with
    | some (key, _) =>
      if c.2.tag = tag ∧ physLE st (key + 2) 1 = 2 then
        breakBy { st with tables := tabDel st.tables key } (cmdClass c.2.kind) c.2.engine key
      else st
    | none => st) s
  let s2 := s1.tables.foldl (fun st t => if t.2 = tag then breakObject st 7 t.1 else st) s1
  { s2 with
    cmds := s2.cmds.map fun c => if c.2.tag = tag then (c.1, { c.2 with claim := none }) else c
    tables := s2.tables.filter fun t => t.2 != tag
    proj := s2.proj.filter fun e => e.2.tag != tag
    klinks := s2.klinks.filter fun e => e.2.agent.tag != tag }

/-- The kill of a non-zero tag (19_shroud R407), and the number of contexts it ends. -/
def killTag (s : State) (tag : STag) : Nat × State :=
  let qs := slotsOfTag s tag
  let s1 := qs.foldl endSlot (breakOwned s tag)
  let s2 := cancelTag (dropEntries s1 tag) tag
  let s3 := ((s2.tasks.filter fun t => t.tag == tag).foldl cancelTask s2)
  let s4 := (s3.kernels.filter fun e => e.2.tag == tag).foldl (fun st e => endKernel st e.1 1) s3
  let s5 := { s4 with
    tlb := s4.tlb.filter fun e => e.tag != tag
    regions := s4.regions.filter fun e => e.2.tag != tag
    sent := s4.sent.map fun x => if x.tag = tag then { x with home := .gone, tag := 0 } else x
    cores := s4.cores.map fun e => (e.1, clearRows e.2 tag) }
  (qs.length + (s.images.filter fun im => im.tag == tag).length, admitTop (zeroSectors s5 tag))

/-- A rule that kills the shroud of slot q's context (19_shroud R407, R413): its tag, or for tag 0 the context alone. The record names the
instruction at pc, and is written once the kill is complete (DEDUCED, log 78). A leaf group whose EFORK sibling so ends is ending (13_group
R318). -/
def failContextAt (s : State) (q : Nat) (pc : Word) (kind cause : Nat) (detail : Word) : State :=
  let x := s.slot q
  if x.shtag = 0 then (recordEvent (siblingLost (endSlot s q) x.ctx) (slotEvent 0x03 0 q pc (victimWord 0 x.asid 1) 0)).2
  else
    let r := killTag s x.shtag
    (recordEvent r.2 (slotEvent kind cause q pc (victimWord x.shtag x.asid r.1) detail)).2

/-- The kill of the shroud of slot q's context at its program counter. -/
def failContext (s : State) (q kind cause : Nat) (detail : Word) : State := failContextAt s q (s.slot q).pc kind cause detail

/-- The kill of the shroud of the context that slot q's handler serves (10_context R263, R274), whatever tag the handler runs under now (R271). -/
def failServed (s : State) (q kind : Nat) : State :=
  failContext (s.setSlot q { s.slot q with shtag := (s.slot q).servedTag }) q kind 0 0

/-- A poison sink in slot q, of the instruction at pc (19_shroud R412): the record of KIND 0x05 with the consumed tag, and the kill. For tag 0 the
record names no victim, and the end of the context has its own (R413). -/
def sinkAt (s : State) (q : Nat) (pc : Word) (t : PTag) : State :=
  let x := s.slot q
  let detail : Word := BitVec.ofNat 64 t.toNat
  if x.shtag = 0 then
    failContextAt (recordEvent s (slotEvent 0x05 0x18 q pc 0 detail)).2 q pc 0x05 0x18 detail
  else failContextAt s q pc 0x05 0x18 detail

/-- A poison sink of the instruction at slot q's program counter. -/
def sink (s : State) (q : Nat) (t : PTag) : State := sinkAt s q (s.slot q).pc t

/-- Whether a kill of a tag strikes the unit that a freeze holds (21_device R438): it then waits until FREEZE is cleared. -/
def killFrozen (s : State) (tag : STag) : Bool :=
  s.mgmt.frozen &&
    let idx := wbits s.mgmt.rbsel 20 8
    match wbits s.mgmt.rbsel 7 0 with
    | 1 => decide ((s.slot idx).st ≠ .free) && (s.slot idx).shtag == tag
    | 2 | 3 => (busySlots s).any fun e => coreOf e.1 == idx && e.2.shtag == tag
    | 4 => s.sectors.any fun e => e.1 / 16 == idx && e.2 == tag
    | 6 => s.copies.any fun c => c.2.engine == idx && c.2.tag == tag
    | 10 => s.pool.any fun e => e.die == idx && e.tag == tag
    | 16 => s.tasks.any fun t => t.queue == idx && t.tag == tag
    | cls => (s.cmds.any fun c => cmdClass c.2.kind == cls && c.2.engine == idx && c.2.tag == tag) ||
      (cls == 7 && s.claims.any fun k => clusterOf k.2.slot == idx && k.2.agent.tag == tag)

/-- A rule that kills the tag of an operation that runs for a tag and has no slot of its own (19_shroud R409, R413). A kill that strikes a frozen unit
waits for the end of the freeze (21_device R438). -/
def failTag (s : State) (tag : STag) (e : Event) : State :=
  if tag = 0 then (recordEvent s { e with kind := 0x03, cause := 0, victim := 0, detail := 0 }).2
  else if killFrozen s tag then { s with mgmt := { s.mgmt with kills := s.mgmt.kills ++ [(tag, e)] } }
  else
    let r := killTag s tag
    (recordEvent r.2 { e with victim := victimWord tag 0 r.1 }).2

/-- The event of a port or link (19_shroud R415): class 13 with its BAR or class 14. -/
def portEvent (kind cls idx sub addr : Nat) (held : Bool) : Event :=
  { kind := kind, cause := 0, held := held, unitClass := cls, unitIndex := idx, sub := sub, addr := addr, victim := 0, slot := none, pc := 0, detail := 0 }

/-- Whether a slot still runs its context: a sink may have ended it. -/
def slotAlive (s : State) (q : Nat) : Bool := decide ((s.slot q).st ≠ .free)

/-- The slot whose handler serves the context in the image at a key (10_context R252). -/
def servingSlot (s : State) (key : Nat) : Option Nat :=
  ((busySlots s).find? fun e => e.2.mode == .handler && csaKey s e.1 == some key).map (·.1)

/-- A context of tag 0 that rests in the image at a key ends alone (19_shroud R413): its image keeps its bytes without VALID; one in HANDLED takes
its slot with it. -/
def loseImage (s : State) (k : Nat) (e : Event) : State :=
  match servingSlot s k with
  | some q => failContext s q 0x03 0 0
  | none =>
    let lost := s.images.filter fun im => im.key == k
    let s1 := invalidateImage (cancelOps s (.image k)) k
    let s2 := lost.foldl (fun st im => siblingLost st im.ctx)
      { s1 with
        images := s1.images.filter fun im => im.key != k
        pool := s1.pool.filter fun p => !(lost.any fun im => p.kind == .resume im.csa im.asid) }
    (recordEvent s2 { e with kind := 0x03, cause := 0, victim := victimWord 0 0 1, detail := 0 }).2

/-- A write or AMO in flight is lost (20_link R426, R432, R434; 19_shroud R409, R413): its issuing tag is killed, or for tag 0 the context alone
ends. -/
def loseWrite (s : State) (h : Home) (tag : STag) (e : Event) : State :=
  match tag.toNat, h with
  | 0, .slot q => if slotAlive s q then failContext s q 0x03 0 0 else s
  | 0, .image k => loseImage s k e
  | _, _ => failTag s tag e

/-- Operations that one failure loses, each with the context it belongs to and its tag: every tag is killed once, and each context of tag 0 ends alone
(19_shroud R409, R413; 20_link R426, R432). -/
def loseAll (s : State) (ops : List (Home × STag)) (e : Event) : State :=
  let tags := ((ops.map (·.2)).filter fun t => t != 0).eraseDups
  let s1 := tags.foldl (fun st t => failTag st t e) s
  (((ops.filter fun o => o.2 == 0).map (·.1)).eraseDups).foldl (fun st h => loseWrite st h 0 e) s1

/-- A Muaris link that becomes QUARANTINED or DOWN (20_link R432): the writes that no ACK covers are lost, and the reads that it holds complete with
granules poisoned under its error record. -/
def linkLost (s : State) (l : Nat) (record : PTag) : State :=
  let reads := (s.heldReads.filter fun x => x.1 == l).map (·.2)
  loseAll { s with
      sent := s.sent.filter fun x => x.link != l
      heldReads := s.heldReads.filter fun x => x.1 != l
      poison := reads.foldl (fun t g => tabSet t g record) s.poison }
    ((s.sent.filter fun x => x.link == l).map fun x => (x.home, x.tag)) (portEvent 0x03 14 l 0 0 false)

end Sys2Proof.Machine
end

