-- ==== Sys2Proof/Machine/Order.lean ====
section
/-! DEFINITION. Program order among the operations that a slot has passed on (09_guard R227): which of them come before a place and are
not yet performed (09_guard R242, R245, R247; 15_barrier R346), and which bytes wait for a MIGRATING page (11_page R292). -/

namespace Sys2Proof.Machine

/-- Whether a queue word is a vector access (09_guard R233): majors 0x28 to 0x2B. -/
def wordIsAccess (w : Nat) : Bool := decide (0x28 ≤ w / 2 ^ 26) && decide (w / 2 ^ 26 ≤ 0x2B)

/-- Whether a tile word touches memory (09_guard R231): TLD or TST. -/
def wordIsTileAccess (w : Nat) : Bool := w % 256 == 8 || w % 256 == 9

/-- Whether a queue word is a KST (03_encoding R71). -/
def wordIsKst (w : Nat) : Bool := w / 2 ^ 26 == 0x2B && w % 128 == 0

/-- Whether a vector-queue entry holds back a later release (09_guard R242; 15_barrier R346): an access, or an arrival marker that has
not fired. -/
def VEntry.unperformed (e : VEntry) : Bool := (e.kind == .instr && wordIsAccess e.word) || (e.kind == .marker && e.joined.isNone)

/-- Whether a tile-queue entry holds back a later release. -/
def TEntry.unperformed (e : TEntry) : Bool := wordIsTileAccess e.word && e.gangOf.isNone

/-- The tile-queue entries of a slot, oldest first (07_tile R172). -/
def tilesOf (s : State) (q : Nat) : List TEntry := (s.core (coreOf q)).tq.filter fun e => e.slot == q && e.gangOf.isNone

/-- Whether the vector side of slot q still has an access, an arrival or a link to perform from before a place in program order (09_guard
R227, R242). -/
def vectorBefore (s : State) (q n : Nat) : Bool :=
  ((s.slot q).vq.any fun e => e.unperformed && decide (e.ord < n)) ||
  ((tilesOf s q).any fun e => e.unperformed && decide (e.ord < n)) ||
  s.klinks.any fun e => e.2.slot == q && decide (e.2.ord < n)

/-- Whether the queues that a save has written to an image hold an access or an arrival from before a place in program order. -/
def savedBefore (s : State) (k n : Nat) : Bool :=
  match tabFind s.saved k with
  | some x => (x.vq ++ x.tq).any fun e => e.access && decide (e.ord < n)
  | none => false

/-- Whether the queues of the context of a home hold an access or an arrival from before a place in program order. -/
def queuedBefore (s : State) (h : Home) (n : Nat) : Bool :=
  match h with
  | .slot q => vectorBefore s q n
  | .image k => savedBefore s k n
  | .ended _ _ _ | .gone => false

/-- Whether a context has a scalar store from before a place in program order still to perform. -/
def storesBefore (s : State) (h : Home) (n : Nat) : Bool := s.stores.any fun a => a.home == h && decide (a.ord < n)

/-- Whether a context has an access of any side from before a place in program order still to perform (09_guard R242). -/
def accessesBefore (s : State) (h : Home) (n : Nat) : Bool := storesBefore s h n || queuedBefore s h n

/-- Whether a context has a write to another package that no ACK covers (20_link R431). -/
def unacked (s : State) (h : Home) : Bool := s.sent.any fun x => x.home == h

/-- The place of the last FENCE.SV of the context of a home (09_guard R247). -/
def fenceOf (s : State) (h : Home) : Nat :=
  match h with
  | .slot q => (s.slot q).ctx.fence
  | .image k => ((s.images.find? fun im => im.key == k).map fun im => im.ctx.fence).getD 0
  | .ended _ _ _ | .gone => 0

/-- Whether an engine command or a stream of the context of a home, from a place in program order, is not to read yet (09_guard R247): before every
scalar access from before it, and the vector accesses that a FENCE.SV divides from it, are performed; where it acquires as GFENCE does (08_stream R218),
before every access from before it is, those in other packages acknowledged (20_link R431). -/
def startWaits (s : State) (h : Home) (n : Nat) (full : Bool) : Bool :=
  storesBefore s h n || queuedBefore s h (if full then n else min n (fenceOf s h)) || (full && unacked s h)

/-- Whether an engine's release for the context of a home, from a place in program order, is not to be performed yet (09_guard R242, R247; 20_link
R431). -/
def releaseWaits (s : State) (h : Home) (n : Nat) : Bool := accessesBefore s h n || unacked s h

/-- Whether two ranges of bytes, each an address and a length, have a byte in common. -/
def bytesMeet (a b : Nat × Nat) : Bool := decide (max a.1 b.1 < min (a.1 + a.2) (b.1 + b.2))

/-- The key of a byte that an agent reaches (00_scope R13), whether by a read or by a write. -/
def placeOf (s : State) (ag : Agent) (va : Nat) : Nat :=
  match checkAddr s ag va .read, checkAddr s ag va .write with
  | .ok h, _ | .error _, .ok h => h.key
  | .error _, .error _ => mappedKey s ag va

/-- The bytes of memory that a range of virtual addresses names now, each piece as a key and a length. -/
def placesOf (s : State) (ag : Agent) (r : Nat × Nat) : List (Nat × Nat) := (spans r.1 r.2).map fun p => (placeOf s ag p.1, p.2)

/-- Whether two ranges of virtual addresses of slot q name a byte in common, through one mapping or two (09_guard R231, R232). -/
def sameBytes (s : State) (q : Nat) (a b : Nat × Nat) : Bool :=
  bytesMeet a b ||
  (placesOf s (scalarAgent s q) a).any fun x => (placesOf s (scalarAgent s q) b).any fun y => bytesMeet x y

/-- The bytes that a pending store covers, as virtual addresses. -/
def PendAcc.range (a : PendAcc) : Nat × Nat := (a.va.toNat, a.bytes.length)

/-- Whether a waiting scalar store of slot q from before a place in program order covers a byte of a range (11_page R292). -/
def storeWaits (s : State) (q n : Nat) (r : Nat × Nat) : Bool :=
  s.stores.any fun a => a.home == .slot q && a.waiting && decide (a.ord < n) && sameBytes s q a.range r

/-- Whether a waiting link of slot q from before a place in program order covers a byte of a range (11_page R292). -/
def linkWaits (s : State) (q n : Nat) (r : Nat × Nat) : Bool :=
  s.klinks.any fun e => e.2.slot == q && e.2.waiting && decide (e.2.ord < n) && sameBytes s q (e.2.row, e.2.bytes.length) r

/-- Whether a link of slot q that is still to be published, from before a place in program order, covers a byte of a range (09_guard R231). -/
def linkCovers (s : State) (q n : Nat) (r : Nat × Nat) : Bool :=
  s.klinks.any fun e => e.2.slot == q && decide (e.2.ord < n) && sameBytes s q (e.2.row, e.2.bytes.length) r

/-- Whether a waiting write of the vector side of slot q covers a byte of a range (11_page R292). -/
def vectorWaits (s : State) (q : Nat) (r : Nat × Nat) : Bool :=
  ((s.slot q).vq.any fun e => match e.probed with | some b => b.waits.any fun w => sameBytes s q w r | none => false) ||
  ((tilesOf s q).any fun e => e.waits.any fun w => sameBytes s q w r) || linkWaits s q s.nextOp r

/-- Whether an address key is the DOORBELL of a notify page (14_queue R325). -/
def isDoorbell (s : State) (key : Nat) : Bool := isNotify s key && decide ((key - s.notify.toNat) % 4096 < 8)

/-- The state with one more operation passed on (09_guard R227). -/
def bumpOp (s : State) : State := { s with nextOp := s.nextOp + 1 }

/-- Whether a trap that is due in a slot holds an entry of its queues back (05_vector R130; 10_context R261): any entry, where the scalar side has raised it; the
trapping entry and younger ones, where a queue entry has: the older ones complete. -/
def heldByDue (x : Slot) (ord : Nat) : Bool :=
  match x.due with
  | some r => !r.queue || decide (x.dueOrd ≤ ord)
  | none => false

/-- An entry of a place in program order raises a trap (10_context R261): its slot is to be saved, unless a trap that comes before it is due. -/
def raiseDue (s : State) (q ord : Nat) (r : Report) : State :=
  if heldByDue (s.slot q) ord then s else s.setSlot q { s.slot q with due := some r, dueOrd := ord }

/-- Whether an entry from before a place in program order of the queues of slot q, or an instruction in the vector unit, is not complete (10_context
R261); a fired marker is. -/
def olderLeft (s : State) (q n : Nat) : Bool :=
  ((s.slot q).vq.any fun e => decide (e.ord < n) && !(e.kind == .marker && e.joined.isSome)) ||
  ((tilesOf s q).any fun e => decide (e.ord < n)) ||
  (s.core (coreOf q)).rechecks.any fun r => r.slot == q && decide (r.ord < n)

/-- The charge with which slot q begins to compete for the vector unit (14_queue R338): the lowest among the competing slots of its priority on
the core. -/
def lowestCharge (s : State) (q : Nat) : Nat :=
  let x := s.slot q
  match (slotsOfCore (coreOf q)).filter fun p => p != q && (s.slot p).vq.length != 0 && (s.slot p).runPrio == x.runPrio with
  | [] => x.charge
  | p :: ps => ps.foldl (fun m r => min m (s.slot r).charge) (s.slot p).charge

/-- The charge of slot q when an entry joins its vector queue (14_queue R338). -/
def beginCharge (s : State) (q : Nat) : Nat := if (s.slot q).vq.isEmpty then lowestCharge s q else (s.slot q).charge

/-- The state after Load has brought a context to slot q (10_context R266): with entries in its vector queue it begins to compete
(14_queue R338). -/
def compete (s : State) (q : Nat) : State :=
  if (s.slot q).vq.isEmpty then s else s.setSlot q { s.slot q with charge := lowestCharge s q }

end Sys2Proof.Machine
end

