-- ==== Sys2Proof/Machine/Ops.lean ====
section
/-! DEFINITION. The shared operations of a context: vector length (05_vector R117), the context save area (10_context R253 to
R256), taking a trap (R262, R263), bringing an image into a slot (R266), and leaving a handler. -/

namespace Sys2Proof.Machine

/-- The code of a privilege level (10_context R250). -/
def levelCode : Level → Nat
  | .user => 0
  | .supervisor => 1
  | .firmware => 2

/-- The level of a code (10_context R250, R254). -/
def levelOf (n : Nat) : Option Level :=
  match n with
  | 0 => some .user
  | 1 => some .supervisor
  | 2 => some .firmware
  | _ => none

/-- Element width of a VCFG, in bits (05_vector R119). -/
def vWidth (vcfg : BitVec 14) : Nat := 2 ^ (vcfg.toNat % 8 + 1)

/-- Grouping code of a VCFG (05_vector R119). -/
def vGroup (vcfg : BitVec 14) : Nat := vcfg.toNat / 8 % 4

/-- VLEN of a slot (05_vector R117). -/
def Slot.vlen (x : Slot) : Nat := min (2048 * x.laneCount) x.vlcap

/-- VLMAX at a VLEN under an element width and grouping code (05_vector R117). -/
def vlmaxAt (vlen w g : Nat) : Nat := min (vlen * 2 ^ g / w) (vlen / 2)

/-- VLMAX of a slot under a VCFG (05_vector R117). -/
def Slot.vlmax (x : Slot) (vcfg : BitVec 14) : Nat := vlmaxAt x.vlen (vWidth vcfg) (vGroup vcfg)

/-- The slot with VL clamped to VLMAX (05_vector R122). -/
def Slot.clampVl (x : Slot) : Slot := { x with vl := min x.vl (x.vlmax x.vcfg) }

/-- UISTAT as a word (04_sequencer R112). -/
def UiStat.word (u : UiStat) : Word :=
  BitVec.ofNat 64 (u.pcopy.toNat * 2 ^ 17 + u.preef.toNat * 2 ^ 16 + u.cause.toNat * 2 ^ 8 + u.act.toNat * 2 + u.en.toNat)

/-- UISTAT from a word (04_sequencer R112). -/
def UiStat.ofWord (w : Word) : UiStat :=
  ⟨w.getLsbD 17, w.getLsbD 16, BitVec.ofNat 8 (wbits w 15 8), w.getLsbD 1, w.getLsbD 0⟩

/-- WAITCNT as a word (04_sequencer R110). -/
def Counters.word (c : Counters) : Word :=
  BitVec.ofNat 64 (c.loads * 2 ^ 24 + c.stores * 2 ^ 16 + c.copies * 2 ^ 8 + c.tiles)

/-- How a queue word counts in the counters (04_sequencer R109): loads, stores, tiles. -/
def queueCounts (word : Nat) : Nat × Nat × Nat :=
  let major := word / 2 ^ 26
  if major = 0x28 then (1, 0, 0)
  else if major = 0x29 then (0, 1, 0)
  else if major = 0x2A then (if word / 2 ^ 5 % 2 = 0 then (1, 0, 0) else (0, 1, 0))
  else if major = 0x2B then (if word % 128 = 0 then (0, 1, 0) else (0, 0, 0))
  else if major = 0x30 then (0, 0, 1)
  else (0, 0, 0)

/-- The scalar register that a queue word writes (04_sequencer R81): MPOPC, MFFS, VEXTR, KST, KSIG and TSTAT. -/
def queueDest (word : Nat) : Option Nat :=
  let major := word / 2 ^ 26
  if major = 0x24 ∧ (word % 256 = 0x04 ∨ word % 256 = 0x05 ∨ word % 256 = 0x17) then some (word / 2 ^ 21 % 32)
  else if major = 0x2B then some (word / 2 ^ 21 % 32)
  else if major = 0x30 ∧ word % 256 = 0x0D then some (word / 2 ^ 14 % 64)
  else none

/-- The code of a register's poison and pending mark in PSN (10_context R253). -/
def psnCode (v : SReg) : Nat :=
  (match v.poison with | some t => 2 ^ 15 + t.toNat | none => 0) + (if v.pend = .engine then 2 ^ 14 else 0)

/-- The poison of an operand coded as PSN (10_context R255). -/
def psnOf (p : Option PTag) : Nat := match p with | some t => 2 ^ 15 + t.toNat | none => 0

/-- The poison that a PSN code holds. -/
def poisonOfPsn (n : Nat) : Option PTag := if n.testBit 15 then some (BitVec.ofNat 12 n) else none

/-- A register's word in the image: zero when it is poisoned (10_context R253). -/
def imageVal (v : SReg) : Word := if v.poison.isSome then 0 else v.val

/-- A vector-queue entry as 48 bytes (10_context R255; 15_barrier R347). P of a FENCE.VV is zero. -/
def vqBytes (e : VEntry) : List Byte :=
  let kind := match e.kind with | .instr => 1 | .marker => 2 | .fenceVV => 3
  let p := match e.kind with | .instr => e.p | .marker => (if e.joined.isSome then 1 else 0) | .fenceVV => 0
  let op1 := if e.kind = .marker then e.joined.getD 0 else e.op1
  leBytes 8 e.pc.toNat ++ leBytes 4 e.word ++ leBytes 2 p ++ leBytes 2 e.vl ++ leBytes 2 e.vcfg.toNat ++ leBytes 2 kind ++
  leBytes 2 (psnOf e.poison0) ++ leBytes 2 (psnOf e.poison1) ++
  leBytes 8 (if e.poison0.isSome then 0 else e.op0.toNat) ++ leBytes 8 (if e.poison1.isSome then 0 else op1.toNat) ++
  leBytes 8 0

/-- A tile-queue entry as 48 bytes (10_context R255). -/
def tqBytes (e : TEntry) : List Byte :=
  leBytes 8 e.pc.toNat ++ leBytes 4 e.word ++ leBytes 4 e.seq.toNat ++ leBytes 4 e.kp ++
  leBytes 4 (e.frm.toNat + e.reefTh.toNat * 4 + e.reefTrap.toNat * 2 ^ 8 + e.accRow.toNat * 2 ^ 9) ++
  leBytes 8 e.desc.toNat ++ leBytes 8 (if e.poison.isSome then 0 else e.opk.toNat) ++ leBytes 8 (psnOf e.poison)

/-- The state code of a port (08_stream R207). -/
def portCode : PortState → Nat
  | .closed => 0
  | .opened => 1
  | .bound => 2
  | .ended => 3

/-- The port status word (08_stream R207). -/
def Port.statusWord (p : Port) : Word :=
  BitVec.ofNat 64 (p.status * 2 ^ 57 + portCode p.st * 2 ^ 54 +
    specKind p.spec * 2 ^ 51 + p.list.toNat * 2 ^ 50 + p.pos)

/-- Whether a port is bound to a register group. An ENDED port keeps its binding (08_stream R202). -/
def Port.isBound (p : Port) : Bool := decide (p.st ≠ .closed) && decide (p.bindReg < 32)

/-- A port as 80 bytes (10_context R255). -/
def portBytes (p : Port) : List Byte :=
  bytesOfWords ((List.range 8).map (wordAt p.spec)) ++ leBytes 8 p.statusWord.toNat ++
  leBytes 8 (if p.isBound then 2 ^ 7 + p.bindG * 2 ^ 5 + p.bindReg else 0)

/-- The ports that a slot owns (08_stream R202). -/
def portsOf (s : State) (q : Nat) : List Nat :=
  (List.range 8).filter fun p => decide (((s.core (coreOf q)).port p).st ≠ .closed) && ((s.core (coreOf q)).port p).owner == q

/-- The counts of operations in flight that belong to a context (10_context R256); saved queue entries are not in flight. -/
def inFlight (s : State) (h : Home) : Counters :=
  { loads := 0, stores := (s.stores.filter fun a => a.home == h).length,
    copies := (s.copies.filter fun c => c.2.home == h).length + (s.cmds.filter fun c => c.2.home == h).length, tiles := 0 }

/-- Append zero bytes up to n (10_context R253). -/
def padTo (n : Nat) (bs : List Byte) : List Byte := bs ++ List.replicate (n - bs.length) 0

/-- CSTAT of a save (10_context R254, R262): VALID 1 and PARK 0. -/
def cstatWord (s : State) (q hpriv : Nat) : Word :=
  let x := s.slot q
  BitVec.ofNat 64 (levelCode x.level * 2 ^ 62 + hpriv * 2 ^ 60 + 2 ^ 59 + x.laneCount * 2 ^ 52 + x.vlen * 2 ^ 37 +
    x.loops.length * 2 ^ 34 + x.vq.length * 2 ^ 28 + (tilesOf s q).length * 2 ^ 23 +
    ((portsOf s q).foldl (fun n p => n + 2 ^ p) 0) * 2 ^ 15)

/-- The SYS words of a save (10_context R253). -/
def sysWords (s : State) (q : Nat) (cnt : Counters) : List Word :=
  let x := s.slot q
  [BitVec.ofNat 64 x.fflags.toNat, BitVec.ofNat 64 x.frm.toNat, BitVec.ofNat 64 x.vl, BitVec.ofNat 64 x.vcfg.toNat,
   BitVec.ofNat 64 x.vstart, x.uivec, x.uiepc, x.uistat.word, BitVec.ofNat 64 x.accBase.toNat, BitVec.ofNat 64 x.accLim.toNat,
   BitVec.ofNat 64 x.reefTh.toNat, BitVec.ofNat 64 x.reefTrap.toNat, cnt.word, BitVec.ofNat 64 x.asid.toNat,
   BitVec.ofNat 64 x.shtag.toNat, BitVec.ofNat 64 x.prio.toNat]

/-- The bank 0 value of a scalar register, for the image (10_context R253). -/
def Slot.bank0 (x : Slot) (r : Nat) : SReg := if r = 0 then SReg.zero else tabGet x.regs SReg.zero r

/-- The bank 1 value of a register from s56 to s61. -/
def Slot.bankOne (x : Slot) (r : Nat) : SReg := tabGet x.bank1 SReg.zero r

/-- TRAPCAUSE of a report (10_context R270), NESTED clear; LATCH shows a request latched at the same boundary (R259, R265). -/
def reportCause (r : Report) (latched : Bool) : Word :=
  BitVec.ofNat 64 (r.cause + r.queue.toNat * 2 ^ 9 + latched.toNat * 2 ^ 10 + r.frlost.toNat * 2 ^ 11)

/-- The loop stack as its words, LSTK0 first (04_sequencer R100; 10_context R253). -/
def loopWords (loops : List LoopEntry) : List Word := loops.reverse.flatMap fun e => [e.p, e.start, e.count]

/-- The bytes of an image from offset 0x010 on (10_context R253 to R256). -/
def imageBytes (s : State) (q hpriv : Nat) (r : Report) (pc : Word) : List Byte :=
  let x := s.slot q
  leBytes 8 pc.toNat ++ leBytes 8 (cstatWord s q hpriv).toNat ++
  bytesOfWords [reportCause r x.request.isSome, r.pc, r.addr, r.aux] ++
  bytesOfWords (sysWords s q (inFlight s (.slot q))) ++
  bytesOfWords ((List.range 64).map fun i => imageVal (x.bank0 i)) ++
  bytesOfWords ((List.range 6).map fun i => imageVal (x.bankOne (56 + i))) ++ List.replicate 16 0 ++
  padTo 144 (bytesOfWords (loopWords x.loops)) ++ List.replicate 48 0 ++
  padTo 1536 (x.vq.flatMap vqBytes) ++ padTo 768 ((tilesOf s q).flatMap tqBytes) ++
  ((List.range 8).flatMap fun p =>
    if (portsOf s q).contains p then portBytes ((s.core (coreOf q)).port p) else List.replicate 80 0) ++
  ((List.range 64).flatMap fun i => leBytes 2 (psnCode (x.bank0 i))) ++
  ((List.range 6).flatMap fun i => leBytes 2 (psnCode (x.bankOne (56 + i)))) ++ List.replicate 52 0

/-- What the device goes on knowing of a saved queue entry (log 83). -/
def VEntry.saved (e : VEntry) : SavedEntry := ⟨e.ord, e.began, e.unperformed, 0, false, []⟩

/-- The sequence numbers of the parts that the other members of the gang hold of a TMMAG, in gang order (07_tile R184, R187). -/
def gangParts (s : State) (k : Nat) (e : TEntry) : List (BitVec 32) :=
  ((gangCores k).filter fun m => m != k).filterMap fun m =>
    ((s.core m).tq.find? fun t => t.gangOf == some k && t.slot == e.slot && t.ord == e.ord).map (·.seq)

/-- What the device goes on knowing of a saved tile-queue entry of a core (log 83). -/
def TEntry.saved (s : State) (k : Nat) (e : TEntry) : SavedEntry := ⟨e.ord, e.ord, e.unperformed, e.dest, e.reefed, gangParts s k e⟩

/-- What the device goes on knowing of the queues and ports that a save writes to an image (log 83). -/
def savedOf (s : State) (q : Nat) : Saved :=
  { vq := (s.slot q).vq.map VEntry.saved
    tq := (tilesOf s q).map (TEntry.saved s (coreOf q))
    ports := (portsOf s q).map fun p => let x := (s.core (coreOf q)).port p; ⟨p, x.scope, x.acquire, x.gen⟩ }

/-- The slot in its handler with the trap registers set (10_context R262, R263): empty loop stack and vector queue, s63 the handler's stack
pointer, the program counter at SVPC. -/
def Slot.enterHandler (x : Slot) (level : Level) (svpc svsp : Word) (r : Report) (nested : Bool) : Slot :=
  let y := x.put 63 svsp none
  { y with
    st := .run, mode := .handler, level := level, pc := svpc, prev := none, land := false, loops := [], vq := [],
    trapCause := BitVec.ofNat 8 r.cause, trapNested := nested, trapQueue := r.queue,
    trapFrlost := r.frlost, trapPc := r.pc, trapAddr := r.addr, trapAux := r.aux, due := none, dueOrd := 0 }

/-- The slot when a first-stage save has written its context away (10_context R256, R262): the counters are zero, and no register waits for
what now belongs to the image. -/
def Slot.savedAway (x : Slot) : Slot := { x.settle (fun _ => true) [] with cnt := ⟨0, 0, 0, 0⟩ }

/-- The registers that instructions in the vector unit or at a KBU, beyond the queues, will still write for slot q. -/
def unitDests (s : State) (q : Nat) : List Nat :=
  ((s.claims.filter fun k => k.2.slot == q).map fun k => k.2.dest) ++
  ((s.core (coreOf q)).rechecks.filterMap fun r => if r.slot = q then r.dest.map (·.1) else none)

/-- The slot when a nested trap has emptied its queues (10_context R263): the counts are those of its operations still in flight, and only what
those will write is pending. -/
def Slot.drained (s : State) (q : Nat) (x : Slot) : Slot :=
  let c := inFlight s (.slot q)
  { x.settle (fun p => p == .queue) (unitDests s q) with
    cnt := { c with stores := c.stores + (s.claims.filter fun k => k.2.slot == q).length } }

/-- The slot whose handler serves a context of a tag (10_context R262, R274). -/
def Slot.serving (x : Slot) (tag : STag) : Slot := { x with servedTag := tag }

/-- Whether the CSA at an address may take a save (10_context R262): writable at supervisor level, not user-writable. -/
def csaUsable (s : State) (ag : Agent) (c : Nat) : Option Hit :=
  match checkAddr s { ag with level := .supervisor } c .write with
  | .ok h =>
    match checkAddr s { ag with level := .user, tag := 0 } c .write with
    | .ok _ => none
    | .error _ => if h.key % 4096 = 0 then some h else none
  | .error _ => none

/-- The results of SSTATs that still wait are written (08_stream R204; 10_context R256): no later instruction of the queues comes before them. -/
def settleStats (s : State) (q : Nat) : State :=
  (portsOf s q).foldl (fun st p =>
    let c := st.core (coreOf q)
    let x := c.port p
    (st.setCore (coreOf q) (c.setPort p { x with stats := [] })).setSlot q
      (x.stats.foldl (fun (y : Slot) d => y.landAt d.1 x.statusWord none) (st.slot q))) s

/-- The first-stage save and the handler entry (10_context R262), with the PC that the image records. A CSA that cannot take it
kills the context's shroud; a save to a MIGRATING page waits (11_page R292) (DEDUCED, log 48) (DEDUCED, log 79). -/
def firstStageSave (s0 : State) (q : Nat) (r : Report) (pc : Word) : State :=
  let s := settleStats s0 q
  let x := s.slot q
  let ag := scalarAgent s q
  match csaUsable s ag x.csaBase.toNat with
  | none => failContext s q 0x0D 0 0
  | some h =>
    let hpriv := wbits (physWord s (h.key + 0x18)) 61 60
    if h.state = 3 ∨ unitsPending s q = true then s.setSlot q { x with due := some r, dueOrd := x.due.elim s.nextOp fun _ => x.dueOrd }
    else if (hpriv ≠ 1 ∧ hpriv ≠ 2) ∨ (rangePoison s h.key 32).isSome then failContext s q 0x0D 0 0
    else
      let svpc := physWord s h.key
      let svsp := physWord s (h.key + 8)
      let s1 := touch s { ag with level := .supervisor } x.csaBase.toNat .write
      let s2 := physWrite s1 (h.key + 0x10) (imageBytes s1 q hpriv r pc) none
      let s3 := dropTiles (closePorts (moveHome s2 (.slot q) (.image h.key)) q) q
      { s3 with saved := tabSet s3.saved h.key (savedOf s q) }.setSlot q (((s3.slot q).savedAway.enterHandler (if hpriv = 2 then .firmware else .supervisor) svpc svsp r false).serving x.shtag)

/-- A nested trap (10_context R263): nothing is saved; a second one kills the served context's shroud. -/
def nestedTrap (s : State) (q : Nat) (r : Report) : State :=
  let x := s.slot q
  match csaKey s q with
  | none => failServed s q 0x0D
  | some k =>
    if x.trapNested then failServed s q 0x0C
    else
      let s1 := dropTiles (settleStats s q) q
      s1.setSlot q (((s1.slot q).drained s1 q).enterHandler x.level (physWord s k) (physWord s (k + 8)) r true)

/-- A leaf group keeps what an ended context of it held (13_group R312). -/
def keepFor (s : State) (k i q : Nat) : State :=
  let x := s.slot q
  let h : Kept := ⟨some q, coreOf q, x.laneBase, x.laneCount, x.accBase.toNat, x.accLim.toNat⟩
  let forks : List Kept := x.ctx.children.map fun c => ⟨none, coreOf q, c.laneBase, c.laneCount, 0, 0⟩
  setLeaf s k i fun l => { l with kept := l.kept ++ h :: forks.filter fun c => c.laneCount != 0 }

/-- A context of a leaf group ends where it stands (13_group R312): its queues are discarded, its operations in flight hold its group
back until they are done, and the group keeps its slot, lane groups and rows until then. -/
def endMember (s : State) (q : Nat) : State :=
  let x := s.slot q
  let s1 := match x.ctx.work with
    | .leaf k i => keepFor (moveHome s (.slot q) (.ended k i none)) k i q
    | _ => moveHome s (.slot q) .gone
  let s2 := dropTiles (closePorts s1 q) q
  let c := s2.core (coreOf q)
  let s3 := s2.setCore (coreOf q) { c with rechecks := c.rechecks.filter fun r => r.slot != q }
  s3.setSlot q (s3.slot q).freed

/-- A context of an ending leaf group comes to its end (13_group R312; 12_kernel R305), once nothing of it is left in the vector unit or at a KBU: until
then the report keeps the end due. -/
def endInstead (s : State) (q : Nat) (r : Report) : State :=
  if unitsPending s q then s.setSlot q { s.slot q with due := some r, dueOrd := s.nextOp } else endMember s q

/-- Take a trap for the supervisor (10_context R256, R262, R263): in context mode the first-stage save, with the image's PC; in handler mode a
nested trap. A context of an ending leaf group takes no trap: where it cannot go on it ends (12_kernel R305). -/
def takeTrapAt (s : State) (q : Nat) (r : Report) (pc : Word) : State :=
  match (s.slot q).mode with
  | .context => if (s.slot q).ctx.ending then endInstead s q r else firstStageSave s q r pc
  | .handler => nestedTrap s q r

/-- A trap of the instruction at slot q's program counter, which has had no effect (10_context R260): it is resumed there. -/
def trap (s : State) (q cause : Nat) (addr aux : Word) : State :=
  takeTrapAt s q ⟨cause, (s.slot q).pc, addr, aux, false, false⟩ (s.slot q).pc

/-- What bringing an image into a slot comes to (10_context R266). -/
def vlenSaved (cstat : Word) : Nat := wbits cstat 51 37

/-- Whether a saved loop entry is well formed (04_sequencer R100). One of KIND 0b00 within DEPTH is not among those that R100 lists; it loads,
and no instruction treats it as a LOOP or as a REP entry but the frame-end step, whose test of KIND it fails (DESIGN CHOICE, log 87). -/
def loopOk (p count : Word) : Bool :=
  wbits p 63 62 != 3 && wbits p 25 0 == 0 && (wbits p 63 62 != 1 || count != 0) && decide (wbits p 33 26 ≤ wbits p 41 34)

/-- The checks of CSTAT and the entries of an image (10_context R266, third line). -/
def imageOk (s : State) (k : Nat) : Bool :=
  let c := physWord s (k + 0x18)
  let depth := wbits c 36 34
  c.getLsbD 59 && wbits c 63 62 != 3 && (wbits c 61 60 == 1 || wbits c 61 60 == 2) && wbits c 57 56 == 0 &&
  nlgOk (wbits c 55 52) && wbits c 14 0 == 0 && decide (depth ≤ 6) && decide (wbits c 33 28 ≤ 32) && decide (wbits c 27 23 ≤ 16) &&
  ((List.range depth).all fun i => loopOk (physWord s (k + 0x300 + 24 * i)) (physWord s (k + 0x300 + 24 * i + 16))) &&
  ((List.range (wbits c 33 28)).all fun i =>
    let kind := physLE s (k + 0x3C0 + 48 * i + 0x12) 2
    decide (1 ≤ kind ∧ kind ≤ 3))

/-- A saved vector-queue entry (10_context R255), with what the device still knows of it; of an entry that it does not know, the program
orders it after what is in flight, and the progress index is where it begins (log 83). -/
def vqOfImage (s : State) (known : Option SavedEntry) (i a : Nat) : VEntry :=
  let kind := physLE s (a + 0x12) 2
  let ptag := physLE s (a + 0x14) 4
  let p := physLE s (a + 0xC) 2
  { ord := (known.map SavedEntry.ord).getD (s.nextOp + i), began := (known.map SavedEntry.began).getD p, pc := physWord s a, word := physLE s (a + 8) 4, p := if kind = 2 then 0 else p, vl := physLE s (a + 0xE) 2,
    vcfg := BitVec.ofNat 14 (physLE s (a + 0x10) 2), kind := if kind = 2 then .marker else if kind = 3 then .fenceVV else .instr,
    op0 := physWord s (a + 0x18), op1 := if kind = 2 then 0 else physWord s (a + 0x20), poison0 := poisonOfPsn (ptag % 2 ^ 16),
    poison1 := poisonOfPsn (ptag / 2 ^ 16), probed := none, restored := true,
    joined := if kind = 2 ∧ p = 1 then some (physWord s (a + 0x20) &&& 0xFFFFFF#64) else none }

/-- A saved tile-queue entry (10_context R255), with what the device still knows of it (log 83). -/
def tqOfImage (s : State) (known : Option SavedEntry) (q : Nat) (tag : STag) (i a : Nat) : TEntry :=
  let capt := physLE s (a + 0x14) 4
  { slot := q, pc := physWord s a, word := physLE s (a + 8) 4, seq := BitVec.ofNat 32 (physLE s (a + 0xC) 4),
    kp := physLE s (a + 0x10) 4, frm := BitVec.ofNat 2 capt, reefTh := BitVec.ofNat 6 (capt / 4), reefTrap := capt.testBit 8,
    accRow := BitVec.ofNat 7 (capt / 2 ^ 9), desc := physWord s (a + 0x18), opk := physWord s (a + 0x20),
    poison := poisonOfPsn (physLE s (a + 0x28) 2), tag := tag, gangOf := none,
    reefed := (known.map SavedEntry.reefed).getD false, ord := (known.map SavedEntry.ord).getD (s.nextOp + 32 + i),
    dest := (known.map SavedEntry.dest).getD ((queueDest (physLE s (a + 8) 4)).getD 0), waits := [] }

/-- Whether a word is TMMAG (07_tile R186). -/
def isGangWord (w : Nat) : Bool := w / 2 ^ 26 == 0x30 && w % 256 == 3

/-- Whether the tile queues have room for some words of a core (07_tile R172): a TMMAG takes a place in each of its gang (R187) (DEDUCED, log 74). -/
def tileRoom (s : State) (k : Nat) (ws : List Nat) : Bool :=
  decide ((s.core k).tq.length + ws.length ≤ 16) &&
  (gangCores k).all fun m => m == k || decide ((s.core m).tq.length + (ws.filter isGangWord).length ≤ 16)

/-- The state with an entry in a core's tile queue, and a part in each other queue of the gang for TMMAG (07_tile R172, R187): each part
has the sequence number that is given for it, or else the next one of its core. -/
def queueTile (s : State) (k : Nat) (e : TEntry) (parts : List (BitVec 32)) : State :=
  let s1 := s.setCore k { s.core k with tq := (s.core k).tq ++ [e] }
  if isGangWord e.word then
    (((gangCores k).filter fun m => m != k).zipIdx).foldl (fun st m =>
      let c := st.core m.1
      match parts[m.2]? with
      | some n => st.setCore m.1 { c with tq := c.tq ++ [{ e with seq := n, gangOf := some k }] }
      | none => st.setCore m.1 { c with tq := c.tq ++ [{ e with seq := c.seq, gangOf := some k }], seq := c.seq + 1 }) s1
  else s1

/-- A saved port (10_context R255; 08_stream R203): fetched elements are fetched again. Its scope, an acquire still to be performed and a mesh
generation are what the device still knows of it (log 83). -/
def portOfImage (s : State) (known : Option SavedPort) (q a : Nat) : Port :=
  let st := physWord s (a + 0x40)
  let b := physLE s (a + 0x48) 8
  { st := match wbits st 56 54 with | 1 => .opened | 2 => .bound | 3 => .ended | _ => .closed, owner := q,
    spec := (List.range 8).map fun i => physWord s (a + 8 * i), pos := wbits st 47 0, status := wbits st 63 57,
    list := st.getLsbD 50, bindReg := if b.testBit 7 then b % 32 else 32, bindG := b / 32 % 4, fifo := [],
    stop := if wbits st 56 54 = 3 then some (wbits st 63 57, st.getLsbD 50) else none, scope := (known.map SavedPort.scope).getD 0,
    acquire := (known.map SavedPort.acquire).getD false, skip := wbits st 47 0, gen := (known.map SavedPort.gen).getD 0, toks := [], cur := StreamCur.start, op := s.nextOp, stats := [] }

/-- A saved scalar register with its PSN code (10_context R253, R256). -/
def regOfImage (s : State) (k off idx : Nat) : SReg :=
  let c := physLE s (k + 0xF40 + 2 * idx) 2
  ⟨physWord s (k + off), poisonOfPsn c, if c.testBit 14 then .engine else .ready⟩

/-- A table of registers from a list of numbers and values; a register as at reset is not listed. -/
def regTab (l : List (Nat × SReg)) : Tab SReg := l.filter fun e => e.2 != SReg.zero

/-- The slot's registers and system registers as an image holds them (10_context R253, R266). -/
def Slot.ofImage (s : State) (x : Slot) (known : Saved) (k : Nat) : Slot :=
  let c := physWord s (k + 0x18)
  let sys := fun i => physWord s (k + 0x40 + 8 * i)
  let depth := wbits c 36 34
  let nvq := wbits c 33 28
  let vq := (List.range nvq).map fun i => vqOfImage s known.vq[i]? i (k + 0x3C0 + 48 * i)
  let counts := (vq.filter fun e => e.kind == .instr).foldl (fun a e =>
    let b := queueCounts e.word
    (a.1 + b.1, a.2.1 + b.2.1, a.2.2 + b.2.2)) (0, 0, 0)
  let wc := sys 12
  let y : Slot :=
    { x with
      st := .run, mode := .context, level := (levelOf (wbits c 63 62)).getD .user, pc := physWord s (k + 0x10), prev := none,
      land := false,
      regs := regTab ((List.range 63).map fun i => (i + 1, regOfImage s k (0xC0 + 8 * (i + 1)) (i + 1)))
      bank1 := regTab ((List.range 6).map fun i => (56 + i, regOfImage s k (0x2C0 + 8 * i) (64 + i)))
      loops := ((List.range depth).map fun i =>
        (⟨physWord s (k + 0x300 + 24 * i), physWord s (k + 0x308 + 24 * i), physWord s (k + 0x310 + 24 * i)⟩ : LoopEntry)).reverse
      fflags := BitVec.ofNat 5 (sys 0).toNat, frm := BitVec.ofNat 2 (sys 1).toNat, vl := wbits (sys 2) 13 0,
      vcfg := BitVec.ofNat 14 (sys 3).toNat, vstart := wbits (sys 4) 13 0, uivec := sys 5, uiepc := sys 6,
      uistat := UiStat.ofWord (sys 7), accBase := BitVec.ofNat 7 (sys 8).toNat, accLim := BitVec.ofNat 8 (sys 9).toNat,
      reefTh := BitVec.ofNat 6 (sys 10).toNat, reefTrap := (sys 11).getLsbD 0,
      cnt := ⟨wbits wc 31 24 + counts.1, wbits wc 23 16 + counts.2.1, wbits wc 15 8, wbits wc 7 0 + counts.2.2 + wbits c 27 23⟩,
      asid := BitVec.ofNat 12 (sys 13).toNat, shtag := BitVec.ofNat 10 (sys 14).toNat, prio := BitVec.ofNat 4 (sys 15).toNat,
      vq := vq, trapNested := false, due := none }
  (vq.filterMap fun e => if e.kind = .instr then queueDest e.word else none).foldl (fun z r => z.markPending r .queue) y

/-- What the device knows of the queues and ports of the image at a key: as much of it as the counts of CSTAT match (log 83). -/
def knownOf (s : State) (k nvq ntq : Nat) : Saved :=
  let x := (tabFind s.saved k).getD ⟨[], [], []⟩
  ⟨if x.vq.length = nvq then x.vq else [], if x.tq.length = ntq then x.tq else [], x.ports⟩

/-- The slot with a remembered register marked as pending on a queue entry (04_sequencer R81, R112). -/
def Slot.markAt (x : Slot) (i : Nat) : Slot :=
  if i = 0 then x
  else if i < 64 then { x with regs := tabSet x.regs i { tabGet x.regs SReg.zero i with pend := .queue } }
  else { x with bank1 := tabSet x.bank1 (i - 8) { tabGet x.bank1 SReg.zero (i - 8) with pend := .queue } }

/-- What Load comes to: the new state, a failing cause with TRAPAUX, or a wait for tile-queue entries (10_context R266). -/
abbrev LoadResult := Except (Option (Nat × Word)) State

/-- Load of the image at an address into slot q (10_context R266), read under an agent at the loader's level. A failure other than 0x07 reports
TRAPAUX 0, there being no instruction word (DESIGN CHOICE, log 104). What of the image lies in poisoned granules is loaded as its bytes stand, and
its poison goes no further (DESIGN CHOICE, log 105). -/
def load (s : State) (q : Nat) (ag : Agent) (c : Word) : LoadResult :=
  let x := s.slot q
  if wbits c 11 0 ≠ 0 then .error (some (0x0B, 0))
  else
    match checkAddr s ag c.toNat .read with
    | .error m => .error (some (missCause m, 0))
    | .ok h =>
      let k := h.key
      let cs := physWord s (k + 0x18)
      let ports := (List.range 8).filter fun p => cs.getLsbD (15 + p)
      let ntq := wbits cs 27 23
      if imageOk s k = false then .error (some (0x01, 0))
      else if levelCode ag.level < wbits cs 63 62 then .error (some (0x02, 0))
      else if ports.any fun p => decide (((s.core (coreOf q)).port p).st ≠ .closed) then .error (some (0x10, 0))
      else if x.vlen < vlenSaved cs ∧
          ¬ (wbits (physWord s (k + 0x50)) 13 0 ≤ x.vlmax (BitVec.ofNat 14 (physWord s (k + 0x58)).toNat) ∧
             physWord s (k + 0x60) = 0 ∧ wbits cs 33 28 = 0) then
        .error (some (0x07, BitVec.ofNat 64 (vlenSaved cs + x.vlen * 2 ^ 16)))
      else if tileRoom s (coreOf q) ((List.range ntq).map fun i => physLE s (k + 0x9C0 + 48 * i + 8) 4) = false then .error none
      else
        let s1 := physPut (touch s ag c.toNat .read) (k + 0x18) (cs &&& ~~~(0x0800000000000000#64))
        let s2 := moveHome (moveHome s1 (.slot q) .gone) (.image k) (.slot q)
        let core := s2.core (coreOf q)
        let known := knownOf s k (wbits cs 33 28) ntq
        let core1 := ports.foldl (fun (a : Core) p =>
          a.setPort p (portOfImage s (known.ports.find? fun e => e.port == p) q (k + 0xCC0 + 80 * p))) core
        let tag : STag := BitVec.ofNat 10 (physLE s (k + 0x40 + 14 * 8) 8)
        let tiles := (List.range ntq).map fun i => tqOfImage s known.tq[i]? q tag i (k + 0x9C0 + 48 * i)
        let y := tiles.foldl (fun z e => z.markAt e.dest) (Slot.ofImage s x known k)
        let s2' := tiles.zipIdx.foldl (fun st e => queueTile st (coreOf q) e.1 ((known.tq[e.2]?.map SavedEntry.parts).getD []))
          (s2.setCore (coreOf q) core1)
        let s3 := { s2' with nextOp := s2'.nextOp + 49, saved := tabDel s2'.saved k }.setSlot q { y with csaBase := c }
        if x.vuse ∧ x.vowner ≠ c ∧ 0 < wbits cs 33 28 + ntq then
          .ok (takeTrapAt s3 q ⟨0x03, y.pc, 0, 1, false, false⟩ y.pc)
        else .ok s3

/-- The served context leaves its slot for its image (10_context R252, R265): PARKED when CSTAT.PARK is set, else READY with a
resume entry at its PRIO. Which image is the served context's is what CSABASE says now; one that cannot be read is dropped (DESIGN CHOICE, log
106). -/
def yieldImage (s : State) (q : Nat) : State :=
  let x := s.slot q
  match csaKey s q with
  | none => s
  | some k =>
    let parked := (physWord s (k + 0x18)).getLsbD 58
    let held := x.ctx.children != [] || (x.ctx.parent.isSome && !x.ctx.sibling)
    let im : Image :=
      { csa := x.csaBase, asid := x.asid, key := k, tag := BitVec.ofNat 10 (physLE s (k + 0x40 + 14 * 8) 8), parked := parked,
        ctx := x.ctx, slot := q, laneBase := x.laneBase, laneCount := x.laneCount, held := held, accBase := x.accBase, accLim := x.accLim }
    let s1 := { s with images := s.images ++ [im] }
    if parked then s1 else readyImage s1 im

/-- Where what is in flight for a slot stands once the slot is FREE (10_context R265, R275): nowhere for a handler and a task; the writes to other
packages that no ACK covers yet of a context of a leaf group stay with its kernel, whose completion covers them (12_kernel R306). -/
def Slot.leaves (x : Slot) : Home :=
  match x.mode, x.ctx.work with
  | .context, .leaf k i => .ended k i none
  | _, _ => .gone

/-- The slot becomes FREE and its handler's operations in flight outlive it (10_context R265, R275). -/
def releaseSlot (s : State) (q : Nat) : State :=
  let s1 := dropTiles (closePorts (moveHome s (.slot q) (s.slot q).leaves) q) q
  s1.setSlot q (s1.slot q).freed

end Sys2Proof.Machine
end

