-- ==== Sys2Proof/Machine/Operands.lean ====
section
/-! DEFINITION. The operand forms of the instructions of the vector queue: the register groups that each reads and writes, with
their widths, and the checks of 05_vector R125 and R134 to R143, 06_vector_access R146, R161 and R165, and 07_tile R192. -/

namespace Sys2Proof.Machine

/-- A group of n vector registers with elements of w bits. -/
structure VGrp where
  reg : Nat
  n : Nat
  w : Nat
  deriving DecidableEq, Repr

/-- In which kind an instruction reads an operand (08_stream R206). -/
inductive ReadKind where
  | float
  | int
  | either
  deriving DecidableEq, Repr

/-- The vector operands of an instruction: the groups it writes, the groups it reads, whether the two shall be disjoint, and
whether the captured VCFG and VL suit the instruction. -/
structure Shape where
  dsts : List VGrp
  srcs : List (VGrp × ReadKind)
  disjoint : Bool
  ok : Bool
  deriving DecidableEq, Repr

/-- An instruction with no vector register group. -/
def Shape.none : Shape := ⟨[], [], false, true⟩

/-- Whether two groups share a register. -/
def VGrp.overlaps (a b : VGrp) : Bool := decide (a.reg < b.reg + b.n) && decide (b.reg < a.reg + a.n)

/-- Whether a group is aligned to its size, ends at or below v31 and has elements of a width that R119 gives (05_vector R125): the reserved EW codes,
which a launch record or a queue descriptor can put into VCFG, suit no instruction (DEDUCED, log 41). -/
def VGrp.placed (a : VGrp) : Bool := a.reg % a.n == 0 && decide (a.reg + a.n ≤ 32) && decide (a.w ≤ 64)

/-- The operand rules of R125. -/
def Shape.check (h : Shape) : Bool :=
  h.ok && h.dsts.all VGrp.placed && (h.srcs.all fun x => x.1.placed) &&
  h.dsts.all fun d => h.srcs.all fun x => !(d.overlaps x.1 && (h.disjoint || d.w != x.1.w))

/-- A group of 2^G registers at the width of a VCFG (05_vector R119). -/
def vGrp (c : BitVec 14) (r : Nat) : VGrp := ⟨r, 2 ^ vGroup c, vWidth c⟩

/-- One destination and some sources of the plain group. -/
def plainShape (c : BitVec 14) (d : Option Nat) (ss : List Nat) (k : ReadKind) (disjoint ok : Bool) : Shape :=
  ⟨(d.map (vGrp c)).toList, ss.map fun r => (vGrp c r, k), disjoint, ok⟩

/-- Whether the VCFG names a floating type (05_vector R135). -/
def hasFloat (c : BitVec 14) : Bool := (floatType c).isSome

/-- The source kind code of a VCFG (05_vector R119). -/
def vCvs (c : BitVec 14) : Nat := c.toNat / 2 ^ 12

/-- A widening instruction (05_vector R134). -/
def wideShape (c : BitVec 14) (d : Nat) (ss : List Nat) : Shape :=
  ⟨[⟨d, 2 * 2 ^ vGroup c, 2 * vWidth c⟩], ss.map fun r => (vGrp c r, .int), false,
    decide (vWidth c ≤ 32) && decide (2 * 2 ^ vGroup c ≤ 8)⟩

/-- VNSHR: its source group holds elements of twice the width (05_vector R134). -/
def narrowShape (c : BitVec 14) (d a : Nat) (ss : List Nat) : Shape :=
  ⟨[vGrp c d], (⟨a, 2 * 2 ^ vGroup c, 2 * vWidth c⟩, .int) :: ss.map fun r => (vGrp c r, .int), false, decide (vWidth c ≤ 32)⟩

/-- VFCVT's destination group (05_vector R136). -/
def cvtGroup (c : BitVec 14) (t : Nat) : Nat := max 1 (2 ^ vGroup c * (cvtFmt t).width / vWidth c)

/-- VFCVT (05_vector R136). The reserved CVS code names no source (DEDUCED, log 41). -/
def cvtShape (c : BitVec 14) (d a t : Nat) : Shape :=
  ⟨[⟨d, cvtGroup c t, (cvtFmt t).width⟩], [(vGrp c a, if vCvs c = 0 then .float else .int)], false,
    (vCvs c != 0 || hasFloat c) && vCvs c != 3 && decide (cvtGroup c t ≤ 8)⟩

/-- VPRUNE48: values at vd and metadata at vd + 2^G (05_vector R143). -/
def pruneShape (c : BitVec 14) (d a : Nat) : Shape :=
  ⟨[vGrp c d, ⟨d + 2 ^ vGroup c, 2 ^ vGroup c, 16⟩], [(vGrp c a, .int)], true, vWidth c == 8⟩

/-- The vector operands of the instructions of majors 0x20 to 0x24 (05_vector R133 to R143; 08_stream R206). -/
def arithShape (c : BitVec 14) : VArith → Shape
  | .vadd d a b _ | .vsub d a b _ | .vmul d a b _ | .vmulh d a b _ | .vmulhz d a b _ | .vdiv d a b _ | .vmin d a b _
  | .vmax d a b _ | .vminz d a b _ | .vmaxz d a b _ | .vand d a b _ | .vor d a b _ | .vxor d a b _ | .vshl d a b _
  | .vshr d a b _ | .vsar d a b _ | .vadds d a b _ | .vsubs d a b _ =>
    plainShape c (some d.toNat) [a.toNat, b.toNat] .int false true
  | .vabs d a _ => plainShape c (some d.toNat) [a.toNat] .int false true
  | .vwadd d a b _ | .vwmul d a b _ => wideShape c d.toNat [a.toNat, b.toNat]
  | .vnshr d a b _ => narrowShape c d.toNat a.toNat [b.toNat]
  | .vdot4 d a b _ => plainShape c (some d.toNat) [a.toNat, b.toNat] .int false (decide (8 ≤ vWidth c))
  | .vaddVs d a _ _ | .vsubVs d a _ _ | .vmulVs d a _ _ | .vmulhVs d a _ _ | .vmulhzVs d a _ _ | .vdivVs d a _ _
  | .vminVs d a _ _ | .vmaxVs d a _ _ | .vminzVs d a _ _ | .vmaxzVs d a _ _ | .vandVs d a _ _ | .vorVs d a _ _
  | .vxorVs d a _ _ | .vshlVs d a _ _ | .vshrVs d a _ _ | .vsarVs d a _ _ | .vaddsVs d a _ _ | .vsubsVs d a _ _ =>
    plainShape c (some d.toNat) [a.toNat] .int false true
  | .vwaddVs d a _ _ | .vwmulVs d a _ _ => wideShape c d.toNat [a.toNat]
  | .vnshrVs d a _ _ => narrowShape c d.toNat a.toNat []
  | .vdot4Vs d a _ _ => plainShape c (some d.toNat) [a.toNat] .int false (decide (8 ≤ vWidth c))
  | .vfadd d a b _ | .vfsub d a b _ | .vfmul d a b _ | .vfdiv d a b _ | .vfma d a b _ | .vfnms d a b _ | .vfmin d a b _
  | .vfmax d a b _ => plainShape c (some d.toNat) [a.toNat, b.toNat] .float false (hasFloat c)
  | .vfsqrt d a _ | .vfrec d a _ | .vfrsq d a _ | .vfexp2 d a _ | .vfclass d a _ =>
    plainShape c (some d.toNat) [a.toNat] .float false (hasFloat c)
  | .vfcvt d a t _ | .vfcvtSat d a t _ => cvtShape c d.toNat a.toNat t.toNat
  | .vfaddVs d a _ _ | .vfsubVs d a _ _ | .vfmulVs d a _ _ | .vfdivVs d a _ _ | .vfmaVs d a _ _ | .vfnmsVs d a _ _
  | .vfminVs d a _ _ | .vfmaxVs d a _ _ => plainShape c (some d.toNat) [a.toNat] .float false (hasFloat c)
  | .mand _ _ _ | .mor _ _ _ | .mxor _ _ _ | .mandn _ _ _ | .mpopc _ _ _ | .mffs _ _ _ | .msbf _ _ _ | .mset _ => Shape.none
  | .mfromv _ a _ => plainShape c none [a.toNat] .int false true
  | .mtov d _ _ | .viota d _ _ | .vbcast d _ _ | .vins d _ _ => plainShape c (some d.toNat) [] .either false true
  | .vslup d a _ _ | .vsldn d a _ _ => plainShape c (some d.toNat) [a.toNat] .either true true
  | .vperm d a b _ => plainShape c (some d.toNat) [a.toNat, b.toNat] .either true true
  | .vcomp d a _ | .vexpd d a _ => plainShape c (some d.toNat) [a.toNat] .either true true
  | .vmerge d a b _ => plainShape c (some d.toNat) [a.toNat, b.toNat] .either false true
  | .vextr _ a _ => plainShape c none [a.toNat] .either false true
  | .vredsum d a b _ | .vredmax d a b _ | .vredmin d a b _ =>
    plainShape c (some d.toNat) [a.toNat, b.toNat] .int false true
  | .vfredo d a b _ | .vfredu d a b _ | .vfredmax d a b _ =>
    plainShape c (some d.toNat) [a.toNat, b.toNat] .float false (hasFloat c)
  | .vscan d a _ => plainShape c (some d.toNat) [a.toNat] .int false true
  | .vprune48 d a => pruneShape c d.toNat a.toNat

/-- An indexed access: the index group has the width and grouping of the data (06_vector_access R146). -/
def indexedShape (c : BitVec 14) (d : Option Nat) (src : Option (Nat × ReadKind)) (b : Nat) (ok : Bool) : Shape :=
  ⟨(d.map (vGrp c)).toList, (src.map fun x => (vGrp c x.1, x.2)).toList ++ [(vGrp c b, .int)], d.isSome, ok && decide (8 ≤ vWidth c)⟩

/-- Whether VCFG's type suits a narrow format (06_vector_access R161). -/
def narrowTypeOk (c : BitVec 14) (f : Nat) : Bool := if f < 0xA then hasFloat c else decide (8 ≤ vWidth c)

/-- The vector operands of the other instructions of the vector queue, under a VCFG, VL and P (05_vector R137; 06_vector_access
R146, R165; 07_tile R192; 18_bucket R394, R395); none for any other instruction. -/
def otherShape (c : BitVec 14) (vl p : Nat) : Instr → Option Shape
  | .vcmp _ a b _ _ => some (plainShape c none [a.toNat, b.toNat] .int false true)
  | .vcmpVs _ a _ _ _ => some (plainShape c none [a.toNat] .int false true)
  | .vfcmp _ a b _ _ => some (plainShape c none [a.toNat, b.toNat] .float false (hasFloat c))
  | .vfcmpVs _ a _ _ _ => some (plainShape c none [a.toNat] .float false (hasFloat c))
  | .vld d _ _ | .vldff d _ _ => some (plainShape c (some d.toNat) [] .either false true)
  | .vlds d _ _ _ => some (plainShape c (some d.toNat) [] .either false (decide (8 ≤ vWidth c)))
  | .vldx d _ b _ | .vldxo d _ b _ => some (indexedShape c (some d.toNat) none b.toNat true)
  | .vst d _ _ => some (plainShape c none [d.toNat] .either false true)
  | .vsts d _ _ _ => some (plainShape c none [d.toNat] .either false (decide (8 ≤ vWidth c)))
  | .vstx d _ b _ | .vstxo d _ b _ => some (indexedShape c none (some (d.toNat, .either)) b.toNat true)
  | .vstxadd d _ b _ =>
    some (if vCvs c = 0 then indexedShape c none (some (d.toNat, .float)) b.toNat (hasFloat c)
      else indexedShape c none (some (d.toNat, .int)) b.toNat (vCvs c != 3))
  | .vldn d _ _ _ _ _ f => some (plainShape c (some d.toNat) [] .either false (narrowTypeOk c f.toNat))
  | .vstn d _ _ _ m _ f =>
    some (plainShape c none [d.toNat] .either false (narrowTypeOk c f.toNat &&
      !((narrowFmt f.toNat).isMx && (m != 0 || vl % 32 != 0 || p % 32 != 0))))
  | .kst _ a _ | .ksig _ a _ => some (plainShape c none [a.toNat] .float false (hasFloat c))
  | .tmovr _ v =>
    some (plainShape c (some v.toNat) [] .either false (if vCvs c = 0 then hasFloat c else vCvs c == 1 && vWidth c == 64))
  | .tmovw _ v => some (plainShape c none [v.toNat] .either false (vCvs c == 1 && vWidth c == 64))
  | _ => none

/-- The vector operands of a decoded word of the vector queue; none for a word of another queue (10_context R266). -/
def rowShape (c : BitVec 14) (vl p : Nat) : Row → Option Shape
  | .arith a => some (arithShape c a)
  | .instr i => otherShape c vl p i

/-- The vector operands of a queue entry. -/
def VEntry.shape (e : VEntry) : Option Shape :=
  match decodeToRow e.word with
  | .ok r => rowShape e.vcfg e.vl e.p r
  | .error _ => none

end Sys2Proof.Machine
end

