-- ==== Sys2Proof/Machine/Device.lean ====
section
/-! DEFINITION. The management window and what its words do (21_device R435 to R442; 19_shroud R414), the doorbell of a notify page
(14_queue R325), and the dispatch of a saved image (10_context R252, R266). -/

namespace Sys2Proof.Machine

/-- A Load failure at a dispatch (10_context R252, R266): the context is HANDLED in the slot, its handler entered with the failing
cause. An image whose handler cannot be found ends the context (R262), one of tag 0 alone (19_shroud R413); its leaf group is the caller's to end. -/
def handleFailed (s : State) (q : Nat) (ag : Agent) (c : Word) (cause : Nat) (aux : Word) : State :=
  match checkAddr s { ag with level := .supervisor } c.toNat .read with
  | .error _ =>
    if ag.tag = 0 then (recordEvent s (slotEvent 0x03 0 q 0 (victimWord 0 ag.asid 1) 0)).2 else failTag s ag.tag (slotEvent 0x0D 0 q 0 0 0)
  | .ok h =>
    let k := h.key
    let hpriv := wbits (physWord s (k + 0x18)) 61 60
    let tag := BitVec.ofNat 10 (physLE s (k + 0x40 + 14 * 8) 8)
    if hpriv ≠ 1 ∧ hpriv ≠ 2 then
      (if tag = 0 then (recordEvent (invalidateImage (cancelOps s (.image k)) k) (slotEvent 0x03 0 q 0 (victimWord 0 ag.asid 1) 0)).2
      else failTag s tag (slotEvent 0x0D 0 q 0 0 0))
    else
      let x := s.slot q
      let pc := physWord s (k + 0x10)
      let y := x.savedAway.enterHandler (if hpriv = 2 then .firmware else .supervisor) (physWord s k) (physWord s (k + 8))
        ⟨cause, pc, 0, aux, false, false⟩ false
      s.setSlot q { y with asid := ag.asid, shtag := tag, servedTag := tag, csaBase := c,
                           prio := BitVec.ofNat 4 (physLE s (k + 0x40 + 15 * 8) 8) }

/-- Load of an image at a dispatch (10_context R266): none when it must wait for tile-queue entries. -/
def dispatchImage (s : State) (q : Nat) (ag : Agent) (c : Word) : Option State :=
  match load s q ag c with
  | .ok s1 => some s1
  | .error none => none
  | .error (some (cause, aux)) => some (handleFailed s q ag c cause aux)

/-- A slot is quarantined (19_shroud R409): class 1, or its core's matrix of units cannot run it. -/
def slotQuarantined (s : State) (q : Nat) : Bool := s.quarUnits.contains (1, q)

/-- Whether a unit is the one that FREEZE holds (21_device R438): by the class and index of RBSEL (DEDUCED, log 72). -/
def frozenUnit (s : State) (cls idx : Nat) : Bool :=
  s.mgmt.frozen && wbits s.mgmt.rbsel 7 0 == cls && wbits s.mgmt.rbsel 20 8 == idx

/-- Whether the queue units and ready pools have started (21_device R435). -/
def started (s : State) : Bool := s.mgmt.phase == 4

/-- What ended contexts of ENDING leaf groups still hold (13_group R312). -/
def keptAll (s : State) : List Kept := s.kernels.flatMap fun k => k.2.leaves.flatMap Leaf.kept

/-- Whether a slot is FREE and may take a context (13_group R312; 14_queue R335): not quarantined and not held by an ending leaf group. A switched-out
forked context holds the lane groups of its slot, not the slot (13_group R316). -/
def slotOpen (s : State) (q : Nat) : Bool :=
  decide ((s.slot q).st = .free) && !slotQuarantined s q && !(keptAll s).any fun h => h.slot == some q

/-- The lowest open slot of some slots (14_queue R335; 21_device R436). -/
def freeSlotAmong (s : State) (qs : List Nat) : Option Nat := qs.find? (slotOpen s)

/-- The slots of a compute die (01_anatomy R20). -/
def slotsOfDie (d : Nat) : List Nat := (List.range 1024).map fun i => 1024 * d + i

/-- Number the context of a slot that begins as its own source (14_queue R334). -/
def newContext (s : State) (q : Nat) (prio : Nat) : State :=
  let x := s.slot q
  { s.setSlot q { x with ctx := { Ctx.none with id := s.nextCtx, source := .own s.nextCtx }, runPrio := prio, order := s.nextOrder } with
    nextCtx := s.nextCtx + 1, nextOrder := s.nextOrder + 1 }

/-- The load of a FWLAUNCH into a slot (21_device R436): at firmware level; its CSA is read under ASID 0 and tag 0 (DEDUCED, log 12). None while the
image waits for tile-queue entries (10_context R266). -/
def launchInto (s : State) (csa : Word) (q : Nat) : Option State :=
  let ag : Agent := { slice := noSlice, asid := 0, level := .firmware, tag := 0, cluster := clusterOf q }
  (dispatchImage (s.setSlot q (s.slot q).blank) q ag csa).map fun s1 =>
    if (s1.slot q).st = .free then s1 else newContext s1 q (s1.slot q).prio.toNat

/-- The open slots of compute die 0. -/
def launchSlots (s : State) : List Nat := (slotsOfDie 0).filter (slotOpen s)

/-- FWLAUNCH (21_device R436): the image is loaded into a FREE slot of compute die 0; with none the write is ignored. Where the load must wait for
tile-queue entries in every such slot, the launch waits (10_context R266). -/
def fwLaunch (s : State) (csa : Word) : State :=
  if (launchSlots s).isEmpty then s
  else ((launchSlots s).findSome? (launchInto s csa)).getD { s with mgmt := { s.mgmt with launches := s.mgmt.launches ++ [csa] } }

/-- A waiting FWLAUNCH goes on, as soon as it can. -/
def launchNext (s : State) : State :=
  match s.mgmt.launches with
  | [] => s
  | csa :: rest => ((launchSlots s).findSome? (launchInto { s with mgmt := { s.mgmt with launches := rest } } csa)).getD s

/-- Device reset (21_device R435): every register takes its reset value and every slot is FREE. What memory holds is kept (DESIGN
CHOICE, log 13), and so are the steps that are to come. -/
def deviceReset (s : State) : State :=
  { State.reset with agenda := s.agenda, free := s.free, mem := s.mem, poison := s.poison.filter fun e => !isPad (e.1 * 64) }

/-- MCTL.BOOT (21_device R435): FIRMWARE moves to READY; once set it stays. -/
def mctlBoot (s : State) : State :=
  if s.mgmt.phase = 3 then { s with mgmt := { s.mgmt with boot := true, phase := 4 } } else s

/-- MCTL.HINT raises MSI-X vector 1 (21_device R437). -/
def mctlHint (s : State) : State := raiseMsix s 1

/-- MCTL.FREEZE (21_device R438): clearing it resumes the unit, and the kills that waited for that are carried out. -/
def mctlFreeze (s : State) (on : Bool) : State :=
  let m := s.mgmt
  let s1 := { s with mgmt := { m with
    freeze := on, frozen := on && m.frozen, kills := if on then m.kills else [], snap := if on then m.snap else [],
    snapTags := if on then m.snapTags else [] } }
  if on then s1 else s.mgmt.kills.foldl (fun st k => failTag st k.1 k.2) s1

/-- MCTL.CAPT (21_device R441): capture begins at the start of the buffer. Beside RERUN it is not set (R437). -/
def mctlCapt (s : State) (on : Bool) : State :=
  if on && s.mgmt.rerun then s
  else if on && !s.mgmt.capt then { s with mgmt := { s.mgmt with capt := true, rpos := 0, rfull := false } }
  else { s with mgmt := { s.mgmt with capt := on } }

/-- MCTL.RERUN (21_device R442): the replay begins at the start of the buffer. Beside CAPT it is not set (R437). -/
def mctlRerun (s : State) (on : Bool) : State :=
  if on && s.mgmt.capt then s
  else { s with mgmt := { s.mgmt with rerun := on, rcur := if on && !s.mgmt.rerun then 0 else s.mgmt.rcur } }

/-- PBUDGET (21_device R439): bits [11:0], clamped to 1,000 to 2,700 watts. -/
def pbudgetWrite (s : State) (v : Word) : State :=
  { s with mgmt := { s.mgmt with pbudget := max 1000 (min 2700 (wbits v 11 0)) } }

/-- The state of a Muaris link. -/
def State.link (s : State) (l : Nat) : MLink := tabGet s.muaris MLink.reset l

/-- A link that management disables (20_link R429, R432): what it held is lost, and reads that it held complete with poison under a record of its
own. -/
def linkDown (s : State) (l : Nat) : State :=
  if s.heldReads.any fun x => x.1 == l then
    let r := recordEvent s (portEvent 0x0F 14 l 0 0 true)
    linkLost r.2 l (BitVec.ofNat 12 r.1)
  else linkLost s l 0

/-- LINKEN (20_link R429, R432): bit l enables link l from DOWN into TRAINING; a cleared bit disables it to DOWN, and the writes it held are lost. -/
def linkenWrite (s : State) (v : Word) : State :=
  let ends := (List.range 18).filter fun l => !v.getLsbD l && (s.link l).st != .down && (s.link l).st != .quarantined
  ends.foldl linkDown { s with
    mgmt := { s.mgmt with linken := v &&& 0x3FFFF#64 }
    muaris := (List.range 18).foldl (fun t l =>
      let x := tabGet t MLink.reset l
      if v.getLsbD l && x.st == .down then tabSet t l { x with st := .training, fails := 0 }
      else if !v.getLsbD l && x.st != .down && x.st != .quarantined then tabSet t l { x with st := .down }
      else t) s.muaris }

/-- An error record that holds nothing (19_shroud R415). -/
def ErrRec.zero : ErrRec := ⟨0, 0, 0, 0, 0, 0, 0, 0⟩

/-- A write of an error record's HDR (19_shroud R414, R415): VALID and HELD are RW; the other fields and words stay (DEDUCED, log 73). -/
def errorHdrWrite (s : State) (n : Nat) (v : Word) : State :=
  let r := tabGet s.errors ErrRec.zero n
  let r' : ErrRec := { r with hdr := (r.hdr &&& 0x3FFFFFFFFFFFFFFF#64) ||| (v &&& 0xC000000000000000#64) }
  if r' = r then s else { s with errors := tabSet s.errors n r' }

/-- Freeing an error record (19_shroud R414): its HDR is written as zero. -/
def errorRecordFree (s : State) (n : Nat) : State := errorHdrWrite s n 0

/-- A window word without behaviour of its own (21_device R436): the words that BOOT locks, the error queue, RBSEL, whose new unit a
freeze has still to hold, the replay buffer, the routing table and the inbound windows. -/
def mgmtRegWrite (s : State) (off : Nat) (v : Word) : State :=
  let m := s.mgmt
  if off = 0x40 then (if m.boot then s else { s with asidTab := v &&& 0x000FFFFFFFFE0000#64 })
  else if off = 0x48 then (if m.boot then s else { s with qtab := v &&& 0x000FFFFFFFFF0000#64 })
  else if off = 0x50 then (if m.boot then s else { s with notify := v &&& 0x000FFFFFFF000000#64 })
  else if off = 0x58 then (if m.boot then s else { s with nid := BitVec.ofNat 8 v.toNat })
  else if off = 0x60 then { s with errq := v &&& 0x8000000000000FFF#64 }
  else if off = 0x68 then { s with errEntry := v }
  else if off = 0x90 then { s with mgmt := { m with rbsel := v &&& 0xFFFFFF#64, frozen := false } }
  else if off = 0x98 then { s with mgmt := { m with rpbase := v &&& 0x000FFFFFFFFFF000#64 } }
  else if off = 0xA0 then { s with mgmt := { m with rplen := v } }
  else if 0x800 ≤ off ∧ off < 0x1000 then { s with mgmt := { m with routing := tabSet m.routing ((off - 0x800) / 8) (v &&& 0x3FFFF#64) } }
  else if 0x1000 ≤ off ∧ off < 0x2400 then
    let i := (off - 0x1000) / 16
    let w := tabGet m.windows (0, 0) i
    let w' := if (off - 0x1000) % 16 = 0 then (v &&& 0x000FFFFFFFFFF000#64, w.2) else (w.1, v &&& 0x000FFFFFFFFFF003#64)
    { s with mgmt := { m with windows := tabSet m.windows i w' } }
  else if 0x40000 ≤ off ∧ off < 0x80000 ∧ off % 64 = 0 then errorHdrWrite s ((off - 0x40000) / 64) v
  else s

/-- MCTL (21_device R437): a write that sets CAPT and RERUN together writes neither; any other gives both their new values. -/
def mctlWrite (s : State) (v : Word) : State :=
  if v.getLsbD 0 then deviceReset s
  else
    let s1 := if v.getLsbD 1 then mctlBoot s else s
    let s2 := if v.getLsbD 2 then mctlHint s1 else s1
    let s3 := mctlFreeze s2 (v.getLsbD 3)
    if v.getLsbD 4 && v.getLsbD 5 then s3
    else if v.getLsbD 4 then mctlCapt (mctlRerun s3 false) true
    else mctlRerun (mctlCapt s3 false) (v.getLsbD 5)

/-- An access to the window that writes (21_device R436): only aligned 8-byte writes act, and RO and RZ words ignore them. -/
def mgmtWrite (s : State) (off : Nat) (bytes : List Byte) : State :=
  if off % 8 ≠ 0 ∨ bytes.length ≠ 8 then s
  else
    let v : Word := BitVec.ofNat 64 (leNat bytes)
    if off = 0 then mctlWrite s v
    else if off = 0x70 then linkenWrite s v
    else if off = 0x78 then fwLaunch s v
    else if off = 0x80 then pbudgetWrite s v
    else mgmtRegWrite s off v

/-- The words of an error record (19_shroud R415). -/
def ErrRec.words (r : ErrRec) : List Word := [r.hdr, r.time, r.unit, r.addr, r.victim, r.slot, r.pc, r.detail]

/-- A segment's status word (02_numbers R53). -/
def SegStatus.word (g : SegStatus) : Word :=
  BitVec.ofNat 64 (g.reefCnt * 2 ^ 48 + (if g.empty then 2 ^ 38 else 0) + g.hr * 2 ^ 32 + (g.exp % 65536).toNat)

/-- A segment of a core: its number is row × 4 + column segment (02_numbers R53). Where its row holds undefined contents (12_kernel
R304) an unlisted segment is a free value. -/
def Core.segment (c : Core) (i : Nat) : SegStatus :=
  match tabFind c.seg i, tabFind c.fresh (8 + i / 4) with
  | some g, _ => g
  | none, none => SegStatus.reset
  | none, some f =>
    let w := (Config.freeValue (f + i % 4)).toNat
    ⟨w % 2 ^ 16, w.testBit 16, w / 2 ^ 17 % 62, (w / 2 ^ 32 % 2 ^ 16 : Nat) - (2 ^ 15 : Int)⟩

/-- A cell of a core's accumulator store, by row × 128 + column; free where its row holds undefined contents. -/
def Core.cell (c : Core) (i : Nat) : AccCell :=
  match tabFind c.acc i, tabFind c.fresh (8 + i / 128) with
  | some a, _ => a
  | none, none => ⟨0, none⟩
  | none, some f => ⟨Config.freeValue (f + 4 + i % 128), none⟩

/-- A chunk of a core's vector or mask store: lane group, register (32 + m for a mask) and chunk. -/
def vecKey (lg r j : Nat) : Nat := (lg * 40 + r) * 32 + j

/-- The value of a chunk; free where its lane group holds undefined contents (12_kernel R304). -/
def Core.chunk (c : Core) (key : Nat) : VChunk :=
  match tabFind c.vec key, tabFind c.fresh (key / 1280) with
  | some v, _ => v
  | none, none => ⟨0, none⟩
  | none, some f => ⟨Config.freeValue (f + key % 1280), none⟩

/-- A word of a lane group's readback (21_device R438): the register slice, the mask slice, the poison of each chunk as PSN codes, four to a word, then
the suspect score. The group is a physical one, and shows the logical lane group that the core maps to it (19_shroud R420). -/
def lgReadback (c : Core) (phys i : Nat) : Word :=
  let chunkAt := fun n => match c.laneMap.findIdx? fun g => g == phys with
    | some lg => if n < 1024 then c.chunk (vecKey lg (n / 32) (n % 32)) else c.chunk (vecKey lg (32 + (n - 1024) / 16) ((n - 1024) % 16))
    | none => ⟨0, none⟩
  if i < 1152 then (chunkAt i).bits
  else if i < 1152 + 288 then
    BitVec.ofNat 64 ((List.range 4).foldl (fun a j =>
      a + psnOf ((chunkAt (4 * (i - 1152) + j)).poison.map (·.1)) * 2 ^ (16 * j)) 0)
  else if i = 1440 then BitVec.ofNat 64 (tabGet c.score 0 phys)
  else 0

/-- The 33 words of a segment record (07_tile R190): its status and its 32 cells. -/
def segWord (c : Core) (i j : Nat) : Word :=
  if j = 0 then (c.segment i).word else (c.cell (i / 4 * 128 + i % 4 * 32 + (j - 1))).bits

/-- The number of units of a class, whose indices run from 0 (01_anatomy R14, R20; 19_shroud R415): for class 2 of cores, whose lane groups
are its sub-units. The 64 page walkers of compute die d have the indices from 64 d, the one trim unit has index 0, and a queue unit has the
number of its queue (DESIGN CHOICE, log 88, log 85). -/
def unitCount (cls : Nat) : Nat :=
  match cls with
  | 1 => 8192
  | 2 | 3 | 4 => Config.cores
  | 5 | 8 | 9 | 10 => 8
  | 6 => 256
  | 7 => 16
  | 11 => 512
  | 12 => 12
  | 13 => 6
  | 14 => 18
  | 15 => 1
  | 16 => 4096
  | _ => 0

/-- What a copy engine holds (21_device R438): its copy slots as captured specifications (log 57). -/
def copyWords (s : State) (engine : Nat) : List Word :=
  (s.copies.filter fun e => e.2.engine == engine).flatMap fun e => (List.range 8).map (wordAt e.2.spec)

/-- What a KBU holds (21_device R438): for each LOADED projection slot a word of its number, D, B, KTYPE and tag and then its signs, and for each claim
its table, head and token (log 57). -/
def kbuWords (s : State) (kbu : Nat) : List Word :=
  ((s.proj.filter fun e => e.1 / 64 == kbu).flatMap fun e =>
    BitVec.ofNat 64 (e.1 % 64 + e.2.d * 2 ^ 8 + e.2.b * 2 ^ 24 + e.2.ktype * 2 ^ 40 + e.2.tag.toNat * 2 ^ 48) :: wordsOfBytes e.2.signs) ++
  (s.claims.filter fun e => clusterOf e.2.slot == kbu).flatMap fun e => [e.2.table, BitVec.ofNat 64 e.2.head, BitVec.ofNat 64 e.2.token]

/-- What a topology engine holds, as numbers (21_device R438; 16_mesh R359; log 57). -/
def meshHome (s : State) (key : Nat) : Nat := readLE s.mem (key + 7) 1
def meshNumbers (key : Nat) (m : Mesh) : List Nat :=
  [key, m.dim, m.tag.toNat, m.leaves.length] ++ m.coords.map BitVec.toNat ++ m.roots.flatten ++ m.pending.flatMap fun p => [p.1, p.2]

/-- What identifies a pool entry, as numbers (21_device R438; log 57). -/
def poolNumbers (e : PoolEntry) : List Nat :=
  [e.prio, e.weight, e.tag.toNat] ++ (match e.kind with
    | .task n p => [1, n, p]
    | .leaf k i => [2, k, i]
    | .resume c a => [3, c.toNat, a.toNat]
    | .cont _ en v _ ar fu => [4, en.toNat, v.toNat, ar.toNat, fu.toNat]
    | .sibling p en _ => [5, p, en.toNat])

/-- What a ready pool holds (21_device R438): each entry as the eight words of a task record, free ones where it is no task, and a state word, which is
free (log 57). -/
def poolWords (s : State) (d : Nat) : List Word :=
  (s.pool.filter fun e => e.die == d).flatMap fun e =>
    ((match e.kind with
      | .task n p => (findTask s n p).map fun (t : Task) => (List.range 8).map (wordAt t.words)
      | _ => none).getD ((List.range 8).map (Config.readbackWord 10 (poolNumbers e)))) ++ [Config.readbackWord 10 (poolNumbers e) 8]

/-- What a queue unit holds (21_device R438): the queue's NOTIFIED, the positions taken, and HEAD, TAIL, SHEAD and STAIL of its descriptor (log 57). -/
def queueWords (s : State) (n : Nat) : List Word :=
  let x := s.queue n
  [BitVec.ofNat 64 x.notified, BitVec.ofNat 64 x.taken] ++
  (match descWords s n with
    | .ok d => [wordAt d 2, wordAt d 3, wordAt d 6, wordAt d 7]
    | .error _ => [])

/-- The region tables as numbers, for their readback (09_guard R235; log 57). -/
def regionNumbers (s : State) : List Nat := s.regions.flatMap fun e => [e.1, e.2.base.toNat, e.2.len.toNat, e.2.guard.toNat, e.2.tag.toNat]

/-- A slot as an image in the CSA layout (21_device R438; 10_context R253): SVPC, SVSP and HPRIV as its CSA holds them, and the next instruction. -/
def slotWords (s : State) (q : Nat) : List Word :=
  let x := s.slot q
  let r : Report := ⟨x.trapCause.toNat, x.trapPc, x.trapAddr, x.trapAux, x.trapQueue, x.trapFrlost⟩
  match csaKey s q with
  | some k => [physWord s k, physWord s (k + 8)] ++ wordsOfBytes (imageBytes s q (wbits (physWord s (k + 0x18)) 61 60) r x.pc)
  | none => [0, 0] ++ wordsOfBytes (imageBytes s q 0 r x.pc)

/-- A word of the readback aperture (21_device R438), for the unit that RBSEL selects. A class or index out of range shows zero; where R438 gives
no offsets, a free function of what the unit holds, and the region tables, which the window reads too (09_guard R235), stand with the page walkers
(DESIGN CHOICE, log 57). -/
def apertureWord (s : State) (i : Nat) : Word :=
  let cls := wbits s.mgmt.rbsel 7 0
  let idx := wbits s.mgmt.rbsel 20 8
  let sub := wbits s.mgmt.rbsel 23 21
  if (cls ≠ 2 ∧ sub ≠ 0) ∨ unitCount cls ≤ idx then 0
  else match cls with
  | 1 => (if i < 512 then wordAt (slotWords s idx) i else 0)
  | 2 => lgReadback (s.core idx) sub i
  | 3 =>
    let c := s.core idx
    if i < 512 * 33 then segWord c (i / 33) (i % 33)
    else if i < 512 * 33 + 64 then (match tabFind c.reefLog (i - 512 * 33) with | some e => e.word | none => 0)
    else if i < 512 * 33 + 64 + 128 then BitVec.ofNat 64 (tabGet c.rowTag 0 (i - 512 * 33 - 64)).toNat
    else 0
  | 4 =>
    let held := frozenUnit s 4 idx
    if i < 0x20000 then readWord (if held then s.mgmt.snap else s.mem) (padKeyOf idx (8 * i))
    else if i < 0x20010 then BitVec.ofNat 64 (tabGet (if held then s.mgmt.snapTags else s.sectors) 0 (idx * 16 + (i - 0x20000))).toNat
    else 0
  | 6 => wordAt (copyWords s idx) i
  | 7 => wordAt (kbuWords s idx) i
  | 8 => Config.readbackWord 8 ((s.meshes.filter fun e => meshHome s e.1 == idx).flatMap fun e => meshNumbers e.1 e.2) i
  | 10 => wordAt (poolWords s idx) i
  | 11 => Config.readbackWord 11 (idx :: regionNumbers s) i
  | 14 =>
    let x := s.link idx
    Config.readbackWord 14 [idx, x.fails, x.rx.toNat, x.acked.toNat, x.replays] i
  | 16 => wordAt (queueWords s idx) i
  | _ => Config.readbackWord cls [idx] i

/-- MSTAT (21_device R437). -/
def mstatWord (s : State) : Word :=
  BitVec.ofNat 64 (min 255 s.mgmt.quar * 256 + s.mgmt.frozen.toNat * 128 + s.mgmt.rfull.toNat * 64 + s.mgmt.phase)

/-- An aligned word of the window (21_device R436). -/
def mgmtWord (s : State) (off : Nat) : Word :=
  let m := s.mgmt
  if off = 0 then BitVec.ofNat 64 (m.rerun.toNat * 32 + m.capt.toNat * 16 + m.freeze.toNat * 8 + m.boot.toNat * 2)
  else if off = 8 then mstatWord s
  else if off = 0x40 then s.asidTab
  else if off = 0x48 then s.qtab
  else if off = 0x50 then s.notify
  else if off = 0x58 then BitVec.ofNat 64 s.nid.toNat
  else if off = 0x60 then s.errq
  else if off = 0x68 then s.errEntry
  else if off = 0x70 then m.linken
  else if off = 0x80 then BitVec.ofNat 64 m.pbudget
  else if off = 0x88 then BitVec.ofNat 64 ((List.range 8).foldl (fun a d => a + tabGet m.gates 0 d * 16 ^ d) 0)
  else if off = 0x90 then m.rbsel
  else if off = 0x98 then m.rpbase
  else if off = 0xA0 then m.rplen
  else if 0x800 ≤ off ∧ off < 0x1000 then tabGet m.routing 0 ((off - 0x800) / 8)
  else if 0x1000 ≤ off ∧ off < 0x2400 then
    (let w := tabGet m.windows (0, 0) ((off - 0x1000) / 16); if (off - 0x1000) % 16 = 0 then w.1 else w.2)
  else if 0x40000 ≤ off ∧ off < 0x80000 then
    (match tabFind s.errors ((off - 0x40000) / 64) with | some r => wordAt r.words (off % 64 / 8) | none => 0)
  else if 0x2000000 ≤ off then apertureWord s ((off - 0x2000000) / 8)
  else 0

/-- A read of n bytes of the window (21_device R436): anything but an aligned 8-byte read gives zero. -/
def mgmtRead (s : State) (off n : Nat) : List Byte :=
  if off % 8 = 0 ∧ n = 8 then leBytes 8 (mgmtWord s off).toNat else List.replicate n 0

/-- Append an entry to the replay buffer (21_device R441): KIND, SRC and DATA; its TIME is a free value (log 7). Capture ends with
the entry that fills the buffer. -/
def capture (s : State) (kind src : Nat) (data : List Byte) : State :=
  if s.mgmt.capt = false then s
  else if s.mgmt.rplen.toNat < s.mgmt.rpos + 64 then { s with mgmt := { s.mgmt with capt := false, rfull := true } }
  else
    let r := drawFree s
    let e := leBytes 8 r.1.toNat ++ leBytes 1 kind ++ leBytes 7 src ++ padTo 48 (data.take 48)
    let s1 := physWrite r.2 (keyOfPa s s.mgmt.rpbase.toNat + s.mgmt.rpos) e none
    let full := decide (s.mgmt.rplen.toNat < s.mgmt.rpos + 128)
    { s1 with mgmt := { s1.mgmt with rpos := s.mgmt.rpos + 64, capt := s1.mgmt.capt && !full, rfull := s1.mgmt.rfull || full } }

/-- SRC of the capture of inbound data (21_device R441): the port, 16 and up for a Muaris link; whether it is a write, and of poisoned data; where in
the granule how many bytes lie, and whether more of the same write follow (DESIGN CHOICE, log 58). -/
def inboundSource (source a len : Nat) (wr ep more : Bool) : Nat :=
  source + wr.toNat * 2 ^ 16 + ep.toNat * 2 ^ 17 + more.toNat * 2 ^ 18 + a % 64 * 2 ^ 24 + len * 2 ^ 32

/-- The capture of an inbound write or read completion (21_device R441): its granule address and data, at most 32 bytes in an entry. -/
def captureData (s : State) (source pa : Nat) (wr ep : Bool) (data : List Byte) : State :=
  (List.range ((data.length + 31) / 32)).foldl (fun st i =>
    let part := (data.drop (32 * i)).take 32
    let a := pa + 32 * i
    capture st 3 (inboundSource source a part.length wr ep (wr && decide (32 * (i + 1) < data.length))) (leBytes 8 (a / 64 * 64) ++ part)) s

/-- The capture of inbound data without poison. -/
def captureInbound (s : State) (source pa : Nat) (wr : Bool) (data : List Byte) : State := captureData s source pa wr false data

/-- The capture of a doorbell value (21_device R441): SRC is the queue, with a mark for a write from outside the package (DESIGN CHOICE, log 58). -/
def doorbellSource (n : Nat) (outside : Bool) : Nat := n + outside.toNat * 2 ^ 48

/-- The next entry of the buffer that a replay run follows (21_device R442): KIND, SRC and DATA; none past its end. -/
def replayEntry (s : State) : Option (Nat × Nat × List Byte) :=
  let a := keyOfPa s s.mgmt.rpbase.toNat + s.mgmt.rcur
  let kind := physLE s (a + 8) 1
  if s.mgmt.rerun = true ∧ s.mgmt.rcur + 64 ≤ s.mgmt.rplen.toNat ∧ 1 ≤ kind ∧ kind ≤ 4 then some (kind, physLE s (a + 9) 7, physRead s (a + 16) 48)
  else none

/-- The replay run past one entry. -/
def replayPast (s : State) : State := { s with mgmt := { s.mgmt with rcur := s.mgmt.rcur + 64 } }

/-- Whether the next entry of a replay run records an event of a kind, source and data, or none is left to follow (21_device R442). -/
def replayAllows (s : State) (kind src : Nat) (data : List Byte) : Bool :=
  match replayEntry s with
  | none => true
  | some e => e.1 == kind && e.2.1 == src && e.2.2 == padTo 48 (data.take 48)

/-- The replay run past the entry that records an event, if that is the next one. -/
def replayMatch (s : State) (kind src : Nat) (data : List Byte) : State :=
  if (replayEntry s).isSome ∧ replayAllows s kind src data = true then replayPast s else s

/-- The n bytes of a read completion that a replay run holds next (21_device R442), in the entries of captureInbound, and the run past them. -/
def replayInbound (s : State) (source pa n : Nat) : Option (List Byte × State) :=
  (List.range ((n + 31) / 32)).foldl (fun o i => o.bind fun x =>
    let len := min 32 (n - 32 * i)
    let a := pa + 32 * i
    match replayEntry x.2 with
    | some (3, src, data) =>
      if src = inboundSource source a len false false false ∧ leNat (data.take 8) = a / 64 * 64 then
        some (x.1 ++ (data.drop 8).take len, replayPast x.2)
      else none
    | _ => none) (some ([], s))

/-- The fields of TQSTAT's word that a descriptor's words give (14_queue R341). -/
def tqstatFields (s : State) (n : Nat) (d : List Word) : Nat :=
  (dEn d).toNat * 2 ^ 63 + (dDev d).toNat * 2 ^ 62 + min (2 ^ 17 - 1) (dStail d - dShead d) * 2 ^ 40 +
    min (2 ^ 17 - 1) (max (dTail d) (s.queue n).notified - dHead d) * 2 ^ 23 + dPrio d

/-- TQSTAT's word for a queue (14_queue R341): zero where its table entry is invalid. What a descriptor that cannot be read would give is free (DESIGN
CHOICE, log 14). -/
def tqstatOf (s : State) (n : Nat) : Word :=
  let win := (s.tasks.filter fun t => t.queue == n).length * 2 ^ 16
  match descWords s n with
  | .error .noEntry => 0
  | .error _ => (Config.freeValue s.free &&& 0xC1FFFFFFFF80000F#64) ||| BitVec.ofNat 64 win
  | .ok d => BitVec.ofNat 64 (tqstatFields s n d + win)

/-- The state after a read of TQSTAT's word, past the free value it may have taken. -/
def tqstatRead (s : State) (n : Nat) : State :=
  match descWords s n with
  | .error .noEntry | .ok _ => s
  | .error _ => (drawFree s).2

/-- Whether a doorbell value is ignored (14_queue R325), by the words of its queue's descriptor. -/
def doorbellIgnored (s : State) (n : Nat) (d : List Word) (v : Word) (outside : Bool) : Bool :=
  dDev d || (outside && !qHostOk s n) || decide (dNent d < (v - BitVec.ofNat 64 (dHead d)).toNat)

/-- A doorbell write of a value to a queue (14_queue R325), from outside the package or not. Every value ignored is counted, and the queue tries again
whatever the value (R324). A descriptor that can be read serves the check though it breaks R324; where it cannot, the value is ignored. -/
def doorbell (s0 : State) (n : Nat) (v : Word) (outside : Bool) : State :=
  let s := capture (replayMatch s0 2 (doorbellSource n outside) (leBytes 8 v.toNat)) 2 (doorbellSource n outside) (leBytes 8 v.toNat)
  match descWords s n with
  | .error f => queueFailed (countErr s n) n f
  | .ok d =>
    let s1 := if doorbellIgnored s n d v outside then countErr s n
      else s.setQueue n { s.queue n with notified := max (s.queue n).notified v.toNat }
    if descOk d then wakeQueue s1 n else queueFailed s1 n .broken

/-- A write to a notify page (14_queue R325): only an aligned 8-byte write at offset 0 acts. -/
def notifyWrite (s : State) (off : Nat) (bytes : List Byte) (outside : Bool) : State :=
  if off % 4096 = 0 ∧ bytes.length = 8 then doorbell s (off / 4096) (BitVec.ofNat 64 (leNat bytes)) outside else s

/-- A read of bytes of a notify page (14_queue R325): the STATUS word at offset 8, and zeros elsewhere. -/
def notifyRead (s : State) (off n : Nat) : List Byte :=
  (List.range n).map fun i =>
    if (off + i) % 4096 / 8 = 1 then BitVec.ofNat 8 ((tqstatOf s ((off + i) / 4096)).toNat / 2 ^ (8 * ((off + i) % 8))) else 0

end Sys2Proof.Machine
end

