-- ==== Sys2Proof/Machine/Access.lean ====
section
/-! DEFINITION. Accesses that have passed Probe: what a read returns and a write does at each class of address (08_stream R225;
14_queue R325; 20_link R430 to R432; 21_device R436), the reports of failing ones (04_sequencer R88; 06_vector_access R155, R156),
and the checks that instructions share (03_encoding R62; 04_sequencer R81, R87). -/

namespace Sys2Proof.Machine

/-- What a read gives: its bytes, their poison, and the state after it. -/
structure Got where
  bytes : List Byte
  poison : Option PTag
  st : State
  deriving DecidableEq, Repr

/-- A link's state replaced. -/
def State.setLink (s : State) (l : Nat) (x : MLink) : State := { s with muaris := tabSet s.muaris l x }

/-- Whether a link carries flits (20_link R429). -/
def MLink.live (x : MLink) : Bool := x.st == .up || x.st == .degraded

/-- The link that a request to another package's address goes out on (20_link R430, R431): that which still holds traffic of the granule, else one of
the routing mask that is UP or DEGRADED. -/
def linkFor (s : State) (key : Nat) : Option Nat :=
  match s.sent.find? fun x => x.key / 64 == key / 64 with
  | some x => some x.link
  | none =>
    let usable := (List.range 18).filter fun l => (tabGet s.mgmt.routing 0 (key / 2 ^ 44)).getLsbD l && (s.link l).live
    usable[Config.linkHash (key / 256 % 64) % usable.length]?

/-- The data flit of a write that stands in a replay buffer, as it is sent on its link with the link's ACK (20_link R427, R428). -/
def Sent.flit (s : State) (x : Sent) : Output := .flit x.link 0 x.seq (s.link x.link).rx x.key x.bytes

/-- The flits that stand in the replay buffer of a link (20_link R428): the oldest 1,024 of its writes that no ACK covers. -/
def replayBuffer (s : State) (l : Nat) : List Sent := (s.sent.filter fun x => x.link == l).take 1024

/-- A write given to its link (20_link R428, R431), as the data of one flit (DESIGN CHOICE, log 8): it is sent at once where the link carries flits
and its replay buffer has a place. -/
def sendWrite (s : State) (l : Nat) (h : Home) (tag : STag) (key : Nat) (bytes : List Byte) (p : Option PTag) : State :=
  let x := s.link l
  let e : Sent := ⟨l, x.tx + 1, h, tag, key, bytes, p⟩
  { s.setLink l { x with tx := x.tx + 1 } with
    sent := s.sent ++ [e]
    out := if x.live ∧ (replayBuffer s l).length < 1024 then s.out ++ [e.flit s] else s.out }

/-- The event of a request that no link can carry (20_link R430, R432): the index is the lowest link of its routing mask (log 8). -/
def linkEvent (s : State) (key : Nat) (held : Bool) : Event :=
  { kind := 0x0F, cause := 0, held := held, unitClass := 14,
    unitIndex := ((List.range 18).find? fun l => (tabGet s.mgmt.routing 0 (key / 2 ^ 44)).getLsbD l).getD 0, sub := 0, addr := key, victim := 0,
    slot := none, pc := 0, detail := 0 }

/-- The links whose traffic of a range holds back a read of it (20_link R431), each with the granule: RETRAINING links that still hold a write to it. -/
def linkHolds (s : State) (key n : Nat) : List (Nat × Nat) :=
  (s.sent.filter fun x => (s.link x.link).st == .retraining && decide (x.key / 64 ≤ (key + n - 1) / 64) &&
    decide (key / 64 ≤ x.key / 64)).map fun x => (x.link, x.key / 64)

/-- The links that hold back a read of a range of virtual addresses (20_link R431). -/
def readHolds (s : State) (ag : Agent) (va n : Nat) : List (Nat × Nat) :=
  if s.sent.isEmpty then [] else (spans va n).flatMap fun p => linkHolds s (keyOfVa s ag p.1 .read) p.2

/-- The state with reads noted that wait behind the traffic of some links (20_link R431, R432). -/
def holdReads (s : State) (l : List (Nat × Nat)) : State := { s with heldReads := (s.heldReads ++ l).eraseDups }

/-- n free bytes (log 7). -/
def freeBytes : Nat → State → List Byte × State
  | 0, s => ([], s)
  | n + 1, s =>
    let r := drawFree s
    let t := freeBytes n r.2
    (BitVec.ofNat 8 r.1.toNat :: t.1, t.2)

/-- The state after a CXL port has answered a read of n bytes at a key, without poison (21_device R441, R442; log 58): the answer is captured, and a
replay run goes past its entry. -/
def cxlAnswer (s : State) (key n : Nat) : State :=
  if isCxl s key ∧ (rangePoison s key n).isNone then
    let port := cxlPort (cxlPlace s key)
    captureInbound (((replayInbound s port key n).map (·.2)).getD s) port key false (physRead s key n)
  else s

/-- A read of n bytes at a key. What another package answers is free (log 8), and is captured, as is what a CXL port answers (21_device R441; log
58); a replay run takes it from the record (R442). A request that no link can carry gives poison, and so, once, does one that an error response or a
failed link has answered (20_link R432, R434). -/
def readKey (s : State) (key n : Nat) : Got :=
  if isRemote key then
    let s0 := { s with heldReads := s.heldReads.filter fun x => !(decide (key / 64 ≤ x.2) && decide (x.2 ≤ (key + n - 1) / 64)) }
    if (rangePoison s key n).isSome then
      ⟨List.replicate n 0, rangePoison s key n,
        { s0 with poison := (List.range (granuleCount key n)).foldl (fun t i => tabDel t (key / 64 + i)) s.poison }⟩
    else match linkFor s key with
      | some l =>
        let r := (replayInbound s0 (16 + l) key n).getD (freeBytes n s0)
        ⟨r.1, none, captureInbound r.2 (16 + l) key false r.1⟩
      | none =>
        let r := recordEvent s0 (linkEvent s key true)
        ⟨List.replicate n 0, some (BitVec.ofNat 12 r.1), r.2⟩
  else if isWindow key then ⟨mgmtRead s (key - windowBase) n, none, s⟩
  else if isNotify s key then ⟨notifyRead s (key - s.notify.toNat) n, none, tqstatRead s ((key - s.notify.toNat) / 4096)⟩
  else ⟨physRead s key n, rangePoison s key n, cxlAnswer s key n⟩

/-- A read of n bytes at a virtual address that passes Probe (11_page R286). -/
def readVa (s : State) (ag : Agent) (va n : Nat) : Got :=
  (spans va n).foldl (fun g p =>
    match checkAddr g.st ag p.1 .read with
    | .error _ => g
    | .ok h =>
      let r := readKey (touch g.st ag p.1 .read) h.key p.2
      match h.poison with
      | some t => ⟨g.bytes ++ List.replicate p.2 0, lowerTag g.poison (some t), r.st⟩
      | none => ⟨g.bytes ++ r.bytes, lowerTag g.poison r.poison, r.st⟩) ⟨[], none, s⟩

/-- The unit class and index that an error record names for a unit that reaches memory through a TLB slice, or through none (01_anatomy R20;
11_page R288; 19_shroud R415): a slot of a core, a copy engine, a topology engine, a KBU, or the queue unit (log 85). -/
def unitOfSlice (slice : Nat) : Nat × Nat :=
  if slice < 9 * Config.cores then (1, slice / 9 * 8)
  else if slice < 9 * Config.cores + 256 then (6, slice - 9 * Config.cores)
  else if slice < 9 * Config.cores + 264 then (8, slice - 9 * Config.cores - 256)
  else if slice < noSlice then (7, slice - 9 * Config.cores - 264)
  else (16, 0)

/-- The poison sink of an access of tag t that a context makes, in its slot or from its image, or no context (19_shroud R411 to R413). -/
def sinkFor (s : State) (h : Home) (ag : Agent) (t : PTag) (key : Nat) : State :=
  match h with
  | .slot q => sinkAt s q (ag.pc.getD (s.slot q).pc) t
  | _ =>
    let e : Event :=
      { kind := 0x05, cause := 0x18, held := false, unitClass := (unitOfSlice ag.slice).1, unitIndex := (unitOfSlice ag.slice).2, sub := 0, addr := key, victim := 0, slot := none,
        pc := 0, detail := BitVec.ofNat 64 t.toNat }
    if ag.tag = 0 then loseWrite (recordEvent s e).2 h 0 { e with kind := 0x03, cause := 0, detail := 0 } else failTag s ag.tag e

/-- A write to another package (20_link R430 to R432): it goes out on a link, or with none it is lost. -/
def writeRemote (s : State) (h : Home) (ag : Agent) (key : Nat) (bytes : List Byte) (p : Option PTag) : State :=
  match linkFor s key with
  | some l => sendWrite s l h ag.tag key bytes p
  | none => loseWrite s h ag.tag (linkEvent s key false)

/-- A write to a frame of a stack or port that is out of service is lost (19_shroud R409; 20_link R426). -/
def lostFrame (s : State) (h : Home) (ag : Agent) (key : Nat) : State :=
  loseWrite s h ag.tag (if isHbm key then portEvent 0x03 12 (key / Config.stackBytes) 0 (key / 64 * 64) false
    else portEvent 0x03 13 (cxlPort (cxlPlace s key)) 0 (key / 64 * 64) false)

/-- A write of bytes at a key for the context of a home, or for an engine (08_stream R225; 14_queue R325; 19_shroud R409, R411; 20_link R426, R432;
21_device R436). -/
def writeKey (s : State) (h : Home) (ag : Agent) (key : Nat) (bytes : List Byte) (p : Option PTag) : State :=
  if isRemote key then writeRemote s h ag key bytes p
  else if (deadTag s key).isSome then lostFrame s h ag key
  else match p with
  | some t => if holdsPoison s key then storeKey s ag.tag key bytes p else sinkFor s h ag t key
  | none =>
    if isWindow key then mgmtWrite s (key - windowBase) bytes
    else if isNotify s key then notifyWrite s (key - s.notify.toNat) bytes false
    else storeKey s ag.tag key bytes none

/-- A write that has passed its Probe, at an address that permits it no more: one in flight to a frame that is out of service by now is lost (20_link
R426; 19_shroud R409), and any other is not performed. -/
def writeRefused (s : State) (h : Home) (ag : Agent) (va : Nat) : State :=
  match checkAddr s ag va .read with
  | .ok e => if (deadTag s e.key).isSome then lostFrame s h ag e.key else s
  | .error _ => s

/-- A write of bytes at a virtual address that passes Probe for write. -/
def writeVa (s : State) (h : Home) (ag : Agent) (va : Nat) (bytes : List Byte) (p : Option PTag) : State :=
  (spans va bytes.length).foldl (fun st x =>
    match checkAddr st ag x.1 .write with
    | .error _ => writeRefused st h ag x.1
    | .ok e => writeKey (touch st ag x.1 .write) h ag e.key ((bytes.drop (x.1 - va)).take x.2) p) s

/-- Whether a range lies partly in a MIGRATING page (11_page R292). -/
def migratingAt (s : State) (ag : Agent) (va n : Nat) : Bool :=
  (granuleAddrs va n).any fun a => match checkAddr s ag a .read with
    | .ok h => h.state == 3
    | .error _ => match checkAddr s ag a .write with | .ok h => h.state == 3 | .error _ => false

/-- The translations of a slice that a Probe of a range finds, one for each page, beside those that are held already (06_vector_access R151). -/
def holdPages (s : State) (ag : Agent) (k : Access) (held : List HeldPage) (r : Nat × Nat) : List HeldPage :=
  (granuleAddrs r.1 r.2).foldl (fun l a =>
    if l.any fun p => p.slice == ag.slice && decide (p.va ≤ a) && decide (a < p.va + p.bytes) then l
    else match checkAddr s ag a k with
      | .ok h => l ++ [⟨ag.slice, h.page, pageBytes h.size, h.key - (a - h.page), h.poison⟩]
      | .error _ => l) held

/-- The held translation of an address (06_vector_access R151). -/
def heldAt (pages : List HeldPage) (slice va : Nat) : Option HeldPage :=
  pages.find? fun p => p.slice == slice && decide (p.va ≤ va) && decide (va < p.va + p.bytes)

/-- A read of n bytes through held translations (06_vector_access R151; 11_page R286). -/
def readHeld (s : State) (slice : Nat) (pages : List HeldPage) (va n : Nat) : Got :=
  (spans va n).foldl (fun g p =>
    match heldAt pages slice p.1 with
    | none => ⟨g.bytes ++ List.replicate p.2 0, g.poison, g.st⟩
    | some h =>
      let r := readKey g.st (h.key + (p.1 - h.va)) p.2
      match h.poison with
      | some t => ⟨g.bytes ++ List.replicate p.2 0, lowerTag g.poison (some t), r.st⟩
      | none => ⟨g.bytes ++ r.bytes, lowerTag g.poison r.poison, r.st⟩) ⟨[], none, s⟩

/-- A write of bytes through held translations (06_vector_access R151). -/
def writeHeld (s : State) (h : Home) (ag : Agent) (pages : List HeldPage) (va : Nat) (bytes : List Byte) (p : Option PTag) : State :=
  (spans va bytes.length).foldl (fun st x =>
    match heldAt pages ag.slice x.1 with
    | none => st
    | some e => writeKey st h ag (e.key + (x.1 - e.va)) ((bytes.drop (x.1 - va)).take x.2) p) s

/-- The key of an address under held translations, or under a fresh one where none is held. -/
def heldKey (s : State) (ag : Agent) (pages : List HeldPage) (va : Nat) : Nat :=
  match heldAt pages ag.slice va with
  | some h => h.key + (va - h.va)
  | none => keyOfVa s ag va .write

/-- Memory as the scalar side of slot q sees it (04_sequencer R89; 09_guard R231): with its own stores that are not yet performed. A read that a
release of its own covers waits for it (Sys2Proof.Machine.waitsBehind), so releases do not show here. -/
def ownView (s : State) (q : Nat) : State :=
  (s.stores.filter fun a => a.home == .slot q && !a.increment).foldl (fun st a => storeKey st a.tag a.key a.bytes a.poison) s

/-- Whether a key is memory of the package, whose bytes the slot's own stores show before they are performed (04_sequencer R89). -/
def isPlain (s : State) (key : Nat) : Bool := isPad key || isHbm key || isCxl s key

/-- A scalar read of n bytes by slot q (04_sequencer R89, R90), at a virtual address that passes Probe. -/
def scalarRead (s : State) (q : Nat) (va n : Nat) : Got :=
  let ag := scalarAgent s q
  match checkAddr s ag va .read with
  | .ok h =>
    if h.poison.isNone && isPlain s h.key then
      let v := ownView s q
      ⟨vRead v ag va n, vPoison v ag va n, (spans va n).foldl (fun st p => cxlAnswer st (keyOfVa st ag p.1 .read) p.2) (touchRange s ag .read va n)⟩
    else readVa s ag va n
  | .error _ => ⟨[], none, s⟩

/-- Whether a scalar access of slot q to a range of bytes waits behind an earlier write of the slot: one of any side that waits for a MIGRATING
page at one of the bytes (11_page R292), or, for a read, a release to one of them, or a store to one of them outside the package's memory, that is not
performed: no read can give its value before (09_guard R231, R232). -/
def waitsBehind (s : State) (q : Nat) (k : Access) (va n : Nat) : Bool :=
  storeWaits s q s.nextOp (va, n) || vectorWaits s q (va, n) ||
  (k == .read && s.stores.any fun a => a.home == .slot q && (a.increment || !isPlain s a.key) && sameBytes s q a.range (va, n))

/-- The state after the scalar side of slot q passes on a store (04_sequencer R108, R109). One that waits for a MIGRATING page leaves D alone until
it is performed (11_page R282, R292). -/
def pushStore (s : State) (q : Nat) (va : Nat) (bytes : List Byte) (p : Option PTag) (increment release : Bool) : State :=
  let ag := scalarAgent s q
  let acc : PendAcc :=
    { slot := q, home := .slot q, va := BitVec.ofNat 64 va, key := keyOfVa s ag va (if increment then .update else .write),
      waiting := migratingAt s ag va bytes.length, bytes := bytes, poison := p, increment := increment, release := release,
      asid := ag.asid, level := ag.level, tag := ag.tag, pc := (s.slot q).pc, ord := s.nextOp }
  let s1 := touchRange s ag (if acc.waiting then .read else if increment then .update else .write) va bytes.length
  let x := s1.slot q
  { s1.setSlot q { x with cnt := { x.cnt with stores := x.cnt.stores + 1 } } with stores := s1.stores ++ [acc], nextOp := s1.nextOp + 1 }

/-- The repetition index to show beside a word (04_sequencer R106): J when the word lies in a REP frame on top of the stack. -/
def repIndex (x : Slot) : Nat :=
  match x.loops with
  | e :: _ => if e.kind = 2 ∧ e.start.toNat ≤ x.pc.toNat ∧ x.pc.toNat ≤ e.endAddr.toNat then e.j else 0
  | [] => 0

/-- TRAPAUX for a trap that shows the instruction (10_context R260; 04_sequencer R106). -/
def auxWord (x : Slot) (w : Option Nat) : Word := BitVec.ofNat 64 (w.getD 0 + repIndex x * 2 ^ 32)

/-- A trap that shows the instruction's word. -/
def trapWord (s : State) (q cause : Nat) (w : Option Nat) : State := trap s q cause 0 (auxWord (s.slot q) w)

/-- Go on unless some register is pending (04_sequencer R81). -/
def whenReady (s : State) (q : Nat) (rs : List Nat) (k : State) : State :=
  match (s.slot q).pendingAmong rs with
  | some r => s.stallSlot q (.register r)
  | none => k

/-- Go on unless some register is poisoned, which is then consumed (19_shroud R412). -/
def unlessPoisoned (s : State) (q : Nat) (rs : List Nat) (k : State) : State :=
  match (s.slot q).poisonAmong rs with
  | some t => sink s q t
  | none => k

/-- Go on at a privilege level or above, else trap with cause 0x02 (03_encoding R62; 10_context R250). -/
def needLevel (s : State) (q : Nat) (l : Level) (w : Option Nat) (k : State) : State :=
  if levelCode l ≤ levelCode (s.slot q).level then k else trapWord s q 0x02 w

/-- What a fault record says of the access beside its pages (06_vector_access R155). -/
structure FaultInfo where
  pc : Word
  word : Nat
  write : Bool
  indexed : Bool
  vl : Nat
  p : Nat
  mask : List Byte
  deriving DecidableEq, Repr

/-- A page entry of a fault record (06_vector_access R156). -/
def Miss.word (m : Miss) : Nat := m.page / 4096 * 4096 + m.size * 16 + m.why

/-- The bytes of a fault record (06_vector_access R155, R156). -/
def faultBytes (s : State) (q : Nat) (f : FaultInfo) (ms : List Miss) (addr : Nat) (idx : Nat) : List Byte :=
  let x := s.slot q
  leBytes 8 f.pc.toNat ++ leBytes 4 f.word ++
  leBytes 4 ((if 64 < ms.length then 1 else 0) + f.write.toNat * 2 + f.indexed.toNat * 4) ++
  leBytes 2 f.vl ++ leBytes 2 f.p ++ leBytes 2 (min 64 ms.length) ++ leBytes 2 f.mask.length ++ leBytes 2 x.asid.toNat ++
  leBytes 2 x.shtag.toNat ++ leBytes 4 0 ++ leBytes 8 addr ++ leBytes 4 idx ++ leBytes 4 0 ++ leBytes 4 ms.length ++
  List.replicate 12 0 ++ f.mask ++ (ms.take 64).flatMap fun m => leBytes 8 m.word

/-- The state with a fault record in the buffer that FAULTREC names, and whether it was lost (10_context R268): the buffer is
reached with the supervisor's rights under the slot's address space (DEDUCED, log 10). -/
def writeFaultRecord (s : State) (q : Nat) (f : FaultInfo) (ms : List Miss) (addr idx : Nat) : State × Bool :=
  let ag := { scalarAgent s q with level := .supervisor }
  let bs := faultBytes s q f ms addr idx
  let va := (s.slot q).faultRec.toNat
  if (probeRange s ag .write va bs.length).isEmpty then (writeVa s (.slot q) ag va bs none, false) else (s, true)

/-- The report of an access that fails Probe (04_sequencer R88; 06_vector_access R149): cause 0x09 with a fault record when the
lowest failing page is a translation failure, else 0x0A. -/
def accessReport (s : State) (q : Nat) (f : FaultInfo) (ms : List Miss) (addr idx : Nat) (queue : Bool) : Report × State :=
  match ms with
  | m :: _ =>
    if m.why = 0 then
      let r := writeFaultRecord s q f ms addr idx
      (⟨0x09, f.pc, BitVec.ofNat 64 addr, BitVec.ofNat 64 idx, queue, r.2⟩, r.1)
    else (⟨0x0A, f.pc, BitVec.ofNat 64 addr, BitVec.ofNat 64 idx, queue, false⟩, s)
  | [] => (⟨0x0A, f.pc, BitVec.ofNat 64 addr, BitVec.ofNat 64 idx, queue, false⟩, s)

/-- The trap of a scalar access that fails Probe: TRAPADDR holds its address (04_sequencer R88). -/
def accessTrap (s : State) (q : Nat) (w : Option Nat) (write : Bool) (ms : List Miss) (addr : Nat) : State :=
  let x := s.slot q
  let r := accessReport s q ⟨x.pc, w.getD 0, write, false, 0, 0, []⟩ (ms.take 1) addr 0 false
  takeTrapAt r.2 q r.1 x.pc

/-- The check of a scalar access (04_sequencer R88): alignment to a power of two, then Probe; then the access waits behind the writes that
waitsBehind names, and a read of another package's granule behind its traffic on a RETRAINING link (20_link R431). -/
def scalarCheck (s : State) (q : Nat) (w : Option Nat) (k : Access) (va n align : Nat) (go : State) : State :=
  if va % align ≠ 0 then trap s q 0x0B (BitVec.ofNat 64 va) 0
  else
    match probeRange s (scalarAgent s q) k va n with
    | [] =>
      let held := if k == .write then [] else readHolds s (scalarAgent s q) va n
      if waitsBehind s q k va n then s.stallSlot q .retry else if held.isEmpty then go else (holdReads s held).stallSlot q .retry
    | ms => accessTrap s q w k.writes ms va

/-- Go on unless the stores counter would pass 255 with n more (04_sequencer R108). -/
def whenStoreRoom (s : State) (q n : Nat) (k : State) : State :=
  if (s.slot q).cnt.stores + n ≤ 255 then k else s.stallSlot q .counterFull

/-- Flags ORed into FFLAGS of a slot (02_numbers R32). -/
def Slot.addFlags (x : Slot) (f : BitVec 5) : Slot := { x with fflags := x.fflags ||| f }

/-- The outcome of a step that is a next state. -/
abbrev next (s : State) : Host.Outcome State Fault Refusal := .next s

end Sys2Proof.Machine
end

