-- ==== Sys2Proof/Machine/Scalar.lean ====
section
/-! DEFINITION. The scalar integer, immediate and floating-point instructions (04_sequencer R83 to R87, R91 to R94). -/

namespace Sys2Proof.Machine

/-- A scalar operation of the acting slot: sd from some sources, with the lowest tag among them (04_sequencer R81, R83, R87). -/
def alu (s : State) (d : Nat) (srcs : List Nat) (v : Slot → Word) : State :=
  whenReady s s.cur (d :: srcs) (s.finish s.cur d (v (s.slot s.cur)) ((s.slot s.cur).poisonAmong srcs))

/-- A two-operand operation (04_sequencer R83). -/
def alu2 (s : State) (d a b : BitVec 6) (f : Word → Word → Word) : State :=
  alu s d.toNat [a.toNat, b.toNat] fun x => f (x.val a.toNat) (x.val b.toNat)

/-- A one-operand operation. -/
def alu1 (s : State) (d a : BitVec 6) (f : Word → Word) : State :=
  alu s d.toNat [a.toNat] fun x => f (x.val a.toNat)

/-- An operation with an immediate of 14 bits, sign-extended (04_sequencer R85). -/
def aluImm (s : State) (d a : BitVec 6) (i : BitVec 14) (f : Word → Word → Word) : State :=
  alu s d.toNat [a.toNat] fun x => f (x.val a.toNat) (i.signExtend 64)

/-- 1 when a condition holds, else 0. -/
def boolWord (c : Bool) : Word := if c then 1 else 0

/-- The shift amount that a register gives (04_sequencer R83). -/
def shAmount (b : Word) : Nat := b.toNat % 64

/-- Quotient and remainder (04_sequencer R83, R84): truncated toward zero, a zero divisor gives all ones and the dividend. -/
def divSigned (a b : Word) : Word := if b = 0 then -1 else BitVec.ofInt 64 (a.toInt.tdiv b.toInt)
def divUnsigned (a b : Word) : Word := if b = 0 then -1 else BitVec.ofNat 64 (a.toNat / b.toNat)
def remSigned (a b : Word) : Word := if b = 0 then a else BitVec.ofInt 64 (a.toInt.tmod b.toInt)
def remUnsigned (a b : Word) : Word := if b = 0 then a else BitVec.ofNat 64 (a.toNat % b.toNat)

/-- The number of one bits among the n low bits. -/
def onesBelow (a : Word) : Nat → Nat
  | 0 => 0
  | n + 1 => onesBelow a n + (a.getLsbD n).toNat

/-- The number of zero bits from bit i upward, at most n of them, before the first one bit. -/
def zerosFrom (a : Word) (i : Nat) : Nat → Nat
  | 0 => 0
  | n + 1 => if a.getLsbD i then 0 else zerosFrom a (i + 1) n + 1

/-- The number of zero bits from bit n − 1 downward before the first one bit. -/
def zerosDown (a : Word) : Nat → Nat
  | 0 => 0
  | n + 1 => if a.getLsbD n then 0 else zerosDown a n + 1

/-- The eight bytes of a word in reverse order. -/
def swapBytes (a : Word) : Word := BitVec.ofNat 64 (leNat (leBytes 8 a.toNat).reverse)

/-- ADD (04_sequencer R83): sd := sa + sb. -/
def execAdd (d a b : BitVec 6) (s : State) : Host.Outcome State Fault Refusal :=
  next (alu2 s d a b fun a b => a + b)

/-- SUB (04_sequencer R83): sd := sa − sb. -/
def execSub (d a b : BitVec 6) (s : State) : Host.Outcome State Fault Refusal :=
  next (alu2 s d a b fun a b => a - b)

/-- AND (04_sequencer R83): bitwise AND. -/
def execAnd (d a b : BitVec 6) (s : State) : Host.Outcome State Fault Refusal :=
  next (alu2 s d a b fun a b => a &&& b)

/-- OR (04_sequencer R83): bitwise OR. -/
def execOr (d a b : BitVec 6) (s : State) : Host.Outcome State Fault Refusal :=
  next (alu2 s d a b fun a b => a ||| b)

/-- XOR (04_sequencer R83): bitwise XOR. -/
def execXor (d a b : BitVec 6) (s : State) : Host.Outcome State Fault Refusal :=
  next (alu2 s d a b fun a b => a ^^^ b)

/-- ANDN (04_sequencer R83): sa AND NOT sb. -/
def execAndn (d a b : BitVec 6) (s : State) : Host.Outcome State Fault Refusal :=
  next (alu2 s d a b fun a b => a &&& ~~~b)

/-- SHL (04_sequencer R83): shift left. -/
def execShl (d a b : BitVec 6) (s : State) : Host.Outcome State Fault Refusal :=
  next (alu2 s d a b fun a b => a <<< shAmount b)

/-- SHR (04_sequencer R83): logical shift right. -/
def execShr (d a b : BitVec 6) (s : State) : Host.Outcome State Fault Refusal :=
  next (alu2 s d a b fun a b => a >>> shAmount b)

/-- SAR (04_sequencer R83): arithmetic shift right. -/
def execSar (d a b : BitVec 6) (s : State) : Host.Outcome State Fault Refusal :=
  next (alu2 s d a b fun a b => a.sshiftRight (shAmount b))

/-- MUL (04_sequencer R83): low 64 bits of the product. -/
def execMul (d a b : BitVec 6) (s : State) : Host.Outcome State Fault Refusal :=
  next (alu2 s d a b fun a b => a * b)

/-- MULH (04_sequencer R83): high 64 bits of the signed product. -/
def execMulh (d a b : BitVec 6) (s : State) : Host.Outcome State Fault Refusal :=
  next (alu2 s d a b fun a b => BitVec.ofInt 64 (a.toInt * b.toInt / 2 ^ 64))

/-- MULHZ (04_sequencer R83): high 64 bits of the unsigned product. -/
def execMulhz (d a b : BitVec 6) (s : State) : Host.Outcome State Fault Refusal :=
  next (alu2 s d a b fun a b => BitVec.ofNat 64 (a.toNat * b.toNat / 2 ^ 64))

/-- DIV (04_sequencer R83): signed quotient (R84). -/
def execDiv (d a b : BitVec 6) (s : State) : Host.Outcome State Fault Refusal :=
  next (alu2 s d a b fun a b => divSigned a b)

/-- DIVZ (04_sequencer R83): unsigned quotient (R84). -/
def execDivz (d a b : BitVec 6) (s : State) : Host.Outcome State Fault Refusal :=
  next (alu2 s d a b fun a b => divUnsigned a b)

/-- REM (04_sequencer R83): signed remainder (R84). -/
def execRem (d a b : BitVec 6) (s : State) : Host.Outcome State Fault Refusal :=
  next (alu2 s d a b fun a b => remSigned a b)

/-- REMZ (04_sequencer R83): unsigned remainder (R84). -/
def execRemz (d a b : BitVec 6) (s : State) : Host.Outcome State Fault Refusal :=
  next (alu2 s d a b fun a b => remUnsigned a b)

/-- MIN (04_sequencer R83): signed smaller. -/
def execMin (d a b : BitVec 6) (s : State) : Host.Outcome State Fault Refusal :=
  next (alu2 s d a b fun a b => if a.toInt ≤ b.toInt then a else b)

/-- MAX (04_sequencer R83): signed larger. -/
def execMax (d a b : BitVec 6) (s : State) : Host.Outcome State Fault Refusal :=
  next (alu2 s d a b fun a b => if a.toInt ≤ b.toInt then b else a)

/-- MINZ (04_sequencer R83): unsigned smaller. -/
def execMinz (d a b : BitVec 6) (s : State) : Host.Outcome State Fault Refusal :=
  next (alu2 s d a b fun a b => if a.toNat ≤ b.toNat then a else b)

/-- MAXZ (04_sequencer R83): unsigned larger. -/
def execMaxz (d a b : BitVec 6) (s : State) : Host.Outcome State Fault Refusal :=
  next (alu2 s d a b fun a b => if a.toNat ≤ b.toNat then b else a)

/-- CMPEQ (04_sequencer R83): 1 if equal. -/
def execCmpeq (d a b : BitVec 6) (s : State) : Host.Outcome State Fault Refusal :=
  next (alu2 s d a b fun a b => boolWord (a == b))

/-- CMPLT (04_sequencer R83): 1 if less, signed. -/
def execCmplt (d a b : BitVec 6) (s : State) : Host.Outcome State Fault Refusal :=
  next (alu2 s d a b fun a b => boolWord (decide (a.toInt < b.toInt)))

/-- CMPLTZ (04_sequencer R83): 1 if less, unsigned. -/
def execCmpltz (d a b : BitVec 6) (s : State) : Host.Outcome State Fault Refusal :=
  next (alu2 s d a b fun a b => boolWord (decide (a.toNat < b.toNat)))

/-- ADDSH (04_sequencer R83): sa + (sb << n). -/
def execAddsh (d a b : BitVec 6) (n : BitVec 2) (s : State) : Host.Outcome State Fault Refusal :=
  next (alu2 s d a b fun a b => a + b <<< n.toNat)

/-- SEL (04_sequencer R83, R87): sa if the old sd is not zero, else sb. A poisoned sd decides nothing: the result has its tag (DEDUCED, log 47). -/
def execSel (d a b : BitVec 6) (s : State) : Host.Outcome State Fault Refusal :=
  let x := s.slot s.cur
  let r := if x.val d.toNat ≠ 0 then a.toNat else b.toNat
  let p := match x.poisonOf d.toNat with
    | some t => some t
    | none => x.poisonOf r
  next (whenReady s s.cur [d.toNat, a.toNat, b.toNat] (s.finish s.cur d.toNat (x.val r) p))

/-- CLZ (04_sequencer R83): leading zero bits. -/
def execClz (d a : BitVec 6) (s : State) : Host.Outcome State Fault Refusal :=
  next (alu1 s d a fun a => BitVec.ofNat 64 (zerosDown a 64))

/-- CTZ (04_sequencer R83): trailing zero bits. -/
def execCtz (d a : BitVec 6) (s : State) : Host.Outcome State Fault Refusal :=
  next (alu1 s d a fun a => BitVec.ofNat 64 (zerosFrom a 0 64))

/-- POPC (04_sequencer R83): one bits. -/
def execPopc (d a : BitVec 6) (s : State) : Host.Outcome State Fault Refusal :=
  next (alu1 s d a fun a => BitVec.ofNat 64 (onesBelow a 64))

/-- BSWAP (04_sequencer R83): bytes reversed. -/
def execBswap (d a : BitVec 6) (s : State) : Host.Outcome State Fault Refusal :=
  next (alu1 s d a fun a => swapBytes a)

/-- ADDI (04_sequencer R85). -/
def execAddi (d a : BitVec 6) (i : BitVec 14) (s : State) : Host.Outcome State Fault Refusal :=
  next (aluImm s d a i fun a i => a + i)

/-- ANDI (04_sequencer R85). -/
def execAndi (d a : BitVec 6) (i : BitVec 14) (s : State) : Host.Outcome State Fault Refusal :=
  next (aluImm s d a i fun a i => a &&& i)

/-- ORI (04_sequencer R85). -/
def execOri (d a : BitVec 6) (i : BitVec 14) (s : State) : Host.Outcome State Fault Refusal :=
  next (aluImm s d a i fun a i => a ||| i)

/-- XORI (04_sequencer R85). -/
def execXori (d a : BitVec 6) (i : BitVec 14) (s : State) : Host.Outcome State Fault Refusal :=
  next (aluImm s d a i fun a i => a ^^^ i)

/-- CMPLTI (04_sequencer R85). -/
def execCmplti (d a : BitVec 6) (i : BitVec 14) (s : State) : Host.Outcome State Fault Refusal :=
  next (aluImm s d a i fun a i => boolWord (decide (a.toInt < i.toInt)))

/-- SHLI (04_sequencer R85). -/
def execShli (d a h : BitVec 6) (s : State) : Host.Outcome State Fault Refusal :=
  next (alu1 s d a fun a => a <<< h.toNat)

/-- SHRI (04_sequencer R85). -/
def execShri (d a h : BitVec 6) (s : State) : Host.Outcome State Fault Refusal :=
  next (alu1 s d a fun a => a >>> h.toNat)

/-- SARI (04_sequencer R85). -/
def execSari (d a h : BitVec 6) (s : State) : Host.Outcome State Fault Refusal :=
  next (alu1 s d a fun a => a.sshiftRight h.toNat)

/-- LIH (04_sequencer R86): the immediate shifted left by 14. -/
def execLih (d : BitVec 6) (i : BitVec 20) (s : State) : Host.Outcome State Fault Refusal :=
  next (alu s d.toNat [] fun _ => i.signExtend 64 <<< 14)

/-- ADDPC (04_sequencer R86): the 4 KiB page of the instruction plus the immediate shifted left by 12. -/
def execAddpc (d : BitVec 6) (i : BitVec 20) (s : State) : Host.Outcome State Fault Refusal :=
  next (alu s d.toNat [] fun x => (x.pc &&& ~~~0xFFF#64) + i.signExtend 64 <<< 12)

/-- The format of a precision bit (03_encoding R64): 0 binary64, 1 binary32. -/
def fpFmt (p : BitVec 1) : Fmt := if p = 0 then fmtF64 else fmtF32

/-- The operand of a precision that a register holds (04_sequencer R91): for .s bits [31:0]. -/
def fpOperand (p : BitVec 1) (w : Word) : FVal := (fpFmt p).decode (if p = 0 then w.toNat else w.toNat % 2 ^ 32)

/-- A scalar floating-point operation (04_sequencer R87, R91; 02_numbers R33): result and flags; a poisoned operand contributes
no flags. -/
def fpu (s : State) (d : Nat) (srcs : List Nat) (v : Slot → Nat × FFlags) : State :=
  let x := s.slot s.cur
  let t := x.poisonAmong srcs
  let r := v x
  let y := if t.isSome then x else x.addFlags r.2
  whenReady s s.cur (d :: srcs) (s.setSlot s.cur (y.put d (BitVec.ofNat 64 r.1) t).complete)

/-- A rounded two-operand operation (04_sequencer R92). -/
def fpu2 (s : State) (d a b : BitVec 6) (p : BitVec 1) (f : RMode → FVal → FVal → FVal × FFlags) : State :=
  fpu s d.toNat [a.toNat, b.toNat] fun x =>
    let m := RMode.ofFrm x.frm
    (fpFmt p).finish m (f m (fpOperand p (x.val a.toNat)) (fpOperand p (x.val b.toNat)))

/-- FADD (04_sequencer R92). -/
def execFadd (d a b : BitVec 6) (p : BitVec 1) (s : State) : Host.Outcome State Fault Refusal := next (fpu2 s d a b p fAdd)

/-- FSUB (04_sequencer R92): the sum with the negative. -/
def execFsub (d a b : BitVec 6) (p : BitVec 1) (s : State) : Host.Outcome State Fault Refusal :=
  next (fpu2 s d a b p fun m x y => fAdd m x y.negate)

/-- FMUL (04_sequencer R92). -/
def execFmul (d a b : BitVec 6) (p : BitVec 1) (s : State) : Host.Outcome State Fault Refusal :=
  next (fpu2 s d a b p fun _ x y => fMul x y)

/-- FDIV (04_sequencer R92). -/
def execFdiv (d a b : BitVec 6) (p : BitVec 1) (s : State) : Host.Outcome State Fault Refusal :=
  next (fpu2 s d a b p fun _ x y => fDiv x y)

/-- FSQRT (04_sequencer R92). -/
def execFsqrt (d a : BitVec 6) (p : BitVec 1) (s : State) : Host.Outcome State Fault Refusal :=
  next (fpu s d.toNat [a.toNat] fun x => (fpFmt p).finish (RMode.ofFrm x.frm) (fSqrt (fpOperand p (x.val a.toNat))))

/-- FMA (04_sequencer R92): sa × sb + sd, one rounding. -/
def execFma (d a b : BitVec 6) (p : BitVec 1) (s : State) : Host.Outcome State Fault Refusal :=
  next (fpu s d.toNat [a.toNat, b.toNat, d.toNat] fun x =>
    (fpFmt p).finish (RMode.ofFrm x.frm)
      (fFma (RMode.ofFrm x.frm) (fpOperand p (x.val a.toNat)) (fpOperand p (x.val b.toNat)) (fpOperand p (x.val d.toNat))))

/-- The encoding of a precision that a register holds. -/
def fpBits (p : BitVec 1) (w : Word) : Nat := if p = 0 then w.toNat else w.toNat % 2 ^ 32

/-- FMIN (02_numbers R30). -/
def execFmin (d a b : BitVec 6) (p : BitVec 1) (s : State) : Host.Outcome State Fault Refusal :=
  next (fpu s d.toNat [a.toNat, b.toNat] fun x => fMinMax (fpFmt p) false (fpBits p (x.val a.toNat)) (fpBits p (x.val b.toNat)))

/-- FMAX (02_numbers R30). -/
def execFmax (d a b : BitVec 6) (p : BitVec 1) (s : State) : Host.Outcome State Fault Refusal :=
  next (fpu s d.toNat [a.toNat, b.toNat] fun x => fMinMax (fpFmt p) true (fpBits p (x.val a.toNat)) (fpBits p (x.val b.toNat)))

/-- FCMP (04_sequencer R93). -/
def execFcmp (d a b : BitVec 6) (c : BitVec 2) (p : BitVec 1) (s : State) : Host.Outcome State Fault Refusal :=
  next (fpu s d.toNat [a.toNat, b.toNat] fun x =>
    let r := fCondition c.toNat (fpOperand p (x.val a.toNat)) (fpOperand p (x.val b.toNat))
    (r.1.toNat, r.2))

/-- A conversion between the two precisions (04_sequencer R94; 02_numbers R34). -/
def fpuConvert (s : State) (d a : BitVec 6) (src dst : Fmt) : State :=
  fpu s d.toNat [a.toNat] fun x =>
    fConvert src dst (RMode.ofFrm x.frm) false ((x.val a.toNat).toNat % 2 ^ (1 + src.ebits + src.fbits))

/-- A conversion from an integer (04_sequencer R94; 02_numbers R36). -/
def fpuFromInt (s : State) (d a : BitVec 6) (dst : Fmt) (v : Word → Int) : State :=
  fpu s d.toNat [a.toNat] fun x => dst.round (RMode.ofFrm x.frm) false (FVal.ofInt (v (x.val a.toNat)))

/-- A conversion to a 64-bit integer (04_sequencer R94; 02_numbers R35). -/
def fpuToInt (s : State) (d a : BitVec 6) (src : Fmt) (signed : Bool) : State :=
  fpu s d.toNat [a.toNat] fun x =>
    toInteger (RMode.ofFrm x.frm) signed 64 (src.decode ((x.val a.toNat).toNat % 2 ^ (1 + src.ebits + src.fbits)))

/-- fcvtDS (04_sequencer R94). -/
def execFcvtDS (d a : BitVec 6) (s : State) : Host.Outcome State Fault Refusal := next (fpuConvert s d a fmtF32 fmtF64)

/-- fcvtSD (04_sequencer R94). -/
def execFcvtSD (d a : BitVec 6) (s : State) : Host.Outcome State Fault Refusal := next (fpuConvert s d a fmtF64 fmtF32)

/-- fcvtDI64 (04_sequencer R94). -/
def execFcvtDI64 (d a : BitVec 6) (s : State) : Host.Outcome State Fault Refusal := next (fpuFromInt s d a fmtF64 BitVec.toInt)

/-- fcvtSI64 (04_sequencer R94). -/
def execFcvtSI64 (d a : BitVec 6) (s : State) : Host.Outcome State Fault Refusal := next (fpuFromInt s d a fmtF32 BitVec.toInt)

/-- fcvtDZ64 (04_sequencer R94). -/
def execFcvtDZ64 (d a : BitVec 6) (s : State) : Host.Outcome State Fault Refusal := next (fpuFromInt s d a fmtF64 fun w => w.toNat)

/-- fcvtSZ64 (04_sequencer R94). -/
def execFcvtSZ64 (d a : BitVec 6) (s : State) : Host.Outcome State Fault Refusal := next (fpuFromInt s d a fmtF32 fun w => w.toNat)

/-- fcvtI64D (04_sequencer R94). -/
def execFcvtI64D (d a : BitVec 6) (s : State) : Host.Outcome State Fault Refusal := next (fpuToInt s d a fmtF64 true)

/-- fcvtI64S (04_sequencer R94). -/
def execFcvtI64S (d a : BitVec 6) (s : State) : Host.Outcome State Fault Refusal := next (fpuToInt s d a fmtF32 true)

/-- fcvtZ64D (04_sequencer R94). -/
def execFcvtZ64D (d a : BitVec 6) (s : State) : Host.Outcome State Fault Refusal := next (fpuToInt s d a fmtF64 false)

/-- fcvtZ64S (04_sequencer R94). -/
def execFcvtZ64S (d a : BitVec 6) (s : State) : Host.Outcome State Fault Refusal := next (fpuToInt s d a fmtF32 false)

end Sys2Proof.Machine
end

