-- ==== Sys2Proof/Machine/Control.lean ====
section
/-! DEFINITION. Scalar loads and stores, control transfer, hardware loops, repeat frames, WAIT, and the instructions that trap or
return at user level (04_sequencer R88 to R116; 10_context R276). -/

namespace Sys2Proof.Machine

/-- The acting slot. -/
def State.me (s : State) : Slot := s.slot s.cur

/-- The value of n bytes, sign- or zero-extended to 64 bits (04_sequencer R88). -/
def extendBytes (signed : Bool) (bs : List Byte) : Word :=
  if signed then BitVec.ofInt 64 (signedOf (8 * bs.length) (leNat bs)) else BitVec.ofNat 64 (leNat bs)

/-- A read of n bytes at the address in register a plus an offset, into sd (04_sequencer R88, R90). -/
def loadReg (s : State) (w : Option Nat) (d a : Nat) (off : Word) (n : Nat) (signed : Bool) (after : State → State) : State :=
  let q := s.cur
  let va := ((s.slot q).val a + off).toNat
  whenReady s q [d, a] <| unlessPoisoned s q [a] <|
    scalarCheck s q w .read va n n <|
      let g := scalarRead s q va n
      after (g.st.finish q d (extendBytes signed g.bytes) g.poison)

/-- LD (04_sequencer R88, R90): the type code t gives the size, and its low bit zero-extension. -/
def execLd (d a : BitVec 6) (t : BitVec 3) (o : BitVec 11) (s : State) : Host.Outcome State Fault Refusal :=
  let n := 2 ^ (t.toNat / 2)
  next (loadReg s (encode (.ld d a t o)) d.toNat a.toNat (o.signExtend 64 * BitVec.ofNat 64 n) n (t.toNat % 2 == 0) id)

/-- A store of the low n bytes of register d at an address (04_sequencer R88, R90). -/
def storeReg (s : State) (w : Option Nat) (d a : Nat) (off : Word) (n : Nat) (release : Bool) : State :=
  let q := s.cur
  let x := s.slot q
  let va := (x.val a + off).toNat
  whenReady s q [d, a] <| unlessPoisoned s q [a] <|
    scalarCheck s q w .write va n n <| whenStoreRoom s q 1 <|
      (pushStore s q va (leBytes n (x.val d).toNat) (x.poisonOf d) false release).complete q

/-- ST (04_sequencer R88): the size is 2^t bytes. -/
def execSt (d a : BitVec 6) (t : BitVec 2) (o : BitVec 11) (s : State) : Host.Outcome State Fault Refusal :=
  let n := 2 ^ t.toNat
  next (storeReg s (encode (.st d a t o)) d.toNat a.toNat (o.signExtend 64 * BitVec.ofNat 64 n) n false)

/-- Go on unless the instruction stands in a REP frame on top of the loop stack (04_sequencer R107). -/
def outsideRep (s : State) (q : Nat) (w : Option Nat) (k : State) : State :=
  match (s.slot q).loops with
  | e :: _ =>
    if e.kind = 2 ∧ e.start.toNat ≤ (s.slot q).pc.toNat ∧ (s.slot q).pc.toNat ≤ e.endAddr.toNat then trapWord s q 0x01 w else k
  | [] => k

/-- The state with a taken transfer of slot q (04_sequencer R96, R99). -/
def State.jump (s : State) (q : Nat) (target : Word) : State := s.setSlot q ((s.slot q).jump target)

/-- A branch (04_sequencer R95): a poisoned operand is a sink. -/
def branch (s : State) (w : Option Nat) (a b : BitVec 6) (o : BitVec 14) (c : Word → Word → Bool) : State :=
  let q := s.cur
  let x := s.slot q
  outsideRep s q w <| whenReady s q [a.toNat, b.toNat] <| unlessPoisoned s q [a.toNat, b.toNat] <|
    if c (x.val a.toNat) (x.val b.toNat) then s.jump q (x.pc + o.signExtend 64 <<< 2) else s.complete q

/-- BEQ (04_sequencer R95). -/
def execBeq (a b : BitVec 6) (o : BitVec 14) (s : State) : Host.Outcome State Fault Refusal :=
  next (branch s (encode (.beq a b o)) a b o fun x y => x == y)

/-- BNE (04_sequencer R95). -/
def execBne (a b : BitVec 6) (o : BitVec 14) (s : State) : Host.Outcome State Fault Refusal :=
  next (branch s (encode (.bne a b o)) a b o fun x y => x != y)

/-- BLT (04_sequencer R95). -/
def execBlt (a b : BitVec 6) (o : BitVec 14) (s : State) : Host.Outcome State Fault Refusal :=
  next (branch s (encode (.blt a b o)) a b o fun x y => decide (x.toInt < y.toInt))

/-- BGE (04_sequencer R95). -/
def execBge (a b : BitVec 6) (o : BitVec 14) (s : State) : Host.Outcome State Fault Refusal :=
  next (branch s (encode (.bge a b o)) a b o fun x y => decide (y.toInt ≤ x.toInt))

/-- BLTZ (04_sequencer R95). -/
def execBltz (a b : BitVec 6) (o : BitVec 14) (s : State) : Host.Outcome State Fault Refusal :=
  next (branch s (encode (.bltz a b o)) a b o fun x y => decide (x.toNat < y.toNat))

/-- BGEZ (04_sequencer R95). -/
def execBgez (a b : BitVec 6) (o : BitVec 14) (s : State) : Host.Outcome State Fault Refusal :=
  next (branch s (encode (.bgez a b o)) a b o fun x y => decide (y.toNat ≤ x.toNat))

/-- The target of J and CALL (04_sequencer R96). -/
def jumpTarget (x : Slot) (o : BitVec 26) : Word := x.pc + o.signExtend 64 <<< 2

/-- J (04_sequencer R96). -/
def execJ (o : BitVec 26) (s : State) : Host.Outcome State Fault Refusal :=
  next (outsideRep s s.cur (encode (.j o)) (s.jump s.cur (jumpTarget s.me o)))

/-- JR (04_sequencer R96). -/
def execJr (a : BitVec 6) (s : State) : Host.Outcome State Fault Refusal :=
  let q := s.cur
  let t := s.me.val a.toNat
  next (outsideRep s q (encode (.jr a)) <| whenReady s q [a.toNat] <| unlessPoisoned s q [a.toNat] <|
    if t.toNat % 4 ≠ 0 then trap s q 0x0B t 0 else s.jump q t)

/-- The vector-state word of a slot (03_encoding R79). -/
def vswWord (x : Slot) : Word :=
  let c := x.vcfg
  BitVec.ofNat 64 (x.vl + c.toNat % 8 * 2 ^ 14 + c.toNat / 8 % 4 * 2 ^ 17 + c.toNat / 2 ^ 8 % 8 * 2 ^ 19 +
    (c.getLsbD 11).toNat * 2 ^ 22 + (c.getLsbD 5).toNat * 2 ^ 23 + (c.getLsbD 6).toNat * 2 ^ 24)

/-- VCFG with the fields of a vector-state word; FT and CVS stay (03_encoding R79; 05_vector R119). -/
def vcfgOfVsw (c : BitVec 14) (w : Word) : BitVec 14 :=
  BitVec.ofNat 14 (wbits w 16 14 + wbits w 18 17 * 2 ^ 3 + wbits w 23 23 * 2 ^ 5 + wbits w 24 24 * 2 ^ 6 +
    (c.getLsbD 7).toNat * 2 ^ 7 + wbits w 21 19 * 2 ^ 8 + wbits w 22 22 * 2 ^ 11 + c.toNat / 2 ^ 12 * 2 ^ 12)

/-- The CALL push (04_sequencer R97) and what follows it. -/
def callPush (s : State) (w : Option Nat) (target : Word) : State :=
  let q := s.cur
  let x := s.slot q
  let sp := (x.val 63).toNat
  let a := (x.val 63 - 16).toNat
  whenReady s q [63] <| unlessPoisoned s q [63] <|
    if sp % 16 ≠ 0 then trap s q 0x0B (x.val 63) 0
    else scalarCheck s q w .write a 16 16 <| whenStoreRoom s q 2 <|
      let s1 := pushStore s q a (leBytes 8 (x.pc + 4).toNat) none false false
      let s2 := pushStore s1 q (a + 8) (leBytes 8 (vswWord x).toNat) none false false
      s2.setSlot q (((s2.slot q).put 63 (x.val 63 - 16) none).jump target)

/-- Whether VL is pending for a queued entry (06_vector_access R157; 08_stream R205): a VLDFF, or an instruction that reads a
register of a group bound to a port of the slot and has not had its delivery, which is part of its first element group. -/
def VEntry.trimsVl (bound : List VGrp) (e : VEntry) : Bool :=
  e.kind == .instr && (e.word / 2 ^ 26 == 0x28 && e.word % 64 == 4 || e.p == 0 &&
    match e.shape with
    | some h => h.srcs.any fun x => bound.any fun b => x.1.overlaps b
    | none => false)

/-- The register groups bound to ports of a slot (08_stream R204). -/
def boundGroups (s : State) (q : Nat) : List VGrp :=
  (portsOf s q).filterMap fun p =>
    let x := (s.core (coreOf q)).port p
    if x.isBound then some ⟨x.bindReg, 2 ^ x.bindG, 0⟩ else none

/-- Whether VL of a slot is pending. -/
def vlPending (s : State) (q : Nat) : Bool := (s.slot q).vq.any fun e => e.trimsVl (boundGroups s q)

/-- Go on unless VL is pending (06_vector_access R157). -/
def whenVl (s : State) (q : Nat) (k : State) : State := if vlPending s q then s.stallSlot q .vlPending else k

/-- CALL (04_sequencer R96, R97). -/
def execCall (o : BitVec 26) (s : State) : Host.Outcome State Fault Refusal :=
  next (outsideRep s s.cur (encode (.call o)) <| whenVl s s.cur <| callPush s (encode (.call o)) (jumpTarget s.me o))

/-- CALLR (04_sequencer R96, R97). -/
def execCallr (a : BitVec 6) (s : State) : Host.Outcome State Fault Refusal :=
  let q := s.cur
  let t := s.me.val a.toNat
  next (outsideRep s q (encode (.callr a)) <| whenReady s q [a.toNat, 63] <| unlessPoisoned s q [a.toNat] <|
    if t.toNat % 4 ≠ 0 then trap s q 0x0B t 0 else whenVl s q <| callPush s (encode (.callr a)) t)

/-- The checks of RET on what it has read (04_sequencer R98), and the return. -/
def retFrom (s : State) (q : Nat) (w0 w1 : Word) : State :=
  let x := s.slot q
  let at8 := x.val 63 + 8
  let c := vcfgOfVsw x.vcfg w1
  if wbits w1 63 25 ≠ 0 ∨ 5 < wbits w1 16 14 then trap s q 0x01 at8 w1
  else if x.vlmax c < wbits w1 13 0 then trap s q 0x07 at8 w1
  else if w0.toNat % 4 ≠ 0 then trap s q 0x0B w0 0
  else s.setSlot q (({ x with vcfg := c, vl := wbits w1 13 0 }.put 63 (x.val 63 + 16) none).jump w0)

/-- RET (04_sequencer R98). -/
def execRet (s : State) : Host.Outcome State Fault Refusal :=
  let q := s.cur
  let x := s.me
  let sp := (x.val 63).toNat
  next (outsideRep s q (encode .ret) <| whenReady s q [63] <| unlessPoisoned s q [63] <| whenVl s q <|
    if sp % 16 ≠ 0 then trap s q 0x0B (x.val 63) 0
    else scalarCheck s q (encode .ret) .read sp 16 16 <|
      let g := scalarRead s q sp 16
      match g.poison with
      | some t => sink g.st q t
      | none => retFrom g.st q (BitVec.ofNat 64 (leNat (g.bytes.take 8))) (BitVec.ofNat 64 (leNat (g.bytes.drop 8))))

/-- Push a loop-stack entry (04_sequencer R101, R105). -/
def pushLoop (s : State) (q : Nat) (w : Option Nat) (e : LoopEntry) : State :=
  let x := s.slot q
  if x.loops.length = 6 then trapWord s q 0x04 w
  else s.setSlot q { x with st := .run, prev := some x.pc, pc := x.pc + 4, loops := e :: x.loops, land := false }

/-- LOOP and LOOPR with a count (04_sequencer R101). -/
def startLoop (s : State) (q : Nat) (w : Option Nat) (len : Nat) (c : Word) : State :=
  let x := s.slot q
  if atTopEnd x then trapWord s q 0x01 w
  else if c = 0 then s.jump q (x.pc + BitVec.ofNat 64 (4 * (len + 1)))
  else pushLoop s q w ⟨BitVec.ofNat 64 (2 ^ 62 + (len - 1) * 2 ^ 52), x.pc + 4, c⟩

/-- LOOP (04_sequencer R101): the field holds the body's length less one. -/
def execLoop (l : BitVec 10) (c : BitVec 16) (s : State) : Host.Outcome State Fault Refusal :=
  next (outsideRep s s.cur (encode (.loop l c)) <| startLoop s s.cur (encode (.loop l c)) (l.toNat + 1) (c.setWidth 64))

/-- LOOPR (04_sequencer R101): at the END of the top entry it traps before it uses its count; a poisoned count is a sink. -/
def execLoopr (l : BitVec 10) (a : BitVec 6) (s : State) : Host.Outcome State Fault Refusal :=
  let w := encode (.loopr l a)
  next (outsideRep s s.cur w <| whenReady s s.cur [a.toNat] <|
    if atTopEnd s.me then trapWord s s.cur 0x01 w
    else unlessPoisoned s s.cur [a.toNat] <| startLoop s s.cur w (l.toNat + 1) (s.me.val a.toNat))

/-- LBRK (04_sequencer R103): unconditional with s0, else when sa is not zero. -/
def execLbrk (a : BitVec 6) (s : State) : Host.Outcome State Fault Refusal :=
  let q := s.cur
  let x := s.me
  let w := encode (.lbrk a)
  next (outsideRep s q w <| whenReady s q [a.toNat] <| unlessPoisoned s q [a.toNat] <|
    if a ≠ 0 ∧ x.val a.toNat = 0 then s.complete q
    else match x.loops with
      | [] => trapWord s q 0x05 w
      | e :: rest => s.setSlot q { ({ x with loops := rest }.jump (e.endAddr + 4)) with land := true })

/-- REP (04_sequencer R105): the fields n − 1 and times − 1, and the strides. -/
def execRep (n : BitVec 4) (t : BitVec 8) (v : BitVec 4) (xs : BitVec 6) (s : State) : Host.Outcome State Fault Refusal :=
  let q := s.cur
  let w := encode (.rep n t v xs)
  next (outsideRep s q w <|
    if atTopEnd s.me then trapWord s q 0x01 w
    else pushLoop s q w ⟨BitVec.ofNat 64 (2 ^ 63 + n.toNat * 2 ^ 52 + v.toNat * 2 ^ 48 + xs.toNat * 2 ^ 42 + t.toNat * 2 ^ 34),
      s.me.pc + 4, 0⟩)

/-- WAIT (04_sequencer R111). -/
def execWait (l xs c t : BitVec 6) (s : State) : Host.Outcome State Fault Refusal :=
  let n := s.me.cnt
  if n.loads ≤ l.toNat ∧ n.stores ≤ xs.toNat ∧ n.copies ≤ c.toNat ∧ n.tiles ≤ t.toNat then next (s.complete s.cur)
  else next (s.stallSlot s.cur (.counts l.toNat xs.toNat c.toNat t.toNat))

/-- UIRET (04_sequencer R115). -/
def execUiret (s : State) : Host.Outcome State Fault Refusal :=
  let q := s.cur
  let x := s.me
  next (outsideRep s q (encode .uiret) <|
    if x.uistat.act then s.setSlot q ({ x with uistat := { x.uistat with act := false } }.jump x.uiepc)
    else trapWord s q 0x01 (encode .uiret))

/-- TRAP and BRK (10_context R276): the instruction completes with its frame-end step, then the trap is taken. -/
def completeThenTrap (s : State) (q cause n : Nat) : State :=
  let s1 := s.complete q
  takeTrapAt s1 q ⟨cause, (s.slot q).pc, 0, BitVec.ofNat 64 n, false, false⟩ (s1.slot q).pc

/-- TRAP (10_context R276). -/
def execTrap (n : BitVec 18) (s : State) : Host.Outcome State Fault Refusal :=
  next (outsideRep s s.cur (encode (.trap n)) (completeThenTrap s s.cur 0x31 n.toNat))

/-- BRK (10_context R276). -/
def execBrk (n : BitVec 18) (s : State) : Host.Outcome State Fault Refusal :=
  next (outsideRep s s.cur (encode (.brk n)) (completeThenTrap s s.cur 0x30 n.toNat))

end Sys2Proof.Machine
end

