-- ==== Sys2Proof/Machine/Guard.lean ====
section
/-! DEFINITION. Acquire, release, fences, regions and atomics (09_guard R233 to R246), and the performing of a scalar access
(04_sequencer R109). -/

namespace Sys2Proof.Machine

/-- Whether slot q has a vector or tile access that is not performed (09_guard R233). -/
def vectorAccessPending (s : State) (q : Nat) : Bool :=
  ((s.slot q).vq.any fun e => wordIsAccess e.word) || ((tilesOf s q).any fun e => wordIsTileAccess e.word) ||
  s.klinks.any fun e => e.2.slot == q

/-- Whether slot q has a scalar store that is not performed (04_sequencer R109). -/
def storePending (s : State) (q : Nat) : Bool := s.stores.any fun a => a.home == .slot q

/-- Whether a queue entry is a marker that has not fired: its update of the barrier word is still to come (15_barrier R346). -/
def VEntry.unfired (e : VEntry) : Bool := e.kind == .marker && e.joined.isNone

/-- Whether slot q has an access of any side that is not performed (09_guard R242). -/
def accessPending (s : State) (q : Nat) : Bool :=
  storePending s q || vectorAccessPending s q || (s.slot q).vq.any VEntry.unfired || unacked s (.slot q)

/-- Go on when every earlier access of the slot is performed (09_guard R242, R243). -/
def whenPerformed (s : State) (q : Nat) (k : State) : State :=
  if accessPending s q then s.stallSlot q .accesses else k

/-- LDACQ (09_guard R241): an acquire read of 2^q bytes. -/
def execLdacq (d a : BitVec 6) (n : BitVec 2) (sc : BitVec 3) (s : State) : Host.Outcome State Fault Refusal :=
  next (loadReg s (encode (.ldacq d a n sc)) d.toNat a.toNat 0 (2 ^ n.toNat) false State.settleLinks)

/-- STREL (09_guard R241): a release store of 2^q bytes. -/
def execStrel (d a : BitVec 6) (n : BitVec 2) (sc : BitVec 3) (s : State) : Host.Outcome State Fault Refusal :=
  next (storeReg s (encode (.strel d a n sc)) d.toNat a.toNat 0 (2 ^ n.toNat) true)

/-- ACQ (09_guard R241): the value is discarded; a poisoned word is a sink. -/
def execAcq (a : BitVec 6) (sc : BitVec 3) (s : State) : Host.Outcome State Fault Refusal :=
  let q := s.cur
  let va := (s.me.val a.toNat).toNat
  next (whenReady s q [a.toNat] <| unlessPoisoned s q [a.toNat] <|
    scalarCheck s q (encode (.acq a sc)) .read va 8 8 <|
      let g := scalarRead s q va 8
      match g.poison with
      | some t => sink g.st q t
      | none => g.st.settleLinks.complete q)

/-- REL (09_guard R241): a release that adds one to the word when it is performed. -/
def execRel (a : BitVec 6) (sc : BitVec 3) (s : State) : Host.Outcome State Fault Refusal :=
  let q := s.cur
  let va := (s.me.val a.toNat).toNat
  next (whenReady s q [a.toNat] <| unlessPoisoned s q [a.toNat] <|
    scalarCheck s q (encode (.rel a sc)) .update va 8 8 <| whenStoreRoom s q 1 <|
      (pushStore s q va (List.replicate 8 0) none true true).complete q)

/-- The number of a region entry in State.regions (09_guard R235). -/
def regionKey (asid : BitVec 12) (e : Nat) : Nat := asid.toNat * 64 + e

/-- The first offending field of a region descriptor (09_guard R236, R237; 00_scope R460). -/
def regionBadField (d : List Word) : Option Nat :=
  let b := (wordAt d 0).toNat
  let l := (wordAt d 1).toNat
  let g := (wordAt d 2).toNat
  if b % 64 ≠ 0 then some 0x00
  else if l % 64 ≠ 0 ∨ l < 64 ∨ 2 ^ 56 < b + l then some 0x08
  else if g % 8 ≠ 0 ∨ (b ≤ g ∧ g < b + l) then some 0x10
  else if wordAt d 3 ≠ 0 then some 0x18
  else none

/-- GBIND's effect on the region table (09_guard R237): the state and the value of sd. -/
def bindRegion (s : State) (asid : BitVec 12) (tag : STag) (d : List Word) : State × Word :=
  let b := (wordAt d 0).toNat
  let l := (wordAt d 1).toNat
  let meets := (List.range 64).any fun e => match tabFind s.regions (regionKey asid e) with
    | some r => decide (b < r.base.toNat + r.len.toNat) && decide (r.base.toNat < b + l)
    | none => false
  if meets then (s, -2)
  else match (List.range 64).find? fun e => (tabFind s.regions (regionKey asid e)).isNone with
    | none => (s, -1)
    | some e => ({ s with regions := tabSet s.regions (regionKey asid e) ⟨wordAt d 0, wordAt d 1, wordAt d 2, tag⟩ }, BitVec.ofNat 64 e)

/-- GBIND (09_guard R237). -/
def execGbind (d a : BitVec 6) (s : State) : Host.Outcome State Fault Refusal :=
  let q := s.cur
  let x := s.me
  let va := (x.val a.toNat).toNat
  next (whenReady s q [d.toNat, a.toNat] <| unlessPoisoned s q [a.toNat] <|
    scalarCheck s q (encode (.gbind d a)) .read va 32 8 <|
      let g := scalarRead s q va 32
      match g.poison, regionBadField (wordsOfBytes g.bytes) with
      | some t, _ => sink g.st q t
      | none, some off => trap g.st q 0x01 0 (BitVec.ofNat 64 off)
      | none, none =>
        let r := bindRegion g.st x.asid x.shtag (wordsOfBytes g.bytes)
        r.1.finish q d.toNat r.2 none)

/-- GUNBIND (09_guard R237) (DEDUCED, log 56). -/
def execGunbind (a : BitVec 6) (s : State) : Host.Outcome State Fault Refusal :=
  let q := s.cur
  let x := s.me
  let e := (x.val a.toNat).toNat
  next (whenReady s q [a.toNat] <| unlessPoisoned s q [a.toNat] <|
    if 63 < e then trapWord s q 0x01 (encode (.gunbind a))
    else match tabFind s.regions (regionKey x.asid e) with
      | none => s.complete q
      | some r =>
        if x.shtag = 0 ∨ r.tag = x.shtag then ({ s with regions := tabDel s.regions (regionKey x.asid e) }).complete q
        else trap s q 0x0A 0 0)

/-- GFENCE (09_guard R243). -/
def execGfence (_sc : BitVec 3) (s : State) : Host.Outcome State Fault Refusal :=
  next (whenPerformed s s.cur (s.settleLinks.complete s.cur))

/-- FENCE.SV (09_guard R233): the slot passes on nothing until its earlier scalar accesses are performed, so no later vector access
is performed before them (DEDUCED, log 46). Later engine commands follow the vector accesses before it (R247). -/
def execFenceSv (s : State) : Host.Outcome State Fault Refusal :=
  let x := s.me
  next (if storePending s s.cur then s.stallSlot s.cur .accesses
    else (bumpOp (s.setSlot s.cur { x with ctx := { x.ctx with fence := s.nextOp } })).complete s.cur)

/-- FENCE.VS (09_guard R233). -/
def execFenceVs (s : State) : Host.Outcome State Fault Refusal :=
  next (if vectorAccessPending s s.cur then s.stallSlot s.cur .vectorAccesses else s.complete s.cur)

/-- FENCE.VV (09_guard R233): one vector-queue entry, passed on once the tile accesses before it are performed; a later TLD or
TST waits for it (Tile.lean). It takes its P from VSTART as every entry does (05_vector R120). -/
def execFenceVv (s : State) : Host.Outcome State Fault Refusal :=
  let q := s.cur
  let x := s.me
  if 32 ≤ x.vq.length then next (s.stallSlot q .vectorQueueFull)
  else if (tilesOf s q).any fun e => wordIsTileAccess e.word then next (s.stallSlot q .retry)
  else
    let e : VEntry :=
      { pc := x.pc, word := 0x74000200, p := x.vstart, vl := 0, vcfg := 0, kind := .fenceVV, op0 := 0, op1 := 0, poison0 := none,
        poison1 := none, probed := none, joined := none, restored := false, ord := s.nextOp, began := x.vstart }
    next (bumpOp ((s.setSlot q { x with vq := x.vq ++ [e], vstart := 0, charge := beginCharge s q }).complete q))

/-- Whether an own store of slot q that is not performed touches a byte of a range, through one mapping or two (09_guard R232). -/
def storeOverlaps (s : State) (q : Nat) (va n : Nat) : Bool :=
  s.stores.any fun a => a.home == .slot q && sameBytes s q a.range (va, n)

/-- The outcome of an atomic on the old value: the new value, when it writes, with its poison, and the poison of sd. -/
structure AmoResult where
  new : Option Nat
  poison : Option PTag
  deriving DecidableEq, Repr

/-- Whether an atomic at a key is a release (09_guard R245, R246): one with R, or any at the DOORBELL of a notify page (14_queue R326). -/
def amoReleases (s : State) (r : Bool) (key : Nat) : Bool := r || isDoorbell s key

/-- What an acquiring atomic adds (09_guard R241, R246): it may read from any publication (18_bucket R397). -/
def acquiring (c : BitVec 1) (s : State) : State := if c = 1 then s.settleLinks else s

/-- An atomic (09_guard R246): f gives the new value from the old value and its poison. The read and the write are one step; an own
store to the same bytes is performed first, and for a release every earlier access is. One that no link can carry is lost (20_link R430,
R432). -/
def amo (s : State) (w : Option Nat) (d a : BitVec 6) (n : Nat) (c : BitVec 1) (r : Bool) (f : Nat → Option PTag → AmoResult) : State :=
  let q := s.cur
  let x := s.slot q
  let va := (x.val a.toNat).toNat
  let ag := scalarAgent s q
  let key := keyOfVa s ag va .update
  whenReady s q [d.toNat, a.toNat] <| unlessPoisoned s q [a.toNat] <|
    scalarCheck s q w .update va n n <|
      if storeOverlaps s q va n then s.stallSlot q .accesses
      else if amoReleases s r key && accessPending s q then s.stallSlot q .accesses
      else if isRemote key && (linkFor s key).isNone then loseWrite s (.slot q) ag.tag (linkEvent s key false)
      else if migratingAt s ag va n then s.stallSlot q .retry
      else
        let g := readVa s ag va n
        let old := leNat g.bytes
        let o := f old g.poison
        let s0 := acquiring c g.st
        let s1 := match o.new with
          | some v => writeVa s0 (.slot q) ag va (leBytes n v) o.poison
          | none => s0
        if (s1.slot q).st = .free then s1 else s1.finish q d.toNat (extendBytes true g.bytes) (lowerTag g.poison o.poison)

/-- The access size of an atomic (09_guard R246). -/
def amoSize (n : BitVec 1) : Nat := if n = 0 then 4 else 8

/-- An atomic that always writes (09_guard R246): new is computed from the old value and the low bits of sd. -/
def amoOp (s : State) (w : Option Nat) (d a : BitVec 6) (n c l : BitVec 1) (f : Nat → Nat → Nat → Nat) : State :=
  let x := s.me
  let b := 8 * amoSize n
  amo s w d a (amoSize n) c (l = 1) fun old p =>
    ⟨some (f b old ((x.val d.toNat).toNat % 2 ^ b) % 2 ^ b), lowerTag p (x.poisonOf d.toNat)⟩

/-- AMOADD (09_guard R246). -/
def execAmoadd (d a : BitVec 6) (n c l : BitVec 1) (sc : BitVec 3) (s : State) : Host.Outcome State Fault Refusal :=
  next (amoOp s (encode (.amoadd d a n c l sc)) d a n c l fun _ old x => old + x)

/-- AMOSWAP (09_guard R246). -/
def execAmoswap (d a : BitVec 6) (n c l : BitVec 1) (sc : BitVec 3) (s : State) : Host.Outcome State Fault Refusal :=
  next (amoOp s (encode (.amoswap d a n c l sc)) d a n c l fun _ _ x => x)

/-- AMOMIN (09_guard R246). -/
def execAmomin (d a : BitVec 6) (n c l : BitVec 1) (sc : BitVec 3) (s : State) : Host.Outcome State Fault Refusal :=
  next (amoOp s (encode (.amomin d a n c l sc)) d a n c l fun b old x => if signedOf b old ≤ signedOf b x then old else x)

/-- AMOMAX (09_guard R246). -/
def execAmomax (d a : BitVec 6) (n c l : BitVec 1) (sc : BitVec 3) (s : State) : Host.Outcome State Fault Refusal :=
  next (amoOp s (encode (.amomax d a n c l sc)) d a n c l fun b old x => if signedOf b old ≤ signedOf b x then x else old)

/-- AMOMINZ (09_guard R246). -/
def execAmominz (d a : BitVec 6) (n c l : BitVec 1) (sc : BitVec 3) (s : State) : Host.Outcome State Fault Refusal :=
  next (amoOp s (encode (.amominz d a n c l sc)) d a n c l fun _ old x => min old x)

/-- AMOMAXZ (09_guard R246). -/
def execAmomaxz (d a : BitVec 6) (n c l : BitVec 1) (sc : BitVec 3) (s : State) : Host.Outcome State Fault Refusal :=
  next (amoOp s (encode (.amomaxz d a n c l sc)) d a n c l fun _ old x => max old x)

/-- AMOAND (09_guard R246). -/
def execAmoand (d a : BitVec 6) (n c l : BitVec 1) (sc : BitVec 3) (s : State) : Host.Outcome State Fault Refusal :=
  next (amoOp s (encode (.amoand d a n c l sc)) d a n c l fun _ old x => old &&& x)

/-- AMOOR (09_guard R246). -/
def execAmoor (d a : BitVec 6) (n c l : BitVec 1) (sc : BitVec 3) (s : State) : Host.Outcome State Fault Refusal :=
  next (amoOp s (encode (.amoor d a n c l sc)) d a n c l fun _ old x => old ||| x)

/-- AMOXOR (09_guard R246). -/
def execAmoxor (d a : BitVec 6) (n c l : BitVec 1) (sc : BitVec 3) (s : State) : Host.Outcome State Fault Refusal :=
  next (amoOp s (encode (.amoxor d a n c l sc)) d a n c l fun _ old x => old ^^^ x)

/-- AMOCAS (09_guard R246): a poisoned comparand or new value is a sink; a poisoned old value compares unequal. -/
def execAmocas (d a : BitVec 6) (n c l : BitVec 1) (sc : BitVec 3) (s : State) : Host.Outcome State Fault Refusal :=
  let x := s.me
  let b := 8 * amoSize n
  next (whenReady s s.cur [d.toNat, d.toNat + 1, a.toNat] <| unlessPoisoned s s.cur [d.toNat, d.toNat + 1] <|
    amo s (encode (.amocas d a n c l sc)) d a (amoSize n) c (l = 1) fun old p =>
      if p.isNone ∧ old = (x.val d.toNat).toNat % 2 ^ b then ⟨some ((x.val (d.toNat + 1)).toNat % 2 ^ b), none⟩ else ⟨none, none⟩)

/-- Whether a pending access is a release (09_guard R242): one by its instruction, or any store to the DOORBELL of a notify page (14_queue
R326). -/
def PendAcc.isRelease (s : State) (a : PendAcc) : Bool := a.release || isDoorbell s a.key

/-- The agent of a pending access. -/
def PendAcc.agent (a : PendAcc) : Agent :=
  { slice := scalarSlice (coreOf a.slot), asid := a.asid, level := a.level, tag := a.tag, cluster := clusterOf a.slot,
    pc := some a.pc }

/-- The kind of a pending access (11_page R284). -/
def PendAcc.kind (a : PendAcc) : Access := if a.increment then .update else .write

/-- Whether a pending access may be performed (09_guard R230, R242; 20_link R431): in the order of overlapping bytes; a release
after every earlier access of its context, those in other packages acknowledged; not while its page is MIGRATING. -/
def mayPerform (s : State) (a : PendAcc) : Bool :=
  !(s.stores.any fun b => b.home == a.home && decide (b.ord < a.ord) &&
    (a.isRelease s || bytesMeet b.range a.range || bytesMeet (b.key, b.bytes.length) (a.key, a.bytes.length))) &&
  !(a.isRelease s && (queuedBefore s a.home a.ord || unacked s a.home)) &&
  !(a.waiting && migratingAt s a.agent a.va.toNat a.bytes.length)

/-- One store of a context is complete: its count falls, in the slot or in the image that holds the context (10_context R256; 12_kernel
R305). -/
def storeDone (s : State) (h : Home) : State :=
  match h, h.inImage with
  | .slot q, _ => s.setSlot q { s.slot q with cnt := { (s.slot q).cnt with stores := (s.slot q).cnt.stores - 1 } }
  | _, some k =>
    let w := physWord s (k + 0x40 + 8 * 12)
    if wbits w 23 16 = 0 then s else physPut s (k + 0x40 + 8 * 12) (w - 0x10000)
  | _, none => s

/-- Perform a pending store or release (04_sequencer R109; 09_guard R241): one that waited for a MIGRATING page is translated
afresh, and sets A and D, as any access does (11_page R285, R292), and is lost to a page that no longer permits it. -/
def performAcc (s : State) (a : PendAcc) : State :=
  let ag := a.agent
  let k := if a.waiting then checkAddr s ag a.va.toNat a.kind else .ok ⟨a.key, 0, none, 0, 0⟩
  match k with
  | .error _ => storeDone s a.home
  | .ok h =>
    let s1 := if a.waiting then touch s ag a.va.toNat a.kind else s
    if a.increment then
      let g := readKey s1 h.key 8
      match g.poison with
      | some t => storeDone (sinkFor g.st a.home ag t h.key) a.home
      | none => storeDone (writeKey g.st a.home ag h.key (leBytes 8 ((leNat g.bytes + 1) % 2 ^ 64)) none) a.home
    else storeDone (writeKey s1 a.home ag h.key a.bytes a.poison) a.home

/-- Take the k-th pending access that a slot issued out of a list: those before it, it, and those after it. -/
def takeAcc (q : Nat) : Nat → List PendAcc → List PendAcc → Option (List PendAcc × PendAcc × List PendAcc)
  | _, _, [] => none
  | k, acc, a :: rest =>
    if a.slot = q then (match k with
      | 0 => some (acc, a, rest)
      | k + 1 => takeAcc q k (acc ++ [a]) rest)
    else takeAcc q k (acc ++ [a]) rest

/-- ACCESS_PERFORMED (04_sequencer R109): the k-th pending scalar access that slot q issued is performed, when it may be. -/
def execAccessPerformed (q k : Nat) (s : State) : Host.Outcome State Fault Refusal :=
  next (match takeAcc q k [] s.stores with
    | none => s
    | some (before, a, after) =>
      if mayPerform s a then performAcc { s with stores := before ++ after } a else s)

end Sys2Proof.Machine
end

