-- ==== Sys2Proof/Machine/System.lean ====
section
/-! DEFINITION. System registers and their instructions (03_encoding R57; 10_context R271; and the register maps of each chapter),
and the device events that write them. -/

namespace Sys2Proof.Machine

/-- Whether the slot's vector queue counts as empty (05_vector R123; 15_barrier R347): only fired markers and FENCE.VV entries are
left, no KST waits for its link, and no instruction waits for its recheck (19_shroud R418). -/
def vectorIdle (s : State) (q : Nat) : Bool :=
  ((s.slot q).vq.all fun e => e.kind == .fenceVV || (e.kind == .marker && e.joined.isSome)) &&
  !(s.claims.any fun e => e.2.slot == q) && !((s.core (coreOf q)).rechecks.any fun r => r.slot == q)

/-- Whether every tile operation of the slot has completed (07_tile R167): those in the tile queue, and TMOVR and TMOVW, which stand in the
vector queue and count in TILES too (04_sequencer R109). -/
def tilesIdle (s : State) (q : Nat) : Bool :=
  (tilesOf s q).isEmpty && !(s.slot q).vq.any fun e => e.kind == .instr && (queueCounts e.word).2.2 != 0

/-- The level that reading and writing a system register needs (03_encoding R57): none where it may not. -/
def sysReadLevel (n : Nat) : Option Level :=
  match n with
  | 0x001 | 0x002 | 0x010 | 0x011 | 0x012 | 0x013 | 0x020 | 0x021 | 0x022 | 0x030 | 0x040 | 0x041 | 0x042 | 0x043 => some .user
  | 0x111 | 0x112 | 0x114 => some .user
  | 0x014 | 0x015 | 0x016 | 0x100 | 0x101 | 0x102 | 0x103 | 0x104 | 0x110 | 0x113 | 0x120 => some .supervisor
  | 0x200 => some .firmware
  | _ => none

def sysWriteLevel (n : Nat) : Option Level :=
  match n with
  | 0x001 | 0x002 | 0x020 | 0x021 | 0x022 | 0x042 | 0x043 => some .user
  | 0x010 | 0x011 | 0x012 | 0x013 | 0x014 | 0x015 | 0x016 | 0x040 | 0x041 => some .supervisor
  | 0x100 | 0x101 | 0x102 | 0x103 | 0x104 | 0x110 | 0x111 | 0x112 | 0x113 | 0x114 | 0x120 => some .supervisor
  | 0x200 => some .firmware
  | _ => none

/-- AGELIMIT of a die (14_queue R336; log 11). -/
def ageLimitOf (s : State) (die : Nat) : Word := tabGet s.ageLimit 0x1000000#64 die

/-- REEFCTL as a read shows it (07_tile R168). -/
def reefctlWord (s : State) (q : Nat) : Word :=
  let x := s.slot q
  let c := s.core (coreOf q)
  BitVec.ofNat 64 ((c.reefLog.filter fun e => e.2.tag == x.shtag).length * 2 ^ 16 + c.reefs % 64 * 2 ^ 8 +
    (c.reefOvf.contains x.shtag).toNat * 2 + x.reefTrap.toNat)

/-- TRAPCAUSE as a read shows it (10_context R270). -/
def trapCauseWord (x : Slot) : Word :=
  BitVec.ofNat 64 (x.trapFrlost.toNat * 2 ^ 11 + (x.mode == .handler && x.request.isSome).toNat * 2 ^ 10 +
    x.trapQueue.toNat * 2 ^ 9 + x.trapNested.toNat * 2 ^ 8 + x.trapCause.toNat)

/-- A system register as its Read column gives it (03_encoding R57). -/
def sysRead (s : State) (q : Nat) (n : Nat) : Word :=
  let x := s.slot q
  match n with
  | 0x001 => x.fflags.setWidth 64
  | 0x002 => x.frm.setWidth 64
  | 0x010 => BitVec.ofNat 64 x.vl
  | 0x011 => x.vcfg.setWidth 64
  | 0x012 => BitVec.ofNat 64 x.vstart
  | 0x013 => BitVec.ofNat 64 x.vlcap
  | 0x014 => x.vdirty.setWidth 64
  | 0x015 => x.vowner
  | 0x016 => BitVec.ofNat 64 x.vuse.toNat
  | 0x020 => x.uivec
  | 0x021 => x.uiepc
  | 0x022 => x.uistat.word
  | 0x030 => x.cnt.word
  | 0x040 => x.accBase.setWidth 64
  | 0x041 => x.accLim.setWidth 64
  | 0x042 => x.reefTh.setWidth 64
  | 0x043 => reefctlWord s q
  | 0x100 => trapCauseWord x
  | 0x101 => x.trapPc
  | 0x102 => x.trapAddr
  | 0x103 => x.trapAux
  | 0x104 => x.faultRec
  | 0x110 => x.asid.setWidth 64
  | 0x111 => x.shtag.setWidth 64
  | 0x112 => x.prio.setWidth 64
  | 0x113 => x.csaBase
  | 0x114 => spBase s (clusterOf q)
  | 0x120 => BitVec.ofNat 64 x.rechk.toNat
  | 0x200 => ageLimitOf s (dieOf q)
  | _ => 0

/-- The bits of a system register that are RW (the register maps of R31, R32, R100, R112, R118 to R121, R167, R168, R221, R267,
R268, R270, R277, R336, R404, R418). -/
def sysRwMask (n : Nat) : Word :=
  match n with
  | 0x001 => 0x1F
  | 0x002 => 0x3
  | 0x010 | 0x011 | 0x012 => 0x3FFF
  | 0x013 => 0x7FFF
  | 0x014 => 0x3F
  | 0x015 | 0x113 => 0x00FFFFFFFFFFF000
  | 0x016 => 0x1
  | 0x020 | 0x021 => 0x00FFFFFFFFFFFFFC
  | 0x022 => 0x1
  | 0x040 => 0x7F
  | 0x041 => 0xFF
  | 0x042 => 0x3F
  | 0x043 => 0x1
  | 0x100 => 0xBFF
  | 0x101 | 0x102 | 0x103 => 0xFFFFFFFFFFFFFFFF
  | 0x104 => 0x00FFFFFFFFFFFFC0
  | 0x110 => 0xFFF
  | 0x111 => 0x3FF
  | 0x112 => 0xF
  | 0x114 => 0x00FFFFFFFC000000
  | 0x120 => 0x1
  | 0x200 => 0xFFFFFFFFFF
  | _ => 0

/-- The largest CAP that a core's lane groups allow (19_shroud R420; 05_vector R121). -/
def capLimit (c : Core) : Nat := 2048 * c.laneMap.length

/-- Whether a value may stand in the RW fields of a system register (05_vector R119, R121; 07_tile R167; 14_queue R336;
10_context R270). -/
def sysValueOk (s : State) (q n : Nat) (v : Word) : Bool :=
  let x := s.slot q
  match n with
  | 0x011 => decide (v.toNat % 8 ≤ 5) && decide (v.toNat / 2 ^ 12 % 4 ≠ 3)
  | 0x013 => (v == 2048 || v == 4096 || v == 8192 || v == 16384) && decide (v.toNat ≤ capLimit (s.core (coreOf q)))
  | 0x040 => decide (v.toNat + x.accLim.toNat ≤ 128)
  | 0x041 => decide (x.accBase.toNat + v.toNat ≤ 128)
  | 0x042 => decide (1 ≤ v.toNat ∧ v.toNat ≤ 60)
  | 0x200 => v == 0 || decide (1024 ≤ v.toNat)
  | _ => true

/-- REEFCTL.CLR (07_tile R168): the log entries that carry the context's tag become invalid, and OVF is cleared. -/
def reefClear (s : State) (q : Nat) : State :=
  let tag := (s.slot q).shtag
  let c := s.core (coreOf q)
  s.setCore (coreOf q) { c with reefLog := c.reefLog.filter fun e => e.2.tag != tag, reefOvf := c.reefOvf.filter fun t => t != tag }

/-- The state with the RW fields of a system register set to a value that may stand in them. A VLEN or VCFG that leaves VL above
VLMAX lowers VL (05_vector R119, R122); a VL above VLMAX becomes VLMAX (R118). -/
def sysSet (s : State) (q n : Nat) (v : Word) : State :=
  let x := s.slot q
  let put := fun (y : Slot) => s.setSlot q y
  match n with
  | 0x001 => put { x with fflags := BitVec.ofNat 5 v.toNat }
  | 0x002 => put { x with frm := BitVec.ofNat 2 v.toNat }
  | 0x010 => put { x with vl := min v.toNat (x.vlmax x.vcfg) }
  | 0x011 => put { x with vcfg := BitVec.ofNat 14 v.toNat }.clampVl
  | 0x012 => put { x with vstart := v.toNat }
  | 0x013 => put { x with vlcap := v.toNat }.clampVl
  | 0x014 => put { x with vdirty := BitVec.ofNat 6 v.toNat }
  | 0x015 => put { x with vowner := v }
  | 0x016 => put { x with vuse := v.getLsbD 0 }
  | 0x020 => put { x with uivec := v }
  | 0x021 => put { x with uiepc := v }
  | 0x022 => put { x with uistat := { x.uistat with en := v.getLsbD 0 } }
  | 0x040 => put { x with accBase := BitVec.ofNat 7 v.toNat }
  | 0x041 => put { x with accLim := BitVec.ofNat 8 v.toNat }
  | 0x042 => put { x with reefTh := BitVec.ofNat 6 v.toNat }
  | 0x043 => put { x with reefTrap := v.getLsbD 0 }
  | 0x100 => put { x with trapCause := BitVec.ofNat 8 v.toNat, trapNested := v.getLsbD 8, trapQueue := v.getLsbD 9, trapFrlost := v.getLsbD 11 }
  | 0x101 => put { x with trapPc := v }
  | 0x102 => put { x with trapAddr := v }
  | 0x103 => put { x with trapAux := v }
  | 0x104 => put { x with faultRec := v }
  | 0x110 => put { x with asid := BitVec.ofNat 12 v.toNat }
  | 0x111 => put { x with shtag := BitVec.ofNat 10 v.toNat }
  | 0x112 => put { x with prio := BitVec.ofNat 4 v.toNat }
  | 0x113 => put { x with csaBase := v }
  | 0x114 => { s with spbase := tabSet s.spbase (clusterOf q) v }
  | 0x120 => put { x with rechk := v.getLsbD 0 }
  | 0x200 => { s with ageLimit := tabSet s.ageLimit (dieOf q) v }
  | _ => s

/-- The W1C and WO fields of a register (04_sequencer R112; 07_tile R168), which act under SWR only (10_context R271). -/
def sysAct (s : State) (q n : Nat) (a : Word) : State :=
  let x := s.slot q
  match n with
  | 0x022 => s.setSlot q { x with uistat := { x.uistat with pcopy := x.uistat.pcopy && !a.getLsbD 17, preef := x.uistat.preef && !a.getLsbD 16 } }
  | 0x043 =>
    let s1 := if a.getLsbD 2 then reefClear s q else s
    let c := s1.core (coreOf q)
    if a.getLsbD 1 then s1.setCore (coreOf q) { c with reefOvf := c.reefOvf.filter fun t => t != x.shtag } else s1
  | _ => s

/-- Whether an operation that may reach the scratchpad window is in flight in a cluster (08_stream R221): a store to the window, a queued access of
a slot's vector or tile side, a link, a copy or a command. -/
def windowBusy (s : State) (cl : Nat) : Bool :=
  (s.stores.any fun a => isPad a.key && clusterOf a.slot == cl) ||
  (s.copies.any fun c => (if c.2.task.isSome then c.2.engine / 16 else clusterOfCore c.2.core) == cl) ||
  (s.cmds.any fun c => c.2.cluster == cl) || (s.klinks.any fun e => clusterOf e.2.slot == cl) ||
  ((busySlots s).any fun e => clusterOf e.1 == cl && (e.2.vq.any fun v => wordIsAccess v.word)) ||
  s.cores.any fun e => clusterOfCore e.1 == cl && e.2.tq.any fun t => wordIsTileAccess t.word

/-- Whether an access to a register must wait for the vector queue (05_vector R123) or for tile operations (07_tile R167, R168),
or a write of SPBASE for accesses to the window in the cluster (08_stream R221). -/
def sysWaits (s : State) (q n : Nat) (write : Bool) : Bool :=
  (match n with
    | 0x001 | 0x002 | 0x012 | 0x013 => !vectorIdle s q
    | 0x010 | 0x011 => write && !vectorIdle s q
    | _ => false) ||
  (match n with
    | 0x001 | 0x042 | 0x043 => !tilesIdle s q
    | 0x040 | 0x041 => write && !tilesIdle s q
    | _ => false) ||
  (n == 0x010 && vlPending s q) ||
  (n == 0x114 && write && windowBusy s (clusterOf q))

/-- The stall of an access that waits. -/
def sysStall (s : State) (q n : Nat) : State :=
  s.stallSlot q (if n = 0x010 ∧ vlPending s q then .vlPending else if !vectorIdle s q then .vectorBusy else if !tilesIdle s q then .tilesBusy else .retry)

/-- Whether a write of a register is one that context mode forbids (10_context R271). -/
def contextOnly (n : Nat) : Bool := n == 0x110 || n == 0x111 || n == 0x113

/-- SRD (10_context R271): level, waits, then the value. -/
def execSrd (d : BitVec 6) (n : BitVec 12) (s : State) : Host.Outcome State Fault Refusal :=
  let q := s.cur
  let w := encode (.srd d n)
  next (match sysReadLevel n.toNat with
    | none => trapWord s q 0x01 w
    | some l => needLevel s q l w <| whenReady s q [d.toNat] <|
        if sysWaits s q n.toNat false then sysStall s q n.toNat else s.finish q d.toNat (sysRead s q n.toNat) none)

/-- A write to a system register (10_context R271): level, a poisoned source is a sink, the waits, the value check, the effect. f
gives the new RW fields from the old ones (DEDUCED, log 40). -/
def sysWriteWith (s : State) (w : Option Nat) (n : Nat) (a : BitVec 6) (f : Word → Word → Word) (swr : Bool) : State :=
  let q := s.cur
  let x := s.slot q
  match sysWriteLevel n with
  | none => trapWord s q 0x01 w
  | some l => needLevel s q l w <| whenReady s q [a.toNat] <| unlessPoisoned s q [a.toNat] <|
      if contextOnly n && x.mode == .context then trapWord s q 0x01 w
      else if sysWaits s q n true then sysStall s q n
      else
        let v := f (sysRead s q n) (x.val a.toNat) &&& sysRwMask n
        if sysValueOk s q n v then
          (sysSet (if swr then sysAct s q n (x.val a.toNat) else s) q n v).complete q
        else trapWord s q 0x01 w

/-- SWR (10_context R271). -/
def execSwr (a : BitVec 6) (n : BitVec 12) (s : State) : Host.Outcome State Fault Refusal :=
  next (sysWriteWith s (encode (.swr a n)) n.toNat a (fun _ v => v) true)

/-- SRSET (10_context R271). -/
def execSrset (a : BitVec 6) (n : BitVec 12) (s : State) : Host.Outcome State Fault Refusal :=
  next (sysWriteWith s (encode (.srset a n)) n.toNat a (fun o v => o ||| v) false)

/-- SRCLR (10_context R271). -/
def execSrclr (a : BitVec 6) (n : BitVec 12) (s : State) : Host.Outcome State Fault Refusal :=
  next (sysWriteWith s (encode (.srclr a n)) n.toNat a (fun o v => o &&& ~~~v) false)

/-- The event of a register write of slot q: it waits as the instruction does, a value that may not stand traps (10_context R271),
else the register takes it. -/
def sysWriteEvent (s : State) (q n : Nat) (v : Word) : State :=
  if (s.slot q).st = .free ∨ sysWaits s q n true = true then s
  else if contextOnly n && (s.slot q).mode == .context then trap s q 0x01 0 0
  else if sysValueOk s q n (v &&& sysRwMask n) then sysSet s q n (v &&& sysRwMask n)
  else trap s q 0x01 0 0

/-- SPBASE_WRITE (08_stream R221). -/
def execSpbaseWrite (q : Nat) (v : Word) (s : State) : Host.Outcome State Fault Refusal := next (sysWriteEvent s q 0x114 v)

/-- VL_WRITE (05_vector R118, R123). -/
def execVlWrite (q : Nat) (v : Word) (s : State) : Host.Outcome State Fault Refusal := next (sysWriteEvent s q 0x010 v)

/-- VCFG_WRITE (05_vector R119, R123). -/
def execVcfgWrite (q : Nat) (v : Word) (s : State) : Host.Outcome State Fault Refusal := next (sysWriteEvent s q 0x011 v)

/-- VLCAP_WRITE (05_vector R121, R122). -/
def execVlcapWrite (q : Nat) (v : Word) (s : State) : Host.Outcome State Fault Refusal := next (sysWriteEvent s q 0x013 v)

/-- ACCRANGE_WRITE (07_tile R167): ACCBASE, or ACCLIM. -/
def execAccrangeWrite (q : Nat) (lim : Bool) (v : Word) (s : State) : Host.Outcome State Fault Refusal :=
  next (sysWriteEvent s q (if lim then 0x041 else 0x040) v)

/-- REEFCTL_CLR (07_tile R168). -/
def execReefctlClr (q : Nat) (s : State) : Host.Outcome State Fault Refusal :=
  next (if (s.slot q).st = .free ∨ sysWaits s q 0x043 true = true then s else reefClear s q)

/-- AGELIMIT_WRITE (14_queue R336). -/
def execAgelimitWrite (q : Nat) (v : Word) (s : State) : Host.Outcome State Fault Refusal := next (sysWriteEvent s q 0x200 v)

/-- CONTEXT_ID_WRITE (10_context R271): SHTAG, ASID or CSABASE by its number; any other number is no such write. -/
def execContextIdWrite (q : Nat) (n : BitVec 12) (v : Word) (s : State) : Host.Outcome State Fault Refusal :=
  next (if contextOnly n.toNat then sysWriteEvent s q n.toNat v else s)

end Sys2Proof.Machine
end

