-- ==== Sys2Proof/Machine/Landing.lean ====
section
/-! DEFINITION. The boundaries between instructions: the end of a stall (04_sequencer R80), entry to a user-level handler (R114),
the save that a queue entry's trap calls for (10_context R261, R262), pre-emption (R264), and the end of a context of an ending
leaf group (13_group R312). -/

namespace Sys2Proof.Machine

/-- The copies in flight of a core (04_sequencer R109). -/
def copiesOfCore (s : State) (k : Nat) : Nat := (s.copies.filter fun c => c.2.core == k && c.2.task.isNone).length

/-- Whether a stalling condition of slot q has cleared (04_sequencer R80). -/
def stallOver (s : State) (q : Nat) : Stall → Bool
  | .register r => decide (((s.slot q).sreg r).pend = .ready)
  | .vectorQueueFull => decide ((s.slot q).vq.length < 32)
  | .tileQueueFull => decide ((s.core (coreOf q)).tq.length < 16)
  | .counterFull => let c := (s.slot q).cnt; decide (c.loads < 255 ∧ c.stores < 255 ∧ c.copies < 255 ∧ c.tiles < 255)
  | .copyPortFull => decide (copiesOfCore s (coreOf q) < 128)
  | .vlPending => !vlPending s q
  | .vectorBusy => vectorIdle s q
  | .tilesBusy => tilesIdle s q
  | .counts l st c t =>
    let n := (s.slot q).cnt
    decide (n.loads ≤ l ∧ n.stores ≤ st ∧ n.copies ≤ c ∧ n.tiles ≤ t)
  | .accesses => !accessPending s q
  | .vectorAccesses => !vectorAccessPending s q
  | .retry => true
  | .draining => false

/-- SLOT_STALL_RELEASE (04_sequencer R80): a stalled slot whose condition has cleared runs again, at the stalled instruction. -/
def execSlotStallRelease (q : Nat) (s : State) : Host.Outcome State Fault Refusal :=
  next (match (s.slot q).st with
    | .stall why => if stallOver s q why then s.setSlot q { s.slot q with st := .run } else s
    | _ => s)

/-- Whether a user-level interrupt is to be entered (04_sequencer R114, R116; 10_context R251). -/
def uiDue (x : Slot) : Bool :=
  decide (x.st ≠ .free) && decide (x.st ≠ .stall .draining) && x.mode == .context && x.uistat.en && !x.uistat.act && (x.uistat.preef || x.uistat.pcopy)

/-- Entry to the user handler (04_sequencer R114): a reef interrupt before a copy completion. The fetch at UIVEC reports UIEPC. -/
def Slot.enterUser (x : Slot) : Slot :=
  let u := x.uistat
  let u' : UiStat :=
    if u.preef then { u with preef := false, cause := 0x13, act := true } else { u with pcopy := false, cause := 0x20, act := true }
  { x with st := .run, uistat := u', uiepc := x.pc, prev := some x.pc, pc := x.uivec }

/-- UL_INTERRUPT_ENTRY (04_sequencer R114). -/
def execUlInterruptEntry (q : Nat) (s : State) : Host.Outcome State Fault Refusal :=
  next (if uiDue (s.slot q) && (s.slot q).due.isNone then s.setSlot q (s.slot q).enterUser else s)

/-- Whether the boundary where slot q stands is a landing point (10_context R264). -/
def atLanding (x : Slot) : Bool := x.loops.isEmpty || x.land

/-- Whether slot q is to be pre-empted, or its context is to end with its leaf group, at this boundary (10_context R264;
13_group R312). -/
def landingDue (s : State) (q : Nat) : Bool :=
  let x := s.slot q
  decide (x.st ≠ .free) && decide (x.st ≠ .stall .draining) && x.mode == .context && x.due.isNone && atLanding x && (x.request.isSome || x.ctx.ending)

/-- TRAPAUX of a pre-emption (10_context R264). -/
def Request.aux (r : Request) : Word :=
  BitVec.ofNat 64 (r.prio.toNat + (if r.fromCtxsv then 16 + r.issuer * 2 ^ 5 else 0))

/-- Whether an operation that the counters count still stands in a queue of slot q (04_sequencer R109): a vector access or a tile operation. -/
def countedQueued (s : State) (q : Nat) : Bool :=
  ((s.slot q).vq.any fun e => e.kind == .instr && queueCounts e.word != (0, 0, 0)) || !(tilesOf s q).isEmpty

/-- A slot whose context has ended its leaf group (13_group R320): it gives its context up once no counted operation stands in its queues. -/
def drain (s : State) (q : Nat) : State := if unitsPending s q || countedQueued s q then s else endMember s q

/-- A trap that an entry of the vector or tile queue has raised is taken (10_context R261): the image's PC is the scalar side's
position, once the older entries of both queues have completed. A context of an ending leaf group ends instead, without a trap (13_group R312;
12_kernel R305). -/
def takeDue (s : State) (q : Nat) : State :=
  let x := s.slot q
  match x.due with
  | some r =>
    if x.ctx.ending && x.mode == .context then (if unitsPending s q then s else endMember s q)
    else if r.queue && olderLeft s q x.dueOrd then s
    else takeTrapAt s q r x.pc
  | none => s

/-- FIRST_STAGE_SAVE (10_context R261, R262). -/
def execFirstStageSave (q : Nat) (s : State) : Host.Outcome State Fault Refusal :=
  next (if (s.slot q).st = .free then s else takeDue s q)

/-- The landing (10_context R264): a context of an ending leaf group ends without a trap, any other traps with cause 0x21. -/
def land (s : State) (q : Nat) : State :=
  let x := s.slot q
  if x.ctx.ending then (if unitsPending s q then s else endMember s q)
  else match x.request with
    | none => s
    | some r => firstStageSave (s.setSlot q { x with request := none }) q ⟨0x21, x.pc, 0, r.aux, false, false⟩ x.pc

/-- PREEMPTION_LANDING (10_context R264). -/
def execPreemptionLanding (q : Nat) (s : State) : Host.Outcome State Fault Refusal :=
  next (if landingDue s q then land s q else s)

end Sys2Proof.Machine
end

