-- ==== Sys2Proof/Machine/Elements.lean ====
section
/-! DEFINITION. Vector and mask elements: their places (05_vector R124), their poison (R127), and the way an instruction goes over
them (R126, R128). -/

namespace Sys2Proof.Machine

/-- Where the vector state of an instruction stands, and what it captured (05_vector R117 to R120; 04_sequencer R82): the core's
lane groups of its slot, VLEN, VL, P, VCFG, and the slot's rounding mode. -/
structure VView where
  base : Nat
  count : Nat
  vlen : Nat
  vl : Nat
  p : Nat
  vcfg : BitVec 14
  frm : RMode
  deriving DecidableEq, Repr

/-- The view of a queue entry of a slot. -/
def VView.of (x : Slot) (e : VEntry) : VView := ⟨x.laneBase, x.laneCount, x.vlen, e.vl, e.p, e.vcfg, RMode.ofFrm x.frm⟩

/-- Element width, grouping code and policies of a view (05_vector R119). -/
def VView.w (v : VView) : Nat := vWidth v.vcfg
def VView.g (v : VView) : Nat := vGroup v.vcfg
def VView.mp (v : VView) : Bool := v.vcfg.getLsbD 6
def VView.tp (v : VView) : Bool := v.vcfg.getLsbD 5
def VView.fmt (v : VView) : Fmt := (floatType v.vcfg).getD fmtF64

/-- An element: its bits and its poison (05_vector R127). -/
structure Elem where
  bits : Nat
  poison : Option PTag
  deriving DecidableEq, Repr

/-- What an instruction computes for one element: the element and the flags it raises. -/
structure ElemRes where
  elem : Elem
  flags : FFlags
  deriving DecidableEq, Repr

/-- An element without flags. -/
def Elem.res (e : Elem) : ElemRes := ⟨e, 0⟩

/-- Bits of a chunk replaced, with the poison of what is written (05_vector R127; 00_scope R12): poison spreads over the chunk,
and a chunk is clean once every bit of it has received an unpoisoned value (DEDUCED, log 44). -/
def VChunk.write (c : VChunk) (lo n bits : Nat) (p : Option PTag) : VChunk :=
  let mask : Word := BitVec.ofNat 64 ((2 ^ n - 1) * 2 ^ lo)
  let b := (c.bits &&& ~~~mask) ||| (BitVec.ofNat 64 (bits % 2 ^ n * 2 ^ lo) &&& mask)
  match p with
  | some t => ⟨b, (lowerTag (some t) (c.poison.map (·.1))).map fun t => (t, -1)⟩
  | none =>
    match c.poison with
    | none => ⟨b, none⟩
    | some (t, left) => ⟨b, if left &&& ~~~mask = 0 then none else some (t, left &&& ~~~mask)⟩

/-- The chunk and the bit in it of an element of width w of the register group at r (05_vector R124). -/
def VView.place (v : VView) (r w i : Nat) : Nat × Nat :=
  let b := i * w % v.vlen
  (vecKey (v.base + b / 2048) (r + i * w / v.vlen) (b % 2048 / 64), b % 64)

/-- Element i of width w of the register group at r. -/
def Core.elem (c : Core) (v : VView) (r w i : Nat) : Elem :=
  let k := v.place r w i
  let ch := c.chunk k.1
  ⟨ch.bits.toNat / 2 ^ k.2 % 2 ^ w, ch.poison.map (·.1)⟩

/-- The core with an element written. -/
def Core.putElem (c : Core) (v : VView) (r w i : Nat) (e : Elem) : Core :=
  let k := v.place r w i
  { c with vec := tabSet c.vec k.1 ((c.chunk k.1).write k.2 w e.bits e.poison) }

/-- The chunk and the bit in it of mask bit i (05_vector R124): 1,024 bits in each lane group. -/
def VView.maskPlace (v : VView) (m i : Nat) : Nat × Nat := (vecKey (v.base + i / 1024) (32 + m) (i % 1024 / 64), i % 64)

/-- Mask bit i of mask register m (03_encoding R56; 13_group R314): m0 reads ones, bits past the lane groups read zero. -/
def Core.maskBit (c : Core) (v : VView) (m i : Nat) : Elem :=
  if m = 0 then ⟨1, none⟩
  else if 1024 * v.count ≤ i then ⟨0, none⟩
  else
    let k := v.maskPlace m i
    let ch := c.chunk k.1
    ⟨ch.bits.toNat / 2 ^ k.2 % 2, ch.poison.map (·.1)⟩

/-- The core with a mask bit written; writes to m0 and past the lane groups are discarded. -/
def Core.putMask (c : Core) (v : VView) (m i : Nat) (e : Elem) : Core :=
  if m = 0 ∨ 1024 * v.count ≤ i then c
  else
    let k := v.maskPlace m i
    { c with vec := tabSet c.vec k.1 ((c.chunk k.1).write k.2 1 e.bits e.poison) }

/-- The destination of an element-wise instruction: a register group at a width, or a mask register. -/
inductive VDst where
  | reg (r w : Nat)
  | mask (m : Nat)
  deriving DecidableEq, Repr

/-- The core with element i of a destination written. -/
def Core.putDst (c : Core) (v : VView) (d : VDst) (i : Nat) (e : Elem) : Core :=
  match d with
  | .reg r w => c.putElem v r w i e
  | .mask m => c.putMask v m i e

/-- The number of elements of a destination group of n registers at width w (05_vector R117, R126). -/
def VView.size (v : VView) (n w : Nat) : Nat := min (v.vlen * n / w) (v.vlen / 2)

/-- Zeros written to count elements of a destination from index i on. -/
def Core.zeroFrom (c : Core) (v : VView) (d : VDst) (i : Nat) : Nat → Core
  | 0 => c
  | n + 1 => Core.zeroFrom (c.putDst v d i ⟨0, none⟩) v d (i + 1) n

/-- The tail of a destination of N elements under TP (05_vector R126). -/
def Core.tail (c : Core) (v : VView) (d : VDst) (n : Nat) : Core :=
  if v.tp then c.zeroFrom v d v.vl (n - v.vl) else c

/-- The length of a mask destination with its tail (05_vector R126; 13_group R314). -/
def VView.maskSize (v : VView) : Nat := 1024 * v.count

/-- Whether element i is active under a mask field (05_vector R126). -/
def Core.active (c : Core) (v : VView) (m i : Nat) : Bool := m == 0 || (c.maskBit v m i).bits == 1

/-- The elements that the mask scanner collects from P on (05_vector R128): the active ones, and those that a poisoned mask chunk governs. -/
def Core.collected (c : Core) (v : VView) (m : Nat) (always : Bool) : List Nat :=
  (List.range v.vl).filter fun i => decide (v.p ≤ i) && (always || c.active v m i || (m != 0 && (c.maskBit v m i).poison.isSome))

/-- The progress index after the next element group of n elements (05_vector R128, R130): one more than the highest of them while others are left,
else VL. -/
def Core.groupEnd (c : Core) (v : VView) (m : Nat) (always : Bool) (n : Nat) : Nat :=
  match (c.collected v m always).drop (n - 1) with
  | i :: _ :: _ => i + 1
  | _ => v.vl

/-- n elements of an element-wise instruction from i on (05_vector R126, R127). Sources are read in c0, the core at the start of the element
group. A position that a poisoned mask chunk governs is poisoned. The result has the core and the flags. -/
def runElems (c0 : Core) (v : VView) (d : VDst) (m : Nat) (always : Bool) (f : Core → Nat → ElemRes) :
    Nat → Nat → Core → FFlags → Core × FFlags
  | 0, _, c, fl => (c, fl)
  | n + 1, i, c, fl =>
    let mb := if m = 0 then ⟨1, none⟩ else c0.maskBit v m i
    match mb.poison with
    | some t => runElems c0 v d m always f n (i + 1) (c.putDst v d i ⟨0, some t⟩) fl
    | none =>
      if mb.bits == 1 || always then
        let r := f c0 i
        runElems c0 v d m always f n (i + 1) (c.putDst v d i r.elem) (fl ||| r.flags)
      else runElems c0 v d m always f n (i + 1) (if v.mp then c.putDst v d i ⟨0, none⟩ else c) fl

/-- What an instruction of the vector unit does: element by element, or in one piece (05_vector R130). -/
inductive VAct where
  /-- the beat width W, the destination and its number of elements, the mask field, whether inactive elements are computed too,
  and the effect on one element -/
  | elems (width : Nat) (d : VDst) (size m : Nat) (always : Bool) (f : Core → Nat → ElemRes)
  /-- the core after it, its flags, and the value it writes to its scalar register -/
  | whole (f : Core → Core × FFlags × Option (Word × Option PTag))

/-- What one beat of an instruction comes to: the core, the flags, the next progress index when the instruction goes on, and its
scalar result. -/
structure VStep where
  core : Core
  flags : FFlags
  more : Option Nat
  scalar : Option (Word × Option PTag)

/-- The next element group of an instruction, or the whole of it (05_vector R126, R128, R130). -/
def VAct.step (v : VView) (c : Core) : VAct → VStep
  | .elems width d size m always f =>
    if v.vl ≤ v.p then ⟨c, 0, none, none⟩
    else
      let e := c.groupEnd v m always (2048 / width)
      let r := runElems c v d m always f (e - v.p) v.p c 0
      if e < v.vl then ⟨r.1, r.2, some e, none⟩
      else ⟨r.1.tail v d size, r.2, none, none⟩
  | .whole f =>
    let r := f c
    ⟨r.1, r.2.1, none, r.2.2⟩

/-- An operand of an instruction: a vector register group, or a captured scalar (05_vector R133). -/
inductive VOpnd where
  | reg (r : Nat)
  | scalar (val : Word) (p : Option PTag)
  deriving DecidableEq, Repr

/-- Element i of an operand at width w. -/
def Core.opnd (c : Core) (v : VView) (o : VOpnd) (w i : Nat) : Elem :=
  match o with
  | .reg r => c.elem v r w i
  | .scalar x p => ⟨x.toNat % 2 ^ w, p⟩

end Sys2Proof.Machine
end

