-- ==== Sys2Proof/Machine/Vector.lean ====
section
/-! DEFINITION. What the vector instructions of majors 0x20 to 0x24 and 0x26 compute (05_vector R133 to R143, R459; 02_numbers
R55). -/

namespace Sys2Proof.Machine

/-- An element-wise instruction into the register group at d of the plain width (05_vector R126). -/
def VView.plain (v : VView) (d m : Nat) (f : Core → Nat → ElemRes) : VAct :=
  .elems v.w (.reg d v.w) (v.size (2 ^ v.g) v.w) m false f

/-- An integer operation on two operands (05_vector R133): f has the width and the two elements as numbers. -/
def int2 (v : VView) (d a m : Nat) (b : VOpnd) (f : Nat → Nat → Nat → Nat) : VAct :=
  v.plain d m fun c i =>
    let x := c.elem v a v.w i
    let y := c.opnd v b v.w i
    Elem.res ⟨f v.w x.bits y.bits % 2 ^ v.w, lowerTag x.poison y.poison⟩

/-- The integer operations (05_vector R133). -/
def iAdd (_ a b : Nat) : Nat := a + b
def iSub (w a b : Nat) : Nat := a + 2 ^ w - b
def iMul (_ a b : Nat) : Nat := a * b
def iMulh (w a b : Nat) : Nat := intBits w (signedOf w a * signedOf w b / 2 ^ w)
def iMulhz (w a b : Nat) : Nat := a * b / 2 ^ w
def iDiv (w a b : Nat) : Nat := if b = 0 then 2 ^ w - 1 else intBits w ((signedOf w a).tdiv (signedOf w b))
def iMin (w a b : Nat) : Nat := if signedOf w b < signedOf w a then b else a
def iMax (w a b : Nat) : Nat := if signedOf w a < signedOf w b then b else a
def iMinz (_ a b : Nat) : Nat := min a b
def iMaxz (_ a b : Nat) : Nat := max a b
def iAnd (_ a b : Nat) : Nat := a &&& b
def iOr (_ a b : Nat) : Nat := a ||| b
def iXor (_ a b : Nat) : Nat := a ^^^ b
def iShl (w a b : Nat) : Nat := a * 2 ^ (b % w)
def iShr (w a b : Nat) : Nat := a / 2 ^ (b % w)
def iSar (w a b : Nat) : Nat := intBits w (signedOf w a / 2 ^ (b % w))
def iAdds (w a b : Nat) : Nat := intBits w (clampInt true w (signedOf w a + signedOf w b))
def iSubs (w a b : Nat) : Nat := intBits w (clampInt true w (signedOf w a - signedOf w b))

/-- VABS (05_vector R133). -/
def intAbs (v : VView) (d a m : Nat) : VAct :=
  v.plain d m fun c i =>
    let x := c.elem v a v.w i
    Elem.res ⟨(signedOf v.w x.bits).natAbs % 2 ^ v.w, x.poison⟩

/-- VWADD and VWMUL (05_vector R133, R134): a result of twice the width. -/
def intWide (v : VView) (d a m : Nat) (b : VOpnd) (f : Int → Int → Int) : VAct :=
  .elems (2 * v.w) (.reg d (2 * v.w)) (v.size (2 * 2 ^ v.g) (2 * v.w)) m false fun c i =>
    let x := c.elem v a v.w i
    let y := c.opnd v b v.w i
    Elem.res ⟨intBits (2 * v.w) (f (signedOf v.w x.bits) (signedOf v.w y.bits)), lowerTag x.poison y.poison⟩

/-- VNSHR (05_vector R133, R134): from a source of twice the width. -/
def intNarrow (v : VView) (d a m : Nat) (b : VOpnd) : VAct :=
  .elems (2 * v.w) (.reg d v.w) (v.size (2 ^ v.g) v.w) m false fun c i =>
    let x := c.elem v a (2 * v.w) i
    let y := c.opnd v b v.w i
    Elem.res ⟨intBits v.w (signedOf (2 * v.w) x.bits / 2 ^ (y.bits % (2 * v.w))), lowerTag x.poison y.poison⟩

/-- VDOT4's products (05_vector R133): four signed fields of a quarter of the width. -/
def dot4 (w a b : Nat) : Int :=
  (List.range 4).foldl (fun (s : Int) j =>
    s + signedOf (w / 4) (a / 2 ^ (j * (w / 4))) * signedOf (w / 4) (b / 2 ^ (j * (w / 4)))) 0

/-- VDOT4 (05_vector R133, R134). -/
def intDot (v : VView) (d a m : Nat) (b : VOpnd) : VAct :=
  v.plain d m fun c i =>
    let x := c.elem v a v.w i
    let y := c.opnd v b v.w i
    let z := c.elem v d v.w i
    Elem.res ⟨intBits v.w ((z.bits : Int) + dot4 v.w x.bits y.bits), lowerTag z.poison (lowerTag x.poison y.poison)⟩

/-- A floating-point operation on two operands (05_vector R135): f gives the code and the flags. -/
def flt2 (v : VView) (d a m : Nat) (b : VOpnd) (f : Fmt → Nat → Nat → Nat × FFlags) : VAct :=
  v.plain d m fun c i =>
    let x := c.elem v a v.w i
    let y := c.opnd v b v.w i
    let r := f v.fmt x.bits y.bits
    match lowerTag x.poison y.poison with
    | some t => ⟨⟨0, some t⟩, 0⟩
    | none => ⟨⟨r.1, none⟩, r.2⟩

/-- A floating-point operation on one operand (05_vector R135). -/
def flt1 (v : VView) (d a m : Nat) (f : Fmt → Nat → Nat × FFlags) : VAct :=
  v.plain d m fun c i =>
    let x := c.elem v a v.w i
    match x.poison with
    | some t => ⟨⟨0, some t⟩, 0⟩
    | none => let r := f v.fmt x.bits; ⟨⟨r.1, none⟩, r.2⟩

/-- VFMA and VFNMS (05_vector R135): neg takes the product with the opposite sign. -/
def flt3 (v : VView) (d a m : Nat) (b : VOpnd) (neg : Bool) : VAct :=
  v.plain d m fun c i =>
    let x := c.elem v a v.w i
    let y := c.opnd v b v.w i
    let z := c.elem v d v.w i
    match lowerTag z.poison (lowerTag x.poison y.poison) with
    | some t => ⟨⟨0, some t⟩, 0⟩
    | none =>
      let xa := v.fmt.decode x.bits
      let r := v.fmt.finish v.frm (fFma v.frm (if neg then xa.negate else xa) (v.fmt.decode y.bits) (v.fmt.decode z.bits))
      ⟨⟨r.1, none⟩, r.2⟩

/-- The floating-point operations on encodings (05_vector R135). -/
def fltAdd (mode : RMode) (f : Fmt) (a b : Nat) : Nat × FFlags := f.finish mode (fAdd mode (f.decode a) (f.decode b))
def fltSub (mode : RMode) (f : Fmt) (a b : Nat) : Nat × FFlags := f.finish mode (fAdd mode (f.decode a) (f.decode b).negate)
def fltMul (mode : RMode) (f : Fmt) (a b : Nat) : Nat × FFlags := f.finish mode (fMul (f.decode a) (f.decode b))
def fltDiv (mode : RMode) (f : Fmt) (a b : Nat) : Nat × FFlags := f.finish mode (fDiv (f.decode a) (f.decode b))
def fltSqrt (mode : RMode) (f : Fmt) (a : Nat) : Nat × FFlags := f.finish mode (fSqrt (f.decode a))
def fltRec (mode : RMode) (f : Fmt) (a : Nat) : Nat × FFlags := f.finish mode (fRec (f.decode a))
def fltRsqrt (mode : RMode) (f : Fmt) (a : Nat) : Nat × FFlags := f.finish mode (fRsqrt (f.decode a))
def fltExp2 (mode : RMode) (f : Fmt) (a : Nat) : Nat × FFlags := f.finish mode (fExp2 (f.decode a))

/-- The source format of VFCVT (05_vector R119, R136). -/
def cvtSource (v : VView) : EFmt :=
  match vCvs v.vcfg with
  | 0 => .flt v.fmt
  | 1 => .int true v.w
  | _ => .int false v.w

/-- VFCVT (05_vector R136). -/
def fltCvt (v : VView) (d a t m : Nat) (sat : Bool) : VAct :=
  let dst := cvtFmt t
  let wd := dst.width
  .elems (max v.w wd) (.reg d wd) (v.size (cvtGroup v.vcfg t) wd) m false fun c i =>
    let x := c.elem v a v.w i
    match x.poison with
    | some p => ⟨⟨0, some p⟩, 0⟩
    | none =>
      let src := cvtSource v
      -- a conversion to the same format is Round of the value too: it quiets a signalling NaN (02_numbers R34)
      let r := if src = dst ∧ src.isInt = false then dst.narrow v.frm sat (src.value x.bits 127 false)
        else convertElem src dst v.frm sat x.bits
      ⟨⟨r.1, none⟩, r.2⟩

/-- A compare (05_vector R137): mask bit i tells whether the condition holds. -/
def cmpAct (v : VView) (d a m : Nat) (b : VOpnd) (f : Nat → Nat → Bool × FFlags) : VAct :=
  .elems v.w (.mask d) v.maskSize m false fun c i =>
    let x := c.elem v a v.w i
    let y := c.opnd v b v.w i
    match lowerTag x.poison y.poison with
    | some t => ⟨⟨0, some t⟩, 0⟩
    | none => let r := f x.bits y.bits; ⟨⟨r.1.toNat, none⟩, r.2⟩

/-- The conditions of VCMP by code (05_vector R137). -/
def intCond (w c a b : Nat) : Bool × FFlags :=
  (match c with
    | 0 => a == b
    | 1 => a != b
    | 2 => decide (signedOf w a < signedOf w b)
    | 3 => decide (signedOf w b ≤ signedOf w a)
    | 4 => decide (a < b)
    | _ => decide (b ≤ a), 0)

/-- The conditions of VFCMP by code: .eq, .ne, .lt, .le and .un (05_vector R137; 04_sequencer R93). -/
def fltCond (f : Fmt) (c a b : Nat) : Bool × FFlags :=
  let x := f.decode a
  let y := f.decode b
  match c with
  | 0 => fCondition 0 x y
  | 1 => let r := fCondition 0 x y; (!r.1, r.2)
  | 2 => fCondition 1 x y
  | 3 => fCondition 2 x y
  | _ => fCondition 3 x y

/-- Mask logic (05_vector R138): bits P to VL − 1, then the tail. -/
def maskLogic (v : VView) (d a b : Nat) (f : Nat → Nat → Nat) : VAct :=
  .whole fun c =>
    if v.vl ≤ v.p then (c, 0, none)
    else
      let r := runElems c v (.mask d) 0 false (fun c i =>
        let x := c.maskBit v a i
        let y := c.maskBit v b i
        Elem.res ⟨f x.bits y.bits, lowerTag x.poison y.poison⟩) (v.vl - v.p) v.p c 0
      (r.1.tail v (.mask d) v.maskSize, 0, none)

/-- The active indexes below VL, in order. -/
def Core.actives (c : Core) (v : VView) (m : Nat) : List Nat := (List.range v.vl).filter fun i => c.active v m i

/-- The lowest tag among the mask chunks that govern the elements below n (05_vector R127). -/
def Core.maskPoison (c : Core) (v : VView) (m n : Nat) : Option PTag :=
  if m = 0 then none else (List.range ((n + 63) / 64)).foldl (fun t j => lowerTag t (c.maskBit v m (64 * j)).poison) none

/-- The poisoned chunks of a mask that govern elements below VL, each as the lowest index that it governs and its tag (05_vector R459). -/
def Core.maskBreaks (c : Core) (v : VView) (m : Nat) : List (Nat × PTag) :=
  if m = 0 then []
  else (List.range ((v.vl + 63) / 64)).filterMap fun j => (c.maskBit v m (64 * j)).poison.map fun t => (64 * j, t)

/-- The lowest tag that poisoned chunks with their bounds give the destination element i (05_vector R459). -/
def breakAt (l : List (Nat × PTag)) (i : Nat) : Option PTag := l.foldl (fun t b => if b.1 ≤ i then lowerTag t (some b.2) else t) none

/-- The lowest tag among the chunks of mask a that a search over the active indexes reads (05_vector R139). -/
def searchPoison (c : Core) (v : VView) (a m : Nat) : Option PTag :=
  (c.actives v m).foldl (fun t i => lowerTag t (c.maskBit v a i).poison) (c.maskPoison v m v.vl)

/-- MPOPC (05_vector R139). -/
def maskCount (v : VView) (a m : Nat) : VAct :=
  .whole fun c =>
    (c, 0, some (BitVec.ofNat 64 ((c.actives v m).filter fun i => (c.maskBit v a i).bits == 1).length, searchPoison c v a m))

/-- The lowest active set bit (05_vector R139). -/
def firstSet (c : Core) (v : VView) (a m : Nat) : Option Nat := (c.actives v m).find? fun i => (c.maskBit v a i).bits == 1

/-- MFFS (05_vector R139). -/
def maskFirst (v : VView) (a m : Nat) : VAct :=
  .whole fun c =>
    (c, 0, some (match firstSet c v a m with | some i => BitVec.ofNat 64 i | none => -1, searchPoison c v a m))

/-- MSBF (05_vector R139). R139 states poison for the scalar of a search only; here every bit that MSBF writes takes the lowest tag of the chunks of va that
its search reads and of the mask's chunks below VL (DESIGN CHOICE, log 91). -/
def maskBefore (v : VView) (d a m : Nat) : VAct :=
  .whole fun c =>
    if v.vl ≤ v.p then (c, 0, none)
    else
      let f := (firstSet c v a m).getD v.vl
      let p := searchPoison c v a m
      let r := runElems c v (.mask d) m false (fun _ i => Elem.res ⟨(decide (i < f)).toNat, p⟩) (v.vl - v.p) v.p c 0
      (r.1.tail v (.mask d) v.maskSize, 0, none)

/-- MFROMV (05_vector R139). -/
def maskFrom (v : VView) (d a m : Nat) : VAct :=
  .elems v.w (.mask d) v.maskSize m false fun c i =>
    let x := c.elem v a v.w i
    Elem.res ⟨(x.bits != 0).toNat, x.poison⟩

/-- MTOV (05_vector R139). -/
def maskTo (v : VView) (d a m : Nat) : VAct := v.plain d m fun c i => Elem.res (c.maskBit v a i)

/-- A cross-element instruction (05_vector R130, R140, R459): for each index from lo to VL − 1, f gives the element to write, with
none where it stays. Sources are read before any write. brk holds the bounds from which poisoned mask chunks poison every element, with tags that
combine with the poison of the element's own data. -/
def crossRun (c0 : Core) (v : VView) (d : VDst) (brk : List (Nat × PTag)) (f : Nat → Option Elem) : Nat → Nat → Core → Core
  | 0, _, c => c
  | n + 1, i, c =>
    let e := match breakAt brk i with
      | some t => some ⟨0, lowerTag (some t) ((f i).bind Elem.poison)⟩
      | none => f i
    crossRun c0 v d brk f n (i + 1) (match e with | some x => c.putDst v d i x | none => c)

/-- A cross-element instruction into the plain group at d, from index lo. -/
def cross (v : VView) (d lo : Nat) (brk : Core → List (Nat × PTag)) (f : Core → Nat → Option Elem) : VAct :=
  .whole fun c =>
    if v.vl ≤ lo then (c, 0, none)
    else
      let c1 := crossRun c v (.reg d v.w) (brk c) (f c) (v.vl - lo) lo c
      (c1.tail v (.reg d v.w) (v.size (2 ^ v.g) v.w), 0, none)

/-- The element of an inactive position under MP (05_vector R126). -/
def VView.inactive (v : VView) : Option Elem := if v.mp then some ⟨0, none⟩ else none

/-- An element of a position that a mask governs: poisoned when the chunk is, with the mask's tag and that of a selecting operand; else the inactive
element, or the given one (05_vector R126, R127, R459). -/
def governed (c : Core) (v : VView) (m i : Nat) (sel : Option PTag) (e : Option Elem) : Option Elem :=
  if m = 0 then e
  else
    let mb := c.maskBit v m i
    match mb.poison with
    | some t => some ⟨0, lowerTag (some t) sel⟩
    | none => if mb.bits = 1 then e else v.inactive

/-- VIOTA (05_vector R139, R459): a poisoned chunk of va poisons the elements after the first bit it counts. -/
def iotaAct (v : VView) (d a m : Nat) : VAct :=
  cross v d v.p (fun c => c.maskBreaks v m) fun c i =>
    if c.active v m i then
      let js := (List.range i).filter fun j => c.active v m j
      some ⟨(js.filter fun j => (c.maskBit v a j).bits == 1).length % 2 ^ v.w,
        js.foldl (fun t j => lowerTag t (c.maskBit v a j).poison) none⟩
    else v.inactive

/-- VSLUP (05_vector R140, R459) (DEDUCED, log 64). -/
def slideUp (v : VView) (d a m : Nat) (s : Word) (sp : Option PTag) : VAct :=
  cross v d 0 (fun _ => []) fun c i =>
    governed c v m i sp (match sp with
      | some t => some ⟨0, some t⟩
      | none => if s.toNat ≤ i then some (c.elem v a v.w (i - s.toNat)) else none)

/-- VSLDN (05_vector R140, R459). -/
def slideDown (v : VView) (d a m : Nat) (s : Word) (sp : Option PTag) : VAct :=
  cross v d 0 (fun _ => []) fun c i =>
    governed c v m i sp (match sp with
      | some t => some ⟨0, some t⟩
      | none => if i + s.toNat < v.vl then some (c.elem v a v.w (i + s.toNat)) else some ⟨0, none⟩)

/-- VPERM (05_vector R140, R459). -/
def permute (v : VView) (d a b m : Nat) : VAct :=
  cross v d v.p (fun _ => []) fun c i =>
    let x := c.elem v b v.w i
    governed c v m i x.poison (match x.poison with
      | some t => some ⟨0, some t⟩
      | none => if x.bits < v.vl then some (c.elem v a v.w x.bits) else some ⟨0, none⟩)

/-- VMERGE (05_vector R140). -/
def mergeAct (v : VView) (d a b m : Nat) : VAct :=
  .elems v.w (.reg d v.w) (v.size (2 ^ v.g) v.w) m true fun c i =>
    Elem.res (if c.active v m i then c.elem v a v.w i else c.elem v b v.w i)

/-- VBCAST (05_vector R140). -/
def bcastAct (v : VView) (d m : Nat) (s : Word) (sp : Option PTag) : VAct :=
  v.plain d m fun _ _ => Elem.res ⟨s.toNat % 2 ^ v.w, sp⟩

/-- VCOMP (05_vector R140, R459): the active elements fill vd from 0; the rest up to VL − 1 follows TP. -/
def compAct (v : VView) (d a m : Nat) : VAct :=
  .whole fun c =>
    if v.vl = 0 then (c, 0, none)
    else
      let act := c.actives v m
      let brk := (c.maskBreaks v m).map fun b => ((act.filter fun i => decide (i < b.1)).length, b.2)
      let c1 := crossRun c v (.reg d v.w) brk (fun k => match act[k]? with
        | some i => some (c.elem v a v.w i)
        | none => if v.tp then some ⟨0, none⟩ else none) v.vl 0 c
      (c1.tail v (.reg d v.w) (v.size (2 ^ v.g) v.w), 0, none)

/-- VEXPD (05_vector R140, R459). -/
def expandAct (v : VView) (d a m : Nat) : VAct :=
  cross v d 0 (fun c => c.maskBreaks v m) fun c i =>
    if c.active v m i then some (c.elem v a v.w ((List.range i).filter fun j => c.active v m j).length) else v.inactive

/-- VEXTR (05_vector R140, R459); with P at or above VL it writes nothing (R120). -/
def extractAct (v : VView) (a : Nat) (s : Word) (sp : Option PTag) : VAct :=
  .whole fun c =>
    if v.vl ≤ v.p then (c, 0, none)
    else
      (c, 0, some (match sp with
        | some t => (0, some t)
        | none =>
          if s.toNat < v.vl then
            let x := c.elem v a v.w s.toNat
            (BitVec.ofNat 64 x.bits, x.poison)
          else (0, none)))

/-- VINS (05_vector R140, R459). A poisoned sb leaves the element it selects unknown: every element below VL
is poisoned. -/
def insertAct (v : VView) (d : Nat) (a : Word) (ap : Option PTag) (s : Word) (sp : Option PTag) : VAct :=
  .whole fun c =>
    match sp with
    | some t =>
      if v.vl ≤ v.p then (c, 0, none) else (crossRun c v (.reg d v.w) [] (fun _ => some ⟨0, lowerTag (some t) ap⟩) v.vl 0 c, 0, none)
    | none =>
      if v.p ≤ s.toNat ∧ s.toNat < v.vl then (c.putElem v d v.w s.toNat ⟨a.toNat % 2 ^ v.w, ap⟩, 0, none) else (c, 0, none)

/-- A reduction (05_vector R141): f combines the initial value with the active elements, and gives flags. A poisoned item is none, as is one whose
mask chunk is poisoned. -/
def reduceAct (v : VView) (d a b m : Nat) (f : Option Nat → List (Nat × Option Nat) → Option Nat × FFlags) : VAct :=
  .whole fun c =>
    if v.vl = 0 then (c, 0, none)
    else
      let act := c.actives v m
      let s := c.elem v b v.w 0
      let p := act.foldl (fun t i => lowerTag t (c.elem v a v.w i).poison) (lowerTag s.poison (c.maskPoison v m v.vl))
      let item := fun (e : Elem) (q : Option PTag) => if e.poison.isNone && q.isNone then some e.bits else none
      let r := f (item s none) (act.map fun i => (i, item (c.elem v a v.w i) (if m = 0 then none else (c.maskBit v m i).poison)))
      let c1 := c.putElem v d v.w 0 ⟨if p.isSome then 0 else r.1.getD 0, p⟩
      (if v.tp then c1.zeroFrom v (.reg d v.w) 1 (v.size (2 ^ v.g) v.w - 1) else c1, r.2, none)

/-- An operation on two items of a reduction (02_numbers R33): of a poisoned item and an unpoisoned one nothing but the flag of a signalling NaN
is left, and the result is poisoned (DEDUCED, log 90). -/
def reduceItem (nv : Nat → FFlags) (f : Nat → Nat → Nat × FFlags) : Option Nat → Option Nat → Option Nat × FFlags
  | some x, some y => let r := f x y; (some r.1, r.2)
  | some x, none => (none, nv x)
  | none, some y => (none, nv y)
  | none, none => (none, 0)

/-- An integer reduction (05_vector R141). -/
def reduceInt (f : Nat → Nat → Nat) (s : Option Nat) (xs : List (Nat × Option Nat)) : Option Nat × FFlags :=
  (xs.foldl (fun a x => (reduceItem (fun _ => 0) (fun i j => (f i j, 0)) a x.2).1) s, 0)

/-- VFREDO: in ascending order (02_numbers R55). -/
def reduceOrdered (t : Fmt) (f : Nat → Nat → Nat × FFlags) (s : Option Nat) (xs : List (Nat × Option Nat)) : Option Nat × FFlags :=
  xs.foldl (fun a x => let r := reduceItem (fun n => (t.decode n).nv) f a.1 x.2; (r.1, a.2 ||| r.2)) (s, 0)

/-- One level of VFREDU's tree (02_numbers R55): positions 2j and 2j + 1 are combined; an absent position has no entry. -/
def treeLevel (f : Option Nat → Option Nat → Option Nat × FFlags) : List (Nat × Option Nat) → List (Nat × Option Nat) × FFlags
  | (i, x) :: (j, y) :: rest =>
    if i / 2 = j / 2 then
      let r := f x y
      let t := treeLevel f rest
      ((i / 2, r.1) :: t.1, r.2 ||| t.2)
    else
      let t := treeLevel f ((j, y) :: rest)
      ((i / 2, x) :: t.1, t.2)
  | (i, x) :: [] => ([(i / 2, x)], 0)
  | [] => ([], 0)

/-- n levels of VFREDU's tree. -/
def treeLevels (f : Option Nat → Option Nat → Option Nat × FFlags) : Nat → List (Nat × Option Nat) → List (Nat × Option Nat) × FFlags
  | 0, xs => (xs, 0)
  | n + 1, xs =>
    let r := treeLevel f xs
    let t := treeLevels f n r.1
    (t.1, r.2 ||| t.2)

/-- VFREDU: by a tree (02_numbers R55); VL is at most 2^13. -/
def reduceTree (t : Fmt) (f : Nat → Nat → Nat × FFlags) (s : Option Nat) (xs : List (Nat × Option Nat)) : Option Nat × FFlags :=
  let g := reduceItem (fun n => (t.decode n).nv) f
  let u := treeLevels g 13 xs
  match u.1 with
  | (_, x) :: _ => let r := g s x; (r.1, r.2 ||| u.2)
  | [] => (s, 0)

/-- VSCAN (05_vector R142, R459). -/
def scanAct (v : VView) (d a m : Nat) : VAct :=
  .whole fun c =>
    if v.vl = 0 then (c, 0, none)
    else
      let brk := c.maskBreaks v m
      let r := (List.range v.vl).foldl (fun (st : Core × Nat × Option PTag) i =>
        let e : Option Elem × Nat × Option PTag :=
          if c.active v m i then
            let x := c.elem v a v.w i
            let s := (st.2.1 + x.bits) % 2 ^ v.w
            let p := lowerTag st.2.2 x.poison
            (some ⟨s, p⟩, s, p)
          else (v.inactive, st.2.1, st.2.2)
        let w := match breakAt brk i with
          | some t => some (⟨0, lowerTag (some t) (e.1.bind Elem.poison)⟩ : Elem)
          | none => e.1
        ((match w with | some y => st.1.putElem v d v.w i y | none => st.1), e.2.1, e.2.2)) (c, 0, none)
      (r.1.tail v (.reg d v.w) (v.size (2 ^ v.g) v.w), 0, none)

/-- Insert an index into a list ordered by magnitude, larger first, then by index (05_vector R143). -/
def insertMag (x : Nat → Int) (j : Nat) : List Nat → List Nat
  | [] => [j]
  | k :: ks => if (x k).natAbs < (x j).natAbs then j :: k :: ks else k :: insertMag x j ks

/-- The four kept indexes of a group of eight, ascending (05_vector R143). -/
def keptFour (x : Nat → Int) : List Nat :=
  let ks := ((List.range 8).foldl (fun acc j => insertMag x j acc) []).take 4
  (List.range 8).filter fun j => ks.contains j

/-- VPRUNE48 (05_vector R143). -/
def pruneAct (v : VView) (d a : Nat) : VAct :=
  .whole fun c =>
    if v.vl = 0 then (c, 0, none)
    else
      let ngr := (v.vl + 7) / 8
      let c1 := (List.range ngr).foldl (fun (st : Core) g =>
        let at_ := fun j => if 8 * g + j < v.vl then c.elem v a 8 (8 * g + j) else (⟨0, none⟩ : Elem)
        let p := (List.range 8).foldl (fun t j => lowerTag t (at_ j).poison) none
        let ks := keptFour fun j => signedOf 8 (at_ j).bits
        let st1 := (List.range 4).foldl (fun (s2 : Core) t => s2.putElem v d 8 (4 * g + t) ⟨(at_ (ks.getD t 0)).bits, p⟩) st
        let md := ks.getD 0 0 + ks.getD 1 0 * 8 + ks.getD 2 0 * 64 + ks.getD 3 0 * 512
        st1.putElem v (d + 2 ^ v.g) 16 g ⟨md, p⟩) c
      if v.tp then
        let c2 := c1.zeroFrom v (.reg d 8) (4 * ngr) (v.size (2 ^ v.g) 8 - 4 * ngr)
        (c2.zeroFrom v (.reg (d + 2 ^ v.g) 16) ngr (v.size (2 ^ v.g) 16 - ngr), 0, none)
      else (c1, 0, none)

/-- What an instruction of majors 0x20 to 0x24 does (05_vector R133 to R143), with its captured scalar operands. -/
def arithAct (v : VView) (o0 : Word) (p0 : Option PTag) (o1 : Word) (p1 : Option PTag) : VArith → VAct
  | .vadd d a b m => int2 v d.toNat a.toNat m.toNat (.reg b.toNat) iAdd
  | .vsub d a b m => int2 v d.toNat a.toNat m.toNat (.reg b.toNat) iSub
  | .vmul d a b m => int2 v d.toNat a.toNat m.toNat (.reg b.toNat) iMul
  | .vmulh d a b m => int2 v d.toNat a.toNat m.toNat (.reg b.toNat) iMulh
  | .vmulhz d a b m => int2 v d.toNat a.toNat m.toNat (.reg b.toNat) iMulhz
  | .vdiv d a b m => int2 v d.toNat a.toNat m.toNat (.reg b.toNat) iDiv
  | .vmin d a b m => int2 v d.toNat a.toNat m.toNat (.reg b.toNat) iMin
  | .vmax d a b m => int2 v d.toNat a.toNat m.toNat (.reg b.toNat) iMax
  | .vminz d a b m => int2 v d.toNat a.toNat m.toNat (.reg b.toNat) iMinz
  | .vmaxz d a b m => int2 v d.toNat a.toNat m.toNat (.reg b.toNat) iMaxz
  | .vand d a b m => int2 v d.toNat a.toNat m.toNat (.reg b.toNat) iAnd
  | .vor d a b m => int2 v d.toNat a.toNat m.toNat (.reg b.toNat) iOr
  | .vxor d a b m => int2 v d.toNat a.toNat m.toNat (.reg b.toNat) iXor
  | .vshl d a b m => int2 v d.toNat a.toNat m.toNat (.reg b.toNat) iShl
  | .vshr d a b m => int2 v d.toNat a.toNat m.toNat (.reg b.toNat) iShr
  | .vsar d a b m => int2 v d.toNat a.toNat m.toNat (.reg b.toNat) iSar
  | .vadds d a b m => int2 v d.toNat a.toNat m.toNat (.reg b.toNat) iAdds
  | .vsubs d a b m => int2 v d.toNat a.toNat m.toNat (.reg b.toNat) iSubs
  | .vabs d a m => intAbs v d.toNat a.toNat m.toNat
  | .vwadd d a b m => intWide v d.toNat a.toNat m.toNat (.reg b.toNat) fun x y => x + y
  | .vwmul d a b m => intWide v d.toNat a.toNat m.toNat (.reg b.toNat) fun x y => x * y
  | .vnshr d a b m => intNarrow v d.toNat a.toNat m.toNat (.reg b.toNat)
  | .vdot4 d a b m => intDot v d.toNat a.toNat m.toNat (.reg b.toNat)
  | .vaddVs d a _ m => int2 v d.toNat a.toNat m.toNat (.scalar o0 p0) iAdd
  | .vsubVs d a _ m => int2 v d.toNat a.toNat m.toNat (.scalar o0 p0) iSub
  | .vmulVs d a _ m => int2 v d.toNat a.toNat m.toNat (.scalar o0 p0) iMul
  | .vmulhVs d a _ m => int2 v d.toNat a.toNat m.toNat (.scalar o0 p0) iMulh
  | .vmulhzVs d a _ m => int2 v d.toNat a.toNat m.toNat (.scalar o0 p0) iMulhz
  | .vdivVs d a _ m => int2 v d.toNat a.toNat m.toNat (.scalar o0 p0) iDiv
  | .vminVs d a _ m => int2 v d.toNat a.toNat m.toNat (.scalar o0 p0) iMin
  | .vmaxVs d a _ m => int2 v d.toNat a.toNat m.toNat (.scalar o0 p0) iMax
  | .vminzVs d a _ m => int2 v d.toNat a.toNat m.toNat (.scalar o0 p0) iMinz
  | .vmaxzVs d a _ m => int2 v d.toNat a.toNat m.toNat (.scalar o0 p0) iMaxz
  | .vandVs d a _ m => int2 v d.toNat a.toNat m.toNat (.scalar o0 p0) iAnd
  | .vorVs d a _ m => int2 v d.toNat a.toNat m.toNat (.scalar o0 p0) iOr
  | .vxorVs d a _ m => int2 v d.toNat a.toNat m.toNat (.scalar o0 p0) iXor
  | .vshlVs d a _ m => int2 v d.toNat a.toNat m.toNat (.scalar o0 p0) iShl
  | .vshrVs d a _ m => int2 v d.toNat a.toNat m.toNat (.scalar o0 p0) iShr
  | .vsarVs d a _ m => int2 v d.toNat a.toNat m.toNat (.scalar o0 p0) iSar
  | .vaddsVs d a _ m => int2 v d.toNat a.toNat m.toNat (.scalar o0 p0) iAdds
  | .vsubsVs d a _ m => int2 v d.toNat a.toNat m.toNat (.scalar o0 p0) iSubs
  | .vwaddVs d a _ m => intWide v d.toNat a.toNat m.toNat (.scalar o0 p0) fun x y => x + y
  | .vwmulVs d a _ m => intWide v d.toNat a.toNat m.toNat (.scalar o0 p0) fun x y => x * y
  | .vnshrVs d a _ m => intNarrow v d.toNat a.toNat m.toNat (.scalar o0 p0)
  | .vdot4Vs d a _ m => intDot v d.toNat a.toNat m.toNat (.scalar o0 p0)
  | .vfadd d a b m => flt2 v d.toNat a.toNat m.toNat (.reg b.toNat) (fltAdd v.frm)
  | .vfsub d a b m => flt2 v d.toNat a.toNat m.toNat (.reg b.toNat) (fltSub v.frm)
  | .vfmul d a b m => flt2 v d.toNat a.toNat m.toNat (.reg b.toNat) (fltMul v.frm)
  | .vfdiv d a b m => flt2 v d.toNat a.toNat m.toNat (.reg b.toNat) (fltDiv v.frm)
  | .vfsqrt d a m => flt1 v d.toNat a.toNat m.toNat (fltSqrt v.frm)
  | .vfma d a b m => flt3 v d.toNat a.toNat m.toNat (.reg b.toNat) false
  | .vfnms d a b m => flt3 v d.toNat a.toNat m.toNat (.reg b.toNat) true
  | .vfmin d a b m => flt2 v d.toNat a.toNat m.toNat (.reg b.toNat) fun f => fMinMax f false
  | .vfmax d a b m => flt2 v d.toNat a.toNat m.toNat (.reg b.toNat) fun f => fMinMax f true
  | .vfcvt d a t m => fltCvt v d.toNat a.toNat t.toNat m.toNat false
  | .vfcvtSat d a t m => fltCvt v d.toNat a.toNat t.toNat m.toNat true
  | .vfrec d a m => flt1 v d.toNat a.toNat m.toNat (fltRec v.frm)
  | .vfrsq d a m => flt1 v d.toNat a.toNat m.toNat (fltRsqrt v.frm)
  | .vfexp2 d a m => flt1 v d.toNat a.toNat m.toNat (fltExp2 v.frm)
  | .vfclass d a m => flt1 v d.toNat a.toNat m.toNat fun f x => (fClass f x, 0)
  | .vfaddVs d a _ m => flt2 v d.toNat a.toNat m.toNat (.scalar o0 p0) (fltAdd v.frm)
  | .vfsubVs d a _ m => flt2 v d.toNat a.toNat m.toNat (.scalar o0 p0) (fltSub v.frm)
  | .vfmulVs d a _ m => flt2 v d.toNat a.toNat m.toNat (.scalar o0 p0) (fltMul v.frm)
  | .vfdivVs d a _ m => flt2 v d.toNat a.toNat m.toNat (.scalar o0 p0) (fltDiv v.frm)
  | .vfmaVs d a _ m => flt3 v d.toNat a.toNat m.toNat (.scalar o0 p0) false
  | .vfnmsVs d a _ m => flt3 v d.toNat a.toNat m.toNat (.scalar o0 p0) true
  | .vfminVs d a _ m => flt2 v d.toNat a.toNat m.toNat (.scalar o0 p0) fun f => fMinMax f false
  | .vfmaxVs d a _ m => flt2 v d.toNat a.toNat m.toNat (.scalar o0 p0) fun f => fMinMax f true
  | .mand d a b => maskLogic v d.toNat a.toNat b.toNat fun x y => x &&& y
  | .mor d a b => maskLogic v d.toNat a.toNat b.toNat fun x y => x ||| y
  | .mxor d a b => maskLogic v d.toNat a.toNat b.toNat fun x y => x ^^^ y
  | .mandn d a b => maskLogic v d.toNat a.toNat b.toNat fun x y => x * (1 - y)
  | .mpopc _ a m => maskCount v a.toNat m.toNat
  | .mffs _ a m => maskFirst v a.toNat m.toNat
  | .msbf d a m => maskBefore v d.toNat a.toNat m.toNat
  | .mset d => maskLogic v d.toNat 0 0 fun _ _ => 1
  | .mfromv d a m => maskFrom v d.toNat a.toNat m.toNat
  | .mtov d a m => maskTo v d.toNat a.toNat m.toNat
  | .viota d a m => iotaAct v d.toNat a.toNat m.toNat
  | .vslup d a _ m => slideUp v d.toNat a.toNat m.toNat o0 p0
  | .vsldn d a _ m => slideDown v d.toNat a.toNat m.toNat o0 p0
  | .vperm d a b m => permute v d.toNat a.toNat b.toNat m.toNat
  | .vcomp d a m => compAct v d.toNat a.toNat m.toNat
  | .vexpd d a m => expandAct v d.toNat a.toNat m.toNat
  | .vmerge d a b m => mergeAct v d.toNat a.toNat b.toNat m.toNat
  | .vbcast d _ m => bcastAct v d.toNat m.toNat o0 p0
  | .vextr _ a _ => extractAct v a.toNat o0 p0
  | .vins d _ _ => insertAct v d.toNat o0 p0 o1 p1
  | .vredsum d a b m => reduceAct v d.toNat a.toNat b.toNat m.toNat (reduceInt fun x y => (x + y) % 2 ^ v.w)
  | .vredmax d a b m => reduceAct v d.toNat a.toNat b.toNat m.toNat (reduceInt (iMax v.w))
  | .vredmin d a b m => reduceAct v d.toNat a.toNat b.toNat m.toNat (reduceInt (iMin v.w))
  | .vfredo d a b m => reduceAct v d.toNat a.toNat b.toNat m.toNat (reduceOrdered v.fmt (fltAdd v.frm v.fmt))
  | .vfredu d a b m => reduceAct v d.toNat a.toNat b.toNat m.toNat (reduceTree v.fmt (fltAdd v.frm v.fmt))
  | .vfredmax d a b m => reduceAct v d.toNat a.toNat b.toNat m.toNat (reduceOrdered v.fmt (fMinMax v.fmt true))
  | .vscan d a m => scanAct v d.toNat a.toNat m.toNat
  | .vprune48 d a => pruneAct v d.toNat a.toNat

/-- What a compare of major 0x26 does (05_vector R137); none for another instruction. -/
def cmpActOf (v : VView) (o0 : Word) (p0 : Option PTag) : Instr → Option VAct
  | .vcmp d a b m c => some (cmpAct v d.toNat a.toNat m.toNat (.reg b.toNat) (intCond v.w c.toNat))
  | .vcmpVs d a _ m c => some (cmpAct v d.toNat a.toNat m.toNat (.scalar o0 p0) (intCond v.w c.toNat))
  | .vfcmp d a b m c => some (cmpAct v d.toNat a.toNat m.toNat (.reg b.toNat) (fltCond v.fmt c.toNat))
  | .vfcmpVs d a _ m c => some (cmpAct v d.toNat a.toNat m.toNat (.scalar o0 p0) (fltCond v.fmt c.toNat))
  | _ => none

end Sys2Proof.Machine
end

