-- ==== Sys2Proof/Machine/VecQueue.lean ====
section
/-! DEFINITION. Passing an instruction to the vector queue (03_encoding R62; 04_sequencer R81, R82; 05_vector R120, R125), the
meanings of the instructions of majors 0x20 to 0x24, 0x26 and 0x28 to 0x2B at the scalar side, and the instructions of major 0x25
that set the vector length (R131, R132). -/

namespace Sys2Proof.Machine

/-- Go on unless the slot is laneless (03_encoding R62, third check). -/
def whenLanes (s : State) (q : Nat) (w : Option Nat) (k : State) : State :=
  if (s.slot q).laneCount = 0 then trapWord s q 0x06 w else k

/-- Go on unless the slot's vector state belongs to another context (10_context R269; 03_encoding R62, fourth check). -/
def whenOwner (s : State) (q : Nat) (w : Option Nat) (k : State) : State :=
  let x := s.slot q
  if x.mode = .context ∧ x.vuse = true ∧ x.vowner ≠ x.csaBase then trapWord s q 0x03 w else k

/-- Go on unless the vector queue is full (04_sequencer R82). -/
def whenQueueRoom (s : State) (q : Nat) (k : State) : State :=
  if 32 ≤ (s.slot q).vq.length then s.stallSlot q .vectorQueueFull else k

/-- Go on unless a counter of the word would pass 255 (04_sequencer R108). -/
def whenCounts (s : State) (q word : Nat) (k : State) : State :=
  let n := queueCounts word
  let c := (s.slot q).cnt
  if c.loads + n.1 ≤ 255 ∧ c.stores + n.2.1 ≤ 255 ∧ c.tiles + n.2.2 ≤ 255 then k else s.stallSlot q .counterFull

/-- The state with an entry in the vector queue of slot q: it takes its P from VSTART (05_vector R120), captures VL, VCFG and its
scalar operands (04_sequencer R82), and is counted (R108, R109). -/
def enqueueV (s : State) (q word : Nat) (kind : VKind) (o0 o1 : Word) (p0 p1 : Option PTag) : State :=
  let x := s.slot q
  let n := queueCounts word
  let e : VEntry :=
    { pc := x.pc, word := word, p := x.vstart, vl := x.vl, vcfg := x.vcfg, kind := kind, op0 := o0, op1 := o1, poison0 := p0,
      poison1 := p1, probed := none, joined := none, restored := false, ord := s.nextOp, began := x.vstart }
  bumpOp <| s.setSlot q
    { x with
      vq := x.vq ++ [e], vstart := 0, charge := beginCharge s q
      cnt := { x.cnt with loads := x.cnt.loads + n.1, stores := x.cnt.stores + n.2.1, tiles := x.cnt.tiles + n.2.2 } }

/-- The scalar registers that a vector word names as sources, higher field first (04_sequencer R82): its scalar fields but for the
destination field of MPOPC, MFFS, VEXTR, KST and KSIG. -/
def wordScalars (r : Row) : List Nat :=
  let fields := match r with | .arith c => regFieldsArith c | .instr i => regFieldsInstr i
  (fields.filter fun f => f.kind == .scalar && f.lo != 21).map fun f => encodeRow r / 2 ^ f.lo % 2 ^ f.width

/-- Whether a port's format suits a register group that an instruction reads in a kind (08_stream R206; 06_vector_access R161). -/
def portSuits (c : BitVec 14) (spec : List Word) (k : ReadKind) : Bool :=
  let code := wbits (wordAt spec 0) 12 8
  if code < 0xA then hasFloat c && k != .int
  else if code < 0xC then decide (8 ≤ vWidth c) && k != .float
  else
    match streamFmt code with
    | some (.flt f) =>
      (match k with
      | .float => hasFloat c && f == (floatType c).getD fmtF64
      | .int => false
      | .either => (EFmt.flt f).width == vWidth c)
    | some (.int _ n) => n == vWidth c && k != .float
    | _ => false

/-- The ports of a slot whose bound group an operand group shares a register with (08_stream R204, R205). -/
def portsAt (s : State) (q : Nat) (g : VGrp) : List Nat :=
  (portsOf s q).filter fun p =>
    let x := (s.core (coreOf q)).port p
    x.isBound && g.overlaps ⟨x.bindReg, 2 ^ x.bindG, 0⟩

/-- Whether an instruction breaks a rule of bound groups (08_stream R205, R206): it writes one, or reads one in a kind or at a
width that the port's format does not suit (DEDUCED, log 69). -/
def boundBreach (s : State) (q : Nat) (c : BitVec 14) (h : Shape) : Bool :=
  (h.dsts.any fun g => !(portsAt s q g).isEmpty) ||
  h.srcs.any fun x => (portsAt s q x.1).any fun p => !portSuits c ((s.core (coreOf q)).port p).spec x.2

/-- Pass a vector instruction to the vector queue (03_encoding R62; 04_sequencer R81, R82; 05_vector R125): the laneless and
first-use checks, the stalls, the operand rules, the bound groups; then the entry, its captured scalars o0 and o1, and the pending
mark of its scalar destination (DEDUCED, log 43). -/
def passVector (s : State) (r : Row) (ops : List Nat) : State :=
  let q := s.cur
  let x := s.slot q
  let word := encodeRow r
  let dest := (queueDest word).toList
  let o0 := ops.getD 0 0
  let o1 := ops.getD 1 0
  whenLanes s q word <| whenOwner s q word <| whenReady s q (ops ++ dest) <| whenVl s q <| whenQueueRoom s q <|
    whenCounts s q word <|
      match rowShape x.vcfg x.vl x.vstart r with
      | none => trapWord s q 0x01 word
      | some h =>
        if h.check = false then trapWord s q 0x01 word
        else if boundBreach s q x.vcfg h then trapWord s q 0x10 word
        else
          let s1 := enqueueV s q word .instr (x.val o0) (x.val o1) (x.poisonOf o0) (x.poisonOf o1)
          let y := dest.foldl (fun (z : Slot) d => z.markPending d .queue) (s1.slot q)
          s1.setSlot q y.complete

/-- The meaning of an instruction of majors 0x20 to 0x24 at the scalar side (04_sequencer R82). -/
def enqueueArith (c : VArith) (s : State) : State := passVector s (.arith c) (wordScalars (.arith c))

/-- The meaning of another instruction of the vector queue at the scalar side (04_sequencer R82). -/
def enqueueOther (i : Instr) (s : State) : State := passVector s (.instr i) (wordScalars (.instr i))

/-- VADD (05_vector R133), passed to the vector queue. -/
def execVadd (d a b : BitVec 5) (m : BitVec 3) (s : State) : Host.Outcome State Fault Refusal := next (enqueueArith (.vadd d a b m) s)

/-- VSUB (05_vector R133), passed to the vector queue. -/
def execVsub (d a b : BitVec 5) (m : BitVec 3) (s : State) : Host.Outcome State Fault Refusal := next (enqueueArith (.vsub d a b m) s)

/-- VMUL (05_vector R133), passed to the vector queue. -/
def execVmul (d a b : BitVec 5) (m : BitVec 3) (s : State) : Host.Outcome State Fault Refusal := next (enqueueArith (.vmul d a b m) s)

/-- VMULH (05_vector R133), passed to the vector queue. -/
def execVmulh (d a b : BitVec 5) (m : BitVec 3) (s : State) : Host.Outcome State Fault Refusal := next (enqueueArith (.vmulh d a b m) s)

/-- VMULHZ (05_vector R133), passed to the vector queue. -/
def execVmulhz (d a b : BitVec 5) (m : BitVec 3) (s : State) : Host.Outcome State Fault Refusal := next (enqueueArith (.vmulhz d a b m) s)

/-- VDIV (05_vector R133), passed to the vector queue. -/
def execVdiv (d a b : BitVec 5) (m : BitVec 3) (s : State) : Host.Outcome State Fault Refusal := next (enqueueArith (.vdiv d a b m) s)

/-- VMIN (05_vector R133), passed to the vector queue. -/
def execVmin (d a b : BitVec 5) (m : BitVec 3) (s : State) : Host.Outcome State Fault Refusal := next (enqueueArith (.vmin d a b m) s)

/-- VMAX (05_vector R133), passed to the vector queue. -/
def execVmax (d a b : BitVec 5) (m : BitVec 3) (s : State) : Host.Outcome State Fault Refusal := next (enqueueArith (.vmax d a b m) s)

/-- VMINZ (05_vector R133), passed to the vector queue. -/
def execVminz (d a b : BitVec 5) (m : BitVec 3) (s : State) : Host.Outcome State Fault Refusal := next (enqueueArith (.vminz d a b m) s)

/-- VMAXZ (05_vector R133), passed to the vector queue. -/
def execVmaxz (d a b : BitVec 5) (m : BitVec 3) (s : State) : Host.Outcome State Fault Refusal := next (enqueueArith (.vmaxz d a b m) s)

/-- VAND (05_vector R133), passed to the vector queue. -/
def execVand (d a b : BitVec 5) (m : BitVec 3) (s : State) : Host.Outcome State Fault Refusal := next (enqueueArith (.vand d a b m) s)

/-- VOR (05_vector R133), passed to the vector queue. -/
def execVor (d a b : BitVec 5) (m : BitVec 3) (s : State) : Host.Outcome State Fault Refusal := next (enqueueArith (.vor d a b m) s)

/-- VXOR (05_vector R133), passed to the vector queue. -/
def execVxor (d a b : BitVec 5) (m : BitVec 3) (s : State) : Host.Outcome State Fault Refusal := next (enqueueArith (.vxor d a b m) s)

/-- VSHL (05_vector R133), passed to the vector queue. -/
def execVshl (d a b : BitVec 5) (m : BitVec 3) (s : State) : Host.Outcome State Fault Refusal := next (enqueueArith (.vshl d a b m) s)

/-- VSHR (05_vector R133), passed to the vector queue. -/
def execVshr (d a b : BitVec 5) (m : BitVec 3) (s : State) : Host.Outcome State Fault Refusal := next (enqueueArith (.vshr d a b m) s)

/-- VSAR (05_vector R133), passed to the vector queue. -/
def execVsar (d a b : BitVec 5) (m : BitVec 3) (s : State) : Host.Outcome State Fault Refusal := next (enqueueArith (.vsar d a b m) s)

/-- VADDS (05_vector R133), passed to the vector queue. -/
def execVadds (d a b : BitVec 5) (m : BitVec 3) (s : State) : Host.Outcome State Fault Refusal := next (enqueueArith (.vadds d a b m) s)

/-- VSUBS (05_vector R133), passed to the vector queue. -/
def execVsubs (d a b : BitVec 5) (m : BitVec 3) (s : State) : Host.Outcome State Fault Refusal := next (enqueueArith (.vsubs d a b m) s)

/-- VABS (05_vector R133), passed to the vector queue. -/
def execVabs (d a : BitVec 5) (m : BitVec 3) (s : State) : Host.Outcome State Fault Refusal := next (enqueueArith (.vabs d a m) s)

/-- VWADD (05_vector R134), passed to the vector queue. -/
def execVwadd (d a b : BitVec 5) (m : BitVec 3) (s : State) : Host.Outcome State Fault Refusal := next (enqueueArith (.vwadd d a b m) s)

/-- VWMUL (05_vector R134), passed to the vector queue. -/
def execVwmul (d a b : BitVec 5) (m : BitVec 3) (s : State) : Host.Outcome State Fault Refusal := next (enqueueArith (.vwmul d a b m) s)

/-- VNSHR (05_vector R134), passed to the vector queue. -/
def execVnshr (d a b : BitVec 5) (m : BitVec 3) (s : State) : Host.Outcome State Fault Refusal := next (enqueueArith (.vnshr d a b m) s)

/-- VDOT4 (05_vector R134), passed to the vector queue. -/
def execVdot4 (d a b : BitVec 5) (m : BitVec 3) (s : State) : Host.Outcome State Fault Refusal := next (enqueueArith (.vdot4 d a b m) s)

/-- VADD_VS (05_vector R133), passed to the vector queue. -/
def execVaddVs (d a : BitVec 5) (b : BitVec 6) (m : BitVec 3) (s : State) : Host.Outcome State Fault Refusal := next (enqueueArith (.vaddVs d a b m) s)

/-- VSUB_VS (05_vector R133), passed to the vector queue. -/
def execVsubVs (d a : BitVec 5) (b : BitVec 6) (m : BitVec 3) (s : State) : Host.Outcome State Fault Refusal := next (enqueueArith (.vsubVs d a b m) s)

/-- VMUL_VS (05_vector R133), passed to the vector queue. -/
def execVmulVs (d a : BitVec 5) (b : BitVec 6) (m : BitVec 3) (s : State) : Host.Outcome State Fault Refusal := next (enqueueArith (.vmulVs d a b m) s)

/-- VMULH_VS (05_vector R133), passed to the vector queue. -/
def execVmulhVs (d a : BitVec 5) (b : BitVec 6) (m : BitVec 3) (s : State) : Host.Outcome State Fault Refusal := next (enqueueArith (.vmulhVs d a b m) s)

/-- VMULHZ_VS (05_vector R133), passed to the vector queue. -/
def execVmulhzVs (d a : BitVec 5) (b : BitVec 6) (m : BitVec 3) (s : State) : Host.Outcome State Fault Refusal := next (enqueueArith (.vmulhzVs d a b m) s)

/-- VDIV_VS (05_vector R133), passed to the vector queue. -/
def execVdivVs (d a : BitVec 5) (b : BitVec 6) (m : BitVec 3) (s : State) : Host.Outcome State Fault Refusal := next (enqueueArith (.vdivVs d a b m) s)

/-- VMIN_VS (05_vector R133), passed to the vector queue. -/
def execVminVs (d a : BitVec 5) (b : BitVec 6) (m : BitVec 3) (s : State) : Host.Outcome State Fault Refusal := next (enqueueArith (.vminVs d a b m) s)

/-- VMAX_VS (05_vector R133), passed to the vector queue. -/
def execVmaxVs (d a : BitVec 5) (b : BitVec 6) (m : BitVec 3) (s : State) : Host.Outcome State Fault Refusal := next (enqueueArith (.vmaxVs d a b m) s)

/-- VMINZ_VS (05_vector R133), passed to the vector queue. -/
def execVminzVs (d a : BitVec 5) (b : BitVec 6) (m : BitVec 3) (s : State) : Host.Outcome State Fault Refusal := next (enqueueArith (.vminzVs d a b m) s)

/-- VMAXZ_VS (05_vector R133), passed to the vector queue. -/
def execVmaxzVs (d a : BitVec 5) (b : BitVec 6) (m : BitVec 3) (s : State) : Host.Outcome State Fault Refusal := next (enqueueArith (.vmaxzVs d a b m) s)

/-- VAND_VS (05_vector R133), passed to the vector queue. -/
def execVandVs (d a : BitVec 5) (b : BitVec 6) (m : BitVec 3) (s : State) : Host.Outcome State Fault Refusal := next (enqueueArith (.vandVs d a b m) s)

/-- VOR_VS (05_vector R133), passed to the vector queue. -/
def execVorVs (d a : BitVec 5) (b : BitVec 6) (m : BitVec 3) (s : State) : Host.Outcome State Fault Refusal := next (enqueueArith (.vorVs d a b m) s)

/-- VXOR_VS (05_vector R133), passed to the vector queue. -/
def execVxorVs (d a : BitVec 5) (b : BitVec 6) (m : BitVec 3) (s : State) : Host.Outcome State Fault Refusal := next (enqueueArith (.vxorVs d a b m) s)

/-- VSHL_VS (05_vector R133), passed to the vector queue. -/
def execVshlVs (d a : BitVec 5) (b : BitVec 6) (m : BitVec 3) (s : State) : Host.Outcome State Fault Refusal := next (enqueueArith (.vshlVs d a b m) s)

/-- VSHR_VS (05_vector R133), passed to the vector queue. -/
def execVshrVs (d a : BitVec 5) (b : BitVec 6) (m : BitVec 3) (s : State) : Host.Outcome State Fault Refusal := next (enqueueArith (.vshrVs d a b m) s)

/-- VSAR_VS (05_vector R133), passed to the vector queue. -/
def execVsarVs (d a : BitVec 5) (b : BitVec 6) (m : BitVec 3) (s : State) : Host.Outcome State Fault Refusal := next (enqueueArith (.vsarVs d a b m) s)

/-- VADDS_VS (05_vector R133), passed to the vector queue. -/
def execVaddsVs (d a : BitVec 5) (b : BitVec 6) (m : BitVec 3) (s : State) : Host.Outcome State Fault Refusal := next (enqueueArith (.vaddsVs d a b m) s)

/-- VSUBS_VS (05_vector R133), passed to the vector queue. -/
def execVsubsVs (d a : BitVec 5) (b : BitVec 6) (m : BitVec 3) (s : State) : Host.Outcome State Fault Refusal := next (enqueueArith (.vsubsVs d a b m) s)

/-- VWADD_VS (05_vector R134), passed to the vector queue. -/
def execVwaddVs (d a : BitVec 5) (b : BitVec 6) (m : BitVec 3) (s : State) : Host.Outcome State Fault Refusal := next (enqueueArith (.vwaddVs d a b m) s)

/-- VWMUL_VS (05_vector R134), passed to the vector queue. -/
def execVwmulVs (d a : BitVec 5) (b : BitVec 6) (m : BitVec 3) (s : State) : Host.Outcome State Fault Refusal := next (enqueueArith (.vwmulVs d a b m) s)

/-- VNSHR_VS (05_vector R134), passed to the vector queue. -/
def execVnshrVs (d a : BitVec 5) (b : BitVec 6) (m : BitVec 3) (s : State) : Host.Outcome State Fault Refusal := next (enqueueArith (.vnshrVs d a b m) s)

/-- VDOT4_VS (05_vector R134), passed to the vector queue. -/
def execVdot4Vs (d a : BitVec 5) (b : BitVec 6) (m : BitVec 3) (s : State) : Host.Outcome State Fault Refusal := next (enqueueArith (.vdot4Vs d a b m) s)

/-- VFADD (05_vector R135), passed to the vector queue. -/
def execVfadd (d a b : BitVec 5) (m : BitVec 3) (s : State) : Host.Outcome State Fault Refusal := next (enqueueArith (.vfadd d a b m) s)

/-- VFSUB (05_vector R135), passed to the vector queue. -/
def execVfsub (d a b : BitVec 5) (m : BitVec 3) (s : State) : Host.Outcome State Fault Refusal := next (enqueueArith (.vfsub d a b m) s)

/-- VFMUL (05_vector R135), passed to the vector queue. -/
def execVfmul (d a b : BitVec 5) (m : BitVec 3) (s : State) : Host.Outcome State Fault Refusal := next (enqueueArith (.vfmul d a b m) s)

/-- VFDIV (05_vector R135), passed to the vector queue. -/
def execVfdiv (d a b : BitVec 5) (m : BitVec 3) (s : State) : Host.Outcome State Fault Refusal := next (enqueueArith (.vfdiv d a b m) s)

/-- VFSQRT (05_vector R135), passed to the vector queue. -/
def execVfsqrt (d a : BitVec 5) (m : BitVec 3) (s : State) : Host.Outcome State Fault Refusal := next (enqueueArith (.vfsqrt d a m) s)

/-- VFMA (05_vector R135), passed to the vector queue. -/
def execVfma (d a b : BitVec 5) (m : BitVec 3) (s : State) : Host.Outcome State Fault Refusal := next (enqueueArith (.vfma d a b m) s)

/-- VFNMS (05_vector R135), passed to the vector queue. -/
def execVfnms (d a b : BitVec 5) (m : BitVec 3) (s : State) : Host.Outcome State Fault Refusal := next (enqueueArith (.vfnms d a b m) s)

/-- VFMIN (05_vector R135), passed to the vector queue. -/
def execVfmin (d a b : BitVec 5) (m : BitVec 3) (s : State) : Host.Outcome State Fault Refusal := next (enqueueArith (.vfmin d a b m) s)

/-- VFMAX (05_vector R135), passed to the vector queue. -/
def execVfmax (d a b : BitVec 5) (m : BitVec 3) (s : State) : Host.Outcome State Fault Refusal := next (enqueueArith (.vfmax d a b m) s)

/-- VFCVT (05_vector R136), passed to the vector queue. -/
def execVfcvt (d a t : BitVec 5) (m : BitVec 3) (s : State) : Host.Outcome State Fault Refusal := next (enqueueArith (.vfcvt d a t m) s)

/-- VFCVT_SAT (05_vector R136), passed to the vector queue. -/
def execVfcvtSat (d a t : BitVec 5) (m : BitVec 3) (s : State) : Host.Outcome State Fault Refusal := next (enqueueArith (.vfcvtSat d a t m) s)

/-- VFREC (05_vector R135), passed to the vector queue. -/
def execVfrec (d a : BitVec 5) (m : BitVec 3) (s : State) : Host.Outcome State Fault Refusal := next (enqueueArith (.vfrec d a m) s)

/-- VFRSQ (05_vector R135), passed to the vector queue. -/
def execVfrsq (d a : BitVec 5) (m : BitVec 3) (s : State) : Host.Outcome State Fault Refusal := next (enqueueArith (.vfrsq d a m) s)

/-- VFEXP2 (05_vector R135), passed to the vector queue. -/
def execVfexp2 (d a : BitVec 5) (m : BitVec 3) (s : State) : Host.Outcome State Fault Refusal := next (enqueueArith (.vfexp2 d a m) s)

/-- VFCLASS (05_vector R135), passed to the vector queue. -/
def execVfclass (d a : BitVec 5) (m : BitVec 3) (s : State) : Host.Outcome State Fault Refusal := next (enqueueArith (.vfclass d a m) s)

/-- VFADD_VS (05_vector R135), passed to the vector queue. -/
def execVfaddVs (d a : BitVec 5) (b : BitVec 6) (m : BitVec 3) (s : State) : Host.Outcome State Fault Refusal := next (enqueueArith (.vfaddVs d a b m) s)

/-- VFSUB_VS (05_vector R135), passed to the vector queue. -/
def execVfsubVs (d a : BitVec 5) (b : BitVec 6) (m : BitVec 3) (s : State) : Host.Outcome State Fault Refusal := next (enqueueArith (.vfsubVs d a b m) s)

/-- VFMUL_VS (05_vector R135), passed to the vector queue. -/
def execVfmulVs (d a : BitVec 5) (b : BitVec 6) (m : BitVec 3) (s : State) : Host.Outcome State Fault Refusal := next (enqueueArith (.vfmulVs d a b m) s)

/-- VFDIV_VS (05_vector R135), passed to the vector queue. -/
def execVfdivVs (d a : BitVec 5) (b : BitVec 6) (m : BitVec 3) (s : State) : Host.Outcome State Fault Refusal := next (enqueueArith (.vfdivVs d a b m) s)

/-- VFMA_VS (05_vector R135), passed to the vector queue. -/
def execVfmaVs (d a : BitVec 5) (b : BitVec 6) (m : BitVec 3) (s : State) : Host.Outcome State Fault Refusal := next (enqueueArith (.vfmaVs d a b m) s)

/-- VFNMS_VS (05_vector R135), passed to the vector queue. -/
def execVfnmsVs (d a : BitVec 5) (b : BitVec 6) (m : BitVec 3) (s : State) : Host.Outcome State Fault Refusal := next (enqueueArith (.vfnmsVs d a b m) s)

/-- VFMIN_VS (05_vector R135), passed to the vector queue. -/
def execVfminVs (d a : BitVec 5) (b : BitVec 6) (m : BitVec 3) (s : State) : Host.Outcome State Fault Refusal := next (enqueueArith (.vfminVs d a b m) s)

/-- VFMAX_VS (05_vector R135), passed to the vector queue. -/
def execVfmaxVs (d a : BitVec 5) (b : BitVec 6) (m : BitVec 3) (s : State) : Host.Outcome State Fault Refusal := next (enqueueArith (.vfmaxVs d a b m) s)

/-- MAND (05_vector R138), passed to the vector queue. -/
def execMand (d a b : BitVec 3) (s : State) : Host.Outcome State Fault Refusal := next (enqueueArith (.mand d a b) s)

/-- MOR (05_vector R138), passed to the vector queue. -/
def execMor (d a b : BitVec 3) (s : State) : Host.Outcome State Fault Refusal := next (enqueueArith (.mor d a b) s)

/-- MXOR (05_vector R138), passed to the vector queue. -/
def execMxor (d a b : BitVec 3) (s : State) : Host.Outcome State Fault Refusal := next (enqueueArith (.mxor d a b) s)

/-- MANDN (05_vector R138), passed to the vector queue. -/
def execMandn (d a b : BitVec 3) (s : State) : Host.Outcome State Fault Refusal := next (enqueueArith (.mandn d a b) s)

/-- MPOPC (05_vector R139), passed to the vector queue. -/
def execMpopc (d : BitVec 5) (a m : BitVec 3) (s : State) : Host.Outcome State Fault Refusal := next (enqueueArith (.mpopc d a m) s)

/-- MFFS (05_vector R139), passed to the vector queue. -/
def execMffs (d : BitVec 5) (a m : BitVec 3) (s : State) : Host.Outcome State Fault Refusal := next (enqueueArith (.mffs d a m) s)

/-- MSBF (05_vector R139), passed to the vector queue. -/
def execMsbf (d a m : BitVec 3) (s : State) : Host.Outcome State Fault Refusal := next (enqueueArith (.msbf d a m) s)

/-- MSET (05_vector R138), passed to the vector queue. -/
def execMset (d : BitVec 3) (s : State) : Host.Outcome State Fault Refusal := next (enqueueArith (.mset d) s)

/-- MFROMV (05_vector R139), passed to the vector queue. -/
def execMfromv (d : BitVec 3) (a : BitVec 5) (m : BitVec 3) (s : State) : Host.Outcome State Fault Refusal := next (enqueueArith (.mfromv d a m) s)

/-- MTOV (05_vector R139), passed to the vector queue. -/
def execMtov (d : BitVec 5) (a m : BitVec 3) (s : State) : Host.Outcome State Fault Refusal := next (enqueueArith (.mtov d a m) s)

/-- VIOTA (05_vector R139), passed to the vector queue. -/
def execViota (d : BitVec 5) (a m : BitVec 3) (s : State) : Host.Outcome State Fault Refusal := next (enqueueArith (.viota d a m) s)

/-- VSLUP (05_vector R140), passed to the vector queue. -/
def execVslup (d a b : BitVec 5) (m : BitVec 3) (s : State) : Host.Outcome State Fault Refusal := next (enqueueArith (.vslup d a b m) s)

/-- VSLDN (05_vector R140), passed to the vector queue. -/
def execVsldn (d a b : BitVec 5) (m : BitVec 3) (s : State) : Host.Outcome State Fault Refusal := next (enqueueArith (.vsldn d a b m) s)

/-- VPERM (05_vector R140), passed to the vector queue. -/
def execVperm (d a b : BitVec 5) (m : BitVec 3) (s : State) : Host.Outcome State Fault Refusal := next (enqueueArith (.vperm d a b m) s)

/-- VCOMP (05_vector R140), passed to the vector queue. -/
def execVcomp (d a : BitVec 5) (m : BitVec 3) (s : State) : Host.Outcome State Fault Refusal := next (enqueueArith (.vcomp d a m) s)

/-- VEXPD (05_vector R140), passed to the vector queue. -/
def execVexpd (d a : BitVec 5) (m : BitVec 3) (s : State) : Host.Outcome State Fault Refusal := next (enqueueArith (.vexpd d a m) s)

/-- VMERGE (05_vector R140), passed to the vector queue. -/
def execVmerge (d a b : BitVec 5) (m : BitVec 3) (s : State) : Host.Outcome State Fault Refusal := next (enqueueArith (.vmerge d a b m) s)

/-- VBCAST (05_vector R140), passed to the vector queue. -/
def execVbcast (d a : BitVec 5) (m : BitVec 3) (s : State) : Host.Outcome State Fault Refusal := next (enqueueArith (.vbcast d a m) s)

/-- VEXTR (05_vector R140), passed to the vector queue. -/
def execVextr (d a b : BitVec 5) (s : State) : Host.Outcome State Fault Refusal := next (enqueueArith (.vextr d a b) s)

/-- VINS (05_vector R140), passed to the vector queue. -/
def execVins (d a b : BitVec 5) (s : State) : Host.Outcome State Fault Refusal := next (enqueueArith (.vins d a b) s)

/-- VREDSUM (05_vector R141), passed to the vector queue. -/
def execVredsum (d a b : BitVec 5) (m : BitVec 3) (s : State) : Host.Outcome State Fault Refusal := next (enqueueArith (.vredsum d a b m) s)

/-- VREDMAX (05_vector R141), passed to the vector queue. -/
def execVredmax (d a b : BitVec 5) (m : BitVec 3) (s : State) : Host.Outcome State Fault Refusal := next (enqueueArith (.vredmax d a b m) s)

/-- VREDMIN (05_vector R141), passed to the vector queue. -/
def execVredmin (d a b : BitVec 5) (m : BitVec 3) (s : State) : Host.Outcome State Fault Refusal := next (enqueueArith (.vredmin d a b m) s)

/-- VFREDO (05_vector R55), passed to the vector queue. -/
def execVfredo (d a b : BitVec 5) (m : BitVec 3) (s : State) : Host.Outcome State Fault Refusal := next (enqueueArith (.vfredo d a b m) s)

/-- VFREDU (05_vector R55), passed to the vector queue. -/
def execVfredu (d a b : BitVec 5) (m : BitVec 3) (s : State) : Host.Outcome State Fault Refusal := next (enqueueArith (.vfredu d a b m) s)

/-- VFREDMAX (05_vector R55), passed to the vector queue. -/
def execVfredmax (d a b : BitVec 5) (m : BitVec 3) (s : State) : Host.Outcome State Fault Refusal := next (enqueueArith (.vfredmax d a b m) s)

/-- VSCAN (05_vector R142), passed to the vector queue. -/
def execVscan (d a : BitVec 5) (m : BitVec 3) (s : State) : Host.Outcome State Fault Refusal := next (enqueueArith (.vscan d a m) s)

/-- VPRUNE48 (05_vector R143), passed to the vector queue. -/
def execVprune48 (d a : BitVec 5) (s : State) : Host.Outcome State Fault Refusal := next (enqueueArith (.vprune48 d a) s)

/-- VCMP (05_vector R137), passed to the vector queue. -/
def execVcmp (d : BitVec 3) (a b : BitVec 5) (m : BitVec 3) (c : BitVec 4) (s : State) : Host.Outcome State Fault Refusal := next (enqueueOther (.vcmp d a b m c) s)

/-- VCMP_VS (05_vector R137), passed to the vector queue. -/
def execVcmpVs (d : BitVec 3) (a b : BitVec 5) (m : BitVec 3) (c : BitVec 4) (s : State) : Host.Outcome State Fault Refusal := next (enqueueOther (.vcmpVs d a b m c) s)

/-- VFCMP (05_vector R137), passed to the vector queue. -/
def execVfcmp (d : BitVec 3) (a b : BitVec 5) (m : BitVec 3) (c : BitVec 4) (s : State) : Host.Outcome State Fault Refusal := next (enqueueOther (.vfcmp d a b m c) s)

/-- VFCMP_VS (05_vector R137), passed to the vector queue. -/
def execVfcmpVs (d : BitVec 3) (a b : BitVec 5) (m : BitVec 3) (c : BitVec 4) (s : State) : Host.Outcome State Fault Refusal := next (enqueueOther (.vfcmpVs d a b m c) s)

/-- VLD (06_vector_access R149), passed to the vector queue. -/
def execVld (d : BitVec 5) (a : BitVec 6) (m : BitVec 3) (s : State) : Host.Outcome State Fault Refusal := next (enqueueOther (.vld d a m) s)

/-- VLDS (06_vector_access R149), passed to the vector queue. -/
def execVlds (d : BitVec 5) (a b : BitVec 6) (m : BitVec 3) (s : State) : Host.Outcome State Fault Refusal := next (enqueueOther (.vlds d a b m) s)

/-- VLDX (06_vector_access R149), passed to the vector queue. -/
def execVldx (d : BitVec 5) (a : BitVec 6) (b : BitVec 5) (m : BitVec 3) (s : State) : Host.Outcome State Fault Refusal := next (enqueueOther (.vldx d a b m) s)

/-- VLDXO (06_vector_access R154), passed to the vector queue. -/
def execVldxo (d : BitVec 5) (a : BitVec 6) (b : BitVec 5) (m : BitVec 3) (s : State) : Host.Outcome State Fault Refusal := next (enqueueOther (.vldxo d a b m) s)

/-- VLDFF (06_vector_access R158), passed to the vector queue. -/
def execVldff (d : BitVec 5) (a : BitVec 6) (m : BitVec 3) (s : State) : Host.Outcome State Fault Refusal := next (enqueueOther (.vldff d a m) s)

/-- VST (06_vector_access R149), passed to the vector queue. -/
def execVst (d : BitVec 5) (a : BitVec 6) (m : BitVec 3) (s : State) : Host.Outcome State Fault Refusal := next (enqueueOther (.vst d a m) s)

/-- VSTS (06_vector_access R149), passed to the vector queue. -/
def execVsts (d : BitVec 5) (a b : BitVec 6) (m : BitVec 3) (s : State) : Host.Outcome State Fault Refusal := next (enqueueOther (.vsts d a b m) s)

/-- VSTX (06_vector_access R149), passed to the vector queue. -/
def execVstx (d : BitVec 5) (a : BitVec 6) (b : BitVec 5) (m : BitVec 3) (s : State) : Host.Outcome State Fault Refusal := next (enqueueOther (.vstx d a b m) s)

/-- VSTXO (06_vector_access R154), passed to the vector queue. -/
def execVstxo (d : BitVec 5) (a : BitVec 6) (b : BitVec 5) (m : BitVec 3) (s : State) : Host.Outcome State Fault Refusal := next (enqueueOther (.vstxo d a b m) s)

/-- VSTXADD (06_vector_access R159), passed to the vector queue. -/
def execVstxadd (d : BitVec 5) (a : BitVec 6) (b : BitVec 5) (m : BitVec 3) (s : State) : Host.Outcome State Fault Refusal := next (enqueueOther (.vstxadd d a b m) s)

/-- VLDN (06_vector_access R163), passed to the vector queue. -/
def execVldn (d : BitVec 5) (a : BitVec 6) (z : BitVec 1) (s : BitVec 5) (m : BitVec 3) (t : BitVec 1) (f : BitVec 4) (st : State) : Host.Outcome State Fault Refusal := next (enqueueOther (.vldn d a z s m t f) st)

/-- VSTN (06_vector_access R164), passed to the vector queue. -/
def execVstn (d : BitVec 5) (a : BitVec 6) (z : BitVec 1) (s : BitVec 5) (m : BitVec 3) (t : BitVec 1) (f : BitVec 4) (st : State) : Host.Outcome State Fault Refusal := next (enqueueOther (.vstn d a z s m t f) st)

/-- The state with VCFG and VL of the acting slot set, and sd := VL (05_vector R131). -/
def setVl (s : State) (d : Nat) (c : BitVec 14) (n : Nat) : State :=
  let q := s.cur
  let x := s.slot q
  let vl := min n (x.vlmax c)
  s.setSlot q ({ x with vcfg := c, vl := vl }.put d (BitVec.ofNat 64 vl) none).complete

/-- VSETVL (05_vector R131): a poisoned operand is a sink, and a bad configuration traps with it in TRAPAUX. -/
def execVsetvl (d a b : BitVec 6) (s : State) : Host.Outcome State Fault Refusal :=
  let q := s.cur
  let c := s.me.val b.toNat
  let w := encode (.vsetvl d a b)
  next (whenLanes s q w <| whenOwner s q w <| whenReady s q [d.toNat, a.toNat, b.toNat] <| whenVl s q <| unlessPoisoned s q [a.toNat, b.toNat] <|
    if wbits c 63 14 ≠ 0 ∨ 5 < wbits c 2 0 ∨ wbits c 13 12 = 3 then trap s q 0x01 0 c
    else setVl s d.toNat (BitVec.ofNat 14 c.toNat) (s.me.val a.toNat).toNat)

/-- VSETVLI (05_vector R131). -/
def execVsetvli (d a : BitVec 6) (c : BitVec 12) (s : State) : Host.Outcome State Fault Refusal :=
  let q := s.cur
  let w := encode (.vsetvli d a c)
  next (whenLanes s q w <| whenOwner s q w <| whenReady s q [d.toNat, a.toNat] <| whenVl s q <| unlessPoisoned s q [a.toNat] <|
    setVl s d.toNat (c.setWidth 14) (s.me.val a.toNat).toNat)

/-- The strip that VGRANT takes (05_vector R132): from CLAIM, COUNT and VLMAX, the elements and the start. -/
def grantStrip (old count vlmax : Nat) : Nat × Nat :=
  let n := if count ≤ old then 0 else min vlmax (count - old)
  (n, if n = 0 then count else old)

/-- VGRANT (05_vector R132): COUNT stands at offset 0 of the strip-task record and CLAIM at 8 (14_queue R329); the read and the
write are one step, which waits for own stores to the record and for a MIGRATING page. -/
def execVgrant (d a : BitVec 6) (s : State) : Host.Outcome State Fault Refusal :=
  let q := s.cur
  let x := s.me
  let va := (x.val a.toNat).toNat
  let ag := scalarAgent s q
  let w := encode (.vgrant d a)
  next (whenLanes s q w <| whenOwner s q w <| whenReady s q [d.toNat, d.toNat + 1, a.toNat] <| whenVl s q <| unlessPoisoned s q [a.toNat] <|
    scalarCheck s q w .write va 64 64 <|
      if storeOverlaps s q va 64 then s.stallSlot q .accesses
      else if migratingAt s ag va 64 then s.stallSlot q .retry
      else
        let s1 := touch s ag va .write
        let g := readKey s1 (keyOfVa s ag va .write) 64
        match g.poison with
        | some t => sink g.st q t
        | none =>
          let old := leNat ((g.bytes.drop 8).take 8)
          let vlmax := x.vlmax x.vcfg
          let r := grantStrip old (leNat (g.bytes.take 8)) vlmax
          let s2 := writeVa g.st (.slot q) ag (va + 8) (leBytes 8 ((old + vlmax) % 2 ^ 64)) none
          let y := s2.slot q
          s2.setSlot q ((({ y with vl := r.1 }.put d.toNat (BitVec.ofNat 64 r.1) none).put (d.toNat + 1) (BitVec.ofNat 64 r.2) none).complete))

end Sys2Proof.Machine
end

