-- ==== Sys2Proof/Machine/VecAccess.lean ====
section
/-! DEFINITION. Vector accesses at the vector unit (06_vector_access R147 to R165): element addresses, the check and its fault
record, the element groups, scatter-adds, narrow formats and poison. -/

namespace Sys2Proof.Machine

/-- How an access finds its elements (06_vector_access R147): unit stride, a signed byte stride, an index group, or a narrow array
with SAT, ZB and the scale base of its blocks. -/
inductive AForm where
  | unit
  | strided (by_ : Word)
  | indexed (vb : Nat)
  | narrow (f : EFmt) (sat zb : Bool) (scales : Word)
  deriving DecidableEq, Repr

/-- A decoded vector access (06_vector_access R145). -/
structure VAcc where
  data : Nat
  m : Nat
  store : Bool
  ff : Bool
  add : Bool
  form : AForm
  base : Word
  /-- the poison of the captured address operands (R160) -/
  poison : Option PTag
  /-- the address of the instruction (19_shroud R415) -/
  pc : Word
  deriving DecidableEq, Repr

/-- The access of a queue entry (06_vector_access R145). -/
def accOf (e : VEntry) : Instr → Option VAcc
  | .vld d _ m => some ⟨d.toNat, m.toNat, false, false, false, .unit, e.op0, e.poison0, e.pc⟩
  | .vlds d _ _ m => some ⟨d.toNat, m.toNat, false, false, false, .strided e.op1, e.op0, lowerTag e.poison0 e.poison1, e.pc⟩
  | .vldx d _ b m | .vldxo d _ b m => some ⟨d.toNat, m.toNat, false, false, false, .indexed b.toNat, e.op0, e.poison0, e.pc⟩
  | .vldff d _ m => some ⟨d.toNat, m.toNat, false, true, false, .unit, e.op0, e.poison0, e.pc⟩
  | .vst d _ m => some ⟨d.toNat, m.toNat, true, false, false, .unit, e.op0, e.poison0, e.pc⟩
  | .vsts d _ _ m => some ⟨d.toNat, m.toNat, true, false, false, .strided e.op1, e.op0, lowerTag e.poison0 e.poison1, e.pc⟩
  | .vstx d _ b m | .vstxo d _ b m => some ⟨d.toNat, m.toNat, true, false, false, .indexed b.toNat, e.op0, e.poison0, e.pc⟩
  | .vstxadd d _ b m => some ⟨d.toNat, m.toNat, true, false, true, .indexed b.toNat, e.op0, e.poison0, e.pc⟩
  | .vldn d _ z _ m t f =>
    some ⟨d.toNat, m.toNat, false, false, false, .narrow (narrowFmt f.toNat) (t == 1) (z == 1) e.op1, e.op0,
      lowerTag e.poison0 (if (narrowFmt f.toNat).isMx then e.poison1 else none), e.pc⟩
  | .vstn d _ z _ m t f =>
    some ⟨d.toNat, m.toNat, true, false, false, .narrow (narrowFmt f.toNat) (t == 1) (z == 1) e.op1, e.op0,
      lowerTag e.poison0 (if (narrowFmt f.toNat).isMx then e.poison1 else none), e.pc⟩
  | _ => none

/-- Whether a word is a plain vector access; KST and KSIG are not (19_shroud R418). -/
def rowAcc (e : VEntry) : Option VAcc :=
  match decodeToRow e.word with
  | .ok (.instr i) => accOf e i
  | _ => none

/-- The width of an element in memory. -/
def VAcc.width (a : VAcc) (v : VView) : Nat :=
  match a.form with
  | .narrow f _ _ _ => f.width
  | _ => v.w

/-- Where an element lies (06_vector_access R147, R162): the address of its first byte, and its first bit in that byte. -/
def VAcc.place (a : VAcc) (c : Core) (v : VView) (i : Nat) : Nat × Nat :=
  match a.form with
  | .unit | .narrow _ _ _ _ =>
    let b := i * a.width v
    ((a.base + BitVec.ofNat 64 (b / 8)).toNat, b % 8)
  | .strided st => ((a.base + BitVec.ofNat 64 i * st).toNat, 0)
  | .indexed r => ((a.base + BitVec.ofNat 64 ((c.elem v r v.w i).bits * (v.w / 8))).toNat, 0)

/-- The bytes that an element touches: its address and their number. -/
def VAcc.range (a : VAcc) (c : Core) (v : VView) (i : Nat) : Nat × Nat :=
  let p := a.place c v i
  (p.1, (p.2 + a.width v + 7) / 8)

/-- The address of the scale byte of an element's block (06_vector_access R162); none for other formats. -/
def VAcc.scaleAt (a : VAcc) (i : Nat) : Option Nat :=
  match a.form with
  | .narrow f _ _ ss => if f.isMx then some (ss + BitVec.ofNat 64 (i / 32)).toNat else none
  | _ => none

/-- Bytes(i): the element's bytes and the scale byte of its block (06_vector_access R149). -/
def VAcc.ranges (a : VAcc) (c : Core) (v : VView) (i : Nat) : List (Nat × Nat) :=
  a.range c v i :: ((a.scaleAt i).map fun x => (x, 1)).toList

/-- The agent of a lane access of slot q at an address (06_vector_access R152): the slice of owned group addr[10:8] mod n. -/
def laneAgent (s : State) (q va : Nat) : Agent :=
  let x := s.slot q
  { scalarAgent s q with slice := laneSlice (coreOf q) (x.laneBase + va / 256 % 8 % x.laneCount) }

/-- The access kind of an access (11_page R284). -/
def VAcc.access (a : VAcc) : Access := if a.add then .update else if a.store then .write else .read

/-- The elements of S (06_vector_access R149): active, from P to VL − 1. -/
def VAcc.elems (a : VAcc) (c : Core) (v : VView) : List Nat :=
  (List.range v.vl).filter fun i => decide (v.p ≤ i) && c.active v a.m i

/-- The failing pages of some elements (06_vector_access R149). Where R152 names the slices of element addresses, the scale byte of a block goes
through the slice of its own address (DESIGN CHOICE, log 109). -/
def VAcc.misses (a : VAcc) (s : State) (q : Nat) (c : Core) (v : VView) (is : List Nat) : List Miss :=
  is.foldl (fun acc i => (a.ranges c v i).foldl (fun l r =>
    (probeRange s (laneAgent s q r.1) a.access r.1 r.2).foldl (fun l m => insertMiss m l) l) acc) []

/-- The failing addresses of one element. -/
def VAcc.failing (a : VAcc) (s : State) (q : Nat) (c : Core) (v : VView) (i : Nat) : List Nat :=
  (a.ranges c v i).flatMap fun r => (granuleAddrs r.1 r.2).filter fun x =>
    match checkInRange s (laneAgent s q r.1) r.1 x a.access with
    | .ok _ => false
    | .error _ => true

/-- The least of some numbers. -/
def leastOf : List Nat → Nat
  | [] => 0
  | x :: xs => xs.foldl min x

/-- Whether an element is misaligned (06_vector_access R147, R162). -/
def VAcc.misaligned (a : VAcc) (c : Core) (v : VView) (i : Nat) : Bool :=
  match a.form with
  | .narrow _ _ _ _ => false
  | _ => decide (8 ≤ v.w) && (a.place c v i).1 % (v.w / 8) != 0

/-- Eight mask bits as a byte, from element i on. -/
def maskByte (hit : Nat → Bool) (i : Nat) : Byte :=
  BitVec.ofNat 8 ((List.range 8).foldl (fun n j => n + (hit (i + j)).toNat * 2 ^ j) 0)

/-- What the check of an access comes to (06_vector_access R149, R158): a report to take, or the VL under which it performs. -/
inductive AccCheck where
  | fail (r : Report) (s : State)
  | sink (t : PTag)
  | pass (vl : Nat)

/-- The check of some elements, alignment first, then one Probe with its fault record (06_vector_access R149, R155, R156): the record shows the
VL that the entry captured, cap. -/
def VAcc.checkAll (a : VAcc) (s : State) (q : Nat) (e : VEntry) (cap : Nat) (c : Core) (v : VView) (is : List Nat) : AccCheck :=
  match is.find? (a.misaligned c v) with
  | some i =>
    .fail ⟨0x0B, e.pc, BitVec.ofNat 64 (a.place c v i).1, BitVec.ofNat 64 i, true, false⟩ s
  | none =>
    let ms := a.misses s q c v is
    if ms.isEmpty then .pass v.vl
    else
      let bad := is.filter fun i => !(a.failing s q c v i).isEmpty
      let i0 := bad.headD 0
      let mask := (List.range ((cap + 63) / 64 * 8)).map fun b => maskByte bad.contains (8 * b)
      let f : FaultInfo :=
        { pc := e.pc, word := e.word, write := a.store, indexed := match a.form with | .indexed _ => true | _ => false, vl := cap,
          p := v.p, mask := mask }
      let r := accessReport s q f ms (leastOf (a.failing s q c v i0)) i0 true
      .fail r.1 r.2

/-- The check of an access before its first element group (06_vector_access R149, R158, R160): a poisoned address operand or
index element is a sink, and VLDFF trims VL to its first failing element unless that is the first of S. -/
def VAcc.check (a : VAcc) (s : State) (q : Nat) (e : VEntry) (cap : Nat) (c : Core) (v : VView) : AccCheck :=
  let is := a.elems c v
  let ip := match a.form with
    | .indexed r => is.foldl (fun t i => lowerTag t (c.elem v r v.w i).poison) none
    | _ => none
  match lowerTag a.poison ip with
  | some t => .sink t
  | none =>
    if a.ff then
      match is.find? fun i => a.misaligned c v i || !(a.failing s q c v i).isEmpty with
      | none => .pass v.vl
      | some i => if is.head? = some i then a.checkAll s q e cap c v is else .pass i
    else a.checkAll s q e cap c v is

/-- The state after the translations of an access are held, with their A and D bits (06_vector_access R151; 11_page R282). -/
def VAcc.touchAll (a : VAcc) (s : State) (q : Nat) (c : Core) (v : VView) (is : List Nat) : State :=
  is.foldl (fun st i => (a.ranges c v i).foldl (fun st r => touchRange st (laneAgent s q r.1) a.access r.1 r.2) st) s

/-- The translations that the Probe of an access has found (06_vector_access R151). -/
def VAcc.pages (a : VAcc) (s : State) (q : Nat) (c : Core) (v : VView) (is : List Nat) : List HeldPage :=
  is.foldl (fun l i => (a.ranges c v i).foldl (fun l r => holdPages s (laneAgent s q r.1) a.access l r) l) []

/-- The byte ranges of some elements. -/
def VAcc.spans (a : VAcc) (c : Core) (v : VView) (is : List Nat) : List (Nat × Nat) := is.flatMap (a.ranges c v)

/-- Whether a store would write to a MIGRATING page (11_page R292). -/
def VAcc.migrates (a : VAcc) (s : State) (q : Nat) (rs : List (Nat × Nat)) : Bool :=
  a.store && rs.any fun r => migratingAt s (laneAgent s q r.1) r.1 r.2

/-- Whether a store is to write DOORBELL, which is a release (09_guard R245; 14_queue R326). -/
def VAcc.rings (a : VAcc) (s : State) (q : Nat) (rs : List (Nat × Nat)) : Bool :=
  a.store && s.notify != 0 && rs.any fun r => isDoorbell s (keyOfVa s (laneAgent s q r.1) r.1 .write)

/-- What an access leaves while its elements run: the state, the flags. -/
abbrev AccRun := State × FFlags

/-- One element loaded (06_vector_access R149, R160, R163): its bits, its poison, the flags, the state. -/
def VAcc.loadElem (a : VAcc) (s : State) (q : Nat) (pages : List HeldPage) (c : Core) (v : VView) (i : Nat) : ElemRes × State :=
  let r := a.range c v i
  let g := readHeld s (laneAgent s q r.1).slice pages r.1 r.2
  let raw := leNat g.bytes / 2 ^ (a.place c v i).2 % 2 ^ a.width v
  match a.form with
  | .narrow f sat zb _ =>
    let sc := match a.scaleAt i with
      | some x => readHeld g.st (laneAgent s q x).slice pages x 1
      | none => ⟨[127], none, g.st⟩
    let scale := leNat sc.bytes
    let zero := f.isMx && zb && scale == 0 && sc.poison.isNone
    match (if zero then none else lowerTag g.poison sc.poison) with
    | some t => ((⟨⟨0, some t⟩, 0⟩ : ElemRes), sc.st)
    | none =>
      let y := match f with
        | .int _ n => (intBits v.w (signedOf n raw), (0 : FFlags))
        | _ => (EFmt.flt v.fmt).narrow v.frm (sat && f.isMx) (f.value raw scale zb)
      (⟨⟨y.1, none⟩, y.2⟩, sc.st)
  | _ => (⟨⟨if g.poison.isSome then 0 else raw, g.poison⟩, 0⟩, g.st)

/-- Bits written in bytes at an address by slot q's lanes: other bits of the touched bytes keep the value read (06_vector_access
R148, R160). -/
def writeBits (s : State) (q : Nat) (pc : Word) (pages : List HeldPage) (va off w bits : Nat) (p : Option PTag) : State :=
  let ag := { laneAgent s q va with pc := some pc }
  let n := (off + w + 7) / 8
  if off = 0 ∧ w % 8 = 0 then writeHeld s (.slot q) ag pages va (leBytes n bits) p
  else
    let g := readHeld s ag.slice pages va n
    let old := leNat g.bytes
    let new := old - old / 2 ^ off % 2 ^ w * 2 ^ off + bits % 2 ^ w * 2 ^ off
    writeHeld g.st (.slot q) ag pages va (leBytes n new) p

/-- The sum that VSTXADD leaves (06_vector_access R159). -/
def addSum (v : VView) (old new : Nat) : Nat × FFlags :=
  if vCvs v.vcfg = 0 then fltAdd v.frm v.fmt old new else ((old + new) % 2 ^ v.w, 0)

/-- One element stored (06_vector_access R149, R159, R160, R164), with the poison of the mask chunk that governs it (DEDUCED,
log 17). -/
def VAcc.storeElem (a : VAcc) (s : State) (q : Nat) (pages : List HeldPage) (c : Core) (v : VView) (i : Nat) (mp : Option PTag) : AccRun :=
  let e := c.elem v a.data v.w i
  let pl := a.place c v i
  if a.add then
    let g := readHeld s (laneAgent s q pl.1).slice pages pl.1 (v.w / 8)
    let r := addSum v (leNat g.bytes) e.bits
    let p := lowerTag mp (lowerTag g.poison e.poison)
    (writeBits g.st q a.pc pages pl.1 0 v.w (if p.isSome then 0 else r.1) p, if p.isSome then 0 else r.2)
  else
    let p := lowerTag mp e.poison
    match a.form with
    | .narrow f sat _ _ =>
      let y := convertElem (if f.isInt then .int true v.w else .flt v.fmt) f v.frm sat e.bits
      (writeBits s q a.pc pages pl.1 pl.2 f.width (if p.isSome then 0 else y.1) p, if p.isSome then 0 else y.2)
    | _ => (writeBits s q a.pc pages pl.1 pl.2 v.w e.bits p, 0)

/-- One block of a microscaling store (06_vector_access R164; 02_numbers R45): elements 32j to 32j + 31. A block that holds a poisoned element
raises the flags of its other elements, with +0 in the place of a poisoned one (02_numbers R33) (DESIGN CHOICE, log 90). -/
def VAcc.storeBlock (a : VAcc) (s : State) (q : Nat) (pages : List HeldPage) (c : Core) (v : VView) (j : Nat) : AccRun :=
  match a.form with
  | .narrow f sat zb _ =>
    let es := (List.range 32).map fun t => c.elem v a.data v.w (32 * j + t)
    let p := es.foldl (fun t e => lowerTag t e.poison) none
    let r := mxEncode f v.frm sat zb (es.map fun e => v.fmt.decode (if e.poison.isSome then 0 else e.bits))
    let s1 := (List.range 32).foldl (fun st t =>
      let pl := a.place c v (32 * j + t)
      writeBits st q a.pc pages pl.1 pl.2 f.width (if p.isSome then 0 else r.2.1.getD t 0) p) s
    let x := (a.scaleAt (32 * j)).getD 0
    (writeBits s1 q a.pc pages x 0 8 (if p.isSome then 0 else r.1) p, r.2.2)
  | _ => (s, 0)

/-- The progress index after the next element group of a load or a plain store (05_vector R126, R128; 06_vector_access R150): one more than its
highest element while others are left, else VL. VLDFF performs all of its groups together (R150). -/
def VAcc.groupEnd (a : VAcc) (c : Core) (v : VView) : Nat :=
  if a.ff then v.vl
  else if a.store then
    match (a.elems c v).drop (2048 / v.w - 1) with
    | i :: _ :: _ => i + 1
    | _ => v.vl
  else c.groupEnd v a.m false (2048 / v.w)

/-- n elements of a load or a plain store from index i on (06_vector_access R149; 05_vector R126). The mask, the indexes and the source are
read in c0. -/
def VAcc.run (a : VAcc) (q : Nat) (pages : List HeldPage) (c0 : Core) (v : VView) : Nat → Nat → State → FFlags → State × FFlags
  | 0, _, s, fl => (s, fl)
  | n + 1, i, s, fl =>
    let mb := if a.m = 0 then ⟨1, none⟩ else c0.maskBit v a.m i
    let put := fun (st : State) (e : Elem) => st.setCore (coreOf q) ((st.core (coreOf q)).putElem v a.data v.w i e)
    if slotAlive s q = false then (s, fl)
    else if a.store then
      if mb.bits = 1 then
        let r := a.storeElem s q pages c0 v i mb.poison
        a.run q pages c0 v n (i + 1) r.1 (fl ||| r.2)
      else a.run q pages c0 v n (i + 1) s fl
    else
      match mb.poison with
      | some t => a.run q pages c0 v n (i + 1) (put s ⟨0, some t⟩) fl
      | none =>
        if mb.bits = 1 then
          let r := a.loadElem s q pages c0 v i
          a.run q pages c0 v n (i + 1) (put r.2 r.1.elem) (fl ||| r.1.flags)
        else a.run q pages c0 v n (i + 1) (if v.mp then put s ⟨0, none⟩ else s) fl

/-- Blocks of a microscaling store from block j on, n of them. -/
def VAcc.runBlocks (a : VAcc) (q : Nat) (pages : List HeldPage) (c0 : Core) (v : VView) : Nat → Nat → State → FFlags → State × FFlags
  | 0, _, s, fl => (s, fl)
  | n + 1, j, s, fl =>
    if slotAlive s q = false then (s, fl)
    else
      let r := a.storeBlock s q pages c0 v j
      a.runBlocks q pages c0 v n (j + 1) r.1 (fl ||| r.2)

/-- Whether an access is a microscaling store. -/
def VAcc.blocks (a : VAcc) : Bool :=
  a.store && match a.form with | .narrow f _ _ _ => f.isMx | _ => false

/-- The bits that an access writes from the view's P to its VL, in the order of the elements: the first bit of each in key space, its width, and
whether what it writes there is unpoisoned (06_vector_access R154, R160). -/
def VAcc.written (a : VAcc) (s : State) (q : Nat) (pages : List HeldPage) (c : Core) (v : VView) : List (Nat × Nat × Bool) :=
  let key := fun (va : Nat) => heldKey s (laneAgent s q va) pages va
  if a.blocks then
    (List.range ((v.vl - v.p) / 32)).flatMap fun b =>
      let i := v.p + 32 * b
      let clean := (List.range 32).all fun t => (c.elem v a.data v.w (i + t)).poison.isNone
      (key ((a.scaleAt i).getD 0) * 8, 8, clean) :: (List.range 32).map fun t =>
        let pl := a.place c v (i + t)
        (key pl.1 * 8 + pl.2, a.width v, clean)
  else
    (a.elems c v).map fun i =>
      let pl := a.place c v i
      (key pl.1 * 8 + pl.2, a.width v, (c.elem v a.data v.w i).poison.isNone && (a.m == 0 || (c.maskBit v a.m i).poison.isNone))

/-- The granules that a run of bits lies in, by its first bit in key space and its width. -/
def bitGranules (r : Nat × Nat × Bool) : List Nat := [r.1 / 512, (r.1 + r.2.1 - 1) / 512].eraseDups

/-- Whether runs of bits, the last of which count, cover a granule with unpoisoned data (06_vector_access R154, R160). -/
def coversClean (rs : List (Nat × Nat × Bool)) (g : Nat) : Bool :=
  (List.range 256).all fun t =>
    match rs.reverse.find? fun r => decide (r.1 ≤ 512 * g + 2 * t) && decide (512 * g + 2 * t < r.1 + r.2.1) with
    | some r => r.2.2
    | none => false

/-- The granules all of whose bytes one access has written with unpoisoned data lose their poison (06_vector_access R160): s0 and s are the states before
and after an element group, and b keeps what the access has written before it, in granules whose poison no other access has changed since. -/
def VAcc.clean (a : VAcc) (s0 s : State) (q : Nat) (b : Probed) (c : Core) (v : VView) : State × Probed :=
  if a.add then (s, b)
  else
    let stands := fun (g : Nat) => b.seen.any fun x => x.1 == g && x.2 == tabFind s0.poison g
    let rs := (b.wrote.filter fun r => (bitGranules r).all stands) ++ a.written s0 q b.pages c v
    let s1 := { s with poison := s.poison.filter fun e => !coversClean rs e.1 }
    (s1, { b with wrote := rs, seen := ((rs.flatMap bitGranules).eraseDups).map fun g => (g, tabFind s1.poison g) })

/-- The tag of the first poisoned element, or block, that an access would store where memory cannot hold poison (19_shroud R411, R412). -/
def VAcc.lost (a : VAcc) (s : State) (q : Nat) (pages : List HeldPage) (c : Core) (v : VView) : Option PTag :=
  let refuses := fun (r : Nat × Nat) => [r.1, r.1 + r.2 - 1].any fun x => !holdsPoison s (heldKey s (laneAgent s q r.1) pages x)
  let tagOf := fun (i : Nat) => lowerTag (if a.m = 0 then none else (c.maskBit v a.m i).poison) (c.elem v a.data v.w i).poison
  if a.store = false then none
  else (a.elems c v).findSome? fun i =>
    if a.blocks then
      if (a.ranges c v i).any refuses then (List.range 32).foldl (fun t j => lowerTag t (c.elem v a.data v.w (i / 32 * 32 + j)).poison) none else none
    else if refuses (a.range c v i) then tagOf i else none

/-- The beats of an access over some elements (06_vector_access R153). -/
def VAcc.beats (a : VAcc) (s : State) (q : Nat) (c : Core) (v : VView) (is : List Nat) : Nat :=
  let n := (s.slot q).laneCount
  let per := if a.add then 2 else 4
  let spread := match a.form with
    | .unit | .narrow _ _ _ _ => 0
    | _ => (List.range n).foldl (fun b g => max b (((is.filter fun i => (a.place c v i).1 / 256 % 8 % n == g).length + per - 1) / per)) 0
  max 1 (max ((is.length * v.w + 2047) / 2048) spread)

/-- What an element group of an access comes to: the state, the flags, and the next progress index when the access goes on, with what
the access knows from its Probe on. -/
structure AccStep where
  st : State
  flags : FFlags
  more : Option Nat
  probed : Probed

/-- The next element group of an access that has passed its check (06_vector_access R149, R150, R158). A block of a microscaling store that a short
delivery leaves incomplete is not stored (DESIGN CHOICE, log 92). -/
def VAcc.group (a : VAcc) (s : State) (q : Nat) (b : Probed) (v : VView) : AccStep :=
  let c := s.core (coreOf q)
  if v.vl ≤ v.p then ⟨s, 0, none, b⟩
  else
    let e := a.groupEnd c v
    let r := if a.blocks then a.runBlocks q b.pages c v ((e - v.p) / 32) (v.p / 32) s 0 else a.run q b.pages c v (e - v.p) v.p s 0
    if slotAlive r.1 q = false then ⟨r.1, 0, none, b⟩
    else if a.store then
      let y := a.clean s r.1 q b c { v with vl := e }
      ⟨y.1, r.2, if e < v.vl then some e else none, y.2⟩
    else if e < v.vl then ⟨r.1, r.2, some e, b⟩
    else
      let k := coreOf q
      ⟨r.1.setCore k ((r.1.core k).tail v (.reg a.data v.w) (v.size (2 ^ v.g) v.w)), r.2, none, b⟩

/-- Whether an entry may touch a byte of a range (09_guard R231; 06_vector_access R154): an access by the addresses of its elements, whatever its
mask; an indexed access, whose indexes older entries may still write, and a KST, whose row is not known, by any. -/
def VEntry.mayTouch (s : State) (q : Nat) (e : VEntry) (r : Nat × Nat) : Bool :=
  e.kind == .instr && (wordIsKst e.word || match rowAcc e with
    | some a => (match a.form with
      | .indexed _ => true
      | _ =>
        let v := VView.of (s.slot q) e
        ((List.range v.vl).filter fun i => decide (v.p ≤ i)).any fun i => (a.ranges (s.core (coreOf q)) v i).any fun x => sameBytes s q x r)
    | none => false)

/-- Whether the vector queue of slot q holds an access from before a place in program order that may touch a byte of a range (09_guard R231). -/
def vectorMayTouch (s : State) (q n : Nat) (r : Nat × Nat) : Bool := (s.slot q).vq.any fun e => decide (e.ord < n) && e.mayTouch s q r

end Sys2Proof.Machine
end

