-- ==== Sys2Proof/Machine/Stream.lean ====
section
/-! DEFINITION. Stream specifications and their kinds (08_stream R198 to R213), reads and writes of an engine (R215, R224), and the
delivery of stream elements into bound register groups (R205, R206). -/

namespace Sys2Proof.Machine

/-- Fields of a specification (08_stream R198, R199). -/
def sHdr (p : List Word) : Word := wordAt p 0
def sUie (p : List Word) : Bool := (sHdr p).getLsbD 3
def sCw (p : List Word) : Bool := (sHdr p).getLsbD 4
def sSat (p : List Word) : Bool := (sHdr p).getLsbD 5
def sZb (p : List Word) : Bool := (sHdr p).getLsbD 6
def sFmt (p : List Word) : Nat := wbits (sHdr p) 12 8
def sDfmt (p : List Word) : Nat := wbits (sHdr p) 20 16
def sNdim (p : List Word) : Nat := wbits (sHdr p) 23 21
def sSswz (p : List Word) : Nat := wbits (sHdr p) 26 24
def sDswz (p : List Word) : Nat := wbits (sHdr p) 29 27
def sSrc (p : List Word) : Word := wordAt p 1
def sDst (p : List Word) : Word := wordAt p 2
def sCount (p : List Word) : Nat := (wordAt p 3).toNat
def sGuard (p : List Word) : Word := wordAt p 4
def sP28 (p : List Word) : Word := wordAt p 5
def sP30 (p : List Word) : Word := wordAt p 6
def sP38 (p : List Word) : Word := wordAt p 7

/-- The source and destination formats of a specification; .i8 stands in for a reserved code. -/
def srcFmt (p : List Word) : EFmt := (streamFmt (sFmt p)).getD (.int true 8)
def dstFmt (p : List Word) : EFmt := (streamFmt (sDfmt p)).getD (.int true 8)

/-- Whether a kind accepts a format code (08_stream R201). -/
def kindAccepts (kind code : Nat) : Bool :=
  match streamFmt code with
  | none => false
  | some f =>
    match kind with
    | 0 => true
    | 1 => !f.isMx
    | 2 => !f.isMx && decide (8 ≤ f.width)
    | 3 => code == 0x17
    | 4 => code == 0x16 || code == 0x17
    | 5 | 6 => true
    | _ => code == 0 || code == 1 || code == 8 || code == 0x10 || code == 0x14

/-- The first offending field of a specification (08_stream R199, R201, R209 to R213, R218; 16_mesh R373; 18_bucket R399; 00_scope
R460), for SOPEN or for a copy. What R399 checks against a table descriptor is checked with it. A field within PARAM, an extent or a stride, is
charged to the 8-byte word of PARAM in which it stands, at 0x28, 0x30 or 0x38 (DESIGN CHOICE, log 98). The bits of PARAM that R212 and R213 do not
name shall be zero (DESIGN CHOICE, log 110), as shall the words of PARAM that a LINEAR specification with a microscaling format has no use for (DESIGN
CHOICE, log 111). -/
def specBadField (p : List Word) (copy : Bool) : Option Nat :=
  let k := specKind p
  let nd := sNdim p
  let w := (srcFmt p).width
  let strides := (sP30 p).toNat + (sP38 p).toNat * 2 ^ 64
  let checks : List (Nat × Bool) :=
    [(0x00, wbits (sHdr p) 63 30 == 0 && wbits (sHdr p) 15 13 == 0 && wbits (sHdr p) 7 7 == 0 && decide (sSswz p ≤ 4) &&
        decide (sDswz p ≤ 4) && (sCw p || !sUie p) && kindAccepts k (sFmt p) && (if k = 1 then decide (nd ≤ 4) else nd == 0) &&
        (if copy then k != 5 && k != 6 && kindAccepts k (sDfmt p) && (k != 7 || sDfmt p == sFmt p)
         else k != 7 && sDfmt p == 0 && !sCw p)),
     (0x08, k != 6 || sSrc p == 0),
     (0x10, copy || sDst p == 0),
     (0x18, k == 5 || k == 6 || !((srcFmt p).isMx || (copy && (dstFmt p).isMx)) || sCount p % 32 == 0),
     (0x18, k != 1 || decide (8 ≤ w) || sCount p * w % 8 == 0),
     (0x20, wbits (sGuard p) 2 0 == 0),
     (0x28, k != 0 || (srcFmt p).isMx || sP28 p == 0),
     (0x28, k != 1 || (sP28 p).toNat / 2 ^ (16 * nd) == 0),
     (0x28, k != 6 || wbits (sP28 p) 5 0 == 0),
     (0x30, k != 0 || (copy && (dstFmt p).isMx) || sP30 p == 0),
     (0x30, k != 1 || strides % 2 ^ 64 / 2 ^ (32 * nd) == 0),
     (0x30, k != 2 || wbits (sP30 p) 63 1 == 0),
     (0x30, k != 6 || (wbits (sP30 p) 63 25 == 0 && wbits (sP30 p) 21 20 != 3 && (wbits (sP30 p) 21 20 != 0 || sFmt p == 0x16))),
     (0x38, k != 0 || sP38 p == 0),
     (0x38, k != 1 || strides / 2 ^ (max 64 (32 * nd)) == 0),
     (0x38, k != 2 || sP38 p == 0),
     (0x38, k != 3 || (wbits (sP38 p) 63 33 == 0 && ((sP38 p).getLsbD 32 || sCount p == 0))),
     (0x38, k != 4 || wbits (sP38 p) 63 1 == 0),
     (0x38, k != 5 || (wbits (sP38 p) 63 4 == 0 && wbits (sP38 p) 1 0 != 3 &&
        sFmt p == (if wbits (sP38 p) 1 0 = 0 then 0x17 else 0x16))),
     (0x38, k != 6 || sP38 p == 0),
     (0x38, k != 7 || (wbits (sP38 p) 63 1 == 0 && (!(sP38 p).getLsbD 0 || sCount p % 4 == 0)))]
  (checks.find? fun c => !c.2).map (·.1)

/-- The status of an engine access that fails Probe (08_stream R215, R217): a translation failure posts a pager request. -/
def engineMiss (s : State) (ag : Agent) (m : Miss) : Nat × State :=
  if m.why = 0 then (1, pagerPost s ag.asid m.page m.size 0) else (2, s)

/-- A scratchpad key under a swizzle mode (08_stream R224). -/
def swizzleKey (mode key : Nat) : Nat :=
  if isPad key then
    let off := key - Config.padKey
    let b := off / 64 % 16
    key - b * 64 + (b ^^^ (off / 1024 % 16 &&& (2 ^ mode - 1))) * 64
  else key

/-- A read of n bytes under a swizzle mode (08_stream R224), at an address that passes Probe. -/
def readSw (s : State) (ag : Agent) (va n mode : Nat) : Got :=
  if mode = 0 ∨ inWindow s ag.cluster va = false then readVa s ag va n
  else
    (List.range n).foldl (fun g i =>
      match checkAddr g.st ag (va + i) .read with
      | .error _ => g
      | .ok h =>
        let r := readKey g.st (swizzleKey mode h.key) 1
        ⟨g.bytes ++ r.bytes, lowerTag g.poison r.poison, r.st⟩) ⟨[], none, s⟩

/-- A write of bytes under a swizzle mode (08_stream R224), at an address that passes Probe for write. -/
def writeSw (s : State) (q : Home) (ag : Agent) (va : Nat) (bytes : List Byte) (p : Option PTag) (mode : Nat) : State :=
  if mode = 0 ∨ inWindow s ag.cluster va = false then writeVa s q ag va bytes p
  else
    (List.range bytes.length).foldl (fun st i =>
      match checkAddr st ag (va + i) .write with
      | .error _ => st
      | .ok h => writeKey st q ag (swizzleKey mode h.key) [bytes.getD i 0] p) s

/-- No status of R217: a read waits behind the traffic of a link (20_link R431), and its work is tried again. -/
def heldStatus : Nat := 0x80

/-- An engine's read of n bytes, or the status with which its work stops (08_stream R217) or waits. -/
def engRead (s : State) (ag : Agent) (va n mode : Nat) : Except (Nat × State) Got :=
  match probeRange s ag .read va n with
  | m :: _ => .error (engineMiss s ag m)
  | [] =>
    let h := readHolds s ag va n
    if h.isEmpty then .ok (readSw s ag va n mode) else .error (heldStatus, holdReads s h)

/-- What a stream gives next: an element, a metadata halfword that DECODE reads between elements (R213), a stop, a page that fails Probe, a read that
waits for a link (20_link R431), or poison in what it reads as control, which is a sink (19_shroud R412) (DEDUCED, log 66). -/
inductive Fetch where
  | elem (e : Element) (c : StreamCur) (s : State)
  | metadata (md : Nat) (c : StreamCur) (s : State)
  | stop (status : Nat) (inB : Bool) (s : State)
  | miss (m : Miss) (s : State)
  | held (s : State)
  | sink (t : PTag) (s : State)

/-- A stream's read of n bytes, or what ends its fetch (08_stream R217; 20_link R431). -/
def streamRead (s : State) (ag : Agent) (va n mode : Nat) : Except Fetch Got :=
  match probeRange s ag .read va n with
  | m :: _ => .error (.miss m s)
  | [] =>
    let h := readHolds s ag va n
    if h.isEmpty then .ok (readSw s ag va n mode) else .error (.held (holdReads s h))

/-- A read of control data by an engine: its number, or the end of the fetch. -/
def engControl (s : State) (ag : Agent) (va n mode : Nat) (k : Nat → State → Fetch) : Fetch :=
  match streamRead s ag va n mode with
  | .error f => f
  | .ok g =>
    match g.poison with
    | some t => .sink t g.st
    | none => k (leNat g.bytes) g.st

/-- An element of w bits at a bit offset from an address (06_vector_access R162), with the scale byte at another address. -/
def fetchAt (s : State) (ag : Agent) (p : List Word) (base : Word) (bit : Nat) (scale : Option Word) (c : StreamCur) : Fetch :=
  let w := (srcFmt p).width
  let va := (base + BitVec.ofNat 64 (bit / 8)).toNat
  match streamRead s ag va ((bit % 8 + w + 7) / 8) (sSswz p) with
  | .error f => f
  | .ok g =>
    let bits := leNat g.bytes / 2 ^ (bit % 8) % 2 ^ w
    match scale with
    | none => .elem ⟨BitVec.ofNat 64 (if g.poison.isSome then 0 else bits), g.poison, 127⟩ { c with n := c.n + 1 } g.st
    | some a =>
      match streamRead g.st ag a.toNat 1 (sSswz p) with
      | .error f => f
      | .ok h =>
        let sc := leNat h.bytes
        let zero := sZb p && sc == 0 && h.poison.isNone
        let t := if zero then none else lowerTag g.poison h.poison
        .elem ⟨BitVec.ofNat 64 (if t.isSome then 0 else bits), t, sc⟩ { c with n := c.n + 1 } h.st

/-- The next element of a LINEAR stream (08_stream R209). -/
def nextLinear (s : State) (ag : Agent) (p : List Word) (c : StreamCur) : Fetch :=
  if sCount p ≤ c.n then .stop 0 false s
  else
    let sc := if (srcFmt p).isMx then some (sP28 p + BitVec.ofNat 64 (c.n / 32)) else none
    fetchAt s ag p (sSrc p) (c.n * (srcFmt p).width) sc c

/-- Extent and signed stride of dimension d ≥ 1 of a TENSOR (08_stream R209). -/
def tensorExtent (p : List Word) (d : Nat) : Nat := (sP28 p).toNat / 2 ^ (16 * (d - 1)) % 2 ^ 16
def tensorStride (p : List Word) (d : Nat) : Int :=
  signedOf 32 (((sP30 p).toNat + (sP38 p).toNat * 2 ^ 64) / 2 ^ (32 * (d - 1)) % 2 ^ 32)

/-- The byte offset of the row of a TENSOR that holds row number r, over dimensions d to d + n − 1 (08_stream R209). -/
def tensorOffset (p : List Word) : Nat → Nat → Nat → Int
  | 0, _, _ => 0
  | n + 1, d, r =>
    let e := tensorExtent p d
    (if e = 0 then 0 else (r % e : Nat) * tensorStride p d) + tensorOffset p n (d + 1) (if e = 0 then 0 else r / e)

/-- The elements of a TENSOR (08_stream R209). -/
def tensorCount (p : List Word) : Nat := (List.range (sNdim p)).foldl (fun n d => n * tensorExtent p (d + 1)) (sCount p)

/-- The next element of a TENSOR stream (08_stream R209). -/
def nextTensor (s : State) (ag : Agent) (p : List Word) (c : StreamCur) : Fetch :=
  if tensorCount p ≤ c.n then .stop 0 false s
  else
    let row := sSrc p + BitVec.ofInt 64 (tensorOffset p (sNdim p) 1 (c.n / sCount p))
    fetchAt s ag p row (c.n % sCount p * (srcFmt p).width) none c

/-- The next element of a GATHER stream (08_stream R210). -/
def nextGather (s : State) (ag : Agent) (p : List Word) (c : StreamCur) : Fetch :=
  if sCount p ≤ c.n then .stop 0 false s
  else
    let n := if (sP30 p).getLsbD 0 then 8 else 4
    let size := (srcFmt p).width / 8
    engControl s ag (sP28 p + BitVec.ofNat 64 (c.n * n)).toNat n (sSswz p) fun i s1 =>
      let a := sSrc p + BitVec.ofNat 64 (i * size)
      if a.toNat % size ≠ 0 then .stop 6 false s1 else fetchAt s1 ag p a 0 none c

/-- A coordinate word, checked against its predecessor (08_stream R211). A poisoned place gives a poisoned element. -/
def coordWord (s : State) (ag : Agent) (p : List Word) (row : Nat) (rp : Option PTag) (j : Nat) (c : StreamCur) : Fetch :=
  match streamRead s ag (sP30 p + BitVec.ofNat 64 (4 * j)).toNat 4 (sSswz p) with
  | .error f => f
  | .ok g =>
    let w := row * 2 ^ 32 + leNat g.bytes
    match lowerTag rp g.poison with
    | some t => .elem ⟨0, some t, 127⟩ { c with n := c.n + 1 } g.st
    | none =>
      if (match c.ka with | some k => decide (w ≤ k) | none => false) then .stop 3 false g.st
      else .elem ⟨BitVec.ofNat 64 w, none, 127⟩ { c with n := c.n + 1, ka := some w } g.st

/-- The next element of a CSR walk, over the rows that remain (08_stream R211): a is the row, b the place in it. -/
def nextCsr (ag : Agent) (p : List Word) : Nat → State → StreamCur → Fetch
  | 0, s, _ => .stop 0 false s
  | n + 1, s, c =>
    engControl s ag (sP28 p + BitVec.ofNat 64 (4 * c.a)).toNat 4 (sSswz p) fun p0 s1 =>
      engControl s1 ag (sP28 p + BitVec.ofNat 64 (4 * (c.a + 1))).toNat 4 (sSswz p) fun p1 s2 =>
        if p1 < p0 then .stop 3 false s2
        else if p0 + c.b < p1 then coordWord s2 ag p c.a none (p0 + c.b) { c with b := c.b + 1 }
        else nextCsr ag p n s2 { c with a := c.a + 1, b := 0 }

/-- The next element of a COORD stream (08_stream R211). -/
def nextCoord (s : State) (ag : Agent) (p : List Word) (c : StreamCur) : Fetch :=
  if (sP38 p).getLsbD 32 then
    if sCount p ≤ c.n then .stop 0 false s
    else
      match streamRead s ag (sP28 p + BitVec.ofNat 64 (4 * c.n)).toNat 4 (sSswz p) with
      | .error f => f
      | .ok g => coordWord g.st ag p (leNat g.bytes) g.poison c.n c
  else nextCsr ag p (wbits (sP38 p) 31 0 - c.a) s c

/-- The next element of a MERGE stream (08_stream R212): a and b are the places in the lists, ka and kb the keys before them. Where both lists fall, LIST
names list A, which is read first (DESIGN CHOICE, log 112). -/
def nextMerge (ag : Agent) (p : List Word) : Nat → State → StreamCur → Fetch
  | 0, s, _ => .stop 0 false s
  | n + 1, s, c =>
    let size := (srcFmt p).width / 8
    let both := (sP38 p).getLsbD 0
    let endA := decide (sCount p ≤ c.a)
    let endB := decide ((sP30 p).toNat ≤ c.b)
    let falls := fun (k : Option Nat) (x : Nat) => match k with | some y => decide (x ≤ y) | none => false
    let give := fun (x : Nat) (c' : StreamCur) (s' : State) =>
      Fetch.elem ⟨BitVec.ofNat 64 x, none, 127⟩ { c' with n := c.n + 1 } s'
    let readA := fun (s' : State) (k : Nat → State → Fetch) =>
      engControl s' ag (sSrc p + BitVec.ofNat 64 (c.a * size)).toNat size (sSswz p) fun x s1 =>
        if falls c.ka x then .stop 3 false s1 else k x s1
    let readB := fun (s' : State) (k : Nat → State → Fetch) =>
      engControl s' ag (sP28 p + BitVec.ofNat 64 (c.b * size)).toNat size (sSswz p) fun x s1 =>
        if falls c.kb x then .stop 3 true s1 else k x s1
    if (endA && endB) || (both && (endA || endB)) then .stop 0 false s
    else if endA then readB s fun y s1 => give y { c with b := c.b + 1, kb := some y } s1
    else if endB then readA s fun x s1 => give x { c with a := c.a + 1, ka := some x } s1
    else readA s fun x s1 => readB s1 fun y s2 =>
      let cA : StreamCur := { c with a := c.a + 1, ka := some x }
      let cB : StreamCur := { c with b := c.b + 1, kb := some y }
      if x = y then give x { cA with b := cB.b, kb := cB.kb } s2
      else if x < y then (if both then nextMerge ag p n s2 cA else give x cA s2)
      else (if both then nextMerge ag p n s2 cB else give y cB s2)

/-- Bit i of the code stream of a DECODE blob, which begins at an offset (08_stream R213), or the end of the fetch: a read past BLOBLEN stops
with status CODE, and poison in the byte read is a sink. -/
def codeBit (s : State) (ag : Agent) (p : List Word) (start i : Nat) : Except Fetch (Nat × State) :=
  let at_ := start + i / 8
  if (sP28 p).toNat ≤ at_ then .error (.stop 4 false s)
  else
    match streamRead s ag (sSrc p + BitVec.ofNat 64 at_).toNat 1 (sSswz p) with
    | .error f => .error f
    | .ok g =>
      match g.poison with
      | some t => .error (.sink t g.st)
      | none => .ok (leNat g.bytes / 2 ^ (i % 8) % 2, g.st)

/-- The next n bits of a code stream as a number, the first of them lowest (08_stream R213). -/
def codeBits (ag : Agent) (p : List Word) (start : Nat) : Nat → Nat → State → Except Fetch (Nat × State)
  | 0, _, s => .ok (0, s)
  | n + 1, i, s => do
    let (b, s1) ← codeBit s ag p start i
    let (v, s2) ← codeBits ag p start n (i + 1) s1
    return (b + 2 * v, s2)

/-- The table of a prefix code from its counts (08_stream R213): for each length its first code, its first symbol and its count;
none when a length holds too many codes. -/
def codeTable (cnt : Nat → Nat) : Nat → Nat → Nat → Nat → Option (List (Nat × Nat × Nat))
  | 0, _, _, _ => some []
  | n + 1, l, c, off =>
    if 2 ^ l < c + cnt l then none
    else (codeTable cnt n (l + 1) ((c + cnt l) * 2) (off + cnt l)).map ((c, off, cnt l) :: ·)

/-- Match one code from a bit on (08_stream R213): the symbol's index, the bit after the code, and the state. -/
def matchCode (ag : Agent) (p : List Word) (start : Nat) : List (Nat × Nat × Nat) → Nat → Nat → State → Except Fetch (Nat × Nat × State)
  | [], _, _, s => .error (.stop 4 false s)
  | (first, base, n) :: rest, v, i, s => do
    let (b, s1) ← codeBit s ag p start i
    let v' := v * 2 + b
    if first ≤ v' ∧ v' - first < n then return (base + v' - first, i + 1, s1) else matchCode ag p start rest v' (i + 1) s1

/-- One symbol of a DECODE copy, or the metadata that precedes it (08_stream R213), after the counts: tab is the table of its code. -/
def decodeSymbol (s : State) (ag : Agent) (p : List Word) (c : StreamCur) (tab : List (Nat × Nat × Nat)) (start : Nat) : Except Fetch Fetch := do
  if (sP38 p).getLsbD 0 && c.n % 4 == 0 && c.b == c.n / 4 then
    let (md, s1) ← codeBits ag p start 12 c.a s
    return .metadata md { c with a := c.a + 12, b := c.b + 1 } s1
  else
    let (sym, i, s1) ← matchCode ag p start tab 0 c.a s
    let (x, s2) ← codeBits ag p (0x20 + sym) 8 0 s1
    return .elem ⟨BitVec.ofNat 64 x, none, 127⟩ { c with n := c.n + 1, a := i } s2

/-- The next symbol of a DECODE copy (08_stream R213): a is the next bit of the code stream, b the number of metadata halfwords read. A blob whose
counts name code length 0, or more than 256 symbols, ends with status CODE (DEDUCED, log 18). Poison in the bytes read is a sink. -/
def nextDecode (s : State) (ag : Agent) (p : List Word) (c : StreamCur) : Fetch :=
  if (sP28 p).toNat < 0x20 then .stop 4 false s
  else
    match streamRead s ag (sSrc p).toNat 0x20 (sSswz p) with
    | .error f => f
    | .ok h =>
      match h.poison with
      | some t => .sink t h.st
      | none =>
        let cnt := fun l => leNat ((h.bytes.drop (2 * l)).take 2)
        let syms := (List.range 16).foldl (fun n l => n + cnt l) 0
        match codeTable cnt 15 1 0 0 with
        | none => .stop 4 false h.st
        | some tab =>
          if cnt 0 ≠ 0 ∨ 256 < syms then .stop 4 false h.st
          else if sCount p ≤ c.n then .stop 0 false h.st
          else match decodeSymbol h.st ag p c tab (0x20 + (syms + 7) / 8 * 8) with
            | .ok f => f
            | .error f => f

/-- The next element of a stream of the kinds that a copy accepts (08_stream R201). -/
def nextElement (s : State) (ag : Agent) (p : List Word) (c : StreamCur) : Fetch :=
  match specKind p with
  | 0 => nextLinear s ag p c
  | 1 => nextTensor s ag p c
  | 2 => nextGather s ag p c
  | 3 => nextCoord s ag p c
  | 4 => nextMerge ag p (sCount p + (sP30 p).toNat + 1) s c
  | 7 => nextDecode s ag p c
  | _ => .stop 0 false s

/-- The copy engine that serves a core (08_stream R214). -/
def engineOf (core : Nat) : Nat := core / 4

/-- The agent of a port's reads (08_stream R201, R225): the owner's translation, level and tag, through the copy engine's slice. -/
def portAgent (s : State) (core : Nat) (x : Port) : Agent := { scalarAgent s x.owner with slice := copySlice (engineOf core) }

/-- A port's state replaced. -/
def State.setPort (s : State) (core p : Nat) (x : Port) : State := s.setCore core ((s.core core).setPort p x)

/-- Elements that a port fetches ahead of its consumers (DESIGN CHOICE, log 4: no rule bounds it). -/
def fetchAhead : Nat := 16384

/-- The acquire of a guard word (08_stream R218; 09_guard R241), or with none the acquiring half of GFENCE: the status of a failing one, or poison to
consume. -/
def engineAcquire (s : State) (ag : Agent) (g : Word) : Except (Nat × State) (Option PTag × State) :=
  if g = 0 then .ok (none, s.settleLinks)
  else
    match engRead s ag g.toNat 8 0 with
    | .error e => .error e
    | .ok r => .ok (r.poison, r.st.settleLinks)

/-- What a fetch leaves in a port (08_stream R202, R203): elements below the position to restore are discarded. peek tells what would come next: a
stream that has no further element ends when its last one is delivered. -/
def portTake (ag : Agent) (core p : Nat) (x : Port) (peek : State → StreamCur → Fetch) : Fetch → State
  | .elem e c s1 =>
    let y := if 0 < x.skip then { x with cur := c, skip := x.skip - 1 } else { x with cur := c, fifo := x.fifo ++ [e] }
    match peek s1 c with
    | .stop 0 l _ => s1.setPort core p ({ y with stop := some (0, l) }.settle)
    | _ => s1.setPort core p y
  | .metadata _ c s1 => s1.setPort core p { x with cur := c }
  | .stop st l s1 => s1.setPort core p ({ x with stop := some (st, l), skip := 0 }.settle)
  | .miss m s1 =>
    let r := engineMiss s1 ag m
    r.2.setPort core p ({ x with stop := some (r.1, false), skip := 0 }.settle)
  | .held s1 => s1
  | .sink t s1 => sink (s1.setPort core p x) x.owner t

/-- Whether a port may fetch now: it is open, has not stopped, and has room. -/
def Port.fetching (x : Port) : Bool := (x.st == .opened || x.st == .bound) && x.stop.isNone && decide (x.fifo.length < fetchAhead)

/-- Whether an access that precedes the SOPEN of a port is to be performed before its first read (09_guard R247). -/
def portWaits (s : State) (x : Port) : Bool := startWaits s (.slot x.owner) x.op (x.acquire && sGuard x.spec == 0)

/-- A fetch of one element by the copy engine for a port of a kind that it serves (08_stream R202, R209 to R212): the acquire of
SOPEN first (R218). -/
def portFetch (s : State) (core p : Nat) : State :=
  let x := (s.core core).port p
  if x.fetching = false ∨ specKind x.spec = 5 ∨ specKind x.spec = 6 ∨ portWaits s x = true then s
  else
    let ag := portAgent s core x
    if x.acquire then
      match engineAcquire s ag (sGuard x.spec) with
      | .error (st, s1) => if st = heldStatus then s1 else s1.setPort core p ({ x with acquire := false, stop := some (st, false) }.settle)
      | .ok (some t, s1) => sink s1 x.owner t
      | .ok (none, s1) => s1.setPort core p { x with acquire := false }
    else
      let y := if specKind x.spec ≤ 2 ∧ 0 < x.skip then { x with cur := { StreamCur.start with n := x.skip }, skip := 0 } else x
      portTake ag core p y (fun st c => nextElement st ag y.spec c) (nextElement s ag y.spec y.cur)

/-- An element in the form that a bound register takes (08_stream R206; 06_vector_access R163), under a view's type: a wide format has the width
of the register, whatever kind its consumer reads, and its bits stay. -/
def deliverElem (v : VView) (p : List Word) (e : Element) : ElemRes :=
  match e.poison with
  | some t => ⟨⟨0, some t⟩, 0⟩
  | none =>
    let f := srcFmt p
    let bits := e.bits.toNat
    if sFmt p < 0xA then
      let y := (EFmt.flt v.fmt).narrow v.frm (sSat p && f.isMx) (f.value bits e.scale (sZb p))
      ⟨⟨y.1, none⟩, y.2⟩
    else if sFmt p < 0xC then ⟨⟨intBits v.w (signedOf f.width bits), none⟩, 0⟩
    else ⟨⟨bits, none⟩, 0⟩

/-- The positions that a delivery fills (08_stream R205): those below VL that are active under MEN and MSEL. -/
def needOf (c : Core) (v : VView) : List Nat :=
  let men := v.vcfg.getLsbD 11
  let m := v.vcfg.toNat / 2 ^ 8 % 8
  (List.range v.vl).filter fun i => !men || c.active v m i

/-- Whether a port can deliver to an entry now (08_stream R205). -/
def Port.canDeliver (x : Port) (need : Nat) : Bool := decide (need ≤ x.fifo.length) || x.stop.isSome || x.st == .ended

/-- A delivery (08_stream R205): the core with the group filled and the port drained, the flags, and VL when it is trimmed. Under VL 0 the
instruction writes nothing (05_vector R120) (DEDUCED, log 32). -/
def deliver (c : Core) (v : VView) (p : Nat) : Core × FFlags × Option Nat :=
  if v.vl = 0 then (c, 0, none) else
  let x := c.port p
  let need := needOf c v
  let r := min x.fifo.length need.length
  let c1 := ((need.take r).zip x.fifo).foldl (fun (a : Core × FFlags) ie =>
    let y := deliverElem v x.spec ie.2
    (a.1.putElem v x.bindReg v.w ie.1 y.elem, a.2 ||| y.flags)) (c, 0)
  let vl := if r < need.length then (need.getD (r - 1) 0) + 1 else v.vl
  let filled := need.take r
  let c2 := if v.mp then
      ((List.range vl).filter fun i => !filled.contains i).foldl (fun (a : Core) i => a.putElem v x.bindReg v.w i ⟨0, none⟩) c1.1
    else c1.1
  let c3 := c2.tail { v with vl := vl } (.reg x.bindReg v.w) (v.size (2 ^ x.bindG) v.w)
  (c3.setPort p ({ x with fifo := x.fifo.drop r, pos := x.pos + r }.settle), c1.2, if vl < v.vl then some vl else none)

/-- The tile-queue ports that an instruction reads (07_tile R176). -/
def portsRead : Instr → List Nat
  | .tmma _ a b _ | .tmmaf _ a b _ | .tmmag _ a b _ | .tmmas _ a b _ _ => [a.toNat, b.toNat]
  | _ => []

/-- Whether a port delivers to an entry of its slot's vector queue from before a place in program order that has not begun, or to such a tile entry
(08_stream R204, R205; 07_tile R176). -/
def portAwaited (s : State) (q p n : Nat) : Bool :=
  let x := (s.core (coreOf q)).port p
  (x.isBound && (s.slot q).vq.any fun e => e.kind == .instr && e.p == 0 && decide (e.ord < n) && match e.shape with
    | some h => h.srcs.any fun g => g.1.overlaps ⟨x.bindReg, 2 ^ x.bindG, 0⟩
    | none => false) ||
  (tilesOf s q).any fun e => decide (e.ord < n) && match decodeToRow e.word with
    | .ok (.instr i) => (portsRead i).contains p
    | _ => false

/-- The results of the SSTATs of slot q all of whose earlier deliveries are done (08_stream R204). -/
def landStats (s : State) (q : Nat) : State :=
  (portsOf s q).foldl (fun st p =>
    let c := st.core (coreOf q)
    let x := c.port p
    let due := x.stats.filter fun d => !portAwaited s q p d.2
    if due.isEmpty then st
    else
      (st.setCore (coreOf q) (c.setPort p { x with stats := x.stats.filter fun d => portAwaited s q p d.2 })).setSlot q
        (due.foldl (fun (y : Slot) d => y.landAt d.1 x.statusWord none) (st.slot q))) s

/-- The results of the SSTATs of a core's slots that are due (08_stream R204). -/
def landCoreStats (s : State) (core : Nat) : State := (slotsOfCore core).foldl landStats s

end Sys2Proof.Machine
end

