-- ==== Sys2Proof/Machine/Engine.lean ====
section
/-! DEFINITION. What engines have in common (04_sequencer R109; 08_stream R216 to R220; 10_context R256): the delivery of a result
to the context that issued the work, wherever it stands, the release of a guard word, and poison that an engine consumes. -/

namespace Sys2Proof.Machine

/-- One byte lane of an image's word OR-ed with bits: the atomic update of R256. -/
def imageOr (s : State) (k off : Nat) (bits : Word) : State := physPut s (k + off) (physWord s (k + off) ||| bits)

/-- The image at a key with a result in a register's word and PSN halfword (10_context R256). -/
def imageLand (s : State) (k i : Nat) (v : Word) (p : Option PTag) : State :=
  if i = 0 then s
  else
    let off := if i < 64 then 0xC0 + 8 * i else 0x2C0 + 8 * (i - 64)
    physPutLE (physPut s (k + off) (if p.isSome then 0 else v)) (k + 0xF40 + 2 * i) 2 (psnOf p)

/-- COPIES of the image at a key falls by one (10_context R256). -/
def imageCopyDone (s : State) (k : Nat) : State :=
  let w := physWord s (k + 0x40 + 12 * 8)
  if wbits w 15 8 = 0 then s else physPut s (k + 0x40 + 12 * 8) (w - 0x100)

/-- One copy or command of a context is complete (04_sequencer R109; 10_context R256): its result lands, its flags accumulate
(08_stream R219), it may raise interrupt 0x20 (R220), and COPIES falls, in an image whose context has ended too (12_kernel R305). -/
def engineDone (s : State) (h : Home) (dest : Nat) (v : Word) (p : Option PTag) (flags : FFlags) (uie : Bool) : State :=
  match h with
  | .slot q =>
    let x := (s.slot q).landAt dest v p
    s.setSlot q
      { x with
        fflags := x.fflags ||| flags, uistat := { x.uistat with pcopy := x.uistat.pcopy || uie }
        cnt := { x.cnt with copies := x.cnt.copies - 1 } }
  | .image k =>
    let s1 := imageLand s k dest v p
    let s2 := if flags = 0 then s1 else imageOr s1 k 0x40 (flags.setWidth 64)
    let s3 := if uie then imageOr s2 k (0x40 + 7 * 8) 0x20000 else s2
    imageCopyDone s3 k
  | .ended _ _ (some k) => imageCopyDone s k
  | .ended _ _ none | .gone => s

/-- Poison that an engine consumes for a context or a task (19_shroud R412, R413). Under tag 0 a task of no context is cancelled
alone (14_queue R333). -/
def engineSink (s : State) (h : Home) (task : Option (Nat × Nat)) (ag : Agent) (t : PTag) (key : Nat) : State :=
  let s1 := sinkFor s h ag t key
  match task with
  | some (queue, pos) =>
    if ag.tag = 0 then (match findTask s1 queue pos with | some x => admitTop (cancelTask s1 x) | none => s1) else s1
  | none => s1

/-- Whether the release of a guard word can be performed (08_stream R218): its status, 0 when it can. -/
def guardStatus (s : State) (ag : Agent) (g : Word) : Nat × State :=
  if g = 0 then (0, s)
  else
    match probeRange s ag .update g.toNat 8 with
    | m :: _ => engineMiss s ag m
    | [] => (0, s)

/-- The release of a guard word (08_stream R218; 09_guard R241): one added to it; a poisoned word is a sink. -/
def guardRelease (s : State) (h : Home) (task : Option (Nat × Nat)) (ag : Agent) (g : Word) : State :=
  if g = 0 ∨ probeRange s ag .update g.toNat 8 ≠ [] then s
  else
    let r := readVa s ag g.toNat 8
    match r.poison with
    | some t => engineSink r.st h task ag t (keyOfVa s ag g.toNat .write)
    | none => writeVa r.st h ag g.toNat (leBytes 8 ((leNat r.bytes + 1) % 2 ^ 64)) none

/-- Go on unless COPIES would pass 255 (04_sequencer R108). -/
def whenCopyRoom (s : State) (q : Nat) (k : State) : State :=
  if (s.slot q).cnt.copies < 255 then k else s.stallSlot q .counterFull

/-- The state after the scalar side of slot q passes on a copy or command (04_sequencer R81, R108): sd pending, COPIES raised. -/
def countCopy (s : State) (q dest : Nat) : State :=
  let x := (s.slot q).markPending dest .engine
  s.setSlot q { x with cnt := { x.cnt with copies := x.cnt.copies + 1 } }

end Sys2Proof.Machine
end

