-- ==== Sys2Proof/Machine/TileStore.lean ====
section
/-! DEFINITION. The accumulator store (07_tile R166, R177 to R183, R189, R194; 00_scope R9 to R11; 02_numbers R52 to R54): cells and
their classes, products, headroom, the reef and its log, a step in block-floating-point and in FP64 mode, and the addition of
partial tiles. -/

namespace Sys2Proof.Machine

/-- The 62-bit mantissa of a cell (02_numbers R52). -/
def cellM (b : Word) : Int := signedOf 62 b.toNat

/-- The class code of a cell (02_numbers R52). -/
def cellClass (b : Word) : Nat := wbits b 63 62

/-- The bits of a finite cell, of an infinite one and of a poisoned one (02_numbers R52). -/
def finiteCell (m : Int) : Word := BitVec.ofNat 64 (intBits 62 m)
def infCell (neg : Bool) : Word := BitVec.ofNat 64 (2 ^ 62 + neg.toNat * 2 ^ 61)
def nanCell : Word := 0x8000000000000000#64
def poisonedCell (t : PTag) : Word := BitVec.ofNat 64 (3 * 2 ^ 62 + t.toNat)

/-- The bits that a write leaves in a cell: zero where the written class has no field (02_numbers R52). -/
def rawCell (b : Word) : Word :=
  match cellClass b with
  | 0 => b
  | 1 => b &&& 0xE000000000000000#64
  | 2 => b &&& 0xC000000000000000#64
  | _ => b &&& 0xC000000000000FFF#64

/-- RSB of a mantissa (00_scope R10): the bits below bit 61 that equal it before the first that differs. -/
def rsb (m : Int) : Nat :=
  let a := if m < 0 then (-m - 1).toNat else m.toNat
  if a = 0 then 61 else 60 - Nat.log2 a

/-- The number of a cell from its row and column. -/
def cellAt (row col : Nat) : Nat := row * 128 + col

/-- The 32 cells of a segment (07_tile R166). -/
def segCells (g : Nat) : List Nat := (List.range 32).map fun i => cellAt (g / 4) (g % 4 * 32 + i)

/-- The core with a cell written. -/
def Core.putCell (c : Core) (i : Nat) (x : AccCell) : Core := { c with acc := tabSet c.acc i x }

/-- The core with a segment's status written. -/
def Core.putSeg (c : Core) (g : Nat) (x : SegStatus) : Core := { c with seg := tabSet c.seg g x }

/-- The headroom of a segment (00_scope R10). -/
def Core.headroom (c : Core) (g : Nat) (empty : Bool) : Nat :=
  if empty then 61
  else (segCells g).foldl (fun h i =>
    let b := (c.cell i).bits
    if cellClass b = 0 then min h (rsb (cellM b)) else h) 61

/-- The core with a segment's HR computed afresh. -/
def Core.reHr (c : Core) (g : Nat) : Core :=
  let x := c.segment g
  c.putSeg g { x with hr := c.headroom g x.empty }

/-- The nearest integer to m / 2^s, ties to even, and whether the division cuts nothing (00_scope R11). -/
def rneShift (m : Int) (s : Nat) : Int × Bool := roundInt .rne (decide (m < 0)) m.natAbs (-(s : Int)) false

/-- The core with a reef appended to its log (00_scope R11; 07_tile R183): by an entry of a core's tile queue, in a segment, of a
shift, for a cause. -/
def Core.logReef (c : Core) (e : TEntry) (rem : Bool) (cause g shift : Nat) : Core :=
  let w := e.seq.toNat * 2 ^ 32 + 2 ^ 31 + e.slot % 8 * 2 ^ 28 + rem.toNat * 2 ^ 27 + cause * 2 ^ 25 + min shift 63 * 2 ^ 19 + g * 2 ^ 10
  let lost := match tabFind c.reefLog (c.reefs % 64) with
    | some old => if c.reefOvf.contains old.tag then c.reefOvf else old.tag :: c.reefOvf
    | none => c.reefOvf
  { c with
    reefLog := tabSet c.reefLog (c.reefs % 64) ⟨BitVec.ofNat 64 w, e.tag⟩, reefs := c.reefs + 1, reefOvf := lost }

/-- Every finite non-zero cell of a segment becomes an infinity and E its greatest value (00_scope R11). -/
def Core.segOverflow (c : Core) (g : Nat) : Core :=
  let c1 := (segCells g).foldl (fun (a : Core) i =>
    let b := (a.cell i).bits
    if cellClass b = 0 ∧ cellM b ≠ 0 then a.putCell i ⟨infCell (decide (cellM b < 0)), none⟩ else a) c
  c1.putSeg g { c1.segment g with exp := 32767 }

/-- Reef(seg, s) (00_scope R11): the core and the flags. -/
def Core.reef (c : Core) (e : TEntry) (rem : Bool) (cause g s : Nat) : Core × FFlags :=
  let r := (segCells g).foldl (fun (a : Core × FFlags) i =>
    let b := (a.1.cell i).bits
    if cellClass b = 0 then
      let y := rneShift (cellM b) s
      (a.1.putCell i ⟨finiteCell y.1, none⟩, a.2 ||| flagIf (!y.2) flagNX)
    else a) (c, 0)
  let x := r.1.segment g
  let r2 : Core × FFlags :=
    if 32767 < x.exp + s then (r.1.segOverflow g, r.2 ||| flagOF) else (r.1.putSeg g { x with exp := x.exp + s }, r.2)
  let y := r2.1.segment g
  let c3 := (r2.1.putSeg g { y with reefCnt := min (y.reefCnt + 1) 0xFFFF }).reHr g
  (c3.logReef e rem cause g s, r2.2)

/-- An operand of a step: a value with its poison (02_numbers R48). -/
structure TVal where
  val : FVal
  poison : Option PTag
  deriving DecidableEq, Repr

/-- A product (07_tile R178). -/
inductive Prod where
  | poisoned (t : PTag)
  | nan
  | inf (neg : Bool)
  | fin (neg : Bool) (m : Nat) (e : Int)
  deriving DecidableEq, Repr

/-- The product of two operands, and NV for a product of zero and an infinity (07_tile R178) or a signalling NaN (02_numbers R29). -/
def prodOf (a b : TVal) : Prod × FFlags :=
  match lowerTag a.poison b.poison with
  | some t => (.poisoned t, 0)
  | none =>
    match fMul a.val b.val with
    | (.nan _, f) => (.nan, f)
    | (.inf n, _) => (.inf n, 0)
    | (.fin n m e _, _) => (.fin n m e, 0)

/-- A cell's class and value as the combination of R178 sees them. -/
inductive CellVal where
  | poisoned (t : PTag)
  | nan
  | inf (neg : Bool)
  | finite
  deriving DecidableEq, Repr

/-- The class of a cell, in either mode (02_numbers R52; 07_tile R181). Each mode looks at its own encoding: under MODE 0b00 the tag in the side
field of a cell does not count, and under MODE 0b01 the bits of a poisoned cell of the other mode are a binary64 value (DESIGN CHOICE, log 95). -/
def AccCell.cls (c : AccCell) (fp64 : Bool) : CellVal :=
  if fp64 then
    match c.side with
    | some t => .poisoned t
    | none => match fmtF64.decode c.bits.toNat with
      | .nan _ => .nan
      | .inf n => .inf n
      | .fin _ _ _ _ => .finite
  else match cellClass c.bits with
    | 0 => .finite
    | 1 => .inf (c.bits.getLsbD 61)
    | 2 => .nan
    | _ => .poisoned (BitVec.ofNat 12 c.bits.toNat)

/-- How a cell and its products combine (07_tile R178). -/
inductive Judged where
  | poisoned (t : PTag)
  | nan (nv : Bool)
  | inf (neg : Bool)
  | kept
  | finite
  deriving DecidableEq, Repr

/-- The lowest tag among some products. -/
def prodTag (ps : List Prod) : Option PTag :=
  ps.foldl (fun t p => match p with | .poisoned u => lowerTag t (some u) | _ => t) none

/-- The first matching row of R178's second table. -/
def judge (cell : CellVal) (ps : List Prod) : Judged :=
  let ct := match cell with | .poisoned t => some t | _ => none
  let pos := ps.contains (.inf false)
  let neg := ps.contains (.inf true)
  match lowerTag ct (prodTag ps) with
  | some t => .poisoned t
  | none =>
    match cell with
    | .nan => .kept
    | .inf n => if ps.contains .nan || (pos && neg) || (if n then pos else neg) then .nan true else .kept
    | _ => if ps.contains .nan || (pos && neg) then .nan true else if pos then .inf false else if neg then .inf true else .finite

/-- The exact sum of finite products as an integer in units of 2^q, for q at or below every exponent. -/
def prodSum (ps : List Prod) (q : Int) : Int :=
  ps.foldl (fun a p => match p with | .fin n m e => a + unitsOf n m e q | _ => a) 0

/-- The least exponent among finite non-zero products. -/
def prodLow (ps : List Prod) : Option Int :=
  ps.foldl (fun a p => match p with
    | .fin _ m e => if m = 0 then a else some (match a with | none => e | some x => min x e)
    | _ => a) none

/-- eh of a product: floor(log2 |p|) + 1 for a finite non-zero one (07_tile R179). -/
def Prod.top : Prod → Option Int
  | .fin _ m e => if m = 0 then none else some ((Nat.log2 m : Int) + e + 1)
  | _ => none

/-- Align of an exact value x × 2^q (00_scope R9): toward zero, and whether it discards nothing. -/
def alignUnits (x q e : Int) : Int × Bool := roundInt .rtz (decide (x < 0)) x.natAbs (q - e) false

/-- Align of the exact sum of the finite products (00_scope R9; 07_tile R178). -/
def alignSum (ps : List Prod) (e : Int) : Int × Bool :=
  match prodLow ps with
  | none => (0, true)
  | some q =>
    let fs := ps.filter fun p => p.top.isSome
    alignUnits (prodSum fs q) q e

/-- One cell of a step in block-floating-point mode (07_tile R178): the cell and the flags. -/
def bfpCell (x : AccCell) (e : Int) (ps : List Prod) : AccCell × FFlags :=
  match judge (x.cls false) ps with
  | .poisoned t => (⟨poisonedCell t, none⟩, 0)
  | .nan nv => (⟨nanCell, none⟩, flagIf nv flagNV)
  | .inf n => (⟨infCell n, none⟩, 0)
  | .kept => (x, 0)
  | .finite =>
    let a := alignSum ps e
    (⟨finiteCell (cellM x.bits + a.1), none⟩, flagIf (!a.2) flagNX)

/-- The least n with x ≤ 2^n (07_tile R179). -/
def ceilLog2 (x : Nat) : Nat := if x ≤ 1 then 0 else Nat.log2 (x - 1) + 1

/-- The reef decision of a step for a segment (07_tile R179): E for an EMPTY segment, a reef, or neither. -/
def Core.decideReef (c : Core) (e : TEntry) (rem : Bool) (g n : Nat) (eh : Option Int) : Core × FFlags :=
  match eh with
  | none => (c, 0)
  | some h =>
    let x := c.segment g
    let top := h + ceilLog2 n
    if x.empty then (c.putSeg g { x with exp := max (top - 61 + e.reefTh.toNat) (-32768) }, 0)
    else
      let d := top - x.exp
      if x.hr = 0 ∨ 60 < d then c.reef e rem 0 g (max (1 - (x.hr : Int)) (d - 60)).toNat else (c, 0)

/-- The cells of a segment in a step: the core, the flags, and whether some cell changed class. -/
def Core.combine (c : Core) (g : Nat) (ps : Nat → List Prod) : Core × FFlags × Bool :=
  let e := (c.segment g).exp
  (List.range 32).foldl (fun (a : Core × FFlags × Bool) i =>
    let k := cellAt (g / 4) (g % 4 * 32 + i)
    let x := a.1.cell k
    match ps i with
    | [] => a
    | l =>
      let y := bfpCell x e l
      (a.1.putCell k y.1, a.2.1 ||| y.2, a.2.2 || cellClass y.1.bits != cellClass x.bits)) (c, 0, false)

/-- One segment of a step in block-floating-point mode (07_tile R179): n products at most for each cell. -/
def Core.bfpSegment (c : Core) (e : TEntry) (rem : Bool) (g n : Nat) (ps : Nat → List Prod) : Core × FFlags :=
  let eh := (List.range 32).foldl (fun (a : Option Int) i =>
    if cellClass (c.cell (cellAt (g / 4) (g % 4 * 32 + i))).bits = 0 then
      (ps i).foldl (fun a p => match a, p.top with
        | some x, some y => some (max x y)
        | none, t => t
        | t, none => t) a
    else a) none
  let r := c.decideReef e rem g n eh
  let m := r.1.combine g ps
  let c2 := if eh.isSome || m.2.2 then m.1.putSeg g { m.1.segment g with empty := false } else m.1
  (c2.reHr g, r.2 ||| m.2.1)

/-- One cell of a step in FP64 mode (07_tile R181): grouped products are summed and rounded before they are added. A NaN cell becomes the
canonical one, with NV when it is signalling (00_scope R8; 02_numbers R29). -/
def fp64Cell (x : AccCell) (mode : RMode) (grouped : Bool) (ps : List Prod) : AccCell × FFlags :=
  match judge (x.cls true) ps with
  | .poisoned t => (⟨x.bits, some t⟩, 0)
  | .nan nv => (⟨0x7FF8000000000000#64, none⟩, flagIf nv flagNV)
  | .inf n => (⟨if n then 0xFFF0000000000000#64 else 0x7FF0000000000000#64, none⟩, 0)
  | .kept =>
    match fmtF64.decode x.bits.toNat with
    | .nan sig => (⟨0x7FF8000000000000#64, none⟩, flagIf sig flagNV)
    | _ => (x, 0)
  | .finite =>
    match ps with
    | .fin n m e :: rest =>
      let s := rest.foldl (fun a p => match p with
        | .fin n m e => (fAdd mode a (.fin n m e false)).1
        | _ => a) (FVal.fin n m e false)
      let y := if grouped then (let r := fmtF64.round mode false s; (fmtF64.decode r.1, r.2)) else (s, 0)
      let z := fmtF64.finish mode (fAdd mode y.1 (fmtF64.decode x.bits.toNat))
      (⟨BitVec.ofNat 64 z.1, none⟩, y.2 ||| z.2)
    | _ => (x, 0)

/-- One segment of a step in FP64 mode (07_tile R181). -/
def Core.fp64Segment (c : Core) (mode : RMode) (grouped : Bool) (g : Nat) (ps : Nat → List Prod) : Core × FFlags :=
  (List.range 32).foldl (fun (a : Core × FFlags) i =>
    let k := cellAt (g / 4) (g % 4 * 32 + i)
    match ps i with
    | [] => a
    | l =>
      let y := fp64Cell (a.1.cell k) mode grouped l
      (a.1.putCell k y.1, a.2 ||| y.2)) (c, 0)

/-- The value of a cell (02_numbers R52; 07_tile R181). -/
def cellValue (x : AccCell) (e : Int) (fp64 : Bool) : FVal :=
  if fp64 then fmtF64.decode x.bits.toNat
  else match x.cls false with
    | .inf n => .inf n
    | .finite => .fin (decide (cellM x.bits < 0)) (cellM x.bits).natAbs e false
    | _ => .qnan

/-- A cell converted into a floating format (02_numbers R54): to nearest even whatever FRM says, with NV for a signalling NaN (R29). -/
def cvtCell (x : AccCell) (e : Int) (fp64 : Bool) (f : Fmt) (sat : Bool) : Nat × FFlags × Option PTag :=
  match x.cls fp64 with
  | .poisoned t => (0, 0, some t)
  | _ =>
    let v := cellValue x e fp64
    let r := f.round .rne sat v
    (r.1, r.2 ||| v.nv, none)

/-- A cell read in raw form, with its poison (07_tile R192). -/
def rawRead (x : AccCell) (fp64 : Bool) : Elem :=
  match x.cls fp64 with
  | .poisoned t => ⟨0, some t⟩
  | _ => ⟨x.bits.toNat, none⟩

/-- A cell as raw bits with poison leave it (02_numbers R52; 07_tile R181, R190, R192). -/
def rawWrite (fp64 : Bool) (bits : Nat) (p : Option PTag) : AccCell :=
  if fp64 then ⟨BitVec.ofNat 64 bits, p⟩
  else match p with
    | some t => ⟨poisonedCell t, none⟩
    | none => ⟨rawCell (BitVec.ofNat 64 bits), none⟩

/-- A source cell of TADDX as a product (07_tile R189). -/
def cellProd (x : AccCell) (e : Int) : Prod :=
  match x.cls false with
  | .poisoned t => .poisoned t
  | .nan => .nan
  | .inf n => .inf n
  | .finite => match cellValue x e false with
    | .fin n m e' _ => .fin n m e'
    | _ => .nan

/-- Whether an exact integer x × 2^q fits a mantissa of weight 2^e once rounded (07_tile R189). -/
def fitsAt (x q e : Int) : Bool :=
  let r := (roundInt .rne (decide (x < 0)) x.natAbs (q - e) false).1
  decide (-(2 ^ 61 : Int) ≤ r ∧ r ≤ 2 ^ 61 - 1)

/-- The least t below a bound for which every sum fits (07_tile R189). -/
def leastShift (xs : List Int) (q f : Int) : Nat → Nat → Nat
  | 0, t => t
  | n + 1, t => if xs.all fun x => fitsAt x q (f + t) then t else leastShift xs q f n (t + 1)

/-- One segment of TADDX in block-floating-point mode (07_tile R189): d is the destination's number, y and cells the source's
status and cells. -/
def Core.addxSegment (c : Core) (ent : TEntry) (d : Nat) (y : SegStatus) (cells : Nat → AccCell) : Core × FFlags :=
  if y.empty then (c, 0)
  else
    let x := c.segment d
    let key := fun (i : Nat) => cellAt (d / 4) (d % 4 * 32 + i)
    let q := min x.exp y.exp
    let sum := fun (i : Nat) =>
      cellM (c.cell (key i)).bits * 2 ^ (x.exp - q).toNat + cellM (cells i).bits * 2 ^ (y.exp - q).toNat
    let verdict := fun (i : Nat) => judge ((c.cell (key i)).cls false) [cellProd (cells i) y.exp]
    let fins := (List.range 32).filter fun i => verdict i == .finite
    let f := if x.empty then y.exp else max x.exp y.exp
    let t := leastShift (fins.map sum) q f (4 + (x.exp - f).toNat) 0
    let e' := f + t
    let r := (List.range 32).foldl (fun (a : Core × FFlags) i =>
      match verdict i with
      | .poisoned t => (a.1.putCell (key i) ⟨poisonedCell t, none⟩, a.2)
      | .nan nv => (a.1.putCell (key i) ⟨nanCell, none⟩, a.2 ||| flagIf nv flagNV)
      | .inf n => (a.1.putCell (key i) ⟨infCell n, none⟩, a.2)
      | .kept => a
      | .finite =>
        let z := roundInt .rne (decide (sum i < 0)) (sum i).natAbs (q - e') false
        (a.1.putCell (key i) ⟨finiteCell z.1, none⟩, a.2 ||| flagIf (!z.2) flagNX)) (c, 0)
    let tooLarge := decide (32767 < e')
    let c2 := r.1.putSeg d { x with exp := e', empty := false }
    let c3 := if tooLarge then c2.segOverflow d else c2
    let reefs := !x.empty && decide (x.exp < e')
    let c4 := if reefs then c3.putSeg d { c3.segment d with reefCnt := min (x.reefCnt + 1) 0xFFFF } else c3
    let c5 := c4.reHr d
    (if reefs then c5.logReef ent false 2 d (e' - x.exp).toNat else c5, r.2 ||| flagIf tooLarge flagOF)

/-- One cell of TADDX in FP64 mode (07_tile R189): Round(cell + source cell), with R29's flags of both; poison as in R181. -/
def addxCell (mode : RMode) (x y : AccCell) : AccCell × FFlags :=
  match lowerTag x.side y.side with
  | some t => (⟨x.bits, some t⟩, 0)
  | none =>
    let z := fmtF64.finish mode (fAdd mode (fmtF64.decode x.bits.toNat) (fmtF64.decode y.bits.toNat))
    (⟨BitVec.ofNat 64 z.1, none⟩, z.2)

/-- One segment of TADDX in FP64 mode (07_tile R189). -/
def Core.addxFp64 (c : Core) (mode : RMode) (d : Nat) (cells : Nat → AccCell) : Core × FFlags :=
  (List.range 32).foldl (fun (a : Core × FFlags) i =>
    let k := cellAt (d / 4) (d % 4 * 32 + i)
    let y := addxCell mode (a.1.cell k) (cells i)
    (a.1.putCell k y.1, a.2 ||| y.2)) (c, 0)

end Sys2Proof.Machine
end

