-- ==== Sys2Proof/Machine/Tile.lean ====
section
/-! DEFINITION. The tile queue and the instructions of major 0x30 (07_tile R169 to R196): the descriptor and its checks, passing an
instruction to the queue, the steps of the matrix unit, loads and stores of tiles, and the moves between a tile and vector
registers. -/

namespace Sys2Proof.Machine

/-- Fields of a tile descriptor (07_tile R169). -/
def tdRowb (d : Word) : Nat := wbits d 6 0
def tdRows (d : Word) : Nat := wbits d 14 8 + 1
def tdSegb (d : Word) : Nat := wbits d 17 16
def tdSegs (d : Word) : Nat := wbits d 21 20 + 1
def tdMode (d : Word) : Nat := wbits d 23 22
def tdAt (d : Word) : Nat := wbits d 27 24
def tdBt (d : Word) : Nat := wbits d 31 28
def tdCols (d : Word) : Nat := 32 * tdSegs d
def tdFp64 (d : Word) : Bool := tdMode d == 1

/-- Whether a pair of operand types is permitted under a mode (07_tile R171). -/
def typesOk (d : Word) : Bool :=
  let int := fun (t : Nat) => t == 1 || t == 2 || t == 3
  if tdMode d = 0 then (tdAt d == 0 && tdBt d == 0) || (int (tdAt d) && int (tdBt d))
  else tdMode d == 1 && tdAt d == 8 && tdBt d == 8

/-- The check of a descriptor (07_tile R170): the cause of the first failure and its TRAPAUX. -/
def descBad (d : Word) (stat reads : Bool) (nrows : Nat) : Option (Nat × Word) :=
  if wbits d 63 32 ≠ 0 ∨ wbits d 19 18 ≠ 0 ∨ wbits d 15 15 ≠ 0 ∨ wbits d 7 7 ≠ 0 ∨ tdMode d = 2 ∨ (tdMode d = 3 ∧ stat = false) ∨
      4 < tdSegb d + tdSegs d ∨ (reads = true ∧ typesOk d = false) then some (0x01, d)
  else if tdMode d ≠ 3 ∧ nrows < tdRowb d + tdRows d then some (0x0A, 0)
  else none

/-- The first row of an entry's tile, and of a descriptor under an accumulator range (07_tile R169). -/
def TEntry.row0 (e : TEntry) : Nat := e.accRow.toNat + tdRowb e.desc

/-- The segments of a tile at a row: each with its row and its first column in the tile (07_tile R169), in ascending order. -/
def tileSegs (d : Word) (row0 : Nat) : List (Nat × Nat × Nat) :=
  (List.range (tdRows d)).flatMap fun r => (List.range (tdSegs d)).map fun j => (4 * (row0 + r) + tdSegb d + j, r, 32 * j)

/-- Which instructions of major 0x30 read ports, and that TSTAT alone takes MODE 0b11 (07_tile R169, R170). -/
def readsPorts : Instr → Bool
  | .tmma _ _ _ _ | .tmmaf _ _ _ _ | .tmmag _ _ _ _ | .tmmas _ _ _ _ _ => true
  | _ => false

def isTstat : Instr → Bool
  | .tstat _ _ => true
  | _ => false

/-- Whether a port's format suits an operand type (08_stream R206). -/
def portType (spec : List Word) (t : Nat) : Bool :=
  let f := sFmt spec
  match t with
  | 0 => f ≤ 9 || f == 0x18
  | 1 => f == 0x10
  | 2 => f == 0xB
  | 3 => f == 0xA
  | _ => f == 0x1B

/-- Whether a port can feed an operand of a type at queue entry (07_tile R176; 08_stream R203, R206). An ENDED port may stand: the step that lacks
data traps (DESIGN CHOICE, log 96). -/
def portFeeds (s : State) (q p t : Nat) : Bool :=
  let x := (s.core (coreOf q)).port p
  decide (x.st ≠ .closed) && x.owner == q && !x.isBound && portType x.spec t

/-- The checks of the operand register of a tile instruction (07_tile R186, R188, R189, R194, R195): whether it may stand. -/
def opkOk (x : Slot) (core : Nat) (d k : Word) : Instr → Bool
  | .tmma _ _ _ _ | .tmmaf _ _ _ _ | .tmmag _ _ _ _ => wbits k 63 32 == 0
  | .tmmas _ _ _ _ v =>
    wbits k 63 32 == 0 && tdMode d == 0 && k.toNat % 8 == 0 &&
    decide (tdRows d * (k.toNat / 8) * 16 ≤ (32 - v.toNat) * x.vlen)
  | .treef _ _ => decide (k.toNat ≤ 63)
  | .tsetx _ _ => (BitVec.ofNat 16 k.toNat).signExtend 64 == k
  | .taddx _ _ =>
    wbits k 63 32 == 0 && wbits k 15 7 == 0 && !k.getLsbD (16 + core % 16) && decide (wbits k 6 0 + tdRows d ≤ 128)
  | _ => true

/-- Whether slot q has a FENCE.VV in its vector queue, for which its later tile accesses wait (09_guard R233). -/
def fenceWaiting (s : State) (q : Nat) : Bool := (s.slot q).vq.any fun e => e.kind == .fenceVV

/-- Pass a tile instruction to the tile queue (07_tile R170, R172, R176; 03_encoding R62): t names its descriptor, k its operand
register, dest the register that it writes. The instruction waits for room (R172), for earlier vector instructions when it reads
vector registers (04_sequencer R81), and for a FENCE.VV before it. -/
def passTile (s : State) (i : Instr) (t k : Nat) (dest : Option Nat) : State :=
  let q := s.cur
  let x := s.slot q
  let core := coreOf q
  let w := (encode i).getD 0
  let d := x.val t
  let meta_ := match i with | .tmmas _ _ _ _ _ => true | _ => false
  let go : State :=
    whenOwner s q w <| whenReady s q ([t, k] ++ dest.toList) <| unlessPoisoned s q [t, k] <|
      if tileRoom s core [w] = false then s.stallSlot q .tileQueueFull
      else whenCounts s q w <|
        if meta_ && !vectorIdle s q then s.stallSlot q .vectorBusy
        else if wordIsTileAccess w && fenceWaiting s q then s.stallSlot q .retry
        else
          match descBad d (isTstat i) (readsPorts i) x.accLim.toNat with
          | some (c, a) => trap s q c 0 a
          | none =>
            if opkOk x core d (x.val k) i = false then trapWord s q 0x01 w
            else if !((portsRead i).zip [tdAt d, tdBt d]).all fun p => portFeeds s q p.1 p.2 then trapWord s q 0x10 w
            else
              let c := s.core core
              let e : TEntry :=
                { slot := q, pc := x.pc, word := w, seq := c.seq, kp := 0, frm := x.frm, reefTh := x.reefTh, reefTrap := x.reefTrap,
                  accRow := x.accBase, desc := d, opk := x.val k, poison := none, tag := x.shtag, gangOf := none, reefed := false,
                  ord := s.nextOp, dest := (dest.map x.regIndex).getD 0, waits := [] }
              let s1 := queueTile (bumpOp (s.setCore core { c with seq := c.seq + 1 })) core e []
              let y := { x with cnt := { x.cnt with tiles := x.cnt.tiles + 1 } }
              s1.setSlot q (dest.toList.foldl (fun (z : Slot) r => z.markPending r .queue) y).complete
  if meta_ then whenLanes s q w go else go

/-- TZERO (07_tile R185), passed to the tile queue. -/
def execTzero (t : BitVec 6) (s : State) : Host.Outcome State Fault Refusal := next (passTile s (.tzero t) t.toNat 0 none)

/-- TMMA (07_tile R186), passed to the tile queue. -/
def execTmma (t : BitVec 6) (a b : BitVec 3) (k : BitVec 6) (s : State) : Host.Outcome State Fault Refusal :=
  next (passTile s (.tmma t a b k) t.toNat k.toNat none)

/-- TMMAF (07_tile R186), passed to the tile queue. -/
def execTmmaf (t : BitVec 6) (a b : BitVec 3) (k : BitVec 6) (s : State) : Host.Outcome State Fault Refusal :=
  next (passTile s (.tmmaf t a b k) t.toNat k.toNat none)

/-- TMMAG (07_tile R187), passed to the tile queues of the gang. -/
def execTmmag (t : BitVec 6) (a b : BitVec 3) (k : BitVec 6) (s : State) : Host.Outcome State Fault Refusal :=
  next (passTile s (.tmmag t a b k) t.toNat k.toNat none)

/-- TMMAS (07_tile R188), passed to the tile queue. -/
def execTmmas (t : BitVec 6) (a b : BitVec 3) (k : BitVec 6) (v : BitVec 5) (s : State) : Host.Outcome State Fault Refusal :=
  next (passTile s (.tmmas t a b k v) t.toNat k.toNat none)

/-- TLD (07_tile R190), passed to the tile queue. -/
def execTld (t k : BitVec 6) (s : State) : Host.Outcome State Fault Refusal := next (passTile s (.tld t k) t.toNat k.toNat none)

/-- TST (07_tile R191), passed to the tile queue. -/
def execTst (t : BitVec 6) (u f : BitVec 1) (k : BitVec 6) (s : State) : Host.Outcome State Fault Refusal :=
  next (passTile s (.tst t u f k) t.toNat k.toNat none)

/-- TMOVR (07_tile R192), passed to the vector queue (R172). -/
def execTmovr (t : BitVec 6) (v : BitVec 5) (s : State) : Host.Outcome State Fault Refusal := next (enqueueOther (.tmovr t v) s)

/-- TMOVW (07_tile R192), passed to the vector queue (R172). -/
def execTmovw (t : BitVec 6) (v : BitVec 5) (s : State) : Host.Outcome State Fault Refusal := next (enqueueOther (.tmovw t v) s)

/-- TREEF (07_tile R194), passed to the tile queue. -/
def execTreef (t k : BitVec 6) (s : State) : Host.Outcome State Fault Refusal := next (passTile s (.treef t k) t.toNat k.toNat none)

/-- TSTAT (07_tile R196), passed to the tile queue; sd is pending. -/
def execTstat (t d : BitVec 6) (s : State) : Host.Outcome State Fault Refusal :=
  next (passTile s (.tstat t d) t.toNat 0 (some d.toNat))

/-- TSETX (07_tile R195), passed to the tile queue. -/
def execTsetx (t k : BitVec 6) (s : State) : Host.Outcome State Fault Refusal := next (passTile s (.tsetx t k) t.toNat k.toNat none)

/-- TADDX (07_tile R189), passed to the tile queue. -/
def execTaddx (t k : BitVec 6) (s : State) : Host.Outcome State Fault Refusal := next (passTile s (.taddx t k) t.toNat k.toNat none)

/-- A trap that a tile-queue entry raises (10_context R261): its slot is to be saved, and the entry keeps its KP. -/
def tileRaise (s : State) (e : TEntry) (cause : Nat) (addr aux : Word) : State :=
  raiseDue s e.slot e.ord ⟨cause, e.pc, addr, aux, true, false⟩

/-- An entry at the head of a core's tile queue is complete (04_sequencer R109; 00_scope R11; 07_tile R187): it and the parts of its
gang leave their queues, TILES falls, and a reef of it raises interrupt 0x13 when the entry's TRAP is set. -/
def tileDone (s : State) (k : Nat) (e : TEntry) : State :=
  let s1 := (if isGangWord e.word then gangCores k else [k]).foldl (fun st m =>
    st.setCore m { st.core m with tq := (st.core m).tq.drop 1 }) s
  let x := s1.slot e.slot
  s1.setSlot e.slot
    { x with cnt := { x.cnt with tiles := x.cnt.tiles - 1 }, uistat := { x.uistat with preef := x.uistat.preef || (e.reefTrap && e.reefed) } }

/-- Rows of a core written for a slot (10_context R267): ACC of its VDIRTY, and of that of each slot of the core whose range holds
one of them. -/
def markRows (s : State) (k q row0 n : Nat) : State :=
  (slotsOfCore k ++ [q]).foldl (fun st p =>
    let x := st.slot p
    if p = q ∨ (x.accLim ≠ 0 ∧ x.accBase.toNat < row0 + n ∧ row0 < x.accBase.toNat + x.accLim.toNat) then
      st.setSlot p { x with vdirty := x.vdirty ||| 0x20#6 }
    else st) s

/-- The core with rows given a tag (07_tile R166). -/
def Core.tagRows (c : Core) (tag : STag) (row0 n : Nat) : Core :=
  (List.range n).foldl (fun (a : Core) i => { a with rowTag := tabSet a.rowTag (row0 + i) tag }) c

/-- The state after an entry has written rows of a core: the core, the tags when the instruction writes them, the flags. -/
def rowsWritten (s : State) (k : Nat) (e : TEntry) (c : Core) (tags : Bool) (fl : FFlags) : State :=
  let n := tdRows e.desc
  let s1 := s.setCore k (if tags then c.tagRows e.tag e.row0 n else c)
  let s2 := markRows s1 k e.slot e.row0 n
  s2.setSlot e.slot ((s2.slot e.slot).addFlags fl)

/-- An operand element in the form the matrix unit takes (02_numbers R48, R49; 08_stream R206). -/
def operandVal (spec : List Word) (e : Element) : TVal :=
  ⟨(srcFmt spec).value e.bits.toNat e.scale (sZb spec), e.poison⟩

/-- A port after n elements are delivered (08_stream R202). -/
def Port.consume (x : Port) (n : Nat) : Port := { x with fifo := x.fifo.drop n, pos := x.pos + n }.settle

/-- One step of an accumulation over the segments of a tile (07_tile R177 to R181): prods gives the products for a cell by its row
and column in the tile, at most n of them, with the flags of forming them. -/
def Core.accumulate (c : Core) (e : TEntry) (rem grouped : Bool) (n : Nat) (prods : Nat → Nat → List (Prod × FFlags)) : Core × FFlags :=
  (tileSegs e.desc e.row0).foldl (fun (a : Core × FFlags) g =>
    let l := ((List.range 32).map fun i => prods g.2.1 (g.2.2 + i)).toArray
    let f0 := l.foldl (fun f ps => ps.foldl (fun f p => f ||| p.2) f) a.2
    let ps := fun (i : Nat) => (l.getD i []).map (·.1)
    let r := if tdFp64 e.desc then a.1.fp64Segment (RMode.ofFrm e.frm) grouped g.1 ps else a.1.bfpSegment e rem g.1 n ps
    (r.1, f0 ||| r.2)) (c, 0)

/-- The entry at the head of a core's tile queue replaced. -/
def setHead (s : State) (k : Nat) (e : TEntry) : State :=
  s.setCore k { s.core k with tq := e :: (s.core k).tq.drop 1 }

/-- What one step takes from the ports: elements needed of A and of B, and how many of A it consumes (07_tile R176). -/
structure StepNeed where
  a : Nat
  b : Nat
  takeA : Nat
  deriving DecidableEq, Repr

/-- A step with its operands (07_tile R176): it waits while a port can still fetch what the step lacks, and traps with cause 0x10
and the step's index when the stream has ended. run performs it on arrays of operands and gives the state and whether a reef came. -/
def withOperands (s : State) (k : Nat) (e : TEntry) (pa pb : Nat) (n : StepNeed)
    (run : Array TVal → Array TVal → State → State × Bool) (last : Nat) : State :=
  let c := s.core k
  let x := c.port pa
  let y := c.port pb
  let short := fun (p : Port) (m : Nat) => decide (p.fifo.length < m)
  let isOver := fun (p : Port) => p.stop.isSome || p.st == .ended || p.st == .closed
  if (short x n.a && isOver x) || (short y n.b && isOver y) then tileRaise s e 0x10 0 (BitVec.ofNat 64 e.kp)
  else if short x n.a || short y n.b then s
  else
    let av := ((x.fifo.take n.a).map (operandVal x.spec)).toArray
    let bv := ((y.fifo.take n.b).map (operandVal y.spec)).toArray
    let s1 := (s.setPort k pa (x.consume n.takeA)).setPort k pb (y.consume n.b)
    let r := run av bv s1
    let e' := { e with kp := e.kp + 1, reefed := e.reefed || r.2 }
    let s2 := setHead r.1 k e'
    if last ≤ e'.kp then tileDone s2 k e' else s2

/-- The operand at a place of an array. -/
def tvalAt (a : Array TVal) (i : Nat) : TVal := a.getD i ⟨.fin false 0 0 false, none⟩

/-- The products of a dense step (07_tile R176, R177): kn values of k, na and nb elements for each, blocks beginning at ra and cb. -/
def denseProds (av bv : Array TVal) (kn na nb ra cb r c : Nat) : List (Prod × FFlags) :=
  (List.range kn).map fun j => prodOf (tvalAt av (j * na + ra + r)) (tvalAt bv (j * nb + cb + c))

/-- One step of TMMA or TMMAF (07_tile R177, R186): per is 1 or 8. -/
def denseStep (s : State) (k : Nat) (e : TEntry) (pa pb per : Nat) : State :=
  let kk := e.opk.toNat
  if kk ≤ e.kp * per then tileDone s k e
  else
    let kn := min per (kk - e.kp * per)
    let nr := tdRows e.desc
    let nc := tdCols e.desc
    withOperands s k e pa pb ⟨kn * nr, kn * nc, kn * nr⟩ (fun av bv s1 =>
      let c := s1.core k
      let r := c.accumulate e false (per != 1) kn (denseProds av bv kn nr nc 0 0)
      (rowsWritten s1 k e r.1 true r.2, c.reefs != r.1.reefs)) ((kk + per - 1) / per)

/-- Whether the heads of a gang's queues are the parts of the TMMAG at the head of a core's queue (07_tile R187). -/
def gangReady (s : State) (k : Nat) (e : TEntry) : Bool :=
  (gangCores k).all fun m => m == k || match (s.core m).tq with
    | h :: _ => h.gangOf == some k && h.slot == e.slot
    | [] => false

/-- Whether the rows of every member carry the issuer's tag or none (07_tile R187). -/
def gangTagsOk (s : State) (k : Nat) (e : TEntry) : Bool :=
  (gangCores k).all fun m => (List.range (tdRows e.desc)).all fun i =>
    let t := tabGet (s.core m).rowTag 0 (e.row0 + i)
    t == e.tag || t == 0

/-- One step of TMMAG on its sixteen members (07_tile R187). -/
def gangStep (s : State) (k : Nat) (e : TEntry) (pa pb : Nat) : State :=
  let kk := e.opk.toNat
  if gangReady s k e = false then s
  else if kk ≤ e.kp * 8 then tileDone s k e
  else if e.kp = 0 ∧ gangTagsOk s k e = false then tileRaise s e 0x0A 0 0
  else
    let kn := min 8 (kk - e.kp * 8)
    let nr := tdRows e.desc
    let nc := tdCols e.desc
    withOperands s k e pa pb ⟨kn * (4 * nr), kn * (4 * nc), kn * (4 * nr)⟩ (fun av bv s1 =>
      (List.range 16).foldl (fun (a : State × Bool) g =>
        let m := k / 16 * 16 + g
        let c := a.1.core m
        let part := if m = k then e else { e with seq := (c.tq.headD e).seq }
        let r := c.accumulate part (m != k) true kn (denseProds av bv kn (4 * nr) (4 * nc) (g / 4 * nr) (g % 4 * nc))
        (rowsWritten a.1 m e r.1 true r.2, a.2 || c.reefs != r.1.reefs)) (s1, false)) ((kk + 7) / 8)

/-- The vector view through which TMMAS reads its metadata (07_tile R188): that of its slot at each step, also when the slot's lane groups have
changed since the entry was queued (DESIGN CHOICE, log 93). -/
def metaView (x : Slot) : VView := ⟨x.laneBase, x.laneCount, x.vlen, 0, 0, 0, .rne⟩

/-- The kept indices of a metadata element (05_vector R144). -/
def keptOf (b : Nat) : List Nat := [b % 8, b / 8 % 8, b / 64 % 8, b / 512 % 8]

/-- Whether a metadata element is well formed (05_vector R144). -/
def metaOk (b : Nat) : Bool :=
  b / 4096 == 0 && match keptOf b with
    | [a, b, c, d] => decide (a < b ∧ b < c ∧ c < d)
    | _ => false

/-- One step of TMMAS (07_tile R177, R188): one k. The values of A of a group are consumed with its last step. Metadata is checked
before the first step. A poisoned metadata chunk acts in the group's first step. -/
def sparseStep (s : State) (k : Nat) (e : TEntry) (pa pb v : Nat) : State :=
  let kk := e.opk.toNat
  let x := s.slot e.slot
  let nr := tdRows e.desc
  let nc := tdCols e.desc
  let ng := kk / 8
  let md := fun (r g : Nat) => (s.core k).elem (metaView x) v 16 (r * ng + g)
  let bad := if e.kp = 0 then (List.range (nr * ng)).find? fun i =>
      let m := (s.core k).elem (metaView x) v 16 i
      m.poison.isNone && !metaOk m.bits
    else none
  match bad with
  | some i => tileRaise s e 0x11 0 (BitVec.ofNat 64 i)
  | none =>
    if kk ≤ e.kp then tileDone s k e
    else
      let g := e.kp / 8
      let t := e.kp % 8
      withOperands s k e pa pb ⟨4 * nr, nc, if t = 7 then 4 * nr else 0⟩ (fun av bv s1 =>
        let c := s1.core k
        let prods := fun (r col : Nat) =>
          let m := md r g
          match m.poison with
          | some tag => if t = 0 then [(Prod.poisoned tag, (0 : FFlags))] else []
          | none => match (keptOf m.bits).findIdx? fun i => i == t with
            | some u => [prodOf (tvalAt av (4 * r + u)) (tvalAt bv col)]
            | none => []
        let r := c.accumulate e false false 1 prods
        (rowsWritten s1 k e r.1 true r.2, c.reefs != r.1.reefs)) kk

/-- The addresses at which n bytes of a tile access are checked: the first byte and each further 256-byte boundary, where the TLB
slice changes (06_vector_access R152; 07_tile R175). -/
def tileAddrs (va n : Nat) : List Nat :=
  if n = 0 then [] else va :: (List.range ((va + n - 1) / 256 - va / 256)).map fun i => (va / 256 + i + 1) * 256

/-- The agent of a tile access at an address (07_tile R175): that of the slot's lanes under the captured tag; the scalar slice when
the slot is laneless. -/
def tileAgent (s : State) (e : TEntry) (va : Nat) : Agent :=
  let ag := if (s.slot e.slot).laneCount = 0 then scalarAgent s e.slot else laneAgent s e.slot va
  { ag with tag := e.tag, pc := some e.pc }

/-- Whether a tile access waits (09_guard R231; 06_vector_access R154): for an access of the vector queue or a link from before it that may touch one of its
bytes, and behind a scalar store from before it that waits for a MIGRATING page (11_page R292). -/
def tileWaits (s : State) (e : TEntry) (r : Nat × Nat) : Bool :=
  vectorMayTouch s e.slot e.ord r || linkCovers s e.slot e.ord r || storeWaits s e.slot e.ord r

/-- The check of a tile access (07_tile R190, R191): alignment, then one Probe over all its bytes; the access goes on when both
pass. -/
def tileCheck (s : State) (e : TEntry) (k : Access) (va n align : Nat) (go : State) : State :=
  let fails := fun (a : Nat) => match checkInRange s (tileAgent s e a) va a k with
    | .ok _ => none
    | .error m => some m
  let ms := (tileAddrs va n).foldl (fun l a => match fails a with | some m => insertMiss m l | none => l) []
  if va % align ≠ 0 then tileRaise s e 0x0B (BitVec.ofNat 64 va) 0
  else if ms.isEmpty then go
  else
    let at_ := ((tileAddrs va n).find? fun a => (fails a).isSome).getD va
    let r := accessReport s e.slot ⟨e.pc, e.word, k.writes, false, 0, 0, []⟩ ms at_ 0 true
    raiseDue r.2 e.slot e.ord r.1

/-- The status of a segment record (07_tile R190): E, EMPTY and REEFCNT; a poisoned one is free (log 7). -/
def loadStatus (w : Word) : SegStatus := ⟨wbits w 63 48, w.getLsbD 38, 61, signedOf 16 w.toNat⟩

/-- One segment loaded from its record (07_tile R190). -/
def loadSegment (s : State) (k : Nat) (e : TEntry) (g va : Nat) : State :=
  let st := readVa s (tileAgent s e va) va 8
  let w := if st.poison.isSome then drawFree st.st else (BitVec.ofNat 64 (leNat st.bytes), st.st)
  let s1 := w.2.setCore k ((w.2.core k).putSeg g (loadStatus w.1))
  let s2 := ((segCells g).zip (List.range 32)).foldl (fun stt ci =>
    let a := va + 8 + 8 * ci.2
    let r := readVa stt (tileAgent stt e a) a 8
    r.st.setCore k ((r.st.core k).putCell ci.1 (rawWrite (tdFp64 e.desc) (leNat r.bytes) r.poison))) s1
  s2.setCore k ((s2.core k).reHr g)

/-- A range of bytes in the pieces that tileAddrs tells apart, each with its length. -/
def tilePieces (va n : Nat) : List (Nat × Nat) := (tileAddrs va n).map fun a => (a, min (va + n) ((a / 256 + 1) * 256) - a)

/-- TLD at the matrix unit (07_tile R190); it waits behind traffic of what it reads on a RETRAINING link (20_link R431). -/
def runTld (s : State) (k : Nat) (e : TEntry) : State :=
  let segs := tileSegs e.desc e.row0
  let va := e.opk.toNat
  if tileWaits s e (va, 264 * segs.length) then s else
  tileCheck s e .read va (264 * segs.length) 8 <|
    let held := (tilePieces va (264 * segs.length)).flatMap fun p => readHolds s (tileAgent s e p.1) p.1 p.2
    if !held.isEmpty then holdReads s held else
    let s1 := ((segs.map (·.1)).zip (List.range segs.length)).foldl (fun st gi => loadSegment st k e gi.1 (va + 264 * gi.2)) s
    tileDone (rowsWritten s1 k e (s1.core k) true 0) k e

/-- The cells of a tile in order, converted for TST (07_tile R191): each with its flags and its poison. -/
def tileCells (c : Core) (e : TEntry) (f : Fmt) (sat : Bool) : List (Nat × FFlags × Option PTag) :=
  (tileSegs e.desc e.row0).flatMap fun g =>
    (segCells g.1).map fun i => cvtCell (c.cell i) (c.segment g.1).exp (tdFp64 e.desc) f sat

/-- The granules that TST writes (07_tile R191), each with its first address, its bytes and the poison of its cells: z bytes for each cell. -/
def tstParts (va n z : Nat) (cells : List (Nat × FFlags × Option PTag)) : List (Nat × List Byte × Option PTag) :=
  (List.range (granuleCount va n)).map fun i =>
    let lo := max va ((va / 64 + i) * 64)
    let hi := min (va + n) ((va / 64 + i) * 64 + 64)
    let part := (cells.drop ((lo - va) / z)).take ((hi - lo) / z)
    (lo, part.flatMap fun x => leBytes z x.1, part.foldl (fun t x => lowerTag t x.2.2) none)

/-- TST at the matrix unit (07_tile R191): its bytes are written granule by granule, with the poison of the cells in each; where memory cannot hold the
poison of one, TST is a sink and writes nothing (19_shroud R411, R412). A store to a MIGRATING page waits (11_page R292), and one to DOORBELL is a
release (09_guard R245; 14_queue R326; 20_link R431). -/
def runTst (s : State) (k : Nat) (e : TEntry) (sat bf16 : Bool) : State :=
  let z := if bf16 then 2 else 4
  let va := e.opk.toNat
  let n := tdRows e.desc * tdCols e.desc * z
  let rings := s.notify != 0 && (tileAddrs va n).any fun a => isDoorbell s (keyOfVa s (tileAgent s e a) a .write)
  if tileWaits s e (va, n) then s else
  tileCheck s e .write va n z <|
    if (tileAddrs va n).any fun a => migratingAt s (tileAgent s e a) a 1 then setHead s k { e with waits := [(va, n)] }
    else if rings ∧ (accessesBefore s (.slot e.slot) e.ord || unacked s (.slot e.slot)) = true then s
    else
      let cells := tileCells (s.core k) e (if bf16 then fmtBF16 else fmtF32) sat
      let parts := tstParts va n z cells
      match parts.findSome? fun p => if holdsPoison s (keyOfVa s (tileAgent s e p.1) p.1 .write) then none else p.2.2 with
      | some t => sinkAt s e.slot e.pc t
      | none =>
        let s1 := parts.foldl (fun st p =>
          if slotAlive st e.slot then writeVa st (.slot e.slot) (tileAgent st e p.1) p.1 p.2.1 p.2.2 else st) s
        if slotAlive s1 e.slot then
          tileDone (s1.setSlot e.slot ((s1.slot e.slot).addFlags (cells.foldl (fun f x => f ||| x.2.1) 0))) k e
        else s1

/-- TZERO at the matrix unit (07_tile R185). -/
def runTzero (s : State) (k : Nat) (e : TEntry) : State :=
  let c := (tileSegs e.desc e.row0).foldl (fun (a : Core) g =>
    ((segCells g.1).foldl (fun (b : Core) i => b.putCell i ⟨0, none⟩) a).putSeg g.1 SegStatus.reset) (s.core k)
  tileDone (rowsWritten s k e c true 0) k e

/-- TREEF at the matrix unit (07_tile R194): the BFP segments that are not EMPTY. -/
def runTreef (s : State) (k : Nat) (e : TEntry) : State :=
  if e.opk = 0 ∨ tdFp64 e.desc = true then tileDone s k e
  else
    let c := s.core k
    let r := (tileSegs e.desc e.row0).foldl (fun (a : Core × FFlags) g =>
      if (a.1.segment g.1).empty then a
      else
        let y := a.1.reef e false 1 g.1 e.opk.toNat
        (y.1, a.2 ||| y.2)) (c, 0)
    tileDone (rowsWritten s k e r.1 false r.2) k { e with reefed := c.reefs != r.1.reefs }

/-- TSETX at the matrix unit (07_tile R195). -/
def runTsetx (s : State) (k : Nat) (e : TEntry) : State :=
  let c := (tileSegs e.desc e.row0).foldl (fun (a : Core) g =>
    (a.putSeg g.1 { a.segment g.1 with exp := signedOf 16 e.opk.toNat, empty := false }).reHr g.1) (s.core k)
  tileDone (rowsWritten s k e c false 0) k e

/-- TSTAT at the matrix unit (07_tile R183, R196). An invalidated log entry reads as zero (DESIGN CHOICE, log 97). -/
def runTstat (s : State) (k : Nat) (e : TEntry) : State :=
  let c := s.core k
  let v : Word := if tdMode e.desc = 3 then
      (match tabFind c.reefLog (tdRowb e.desc % 64) with
        | some r => if r.tag = e.tag then r.word else 0
        | none => 0)
    else (c.segment (4 * e.row0 + tdSegb e.desc)).word
  tileDone (s.setSlot e.slot ((s.slot e.slot).landAt e.dest v none)) k e

/-- The gang members that a TADDX adds (07_tile R189), in ascending order. -/
def addxSources (k : Nat) (opk : Word) : List Nat :=
  ((List.range 16).filter fun g => opk.getLsbD (16 + g)).map fun g => k / 16 * 16 + g

/-- TADDX at the matrix unit (07_tile R189). -/
def runTaddx (s : State) (k : Nat) (e : TEntry) : State :=
  let srow := wbits e.opk 6 0
  let srcs := addxSources k e.opk
  let bad := srcs.any fun m => (List.range (tdRows e.desc)).any fun i => tabGet (s.core m).rowTag 0 (srow + i) != e.tag
  if bad then tileRaise s e 0x0A 0 0
  else
    let c := s.core k
    let r := srcs.foldl (fun (a : Core × FFlags) m =>
      let src := s.core m
      (tileSegs e.desc e.row0).foldl (fun (b : Core × FFlags) g =>
        let sg := 4 * (srow + g.2.1) + tdSegb e.desc + g.2.2 / 32
        let cells := fun (i : Nat) => src.cell (cellAt (sg / 4) (sg % 4 * 32 + i))
        let y := if tdFp64 e.desc then b.1.addxFp64 (RMode.ofFrm e.frm) g.1 cells else b.1.addxSegment e g.1 (src.segment sg) cells
        (y.1, b.2 ||| y.2)) a) (c, 0)
    tileDone (rowsWritten s k e r.1 true r.2) k { e with reefed := c.reefs != r.1.reefs }

/-- The entry at the head of a core's tile queue takes its next step (07_tile R173, R184). A word that is no tile instruction, or
whose descriptor fails R170, came from an image (10_context R266). -/
def tileRun (s : State) (k : Nat) (e : TEntry) (i : Instr) : State :=
  let bad := tileRaise s e 0x01 0 (BitVec.ofNat 64 e.word)
  if (descBad e.desc (isTstat i) (readsPorts i) (s.slot e.slot).accLim.toNat).isSome ||
      !opkOk (s.slot e.slot) k e.desc e.opk i then bad
  else match e.poison with
  | some t => sinkAt s e.slot e.pc t
  | none =>
    match i with
    | .tzero _ => runTzero s k e
    | .tmma _ a b _ => denseStep s k e a.toNat b.toNat 1
    | .tmmaf _ a b _ => denseStep s k e a.toNat b.toNat 8
    | .tmmag _ a b _ => gangStep s k e a.toNat b.toNat
    | .tmmas _ a b _ v => sparseStep s k e a.toNat b.toNat v.toNat
    | .tld _ _ => runTld s k e
    | .tst _ u f _ => runTst s k e (u == 1) (f == 1)
    | .treef _ _ => runTreef s k e
    | .tstat _ _ => runTstat s k e
    | .tsetx _ _ => runTsetx s k e
    | .taddx _ _ => runTaddx s k e
    | _ => bad

/-- MATRIX_STEP (07_tile R173, R177, R184): the next step of the oldest entry of a core's tile queue, or of the TMMAG whose part it
is. A slot whose trap is still to be taken makes none. -/
def matrixStep (s : State) (k : Nat) : State :=
  match (s.core k).tq with
  | [] => s
  | h :: _ =>
    let k' := h.gangOf.getD k
    match (s.core k').tq with
    | [] => s
    | e :: _ =>
      if e.gangOf.isSome || heldByDue (s.slot e.slot) e.ord || frozenUnit s 1 e.slot || frozenUnit s 3 k' then s
      else match decodeToRow e.word with
        | .ok (.instr i) => landCoreStats (tileRun s k' e i) k'
        | _ => tileRaise s e 0x01 0 (BitVec.ofNat 64 e.word)

/-- MATRIX_STEP (07_tile R177). -/
def execMatrixStep (core : Nat) (s : State) : Host.Outcome State Fault Refusal := next (matrixStep s core)

/-- What a move between a tile and vector registers comes to at issue (07_tile R192). -/
inductive MoveRes where
  | wait
  | raise (cause : Nat) (addr aux : Word)
  | sink (t : PTag)
  | done (s : State) (flags : FFlags)

/-- Whether an entry of the tile queue keeps a move waiting (07_tile R173, R193): it shares a row, and it writes rows or the move
does. -/
def blocksMove (row0 n : Nat) (write : Bool) (e : TEntry) : Bool :=
  let stat := e.word % 256 == 0x0D
  !(stat && tdMode e.desc == 3) && (write || !(stat || e.word % 256 == 9)) &&
  decide (e.row0 < row0 + n) && decide (row0 < e.row0 + tdRows e.desc)

/-- The cell of element i of a move (07_tile R192). -/
def moveCell (d : Word) (row0 i : Nat) : Nat := cellAt (row0 + i / tdCols d) (32 * tdSegb d + i % tdCols d)

/-- The beats of TMOVR or TMOVW (07_tile R193; 14_queue R338): one for each segment that holds an active element from P on. -/
def moveBeats (c : Core) (v : VView) (d : Word) : Nat :=
  let m := if v.vcfg.getLsbD 11 then v.vcfg.toNat / 2 ^ 8 % 8 else 0
  max 1 (((c.collected v m false).map fun i => moveCell d 0 i / 32).eraseDups.length)

/-- TMOVR's elements (07_tile R192): the core after them and the flags. -/
def moveRead (c : Core) (v : VView) (d : Word) (row0 r : Nat) : Core × FFlags :=
  let m := if v.vcfg.getLsbD 11 then v.vcfg.toNat / 2 ^ 8 % 8 else 0
  let y := runElems c v (.reg r v.w) m false (fun c0 i =>
      let k := moveCell d row0 i
      let x := c0.cell k
      if vCvs v.vcfg = 0 then
        let z := cvtCell x (c0.segment (k / 32)).exp (tdFp64 d) v.fmt false
        ⟨⟨z.1, z.2.2⟩, z.2.1⟩
      else (rawRead x (tdFp64 d)).res) (v.vl - v.p) v.p c 0
  (y.1.tail v (.reg r v.w) (v.size (2 ^ v.g) v.w), y.2)

/-- TMOVW's elements (07_tile R192; 05_vector R127): the core after them, with EMPTY clear and HR afresh in each segment written; under MODE 0b01
no status field changes (R181) (DESIGN CHOICE, log 94). -/
def moveWrite (c : Core) (v : VView) (tag : STag) (d : Word) (row0 r : Nat) : Core :=
  let m := if v.vcfg.getLsbD 11 then v.vcfg.toNat / 2 ^ 8 % 8 else 0
  let is := (List.range v.vl).filter fun i => decide (v.p ≤ i) && ((c.maskBit v m i).poison.isSome || c.active v m i)
  let c1 := is.foldl (fun (a : Core) i =>
    let el := c.elem v r 64 i
    let x := match (c.maskBit v m i).poison with
      | some t => rawWrite (tdFp64 d) 0 (some t)
      | none => rawWrite (tdFp64 d) el.bits el.poison
    a.putCell (moveCell d row0 i) x) c
  let segs := (is.map fun i => moveCell d row0 i / 32).eraseDups
  segs.foldl (fun (a : Core) g =>
    let b := a.tagRows tag (g / 4) 1
    if tdFp64 d then b else (b.putSeg g { b.segment g with empty := false }).reHr g) c1

/-- TMOVR or TMOVW of slot q at issue (07_tile R170, R172, R192, R193): it enters the tile queue and takes a sequence number, and
is performed at once when no earlier entry keeps it waiting. -/
def tileMove (s : State) (q : Nat) (e : VEntry) (write : Bool) (r : Nat) : MoveRes :=
  let x := s.slot q
  let k := coreOf q
  let c := s.core k
  let d := e.op0
  let word : Word := BitVec.ofNat 64 e.word
  match e.poison0, descBad d false false x.accLim.toNat with
  | some t, _ => .sink t
  | none, some (cause, aux) => if e.restored then .raise 0x01 0 word else .raise cause 0 aux
  | none, none =>
    let v := VView.of x e
    let row0 := x.accBase.toNat + tdRowb d
    if tdRows d * tdCols d < e.vl then .raise 0x01 0 word
    else if 16 ≤ c.tq.length || c.tq.any (blocksMove row0 (tdRows d) write) then .wait
    else
      let c1 := { c with seq := c.seq + 1 }
      if v.vl ≤ v.p then .done (s.setCore k c1) 0
      else if write then
        let s1 := s.setCore k (moveWrite c1 v x.shtag d row0 r)
        .done (markRows s1 k q row0 (tdRows d)) 0
      else
        let y := moveRead c1 v d row0 r
        .done (s.setCore k y.1) y.2

end Sys2Proof.Machine
end

