-- ==== Sys2Proof/Machine/Barrier.lean ====
section
/-! DEFINITION. Barriers (15_barrier R343 to R350): the barrier word, arrival markers and their firing, and the wait. -/

namespace Sys2Proof.Machine

/-- Fields of a barrier word (15_barrier R343). -/
def barPhase (w : Word) : Nat := wbits w 63 40
def barArrived (w : Word) : Nat := wbits w 39 20
def barN (w : Word) : Nat := wbits w 19 0

/-- The barrier word after one arrival (15_barrier R344). -/
def barArrive (w : Word) : Word :=
  if barArrived w + 1 < barN w then w + 0x100000#64
  else BitVec.ofNat 64 ((barPhase w + 1) % 2 ^ 24 * 2 ^ 40 + barN w)

/-- BARI (15_barrier R345). -/
def execBari (d a : BitVec 6) (s : State) : Host.Outcome State Fault Refusal :=
  let q := s.cur
  let x := s.me
  let w := encode (.bari d a)
  let va := (x.val a.toNat).toNat
  let n := x.val d.toNat
  next (whenReady s q [d.toNat, a.toNat] <| unlessPoisoned s q [d.toNat, a.toNat] <|
    if va % 8 ≠ 0 then trap s q 0x0B (BitVec.ofNat 64 va) 0
    else if n = 0 ∨ 2 ^ 20 ≤ n.toNat then trap s q 0x01 0 n
    else scalarCheck s q w .write va 8 8 <| whenStoreRoom s q 1 <|
      (pushStore s q va (leBytes 8 n.toNat) none false false).complete q)

/-- BARA (15_barrier R346): a marker in the vector queue (DEDUCED, log 65). -/
def execBara (a : BitVec 6) (sc : BitVec 3) (s : State) : Host.Outcome State Fault Refusal :=
  let q := s.cur
  let x := s.me
  let sa := x.val a.toNat
  next (whenReady s q [a.toNat] <| unlessPoisoned s q [a.toNat] <|
    if sa.toNat % 8 ≠ 0 then trap s q 0x0B sa 0
    else whenQueueRoom s q <| (enqueueV s q ((encode (.bara a sc)).getD 0) .marker sa 0 none none).complete q)

/-- The queue without the oldest marker for an address (15_barrier R348). -/
def dropMarker (sa : Word) : List VEntry → List VEntry
  | [] => []
  | e :: es => if e.kind = .marker ∧ e.op0 = sa then es else e :: dropMarker sa es

/-- BARW (15_barrier R348): without a marker it is an acquire of the word; with one, the slot stalls until the marker has fired
and its phase is complete. -/
def execBarw (a : BitVec 6) (sc : BitVec 3) (s : State) : Host.Outcome State Fault Refusal :=
  let q := s.cur
  let x := s.me
  let sa := x.val a.toNat
  next (whenReady s q [a.toNat] <| unlessPoisoned s q [a.toNat] <|
    scalarCheck s q (encode (.barw a sc)) .read sa.toNat 8 8 <|
      let g := scalarRead s q sa.toNat 8
      match g.poison, x.vq.find? fun e => decide (e.kind = .marker ∧ e.op0 = sa) with
      | some t, _ => sink g.st q t
      | none, none => g.st.complete q
      | none, some m =>
        if m.joined = none ∨ m.joined = some (BitVec.ofNat 64 (barPhase (BitVec.ofNat 64 (leNat g.bytes)))) then s.stallSlot q .retry
        else (g.st.setSlot q { g.st.slot q with vq := dropMarker sa (g.st.slot q).vq }).complete q)

/-- Whether a marker of slot q may fire (15_barrier R346; 20_link R431; 19_shroud R418): every access that precedes it has been performed, those in other
packages acknowledged, and no instruction before it waits for its recheck. -/
def mayFire (s : State) (q : Nat) (e : VEntry) : Bool :=
  !accessesBefore s (.slot q) e.ord && !unacked s (.slot q) &&
  !(s.core (coreOf q)).rechecks.any fun r => r.slot == q && decide (r.ord < e.ord)

/-- The firing of a marker (15_barrier R344, R346): its entry e stands at place k. It waits while its word lies in a MIGRATING page (11_page R292). A saved one whose word does not decode traps (10_context R266). -/
def fireMarker (s : State) (q k : Nat) (e : VEntry) : State :=
  let ag := { scalarAgent s q with pc := some e.pc }
  let va := e.op0.toNat
  match decodeToRow e.word, probeRange s ag .write va 8 with
  | .error _, _ => raiseDue s q e.ord ⟨0x01, e.pc, 0, BitVec.ofNat 64 e.word, true, false⟩
  | .ok _, m :: ms =>
    let r := accessReport s q ⟨e.pc, e.word, true, false, 0, 0, []⟩ ((m :: ms).take 1) va 0 true
    raiseDue r.2 q e.ord r.1
  | .ok _, [] =>
    if migratingAt s ag va 8 then s.setSlot q { s.slot q with vq := (s.slot q).vq.set k { e with probed := some { pages := [], waits := [(va, 8)] } } }
    else
      let g := readKey s (keyOfVa s ag va .write) 8
      let w : Word := BitVec.ofNat 64 (leNat g.bytes)
      match g.poison with
      | some t => sinkAt g.st q e.pc t
      | none =>
        if barN w = 0 ∨ barN w ≤ barArrived w then
          raiseDue g.st q e.ord ⟨0x01, e.pc, e.op0, BitVec.ofNat 64 e.word, true, false⟩
        else
          let s1 := writeVa g.st (.slot q) ag va (leBytes 8 (barArrive w).toNat) none
          let y := s1.slot q
          if slotAlive s1 q = false then s1
          else
            s1.setSlot q { y with vq := y.vq.set k { e with probed := none, joined := some (BitVec.ofNat 64 (barPhase w)) } }

/-- BARRIER_MARKER_FIRE (15_barrier R346): the marker at place k of slot q's vector queue fires, when it may. -/
def execBarrierMarkerFire (q k : Nat) (s : State) : Host.Outcome State Fault Refusal :=
  next (match (s.slot q).vq[k]? with
    | some e => if e.unfired && !heldByDue (s.slot q) e.ord && mayFire s q e then fireMarker s q k e else s
    | none => s)

end Sys2Proof.Machine
end

