-- ==== Sys2Proof/Machine/Pages.lean ====
section
/-! DEFINITION. Pages that move (11_page R287, R290 to R295), TLBINV and PROBE (R297, R298), and the page events. -/

namespace Sys2Proof.Machine

/-- The TLB without the entries of the leaf that stands at a place in memory, in every slice and every address space (11_page R287, R289). -/
def invalidateLeaf (s : State) (at_ : Nat) : State := { s with tlb := s.tlb.filter fun e => e.place != at_ }

/-- A leaf with another STATE (11_page R282). -/
def leafWithState (e : Word) (st : Nat) : Word := (e &&& ~~~0x1C#64) ||| BitVec.ofNat 64 (st * 4)

/-- Whether a frame may receive a page (11_page R290): aligned, in a memory range, where another package's map counts as this package's HBM
(20_link R430; log 8), and not the source frame, by whichever address it is named. -/
def destOk (s : State) (dest size src : Nat) : Bool :=
  let k := keyOfPa s dest
  let e := k + pageBytes size - 1
  dest % pageBytes size == 0 && k != keyOfPa s src && decide (dest < 2 ^ 52) &&
  ((isHbm k && isHbm e) || (isCxl s k && isCxl s e) || (isRemote k && frameOk s dest (pageBytes size)))

/-- Begin a migration (11_page R291): status 1 or 3, or the state with the leaf MIGRATING and the migration in flight. -/
def beginMigration (s : State) (asid : BitVec 12) (va : Word) (dest owner : Nat) (prefetch : Bool) : Except Nat State :=
  if 2 ^ 56 ≤ va.toNat then .error 1
  else
    match walk s asid va.toNat with
    | .unmapped _ => .error 1
    | .leaf level at_ e =>
      let size := sizeCode level
      if leafState e ≠ 1 ∧ leafState e ≠ 2 then .error 1
      else if destOk s dest size (leafPa e) = false then .error 3
      else
        let e1 := leafWithState e 3
        let s1 := invalidateLeaf (physPut s at_ e1) at_
        .ok { s1 with
          migrations := tabSet s1.migrations s1.nextOp ⟨asid, va, dest, at_, e, e1, size, owner, prefetch⟩
          nextOp := s1.nextOp + 1 }

/-- Memory with the cells of a frame of len bytes at src copied over the frame at dst (11_page R291). -/
def copyCells (m : List Host.Cell) (src dst len : Nat) : List Host.Cell :=
  let part := m.filter fun c => decide (src ≤ c.1 ∧ c.1 < src + len)
  (m.filter fun c => decide (c.1 < dst)) ++ (part.map fun c => (c.1 - src + dst, c.2)) ++ m.filter fun c => decide (dst + len ≤ c.1)

/-- The poisoned granules of a frame with their tags, by their places in it (11_page R291): those of a stack or port out of service read with its tag
(19_shroud R409; 20_link R426). -/
def framePoison (s : State) (src len : Nat) : Tab PTag :=
  if s.deadStacks.isEmpty && s.deadPorts.isEmpty then
    (s.poison.filter fun c => decide (src / 64 ≤ c.1 ∧ c.1 < src / 64 + len / 64)).map fun c => (c.1 - src / 64, c.2)
  else (List.range (len / 64)).filterMap fun i => (granulePoison s (src + 64 * i)).map fun t => (i, t)

/-- The poison table after the granules of a frame are copied with their poison (11_page R291). -/
def copyPoison (s : State) (src dst len : Nat) : Tab PTag :=
  (s.poison.filter fun c => decide (c.1 < dst / 64)) ++ ((framePoison s src len).map fun c => (c.1 + dst / 64, c.2)) ++
    s.poison.filter fun c => decide (dst / 64 + len / 64 ≤ c.1)

/-- A poisoned granule that a migration cannot carry to its destination, which holds no poison (11_page R291; 19_shroud R411): its tag and where it was
to go. -/
def poisonUnheld (s : State) (src dst len : Nat) : Option (PTag × Nat) :=
  ((framePoison s src len).find? fun c => !holdsPoison s (dst + 64 * c.1)).map fun c => (c.2, dst + 64 * c.1)

/-- The frame of a migration copied to its destination (11_page R291). What another package holds is free, and what is written there is not
this package's (20_link R430; log 8). -/
def copyFrame (s : State) (src dst len : Nat) : State :=
  if isRemote dst then s
  else if isRemote src then
    let r := freeBytes len s
    physWrite r.2 dst r.1 none
  else { s with mem := copyCells s.mem src dst len, poison := copyPoison s src dst len }

/-- Whether an access that holds translations has passed its Probe and uses a frame of len bytes at a key (06_vector_access R151). -/
def Probed.uses (b : Probed) (src len : Nat) : Bool := b.waits.isEmpty && b.pages.any fun h => bytesMeet (h.key, h.bytes) (src, len)

/-- Whether accesses that passed their Probe of the source frame are still to be performed (11_page R291): stores that did not
wait, vector accesses and links past their Probe, and copies past theirs. -/
def frameBusy (s : State) (m : Migration) : Bool :=
  let src := keyOfPa s (leafPa m.leaf0)
  let len := pageBytes m.size
  (s.stores.any fun a => !a.waiting && bytesMeet (a.key, a.bytes.length) (src, len)) ||
  (s.slots.any fun e => e.2.vq.any fun v => match v.probed with | some b => b.uses src len | none => false) ||
  (s.klinks.any fun e => !e.2.waiting && ({ pages := e.2.pages, waits := [] } : Probed).uses src len) ||
  s.copies.any fun c => c.2.kind == .cpy && c.2.phase == .moving

/-- What the end of a migration posts for a prefetch (11_page R295). -/
def prefetchPost (s : State) (m : Migration) (status : Nat) : State :=
  if m.prefetch = false then s
  else if status = 0 then pagerPost s m.asid (leafPa m.leaf0) m.size 3
  else if status = 4 then pagerPost s m.asid m.dest m.size 6
  else pagerPost s m.asid m.dest m.size 5

/-- A key after len bytes have moved from src to dst. -/
def movedKey (src dst len k : Nat) : Nat := if src ≤ k ∧ k < src + len then dst + (k - src) else k

/-- A home whose image has moved. -/
def Home.moved (f : Nat → Nat) : Home → Home
  | .image k => .image (f k)
  | .ended k i im => .ended k i (im.map f)
  | h => h

/-- A table whose keys have moved. -/
def moveTab {α : Type} (f : Nat → Nat) (t : Tab α) : Tab α := t.foldl (fun u e => tabSet u (f e.1) e.2) []

/-- What the device knows by the place of its memory follows the bytes that a migration has moved (11_page R291): images and their
operations, claims, the objects behind descriptors, futures, and the places of the leaves that it has cached. An access that holds a translation
goes on using it (06_vector_access R151). -/
def moveKeys (s : State) (f : Nat → Nat) : State :=
  { s with
    images := s.images.map fun im => { im with key := f im.key }
    saved := moveTab f s.saved
    futPoison := moveTab f s.futPoison
    tlb := s.tlb.map fun e => { e with place := f e.place }
    migrations := s.migrations.map fun m => (m.1, { m.2 with leafAt := f m.2.leafAt })
    stores := s.stores.map fun a => { a with home := a.home.moved f }
    copies := s.copies.map fun c => (c.1, { c.2 with home := c.2.home.moved f })
    cmds := s.cmds.map fun c => (c.1, { c.2 with home := c.2.home.moved f, claim := c.2.claim.map fun x => (f x.1, x.2) })
    meshes := moveTab f s.meshes
    parts := moveTab f s.parts
    tables := moveTab f s.tables
    remaps := s.remaps.map fun e => (e.1, { e.2 with mesh := f e.2.mesh })
    klinks := s.klinks.map fun e => (e.1, { e.2 with key := f e.2.key }) }

/-- The last step of a migration (11_page R291): the state, and its status 0, 4 or 5. -/
def endMigration (s : State) (m : Migration) (ok : Bool) : Nat × State :=
  let len := pageBytes m.size
  if physWord s m.leafAt ≠ m.leaf1 then (5, s)
  else if ok = false then (4, invalidateLeaf (physPut s m.leafAt m.leaf0) m.leafAt)
  else
    let src := keyOfPa s (leafPa m.leaf0)
    let dst := keyOfPa s m.dest
    let s1 := moveKeys (copyFrame s src dst len) (movedKey src dst len)
    let tier := if isCxl s dst then 2 else 1
    let e1 := leafWithState ((m.leaf1 &&& ~~~0x000FFFFFFFFFF000#64) ||| BitVec.ofNat 64 m.dest) tier
    let at_ := movedKey src dst len m.leafAt
    (0, invalidateLeaf (physPut s1 at_ e1) at_)

/-- A command's status lands and the command is gone (11_page R290; 16_mesh R364), or its task completes (14_queue R333). -/
def finishCmd (s : State) (n : Nat) (c : Cmd) (status : Word) : State :=
  let s1 := { s with cmds := tabDel s.cmds n }
  match c.task with
  | some (queue, pos) => finishTask s1 queue pos status
  | none => engineDone s1 c.home c.dest status none 0 false

/-- The poison that a migration's destination cannot hold is a sink of the command or prefetch that runs it (19_shroud R411, R412). -/
def migrationSink (s : State) (m : Migration) (t : PTag) (key : Nat) : State :=
  let ag := fun (asid : BitVec 12) (level : Level) (tag : STag) (cluster : Nat) =>
    ({ slice := noSlice, asid := asid, level := level, tag := tag, cluster := cluster } : Agent)
  match tabFind s.cmds m.owner, tabFind s.copies m.owner with
  | some c, _ => engineSink s c.home c.task (ag c.asid c.level c.tag c.cluster) t key
  | none, some c => engineSink s c.home c.task (ag c.asid c.level c.tag (c.engine / 16)) t key
  | none, none => s

/-- MIGRATION_COMMIT (11_page R287, R291): the copy of a migration has ended; ok tells whether every destination write succeeded, which none does
on a stack or port out of service (19_shroud R409). Where poison cannot be carried along, its sink follows and the migration is reverted (DESIGN
CHOICE, log 116). A PGMIG receives its status, a prefetch posts its frame (DEDUCED, log 68). -/
def execMigrationCommit (n : Nat) (ok : Bool) (s : State) : Host.Outcome State Fault Refusal :=
  next (match tabFind s.migrations n with
    | none => s
    | some m =>
      if frameBusy s m then s
      else
        let src := keyOfPa s (leafPa m.leaf0)
        let dst := keyOfPa s m.dest
        let lost := poisonUnheld s src dst (pageBytes m.size)
        let s0 := match lost with
          | some p => migrationSink s m p.1 p.2
          | none => s
        let r := endMigration { s0 with migrations := tabDel s0.migrations n } m (ok && lost.isNone && (deadTag s dst).isNone)
        let s1 := prefetchPost r.2 m r.1
        match tabFind s1.cmds m.owner with
        | some c => if c.kind = .pgmig ∧ c.running = true then finishCmd s1 m.owner c (BitVec.ofNat 64 r.1) else s1
        | none => s1)

/-- The start of a PGMIG (11_page R290, R291). -/
def pgmigStart (s : State) (n : Nat) (c : Cmd) : State :=
  match beginMigration s (BitVec.ofNat 12 (wordAt c.desc 1).toNat) (wordAt c.desc 0) (wordAt c.desc 2).toNat n false with
  | .error st => finishCmd s n c (BitVec.ofNat 64 st)
  | .ok s1 => { s1 with cmds := tabSet s1.cmds n { c with running := true } }

/-- The first offending field of a PGMIG descriptor (11_page R290). -/
def pgmigBadField (d : List Word) : Option Nat :=
  if wbits (wordAt d 1) 63 12 ≠ 0 then some 0x08 else if wordAt d 3 ≠ 0 then some 0x18 else none

/-- A command as slot q issues it, with its captured descriptor. -/
def cmdOf (s : State) (q : Nat) (kind : CmdKind) (descAddr : Word) (desc : List Word) (dest : Nat) (a r : Bool) (scope : BitVec 3) : Cmd :=
  let x := s.slot q
  { kind := kind, descAddr := descAddr, desc := desc, home := .slot q, slot := q, dest := x.regIndex dest, task := none, die := dieOf q,
    cluster := clusterOf q, asid := x.asid, level := x.level, tag := x.shtag, pc := x.pc, a := a, r := r, scope := scope,
    running := false, claim := none, gen := 0, engine := 0, ended := none }

/-- The state with a command in flight. -/
def pushCmd (s : State) (c : Cmd) : State := { s with cmds := tabSet s.cmds s.nextOp c, nextOp := s.nextOp + 1 }

/-- PGMIG (11_page R290). -/
def execPgmig (d a : BitVec 6) (s : State) : Host.Outcome State Fault Refusal :=
  let q := s.cur
  let w := encode (.pgmig d a)
  let sa := s.me.val a.toNat
  next (needLevel s q .supervisor w <| whenReady s q [d.toNat, a.toNat] <| unlessPoisoned s q [a.toNat] <|
    scalarCheck s q w .read sa.toNat 32 8 <|
      let g := scalarRead s q sa.toNat 32
      let desc := wordsOfBytes g.bytes
      match g.poison with
      | some t => sink g.st q t
      | none =>
        match pgmigBadField desc with
        | some off => trap g.st q 0x01 0 (BitVec.ofNat 64 off)
        | none => whenCopyRoom g.st q <|
          (countCopy (pushCmd g.st (cmdOf g.st q .pgmig sa desc d.toNat false false 0)) q d.toNat).complete q)

/-- Whether accesses past their Probe use translations that a TLBINV would remove (06_vector_access R151; 11_page R297): TLBINV then waits. -/
def invalidationWaits (s : State) (hit : BitVec 12 → Bool) : Bool :=
  (s.stores.any fun a => !a.waiting && hit a.asid) ||
  (s.slots.any fun e => hit e.2.asid && e.2.vq.any fun v => match v.probed with | some b => b.waits.isEmpty && !b.pages.isEmpty | none => false) ||
  (s.claims.any fun e => !e.2.waiting && hit e.2.agent.asid) ||
  s.copies.any fun c => hit c.2.asid && c.2.kind == .cpy && c.2.phase == .moving

/-- TLBINV (11_page R297). -/
def execTlbinv (d a : BitVec 6) (s : State) : Host.Outcome State Fault Refusal :=
  let q := s.cur
  let x := s.me
  let v := x.val d.toNat
  let hit := fun (asid : BitVec 12) => v.getLsbD 13 || asid == BitVec.ofNat 12 v.toNat
  let page := fun (e : TlbEntry) => v.getLsbD 12 || e.page == (x.val a.toNat).toNat / pageBytes e.size * pageBytes e.size
  next (needLevel s q .supervisor (encode (.tlbinv d a)) <| whenReady s q [d.toNat, a.toNat] <|
    unlessPoisoned s q [d.toNat, a.toNat] <|
      if wbits v 63 14 ≠ 0 then trap s q 0x01 0 (auxWord x (encode (.tlbinv d a)))
      else if accessPending s q then s.stallSlot q .accesses
      else if invalidationWaits s hit then s.stallSlot q .retry
      else { s with tlb := s.tlb.filter fun e => !(hit e.asid && page e) }.complete q)

/-- The word that PROBE writes (11_page R298). -/
def probeWord (s : State) (q : Nat) (va : Nat) : Word :=
  let x := s.slot q
  if inWindow s (clusterOf q) va then 0x800
  else if 2 ^ 56 ≤ va then 0
  else
    match walk s x.asid va with
    | .unmapped malformed => if malformed then 0x400 else 0
    | .leaf level _ e =>
      BitVec.ofNat 64 (2 ^ 63 + leafState e * 2 ^ 60 + sizeCode level * 2 ^ 56 + leafPa e +
        wbits e 11 11 * 2 ^ 7 + wbits e 10 10 * 2 ^ 6 + wbits e 8 8 * 2 ^ 5 + wbits e 7 7 * 2 ^ 4 + wbits e 6 6 * 2 ^ 3 + wbits e 5 5 * 2 ^ 2)

/-- PROBE (11_page R298). -/
def execProbe (d a : BitVec 6) (s : State) : Host.Outcome State Fault Refusal :=
  let q := s.cur
  next (needLevel s q .supervisor (encode (.probe d a)) <| whenReady s q [d.toNat, a.toNat] <| unlessPoisoned s q [a.toNat] <|
    s.finish q d.toNat (probeWord s q (s.me.val a.toNat).toNat) none)

/-- The contexts and operations whose accesses may go through a TLB slice (11_page R288), as agents of it: the slots of its core, or the copies,
the commands and the stream owners that an engine may work for. -/
def sliceUsers (s : State) (slice : Nat) : List Agent :=
  let ofSlots := fun (qs : List Nat) => (qs.filter fun q => (s.slot q).st != .free).map fun q => { scalarAgent s q with slice := slice }
  if slice < 9 * Config.cores then ofSlots (slotsOfCore (slice / 9))
  else
    ((s.copies.filter fun c => copySlice c.2.engine == slice).map fun c => (⟨slice, c.2.asid, c.2.level, c.2.tag, c.2.engine / 16, none⟩ : Agent)) ++
    (s.cmds.map fun c => (⟨slice, c.2.asid, c.2.level, c.2.tag, c.2.cluster, none⟩ : Agent)) ++ ofSlots (s.slots.map (·.1))

/-- PAGE_WALK (11_page R285, R288): a walker fills a slice with the translation of an address under an ASID for an agent that uses the slice, A
set and, for a write, D (DEDUCED, log 101). Failures are never cached (R289). -/
def execPageWalk (slice asid : Nat) (va : BitVec 64) (wr : Bool) (s : State) : Host.Outcome State Fault Refusal :=
  next (if slice < noSlice ∧ asid < 4096 ∧ va.toNat < 2 ^ 56 then
      match (sliceUsers s slice).find? fun ag => ag.asid == BitVec.ofNat 12 asid with
      | none => s
      | some ag =>
        match checkAddr s ag va.toNat (if wr then .write else .read) with
        | .ok _ => touch s ag va.toNat (if wr then .write else .read)
        | .error _ => s
    else s)

/-- The leaves below a table, over the levels that remain (11_page R280): virtual address, size code, place and entry. -/
def leavesBelow (s : State) : List (Nat × Nat) → Nat → Nat → Nat → List (Nat × Nat × Nat × Word)
  | [], _, _, _ => []
  | (lo, n) :: rest, level, tbl, va =>
    (List.range (2 ^ n)).flatMap fun i =>
      let at_ := tbl + 8 * i
      let e := physWord s at_
      let va' := va + i * 2 ^ lo
      if wbits e 1 0 = 0 ∨ (rangePoison s at_ 8).isSome then []
      else if wbits e 1 0 = 2 then (if leafOk s level e then [(va', sizeCode level, at_, e)] else [])
      else if wbits e 1 0 = 1 then
        match rest with
        | [] => []
        | (_, n') :: _ => if tableOk s n' e then leavesBelow s rest (level + 1) (keyOfPa s (wbits e 51 7 * 128)) va' else []
      else []

/-- The leaves of an address space (11_page R278). -/
def leavesOf (s : State) (asid : BitVec 12) : List (Nat × Nat × Nat × Word) :=
  if asidOk s asid then leavesBelow s walkLevels 0 (keyOfPa s (wbits (physWord s (asidEntry s asid)) 51 13 * 8192)) 0 else []

/-- Pages of HBM or CXL whose frame holds a physical address become POISONED with a tag (11_page R287): each leaf is invalidated in every
slice, and a pager request of kind 4 is posted for every address space that maps the page through it. -/
def poisonPages (s : State) (hit : Nat → Nat → Bool) (tag : PTag) : State :=
  let found := (List.range 4096).flatMap fun i =>
    ((leavesOf s (BitVec.ofNat 12 i)).filter fun l => (leafState l.2.2.2 = 1 ∨ leafState l.2.2.2 = 2) ∧
      hit (keyOfPa s (leafPa l.2.2.2)) (pageBytes l.2.1) = true).map fun l => (BitVec.ofNat 12 i, l)
  let s1 := found.foldl (fun st l =>
    let e1 := (leafWithState l.2.2.2.2 4 &&& ~~~0xFFF0000000000000#64) ||| BitVec.ofNat 64 (tag.toNat * 2 ^ 52)
    invalidateLeaf (physPut st l.2.2.2.1 e1) l.2.2.2.1) s
  found.foldl (fun st l => pagerPost st l.1 l.2.1 l.2.2.1 4) s1

/-- The event of a memory error that poisons (19_shroud R410, R415). -/
def memoryEvent (cls index pa : Nat) : Event :=
  { kind := 0x01, cause := 0, held := true, unitClass := cls, unitIndex := index, sub := 0, addr := pa, victim := 0, slot := none,
    pc := 0, detail := 0 }

/-- FRAME_UNREADABLE_REPORT (11_page R287): an HBM controller or CXL expander reports a whole frame unreadable. -/
def execFrameUnreadableReport (pa : Nat) (s : State) : Host.Outcome State Fault Refusal :=
  let k := keyOfPa s pa
  next (if isHbm k || isCxl s k then
      let r := recordEvent s (if isHbm k then memoryEvent 12 (k / Config.stackBytes) pa else memoryEvent 13 (cxlPort (cxlPlace s k)) pa)
      poisonPages r.2 (fun a n => decide (a ≤ k) && decide (k < a + n)) (BitVec.ofNat 12 r.1)
    else s)

end Sys2Proof.Machine
end

