-- ==== Sys2Proof/Machine/Copies.lean ====
section
/-! DEFINITION. Copies and prefetches in flight (08_stream R201, R214 to R220; 11_page R294, R295). -/

namespace Sys2Proof.Machine

/-- The agent of a copy (08_stream R225; 14_queue R333). -/
def Copy.agent (c : Copy) : Agent :=
  { slice := copySlice c.engine, asid := c.asid, level := c.level, tag := c.tag, cluster := c.engine / 16, pc := some c.pc }

/-- The state with a copy replaced. -/
def setCopy (s : State) (n : Nat) (c : Copy) : State := { s with copies := tabSet s.copies n c }

/-- The copy ends here with a status (08_stream R217). -/
def Copy.ends (c : Copy) (status : Nat) : Copy := { c with phase := .done status }

/-- Poison that a copy consumes: it is gone, and its issuer's shroud is killed (19_shroud R412). -/
def copySink (s : State) (n : Nat) (c : Copy) (t : PTag) : State :=
  engineSink { s with copies := tabDel s.copies n } c.home c.task c.agent t c.specAddr.toNat

/-- Whether a destination format is written block by block. -/
def Copy.blocks (c : Copy) : Bool := (dstFmt c.spec).isMx

/-- The destination bytes of the elements from i on, n of them: element bytes and the scale bytes of their blocks (08_stream R209, R215). -/
def elemRanges (p : List Word) (i n : Nat) : List (Nat × Nat) :=
  let w := (dstFmt p).width
  let lo := i * w / 8
  let hi := ((i + n) * w + 7) / 8
  if n = 0 then []
  else ((sDst p + BitVec.ofNat 64 lo).toNat, hi - lo) ::
    (if (dstFmt p).isMx then [((sP30 p + BitVec.ofNat 64 (i / 32)).toNat, (n + 31) / 32)] else [])

/-- The place of metadata halfword b of DECODE (08_stream R213). -/
def metaRange (p : List Word) (b : Nat) : Nat × Nat := ((sP30 p + BitVec.ofNat 64 (2 * b)).toNat, 2)

/-- The source bytes of a copy that its specification places by itself (08_stream R209 to R211): the elements of LINEAR and TENSOR with their scale
bytes, the indexes of GATHER, and the words of an explicit COORD. -/
def sourceRanges (p : List Word) : List (Nat × Nat) :=
  let w := (srcFmt p).width
  let row := fun (a : Word) => (a.toNat, (sCount p * w + 7) / 8)
  match specKind p with
  | 0 => row (sSrc p) :: (if (srcFmt p).isMx then [((sP28 p).toNat, (sCount p + 31) / 32)] else [])
  | 1 => (List.range (tensorCount p / sCount p)).map fun r => row (sSrc p + BitVec.ofInt 64 (tensorOffset p (sNdim p) 1 r))
  | 2 => [((sP28 p).toNat, sCount p * (if (sP30 p).getLsbD 0 then 8 else 4))]
  | 3 => if (sP38 p).getLsbD 32 then [((sP28 p).toNat, 4 * sCount p), ((sP30 p).toNat, 4 * sCount p)] else []
  | _ => []

/-- What a walk over a whole stream finds (08_stream R215): how many elements and metadata halfwords it gives, why it ends, and the pages that fail
Probe. -/
inductive DryRun where
  | ends (n md status : Nat) (ms : List Miss) (s : State)
  | held (s : State)
  | sink (t : PTag) (s : State)

/-- The walk of CPY's Probe over its source (08_stream R215), over at most fuel moves; md counts the metadata halfwords, ms holds the failing pages. Past
an element of GATHER that fails it goes on to the next; where the bytes after a failing one are not known without it, it ends (DESIGN CHOICE, log
115). -/
def dryRun (ag : Agent) (p : List Word) : Nat → Nat → List Miss → StreamCur → State → DryRun
  | 0, md, ms, c, s => .ends c.n md 0 ms s
  | k + 1, md, ms, c, s =>
    match nextElement s ag p c with
    | .elem _ c1 s1 => dryRun ag p k md ms c1 s1
    | .metadata _ c1 s1 => dryRun ag p k (md + 1) ms c1 s1
    | .stop st _ s1 => .ends c.n md st ms s1
    | .miss m s1 => if specKind p = 2 then dryRun ag p k md (insertMiss m ms) { c with n := c.n + 1 } s1 else .ends c.n md 0 (insertMiss m ms) s1
    | .held s1 => .held s1
    | .sink t s1 => .sink t s1

/-- CPY's walk over its source, after the bytes that its specification places by itself (08_stream R215); LINEAR and TENSOR have no others. -/
def sourceProbe (s : State) (ag : Agent) (p : List Word) : DryRun :=
  let ms := probe s ag .read (sourceRanges p)
  if specKind p = 0 then .ends (sCount p) 0 0 ms s
  else if specKind p = 1 then .ends (tensorCount p) 0 0 ms s
  else dryRun ag p (2 ^ 65) 0 ms StreamCur.start s

/-- The failing pages of some ranges for an engine's writes. -/
def destMisses (s : State) (ag : Agent) (rs : List (Nat × Nat)) : List Miss := probe s ag .write rs

/-- Whether some range lies in a MIGRATING page (11_page R292). -/
def destMigrates (s : State) (ag : Agent) (rs : List (Nat × Nat)) : Bool := rs.any fun r => migratingAt s ag r.1 r.2

/-- The beginning of a copy (08_stream R215, R218): its acquire, and for CPY the one Probe of every byte, whose lowest failing page gives the status
(00_scope R13). -/
def copyStart (s : State) (n : Nat) (c : Copy) : State :=
  let ag := c.agent
  if c.a then
    match engineAcquire s ag (sGuard c.spec) with
    | .error (st, s1) => if st = heldStatus then s1 else setCopy s1 n ({ c with a := false, r := false }.ends st)
    | .ok (some t, s1) => copySink s1 n c t
    | .ok (none, s1) => setCopy s1 n { c with a := false }
  else if c.kind = .cpys then setCopy s n { c with phase := .moving }
  else
    match sourceProbe s ag c.spec with
    | .sink t s1 => copySink s1 n c t
    | .held s1 => s1
    | .ends k md _ ms s1 =>
      let rs := elemRanges c.spec 0 k ++ (List.range md).map (metaRange c.spec)
      match (destMisses s1 ag rs).foldl (fun l m => insertMiss m l) ms with
      | m :: _ => let r := engineMiss s1 ag m; setCopy r.2 n (c.ends r.1)
      | [] => if destMigrates s1 ag rs then s else setCopy s1 n { c with phase := .moving }

/-- Bits written by an engine (08_stream R215, R219, R224): other bits of the touched bytes keep the value read. -/
def engWriteBits (s : State) (q : Home) (ag : Agent) (base : Word) (bit w bits : Nat) (p : Option PTag) (mode : Nat) : State :=
  let va := (base + BitVec.ofNat 64 (bit / 8)).toNat
  let off := bit % 8
  let n := (off + w + 7) / 8
  if off = 0 ∧ w % 8 = 0 then writeSw s q ag va (leBytes n bits) p mode
  else
    let g := readSw s ag va n mode
    let old := leNat g.bytes
    writeSw g.st q ag va (leBytes n (old - old / 2 ^ off % 2 ^ w * 2 ^ off + bits % 2 ^ w * 2 ^ off)) p mode

/-- An element of a copy converted (08_stream R219). -/
def copyConvert (p : List Word) (frm : BitVec 2) (e : Element) : Nat × FFlags :=
  if e.poison.isSome then (0, 0)
  else if srcFmt p = dstFmt p then (e.bits.toNat, 0)
  else if (srcFmt p).isMx then (dstFmt p).narrow (RMode.ofFrm frm) (sSat p) ((srcFmt p).value e.bits.toNat e.scale (sZb p))
  else convertElem (srcFmt p) (dstFmt p) (RMode.ofFrm frm) (sSat p) e.bits.toNat

/-- Write one element of a copy (08_stream R215, R219). -/
def copyPut (s : State) (c : Copy) (e : Element) : State × FFlags :=
  let w := (dstFmt c.spec).width
  let v := copyConvert c.spec c.frm e
  (engWriteBits s c.home c.agent (sDst c.spec) (c.count * w) w v.1 e.poison (sDswz c.spec), v.2)

/-- The elements of a block before the first that does not come (08_stream R219), n at most, with the place after them and what came instead. -/
def fetchBlock (ag : Agent) (p : List Word) : Nat → StreamCur → State → List Element → List Element × StreamCur × State × Option Fetch
  | 0, c, s, acc => (acc, c, s, none)
  | k + 1, c, s, acc =>
    match nextElement s ag p c with
    | .elem e c1 s1 => fetchBlock ag p k c1 s1 (acc ++ [e])
    | x => (acc, c, s, some x)

/-- Write one microscaling block of a copy (08_stream R219; 02_numbers R45), or the first elements of one whose others count as zeros (DESIGN CHOICE, log
115); the flags are those of its unpoisoned elements (02_numbers R33; log 90). -/
def copyPutBlock (s : State) (c : Copy) (es : List Element) : State × FFlags :=
  let p := c.spec
  let f := dstFmt p
  let q := c.home
  let t := es.foldl (fun t e => lowerTag t e.poison) none
  let r := if srcFmt p = f then ((es.headD ⟨0, none, 0⟩).scale, es.map fun e => e.bits.toNat, (0 : FFlags))
    else mxEncode f (RMode.ofFrm c.frm) (sSat p) (sZb p) (es.map fun e => (srcFmt p).value e.bits.toNat e.scale (sZb p))
  let s1 := (List.range es.length).foldl (fun st i =>
    engWriteBits st q c.agent (sDst p) ((c.count + i) * f.width) f.width (if t.isSome then 0 else r.2.1.getD i 0) t (sDswz p)) s
  (writeSw s1 q c.agent (sP30 p + BitVec.ofNat 64 (c.count / 32)).toNat [BitVec.ofNat 8 (if t.isSome then 0 else r.1)] t (sDswz p), r.2.2)

/-- Go on when some destination bytes may be written: CPYS stops before the first failing element (08_stream R215), and a write to a
MIGRATING page waits (11_page R292). -/
def copyDest (s : State) (n : Nat) (c : Copy) (rs : List (Nat × Nat)) (go : State) : State :=
  if c.kind = .cpys then
    match destMisses s c.agent rs with
    | m :: _ => let r := engineMiss s c.agent m; setCopy r.2 n (c.ends r.1)
    | [] => if destMigrates s c.agent rs then s else go
  else go

/-- What ends a copy at an element that does not come (08_stream R217), whatever it has moved. -/
def copyEnds (s : State) (n : Nat) (c : Copy) : Fetch → State
  | .stop st _ s1 => setCopy s1 n (c.ends st)
  | .miss m s1 => let r := engineMiss s1 c.agent m; setCopy r.2 n (c.ends r.1)
  | .held s1 => s1
  | .sink t s1 => copySink s1 n c t
  | .elem _ _ _ | .metadata _ _ _ => s

/-- The state of a copy that has moved k elements to a place of its stream. -/
def copyMoved (r : State × FFlags) (n : Nat) (cur : StreamCur) (k : Nat) : State :=
  match tabFind r.1.copies n with
  | none => r.1
  | some c => setCopy r.1 n { c with count := c.count + k, cur := cur, fflags := c.fflags ||| r.2 }

/-- One microscaling block of a copy moves, or the elements of it below the first failing one, with which the copy stops (08_stream R215, R219). -/
def copyBlock (s : State) (n : Nat) (c : Copy) : State :=
  let f := fetchBlock c.agent c.spec 32 c.cur s []
  let fails := fun (i : Nat) => if c.kind = .cpys then (destMisses f.2.2.1 c.agent (elemRanges c.spec (c.count + i) 1)).head? else none
  let k := ((List.range f.1.length).find? fun i => (fails i).isSome).getD f.1.length
  let why : Option Fetch := match fails k with
    | some m => if k < f.1.length then some (.miss m f.2.2.1) else f.2.2.2
    | none => f.2.2.2
  let waits := c.kind == .cpys && destMigrates f.2.2.1 c.agent (elemRanges c.spec c.count k)
  match why with
  | none => if waits then s else copyMoved (copyPutBlock f.2.2.1 c f.1) n f.2.1 32
  | some (.held s1) => s1
  | some (.sink t s1) => copySink s1 n c t
  | some x =>
    if k = 0 then copyEnds s n c x
    else if waits then s
    else
      let s1 := copyMoved (copyPutBlock f.2.2.1 c (f.1.take k)) n c.cur k
      match tabFind s1.copies n, x with
      | some c1, .stop st _ _ => setCopy s1 n (c1.ends st)
      | some c1, .miss m _ => let r := engineMiss s1 c.agent m; setCopy r.2 n (c1.ends r.1)
      | _, _ => s1

/-- One element, one metadata halfword, or one microscaling block, of a copy moves (08_stream R213, R215, R217). -/
def copyElem (s : State) (n : Nat) (c : Copy) : State :=
  if c.blocks then copyBlock s n c
  else
    match nextElement s c.agent c.spec c.cur with
    | .elem e cur s1 => copyDest s1 n c (elemRanges c.spec c.count 1) (copyMoved (copyPut s1 c e) n cur 1)
    | .metadata md cur s1 =>
      let r := metaRange c.spec c.cur.b
      copyDest s1 n c [r] (copyMoved (writeSw s1 c.home c.agent r.1 (leBytes 2 md) none (sDswz c.spec), 0) n cur 0)
    | x => copyEnds s n c x

/-- Whether what a copy has written ends at the end of an aligned 8-byte unit in each of its destinations (08_stream R215). -/
def Copy.aligned (c : Copy) : Bool :=
  let p := c.spec
  ((sDst p).toNat * 8 + c.count * (dstFmt p).width) % 64 == 0 &&
  (!(dstFmt p).isMx || ((sP30 p).toNat + c.count / 32) % 8 == 0) &&
  (specKind p != 7 || (sP38 p).getLsbD 0 == false || ((sP30 p).toNat + 2 * c.cur.b) % 8 == 0)

/-- A copy moves on until it stands at the end of an aligned unit, stops or waits, so that no unit is seen half written (08_stream R215)
(DEDUCED, log 100), over at most fuel moves. -/
def copyMove (n : Nat) : Nat → State → State
  | 0, s => s
  | k + 1, s =>
    match tabFind s.copies n with
    | none => s
    | some c =>
      let s1 := copyElem s n c
      match tabFind s1.copies n with
      | none => s1
      | some c1 => if c1.phase ≠ .moving ∨ c1.aligned = true ∨ c1.cur = c.cur then s1 else copyMove n k s1

/-- Pop a frame for a size code (11_page R294): the entry of ARRAY that the new COUNT numbers, from zero (DESIGN CHOICE, log 99). -/
def popFrame (s : State) (asid : BitVec 12) (size : Nat) : Option (Nat × State) :=
  let pool := physWord s (asidEntry s asid + 16)
  if asidOk s asid = false ∨ pool = 0 then none
  else
    let k := keyOfPa s pool.toNat + 16 * size
    let count := physLE s k 8
    if count = 0 then none
    else some (physLE s (keyOfPa s (physLE s (k + 8) 8) + 8 * (count - 1)) 8, physPutLE s k 8 (count - 1))

/-- Treat one page of a prefetch (11_page R295): the bytes up to its end, and the state; none while it is MIGRATING. -/
def prefetchPage (s : State) (ag : Agent) (va owner : Nat) : Option (Nat × State) :=
  if inWindow s ag.cluster va then some (4096 - va % 4096, s)
  else
    match walk s ag.asid va with
    | .unmapped _ => some (4096 - va % 4096, s)
    | .leaf level _ e =>
      let size := sizeCode level
      let page := va / pageBytes size * pageBytes size
      let rest := page + pageBytes size - va
      if leafPermits e ag.level .read = false then some (rest, s)
      else if leafState e = 3 then none
      else if leafState e = 2 then
        match popFrame s ag.asid size with
        | none => some (rest, pagerPost s ag.asid page size 2)
        | some (frame, s1) =>
          match beginMigration s1 ag.asid (BitVec.ofNat 64 page) frame owner true with
          | .ok s2 => some (rest, s2)
          | .error _ => some (rest, pagerPost s1 ag.asid frame size 5)
      else some (rest, s)

/-- One page of CPYPF (11_page R295); it waits for the migration that it has begun. -/
def prefetchMove (s : State) (n : Nat) (c : Copy) : State :=
  if s.migrations.any fun m => m.2.owner == n && m.2.prefetch then s
  else if (wordAt c.spec 1).toNat ≤ c.count then setCopy s n (c.ends 0)
  else
    match prefetchPage s c.agent ((wordAt c.spec 0).toNat + c.count) n with
    | none => s
    | some (k, s1) => setCopy s1 n { c with count := c.count + k }

/-- Whether the copy engine may work: it is not quarantined (19_shroud R409). -/
def engineHealthy (s : State) (e : Nat) : Bool := !s.quarUnits.contains (6, e)

/-- The next healthy engine of a cluster (19_shroud R409), in ascending local index modulo 16. -/
def healthyEngine (s : State) (e : Nat) : Nat :=
  match (List.range 16).find? fun i => engineHealthy s (e / 16 * 16 + (e % 16 + i) % 16) with
  | some i => e / 16 * 16 + (e % 16 + i) % 16
  | none => e

/-- COPY_ENGINE_TRANSFER (08_stream R214, R215; 09_guard R247): a copy in flight does its next piece of work, or a port, numbered by
core × 8 + port, fetches its next element (R202). -/
def execCopyEngineTransfer (isPort : Bool) (n : Nat) (s : State) : Host.Outcome State Fault Refusal :=
  next (if isPort then (if n / 8 < Config.cores ∧ frozenUnit s 6 (healthyEngine s (engineOf (n / 8))) = false then portFetch s (n / 8) (n % 8) else s)
    else match tabFind s.copies n with
      | none => s
      | some c =>
        if frozenUnit s 6 c.engine then s
        else match c.kind, c.phase with
        | .cpypf, .start | .cpypf, .moving => if startWaits s c.home n false then s else prefetchMove s n c
        | _, .start => if startWaits s c.home n (c.a && sGuard c.spec == 0) then s else copyStart s n c
        | _, .moving => copyMove n (2 ^ 65) s
        | _, .done _ => s)

/-- The completion word (08_stream R216). -/
def completionWord (status engine count : Nat) : Word :=
  BitVec.ofNat 64 (2 ^ 63 + status % 128 * 2 ^ 56 + engine % 256 * 2 ^ 48 + count % 2 ^ 48)

/-- The end of a copy (08_stream R216 to R220): the guard and the completion word are probed, the word is written, the release is
performed, and the result lands. It waits while one of those pages is MIGRATING, and a release for every access that a REL in the copy's place
would cover (09_guard R247; 20_link R431). -/
def copyFinish (s : State) (n : Nat) (c : Copy) (status : Nat) : State :=
  let ag := c.agent
  let cw := sCw c.spec
  let guard := if c.r then sGuard c.spec else 0
  if (cw && migratingAt s ag c.specAddr.toNat 8) || (guard != 0 && migratingAt s ag guard.toNat 8) || (c.r && releaseWaits s c.home n) then s
  else
    let g := guardStatus s ag guard
    let st1 := if g.1 = 0 then status else g.1
    let miss := if cw then (probeRange g.2 ag .write c.specAddr.toNat 8).head? else none
    let r := match miss with | some m => engineMiss g.2 ag m | none => (0, g.2)
    let st2 := if st1 = 0 then r.1 else st1
    let word := completionWord st2 c.engine c.count
    let s1 := if cw ∧ miss.isNone then writeVa r.2 c.home ag c.specAddr.toNat (leBytes 8 word.toNat) none else r.2
    let s2 := guardRelease s1 c.home c.task ag guard
    let s3 := { s2 with copies := tabDel s2.copies n }
    if (tabFind s2.copies n).isNone then s2
    else
      match c.task with
      | some (queue, pos) => finishTask s3 queue pos word
      | none => engineDone s3 c.home c.dest word none c.fflags (sUie c.spec && cw && miss.isNone)

/-- COPY_COMPLETION (08_stream R216, R220; 11_page R295). -/
def execCopyCompletion (n : Nat) (s : State) : Host.Outcome State Fault Refusal :=
  next (match tabFind s.copies n with
    | none => s
    | some c =>
      match c.phase with
      | .done status =>
        if frozenUnit s 6 c.engine then s
        else if c.kind = .cpypf then engineDone { s with copies := tabDel s.copies n } c.home 0 0 none 0 false
        else copyFinish s n c status
      | _ => s)

/-- The read of a specification (08_stream R201): aligned, readable, with CW writable in its first eight bytes, unpoisoned and well
formed. -/
def readSpec (s : State) (q : Nat) (w : Option Nat) (sa : Word) (copy : Bool) (k : List Word → State → State) : State :=
  scalarCheck s q w .read sa.toNat 64 64 <|
    let g := scalarRead s q sa.toNat 64
    match g.poison with
    | some t => sink g.st q t
    | none =>
      let p := wordsOfBytes g.bytes
      let go := match specBadField p copy with
        | some off => trap g.st q 0x01 0 (BitVec.ofNat 64 off)
        | none => k p g.st
      if sCw p then scalarCheck g.st q w .write sa.toNat 8 8 go else go

/-- A copy as slot q issues it. -/
def copyOf (s : State) (q : Nat) (kind : CopyKind) (spec : List Word) (sa : Word) (dest : Nat) (a r : Bool) (scope : BitVec 3) : Copy :=
  let x := s.slot q
  { kind := kind, phase := .start, spec := spec, specAddr := sa, home := .slot q, slot := q, dest := x.regIndex dest, task := none,
    core := coreOf q, engine := healthyEngine s (engineOf (coreOf q)), asid := x.asid, level := x.level, tag := x.shtag, pc := x.pc,
    a := a, r := r, scope := scope, frm := x.frm, count := 0, cur := StreamCur.start, fflags := 0 }

/-- The state with a copy in flight. -/
def pushCopy (s : State) (c : Copy) : State := { s with copies := tabSet s.copies s.nextOp c, nextOp := s.nextOp + 1 }

/-- Go on unless the core's copy port is full (04_sequencer R109). -/
def whenCopyPort (s : State) (q : Nat) (k : State) : State :=
  if copiesOfCore s (coreOf q) < 128 then k else s.stallSlot q .copyPortFull

/-- CPY and CPYS (08_stream R201, R215). -/
def issueCopy (s : State) (w : Option Nat) (kind : CopyKind) (d a : BitVec 6) (c l : BitVec 1) (sc : BitVec 3) : State :=
  let q := s.cur
  let sa := s.me.val a.toNat
  whenReady s q [d.toNat, a.toNat] <| unlessPoisoned s q [a.toNat] <|
    readSpec s q w sa true fun p s1 => whenCopyRoom s1 q <| whenCopyPort s1 q <|
      (countCopy (pushCopy s1 (copyOf s1 q kind p sa d.toNat (c = 1) (l = 1) sc)) q d.toNat).complete q

/-- CPY (08_stream R215). -/
def execCpy (d a : BitVec 6) (c l : BitVec 1) (xs : BitVec 3) (s : State) : Host.Outcome State Fault Refusal :=
  next (issueCopy s (encode (.cpy d a c l xs)) .cpy d a c l xs)

/-- CPYS (08_stream R215). -/
def execCpys (d a : BitVec 6) (c l : BitVec 1) (xs : BitVec 3) (s : State) : Host.Outcome State Fault Refusal :=
  next (issueCopy s (encode (.cpys d a c l xs)) .cpys d a c l xs)

/-- CPYPF (08_stream R215; 11_page R295): sd holds the length. -/
def execCpypf (d a : BitVec 6) (s : State) : Host.Outcome State Fault Refusal :=
  let q := s.cur
  let n := s.me.val d.toNat
  let sa := s.me.val a.toNat
  next (whenReady s q [d.toNat, a.toNat] <| unlessPoisoned s q [d.toNat, a.toNat] <|
    if 2 ^ 56 < sa.toNat + n.toNat then trapWord s q 0x01 (encode (.cpypf d a))
    else if n = 0 then s.complete q
    else whenCopyRoom s q <| whenCopyPort s q <|
      (countCopy (pushCopy s (copyOf s q .cpypf [sa, n] 0 0 false false 0)) q 0).complete q)

end Sys2Proof.Machine
end

