-- ==== Sys2Proof/Machine/Future.lean ====
section
/-! DEFINITION. Futures (15_barrier R351 to R356): FWAIT with its continuation record, FFILL, FRESET, and the walk of the
continuations after a fill. -/

namespace Sys2Proof.Machine

/-- The 16 bytes of a future as an instruction finds them under its Probe for write (15_barrier R351): the state word and the value. -/
def futRead (s : State) (q va : Nat) : Got × Word × Word :=
  let ag := scalarAgent s q
  let g : Got := match checkAddr s ag va .write with
    | .ok h =>
      let r := readKey (touch s ag va .write) h.key 16
      if h.poison.isSome then ⟨List.replicate 16 0, h.poison, r.st⟩ else r
    | .error _ => ⟨List.replicate 16 0, none, s⟩
  (g, wordAt (wordsOfBytes g.bytes) 0, wordAt (wordsOfBytes g.bytes) 1)

/-- Whether the state word has a reserved bit set or a reserved STATE (15_barrier R351). -/
def futBad (w : Word) : Bool := futReserved w || decide (2 ≤ futState w)

/-- An instruction on a future (15_barrier R353, R354, R356): alignment and Probe for write of the pair, then its own stores to the
pair are performed and a MIGRATING page is waited for. k receives the pair and the poison of its value; the state word of a poisoned granule is
a sink, unless the poison is that of the value that a fill wrote (DESIGN CHOICE, log 75). -/
def onFuture (s : State) (w : Option Nat) (a : BitVec 6) (k : State → Word → Word → Option PTag → State) : State :=
  let q := s.cur
  let va := ((s.slot q).val a.toNat).toNat
  scalarCheck s q w .write va 16 16 <|
    if storeOverlaps s q va 16 then s.stallSlot q .accesses
    else if migratingAt s (scalarAgent s q) va 16 then s.stallSlot q .retry
    else
      let r := futRead s q va
      match r.1.poison with
      | some t =>
        if valuePoison s (keyOfVa s (scalarAgent s q) va .write) (some t) then k r.1.st r.2.1 r.2.2 (some t) else sink r.1.st q t
      | none => k r.1.st r.2.1 r.2.2 none

/-- The first field of a continuation record that breaks R352, by its offset (00_scope R460). -/
def contBadField (r : List Word) : Option Nat :=
  let checks : List (Nat × Bool) :=
    [(0x00, recType r == 1), (0x01, recNpred r == 0), (0x02, recSucc0 r == 0), (0x03, recSucc1 r == 0),
     (0x04, wbits (wordAt r 0) 55 32 == 0), (0x07, recNw r == 0), (0x08, (recEntry r).toNat % 4 == 0), (0x18, recDone r == 0),
     (0x20, wordAt r 4 == 0), (0x28, wordAt r 5 == 0)]
  (checks.find? fun c => !c.2).map (·.1)

/-- The OWNER word of a linked record (15_barrier R352); none for a context of no task and no leaf group. -/
def ownerWord (x : Slot) : Option Word :=
  match x.ctx.work with
  | .none => none
  | .task n p => some (BitVec.ofNat 64 (x.shtag.toNat + n % 4096 * 2 ^ 16 + p % 2 ^ 32 * 2 ^ 32))
  | .leaf k i => some (BitVec.ofNat 64 (x.shtag.toNat + 2 ^ 12 + k % 4096 * 2 ^ 16 + i % 2 ^ 32 * 2 ^ 32))

/-- Whether a context has unjoined VFORK children or siblings that have not arrived at ERDV (15_barrier R353; 14_queue R340). -/
def Ctx.busyForks (c : Ctx) : Bool := c.children != [] || c.siblings != 0

/-- Whether the queues of slot q are empty and its counted operations have completed (14_queue R340; 15_barrier R353). -/
def slotDrained (s : State) (q : Nat) : Bool :=
  vectorIdle s q && tilesIdle s q && decide ((s.slot q).cnt = ⟨0, 0, 0, 0⟩)

/-- The CSA of a queue task's context goes back to its queue (14_queue R337). -/
def freeQueueCsa (s : State) (x : Slot) : State :=
  match x.ctx.work, x.ctx.csa with
  | .task n _, some k => s.setQueue n { s.queue n with csas := (s.queue n).csas.filter fun i => i != k }
  | _, _ => s

/-- The reader of an EMPTY future links its record and ends (15_barrier R353). head is the state word that it found. -/
def linkReader (s : State) (q fut : Nat) (rec head : Word) (owner : Word) : State :=
  let ag := scalarAgent s q
  let s1 := writeVa s (.slot q) ag (rec.toNat + 0x30) (bytesOfWords [owner, futHead head]) none
  let s2 := writeVa s1 (.slot q) ag fut (leBytes 8 (futHead rec).toNat) none
  releaseSlot (freeQueueCsa s2 (s2.slot q)) q

/-- FWAIT (15_barrier R353). The reader waits as well while its record lies in a MIGRATING page, to which it is to write (11_page R286, R292). -/
def execFwait (d a : BitVec 6) (sc : BitVec 3) (s : State) : Host.Outcome State Fault Refusal :=
  let q := s.cur
  let x := s.me
  let w := encode (.fwait d a sc)
  let rec_ := x.val d.toNat
  next (whenReady s q [d.toNat, a.toNat] <| unlessPoisoned s q [a.toNat] <|
    onFuture s w a fun s1 st v vp =>
      if futBad st then trap s1 q 0x01 0 st
      else if futState st = 1 then s1.finish q d.toNat (if vp.isSome then 0 else v) vp
      else if x.mode = .handler ∨ x.ctx.busyForks = true then trapWord s1 q 0x01 w
      else
        match ownerWord x with
        | none => trapWord s1 q 0x01 w
        | some o =>
          unlessPoisoned s1 q [d.toNat] <| scalarCheck s1 q w .update rec_.toNat 64 64 <|
            let g := scalarRead s1 q rec_.toNat 64
            match g.poison, contBadField (wordsOfBytes g.bytes) with
            | some t, _ => sink g.st q t
            | none, some off => trap g.st q 0x01 0 (BitVec.ofNat 64 off)
            | none, none =>
              if slotDrained g.st q = true ∧ migratingAt g.st (scalarAgent g.st q) rec_.toNat 64 = false then
                linkReader g.st q (x.val a.toNat).toNat rec_ st o
              else s.stallSlot q .retry)

/-- FFILL (15_barrier R354): the release half, then the atomic fill; the walk follows it. A poisoned value poisons the granule, and the device knows
that it is the value's poison (DESIGN CHOICE, log 75). -/
def execFfill (d a : BitVec 6) (sc : BitVec 3) (s : State) : Host.Outcome State Fault Refusal :=
  let q := s.cur
  let x := s.me
  let w := encode (.ffill d a sc)
  let fut := x.val a.toNat
  next (whenReady s q [d.toNat, a.toNat] <| unlessPoisoned s q [a.toNat] <|
    if fut.toNat % 16 ≠ 0 then trap s q 0x0B fut 0
    else match probeRange s (scalarAgent s q) .write fut.toNat 16 with
    | m :: ms => accessTrap s q w true (m :: ms) fut.toNat
    | [] => whenPerformed s q <| onFuture s w a fun s1 st _ _ =>
      if futState st ≠ 0 ∨ futReserved st = true then trap s1 q 0x01 0 st
      else
        let ag := scalarAgent s1 q
        let p := x.poisonOf d.toNat
        let v := if p.isSome then 0 else x.val d.toNat
        let s2 := writeVa s1 (.slot q) ag fut.toNat (bytesOfWords [0x4000000000000000#64, v]) p
        let s3 := match p with
          | some t => { s2 with futPoison := tabSet s2.futPoison (keyOfVa s1 ag fut.toNat .write) t }
          | none => s2
        if slotAlive s2 q then (startWalk s3 { ag with slice := noSlice } (futHead st) v p fut).complete q else s2)

/-- FRESET (15_barrier R356). -/
def execFreset (a : BitVec 6) (s : State) : Host.Outcome State Fault Refusal :=
  let q := s.cur
  let w := encode (.freset a)
  let fut := s.me.val a.toNat
  next (whenReady s q [a.toNat] <| unlessPoisoned s q [a.toNat] <|
    onFuture s w a fun s1 st _ _ =>
      if futBad st = true ∨ (futState st = 0 ∧ futHead st ≠ 0) then trap s1 q 0x01 0 st
      else (writeVa s1 (.slot q) (scalarAgent s1 q) fut.toNat (List.replicate 16 0) none).complete q)

/-- The pool entry of a continuation whose OWNER's task or leaf group is live (15_barrier R352, R354, R355). -/
def contEntry (s : State) (o : Word) (entry value : Word) (p : Option PTag) (arg fut : Word) : Option PoolEntry :=
  let tag : STag := BitVec.ofNat 10 o.toNat
  let n := wbits o 27 16
  let i := wbits o 63 32
  if o.getLsbD 12 then
    match findLeaf s n i with
    | none => none
    | some (x, l) =>
      if x.tag ≠ tag ∨ l.st = .ending then none
      else some
        { die := dieOfCore l.core, kind := .cont (.leaf n i) entry value p arg fut, prio := kPrio x.words, source := .kernel n,
          weight := 16, tag := tag, core := some l.core, slot := none, start := [], blocked := false }
  else
    match s.tasks.find? fun t => t.queue == n && t.pos % 2 ^ 32 == i with
    | none => none
    | some t =>
      if t.tag ≠ tag then none
      else some
        { die := t.die, kind := .cont (.task n t.pos) entry value p arg fut, prio := t.prio, source := .queue n,
          weight := t.weight, tag := tag, core := none, slot := none, start := [], blocked := false }

/-- Whether the words OWNER and LINK of a record are well formed (15_barrier R352). -/
def linkOk (o l : Word) : Bool :=
  wbits o 31 28 == 0 && wbits o 15 13 == 0 && wbits o 11 10 == 0 && wbits l 63 56 == 0 && wbits l 5 0 == 0

/-- One record of a continuation walk (15_barrier R354): it is made ready, or dropped when its owner has ended; a record that
cannot be read or is malformed ends the walk with an error record (DEDUCED, log 76). A walk waits while its record's pool holds 4,096 entries
(14_queue R334), and a device fill that waits for a MIGRATING page is made here when the page has left that state (11_page R292), followed by the
rest of the completion of its task, if it fills a task's DONE (R333). -/
def walkOne (s : State) (n : Nat) (w : Walker) : State :=
  let ag : Agent := { slice := noSlice, asid := w.asid, level := w.level, tag := w.tag, cluster := w.cluster }
  let va := w.next.toNat
  let stop := { s with walkers := tabDel s.walkers n }
  let r := wordsOfBytes (vRead s ag va 64)
  let o := wordAt r 6
  let l := wordAt r 7
  if w.fills then
    (if writeWaits s ag w.fut.toNat then s
    else
      let s1 := deviceFillNow stop ag w.fut w.value
      match w.task with
      | some t => admitTop (afterFill s1 t.1 t.2)
      | none => s1)
  else if probeRange s ag .update va 64 ≠ [] ∨ (vPoison s ag va 64).isSome ∨ linkOk o l = false then (recordEvent stop (fillEvent (mappedKey s ag va))).2
  else
    let s1 := if l = 0 then stop else { s with walkers := tabSet s.walkers n { w with next := l } }
    match contEntry s1 o (recEntry r) w.value w.poison (recArg r) w.fut with
    | some e => if 4096 ≤ poolCount s e.die then s else { s1 with pool := s1.pool ++ [e] }
    | none => s1

/-- CONTINUATION_WALK (15_barrier R354): the next record of a walk. -/
def execContinuationWalk (n : Nat) (s : State) : Host.Outcome State Fault Refusal :=
  next (match tabFind s.walkers n with
    | some w => walkOne s n w
    | none => s)

end Sys2Proof.Machine
end

