-- ==== Sys2Proof/Machine/Place.lean ====
section
/-! DEFINITION. The resources that a context takes when it starts (12_kernel R304; 13_group R310, R317; 14_queue R337): lane groups,
accumulator rows, a CSA index, and the state it starts in. -/

namespace Sys2Proof.Machine

/-- Whether two ranges of numbers, each a first and a length, overlap. -/
def rangesMeet (a b : Nat × Nat) : Bool := decide (a.1 < b.1 + b.2) && decide (b.1 < a.1 + a.2)

/-- The busy slots of a core. -/
def busyOfCore (s : State) (k : Nat) : List (Nat × Slot) := (busySlots s).filter fun e => coreOf e.1 == k

/-- The lane groups that the fork records of a context hold (13_group R315). -/
def childLanes (c : Ctx) : List (Nat × Nat) := c.children.map fun x => (x.laneBase, x.laneCount)

/-- The lane groups of a core that are in use (01_anatomy R18; 13_group R312, R315, R316): by slots, by forked contexts that are
switched out, by ended children not yet joined, and by ended contexts of ending groups. -/
def laneRanges (s : State) (k : Nat) : List (Nat × Nat) :=
  ((busyOfCore s k).flatMap fun e => (e.2.laneBase, e.2.laneCount) :: childLanes e.2.ctx) ++
  ((s.images.filter fun im => coreOf im.slot == k && im.held).flatMap fun im => (im.laneBase, im.laneCount) :: childLanes im.ctx) ++
  ((keptAll s).filter fun h => h.core == k).map fun h => (h.laneBase, h.laneCount)

/-- Whether a context works for a leaf group. -/
def Ctx.inLeaf (c : Ctx) : Bool := match c.work with | .leaf _ _ => true | _ => false

/-- The accumulator rows of a core that are in use (07_tile R167; 13_group R310, R312): those of a leaf group are its own until it has ended, also
while it is switched out. -/
def rowRanges (s : State) (k : Nat) : List (Nat × Nat) :=
  ((busyOfCore s k).map fun e => (e.2.accBase.toNat, e.2.accLim.toNat)) ++
  ((s.images.filter fun im => coreOf im.slot == k && im.ctx.inLeaf).map fun im => (im.accBase.toNat, im.accLim.toNat)) ++
  ((keptAll s).filter fun h => h.core == k).map fun h => (h.accBase, h.accRows)

/-- The lowest aligned set of n free lane groups of a core, by its first (13_group R310); a laneless context needs none. -/
def freeLanes (s : State) (k n : Nat) : Option Nat :=
  if n = 0 then some 0
  else
    ((List.range ((s.core k).laneMap.length / n)).map fun i => i * n).find? fun b => (laneRanges s k).all fun r => !rangesMeet r (b, n)

/-- The lowest row from which n free rows lie in a row (13_group R310). -/
def freeRows (s : State) (k n : Nat) : Option Nat :=
  if n = 0 then some 0 else (List.range (129 - n)).find? fun b => (rowRanges s k).all fun r => !rangesMeet r (b, n)

/-- The open slots of a core when it has the lane groups and rows that a context needs, else none (13_group R309, R310). -/
def ableSlots (s : State) (k nlg rows : Nat) : List Nat :=
  if (freeLanes s k nlg).isSome && (freeRows s k rows).isSome then (slotsOfCore k).filter (slotOpen s) else []

/-- A lane group is handed to a context (12_kernel R304): zeroed when it comes from another tag; else its contents are undefined,
unless the slot's first-use check keeps the context from reading them (10_context R269) (DEDUCED, log 62). -/
def giveLane (tag : STag) (guarded : Bool) (k : Nat) (s : State) (lg : Nat) : State :=
  let c := s.core k
  let clean := c.vec.filter fun e => e.1 / 1280 != lg
  if tabGet c.laneTag 0 lg ≠ tag then
    s.setCore k { c with vec := clean, fresh := tabDel c.fresh lg, laneTag := tabSet c.laneTag lg tag }
  else if guarded then s
  else { s.setCore k { c with vec := clean, fresh := tabSet c.fresh lg s.free } with free := s.free + 1280 }

/-- An accumulator row is handed to a context (12_kernel R304), as a lane group is. -/
def giveRow (tag : STag) (guarded : Bool) (k : Nat) (s : State) (r : Nat) : State :=
  let c := s.core k
  let acc := c.acc.filter fun e => e.1 / 128 != r
  let seg := c.seg.filter fun e => e.1 / 4 != r
  if tabGet c.rowTag 0 r ≠ tag then
    s.setCore k { c with acc := acc, seg := seg, fresh := tabDel c.fresh (8 + r), rowTag := tabDel c.rowTag r }
  else if guarded then s
  else { s.setCore k { c with acc := acc, seg := seg, fresh := tabSet c.fresh (8 + r) s.free } with free := s.free + 132 }

/-- The state in which a context starts, beside the lane groups and rows that it is given. -/
structure Start where
  entry : Word
  /-- the scalar registers that are not zero -/
  regs : List (Nat × SReg)
  csaBase : Word
  vcfg : BitVec 14
  frm : BitVec 2
  /-- the VL it asks for, up to VLMAX -/
  vl : Nat
  nlg : Nat
  rows : Nat
  /-- accumulator rows that are given already (13_group R317) -/
  range : Option (BitVec 7 × BitVec 8)
  /-- whether VOWNER becomes its CSA (13_group R314, R317) -/
  owns : Bool
  asid : BitVec 12
  tag : STag
  prio : BitVec 4
  deriving DecidableEq, Repr

/-- A context starts in a slot (12_kernel R304): what the start state does not name is at its reset value (log 15). -/
def startContext (s : State) (q : Nat) (b : Start) (ctx : Ctx) (runPrio : Nat) : State :=
  let k := coreOf q
  let lane := (freeLanes s k b.nlg).getD 0
  let row := (freeRows s k b.rows).getD 0
  let guarded := (s.slot q).vuse && (s.slot q).vowner != b.csaBase
  let s1 := (List.range b.nlg).foldl (fun st i => giveLane b.tag guarded k st (lane + i)) s
  let s2 := (List.range b.rows).foldl (fun st i => giveRow b.tag guarded k st (row + i)) s1
  let acc := b.range.getD (BitVec.ofNat 7 row, BitVec.ofNat 8 b.rows)
  let y : Slot :=
    { (s2.slot q).blank with
      st := .run, pc := b.entry, vowner := if b.owns then b.csaBase else (s2.slot q).vowner, regs := regTab b.regs, csaBase := b.csaBase, vcfg := b.vcfg, frm := b.frm, laneBase := lane,
      laneCount := b.nlg, accBase := acc.1, accLim := acc.2, asid := b.asid, shtag := b.tag, prio := b.prio, runPrio := runPrio,
      order := s2.nextOrder, ctx := { ctx with id := s2.nextCtx } }
  { s2.setSlot q { y with vl := min b.vl (y.vlmax b.vcfg) } with nextCtx := s2.nextCtx + 1, nextOrder := s2.nextOrder + 1 }

/-- The lowest number below n that is not in use (12_kernel R304). -/
def lowestFree (used : List Nat) (n : Nat) : Option Nat :=
  (List.range (used.length + 1)).find? fun i => decide (i < n) && !used.contains i

/-- A scalar register that holds a plain word. -/
def plainReg (w : Word) : SReg := ⟨w, none, .ready⟩

/-- CSABASE and s63 of a context with CSA index k of a pool (12_kernel R304). -/
def poolCsa (pool : Word) (k : Nat) : Word := pool + BitVec.ofNat 64 (4096 * k)
def poolStack (stack stride : Word) (k : Nat) : Word := stack + BitVec.ofNat 64 ((k + 1) * stride.toNat)

/-- The start of a leaf group's first context (12_kernel R301, R304), with s1 to s3 and the entry it has as a continuation
(15_barrier R355) when that is given. -/
def leafStart (x : Kernel) (i csa : Nat) (cont : Option (Word × SReg × Word × Word)) : Start :=
  let r := x.words
  let a := cont.getD (kEntry r, plainReg (kArg r), x.recAddr, BitVec.ofNat 64 i)
  { entry := a.1
    regs := [(1, a.2.1), (2, plainReg a.2.2.1), (3, plainReg a.2.2.2), (63, plainReg (poolStack (kStack r) (kSstride r) csa))]
    csaBase := poolCsa (kCsaPool r) csa, vcfg := BitVec.ofNat 14 (kVcfg r), frm := 0,
    vl := if kHasLane r then kExtent r (kNlev r - 1) else 0, nlg := kNlg r, rows := kAccRows r, range := none, owns := false, asid := x.asid,
    tag := x.tag, prio := BitVec.ofNat 4 (kPrio r) }

/-- A leaf group's context starts in a slot (13_group R312; 15_barrier R355): the group is RUNNING. -/
def startLeaf (s : State) (q k i : Nat) (prio : Nat) (cont : Option (Word × SReg × Word × Word)) : State :=
  match findLeaf s k i with
  | none => s
  | some (x, l) =>
    let csa := l.csas.headD 0
    let ctx : Ctx := { Ctx.none with work := .leaf k i, csa := some csa, source := .kernel k, gang := l.gang }
    startContext (setLeaf s k i fun l => { l with st := .running }) q (leafStart x i csa cont) ctx prio

/-- The CSA indexes of a kernel's pool in use (12_kernel R304). -/
def kernelCsas (x : Kernel) : List Nat := x.leaves.flatMap Leaf.csas

/-- The lowest free CSA index of a kernel's pool. -/
def freeKernelCsa (s : State) (k : Nat) : Option Nat :=
  match tabFind s.kernels k with
  | some x => lowestFree (kernelCsas x) (kNcsa x.words)
  | none => none

/-- A leaf group takes a further CSA index for a fork (13_group R314, R317). -/
def takeLeafCsa (s : State) (k i csa : Nat) : State := setLeaf s k i fun l => { l with csas := l.csas ++ [csa] }

/-- A leaf group gives up a CSA index (13_group R315, R318). -/
def dropLeafCsa (s : State) (k i csa : Nat) : State := setLeaf s k i fun l => { l with csas := l.csas.filter fun c => c != csa }

/-- The start of an EFORK sibling (13_group R317): the issuer's scalar registers, and after them FRM, ACCBASE, ACCLIM, VCFG, PRIO, ASID,
the leaf group's index and SHTAG as the issuer had them. -/
def siblingStart (x : Kernel) (entry : Word) (start : List SReg) (csa : Nat) : Start :=
  let at_ := fun i => (start.getD i SReg.zero).val.toNat
  let r := x.words
  { entry := entry
    regs := ((List.range 62).map fun i => (i + 1, start.getD (i + 1) SReg.zero)) ++ [(63, plainReg (poolStack (kStack r) (kSstride r) csa))]
    csaBase := poolCsa (kCsaPool r) csa, vcfg := BitVec.ofNat 14 (at_ 67), frm := BitVec.ofNat 2 (at_ 64), vl := 0, nlg := 0, rows := 0,
    range := some (BitVec.ofNat 7 (at_ 65), BitVec.ofNat 8 (at_ 66)), owns := true, asid := BitVec.ofNat 12 (at_ 69), tag := BitVec.ofNat 10 (at_ 71),
    prio := BitVec.ofNat 4 (at_ 68) }

/-- What EFORK keeps of its issuer for the siblings (13_group R317). -/
def siblingRegs (x : Slot) (leaf : Nat) : List SReg :=
  ((List.range 64).map fun i => x.bank0 i) ++
  [x.frm.toNat, x.accBase.toNat, x.accLim.toNat, x.vcfg.toNat, x.prio.toNat, x.asid.toNat, leaf, x.shtag.toNat].map fun n => plainReg (BitVec.ofNat 64 n)

/-- An EFORK sibling starts in a slot with a CSA of its kernel's pool (13_group R317); in an ending leaf group it is to end as well (12_kernel
R305). -/
def startSibling (s : State) (q k parent : Nat) (entry : Word) (start : List SReg) (prio : Nat) : State :=
  let i := (start.getD 70 SReg.zero).val.toNat
  match tabFind s.kernels k, freeKernelCsa s k with
  | some x, some csa =>
    let leaf := fun (f : Leaf → Bool) => match findLeaf s k i with | some (_, l) => f l | none => false
    let ctx : Ctx :=
      { Ctx.none with
        work := .leaf k i, csa := some csa, source := .kernel k, parent := some parent, sibling := true, gang := leaf Leaf.gang
        ending := leaf fun l => l.st == .ending }
    startContext (takeLeafCsa s k i csa) q (siblingStart x entry start csa) ctx prio
  | _, _ => s

/-- The start of a worker of a queue task (14_queue R337), or of its continuation (15_barrier R355). -/
def taskStart (t : Task) (d : List Word) (csa : Nat) (cont : Option (Word × SReg × Word × Word)) : Start :=
  let a := cont.getD (recEntry t.words, plainReg (recArg t.words), BitVec.ofNat 64 t.pos, BitVec.ofNat 64 t.queue)
  { entry := a.1
    regs := [(1, a.2.1), (2, plainReg a.2.2.1), (3, plainReg a.2.2.2), (63, plainReg (poolStack (dStack d) (dSstride d) csa))]
    csaBase := poolCsa (wordAt d 8) csa, vcfg := BitVec.ofNat 14 (dVcfg d), frm := 0, vl := 0, nlg := dNlg d, rows := dAccRows d,
    range := none, owns := false, asid := t.asid, tag := t.tag, prio := BitVec.ofNat 4 t.prio }

/-- A worker of a task starts in a slot (14_queue R333, R337). -/
def startTask (s : State) (q : Nat) (t : Task) (d : List Word) (prio : Nat) (cont : Option (Word × SReg × Word × Word)) : State :=
  let n := t.queue
  match lowestFree (s.queue n).csas (dNcsa d) with
  | none => s
  | some csa =>
    let ctx : Ctx := { Ctx.none with work := .task n t.pos, csa := some csa, source := .queue n, weight := t.weight }
    startContext (s.setQueue n { s.queue n with csas := csa :: (s.queue n).csas }) q (taskStart t d csa cont) ctx prio

end Sys2Proof.Machine
end

