-- ==== Sys2Proof/Machine/Group.lean ====
section
/-! DEFINITION. Leaf groups (13_group R312 to R320): their end, the splitting and joining of lanes, engine siblings, indices and exit;
and TDONE (14_queue R340), which ends a task or a leaf group. -/

namespace Sys2Proof.Machine

/-- What the instructions of a group act for (13_group R320; 14_queue R340): in handler mode the issuer is a supervisor context, of
no task and no group (DEDUCED, log 19). -/
def Slot.own (x : Slot) : Ctx := match x.mode with | .context => x.ctx | .handler => Ctx.none

/-- The state with the bookkeeping of one context changed, in its slot or in its image. -/
def updateCtx (s : State) (id : Nat) (f : Ctx → Ctx) : State :=
  { s with
    slots := s.slots.map fun e => if e.2.st ≠ .free ∧ e.2.ctx.id = id then (e.1, { e.2 with ctx := f e.2.ctx }) else e
    images := s.images.map fun im => if im.ctx.id = id then { im with ctx := f im.ctx } else im }

/-- Whether nothing of a leaf group is left but its resources (13_group R312): no context in a slot and no operation in flight. -/
def leafEmpty (s : State) (k i : Nat) : Bool :=
  !((busySlots s).any fun e => e.2.ctx.work == .leaf k i) && !(s.images.any fun im => im.ctx.work == .leaf k i) &&
  !(s.stores.any fun a => a.home.holds k i) && !(s.copies.any fun c => c.2.home.holds k i) && !(s.cmds.any fun c => c.2.home.holds k i)

/-- LEAF_GROUP_ENDED (13_group R312): an ENDING leaf group has ended, and its slots, lane groups, rows and CSAs are free. -/
def execLeafGroupEnded (k i : Nat) (s : State) : Host.Outcome State Fault Refusal :=
  next (match findLeaf s k i with
    | some (x, l) =>
      if l.st = .ending ∧ leafEmpty s k i = true then
        { s with kernels := tabSet s.kernels k { x with leaves := x.leaves.filter fun l => l.index != i } }
      else s
    | none => s)

/-- The leaf group of slot q's context ends (13_group R312, R320). The context runs no further: once the counted operations that stand in its queues
are done (DEDUCED, log 39: R455's kernel ends so), it gives up its slot, and its other operations in flight hold the group back. -/
def exitLeaf (s : State) (q k i : Nat) : State := drain ((endLeaf s k i).stallSlot q .draining) q

/-- GEXIT (13_group R320). -/
def execGexit (s : State) : Host.Outcome State Fault Refusal :=
  next (match s.me.own.work with
    | .leaf k i => exitLeaf s s.cur k i
    | _ => trapWord s s.cur 0x01 (encode .gexit))

/-- TDONE (14_queue R340). -/
def execTdone (a : BitVec 6) (s : State) : Host.Outcome State Fault Refusal :=
  let q := s.cur
  let x := s.me
  let w := encode (.tdone a)
  next (whenReady s q [a.toNat] <| unlessPoisoned s q [a.toNat] <|
    match x.own.work with
    | .none => trapWord s q 0x01 w
    | .leaf k i => exitLeaf s q k i
    | .task n p =>
      if x.ctx.busyForks then trapWord s q 0x01 w
      else if slotDrained s q then workerDone (releaseSlot (freeQueueCsa s x) q) n p (x.val a.toNat)
      else s.stallSlot q .retry)

/-- The linear index, at a level, of the group that holds a leaf group (12_kernel R301): the index of the leaf without the digits below. -/
def groupIndex (r : List Word) (i l : Nat) : Nat :=
  i / (List.range (kLeafLevel r - l)).foldl (fun n j => n * kExtent r (l + 1 + j)) 1

/-- GID's value for a leaf group (13_group R319). -/
def gidOf (r : List Word) (i n : Nat) : Word :=
  if kNlev r ≤ n then -1
  else if kDomain r n = 0 then BitVec.ofNat 64 (kExtent r n)
  else BitVec.ofNat 64 (groupIndex r i n % kExtent r n)

/-- GID (13_group R319). -/
def execGid (d n : BitVec 6) (s : State) : Host.Outcome State Fault Refusal :=
  let q := s.cur
  next (if 8 ≤ n.toNat then trapWord s q 0x01 (encode (.gid d n))
    else whenReady s q [d.toNat] <|
      match s.me.own.work with
      | .leaf k i => s.finish q d.toNat (match tabFind s.kernels k with | some x => gidOf x.words i n.toNat | none => -1) none
      | _ => s.finish q d.toNat (-1) none)

/-- Which context a mask bit of the issuer goes to at a VFORK, and to which bit (13_group R314): w and g of its VCFG, the VLENs before
and after, n lane groups. -/
def forkBit (w : Nat) (vOld vIssuer vChild n i : Nat) : Option (Bool × Nat) :=
  let r := i * w / vOld
  let b := i * w % vOld
  if b / 2048 < n / 2 then (if b < vIssuer then some (false, (r * vIssuer + b) / w) else none)
  else
    let b' := b - 2048 * (n / 2)
    if b' < vChild then some (true, (r * vChild + b') / w) else none

/-- The view of some lane groups for their mask bits. -/
def maskView (base count : Nat) : VView :=
  { base := base, count := count, vlen := 2048 * count, vl := 0, p := 0, vcfg := 0, frm := RMode.ofFrm 0 }

/-- The masks and bits below a limit that are set or poisoned in some lane groups. -/
def liveBits (c : Core) (v : VView) (limit : Nat) : List (Nat × Nat × Elem) :=
  (List.range 7).flatMap fun m => (List.range (16 * v.count)).flatMap fun j =>
    let ch := c.chunk (v.maskPlace (m + 1) (64 * j)).1
    if ch = ⟨0, none⟩ then []
    else (List.range 64).filterMap fun b =>
      let i := 64 * j + b
      let e := c.maskBit v (m + 1) i
      if i < limit ∧ (e.bits ≠ 0 ∨ e.poison.isSome) then some (m + 1, i, e) else none

/-- The core with m1 to m7 zero in some lane groups. -/
def clearMasks (c : Core) (v : VView) : Core :=
  (List.range 7).foldl (fun c m => (List.range (16 * v.count)).foldl (fun c j =>
    { c with vec := tabSet c.vec (v.maskPlace (m + 1) (64 * j)).1 ⟨0, none⟩ }) c) c

/-- The masks of the issuer spread over the issuer and the child (13_group R314). -/
def splitMasks (c : Core) (base n w vOld mOld vIssuer vChild : Nat) : Core :=
  let all := maskView base n
  (liveBits c all mOld).foldl (fun c b =>
    match forkBit w vOld vIssuer vChild n b.2.1 with
    | some (false, i) => c.putMask (maskView base (n / 2)) b.1 i b.2.2
    | some (true, i) => c.putMask (maskView (base + n / 2) (n / 2)) b.1 i b.2.2
    | none => c) (clearMasks c all)

/-- The masks of the issuer and an ended child put together again (13_group R315). -/
def joinMasks (c : Core) (base n w vOld mOld vIssuer vChild : Nat) : Core :=
  let all := maskView base n
  let bits := (List.range 7).flatMap fun m => (List.range mOld).filterMap fun i =>
    match forkBit w vOld vIssuer vChild n i with
    | some (child, j) => some (m + 1, i, c.maskBit (maskView (if child then base + n / 2 else base) (n / 2)) (m + 1) j)
    | none => none
  bits.foldl (fun c b => if b.2.2 = ⟨0, none⟩ then c else c.putMask all b.1 b.2.1 b.2.2) (clearMasks c all)

/-- The child's slot at a VFORK (13_group R314), at user level (10_context R250): x is the issuer before it, k the CSA index, r the kernel's record. In
an ending leaf group the child is to end as well (12_kernel R305). -/
def forkChild (s : State) (child : Nat) (x : Slot) (pc : Word) (r : List Word) (k : Nat) : Slot :=
  let n := x.laneCount
  let csa := poolCsa (kCsaPool r) k
  let y : Slot :=
    { (s.slot child).blank with
      st := .run, level := .user, pc := pc, regs := tabSet x.regs 63 (plainReg (poolStack (kStack r) (kSstride r) k)),
      csaBase := csa, vowner := csa, vcfg := x.vcfg, frm := x.frm, asid := x.asid, shtag := x.shtag, prio := x.prio,
      laneBase := x.laneBase + n / 2, laneCount := n / 2, runPrio := x.runPrio, order := s.nextOrder,
      ctx := { Ctx.none with id := s.nextCtx, work := x.ctx.work, parent := some x.ctx.id, csa := some k, source := x.ctx.source, weight := x.ctx.weight, gang := x.ctx.gang, ending := x.ctx.ending } }
  let h := ({ x with laneCount := n / 2 } : Slot).vlmax x.vcfg
  { y with vl := min (x.vl - h) (y.vlmax y.vcfg) }

/-- A successful VFORK (13_group R314), but for its result. -/
def forkLanes (s : State) (q child : Nat) (pc : Word) (r : List Word) (k : Nat) : State :=
  let x := s.slot q
  let n := x.laneCount
  let y := forkChild s child x pc r k
  let x1 := ({ x with laneCount := n / 2 } : Slot).clampVl
  let w := vWidth x.vcfg
  let rec_ : Child :=
    { slot := child, ended := false, joined := false, fflags := 0, laneBase := y.laneBase, laneCount := y.laneCount, csa := k, w := w,
      g := vGroup x.vcfg, vOld := x.vlen, vIssuer := x1.vlen, vChild := y.vlen }
  let c := splitMasks (s.core (coreOf q)) x.laneBase n w x.vlen (x.vlmax x.vcfg) x1.vlen y.vlen
  let s1 := match x.ctx.work with | .leaf kn i => takeLeafCsa s kn i k | _ => s
  let s2 := (s1.setCore (coreOf q) c).setSlot q { x1 with ctx := { x.ctx with children := rec_ :: x.ctx.children } }
  { s2.setSlot child y with nextCtx := s.nextCtx + 1, nextOrder := s.nextOrder + 1 }

/-- What VFORK comes to (13_group R313): its conditions in the order of their table. -/
def vforkResult (s : State) (q : Nat) (pc : Word) : Word × State :=
  let x := s.slot q
  if x.laneCount < 2 then (-2, s)
  else
    match x.own.work with
    | .leaf kn _ =>
      match tabFind s.kernels kn, freeKernelCsa s kn, freeSlotAmong s (slotsOfCore (coreOf q)) with
      | some kr, some k, some child => (BitVec.ofNat 64 child, forkLanes s q child pc kr.words k)
      | some _, some _, none => (-1, s)
      | _, _, _ => (-3, s)
    | _ => (-3, s)

/-- VFORK (13_group R313, R314): it also waits for every pending register, since the child takes them all (DEDUCED, log 20), and its
writes before it are performed. -/
def execVfork (d a : BitVec 6) (s : State) : Host.Outcome State Fault Refusal :=
  let q := s.cur
  let sa := s.me.val a.toNat
  next (whenReady s q [d.toNat, a.toNat] <| unlessPoisoned s q [a.toNat] <|
    if sa.toNat % 4 ≠ 0 then trap s q 0x0B sa 0
    else if vectorIdle s q = false then s.stallSlot q .vectorBusy
    else whenReady s q (List.range 64) <| whenPerformed s q <|
      let r := vforkResult s q sa
      r.2.finish q d.toNat r.1 none)

/-- The child form of VJOIN (13_group R315): the parent's record of it takes its flags, and its slot becomes FREE; its lane groups and its
CSA stay with the parent. -/
def endChild (s : State) (q : Nat) : State :=
  let x := s.slot q
  match x.ctx.parent, x.ctx.csa with
  | some p, some k =>
    releaseSlot (updateCtx s p fun c =>
      { c with children := c.children.map fun r => if r.csa = k ∧ r.joined = false then { r with ended := true, fflags := x.fflags } else r }) q
  | _, _ => s

/-- The innermost joined child of slot q gives its lane groups back (13_group R315), its slices and the masks put together again, when they lie
next to the issuer's; n children at most. -/
def takeLanes : Nat → State → Nat → State
  | 0, s, _ => s
  | n + 1, s, q =>
    let x := s.slot q
    match x.ctx.children.find? fun r => r.joined && r.laneBase == x.laneBase + x.laneCount with
    | none => s
    | some r =>
      let m := x.laneCount + r.laneCount
      let c := joinMasks (s.core (coreOf q)) x.laneBase m r.w r.vOld (vlmaxAt r.vOld r.w r.g) r.vIssuer r.vChild
      takeLanes n ((s.setCore (coreOf q) c).setSlot q
        { x with laneCount := m, ctx := { x.ctx with children := x.ctx.children.filter fun c => c.laneBase != r.laneBase } }) q

/-- The parent form of VJOIN (13_group R315) on an ended child: its flags and its CSA come back, and its lane groups as soon as they lie next to the
issuer's, so that what a slot owns stays contiguous and aligned (01_anatomy R18) (DEDUCED, log 21). -/
def joinChild (s : State) (q : Nat) (r : Child) : State :=
  let x := s.slot q
  let s1 := match x.ctx.work with | .leaf kn i => dropLeafCsa s kn i r.csa | _ => s
  let s2 := s1.setSlot q
    { x with
      fflags := x.fflags ||| r.fflags
      ctx := { x.ctx with children := x.ctx.children.map fun (d : Child) => if d.laneBase = r.laneBase then { d with joined := true } else d } }.complete
  takeLanes x.ctx.children.length s2 q

/-- VJOIN (13_group R315). -/
def execVjoin (a : BitVec 6) (s : State) : Host.Outcome State Fault Refusal :=
  let q := s.cur
  let x := s.me
  let w := encode (.vjoin a)
  let sa := x.val a.toNat
  next (if a = 0 then
      (if x.own.parent.isNone ∨ x.own.sibling = true ∨ x.own.busyForks = true then trapWord s q 0x01 w
      else if slotDrained s q then endChild s q else s.stallSlot q .retry)
    else whenReady s q [a.toNat] <| unlessPoisoned s q [a.toNat] <|
      match x.own.children.find? fun r => BitVec.ofNat 64 r.slot == sa && !r.joined with
      | none => trap s q 0x01 0 sa
      | some r => if r.ended && vectorIdle s q then joinChild s q r else s.stallSlot q .retry)

/-- One EFORK sibling (13_group R317): it starts in an open slot of the issuer's core when there is one and a CSA, else it waits in the
pool, where an ending leaf group has no entry (12_kernel R305). -/
def forkSibling (s : State) (q k i : Nat) (entry : Word) : State :=
  let x := s.slot q
  let regs := siblingRegs x i
  match freeSlotAmong s (slotsOfCore (coreOf q)), freeKernelCsa s k with
  | some p, some _ => startSibling s p k x.ctx.id entry regs x.prio.toNat
  | _, _ => if x.ctx.ending then s else
    let e : PoolEntry :=
      { die := dieOf q, kind := .sibling x.ctx.id entry q, prio := x.prio.toNat, source := x.ctx.source, weight := 16, tag := x.shtag,
        core := some (coreOf q), slot := none, start := regs, blocked := false }
    { s with pool := s.pool ++ [e] }

/-- EFORK (13_group R317): like VFORK it waits for every pending register and performs the writes before it. -/
def execEfork (a c : BitVec 6) (s : State) : Host.Outcome State Fault Refusal :=
  let q := s.cur
  let x := s.me
  let w := encode (.efork a c)
  let sa := (x.val a.toNat).toNat
  let n := c.toNat
  next (if n = 0 ∨ 3 < n then trapWord s q 0x01 w
    else match x.own.work with
    | .leaf k i =>
      if x.own.sibling = true ∨ 3 < x.own.siblings + n then trapWord s q 0x01 w
      else whenReady s q (List.range 64) <| unlessPoisoned s q [a.toNat] <| scalarCheck s q w .read sa (8 * n) 8 <|
        let g := scalarRead s q sa (8 * n)
        let es := wordsOfBytes g.bytes
        match g.poison, es.findIdx? fun e => decide (e.toNat % 4 ≠ 0) with
        | some t, _ => sink g.st q t
        | none, some j => trap g.st q 0x01 0 (BitVec.ofNat 64 j)
        | none, none => whenPerformed g.st q <|
          let s1 := es.foldl (fun st e => forkSibling st q k i e) g.st
          let y := s1.slot q
          s1.setSlot q { y with ctx := { y.ctx with siblings := y.ctx.siblings + n } }.complete
    | _ => trapWord s q 0x01 w)

/-- A sibling arrives at ERDV (13_group R318): its flags reach the issuer, and its slot and CSA are freed. -/
def endSibling (s : State) (q : Nat) : State :=
  let x := s.slot q
  let s1 := match x.ctx.work, x.ctx.csa with | .leaf k i, some c => dropLeafCsa s k i c | _, _ => s
  let s2 := match x.ctx.parent with
    | some p => updateCtx s1 p fun c => { c with siblings := c.siblings - 1, sibFlags := c.sibFlags ||| x.fflags }
    | none => s1
  releaseSlot s2 q

/-- ERDV (13_group R318). -/
def execErdv (s : State) : Host.Outcome State Fault Refusal :=
  let q := s.cur
  let x := s.me
  next (if x.own.sibling then (if slotDrained s q then endSibling s q else s.stallSlot q .retry)
    else if x.own.siblings = 0 then
      s.setSlot q { x with fflags := x.fflags ||| x.own.sibFlags, ctx := if x.mode = Mode.context then { x.ctx with sibFlags := 0 } else x.ctx }.complete
    else s.stallSlot q .retry)

end Sys2Proof.Machine
end

