-- ==== Sys2Proof/Machine/Kernel.lean ====
section
/-! DEFINITION. Kernels (12_kernel R299 to R308): the checks of a launch record, KLAUNCH, the creation of leaf groups with their placement
(13_group R309, R311), completion and abort. -/

namespace Sys2Proof.Machine

/-- The words of level l of a launch record (12_kernel R300). -/
def kLevelA (r : List Word) (l : Nat) : Word := wordAt r (16 + 2 * l)
def kLevelB (r : List Word) (l : Nat) : Word := wordAt r (17 + 2 * l)

/-- The least SCOPE of a level (12_kernel R301). -/
def scopeFloor (d : Nat) : Nat := d - 1

/-- The checks of a launch record's fields below its levels, by offset (12_kernel R299, R301). -/
def headChecks (r : List Word) : List (Nat × Bool) :=
  let w := fun i hi lo => wbits (wordAt r i) hi lo
  [(0x00, w 0 15 0 == 1), (0x02, decide (1 ≤ kNlev r ∧ kNlev r ≤ 8)), (0x03, w 0 31 28 == 0),
   (0x04, w 0 39 35 == 0 && kCscope r != 7), (0x05, w 0 47 43 == 0), (0x06, w 0 63 48 == 0), (0x08, (kEntry r).toNat % 4 == 0),
   (0x18, (kDone r).toNat % 16 == 0), (0x20, (kCsaPool r).toNat % 4096 == 0), (0x28, decide (1 ≤ kNcsa r ∧ kNcsa r ≤ 65536)),
   (0x2C, w 5 63 32 == 0), (0x38, decide (16 ≤ (kSstride r).toNat) && (kSstride r).toNat % 16 == 0), (0x40, decide (kVcfg r < 2 ^ 14)),
   (0x42, nlgOk (kNlg r)), (0x43, decide (kAccRows r ≤ 128)),
   (0x44, w 8 63 32 == 0 && (List.range 7).all fun i => wordAt r (9 + i) == 0)]

/-- The checks of level l below NLEV (12_kernel R300, R301): a rule that relates two fields is charged to the later of them (DEDUCED,
log 22). -/
def levelChecks (r : List Word) (l : Nat) : List (Nat × Bool) :=
  let a := kLevelA r l
  let e := wbits a 31 0
  let d := kDomain r l
  let sc := kScope r l
  let o := 0x80 + 16 * l
  let last := l + 1 == kNlev r
  [(o, decide (1 ≤ e ∧ e ≤ 2 ^ 24) && !(l == kLeafLevel r && decide (2 ^ 32 < kLeaves r))),
   (o + 4, wbits a 39 35 == 0 && (l == 0 || decide (d < kDomain r (l - 1))) && (!last || decide (d ≤ 1)) &&
     (d != 0 || (last && decide (1 ≤ l) && kDomain r (l - 1) == 1 && decide (1 ≤ kNlg r))) && (decide (d < 6) || e == 1)),
   (o + 5, wbits a 47 43 == 0 && decide (scopeFloor d ≤ sc) && sc != 7 && (d != 0 || sc == 0) && (l != 0 || decide (sc ≤ kCscope r))),
   (o + 6, wbits a 55 49 == 0), (o + 7, wbits a 63 56 == 0 && kLevelB r l == 0)]

/-- The checks of level l at or above NLEV: every byte is zero (12_kernel R299), charged to the first field that is not. -/
def emptyChecks (r : List Word) (l : Nat) : List (Nat × Bool) :=
  let a := kLevelA r l
  let o := 0x80 + 16 * l
  [(o, wbits a 31 0 == 0), (o + 4, wbits a 39 32 == 0), (o + 5, wbits a 47 40 == 0), (o + 6, wbits a 55 48 == 0),
   (o + 7, wbits a 63 56 == 0 && kLevelB r l == 0)]

/-- The first offending field of a launch record (12_kernel R301; 00_scope R460). -/
def kernelBadField (r : List Word) : Option Nat :=
  let levels := if 1 ≤ kNlev r ∧ kNlev r ≤ 8 then
      (List.range 8).flatMap fun l => if l < kNlev r then levelChecks r l else emptyChecks r l
    else []
  ((headChecks r ++ levels).find? fun c => !c.2).map (·.1)

/-- What a launcher in a leaf group may not launch (12_kernel R302): the result that says so. -/
def launchRefusal (s : State) (r : List Word) (w : Work) : Option Word :=
  match w with
  | .leaf k _ =>
    (match tabFind s.kernels k with
    | some p =>
      if kNlev p.words ≤ kAnchor r ∨ kDomain p.words (kAnchor r) < kDomain r 0 then some (-3)
      else if 8 ≤ p.depth then some (-2)
      else none
    | none => none)
  | _ => none

/-- The lowest free kernel identifier (12_kernel R302). -/
def freeKernelId (s : State) : Option Nat := lowestFree (s.kernels.map (·.1)) 4096

/-- The cores of one instance of a domain (01_anatomy R20, R23). -/
def domainCores (d : Nat) : Nat :=
  match d with
  | 0 | 1 | 2 => 1
  | 3 => 64
  | 4 => 128
  | _ => 1024

/-- The cores of an instance of a domain: the first and their number. -/
def instanceCores (d i : Nat) : Nat × Nat := (i * domainCores d, domainCores d)

/-- The instance a group of a kernel is bound to (13_group R309). -/
def bindingOf (x : Kernel) (l i : Nat) : Option Nat := (x.bindings.find? fun b => b.1 == l && b.2.1 == i).map fun b => b.2.2

/-- The cores to which a kernel is confined (12_kernel R302): the launcher's group at level ANCHOR, or the package. -/
def launchCores (s : State) (r : List Word) (parent : Option (Nat × Nat)) : Nat × Nat :=
  match parent with
  | none => (0, Config.cores)
  | some (k, i) =>
    match findLeaf s k i with
    | none => (0, Config.cores)
    | some (p, l) =>
      let a := kAnchor r
      if kLeafLevel p.words ≤ a then (l.core, 1)
      else match bindingOf p a (groupIndex p.words i a) with
        | some b => instanceCores (kDomain p.words a) b
        | none => (0, Config.cores)

/-- A kernel captured at KLAUNCH (12_kernel R302, R303). A top-level kernel has depth 1 (DEDUCED, log 23). -/
def newKernel (s : State) (x : Slot) (recAddr : Word) (r : List Word) : Kernel :=
  let parent := match x.own.work with | .leaf k i => some (k, i) | _ => none
  let depth := match parent with
    | some (k, _) => (match tabFind s.kernels k with | some p => p.depth + 1 | none => 1)
    | none => 1
  { recAddr := recAddr, words := r, st := .pending, cursor := 0, parent := parent, depth := depth, cores := launchCores s r parent, asid := x.asid, tag := x.shtag,
    leaves := [], bindings := [], orphaned := false }

/-- KLAUNCH (12_kernel R302). -/
def execKlaunch (d a : BitVec 6) (s : State) : Host.Outcome State Fault Refusal :=
  let q := s.cur
  let x := s.me
  let w := encode (.klaunch d a)
  let sa := x.val a.toNat
  next (whenReady s q [d.toNat, a.toNat] <| unlessPoisoned s q [a.toNat] <| scalarCheck s q w .read sa.toNat 256 64 <|
    let g := scalarRead s q sa.toNat 256
    let r := wordsOfBytes g.bytes
    match g.poison, kernelBadField r with
    | some t, _ => sink g.st q t
    | none, some off => trap g.st q 0x01 0 (BitVec.ofNat 64 off)
    | none, none =>
      if x.prio.toNat < kPrio r then trapWord g.st q 0x02 w
      else whenPerformed g.st q <|
        match launchRefusal g.st r x.own.work, freeKernelId g.st with
        | some v, _ => g.st.finish q d.toNat v none
        | none, none => g.st.finish q d.toNat (-1) none
        | none, some k =>
          ({ g.st with kernels := tabSet g.st.kernels k (newKernel g.st x sa r) }).finish q d.toNat (BitVec.ofNat 64 k) none)

/-- The slots of some cores that can take a leaf group (13_group R309). -/
def ableIn (s : State) (nlg rows : Nat) (cores : Nat × Nat) : Nat :=
  (List.range cores.2).foldl (fun n i => n + (ableSlots s (cores.1 + i) nlg rows).length) 0

/-- The instance, among those of a domain inside some cores, with the most slots able to take the leaf group; the lowest of equals
(13_group R309). -/
def bestInstance (s : State) (nlg rows d : Nat) (cores : Nat × Nat) : Nat :=
  let size := domainCores d
  let first := cores.1 / size
  ((List.range (max 1 (cores.2 / size))).foldl (fun (best : Nat × Nat) i =>
    let n := ableIn s nlg rows (instanceCores d (first + i))
    if best.2 < n + 1 then (first + i, n + 1) else best) (first, 0)).1

/-- Bind the groups that hold leaf i, from level l inward (13_group R309): the kernel with its bindings, and the leaf's core. force gives
the core for the CORE level of a gang (R311) (DEDUCED, log 77). -/
def bindLevels (s : State) (i : Nat) (force : Option Nat) : Nat → Nat → Kernel → Nat × Nat → Kernel × Nat
  | 0, _, x, cores => (x, if cores.2 = 1 then cores.1 else (force.getD (bestInstance s (kNlg x.words) (kAccRows x.words) 2 cores)))
  | n + 1, l, x, cores =>
    let d := kDomain x.words l
    let g := groupIndex x.words i l
    match bindingOf x l g with
    | some b => bindLevels s i force n (l + 1) x (instanceCores d b)
    | none =>
      let b := if d = 2 ∧ force.isSome then force.getD 0 else bestInstance s (kNlg x.words) (kAccRows x.words) d cores
      bindLevels s i force n (l + 1) { x with bindings := (l, g, b) :: x.bindings } (instanceCores d b)

/-- Create the leaf group at a kernel's cursor (12_kernel R303, R304): the lowest free CSA, its core, and the cursor moved on. -/
def createLeaf (s : State) (k : Nat) (gang : Bool) (force : Option Nat) : Option (Nat × State) :=
  match tabFind s.kernels k, freeKernelCsa s k with
  | some x, some csa =>
    let i := x.cursor
    let b := bindLevels s i force (kLeafLevel x.words) 0 x (x.cores)
    let leaf : Leaf := { index := i, core := b.2, st := .waiting, csas := [csa], gang := gang, kept := [] }
    let y : Kernel :=
      { b.1 with
        leaves := b.1.leaves ++ [leaf], cursor := i + 1
        st := if i + 1 = kLeaves x.words then .draining else .running }
    some (b.2, { s with kernels := tabSet s.kernels k y })
  | _, _ => none

/-- The outermost GANG level of a record above or at the leaf level (13_group R311). -/
def gangLevel (r : List Word) : Option Nat := (List.range (kLeafLevel r + 1)).find? fun l => kGang r l

/-- The leaf groups under one parent of a level (13_group R311). -/
def leavesUnder (r : List Word) (l : Nat) : Nat := (List.range (kLeafLevel r + 1 - l)).foldl (fun n j => n * kExtent r (l + j)) 1

/-- Admit n leaf groups of a gang, each created and dispatched at once (13_group R311); none when one cannot be, or a die's pool holds 3,072
entries (14_queue R334). core gives each leaf its core where the gang fixes it. -/
def admitGang (k : Nat) (core : Nat → Option Nat) : Nat → Nat → State → Option State
  | 0, _, s => some s
  | n + 1, j, s =>
    match createLeaf s k true (core j) with
    | none => none
    | some (c, s1) =>
      match tabFind s1.kernels k with
      | none => none
      | some x =>
        match (if 3072 ≤ poolCount s (dieOfCore c) then [] else ableSlots s1 c (kNlg x.words) (kAccRows x.words)) with
        | [] => none
        | q :: _ => admitGang k core n (j + 1) (startLeaf s1 q k (x.cursor - 1) (kPrio x.words) none)

/-- The cores in which the gang of a kernel's cursor may lie (13_group R309, R311): those of the parent group, once it is bound. -/
def gangCoresOf (x : Kernel) (g : Nat) : Nat × Nat :=
  match g with
  | 0 => x.cores
  | l + 1 =>
    match bindingOf x l (groupIndex x.words x.cursor l) with
    | some b => instanceCores (kDomain x.words l) b
    | none => x.cores

/-- The outermost CORE gang of 16 of a record from a level on (13_group R311). -/
def coreGang (r : List Word) (g : Nat) : Option Nat :=
  (List.range (kLeafLevel r + 1)).find? fun l => decide (g ≤ l) && kGang r l && kDomain r l == 2 && kExtent r l == 16

/-- Admission of the groups under one parent of a CORE gang of 16, at level g, from a kernel's cursor on (13_group R311): they lie on 16 cores from a
multiple of 16; a parent group that is not yet bound is bound as for any leaf group. -/
def admitCoreGang (k g : Nat) (s : State) : Option State :=
  match tabFind s.kernels k with
  | none => none
  | some x =>
    let n := leavesUnder x.words g
    let parent := (bindLevels s x.cursor none g 0 x (x.cores)).1
    let s1 := { s with kernels := tabSet s.kernels k parent }
    let cores := gangCoresOf parent g
    ((List.range (cores.2 / 16)).map fun b => cores.1 / 16 * 16 + 16 * b).findSome? fun g0 =>
      admitGang k (fun j => some (g0 + j / (n / 16))) n 0 s1

/-- Admission of the gang of level g at a kernel's cursor (13_group R311), by the CORE gangs of 16 within it where it has some. -/
def gangCreate (s : State) (k : Nat) (x : Kernel) (g : Nat) : Option State :=
  let n := leavesUnder x.words g
  match coreGang x.words g with
  | some l => (List.range (n / leavesUnder x.words l)).foldl (fun o _ => o.bind (admitCoreGang k l)) (some s)
  | none => admitGang k (fun _ => none) n 0 s

/-- The pool entry of a leaf group (13_group R309; 14_queue R334). -/
def leafEntry (x : Kernel) (k i core : Nat) : PoolEntry :=
  { die := dieOfCore core, kind := .leaf k i, prio := kPrio x.words, source := .kernel k, weight := 16, tag := x.tag, core := some core,
    slot := none, start := [], blocked := false }

/-- LEAF_GROUP_CREATE (12_kernel R303, R304; 13_group R309, R311): the leaf group at the cursor is created and enters its pool, or the
gang at the cursor is admitted; nothing happens while no CSA is free, the pool takes no more, or placement does not allow it. -/
def execLeafGroupCreate (k : Nat) (s : State) : Host.Outcome State Fault Refusal :=
  next (match tabFind s.kernels k with
    | none => s
    | some x =>
      if x.st ≠ .pending ∧ x.st ≠ .running then s
      else match gangLevel x.words with
        | some g => (gangCreate s k x g).getD s
        | none =>
          match createLeaf s k false none with
          | none => s
          | some (c, s1) =>
            if 3072 ≤ poolCount s (dieOfCore c) then s
            else { s1 with pool := s1.pool ++ [leafEntry x k x.cursor c] })

/-- The live children of a kernel; one that has lost its parent is the child of no kernel with the same identifier (12_kernel R303). -/
def childKernels (s : State) (k : Nat) : List Nat :=
  (s.kernels.filter fun e => match e.2.parent with | some (p, _) => p == k && !e.2.orphaned | none => false).map (·.1)

/-- Whether a home is that of an ended context of a kernel. -/
def Home.ofKernel (h : Home) (k : Nat) : Bool := match h with | .ended k' _ _ => k' == k | _ => false

/-- Whether operations for the contexts of a kernel's leaf groups are still in flight (12_kernel R303), or, where its completion releases at NODE or SYSTEM
scope, writes of theirs to other packages that no ACK covers (12_kernel R306; 20_link R431). -/
def kernelOps (s : State) (k : Nat) : Bool :=
  (s.stores.any fun a => a.home.ofKernel k) || (s.copies.any fun c => c.2.home.ofKernel k) || (s.cmds.any fun c => c.2.home.ofKernel k) ||
  match tabFind s.kernels k with
  | some x => decide (5 ≤ kCscope x.words) && s.sent.any fun e => e.home.ofKernel k
  | none => false

/-- Whether the fill of a kernel's DONE has to wait for a MIGRATING page (11_page R292): the kernel has not ended before it, and a kill still comes
first (12_kernel R307). -/
def endWaits (s : State) (x : Kernel) : Bool := fillWaits s (deviceAgent x.asid x.tag) (kDone x.words)

/-- KERNEL_COMPLETE (12_kernel R303, R306): every leaf group and every child has ended, and DONE is filled with 0. -/
def execKernelComplete (k : Nat) (s : State) : Host.Outcome State Fault Refusal :=
  next (match tabFind s.kernels k with
    | some x => if x.st = .draining ∧ x.leaves = [] ∧ childKernels s k = [] ∧ kernelOps s k = false ∧ endWaits s x = false then endKernel s k 0 else s
    | none => s)

/-- A kernel begins to abort (12_kernel R303, R305): its leaf groups end as an ENDING group does. -/
def abortKernel (s : State) (k : Nat) : State :=
  match tabFind s.kernels k with
  | none => s
  | some x =>
    if x.st = .aborting then s
    else x.leaves.foldl (fun st l => endLeaf st k l.index) { s with kernels := tabSet s.kernels k { x with st := .aborting } }

/-- Whether the parent of a kernel is gone or aborting while it is not (12_kernel R303). -/
def orphan (s : State) (x : Kernel) : Bool :=
  match x.parent with
  | none => false
  | some (p, _) => x.orphaned || match tabFind s.kernels p with | none => true | some y => y.st == .aborting

/-- KERNEL_ABORTED (12_kernel R303, R305): a kernel whose parent aborts begins to abort; an aborting kernel without leaf groups and
children is ABORTED, and DONE is filled with 2. -/
def execKernelAborted (k : Nat) (s : State) : Host.Outcome State Fault Refusal :=
  next (match tabFind s.kernels k with
    | some x =>
      if x.st = .aborting then (if x.leaves = [] ∧ childKernels s k = [] ∧ endWaits s x = false then endKernel s k 2 else s)
      else if orphan s x then abortKernel s k
      else s
    | none => s)

end Sys2Proof.Machine
end

