-- ==== Sys2Proof/Machine/Queue.lean ====
section
/-! DEFINITION. Queues and tasks (14_queue R323 to R341): pushing a record, the status word, the doorbell, and the taking of a record by
the queue unit. -/

namespace Sys2Proof.Machine

/-- The checks of TQPUSH and TQPUSHN on their operands (14_queue R339): the queue number, the record's alignment and Probe, its poison and
its format; k takes the record's bytes. The writes before the push are performed. -/
def pushChecked (s : State) (w : Option Nat) (a b : BitVec 6) (k : State → Nat → List Byte → State) : State :=
  let q := s.cur
  let x := s.slot q
  let n := x.val a.toNat
  let sb := (x.val b.toNat).toNat
  unlessPoisoned s q [a.toNat, b.toNat] <|
    if 4095 < n.toNat then trap s q 0x01 0 n
    else scalarCheck s q w .read sb 64 64 <|
      let g := scalarRead s q sb 64
      match g.poison, recordBadField (wordsOfBytes g.bytes) with
      | some t, _ => sink g.st q t
      | none, some off => trap g.st q 0x01 0 (BitVec.ofNat 64 off)
      | none, none => whenPerformed g.st q (k g.st n.toNat g.bytes)

/-- A push by slot q (14_queue R339): its status, and whether the queue's descriptor is at fault and to be handled (R324). -/
def pushRecord (s : State) (q n : Nat) (rec : List Byte) : Nat × State :=
  match readDesc s n with
  | .error f => (3, queueFailed s n f)
  | .ok d =>
    if dDev d = false ∨ dEn d = false ∨ ((s.slot q).level = .user ∧ qAsid s n ≠ (s.slot q).asid) then (3, s)
    else
      let r := pushWith s n d rec
      (r.1, if r.1 < 2 then wakeQueue r.2 n else r.2)

/-- TQPUSH (14_queue R339): a push that cannot be made traps. -/
def execTqpush (a b : BitVec 6) (s : State) : Host.Outcome State Fault Refusal :=
  let q := s.cur
  let w := encode (.tqpush a b)
  next (whenReady s q [a.toNat, b.toNat] <| pushChecked s w a b fun s1 n rec =>
    let r := pushRecord s1 q n rec
    if r.1 = 3 then trapWord r.2 q 0x0A w
    else if r.1 = 2 then trapWord r.2 q 0x14 w
    else r.2.complete q)

/-- TQPUSHN (14_queue R339): sd takes the status. -/
def execTqpushn (d a b : BitVec 6) (s : State) : Host.Outcome State Fault Refusal :=
  let q := s.cur
  next (whenReady s q [d.toNat, a.toNat, b.toNat] <| pushChecked s (encode (.tqpushn d a b)) a b fun s1 n rec =>
    let r := pushRecord s1 q n rec
    r.2.finish q d.toNat (BitVec.ofNat 64 r.1) none)

/-- TQSTAT (14_queue R341). -/
def execTqstat (d a : BitVec 6) (s : State) : Host.Outcome State Fault Refusal :=
  let q := s.cur
  let n := s.me.val a.toNat
  next (whenReady s q [d.toNat, a.toNat] <| unlessPoisoned s q [a.toNat] <|
    if 4095 < n.toNat then trapWord s q 0x01 (encode (.tqstat d a)) else (tqstatRead s n.toNat).finish q d.toNat (tqstatOf s n.toNat) none)

/-- DOORBELL (14_queue R325): a write of size bytes at an offset of a queue's notify page by a producer that has no slot: the host or a
Muaris link, or another agent of the package. -/
def execDoorbell (queue off size : Nat) (v : Word) (outside : Bool) (s : State) : Host.Outcome State Fault Refusal :=
  next (if queue < 4096 ∧ off < 4096 then notifyWrite s (queue * 4096 + off) (leBytes size v.toNat) outside else s)

/-- Where the next record of a queue stands (14_queue R330): from its ring, by position HEAD, or from its spill area; none when no record
is present. -/
def nextRecord (s : State) (n : Nat) (d : List Word) : Option (Bool × Nat) :=
  if dHead d < max (dTail d) (s.queue n).notified then some (false, dBase d + 64 * (dHead d % dNent d))
  else if dShead d < dStail d then some (true, dSpill d + 64 * (dShead d % dSnent d))
  else none

/-- The state after a record is taken (14_queue R330): HEAD or SHEAD moves on, and the queue may fail anew. -/
def tookRecord (s : State) (n : Nat) (d : List Word) (spill : Bool) : State :=
  let s1 := if spill then descPut s n 0x30 (dShead d + 1) else descPut s n 0x10 (dHead d + 1)
  s1.setQueue n { s1.queue n with failed := false, waits := false }

/-- The position after the last one taken becomes pos + 1 (14_queue R331). A descriptor that begins its positions anew ends what was held for the old
ones. -/
def takePos (s : State) (n pos : Nat) : State :=
  let x := s.queue n
  s.setQueue n { x with taken := pos + 1, heldDec := if pos = x.taken then x.heldDec.filter fun p => p != pos else [] }

/-- A malformed record counts as a task that has completed at once (14_queue R330): DONE is filled where it can be named. -/
def malformedTask (s : State) (n pos : Nat) (r : List Word) (poisoned : Bool) : State :=
  let t : Task :=
    { queue := n, pos := pos, words := if poisoned then [] else r, npred := 0, st := .waiting, asid := qAsid s n, tag := qTag s n, prio := 0,
      weight := 0, die := 0 }
  let s1 := takePos (countErr s n) n pos
  admitTop (completeTask { s1 with tasks := s1.tasks ++ [t] } n pos (-1))

/-- A taken task (14_queue R331): its pending predecessors less the decrements held for it. -/
def newTask (s : State) (n pos : Nat) (d r : List Word) : State :=
  let held := if pos = (s.queue n).taken then (s.queue n).heldDec.filter fun p => p == pos else []
  let t : Task :=
    { queue := n, pos := pos, words := r, npred := recNpred r - held.length, st := .waiting, asid := qAsid s n, tag := qTag s n,
      prio := dPrio d, weight := dWeight d, die := dPool d }
  let s1 := takePos s n pos
  admitTop { s1 with tasks := s1.tasks ++ [t] }

/-- Taking the record at an address (14_queue R330) (DEDUCED, log 63). A HEAD or SHEAD that cannot be written stops the queue as an entry that cannot
be read does (DESIGN CHOICE, log 84); one in a MIGRATING page waits (11_page R292). A replay run takes records as recorded (21_device R442; log 36). -/
def takeAt (s : State) (n : Nat) (d : List Word) (spill : Bool) (va : Nat) : State :=
  let pos := dHead d + dShead d
  let off := if spill then 0x30 else 0x10
  match probeRange s (qAgent s n) .read va 64 ++ (descLocked s n off).toList with
  | m :: _ => queueFailed s n (.unreadable m)
  | [] =>
    let r := wordsOfBytes (vRead s (qAgent s n) va 64)
    let seen := bytesOfWords (r.take 6)
    if writeWaits s (qAgent s n) (qDescVa s n + off) || !replayAllows s 1 n seen then s
    else
      let poisoned := (vPoison s (qAgent s n) va 64).isSome
      let s1 := capture (tookRecord (replayMatch s 1 n seen) n d spill) 1 n seen
      if poisoned ∨ (recordBadField r).isSome then malformedTask s1 n pos r poisoned else newTask s1 n pos d r

/-- TASK_TAKE (14_queue R330): the queue unit takes the next record of a queue, when one is present, the queue is enabled, no incomplete
task lies more than 64 positions back, and the pool has room. A queue that failed waits until something calls it (R324); queue units
start with BOOT (21_device R435). -/
def execTaskTake (n : Nat) (s : State) : Host.Outcome State Fault Refusal :=
  next (if (s.queue n).waits ∨ started s = false ∨ frozenUnit s 16 n = true ∨ s.quarUnits.contains (16, n) = true then s
    else match readDesc s n with
    | .error f => if qEntryOk s n = false then s else queueFailed s n f
    | .ok d =>
      let pos := dHead d + dShead d
      match nextRecord s n d with
      | none => s
      | some (spill, va) =>
        if dEn d = false ∨ (s.tasks.any fun t => t.queue == n && decide (t.pos + 64 < pos)) ∨ 3072 ≤ poolCount s (dPool d) then s
        else takeAt s n d spill va)

end Sys2Proof.Machine
end

