-- ==== Sys2Proof/Machine/Command.lean ====
section
/-! DEFINITION. What the commands of major 0x33 have in common (16_mesh R364 to R366; 17_partition R376, R382; 18_bucket R403): the checks
at issue, the reads of an engine, and the end of a command. -/

namespace Sys2Proof.Machine

/-- The number in n bytes at an offset of a record. -/
def fld (b : List Byte) (off n : Nat) : Nat := leNat ((b.drop off).take n)

/-- The least offset charged with a breach, of checks in any order (00_scope R460). -/
def leastBreach (checks : List (Nat × Bool)) : Option Nat :=
  (checks.filter fun c => !c.2).foldl (fun m c => match m with
    | none => some c.1
    | some x => some (min x c.1)) none

/-- The checks of a command descriptor's eight words by op (16_mesh R365; 17_partition R376, R383 to R385; 18_bucket R403). -/
def cmdChecks (op : Nat) (d : List Word) : List (Nat × Bool) :=
  let w := wordAt d
  let z := fun i => decide (w i = 0)
  let args : List (Nat × Bool) :=
    match op with
    | 0x00 => [(0x10, wbits (w 2) 5 0 == 0), (0x20, z 4), (0x28, z 5)]
    | 0x01 => [(0x10, wbits (w 2) 5 0 == 0), (0x20, z 4), (0x28, z 5)]
    | 0x02 | 0x03 => [(0x18, z 3), (0x20, z 4), (0x28, z 5)]
    | 0x04 =>
      if w 2 = 0 then [(0x18, z 3), (0x20, wbits (w 4) 2 0 == 0), (0x28, z 5)]
      else [(0x10, wbits (w 2) 7 0 == 1 && wbits (w 2) 63 17 == 0)]
    | 0x05 => [(0x10, wbits (w 2) 5 0 == 0), (0x18, z 3), (0x20, z 4), (0x28, z 5)]
    | 0x10 =>
      [(0x10, !(w 2).getLsbD 31 && decide (1 ≤ wbits (w 2) 33 32 ∧ wbits (w 2) 33 32 ≤ 2) && wbits (w 2) 39 34 == 0 &&
          decide (1 ≤ wbits (w 2) 46 40 ∧ wbits (w 2) 46 40 ≤ 64) && wbits (w 2) 63 47 == 0),
       (0x18, wbits (w 3) 63 32 == 0), (0x28, wbits (w 5) 1 0 == 0)]
    | 0x11 => [(0x10, z 2), (0x20, wbits (w 4) 63 8 == 0), (0x28, z 5)]
    | 0x12 => [(0x10, z 2), (0x18, decide ((w 3).toNat ≤ 2)), (0x20, z 4), (0x28, z 5)]
    | 0x13 => [(0x10, z 2), (0x18, wbits (w 3) 63 16 == 0), (0x20, wbits (w 4) 63 16 == 0), (0x28, z 5)]
    | 0x20 =>
      [(0x10, wbits (w 2) 7 6 == 0 && wbits (w 2) 23 21 == 0 && wbits (w 2) 31 29 == 0 && wbits (w 2) 62 37 == 0 &&
          ((w 2).getLsbD 63 || (decide (16 ≤ wbits (w 2) 20 8 ∧ wbits (w 2) 20 8 ≤ 1024) && (List.range 11).any (fun i => 2 ^ i == wbits (w 2) 20 8) &&
            decide (4 ≤ wbits (w 2) 28 24 ∧ wbits (w 2) 28 24 ≤ 16) && decide (0x18 ≤ wbits (w 2) 36 32 ∧ wbits (w 2) 36 32 ≤ 0x1A)))),
       (0x18, z 3), (0x20, z 4), (0x28, z 5)]
    | 0x21 => [(0x10, z 2), (0x18, z 3), (0x20, z 4), (0x28, z 5)]
    | _ => [(0x10, wbits (w 2) 5 0 == 0), (0x20, z 4), (0x28, z 5)]
  [(0x00, if op = 0x20 then wbits (w 0) 2 0 == 0 else wbits (w 0) 5 0 == 0), (0x08, wbits (w 1) 2 0 == 0)] ++ args ++
  [(0x30, z 6 && z 7)]

/-- The bytes of the descriptor that a command's word 0x00 names, by op: a mesh, a partition or a bucket table; KPROJ names none. -/
def objectBytes (op : Nat) : Nat :=
  if op ≤ 0x10 then 256 else if op < 0x20 then 512 else if op = 0x20 then 0 else 128

/-- Whether a field array's element type suits its KIND (16_mesh R360). -/
def fieldTypeOk (kind fmt : Nat) : Bool :=
  fmt == 0x18 || fmt == 0x1A || fmt == 0x1B || (kind == 2 && (fmt == 0x12 || fmt == 0x13 || fmt == 0x16 || fmt == 0x17))

/-- Fields of the mesh descriptor (16_mesh R359). -/
def mState (b : List Byte) : Nat := fld b 2 1
def mDim (b : List Byte) : Nat := fld b 3 1
def mNfld (b : List Byte) : Nat := fld b 4 1
def mCur (b : List Byte) : Nat := fld b 5 1 % 2
def mMaxd (b : List Byte) : Nat := fld b 6 1
def mHome (b : List Byte) : Nat := fld b 7 1
def mStore (b : List Byte) : Nat := fld b 8 8
def mStoreLen (b : List Byte) : Nat := fld b 0x10 8
def mCcap (b : List Byte) : Nat := fld b 0x18 4
def mFcap (b : List Byte) : Nat := fld b 0x1C 4
def mNcell (b : List Byte) : Nat := fld b 0x20 4
def mQueue (b : List Byte) : Nat := fld b 0x2C 2
def mRmap (b : List Byte) : Nat := fld b 0x30 8
def mGen (b : List Byte) : Nat := fld b 0x38 4
def mNvert (b : List Byte) : Nat := fld b 0x3C 4

/-- Fields of field entry f (16_mesh R360). -/
def fBase (b : List Byte) (f : Nat) : Nat := fld b (0x40 + 12 * f) 8
def fCtl (b : List Byte) (f : Nat) : Nat := fld b (0x48 + 12 * f) 4
def fFmt (b : List Byte) (f : Nat) : Nat := fCtl b f % 32
def fComp (b : List Byte) (f : Nat) : Nat := fCtl b f / 64 % 64 + 1
def fKind (b : List Byte) (f : Nat) : Nat := fCtl b f / 2 ^ 12 % 4
def fVol (b : List Byte) (f : Nat) : Bool := (fCtl b f).testBit 14
def fSize (b : List Byte) (f : Nat) : Nat := ((streamFmt (fFmt b f)).map EFmt.width).getD 64 / 8

/-- The checks of a field entry below NFLD (16_mesh R360); a second VOL is charged to the later entry. -/
def fieldChecks (b : List Byte) (f : Nat) : List (Nat × Bool) :=
  let c := fCtl b f
  [(0x48 + 12 * f, c / 2 ^ 15 == 0 && !c.testBit 5 && fKind b f != 3 && fieldTypeOk (fKind b f) (fFmt b f) &&
    (!fVol b f || (fFmt b f == 0x1B && fComp b f == 1 && fKind b f == 1 && !((List.range f).any fun g => fVol b g))))]

/-- The checks of a mesh descriptor's fields that a program writes (16_mesh R359, R360). -/
def meshChecks (b : List Byte) : List (Nat × Bool) :=
  let need := (128 * mCcap b + 32 * mFcap b + 4095) / 4096 * 4096
  [(0x00, fld b 0 2 == 1), (0x03, mDim b == 2 || mDim b == 3), (0x04, decide (mNfld b ≤ 16)), (0x06, decide (mMaxd b ≤ 15)),
   (0x08, mStore b % 4096 == 0), (0x18, decide (1 ≤ mCcap b ∧ mCcap b ≤ 2 ^ 31)), (0x1C, decide (1 ≤ mFcap b) && decide (need ≤ mStoreLen b)),
   (0x2C, decide (mQueue b ≤ 4095)), (0x2E, fld b 0x2E 2 == 0), (0x30, mRmap b % 64 == 0)] ++
  (List.range 16).flatMap fun f =>
    if f < mNfld b then fieldChecks b f
    else [(0x40 + 12 * f, fBase b f == 0), (0x48 + 12 * f, fCtl b f == 0)]

/-- The checks of an exchange header (16_mesh R361), against the DIM of the target descriptor (R364). -/
def headerChecks (h : List Byte) (dim : Nat) : List (Nat × Bool) :=
  [(0x00, fld h 0 2 == 1), (0x02, (fld h 2 1 == 2 || fld h 2 1 == 3) && fld h 2 1 == dim), (0x03, fld h 3 5 == 0),
   (0x08, decide (2 ^ fld h 2 1 ≤ fld h 8 4)), (0x0C, decide (1 ≤ fld h 0xC 4)), (0x14, fld h 0x14 4 == 0),
   (0x18, fld h 0x18 8 % 8 == 0), (0x20, fld h 0x20 8 % 8 == 0), (0x28, fld h 0x28 8 % 8 == 0), (0x38, fld h 0x38 8 == 0)]

/-- The checks of a partition descriptor's fields that a program writes (17_partition R379), and the fields that MGHOST selects (R385). -/
def partChecks (b : List Byte) (op : Nat) (d : List Word) : List (Nat × Bool) :=
  let n := fld b 3 1
  [(0x00, fld b 0 2 == 1), (0x03, decide (1 ≤ n ∧ n ≤ 16)),
   (0x04, op != 0x13 || (List.range 16).all fun i => !(wordAt d 3).getLsbD i || (fld b 4 2).testBit i),
   (0x08, fld b 8 8 % 64 == 0), (0x10, fld b 0x10 8 % 64 == 0), (0x18, fld b 0x18 8 % 64 == 0),
   (0x20, decide (1 ≤ fld b 0x20 4 ∧ fld b 0x20 4 ≤ 2 ^ 31)), (0x2C, (b.drop 0x2C |>.take 20).all (· == 0)),
   (0xC8, (b.drop 0xC8 |>.take 56).all (· == 0))] ++
  (List.range 16).flatMap fun p =>
    let o := 0x100 + 16 * p
    if p < n then [(o, fld b o 1 / 8 == 0 && fld b (o + 2) 2 == 0), (o + 0xC, fld b (o + 0xC) 4 == 0)]
    else [(o, fld b o 4 == 0), (o + 0xC, fld b (o + 0xC) 4 == 0)]

/-- The size of a table's key row, RB (18_bucket R389). -/
def tRow (b : List Byte) : Nat := fld b 8 2 * (if fld b 7 1 = 0x1A then 4 else 2)

/-- The checks of a bucket table descriptor's fields that a program writes (18_bucket R389). -/
def tableChecks (b : List Byte) : List (Nat × Bool) :=
  let pow := (List.range 7).any fun i => 2 ^ (i + 4) == fld b 8 2
  [(0x00, fld b 0 2 == 1), (0x03, decide (4 ≤ fld b 3 1 ∧ fld b 3 1 ≤ 16)), (0x04, decide (1 ≤ fld b 4 2 ∧ fld b 4 2 ≤ 256)),
   (0x06, fld b 6 1 / 64 == 0), (0x07, decide (0x18 ≤ fld b 7 1 ∧ fld b 7 1 ≤ 0x1A)), (0x08, pow), (0x0A, decide (fld b 0xA 1 ≤ 6)),
   (0x0E, fld b 0xE 2 == 0), (0x18, pow && fld b 0x18 8 % tRow b == 0), (0x20, fld b 0x20 8 % 64 == 0), (0x28, fld b 0x28 8 % 64 == 0),
   (0x30, fld b 0x30 8 % 64 == 0), (0x38, decide (1 ≤ fld b 0x38 4)), (0x48, fld b 0x48 8 % 8 == 0),
   (0x50, fld b 0x50 4 % 64 == 0 && decide (64 ≤ fld b 0x50 4 ∧ fld b 0x50 4 ≤ 2 ^ 31)), (0x60, (b.drop 0x60 |>.take 32).all (· == 0))]

/-- The checks of the descriptor that a command names (16_mesh R364; 17_partition R382; 18_bucket R403). -/
def objectChecks (op : Nat) (d : List Word) (b : List Byte) : List (Nat × Bool) :=
  if op ≤ 0x10 then meshChecks b
  else if op < 0x20 then partChecks b op d
  else if op = 0x20 then []
  else tableChecks b

/-- Offsets composed with a base (16_mesh R364). -/
def shiftChecks (base : Nat) (l : List (Nat × Bool)) : List (Nat × Bool) := l.map fun c => (base + c.1, c.2)

/-- The first offending field of a command, its object and its exchange header (16_mesh R364; 00_scope R460). -/
def issueBreach (op : Nat) (d : List Word) (obj hdr : List Byte) : Option Nat :=
  leastBreach (cmdChecks op d ++ shiftChecks 0x100 (objectChecks op d obj) ++
    (if op = 0 then shiftChecks 0x200 (headerChecks hdr (mDim obj)) else []))

/-- The unit that performs a command, as its status word names it (16_mesh R366; 17_partition R376; 18_bucket R403). -/
def cmdUnit (op die cluster : Nat) (obj : List Byte) : Nat :=
  if op = 0x00 ∨ op = 0x10 then die
  else if op < 0x10 then mHome obj
  else if op < 0x20 then 0
  else cluster

/-- The state after slot q passes a command to its unit (16_mesh R364). -/
def passCmd (s : State) (q op : Nat) (sa : Word) (desc : List Word) (obj : List Byte) (d : Nat) (a r : Bool) (scope : BitVec 3) : State :=
  whenCopyRoom s q <|
    let c := cmdOf s q (.unit op) sa desc d a r scope
    (countCopy (pushCmd s { c with engine := cmdUnit op c.die c.cluster obj }) q d).complete q

/-- The issue of a command of major 0x33 (16_mesh R364). Poison in a descriptor does not stop it: the unit ends it with FORMAT. -/
def issueCmd (s : State) (w : Option Nat) (op : Nat) (d a : BitVec 6) (c l : BitVec 1) (xs : BitVec 3) : State :=
  let q := s.cur
  let sa := s.me.val a.toNat
  whenReady s q [d.toNat, a.toNat] <| unlessPoisoned s q [a.toNat] <| scalarCheck s q w .read sa.toNat 64 64 <|
    let g := scalarRead s q sa.toNat 64
    let desc := wordsOfBytes g.bytes
    let pass := fun (st : State) (de : List Word) (obj : List Byte) => passCmd st q op sa de obj d.toNat (c = 1) (l = 1) xs
    if g.poison.isSome then pass g.st [] []
    else
      let n := objectBytes op
      let va := (wordAt desc 0).toNat
      scalarCheck g.st q w .read va n 1 <|
        let h := if n = 0 then ⟨[], none, g.st⟩ else scalarRead g.st q va n
        let hv := (wordAt desc 2).toNat
        scalarCheck h.st q w .read hv (if op = 0 then 64 else 0) 1 <|
          let e := if op = 0 then scalarRead h.st q hv 64 else ⟨[], none, h.st⟩
          if h.poison.isSome ∨ e.poison.isSome then pass e.st desc []
          else match issueBreach op desc h.bytes e.bytes with
            | some off => trap e.st q 0x01 0 (BitVec.ofNat 64 off)
            | none =>
              if op = 0 ∧ mCcap h.bytes < fld e.bytes 0x10 4 then trap e.st q 0x15 0 (BitVec.ofNat 64 (fld e.bytes 0x10 4))
              else pass e.st desc h.bytes

/-- The op of a command. -/
def Cmd.op (c : Cmd) : Nat := match c.kind with | .pgmig => 0 | .unit op => op

/-- The agent of a command's accesses (11_page R288; 16_mesh R364; 14_queue R333): topology engines and KBUs have a TLB slice. -/
def Cmd.agent (c : Cmd) : Agent :=
  { slice := if c.op < 0x10 then topologySlice (c.engine % 8) else if 0x20 ≤ c.op then kbuSlice (c.cluster % 16) else noSlice
    asid := c.asid, level := c.level, tag := c.tag, cluster := c.cluster, pc := some c.pc }

/-- Work of a unit that may end early with a status (16_mesh R366; 18_bucket R393). -/
abbrev Run (α : Type) := Except (Nat × State) α

/-- The code FORMAT of a command (16_mesh R366; 18_bucket R393). -/
def formatCode (op : Nat) : Nat := if 0x20 ≤ op then 0x17 else 0x14

/-- A control input read by a unit (16_mesh R364): poison in it ends the command with FORMAT. -/
def ctlRead (s : State) (ag : Agent) (op va n : Nat) : Run (List Byte × State) :=
  match engRead s ag va n 0 with
  | .error e => .error e
  | .ok g => if g.poison.isSome then .error (formatCode op, g.st) else .ok (g.bytes, g.st)

/-- The end of some work unless a condition holds. -/
def runCheck (s : State) (st : Nat) (ok : Bool) : Run Unit := if ok then .ok () else .error (st, s)

/-- The ranges that a unit is about to write pass Probe, or its work ends with FAULT or PROT (16_mesh R366). -/
def runWritable (s : State) (ag : Agent) (rs : List (Nat × Nat)) : Run Unit :=
  match probe s ag .write rs with
  | m :: _ => .error (engineMiss s ag m)
  | [] => .ok ()

/-- The guard of a command, when it carries a release. -/
def Cmd.guard (c : Cmd) : Word := if c.r then wordAt c.desc 1 else 0

/-- The end of a command (16_mesh R364, R366; 08_stream R218): the release, once every access is performed that a REL in the command's place would
cover (09_guard R247; 20_link R431), then the status word. A guard that fails Probe gives the command its status. One that a kill has cancelled
meanwhile has no end (19_shroud R407). -/
def cmdEnd (s : State) (n : Nat) (c : Cmd) (status count : Nat) : State :=
  let ag := c.agent
  if (tabFind s.cmds n).isNone then s
  else if c.r && (releaseWaits s c.home n || (c.guard != 0 && migratingAt s ag c.guard.toNat 8)) then
    { s with cmds := tabSet s.cmds n { c with ended := some (status, count) } }
  else
    let g := guardStatus s ag c.guard
    let s1 := guardRelease g.2 c.home c.task ag c.guard
    if (tabFind s1.cmds n).isNone then s1
    else finishCmd s1 n c (completionWord (if g.1 = 0 then status else g.1) c.engine count)

/-- A command ends before its first read (08_stream R218): its release is not performed. -/
def cmdStop (s : State) (n : Nat) (c : Cmd) (status : Nat) : State := cmdEnd s n { c with r := false } status 0

/-- The acquire of a command (08_stream R218), then what follows it. -/
def cmdAcquire (s : State) (n : Nat) (c : Cmd) (k : State → State) : State :=
  if c.a = false then k s
  else
    match engineAcquire s c.agent (wordAt c.desc 1) with
    | .error (st, s1) => if st = heldStatus then s1 else cmdStop s1 n c st
    | .ok (some t, s1) => engineSink { s1 with cmds := tabDel s1.cmds n } c.home c.task c.agent t c.descAddr.toNat
    | .ok (none, s1) => k s1

/-- The state with a command replaced. -/
def setCmd (s : State) (n : Nat) (c : Cmd) : State := { s with cmds := tabSet s.cmds n c }

/-- The command descriptor and the descriptor it names, read afresh by the unit, checked as at issue (16_mesh R364), with the key of the
latter. -/
def runDescs (s : State) (c : Cmd) : Run (List Word × List Byte × Nat × State) := do
  let ag := c.agent
  let (b, s1) ← ctlRead s ag c.op c.descAddr.toNat 64
  let d := wordsOfBytes b
  let va := (wordAt d 0).toNat
  let (obj, s2) ← ctlRead s1 ag c.op va (objectBytes c.op)
  runCheck s2 (formatCode c.op) (leastBreach (cmdChecks c.op d ++ shiftChecks 0x100 (objectChecks c.op d obj))).isNone
  return (d, obj, if objectBytes c.op = 0 then 0 else keyOfVa s2 ag va .read, s2)

/-- A claim of an object in a state (16_mesh R363), whose descriptor lies at an address and a key: its STATE byte becomes BUSY, and D of its page is set
(11_page R282). -/
def claimObject (s : State) (n : Nat) (c : Cmd) (va key state : Nat) : State :=
  setCmd (physWrite (touch s c.agent va .write) (key + 2) [2] none) n { c with running := true, claim := some (key, state) }

/-- The object a command has claimed returns to the state it had (16_mesh R362), unless it has become BROKEN meanwhile. -/
def unclaim (s : State) (n : Nat) (c : Cmd) : State × Cmd :=
  let c1 := { c with claim := none }
  (setCmd (releaseClaim s c) n c1, c1)

/-- Whether the object that a command has claimed is still BUSY (16_mesh R362; 17_partition R381; 18_bucket R392). -/
def claimHeld (s : State) (c : Cmd) : Bool :=
  match c.claim with
  | some (key, _) => physLE s (key + 2) 1 == 2
  | none => true

/-- Whether a command is still in flight as it was taken up: a kill in the midst of what it writes cancels it (19_shroud R407). -/
def Cmd.live (c : Cmd) (s : State) : Bool := s.cmds.any fun e => e.2 == c

/-- Whether a granule of a range reads as poison: its own, its page's, or that of its stack or port. -/
def rangeHoldsPoison (s : State) (ag : Agent) (va n : Nat) : Bool := (vPoison s ag va n).isSome

/-- What a command comes to when it has run: its status, COUNT and the state. -/
structure Ran where
  status : Nat
  count : Nat
  st : State
  deriving DecidableEq, Repr

/-- The event of a poisoned or failing command is its status alone: the end of one that has run (16_mesh R362, R366), unless a read of it waits or a
kill has cancelled it. -/
def cmdRan (n : Nat) (c : Cmd) (r : Run Ran) : State :=
  match r with
  | .error (st, s1) =>
    if st = heldStatus ∨ (tabFind s1.cmds n).isNone then s1
    else
      let u := unclaim s1 n c
      cmdEnd u.1 n u.2 st 0
  | .ok x => cmdEnd x.st n { c with claim := none } x.status x.count

end Sys2Proof.Machine
end

