-- ==== Sys2Proof/Machine/MeshGeom.lean ====
section
/-! DEFINITION. The geometry of a mesh (16_mesh R357 to R361, R368, R369): its cells, their centroids and keys, curve order, the tree
stream, neighbours over faces, the closure of a refinement, and what coarsening merges. -/

namespace Sys2Proof.Machine

/-- The depth of a cell (16_mesh R357). -/
def Cell.depth (c : Cell) : Nat := c.path.length

/-- The children of a cell, in child-number order (16_mesh R357). -/
def Cell.children (dim : Nat) (c : Cell) : List Cell := (List.range (2 ^ dim)).map fun k => { c with path := c.path ++ [k] }

/-- The parent of a cell; a root has none. -/
def Cell.parent (c : Cell) : Option Cell := if c.path.isEmpty then none else some { c with path := c.path.dropLast }

/-- The position of a cell on axis a at its own depth: a number below 2^depth (16_mesh R357). -/
def Cell.pos (c : Cell) (a : Nat) : Nat := c.path.foldl (fun n k => 2 * n + k / 2 ^ a % 2) 0

/-- The value of a finite .f64 as a multiple of 2^−1074. -/
def f64Units (w : Word) : Int :=
  let e := w.toNat / 2 ^ 52 % 2 ^ 11
  let m := w.toNat % 2 ^ 52
  let v : Nat := if e = 0 then m else (m + 2 ^ 52) * 2 ^ (e - 1)
  if w.getLsbD 63 then -(v : Int) else (v : Int)

/-- Whether an .f64 is finite. -/
def f64Finite (w : Word) : Bool := w.toNat / 2 ^ 52 % 2 ^ 11 != 2047

/-- The coordinate of vertex i on axis a, in units. -/
def Mesh.coord (m : Mesh) (i a : Nat) : Int := f64Units (m.coords.getD (i * m.dim + a) 0)

/-- The least and the greatest coordinate on an axis over all vertices (16_mesh R358). -/
def Mesh.bounds (m : Mesh) (a : Nat) : Int × Int :=
  (List.range (m.coords.length / m.dim)).foldl (fun b i => (min b.1 (m.coord i a), max b.2 (m.coord i a))) (m.coord 0 a, m.coord 0 a)

/-- The centroid of a cell on axis a, in units over 2^((depth + 1) × DIM) (16_mesh R358). -/
def Mesh.centroid (m : Mesh) (c : Cell) (a : Nat) : Int :=
  let den : Nat := 2 ^ (c.depth + 1)
  (List.range (2 ^ m.dim)).foldl (fun (s : Int) v =>
    let f := (List.range m.dim).foldl (fun (f : Nat) b =>
      let x := 2 * c.pos b + 1
      f * (if v / 2 ^ b % 2 = 1 then x else den - x)) 1
    s + m.coord ((m.roots.getD c.root []).getD v 0) a * (f : Int)) 0

/-- The bits of a quantised coordinate (16_mesh R358). -/
def keyBits (dim : Nat) : Nat := if dim = 2 then 31 else 21

/-- The quantised centroid of a cell on axis a (16_mesh R358). -/
def Mesh.quant (m : Mesh) (c : Cell) (a : Nat) : Nat :=
  let b := keyBits m.dim
  let lo := (m.bounds a).1
  let hi := (m.bounds a).2
  if hi = lo then 0
  else
    let den : Int := ((2 ^ ((c.depth + 1) * m.dim) : Nat) : Int)
    min ((((m.centroid c a - lo * den) * ((2 ^ b : Nat) : Int)) / ((hi - lo) * den)).toNat) (2 ^ b - 1)

/-- Component i of a list of numbers, and the list with it replaced. -/
def compAt (x : List Nat) (i : Nat) : Nat := x.getD i 0

/-- The first loop of the key for one Q (16_mesh R358). -/
def keyMix (dim q : Nat) (x : List Nat) : List Nat :=
  (List.range dim).foldl (fun x i =>
    let p := q - 1
    if compAt x i &&& q ≠ 0 then x.set 0 (compAt x 0 ^^^ p)
    else
      let t := (compAt x 0 ^^^ compAt x i) &&& p
      let y := x.set 0 (compAt x 0 ^^^ t)
      y.set i (compAt y i ^^^ t)) x

/-- The values of Q, from 2^(b − 1) down to 2 (16_mesh R358). -/
def keyQs (b : Nat) : List Nat := (List.range (b - 1)).map fun i => 2 ^ (b - 1 - i)

/-- The key of quantised coordinates (16_mesh R358). -/
def hilbertKey (dim : Nat) (x : List Nat) : Nat :=
  let b := keyBits dim
  let x1 := (keyQs b).foldl (fun x q => keyMix dim q x) x
  let x2 := (List.range (dim - 1)).foldl (fun x i => x.set (i + 1) (compAt x (i + 1) ^^^ compAt x i)) x1
  let t := (keyQs b).foldl (fun t q => if compAt x2 (dim - 1) &&& q ≠ 0 then t ^^^ (q - 1) else t) 0
  let x3 := x2.map fun v => v ^^^ t
  (List.range b).foldl (fun k j => (List.range dim).foldl (fun k i => 2 * k + compAt x3 i / 2 ^ (b - 1 - j) % 2) k) 0

/-- The key of a cell (16_mesh R358). -/
def Mesh.key (m : Mesh) (c : Cell) : Nat := hilbertKey m.dim ((List.range m.dim).map (m.quant c))

/-- Insert a cell with its key into a list in ascending order of keys, after equal ones (16_mesh R358). -/
def insertRank (k : Nat) (c : Cell) : List (Nat × Cell) → List (Nat × Cell)
  | [] => [(k, c)]
  | (k', c') :: l => if k < k' then (k, c) :: (k', c') :: l else (k', c') :: insertRank k c l

/-- Cells in rank order; those given first come first among equals (16_mesh R358). -/
def Mesh.rank (m : Mesh) (cs : List Cell) : List Cell := (cs.foldl (fun l c => insertRank (m.key c) c l) []).map (·.2)

/-- The roots of a mesh in exchange order, and in rank order (16_mesh R358). -/
def Mesh.rootCells (m : Mesh) : List Cell := (List.range m.roots.length).map fun r => ⟨r, []⟩
def Mesh.rankedRoots (m : Mesh) : List Cell := m.rank m.rootCells

/-- Whether a cell lies in another or is it. -/
def Cell.within (c d : Cell) : Bool := c.root == d.root && d.path.isPrefixOf c.path

/-- The leaves below a cell in curve order (16_mesh R358), given the leaves that lie in it, over at most a number of levels. -/
def Mesh.orderBelow (m : Mesh) : Nat → Cell → List Cell → List Cell
  | 0, _, ls => ls
  | n + 1, c, ls =>
    if ls.isEmpty || ls == [c] then ls
    else (m.rank (c.children m.dim)).flatMap fun d => Mesh.orderBelow m n d (ls.filter fun l => l.within d)

/-- Leaves in curve order (16_mesh R358). -/
def Mesh.curve (m : Mesh) (ls : List Cell) : List Cell :=
  m.rankedRoots.flatMap fun r => m.orderBelow 16 r (ls.filter fun l => l.within r)

/-- The leaves that a tree stream gives, in its own order (16_mesh R361): none when it does not end with its last node. -/
def readTree (dim : Nat) : List Bool → List Cell → List Cell → Option (List Cell)
  | [], [], acc => some acc.reverse
  | [], _ :: _, _ => none
  | _ :: _, [], _ => none
  | b :: bs, c :: todo, acc => if b then readTree dim bs (c.children dim ++ todo) acc else readTree dim bs todo (c :: acc)

/-- The tree stream below a cell (16_mesh R361), given the leaves that lie in it, over at most a number of levels. -/
def treeBelow (dim : Nat) : Nat → Cell → List Cell → List Bool
  | 0, _, _ => [false]
  | n + 1, c, ls =>
    if ls.contains c then [false]
    else true :: (c.children dim).flatMap fun d => treeBelow dim n d (ls.filter fun l => l.within d)

/-- The vertices of local face f of a root, by face-local position: the vertices with bit f / 2 equal to f mod 2, ascending
(16_mesh R357). -/
def Mesh.faceVerts (m : Mesh) (r f : Nat) : List Nat :=
  ((List.range (2 ^ m.dim)).filter fun v => v / 2 ^ (f / 2) % 2 == f % 2).map fun v => (m.roots.getD r []).getD v 0

/-- Insertion into an ascending list of numbers, and such a list sorted. -/
def insertNat (x : Nat) : List Nat → List Nat
  | [] => [x]
  | y :: l => if x ≤ y then x :: y :: l else y :: insertNat x l
def sortNat (l : List Nat) : List Nat := l.foldl (fun a x => insertNat x a) []

/-- The faces of the roots: root and local face. -/
def Mesh.rootFaces (m : Mesh) : List (Nat × Nat) := (List.range m.roots.length).flatMap fun r => (List.range (2 * m.dim)).map fun f => (r, f)

/-- The root faces with the vertex set of a face (16_mesh R357). -/
def Mesh.sharers (m : Mesh) (r f : Nat) : List (Nat × Nat) :=
  m.rootFaces.filter fun g => sortNat (m.faceVerts g.1 g.2) == sortNat (m.faceVerts r f)

/-- The root face that a root face adjoins (16_mesh R357). -/
def Mesh.partner (m : Mesh) (r f : Nat) : Option (Nat × Nat) := (m.sharers r f).find? fun g => g != (r, f)

/-- The symmetries of a face's reference segment or square (16_mesh R361): whether its two axes are exchanged, and which are
reflected. -/
def faceSymmetries (dim : Nat) : List (Bool × Nat) :=
  if dim = 2 then [(false, 0), (false, 1)] else (List.range 8).map fun i => (decide (4 ≤ i), i % 4)

/-- A face-local position under a symmetry. -/
def symmetryOf (t : Bool × Nat) (p : Nat) : Nat := (if t.1 then p % 2 * 2 + p / 2 else p) ^^^ t.2

/-- The symmetry that takes each face-local position of a root face to the one with the same vertex of its partner (16_mesh R361). -/
def Mesh.matching (m : Mesh) (r f : Nat) (g : Nat × Nat) : Option (Bool × Nat) :=
  (faceSymmetries m.dim).find? fun t => (List.range (2 ^ (m.dim - 1))).all fun p =>
    (m.faceVerts g.1 g.2).getD (symmetryOf t p) 0 == (m.faceVerts r f).getD p 0

/-- The axes of a face, ascending. -/
def faceAxes (dim f : Nat) : List Nat := (List.range dim).filter fun a => a != f / 2

/-- A rectangle on a face of a root: for each axis of the face, its first point and length in units of 2^−16 of the root. -/
abbrev FaceRect := List (Nat × Nat)

/-- The rectangle of a cell on its face f. -/
def Cell.rect (dim f : Nat) (c : Cell) : FaceRect :=
  (faceAxes dim f).map fun a => (c.pos a * 2 ^ (16 - c.depth), 2 ^ (16 - c.depth))

/-- A rectangle under a symmetry of the face: the axes exchanged, then the reflected ones turned round. -/
def moveRect (t : Bool × Nat) (r : FaceRect) : FaceRect :=
  let x := if t.1 then r.reverse else r
  (x.zip (List.range x.length)).map fun e => if t.2.testBit e.2 then (65536 - e.1.1 - e.1.2, e.1.2) else e.1

/-- Whether two rectangles share more than an edge. -/
def rectsMeet (a b : FaceRect) : Bool := (a.zip b).all fun e => decide (e.1.1 < e.2.1 + e.2.2) && decide (e.2.1 < e.1.1 + e.1.2)

/-- The first point and the end of a cell on an axis, in units of 2^−16 of the root. -/
def Cell.span (c : Cell) (a : Nat) : Nat × Nat := (c.pos a * 2 ^ (16 - c.depth), (c.pos a + 1) * 2 ^ (16 - c.depth))

/-- The leaves that share a piece of face f of a cell, by index, ascending; none at all when the face lies on the boundary
(16_mesh R357). -/
def Mesh.across (m : Mesh) (c : Cell) (f : Nat) : Option (List Nat) :=
  let a := f / 2
  let edge := if f % 2 = 0 then (c.span a).1 else (c.span a).2
  let idx := m.leaves.zip (List.range m.leaves.length)
  if 0 < edge ∧ edge < 65536 then
    some ((idx.filter fun e => e.1.root == c.root && (if f % 2 = 0 then (e.1.span a).2 else (e.1.span a).1) == edge &&
      rectsMeet (c.rect m.dim f) (e.1.rect m.dim f)).map (·.2))
  else
    match m.partner c.root f with
    | none => none
    | some g =>
      let t := (m.matching c.root f g).getD (false, 0)
      let limit := if g.2 % 2 = 0 then 0 else 65536
      some ((idx.filter fun e => e.1.root == g.1 &&
        (if g.2 % 2 = 0 then (e.1.span (g.2 / 2)).1 else (e.1.span (g.2 / 2)).2) == limit &&
        rectsMeet (moveRect t (c.rect m.dim f)) (e.1.rect m.dim g.2)).map (·.2))

/-- The face records of leaf n, by ascending face, and within a face by ascending neighbour (16_mesh R374): face and neighbour, none at
the boundary. -/
def Mesh.records (m : Mesh) (n : Nat) : List (Nat × Option Nat) :=
  match m.leaves[n]? with
  | none => []
  | some c => (List.range (2 * m.dim)).flatMap fun f =>
      match m.across c f with
      | none => [(f, none)]
      | some ns => ns.map fun i => (f, some i)

/-- The neighbours of leaf n over its faces. -/
def Mesh.neighbours (m : Mesh) (n : Nat) : List Nat := (m.records n).filterMap (·.2)

/-- NFACE: the number of face records (16_mesh R357). -/
def Mesh.faces (m : Mesh) : Nat :=
  let all := (List.range m.leaves.length).flatMap m.records
  (all.filter fun r => r.2.isNone).length + (all.filter fun r => r.2.isSome).length / 2

/-- The depth of leaf n. -/
def Mesh.depthOf (m : Mesh) (n : Nat) : Nat := match m.leaves[n]? with | some c => c.depth | none => 0

/-- Whether the leaves satisfy 2:1 balance (16_mesh R357). -/
def Mesh.balanced (m : Mesh) : Bool :=
  (List.range m.leaves.length).all fun n => (m.neighbours n).all fun i => decide (m.depthOf i ≤ m.depthOf n + 1)

/-- Whether the root faces meet as R361 demands: at most two roots on a face, and their vertices in a symmetric correspondence. -/
def Mesh.facesOk (m : Mesh) : Bool :=
  m.rootFaces.all fun g => decide ((m.sharers g.1 g.2).length ≤ 2) &&
    match m.partner g.1 g.2 with
    | none => true
    | some h => (m.matching g.1 g.2 h).isSome

/-- The closure of a refinement (16_mesh R368): the leaves found so far, by index, and those whose coarser neighbours are still to be
added, over at most a number of rounds. -/
def Mesh.closure (m : Mesh) : Nat → List Nat → List Nat → List Nat
  | 0, found, _ => found
  | n + 1, found, todo =>
    let more := (todo.flatMap fun i => (m.neighbours i).filter fun j => decide (m.depthOf j + 1 = m.depthOf i) && !found.contains j).eraseDups
    if more.isEmpty then found else Mesh.closure m n (found ++ more) more

/-- The mesh with some leaves, by index, refined (16_mesh R368); the order of the leaves is not yet that of the curve. -/
def Mesh.refine (m : Mesh) (is : List Nat) : Mesh :=
  { m with
    leaves := (m.leaves.zip (List.range m.leaves.length)).flatMap fun e => if is.contains e.2 then e.1.children m.dim else [e.1] }

/-- What MREFINE has done so far (16_mesh R368): the mesh, the leaves refined, and whether it stopped for want of capacity. -/
structure Refined where
  mesh : Mesh
  committed : Nat
  full : Bool
  deriving DecidableEq, Repr

/-- MREFINE's loop over marked leaves (16_mesh R368), as cells of the mesh before the command. -/
def refineMarked (ccap fcap maxd : Nat) : List Cell → Refined → Refined
  | [], r => r
  | c :: cs, r =>
    if r.full then r
    else
      match r.mesh.leaves.findIdx? fun l => l == c with
      | none => refineMarked ccap fcap maxd cs r
      | some i =>
        if maxd ≤ c.depth then refineMarked ccap fcap maxd cs r
        else
          let ids := r.mesh.closure r.mesh.leaves.length [i] [i]
          let m1 := r.mesh.refine ids
          if ccap < m1.leaves.length ∨ fcap < m1.faces then { r with full := true }
          else refineMarked ccap fcap maxd cs ⟨m1, r.committed + ids.length, false⟩

/-- The parents that MCOARSEN merges (16_mesh R369), given the marked leaves. -/
def Mesh.mergeable (m : Mesh) (marked : List Cell) : List Cell :=
  ((marked.filterMap Cell.parent).eraseDups).filter fun p =>
    (p.children m.dim).all fun c => marked.contains c &&
      (match m.leaves.findIdx? fun l => l == c with
      | none => false
      | some i => (m.neighbours i).all fun j => decide (m.depthOf j ≤ p.depth + 1))

/-- The mesh with some parents in place of their children (16_mesh R369). -/
def Mesh.merge (m : Mesh) (ps : List Cell) : Mesh :=
  { m with
    leaves := m.leaves.flatMap fun l =>
      match l.parent with
      | some p => if ps.contains p then (if l.path.getLast? = some 0 then [p] else []) else [l]
      | none => [l] }

/-- The mesh with its leaves in curve order. -/
def Mesh.numbered (m : Mesh) : Mesh := { m with leaves := m.curve m.leaves }

/-- An entry of the remap list (16_mesh R370): the kind, the child number and the source. -/
def remapWord (kind ch src : Nat) : Word := BitVec.ofNat 64 (kind * 2 ^ 62 + ch * 2 ^ 59 + src)

/-- The remap entry of a new leaf over the old leaves in curve order (16_mesh R370): kept, split from its parent, or merged from its
children, of which the first in the old order is named. -/
def remapEntry (dim : Nat) (old : List Cell) (c : Cell) : Word :=
  match old.findIdx? fun l => l == c with
  | some i => remapWord 0 0 i
  | none =>
    match c.parent.bind fun p => old.findIdx? fun l => l == p with
    | some i => remapWord 1 (c.path.getLastD 0) i
    | none =>
      match old.findIdx? fun l => (c.children dim).contains l with
      | some i => remapWord 2 0 i
      | none => 0

end Sys2Proof.Machine
end

