-- ==== Sys2Proof/Machine/Mesh.lean ====
section
/-! DEFINITION. The mesh commands (16_mesh R361 to R372): claims, imports and exports, refinement, coarsening, renumbering, the commit and the
remap tasks after it, and one remap. -/

namespace Sys2Proof.Machine

/-- Whether a mesh command claims its mesh (16_mesh R362). -/
def meshClaims (op : Nat) (d : List Word) : Bool := op == 0 || op == 2 || op == 3 || (op == 4 && wordAt d 2 == 0)

/-- Whether a mesh command is accepted in a state (16_mesh R362). A mesh that no engine holds is not READY, whatever its descriptor says
(DEDUCED, log 24). -/
def meshAccepts (op state : Nat) (held : Bool) : Bool :=
  if op = 5 then true
  else if op = 0 then state == 0 || state == 1 || state == 3
  else state == 1 && held

/-- What an engine has read for a mesh command: the two descriptors, the key of the mesh's, and the mesh it holds there. -/
structure MeshRead where
  d : List Word
  obj : List Byte
  key : Nat
  mesh : Option Mesh
  deriving DecidableEq, Repr

/-- The address of the mesh descriptor that a command names. -/
def MeshRead.va (r : MeshRead) : Nat := (wordAt r.d 0).toNat

/-- The first reads of a mesh command, and the check of its tag (16_mesh R364, R366). -/
def meshRead (s : State) (c : Cmd) : Run (MeshRead × State) := do
  let (d, obj, key, s1) ← runDescs s c
  let m := tabFind s1.meshes key
  runCheck s1 2 (match m with | some x => c.tag == 0 || c.tag == x.tag | none => true)
  return (⟨d, obj, key, m⟩, s1)

/-- Whether the queue for remap tasks can be used (16_mesh R366). -/
def remapQueueOk (s : State) (c : Cmd) (obj : List Byte) : Bool :=
  mNfld obj == 0 ||
    match readDesc s (mQueue obj) with
    | .ok d => dEn d && dDev d && qAsid s (mQueue obj) == c.asid
    | .error _ => false

/-- Whether remap tasks of a mesh's current generation are not complete (16_mesh R363). -/
def remapsOpen (s : State) (r : MeshRead) : Bool :=
  (match r.mesh with | some m => m.pending != [] | none => false) || s.remaps.any fun e => e.2.mesh == r.key

/-- The claim of a mesh (16_mesh R362, R363). -/
def meshClaim (s : State) (n : Nat) (c : Cmd) (r : MeshRead) : Run State := do
  runCheck s 0x13 (!remapsOpen s r)
  runCheck s 0x11 (c.op == 0 || remapQueueOk s c r.obj)
  runWritable s c.agent [(r.va, 256)]
  return claimObject s n c r.va r.key (mState r.obj)

/-- What a build comes to before its commit: nothing to commit, or the new mesh with its remap list. -/
inductive Built where
  | nothing (status count : Nat)
  | mesh (m : Mesh) (list : List Word) (status count : Nat)

/-- Bytes of an exchange image, within its length (16_mesh R361). -/
def imageRead (s : State) (c : Cmd) (d : List Word) (off n : Nat) : Run (List Byte × State) := do
  runCheck s 0x14 (decide (off + n ≤ (wordAt d 3).toNat))
  ctlRead s c.agent c.op ((wordAt d 2).toNat + off) n

/-- n numbers of k bytes each. -/
def numbersOf (k n : Nat) (b : List Byte) : List Nat := (List.range n).map fun i => fld b (k * i) k

/-- The bits of a tree stream (16_mesh R361). -/
def streamBits (n : Nat) (b : List Byte) : List Bool := (List.range n).map fun i => (b.getD (i / 8) 0).getLsbD (i % 8)

/-- The mesh of a well-formed exchange image (16_mesh R361, R367), its leaves in stream order. -/
def importMesh (s : State) (c : Cmd) (r : MeshRead) : Run (Mesh × State) := do
  let (h, s1) ← imageRead s c r.d 0 64
  runCheck s1 0x14 (leastBreach (headerChecks h (mDim r.obj))).isNone
  runCheck s1 0x10 (decide (fld h 0x10 4 ≤ mCcap r.obj))
  let dim := fld h 2 1
  let nv := fld h 8 4
  let nr := fld h 0xC 4
  let nb := fld h 0x30 8
  let (vb, s2) ← imageRead s1 c r.d (fld h 0x18 8) (8 * dim * nv)
  let (rb, s3) ← imageRead s2 c r.d (fld h 0x20 8) (32 * nr)
  let (tb, s4) ← imageRead s3 c r.d (fld h 0x28 8) ((nb + 7) / 8)
  let coords := wordsOfBytes vb
  let roots := (List.range nr).map fun i => numbersOf 4 8 (rb.drop (32 * i))
  runCheck s4 0x14 (coords.all f64Finite && roots.all fun x => (x.take (2 ^ dim)).all (· < nv) && (x.drop (2 ^ dim)).all (· == 0))
  match readTree dim (streamBits nb tb) ((List.range nr).map fun i => ⟨i, []⟩) [] with
  | none => .error (0x14, s4)
  | some ls =>
    let m : Mesh := { dim := dim, coords := coords, roots := roots.map fun x => x.take (2 ^ dim), leaves := ls, tag := c.tag, pending := [] }
    runCheck s4 0x14 (ls.length == fld h 0x10 4 && (ls.all fun l => decide (l.depth ≤ mMaxd r.obj)) && m.facesOk && m.balanced)
    return (m, s4)

/-- MIMPORT's build (16_mesh R367). -/
def buildImport (s : State) (c : Cmd) (r : MeshRead) : Run (Built × State) := do
  let (m, s1) ← importMesh s c r
  runCheck s1 0x10 (decide (m.faces ≤ mFcap r.obj))
  let m1 := m.numbered
  return (.mesh m1 (m1.leaves.map fun l => remapWord 0 0 (m.leaves.findIdx fun x => x == l)) 0 m1.leaves.length, s1)

/-- The leaves that a flag array marks (16_mesh R365). -/
def markedLeaves (s : State) (c : Cmd) (r : MeshRead) (m : Mesh) : Run (List Cell × State) := do
  let (b, s1) ← ctlRead s c.agent c.op (wordAt r.d 2).toNat m.leaves.length
  return (((m.leaves.zip b).filter fun e => e.2.getLsbD 0).map (·.1), s1)

/-- The remap list of a mesh that has changed (16_mesh R370). -/
def remapList (old new : Mesh) : List Word := new.leaves.map (remapEntry old.dim old.leaves)

/-- MREFINE's build (16_mesh R368). -/
def buildRefine (s : State) (c : Cmd) (r : MeshRead) (m : Mesh) : Run (Built × State) := do
  let (marked, s1) ← markedLeaves s c r m
  let x := refineMarked (mCcap r.obj) (mFcap r.obj) (mMaxd r.obj) marked ⟨m, 0, false⟩
  let status := if x.full then 0x10 else 0
  let m1 := x.mesh.numbered
  return (if x.committed = 0 then .nothing status 0 else .mesh m1 (remapList m m1) status x.committed, s1)

/-- MCOARSEN's build (16_mesh R369). -/
def buildCoarsen (s : State) (c : Cmd) (r : MeshRead) (m : Mesh) : Run (Built × State) := do
  let (marked, s1) ← markedLeaves s c r m
  let ps := m.mergeable marked
  let m1 := (m.merge ps).numbered
  return (if ps.isEmpty then .nothing 0 0 else .mesh m1 (remapList m m1) 0 ps.length, s1)

/-- The build of MRENUM in mode 0 (16_mesh R367). -/
def buildRenumber (s : State) (c : Cmd) (r : MeshRead) (m : Mesh) : Run (Built × State) := do
  let (b, s1) ← ctlRead s c.agent c.op (wordAt r.d 4).toNat (8 * m.coords.length)
  let coords := wordsOfBytes b
  runCheck s1 0x14 (coords.all f64Finite)
  let m1 := ({ m with coords := coords }).numbered
  return (.mesh m1 (remapList m m1) 0 m1.leaves.length, s1)

/-- The build of a claiming command (16_mesh R367). -/
def meshBuild (s : State) (c : Cmd) (r : MeshRead) : Run (Built × State) :=
  match c.op, r.mesh with
  | 0, _ => buildImport s c r
  | 2, some m => buildRefine s c r m
  | 3, some m => buildCoarsen s c r m
  | 4, some m => buildRenumber s c r m
  | _, _ => .error (0x11, s)

/-- The ranges that a commit writes (16_mesh R359, R371): the descriptor, the remap area and the store. -/
def commitRanges (c : Cmd) (r : MeshRead) (list : List Word) : List (Nat × Nat) :=
  [(r.va, 256), (mRmap r.obj + 0x400, 8 * list.length), (mRmap r.obj, if c.op = 0 then 0 else 64 * mNfld r.obj),
   (mStore r.obj, (128 * mCcap r.obj + 32 * mFcap r.obj + 4095) / 4096 * 4096)]

/-- A port after a commit of the mesh that its NEIGH stream reads (16_mesh R375): it stops with STALE before its next record. -/
def Port.staled (x : Port) : Port :=
  if (x.st == .opened || x.st == .bound) && x.gen != 0 then ({ x with fifo := [], stop := some (0x12, false), skip := 0 } : Port).settle else x

/-- The streams over the mesh whose descriptor stands at a key stop (16_mesh R375). So none is left when a later build reuses the half of the
store that it read. -/
def staleStreams (s : State) (key : Nat) : State :=
  let reads := fun (core : Nat) (x : Port) => specKind x.spec == 5 && keyOfVa s (portAgent s core x) (sP28 x.spec).toNat .read == key
  { s with
    cores := s.cores.map fun k => (k.1, { k.2 with ports := k.2.ports.map fun p => if reads k.1 p.2 then (p.1, p.2.staled) else p }) }

/-- The commit (16_mesh R362, R363, R367, R371): the remap list, the D fields, then STATE, unless a write has cost the command its tag (19_shroud R407). The
store's own bytes are unspecified (R359): a commit leaves free bytes there (DESIGN CHOICE, log 25). -/
def meshCommit (s : State) (n : Nat) (c : Cmd) (r : MeshRead) (m : Mesh) (list : List Word) (status count : Nat) : Run State := do
  runWritable s c.agent (commitRanges c r list)
  let put := fun (st : State) (off k v : Nat) => writeVa st c.home c.agent (r.va + off) (leBytes k v) none
  let s1 := writeVa s c.home c.agent (mRmap r.obj + 0x400) (bytesOfWords list) none
  let s2 := put (put (put (put s1 0x20 4 m.leaves.length) 0x24 4 m.faces) 0x28 4 m.roots.length) 0x3C 4 (m.coords.length / m.dim)
  let s3 := put s2 0x38 4 ((mGen r.obj + 1) % 2 ^ 32)
  let s4 := if c.op = 0 then put s3 7 1 c.engine else put s3 5 1 (1 - mCur r.obj)
  let f := freeBytes ((128 * mCcap r.obj + 32 * mFcap r.obj + 4095) / 4096 * 4096) s4
  let s4 := writeVa f.2 c.home c.agent (mStore r.obj) f.1 none
  if c.live s4 = false then return s4
  let s5 := staleStreams (put { s4 with meshes := tabSet s4.meshes r.key m } 2 1 1) r.key
  let c1 := { c with claim := none }
  if c.op = 0 ∨ mNfld r.obj = 0 then return cmdEnd s5 n c1 status count
  else return setCmd { s5 with remaps := tabSet s5.remaps n ⟨r.key, 0, status, count⟩ } n c1

/-- Whether the store of a mesh that an engine holds has an uncorrectable error (16_mesh R362, R366). -/
def storeHurt (s : State) (c : Cmd) (obj : List Byte) (held : Bool) : Bool := held && rangeHoldsPoison s c.agent (mStore obj) (mStoreLen obj)

/-- The run of a command that has claimed its mesh (16_mesh R362): an uncorrectable error in the store that it reads breaks the mesh. It waits
while a page it writes is MIGRATING (11_page R292). -/
def meshRunClaimed (s : State) (n : Nat) (c : Cmd) : State :=
  match meshRead s c with
  | .error e => cmdRan n c (.error e)
  | .ok (r, s1) =>
    if storeHurt s1 c r.obj (c.op != 0 && r.mesh.isSome) then cmdEnd (breakBy s1 8 c.engine r.key) n { c with claim := none } 0x15 0
    else match meshBuild s1 c r with
    | .error e => cmdRan n c (.error e)
    | .ok (.nothing status count, s2) =>
      let u := unclaim s2 n c
      cmdEnd u.1 n u.2 status count
    | .ok (.mesh m list status count, s2) =>
      if (commitRanges c r list).any (fun x => migratingAt s c.agent x.1 x.2) then s
      else
        match meshCommit s2 n c r m list status count with
        | .error e => cmdRan n c (.error e)
        | .ok s3 => s3

/-- The exchange image of a mesh (16_mesh R361, R367). Its arrays stand in the order in which R367 names them, one directly after the
other (DEDUCED, log 26). -/
def exportImage (m : Mesh) : List Byte :=
  let nv := m.coords.length / m.dim
  let roots := m.rankedRoots
  let bits := roots.flatMap fun r => treeBelow m.dim 17 r (m.leaves.filter fun l => l.within r)
  let ro := 64 + 8 * m.coords.length
  let treeOff := ro + 32 * roots.length
  leBytes 2 1 ++ leBytes 1 m.dim ++ leBytes 5 0 ++ leBytes 4 nv ++ leBytes 4 roots.length ++ leBytes 4 m.leaves.length ++ leBytes 4 0 ++
  leBytes 8 64 ++ leBytes 8 ro ++ leBytes 8 treeOff ++ leBytes 8 bits.length ++ leBytes 8 0 ++ bytesOfWords m.coords ++
  (roots.flatMap fun r => padTo 32 ((m.roots.getD r.root []).flatMap fun v => leBytes 4 v)) ++
  (List.range ((bits.length + 7) / 8)).map fun i => BitVec.ofNat 8 ((List.range 8).foldl (fun x j => x + (if bits.getD (8 * i + j) false then 2 ^ j else 0)) 0)

/-- An output of a command, in one write (16_mesh R366, R367): the state, or a failing Probe. -/
def cmdWrite (s : State) (c : Cmd) (va : Nat) (b : List Byte) : Run State := do
  runWritable s c.agent [(va, b.length)]
  return writeVa s c.home c.agent va b none

/-- MEXPORT (16_mesh R367). -/
def runExport (s : State) (c : Cmd) (r : MeshRead) (m : Mesh) : Run Ran := do
  let b := exportImage m
  runCheck s 0x10 (decide (b.length ≤ (wordAt r.d 3).toNat))
  let s1 ← cmdWrite s c (wordAt r.d 2).toNat b
  return ⟨0, b.length, s1⟩

/-- Remap tasks of the current generation that are not complete, those to be pushed among them (16_mesh R363, R367) (DEDUCED, log 80). -/
def remapCount (s : State) (r : MeshRead) : Nat :=
  (match r.mesh with | some m => m.pending.length | none => 0) +
  (match s.remaps.find? fun e => e.2.mesh == r.key with | some e => mNfld r.obj - e.2.field | none => 0)

/-- MSTAT (16_mesh R367). -/
def runStat (s : State) (c : Cmd) (r : MeshRead) : Run Ran := do
  let depths := match r.mesh with | some m => m.leaves.map Cell.depth | none => []
  let b := leBytes 4 (mNcell r.obj) ++ leBytes 4 (fld r.obj 0x24 4) ++ leBytes 4 (fld r.obj 0x28 4) ++ leBytes 4 (mNvert r.obj) ++
    leBytes 4 (mGen r.obj) ++ leBytes 4 (remapCount s r) ++ leBytes 1 (mState r.obj) ++ leBytes 1 (depths.foldl max 0)
  let s1 ← cmdWrite s c (wordAt r.d 2).toNat
    (padTo 64 b ++ (List.range 16).flatMap fun k => leBytes 4 (depths.filter fun x => x == k).length)
  return ⟨0, 128, s1⟩

/-- Where component j of cell n of field f lies, in buffer k (16_mesh R360). -/
def fieldSpan (b : List Byte) (f : Nat) : Nat := (mCcap b * fComp b f * fSize b f + 63) / 64 * 64
def fieldAt (b : List Byte) (f k n j : Nat) : Nat := fBase b f + k * fieldSpan b f + (n * fComp b f + j) * fSize b f

/-- The exact sum of some values under RNE. -/
def sumValues : List FVal → FVal
  | [] => .fin false 0 0 false
  | v :: vs => vs.foldl (fun a x => (fAdd .rne a x).1) v

/-- Whether a value is a NaN, an infinity of a sign, and whether it is finite. -/
def FVal.isNan : FVal → Bool
  | .nan _ => true
  | _ => false
def FVal.isFinite : FVal → Bool
  | .fin _ _ _ _ => true
  | _ => false

/-- A new value of a MEAN or SUM field before its rounding (16_mesh R371): entry kind 1 splits and 2 merges; ws is empty without a volume
field. -/
def remapMix (sum : Bool) (kind dim : Nat) (xs ws : List FVal) : FVal :=
  if xs.any FVal.isNan || (xs.contains (.inf false) && xs.contains (.inf true)) then .qnan
  else if xs.contains (.inf false) then .inf false
  else if xs.contains (.inf true) then .inf true
  else if kind = 1 then (xs.headD (.inf false)).scale (-(dim : Int))
  else if sum then sumValues xs
  else if ws.isEmpty || ws.any (fun w => !w.isFinite) || (sumValues ws).isZero then (fDiv (sumValues xs) (FVal.ofInt xs.length)).1
  else (fDiv (sumValues ((xs.zip ws).map fun e => (fMul e.2 e.1).1)) (sumValues ws)).1

/-- A field value that a remap reads (16_mesh R364, R371): its bits and their poison. -/
def remapData (s : State) (c : Cmd) (va n : Nat) : Run ((Nat × Option PTag) × State) :=
  match engRead s c.agent va n 0 with
  | .error e => .error e
  | .ok g => .ok ((leNat g.bytes, g.poison), g.st)

/-- Several such values. -/
def remapDatas (c : Cmd) (n : Nat) : List Nat → State → Run (List (Nat × Option PTag) × State)
  | [], s => .ok ([], s)
  | va :: vs, s => do
    let (x, s1) ← remapData s c va n
    let (l, s2) ← remapDatas c n vs s1
    return (x :: l, s2)

/-- A value that a remap hands on (16_mesh R371): a NaN of a floating-point field becomes the canonical one (DEDUCED, log 102). -/
def remapKeep (code bits : Nat) : Nat :=
  match streamFmt code with
  | some (.flt g) => if (g.decode bits).isNan then (g.round .rne false .qnan).1 else bits
  | _ => bits

/-- One new value of a field (16_mesh R371), from its remap entry. -/
def remapOne (s : State) (c : Cmd) (obj : List Byte) (f k j : Nat) (e : Word) : Run ((Nat × Option PTag) × State) := do
  let dim := mDim obj
  let kind := wbits e 63 62
  let src := wbits e 30 0
  let cells := if kind = 2 then (List.range (2 ^ dim)).map (src + ·) else [src]
  let vol := if kind = 2 ∧ fKind obj f = 0 then (List.range (mNfld obj)).find? (fVol obj) else none
  let (xs, s1) ← remapDatas c (fSize obj f) (cells.map fun i => fieldAt obj f k i j) s
  let (ws, s2) ← remapDatas c 8 (match vol with | some v => cells.map fun i => fieldAt obj v k i 0 | none => []) s1
  let first := xs.headD (0, none)
  if fKind obj f = 2 ∨ kind = 0 ∨ (kind = 1 ∧ fKind obj f = 0) then
    return ((if first.2.isSome then 0 else remapKeep (fFmt obj f) first.1, first.2), s2)
  else
    let fmt := match srcOf (fFmt obj f) with | .flt g => g | _ => fmtF64
    let t := (xs ++ ws).foldl (fun t x => lowerTag t x.2) none
    let v := remapMix (fKind obj f == 1) kind dim (xs.map fun x => fmt.decode x.1) (ws.map fun x => fmtF64.decode x.1)
    return ((if t.isSome then 0 else (fmt.round .rne false v).1, t), s2)
where
  /-- The format of a field's element type. -/
  srcOf (code : Nat) : EFmt := (streamFmt code).getD (.flt fmtF64)

/-- Whether a remap entry is well formed (16_mesh R370). -/
def remapEntryOk (obj : List Byte) (e : Word) : Bool :=
  wbits e 63 62 != 3 && wbits e 58 31 == 0 &&
  decide (wbits e 30 0 + (if wbits e 63 62 = 2 then 2 ^ mDim obj - 1 else 0) < mCcap obj)

/-- The new values of a field, cell by cell and component by component (16_mesh R371). -/
def remapAll (c : Cmd) (obj : List Byte) (f k : Nat) : List (Word × Nat) → State → Run (List (Nat × Option PTag) × State)
  | [], s => .ok ([], s)
  | (e, j) :: es, s => do
    let (x, s1) ← remapOne s c obj f k j e
    let (l, s2) ← remapAll c obj f k es s1
    return (x :: l, s2)

/-- MRENUM in mode 1: one remap (16_mesh R367, R370, R371). -/
def runRemap (s : State) (c : Cmd) (r : MeshRead) : Run Ran := do
  let f := wbits (wordAt r.d 2) 15 8
  let k := wbits (wordAt r.d 2) 16 16
  let n := (wordAt r.d 5).toNat
  runCheck s 0x11 ((wordAt r.d 3).toNat == mGen r.obj && decide (f < mNfld r.obj) && n == mNcell r.obj)
  let (lb, s1) ← ctlRead s c.agent c.op (wordAt r.d 4).toNat (8 * n)
  let list := wordsOfBytes lb
  runCheck s1 0x14 (list.all (remapEntryOk r.obj))
  let (vs, s2) ← remapAll c r.obj f k (list.flatMap fun e => (List.range (fComp r.obj f)).map fun j => (e, j)) s1
  let base := fieldAt r.obj f (1 - k) 0 0
  let size := fSize r.obj f
  runWritable s2 c.agent [(base, vs.length * size)]
  return ⟨0, n, (vs.zip (List.range vs.length)).foldl (fun st e =>
    writeVa st c.home c.agent (base + e.2 * size) (leBytes size e.1.1) e.1.2) s2⟩

/-- What a command that claims nothing writes, for the wait of a MIGRATING page (11_page R292). -/
def readOnlyRange (op : Nat) (d : List Word) (obj : List Byte) : Nat × Nat :=
  if op = 1 then ((wordAt d 2).toNat, (wordAt d 3).toNat)
  else if op = 5 then ((wordAt d 2).toNat, 128)
  else (fieldAt obj (wbits (wordAt d 2) 15 8) (1 - wbits (wordAt d 2) 16 16) 0 0, fieldSpan obj (wbits (wordAt d 2) 15 8))

/-- The beginning of a mesh command after its acquire (16_mesh R362 to R366): a claiming command claims; any other runs at once. -/
def meshBegin (s : State) (n : Nat) (c : Cmd) : State :=
  match meshRead s c with
  | .error e => cmdRan n c (.error e)
  | .ok (r, s1) =>
    if meshAccepts c.op (mState r.obj) r.mesh.isSome = false then cmdRan n c (.error (0x11, s1))
    else if meshClaims c.op r.d then
      if migratingAt s c.agent r.va 256 then s
      else match meshClaim s1 n c r with
        | .error e => cmdRan n c (.error e)
        | .ok s2 => s2
    else if storeHurt s1 c r.obj (c.op != 4 && r.mesh.isSome) then cmdRan n c (.error (0x15, s1))
    else
      let w := readOnlyRange c.op r.d r.obj
      if migratingAt s c.agent w.1 w.2 then s
      else
        cmdRan n c (match c.op, r.mesh with
          | 1, some m => runExport s1 c r m
          | 4, some _ => runRemap s1 c r
          | _, _ => runStat s1 c r)

/-- A mesh command goes on (16_mesh R364). -/
def meshCommand (s : State) (n : Nat) (c : Cmd) : State :=
  if c.running then meshRunClaimed s n c else cmdAcquire s n c fun s1 => meshBegin s1 n c

/-- The smallest aligned power of two of at least 64 bytes that contains n bytes from an address, as a range word (14_queue R328; 16_mesh
R371), over at most a number of doublings. -/
def blockWord (mode a n : Nat) : Nat → Nat → Word
  | 0, l => BitVec.ofNat 64 (mode * 2 ^ 62 + l * 2 ^ 56 + a % 2 ^ 56 / 2 ^ l * 2 ^ l)
  | fuel + 1, l =>
    if a / 2 ^ l = (a + n - 1) / 2 ^ l then BitVec.ofNat 64 (mode * 2 ^ 62 + l * 2 ^ 56 + a % 2 ^ 56 / 2 ^ l * 2 ^ l)
    else blockWord mode a n fuel (l + 1)

/-- The remap command of field f, and the task record that names it (16_mesh R371), after the commit has changed CUR. -/
def remapDesc (va : Nat) (obj : List Byte) (f : Nat) : List Word :=
  [BitVec.ofNat 64 va, 0, BitVec.ofNat 64 (1 + f * 2 ^ 8 + (1 - mCur obj) * 2 ^ 16), BitVec.ofNat 64 (mGen obj),
   BitVec.ofNat 64 (mRmap obj + 0x400), BitVec.ofNat 64 (mNcell obj), 0, 0]
def remapRecord (obj : List Byte) (f : Nat) : List Word :=
  let span := fieldSpan obj f
  let buf := fun k => fBase obj f + k * span
  [3, BitVec.ofNat 64 (mRmap obj + 64 * f), 4, 0, blockWord 2 (buf (mCur obj)) span 50 6, blockWord 1 (buf (1 - mCur obj)) span 50 6,
   blockWord 1 (mRmap obj + 0x400) (8 * mCcap obj) 50 6, 0]

/-- A remap task has been pushed at a position of a queue, of the current generation of a mesh (16_mesh R363, R371). -/
def addPending (s : State) (key queue pos : Nat) : State :=
  match tabFind s.meshes key with
  | some m => { s with meshes := tabSet s.meshes key { m with pending := m.pending ++ [(queue, pos)] } }
  | none => s

/-- The next remap task of a command that has committed (16_mesh R371). It waits while ring and spill area are full; a descriptor or queue
that fails now ends the command with its status (DEDUCED, log 27). -/
def pushRemap (s : State) (n : Nat) (c : Cmd) (x : RemapPush) : State :=
  let drop := fun (st : State) => { st with remaps := tabDel st.remaps n }
  match runDescs s c with
  | .error (st, s1) => if st = heldStatus then s1 else cmdEnd (drop s1) n c st x.count
  | .ok (d, obj, _, s1) =>
    if mNfld obj ≤ x.field then cmdEnd (drop s1) n c x.status x.count
    else
      match cmdWrite s1 c (mRmap obj + 64 * x.field) (bytesOfWords (remapDesc (wordAt d 0).toNat obj x.field)) with
      | .error (st, s2) => cmdEnd (drop s2) n c st x.count
      | .ok s2 =>
        match readDesc s2 (mQueue obj) with
        | .error f => cmdEnd (drop (queueFailed s2 (mQueue obj) f)) n c 0x11 x.count
        | .ok q =>
          let p := pushWith s2 (mQueue obj) q (bytesOfWords (remapRecord obj x.field))
          if p.1 = 2 then s
          else if p.1 = 3 then cmdEnd (drop s2) n c 0x11 x.count
          else
            let s3 := addPending (wakeQueue p.2 (mQueue obj)) x.mesh (mQueue obj) (dTail q + dStail q)
            if mNfld obj ≤ x.field + 1 then cmdEnd (drop s3) n c x.status x.count
            else { s3 with remaps := tabSet s3.remaps n { x with field := x.field + 1 } }

/-- REMAP_PUSH (16_mesh R371; 14_queue R339). -/
def execRemapPush (n : Nat) (s : State) : Host.Outcome State Fault Refusal :=
  next (match tabFind s.remaps n, tabFind s.cmds n with
    | some x, some c => pushRemap s n c x
    | _, _ => s)

/-- MIMPORT (16_mesh R364, R367). -/
def execMimport (d a : BitVec 6) (c l : BitVec 1) (xs : BitVec 3) (s : State) : Host.Outcome State Fault Refusal :=
  next (issueCmd s (encode (.mimport d a c l xs)) 0x00 d a c l xs)

/-- MEXPORT (16_mesh R364, R367). -/
def execMexport (d a : BitVec 6) (c l : BitVec 1) (xs : BitVec 3) (s : State) : Host.Outcome State Fault Refusal :=
  next (issueCmd s (encode (.mexport d a c l xs)) 0x01 d a c l xs)

/-- MREFINE (16_mesh R364, R368). -/
def execMrefine (d a : BitVec 6) (c l : BitVec 1) (xs : BitVec 3) (s : State) : Host.Outcome State Fault Refusal :=
  next (issueCmd s (encode (.mrefine d a c l xs)) 0x02 d a c l xs)

/-- MCOARSEN (16_mesh R364, R369). -/
def execMcoarsen (d a : BitVec 6) (c l : BitVec 1) (xs : BitVec 3) (s : State) : Host.Outcome State Fault Refusal :=
  next (issueCmd s (encode (.mcoarsen d a c l xs)) 0x03 d a c l xs)

/-- MRENUM (16_mesh R364, R367). -/
def execMrenum (d a : BitVec 6) (c l : BitVec 1) (xs : BitVec 3) (s : State) : Host.Outcome State Fault Refusal :=
  next (issueCmd s (encode (.mrenum d a c l xs)) 0x04 d a c l xs)

/-- MSTAT (16_mesh R364, R367). -/
def execMstat (d a : BitVec 6) (c l : BitVec 1) (xs : BitVec 3) (s : State) : Host.Outcome State Fault Refusal :=
  next (issueCmd s (encode (.mstat d a c l xs)) 0x05 d a c l xs)

end Sys2Proof.Machine
end

