-- ==== Sys2Proof/Machine/Partition.lean ====
section
/-! DEFINITION. Colouring (17_partition R376, R377) and the commands of the trim unit (R379 to R386). -/

namespace Sys2Proof.Machine

/-- The leaves that share a face record with a leaf, by index (17_partition R377, R380). -/
def Mesh.touching (m : Mesh) (n : Nat) : List Nat := (m.neighbours n).eraseDups

/-- The cells within a face distance of 1 or 2 of a cell (17_partition R377). -/
def Mesh.within (m : Mesh) (dist n : Nat) : List Nat :=
  let one := m.touching n
  (if dist = 1 then one else one ++ one.flatMap m.touching).filter fun c => c != n

/-- The least number that a list does not hold, at most n. -/
def leastAbsent (used : List Nat) (n : Nat) : Nat := ((List.range n).find? fun k => !used.contains k).getD n

/-- The greedy colouring of n cells from a first one (17_partition R377): the colours so far, and whether it stopped at the limit. -/
def colourRun (m : Mesh) (first dist cmax : Nat) : Nat → List Nat → List Nat × Bool
  | 0, cols => (cols, false)
  | n + 1, cols =>
    let c := first + cols.length
    let used := ((m.within dist c).filter fun x => decide (first ≤ x ∧ x < c)).map fun x => cols.getD (x - first) 0
    let k := leastAbsent used 64
    if cmax ≤ k then (cols, true) else colourRun m first dist cmax n (cols ++ [k])

/-- What MCOLOUR writes to OUT (17_partition R377). -/
def colourOut (first : Nat) (cols : List Nat) : List Byte :=
  let idx := cols.zip (List.range cols.length)
  ((List.range 65).flatMap fun k => leBytes 4 (cols.filter fun x => x < k).length) ++
  (List.range 64).flatMap fun k => (idx.filter fun e => e.1 == k).flatMap fun e => leBytes 4 (first + e.2)

/-- Fields of MCOLOUR's descriptor (17_partition R376). -/
def colFirst (d : List Word) : Nat := wbits (wordAt d 2) 30 0
def colN (d : List Word) : Nat := wbits (wordAt d 3) 31 0

/-- The beginning of MCOLOUR (17_partition R376, R377): it reads the mesh's GEN. -/
def colourBegin (s : State) (n : Nat) (c : Cmd) : Run State := do
  let (r, s1) ← meshRead s c
  runCheck s1 0x15 (!storeHurt s1 c r.obj r.mesh.isSome)
  runCheck s1 0x11 (mState r.obj == 1 && r.mesh.isSome && decide (colFirst r.d + colN r.d ≤ mNcell r.obj))
  return setCmd s1 n { c with running := true, gen := mGen r.obj }

/-- MCOLOUR (17_partition R377). -/
def colourFinish (s : State) (c : Cmd) : Run Ran := do
  let (r, s1) ← meshRead s c
  runCheck s1 0x15 (!storeHurt s1 c r.obj r.mesh.isSome)
  runCheck s1 0x12 (mGen r.obj == c.gen)
  match r.mesh with
  | none => .error (0x11, s1)
  | some m =>
    let x := colourRun m (colFirst r.d) (wbits (wordAt r.d 2) 33 32) (wbits (wordAt r.d 2) 46 40) (colN r.d) []
    let colVa := (wordAt r.d 4).toNat
    let outVa := (wordAt r.d 5).toNat
    let cols := x.1.map (BitVec.ofNat 8)
    if x.2 then
      let s2 ← cmdWrite s1 c colVa cols
      return ⟨0x16, cols.length, s2⟩
    else
      let out := colourOut (colFirst r.d) x.1
      runWritable s1 c.agent [(colVa, cols.length), (outVa, out.length)]
      return ⟨0, x.1.foldl (fun a k => max a (k + 1)) 0,
        writeVa (writeVa s1 c.home c.agent colVa cols none) c.home c.agent outVa out none⟩

/-- Whether the mesh of an MCOLOUR has another generation than at its start (17_partition R377). -/
def colourStale (s : State) (c : Cmd) : Bool :=
  match meshRead s c with
  | .ok (r, _) => mGen r.obj != c.gen
  | .error _ => false

/-- MCOLOUR goes on; it waits while a page it writes is MIGRATING (11_page R292). -/
def colourCommand (s : State) (n : Nat) (c : Cmd) : State :=
  if c.running = false then
    cmdAcquire s n c fun s1 => match colourBegin s1 n c with
      | .error e => cmdRan n c (.error e)
      | .ok s2 => s2
  else if migratingAt s c.agent (wordAt c.desc 4).toNat (colN c.desc) || migratingAt s c.agent (wordAt c.desc 5).toNat (0x104 + 4 * colN c.desc) then s
  else cmdRan n c (colourFinish s c)

/-- Fields of the partition descriptor (17_partition R379). -/
def pNpart (b : List Byte) : Nat := fld b 3 1
def pFmask (b : List Byte) : Nat := fld b 4 2
def pCur (b : List Byte) : Nat := fld b 6 1 % 2
def pTrim (b : List Byte) : Bool := (fld b 7 1).testBit 0
def pMesh (b : List Byte) : Nat := fld b 8 8
def pCap (b : List Byte) : Nat := fld b 0x20 4
def pGen (b : List Byte) : Nat := fld b 0x24 4
def pNgen (b : List Byte) : Nat := fld b 0x28 4
def pCut (b : List Byte) (p : Nat) : Nat := fld b (0x40 + 4 * p) 4
def pNewcut (b : List Byte) (p : Nat) : Nat := fld b (0x84 + 4 * p) 4
def pNown (b : List Byte) (p : Nat) : Nat := fld b (0x104 + 16 * p) 4
def pNghost (b : List Byte) (p : Nat) : Nat := fld b (0x108 + 16 * p) 4

/-- What the trim unit has read for a command: its descriptor, the partition's with its key, and the mesh's (17_partition R382). -/
structure PartRead where
  d : List Word
  obj : List Byte
  key : Nat
  mobj : List Byte
  mesh : Mesh
  mkey : Nat
  deriving DecidableEq, Repr

/-- The address of the partition descriptor. -/
def PartRead.va (r : PartRead) : Nat := (wordAt r.d 0).toNat

/-- The first reads of a command of the trim unit (17_partition R381, R382): another tag's partition or mesh gives PROT, and a mesh that is
not READY gives STATE. A mesh that some command of another engine has BUSY by now is still read. -/
def partRead (s : State) (c : Cmd) : Run (PartRead × State) := do
  let (d, obj, key, s1) ← runDescs s c
  runCheck s1 2 (match tabFind s1.parts key with | some t => c.tag == 0 || c.tag == t | none => true)
  let (mobj, s2) ← ctlRead s1 c.agent c.op (pMesh obj) 256
  runCheck s2 0x14 (leastBreach (meshChecks mobj)).isNone
  let mkey := keyOfVa s2 c.agent (pMesh obj) .read
  match tabFind s2.meshes mkey with
  | none => .error (0x11, s2)
  | some m =>
    runCheck s2 2 (c.tag == 0 || c.tag == m.tag)
    runCheck s2 0x11 (mState mobj == 1 || (c.running && mState mobj == 2))
    runCheck s2 0x15 (!storeHurt s2 c mobj true)
    return (⟨d, obj, key, mobj, m, mkey⟩, s2)

/-- Whether a command of the trim unit is accepted in a state of its partition (17_partition R381). -/
def partAccepts (op mode state : Nat) : Bool :=
  if op = 0x11 then state == 0 || state == 1 || state == 3
  else if op = 0x12 then state == 1 || (mode == 1 && state == 0)
  else state == 1

/-- The beginning of a command of the trim unit (17_partition R381, R382): MTRIM and MMIGR claim the partition, and the first MTRIM gives it its
tag. -/
def partBegin (s : State) (n : Nat) (c : Cmd) : Run State := do
  let (r, s1) ← partRead s c
  let state := fld r.obj 2 1
  let mode := (wordAt r.d 3).toNat
  runCheck s1 0x11 (partAccepts c.op mode state)
  let c1 := { c with gen := mGen r.mobj }
  if c.op = 0x13 then return setCmd s1 n { c1 with running := true }
  else
    runCheck s1 0x13 (c.op == 0x11 || mode == 0 || (r.mesh.pending == [] && !s1.remaps.any fun e => e.2.mesh == r.mkey))
    runWritable s1 c.agent [(r.va, 512)]
    let s2 := if c.op = 0x11 ∧ (tabFind s1.parts r.key).isNone then { s1 with parts := tabSet s1.parts r.key c.tag } else s1
    return claimObject s2 n c1 r.va r.key state

/-- The commit of MTRIM or MMIGR (17_partition R381): the descriptor passes Probe once more, then its fields are written, then STATE; nothing is, once a
write of the command has cost it its tag (19_shroud R407). -/
def partCommit (s : State) (c : Cmd) (r : PartRead) (ws : List (Nat × List Byte)) (state : Nat) : Run State := do
  let put := fun (st : State) (w : Nat × List Byte) => if c.live st then writeVa st c.home c.agent (r.va + w.1) w.2 none else st
  runWritable s c.agent [(r.va, 512)]
  return put (ws.foldl put s) (2, [BitVec.ofNat 8 state])

/-- Cuts as the descriptor holds them: 17 numbers, zero above the last (17_partition R379). -/
def cutBytes (cuts : List Nat) : List Byte := padTo 68 (cuts.flatMap fun c => leBytes 4 c)

/-- The part that owns a cell under some cuts (17_partition R379). -/
def ownerOf (cuts : List Nat) (n : Nat) : Option Nat :=
  (List.range (cuts.length - 1)).find? fun p => decide (cuts.getD p 0 ≤ n ∧ n < cuts.getD (p + 1) 0)

/-- The sums of weights below each cell (17_partition R383), from weights in order. -/
def prefixSums : Nat → List Nat → List Nat
  | t, [] => [t]
  | t, w :: ws => t :: prefixSums (t + w) ws

/-- MTRIM's new cuts from the sums (17_partition R383). -/
def newCuts (sums : List Nat) (npart ncell : Nat) : List Nat :=
  (List.range (npart + 1)).map fun p =>
    if p = 0 then 0 else if p = npart then ncell else sums.findIdx fun w => decide (p * sums.getD ncell 0 ≤ w * npart)

/-- Fields that a part area holds (17_partition R379, R380). -/
def partFields (b : List Byte) : List Nat := (List.range 16).filter fun f => (pFmask b).testBit f

/-- The bytes of a cell of mesh field f. -/
def cellBytes (mobj : List Byte) (f : Nat) : Nat := fComp mobj f * fSize mobj f

/-- The bytes of a ghost list, and of a buffer of field f (17_partition R380). -/
def ghostBytes (b : List Byte) : Nat := (4 * pCap b + 63) / 64 * 64
def partSpan (r : PartRead) (f : Nat) : Nat := (pCap r.obj * cellBytes r.mobj f + 63) / 64 * 64

/-- The bytes of a part area (17_partition R380), over some fields. -/
def areaBytes (r : PartRead) (fs : List Nat) : Nat := fs.foldl (fun n f => n + 2 * partSpan r f) (2 * ghostBytes r.obj)

/-- Where part p's area begins, its ghost list k, and slot i of its buffer k of field f (17_partition R379, R380). -/
def partArea (r : PartRead) (p : Nat) : Nat := fld r.obj 0x10 8 + p * fld r.obj 0x18 8
def ghostList (r : PartRead) (p k : Nat) : Nat := partArea r p + k * ghostBytes r.obj
def partSlot (r : PartRead) (p f k i : Nat) : Nat :=
  partArea r p + areaBytes r ((partFields r.obj).filter fun g => decide (g < f)) + k * partSpan r f + i * cellBytes r.mobj f

/-- The layout checks of R364: FMASK within NFLD, and PSTRIDE large enough. -/
def layoutOk (r : PartRead) : Bool :=
  decide (pFmask r.obj < 2 ^ mNfld r.mobj) && decide (areaBytes r (partFields r.obj) ≤ fld r.obj 0x18 8)

/-- MTRIM (17_partition R383): the state before the claim is in the command. -/
def runTrim (s : State) (c : Cmd) (r : PartRead) : Run Ran := do
  runCheck s 0x14 (layoutOk r)
  let nc := r.mesh.leaves.length
  let np := pNpart r.obj
  let (b, s1) ← ctlRead s c.agent c.op (wordAt r.d 3).toNat (4 * nc)
  let w := numbersOf 4 nc b
  let sums := prefixSums 0 (if w.all (· == 0) then w.map fun _ => 1 else w)
  let cut := (List.range (np + 1)).map (pCut r.obj)
  let former := match c.claim with | some x => x.2 | none => 0
  let gen := mGen r.mobj
  let most := (List.range np).foldl (fun a p => max a (sums.getD (min (cut.getD (p + 1) 0) nc) 0 - sums.getD (min (cut.getD p 0) nc) 0)) 0
  if former = 1 ∧ pGen r.obj = gen ∧ most * np * 256 ≤ sums.getD nc 0 * (256 + wbits (wordAt r.d 4) 7 0) then
    return ⟨0, 0, ← partCommit s1 c r [] former⟩
  else
    let new := newCuts sums np nc
    let moved := if pGen r.obj ≠ gen then nc else ((List.range nc).filter fun n => ownerOf cut n != ownerOf new n).length
    return ⟨0, moved, ← partCommit s1 c r [(0x84, cutBytes new), (0x28, leBytes 4 gen), (7, [1])] former⟩

/-- The ghosts of a part under some cuts (17_partition R380). -/
def ghostsOf (m : Mesh) (lo hi : Nat) : List Nat :=
  let near := (List.range (hi - lo)).flatMap fun i => m.touching (lo + i)
  (List.range m.leaves.length).filter fun n => decide (n < lo ∨ hi ≤ n) && near.contains n

/-- A copy of one cell of one field: from, to, the bytes and the bytes of a component. -/
abbrev CellCopy := Nat × Nat × Nat × Nat

/-- Copies made in order (17_partition R384): bit for bit, and poison moves with the value, component by component when some of the cell is poisoned
(06_vector_access R160). Every range has passed its Probe. A write that costs the command its tag is its last (19_shroud R407, R412). -/
def doCopies (c : Cmd) : List CellCopy → State → State
  | [], s => s
  | (src, dst, n, w) :: cs, s =>
    let put := fun (st : State) (off k : Nat) =>
      let g := readVa st c.agent (src + off) k
      writeVa g.st c.home c.agent (dst + off) g.bytes g.poison
    if c.live s = false then s
    else doCopies c cs (if rangeHoldsPoison s c.agent src n then (List.range (n / w)).foldl (fun st i => put st (i * w) w) s else put s 0 n)

/-- The ranges that copies read and write pass Probe (16_mesh R366), and no read waits behind the traffic of a link (20_link R431). -/
def copiesOk (s : State) (c : Cmd) (cs : List CellCopy) : Run Unit :=
  match probe s c.agent .read (cs.map fun x => (x.1, x.2.2.1)), cs.flatMap fun x => readHolds s c.agent x.1 x.2.2.1 with
  | m :: _, _ => .error (engineMiss s c.agent m)
  | [], [] => runWritable s c.agent (cs.map fun x => (x.2.1, x.2.2.1))
  | [], h => .error (heldStatus, holdReads s h)

/-- Whether cuts ascend from 0 to a number of cells (17_partition R384). -/
def cutsOk (cuts : List Nat) (ncell : Nat) : Bool :=
  cuts.getD 0 1 == 0 && cuts.getD (cuts.length - 1) 0 == ncell && (cuts.zip (cuts.drop 1)).all fun e => decide (e.1 ≤ e.2)

/-- The current slot of a cell in its owner's area under some cuts (17_partition R380); FORMAT when it lies beyond PCAP. -/
def ownedSlot (r : PartRead) (cut : List Nat) (f n : Nat) : Option Nat :=
  match ownerOf cut n with
  | some p => if n - cut.getD p 0 < pCap r.obj then some (partSlot r p f (pCur r.obj) (n - cut.getD p 0)) else none
  | none => none

/-- A list of options as an option of a list. -/
def allSome {α : Type} : List (Option α) → Option (List α)
  | [] => some []
  | none :: _ => none
  | some x :: l => (allSome l).map (x :: ·)

/-- The copies of MMIGR in modes 0 and 1 (17_partition R384): for each part under the new cuts, every slot of the buffers to be. -/
def migrateCopies (r : PartRead) (mode : Nat) (cut : List Nat) (parts : List (Nat × List Nat)) : Option (List CellCopy) :=
  allSome <| parts.flatMap fun p => (partFields r.obj).flatMap fun f => (p.2.zip (List.range p.2.length)).map fun e =>
    let src := if mode = 0 then ownedSlot r cut f e.1 else some (fieldAt r.mobj f (mCur r.mobj) e.1 0)
    src.map fun a => (a, partSlot r p.1 f (1 - pCur r.obj) e.2, cellBytes r.mobj f, fSize r.mobj f)

/-- MMIGR (17_partition R384). -/
def runMigrate (s : State) (c : Cmd) (r : PartRead) : Run Ran := do
  let mode := (wordAt r.d 3).toNat
  let np := pNpart r.obj
  let nc := r.mesh.leaves.length
  let gen := mGen r.mobj
  let cut := (List.range (np + 1)).map (pCut r.obj)
  let new := (List.range (np + 1)).map (pNewcut r.obj)
  runCheck s 0x11 (if mode = 2 then pGen r.obj == gen else pTrim r.obj && pNgen r.obj == gen && (mode == 1 || pGen r.obj == gen))
  runCheck s 0x14 ((mode == 1 || cutsOk cut nc) && (mode == 2 || cutsOk new nc) && layoutOk r)
  if mode = 2 then
    let cs := (partFields r.obj).flatMap fun f => (List.range nc).map fun n =>
      (ownedSlot r cut f n).map fun a => (a, fieldAt r.mobj f (mCur r.mobj) n 0, cellBytes r.mobj f, fSize r.mobj f)
    match allSome cs with
    | none => .error (0x14, s)
    | some l =>
      copiesOk s c l
      return ⟨0, nc, ← partCommit (doCopies c l s) c r [] 1⟩
  else
    let owned := fun p => (List.range (new.getD (p + 1) 0 - new.getD p 0)).map (new.getD p 0 + ·)
    let ghosts := fun p => ghostsOf r.mesh (new.getD p 0) (new.getD (p + 1) 0)
    let parts := (List.range np).map fun p => (p, owned p ++ ghosts p)
    runCheck s 0x10 (parts.all fun p => decide (p.2.length ≤ pCap r.obj))
    let k := 1 - pCur r.obj
    match migrateCopies r mode cut parts with
    | none => .error (0x14, s)
    | some l =>
      copiesOk s c l
      runWritable s c.agent ((List.range np).map fun p => (ghostList r p k, 4 * (ghosts p).length))
      let s1 := (List.range np).foldl (fun st p =>
        writeVa st c.home c.agent (ghostList r p k) ((ghosts p).flatMap fun g => leBytes 4 g) none) s
      let count := if mode = 0 then ((List.range nc).filter fun n => ownerOf cut n != ownerOf new n).length
        else parts.foldl (fun n p => n + p.2.length) 0
      return ⟨0, count, ← partCommit (doCopies c l s1) c r
        (((List.range np).map fun p => (0x104 + 16 * p, leBytes 4 (owned p).length ++ leBytes 4 (ghosts p).length)) ++
          [(0x40, cutBytes new), (0x24, leBytes 4 gen), (7, [0]), (6, [BitVec.ofNat 8 k])]) 1⟩

/-- The ghost lists of the parts that MGHOST selects (17_partition R385). -/
def readGhosts (c : Cmd) (r : PartRead) : List Nat → State → Run (List (Nat × List Nat) × State)
  | [], s => .ok ([], s)
  | p :: ps, s => do
    let (b, s1) ← ctlRead s c.agent c.op (ghostList r p (pCur r.obj)) (4 * pNghost r.obj p)
    let (l, s2) ← readGhosts c r ps s1
    return ((p, numbersOf 4 (pNghost r.obj p) b) :: l, s2)

/-- MGHOST (17_partition R385). -/
def runGhost (s : State) (c : Cmd) (r : PartRead) : Run Ran := do
  runCheck s 0x14 (layoutOk r)
  let sel := wbits (wordAt r.d 4) 15 0
  let cut := (List.range (pNpart r.obj + 1)).map (pCut r.obj)
  let (gs, s1) ← readGhosts c r ((List.range (pNpart r.obj)).filter fun p => sel == 0 || sel.testBit p) s
  runCheck s1 0x14 (gs.all fun e => (e.2.zip (List.range e.2.length)).all fun x =>
    decide (x.1 < r.mesh.leaves.length) && (ownerOf cut x.1).isSome && decide (pNown r.obj e.1 + x.2 < pCap r.obj))
  let cs := gs.flatMap fun e => ((partFields r.obj).filter fun f => (wordAt r.d 3).getLsbD f).flatMap fun f =>
    (e.2.zip (List.range e.2.length)).map fun x =>
      (ownedSlot r cut f x.1).map fun a => (a, partSlot r e.1 f (pCur r.obj) (pNown r.obj e.1 + x.2), cellBytes r.mobj f, fSize r.mobj f)
  match allSome cs with
  | none => .error (0x14, s1)
  | some l =>
    copiesOk s1 c l
    return ⟨0, l.length, doCopies c l s1⟩

/-- The run of a command of the trim unit (17_partition R382): a change of the mesh's generation ends it with STALE. -/
def partRun (s : State) (c : Cmd) : Run Ran := do
  let (r, s1) ← partRead s c
  runCheck s1 0x12 (mGen r.mobj == c.gen)
  if c.op = 0x11 then runTrim s1 c r else if c.op = 0x12 then runMigrate s1 c r else runGhost s1 c r

/-- Whether a part area, or a mesh field, lies in a MIGRATING page: the trim unit's command waits (11_page R292). -/
def partMigrates (s : State) (c : Cmd) : Bool :=
  match partRead s c with
  | .error _ => false
  | .ok (r, _) =>
    migratingAt s c.agent r.va 512 || (c.op != 0x11 && (
    ((List.range (pNpart r.obj)).any fun p => migratingAt s c.agent (partArea r p) (areaBytes r (partFields r.obj))) ||
    (partFields r.obj).any fun f => migratingAt s c.agent (fieldAt r.mobj f (mCur r.mobj) 0 0) (fieldSpan r.mobj f)))

/-- Whether an earlier command of the trim unit is in flight (17_partition R382). -/
def trimBusy (s : State) (n : Nat) : Bool :=
  s.cmds.any fun e => decide (e.1 < n) && (match e.2.kind with | .unit op => decide (0x11 ≤ op ∧ op ≤ 0x13) | .pgmig => false)

/-- A command of the trim unit goes on (17_partition R382). -/
def trimCommand (s : State) (n : Nat) (c : Cmd) : State :=
  if trimBusy s n then s
  else if c.running = false then
    cmdAcquire s n c fun s1 => match partBegin s1 n c with
      | .error e => cmdRan n c (.error e)
      | .ok s2 => s2
  else if partMigrates s c then s
  else cmdRan n c (partRun s c)

/-- MCOLOUR (17_partition R376). -/
def execMcolour (d a : BitVec 6) (c l : BitVec 1) (xs : BitVec 3) (s : State) : Host.Outcome State Fault Refusal :=
  next (issueCmd s (encode (.mcolour d a c l xs)) 0x10 d a c l xs)

/-- MTRIM (17_partition R383). -/
def execMtrim (d a : BitVec 6) (c l : BitVec 1) (xs : BitVec 3) (s : State) : Host.Outcome State Fault Refusal :=
  next (issueCmd s (encode (.mtrim d a c l xs)) 0x11 d a c l xs)

/-- MMIGR (17_partition R384). -/
def execMmigr (d a : BitVec 6) (c l : BitVec 1) (xs : BitVec 3) (s : State) : Host.Outcome State Fault Refusal :=
  next (issueCmd s (encode (.mmigr d a c l xs)) 0x12 d a c l xs)

/-- MGHOST (17_partition R385). -/
def execMghost (d a : BitVec 6) (c l : BitVec 1) (xs : BitVec 3) (s : State) : Host.Outcome State Fault Refusal :=
  next (issueCmd s (encode (.mghost d a c l xs)) 0x13 d a c l xs)

end Sys2Proof.Machine
end

