-- ==== Sys2Proof/Machine/Bucket.lean ====
section
/-! DEFINITION. The key-bucket unit (18_bucket R387 to R398, R403; 11_page R296): signatures, the KV page table, chains and insertion, KST and its
publication, and the commands KPROJ, KRESET and KSTAT. -/

namespace Sys2Proof.Machine

/-- The projection slot p of the KBU of a cluster (18_bucket R387). -/
def projSlot (s : State) (cluster p : Nat) : Option Proj := tabFind s.proj (cluster * 64 + p % 64)

/-- The format of a key type (18_bucket R387). -/
def keyFmt (ktype : Nat) : Fmt := wideFmt (ktype - 0x18)

/-- Whether row b of a sign matrix is −1 at column j (18_bucket R387). -/
def Proj.minus (p : Proj) (b j : Nat) : Bool := (p.signs.getD ((b * p.d + j) / 8) 0).getLsbD ((b * p.d + j) % 8)

/-- The dot product of row b with finite values, in units of a power of two that is the least exponent of any of them (18_bucket R388). -/
def Proj.dot (p : Proj) (b : Nat) (xs : List FVal) : Int :=
  let lo := xs.foldl (fun (m : Int) x => match x with | .fin _ _ e _ => min m e | _ => m) 0
  (xs.zip (List.range xs.length)).foldl (fun (t : Int) x => match x.1 with
    | .fin n m e _ => t + unitsOf (n != p.minus b x.2) m e lo
    | _ => t) 0

/-- The signature of a key (18_bucket R388); none when it has no valid one. -/
def Proj.signature (p : Proj) (xs : List FVal) : Option Nat :=
  if xs.all FVal.isFinite then some ((List.range p.b).foldl (fun n b => n + (if 0 < p.dot b xs then 2 ^ b else 0)) 0) else none

/-- Fields of a bucket table descriptor (18_bucket R389). -/
def tState (b : List Byte) : Nat := fld b 2 1
def tB (b : List Byte) : Nat := fld b 3 1
def tNhead (b : List Byte) : Nat := fld b 4 2
def tPslot (b : List Byte) : Nat := fld b 6 1 % 64
def tKtype (b : List Byte) : Nat := fld b 7 1
def tD (b : List Byte) : Nat := fld b 8 2
def tScope (b : List Byte) : Nat := fld b 0xA 1 % 8
def tHome (b : List Byte) : Nat := fld b 0xB 1
def tOwner (b : List Byte) : STag := BitVec.ofNat 10 (fld b 0xC 2)
def tKvpt (b : List Byte) : Nat := fld b 0x10 8
def tVoff (b : List Byte) : Nat := fld b 0x18 8
def tBuck (b : List Byte) : Nat := fld b 0x20 8
def tPres (b : List Byte) : Nat := fld b 0x28 8
def tPool (b : List Byte) : Nat := fld b 0x30 8
def tNblk (b : List Byte) : Nat := fld b 0x38 4
def tNfree (b : List Byte) : Nat := fld b 0x3C 4
def tFree (b : List Byte) : Nat := fld b 0x40 8
def tTguard (b : List Byte) : Nat := fld b 0x48 8
def tTcap (b : List Byte) : Nat := fld b 0x50 4
def tBlim (b : List Byte) : Nat := fld b 0x54 4
def tDlim (b : List Byte) : Nat := fld b 0x58 4
def tNlink (b : List Byte) : Nat := fld b 0x5C 4

/-- Where entry g of head h stands (18_bucket R390), the presence word of a token (R389) and its bit there. -/
def tEntry (b : List Byte) (h g : Nat) : Nat := tBuck b + 16 * (h * (2 ^ tB b + 1) + g)
def tPresWord (b : List Byte) (h t : Nat) : Nat := tPres b + 8 * ((t * tNhead b + h) / 64)
def tPresBit (b : List Byte) (h t : Nat) : Nat := (t * tNhead b + h) % 64

/-- The KV logical byte offset of a key row (18_bucket R389). -/
def tOffset (b : List Byte) (h t : Nat) : Nat := (t * tNhead b + h) * tRow b

/-- Why a read or a Probe of a table's memory gives nothing (18_bucket R390, R392; 11_page R296): failing pages of some ranges, or poison and
corruption, which break the table; or a read that waits behind the traffic of a link (20_link R431). -/
inductive TabFail where
  | miss (ms : List Miss) (ranges : List (Nat × Nat))
  | broken
  | held (hs : List (Nat × Nat))
  deriving DecidableEq, Repr

/-- Work over a table's memory. -/
abbrev TabRun (α : Type) := Except (TabFail × State) α

/-- A read of a table's memory (18_bucket R392): poison is an uncorrectable error in it. -/
def tabRead (s : State) (ag : Agent) (va n : Nat) : TabRun (List Byte × State) :=
  match probeRange s ag .read va n with
  | m :: ms => .error (.miss (m :: ms) [(va, n)], s)
  | [] =>
    let h := readHolds s ag va n
    if h ≠ [] then .error (.held h, s)
    else
      let g := readVa s ag va n
      if g.poison.isSome then .error (.broken, g.st) else .ok (g.bytes, g.st)

/-- A chain block (18_bucket R390): its address, NEXT and its tokens. -/
structure Block where
  va : Nat
  next : Nat
  toks : List Nat
  deriving DecidableEq, Repr

/-- Whether a block address is well placed (18_bucket R390). -/
def blockPlaced (b : List Byte) (a : Nat) : Bool := a % 64 == 0 && decide (tPool b ≤ a) && decide (a < tPool b + 64 * tNblk b)

/-- NEXT of a header word, the rest of which but NT shall be zero (18_bucket R390). -/
def headerNext (h : Nat) : Nat := h / 64 % 2 ^ 50 * 64
def headerOk (h : Nat) : Bool := h == headerNext h + h % 16 && decide (h % 16 ≤ 14)

/-- The chain from a block on, over at most a number of blocks (18_bucket R390). -/
def readChain (ag : Agent) (b : List Byte) : Nat → Nat → State → TabRun (List Block × State)
  | 0, a, s => if a = 0 then .ok ([], s) else .error (.broken, s)
  | n + 1, a, s =>
    if a = 0 then .ok ([], s)
    else if blockPlaced b a = false then .error (.broken, s)
    else
      match tabRead s ag a 64 with
      | .error e => .error e
      | .ok (x, s1) =>
        let h := fld x 0 8
        if headerOk h = false ∨ h % 16 = 0 then .error (.broken, s1)
        else
          match readChain ag b n (headerNext h) s1 with
          | .error e => .error e
          | .ok (l, s2) => .ok (⟨a, headerNext h, (List.range (h % 16)).map fun i => fld x (8 + 4 * i) 4⟩ :: l, s2)

/-- The 64 bytes of a block (18_bucket R390). -/
def Block.bytes (k : Block) : List Byte := padTo 64 (leBytes 8 (k.next + k.toks.length) ++ k.toks.flatMap fun t => leBytes 4 t)

/-- The block of a chain that a token is to join (18_bucket R391): the first whose last token is greater, or the last. -/
def joinBlock (l : List Block) (t : Nat) : Option Block :=
  match l.find? fun k => decide (t < k.toks.getLastD 0) with
  | some k => some k
  | none => l.getLast?

/-- What an insertion writes (18_bucket R391), given the free block to take: the blocks, FIRST, and whether the free block is taken. -/
def insertPlan (l : List Block) (first free t : Nat) : List Block × Nat × Bool :=
  match joinBlock l t with
  | none => ([⟨free, 0, [t]⟩], free, true)
  | some x =>
    let all := insertNat t x.toks
    if x.toks.length < 14 then ([{ x with toks := all }], first, false)
    else ([{ x with toks := all.take 8, next := free }, ⟨free, x.next, all.drop 8⟩], first, true)

/-- Where a row of a KV page lies (11_page R296): at an address, nowhere, or behind a read that fails Probe, with its bytes, or that waits behind the
traffic of a link (20_link R431). -/
inductive KvPlace where
  | at (va : Nat)
  | miss
  | unreadable (ms : List Miss) (range : Nat × Nat)
  | held (hs : List (Nat × Nat))
  deriving DecidableEq, Repr

/-- A read of n bytes of a KV page table (11_page R296), and what its bytes, none when they are poisoned, come to. -/
def kvRead (s : State) (ag : Agent) (va n : Nat) (f : Option (List Byte) → State → KvPlace × State) : KvPlace × State :=
  match probeRange s ag .read va n with
  | m :: ms => (.unreadable (m :: ms) (va, n), s)
  | [] =>
    let h := readHolds s ag va n
    if h ≠ [] then (.held h, s)
    else
      let g := readVa s ag va n
      f (if g.poison.isSome then none else some g.bytes) g.st

/-- The lookup of a logical offset in a KV page table, for a row of rb bytes (11_page R296; 18_bucket R389). -/
def kvLookup (s : State) (ag : Agent) (kvpt o rb : Nat) : KvPlace × State :=
  kvRead s ag kvpt 64 fun header s1 =>
    match header with
    | none => (.miss, s1)
    | some x =>
      let shift := fld x 8 1
      let n := o / 2 ^ shift
      if (x.drop 9).any (· != 0) ∨ shift < 12 ∨ 24 < shift ∨ 2 ^ shift < rb ∨ fld x 0 8 ≤ n then (.miss, s1)
      else
        kvRead s1 ag (kvpt + 0x40 + 8 * n) 8 fun entry s2 =>
          match entry with
          | none => (.miss, s2)
          | some e =>
            let w := leNat e
            let va := w % 2 ^ 56
            if w.testBit 63 = false ∨ w / 2 ^ 56 % 2 ^ 7 ≠ 0 ∨ va % 2 ^ shift ≠ 0 then (.miss, s2)
            else (.at (va + o % 2 ^ shift), s2)

/-- The result word of a KST (18_bucket R395): bucket g of a table of b signature bits. -/
def kstWord (code g b : Nat) : Word := BitVec.ofNat 64 (code * 2 ^ 56 + (if g = 2 ^ b then 2 ^ 55 else 0) + g % 2 ^ b)

/-- What the issue of a KST comes to (18_bucket R395). -/
inductive KstRes where
  | trap (r : Report) (s : State)
  | sink (t : PTag)
  | done (v : Word) (s : State)
  | claim (k : KLink) (s : State)
  /-- a read of the unit waits behind the traffic of a link (20_link R431): the KST is tried again -/
  | held (s : State)

/-- The report of a KST whose Probe failed (18_bucket R395; 06_vector_access R149), over ranges that it checked for a kind, with its row's
address and element size when it has one. An access that belongs to no element reports a free index (DESIGN CHOICE, log 28). -/
def kstFail (s : State) (q : Nat) (e : VEntry) (ag : Agent) (ms : List Miss) (ranges : List (Nat × Nat)) (row : Option (Nat × Nat)) : KstRes :=
  let fails := fun (r : Nat × Nat) => (granuleAddrs r.1 r.2).filter fun a =>
    match checkInRange s ag r.1 a .write with | .ok _ => false | .error _ => true
  let bad := match row with
    | some (a, k) => (List.range e.vl).filter fun j => !(fails (a + j * k, k)).isEmpty
    | none => []
  let addr := match bad, row with
    | j :: _, some (a, k) => leastOf (fails (a + j * k, k))
    | _, _ => leastOf (ranges.flatMap fun r => (granuleAddrs r.1 r.2).filter fun a => ms.any fun m => decide (m.page ≤ a ∧ a < m.page + pageBytes m.size))
  let mask := (List.range ((e.vl + 63) / 64 * 8)).map fun b => maskByte bad.contains (8 * b)
  let i := match bad with | j :: _ => (j, s) | [] => ((drawFree s).1.toNat, (drawFree s).2)
  let r := accessReport i.2 q ⟨e.pc, e.word, true, false, e.vl, e.p, mask⟩ ms addr i.1 true
  .trap r.1 r.2

/-- The end of a KST that breaks its table (18_bucket R390, R392). -/
def kstBroken (s : State) (key : Nat) (v : Word) : KstRes := .done v (breakObject { s with tables := tabDel s.tables key } 7 key)

/-- The elements of a key and their lowest poison. -/
def keyElems (c : Core) (v : VView) (r : Nat) : List Elem := (List.range v.vl).map fun i => c.elem v r v.w i
def lowestPoison (es : List Elem) : Option PTag := es.foldl (fun t e => lowerTag t e.poison) none

/-- What the insertion of a token is to write (18_bucket R391): the blocks, FIRST, whether it takes the free block, and the COUNT before. -/
structure LinkPlan where
  blocks : List Block
  first : Nat
  takes : Bool
  count : Nat
  deriving DecidableEq, Repr

/-- The plan of an insertion of token t into the bucket whose entry stands at ea (18_bucket R390, R391). -/
def linkPlan (s : State) (ag : Agent) (b : List Byte) (ea t : Nat) : TabRun (LinkPlan × State) := do
  let (en, s1) ← tabRead s ag ea 16
  let (l, s2) ← readChain ag b (tNblk b) (fld en 0 8) s1
  let p := insertPlan l (fld en 0 8) (tFree b) t
  return (⟨p.1, p.2.1, p.2.2, fld en 8 4⟩, s2)

/-- Whether an insertion needs a block and none is free (18_bucket R395). -/
def LinkPlan.full (p : LinkPlan) (b : List Byte) : Bool := p.takes && (tNfree b == 0 || tFree b == 0)

/-- The block at FREE is well placed and its header well formed, when an insertion takes it (18_bucket R390): its NEXT. -/
def freeNext (s : State) (ag : Agent) (b : List Byte) (p : LinkPlan) : TabRun (Nat × State) :=
  if p.takes = false then .ok (0, s)
  else if blockPlaced b (tFree b) = false then .error (.broken, s)
  else
    match tabRead s ag (tFree b) 64 with
    | .error e => .error e
    | .ok (x, s1) =>
      let h := fld x 0 8
      if headerOk h = false ∨ (headerNext h ≠ 0 ∧ blockPlaced b (headerNext h) = false) then .error (.broken, s1) else .ok (headerNext h, s1)

/-- The bytes of a table that an insertion and its publication write, beside the descriptor (18_bucket R395): the presence word, the entry,
TGUARD and the blocks. -/
def linkRanges (b : List Byte) (h t g : Nat) (p : LinkPlan) : List (Nat × Nat) :=
  [(tPresWord b h t, 8), (tEntry b h g, 16), (tTguard b, 8)] ++ (p.blocks.filter fun x => x.va != 0).map fun x => (x.va, 64)

/-- The translations that the Probe of a KST finds (06_vector_access R151; 18_bucket R395): of its row, of the table's descriptor, and of what its link
writes. -/
def kstPages (s : State) (ag : Agent) (row : Nat × Nat) (tva : Nat) (rs : List (Nat × Nat)) : List HeldPage :=
  rs.foldl (holdPages s ag .update) (holdPages s ag .read (holdPages s ag .write [] row) (tva, 128))

/-- The claim of a KST (18_bucket R395, from the Probe of its row on), for bucket g. -/
def kstClaim (s : State) (q dest : Nat) (e : VEntry) (ag : Agent) (b : List Byte) (tva key h t g row : Nat) (es : List Elem) (k : Nat) : KstRes :=
  let pw := tPresWord b h t
  let upd := [(pw, 8), (tEntry b h g, 16), (tTguard b, 8)]
  let word := fun code => kstWord code g (tB b)
  let fails := fun (ms : List Miss) (rs : List (Nat × Nat)) (st : State) => kstFail st q e ag ms rs (some (row, k))
  let stops := fun (x : TabFail × State) => match x with
    | (.miss ms rs, st) => fails ms rs st
    | (.broken, st) => kstBroken st key (word 0x15)
    | (.held h, _) => .held (holdReads s h)
  let ms := (probe s ag .update upd).foldl (fun l m => insertMiss m l) (probe s ag .write [(row, tRow b)])
  if ms ≠ [] then fails ms ((row, tRow b) :: upd) s
  else
    match linkPlan s ag b (tEntry b h g) t with
    | .error x => stops x
    | .ok (plan, s1) =>
      let rs := linkRanges b h t g { plan with blocks := if plan.full b then [] else plan.blocks }
      match probe s1 ag .update rs, tabRead s1 ag pw 8 with
      | m :: ms, _ => fails (m :: ms) rs s1
      | [], .error x => stops x
      | [], .ok (p, s2) =>
        if (fld p 0 8).testBit (tPresBit b h t) || s2.claims.any fun x => x.2.key == key && x.2.head == h && x.2.token == t then .done (word 0x16) s2
        else if plan.full b then .done (word 0x11) s2
        else
          match freeNext s2 ag b plan with
          | .error x => stops x
          | .ok (_, s3) =>
            let waits := (((row, tRow b) :: (tva, 128) :: rs).any fun r => migratingAt s3 ag r.1 r.2)
            .claim
              { table := BitVec.ofNat 64 tva, agent := ag, key := key, head := h, token := t, bucket := g, slot := q, dest := dest, ord := e.ord, row := row,
                bytes := es.flatMap fun x => leBytes k x.bits, poison := es.flatMap fun x => List.replicate k x.poison
                pages := if waits then [] else kstPages s3 ag (row, tRow b) tva rs, waiting := waits, bits := tB b, published := false }
              (touchRange s3 ag (if waits then .read else .write) row (tRow b))

/-- The issue of a KST (18_bucket R395), with its destination and its key register. A signature that a slot of another width than the table's
gives beyond the table's buckets stands for a free one (DESIGN CHOICE, log 29) (DEDUCED, log 53). -/
def kstIssue (s : State) (q dest va : Nat) (e : VEntry) (c : Core) (v : VView) : KstRes :=
  let t := e.op0.toNat
  let w := e.op1
  let ag := kbuAgent s q
  let tva := wbits w 55 6 * 64
  let h := wbits w 63 56
  let bad := fun (aux : Word) => KstRes.trap ⟨0x01, e.pc, 0, aux, true, false⟩ s
  match lowerTag e.poison0 e.poison1 with
  | some x => .sink x
  | none =>
    if wbits w 5 0 ≠ 0 then bad w
    else
      match probeRange s ag .read tva 128 with
      | m :: ms => kstFail s q e ag (m :: ms) [(tva, 128)] none
      | [] =>
        let hs := readHolds s ag tva 128
        if hs ≠ [] then .held (holdReads s hs) else
        let key := keyOfVa s ag tva .read
        let g := readVa s ag tva 128
        let b := g.bytes
        let s1 := g.st
        let fin := fun code => KstRes.done (BitVec.ofNat 64 (code * 2 ^ 56)) s1
        if g.poison.isSome then kstBroken s1 key (BitVec.ofNat 64 (0x15 * 2 ^ 56))
        else if tState b ≠ 1 then fin (if tState b = 3 then 0x15 else 0x10)
        else if tOwner b ≠ 0 ∧ tOwner b ≠ ag.tag ∧ ag.tag ≠ 0 then fin 2
        else if (floatType e.vcfg).isNone ∨ floatType e.vcfg ≠ some (keyFmt (tKtype b)) then bad 0x07
        else if e.vl ≠ tD b then bad 0x08
        else if tNhead b ≤ h ∨ tTcap b ≤ t then fin 0x14
        else
          let kv := kvLookup s1 ag (tKvpt b) (tOffset b h t) (tRow b)
          match kv.1 with
          | .unreadable ms r => kstFail kv.2 q e ag ms [r] none
          | .held h => .held (holdReads s h)
          | .miss => fin 0x12
          | .at row =>
            match projSlot s (tHome b) (tPslot b) with
            | none => fin 0x10
            | some p =>
              if p.d ≠ tD b ∨ p.ktype ≠ tKtype b then fin 0x10
              else if p.tag ≠ 0 ∧ p.tag ≠ tOwner b then fin 2
              else
                let es := keyElems c v va
                let f := keyFmt p.ktype
                let unbucketed := (2 ^ tB b, kv.2)
                let g := if (lowestPoison es).isSome then unbucketed
                  else match p.signature (es.map fun x => f.decode x.bits) with
                    | some x => if x < 2 ^ tB b then (x, kv.2) else ((drawFree kv.2).1.toNat % (2 ^ tB b + 1), (drawFree kv.2).2)
                    | none => unbucketed
                kstClaim g.2 q dest e ag b tva key h t g.1 row es (v.w / 8)

/-- What the issue of a KSIG comes to (18_bucket R394): a report, poison to consume, or the result with its poison. -/
def ksigIssue (s : State) (q va : Nat) (e : VEntry) (c : Core) (v : VView) : Report ⊕ PTag ⊕ (Word × Option PTag) :=
  let trap := fun cause => Sum.inl (⟨cause, e.pc, 0, e.op0, true, false⟩ : Report)
  match e.poison0 with
  | some t => .inr (.inl t)
  | none =>
    match projSlot s (clusterOf q) e.op0.toNat with
    | none => trap 0x01
    | some p =>
      if wbits e.op0 63 6 ≠ 0 then trap 0x01
      else if p.tag ≠ 0 ∧ p.tag ≠ (s.slot q).shtag then trap 0x0A
      else if e.vl ≠ p.d ∨ floatType e.vcfg ≠ some (keyFmt p.ktype) then trap 0x01
      else
        let es := keyElems c v va
        match lowestPoison es with
        | some t => .inr (.inr (0, some t))
        | none =>
          .inr (.inr (match p.signature (es.map fun x => (keyFmt p.ktype).decode x.bits) with
            | some g => BitVec.ofNat 64 g
            | none => -1, none))

/-- The row of a KST is written as one vector store (18_bucket R395; 06_vector_access R151, R160), granule by granule, and byte by byte where some
of a granule's bytes are poisoned; one that waited for a MIGRATING page is translated afresh, and is lost to a page that no longer permits it (11_page
R292). -/
def writeRow (s : State) (k : KLink) : State :=
  let len := k.bytes.length
  let pages := if k.waiting then holdPages s k.agent .write [] (k.row, len) else k.pages
  let s0 := if k.waiting then touchRange s k.agent .write k.row len else s
  let put := fun (st : State) (i n : Nat) (p : Option PTag) => writeHeld st (.slot k.slot) k.agent pages (k.row + i) ((k.bytes.drop i).take n) p
  (List.range ((k.row + len - 1) / 64 + 1 - k.row / 64)).foldl (fun st g =>
    let lo := max k.row (64 * (k.row / 64 + g)) - k.row
    let n := min len (64 * (k.row / 64 + g) + 64 - k.row) - lo
    if ((k.poison.drop lo).take n).all Option.isNone then put st lo n none
    else (List.range n).foldl (fun u i => put u (lo + i) 1 (k.poison.getD (lo + i) none)) st) s0

/-- A field that the device writes into a descriptor, whatever its page permits (18_bucket R389): D of the page is set (11_page R282). -/
def fieldWrite (s : State) (h : Home) (ag : Agent) (va : Nat) (bytes : List Byte) : State :=
  (spans va bytes.length).foldl (fun st x =>
    match checkAddr st ag x.1 .read with
    | .error _ => st
    | .ok e => writeKey (touch st ag x.1 .write) h ag e.key ((bytes.drop (x.1 - va)).take x.2) none) s

/-- A link goes into its bucket (18_bucket R391, R395): the presence bit, the chain, the entry, and the counts of the descriptor. -/
def insertLink (s : State) (k : KLink) (b : List Byte) (plan : LinkPlan) (next bits : Nat) : State :=
  let ag := k.agent
  let q := Home.slot k.slot
  let ea := tEntry b k.head k.bucket
  let put := fun (st : State) (va n x : Nat) => writeVa st q ag va (leBytes n x) none
  let putD := fun (st : State) (off n x : Nat) => fieldWrite st q ag (k.table.toNat + off) (leBytes n x)
  let s1 := plan.blocks.foldl (fun st x => writeVa st q ag x.va x.bytes none) s
  let s2 := put (put s1 ea 8 plan.first) (ea + 8) 4 (plan.count + 1)
  let s3 := if plan.takes then putD (putD s2 0x3C 4 (tNfree b - 1)) 0x40 8 next else s2
  put (putD s3 0x5C 4 (tNlink b + 1)) (tPresWord b k.head k.token) 8 (bits ||| 2 ^ tPresBit b k.head k.token)

/-- The publication of a link (18_bucket R397): TGUARD raised by one; false when it cannot be. -/
def publishLink (s : State) (k : KLink) (b : List Byte) : Bool × State :=
  match probeRange s k.agent .update (tTguard b) 8 with
  | _ :: _ => (false, s)
  | [] =>
    let g := readVa s k.agent (tTguard b) 8
    if g.poison.isSome then (false, g.st)
    else (true, writeVa g.st (.slot k.slot) k.agent (tTguard b) (leBytes 8 (leNat g.bytes + 1)) none)

/-- A KST is finished (18_bucket R395): its result lands and STORES falls. -/
def kstFinish (s : State) (q dest : Nat) (v : Word) : State :=
  let x := (s.slot q).landAt dest v none
  s.setSlot q { x with cnt := { x.cnt with stores := x.cnt.stores - 1 } }

/-- What the link of a claimed KST needs, read and checked before its row is written (18_bucket R390, R391, R395): the plan, the NEXT of a free block
that it takes, and the presence word. -/
def linkChecked (s : State) (k : KLink) (b : List Byte) : TabRun (LinkPlan × Nat × Nat × State) := do
  let (plan, s1) ← linkPlan s k.agent b (tEntry b k.head k.bucket) k.token
  let (next, s2) ← if plan.full b then .ok (0, s1) else freeNext s1 k.agent b plan
  let (pw, s3) ← tabRead s2 k.agent (tPresWord b k.head k.token) 8
  let rs := linkRanges b k.head k.token k.bucket { plan with blocks := if plan.full b then [] else plan.blocks }
  match probe s3 k.agent .update (rs.filter fun r => r.1 != tTguard b) with
  | m :: ms => .error (.miss (m :: ms) rs, s3)
  | [] => return (plan, next, fld pw 0 8, s3)

/-- Whether what a KST still writes lies in a MIGRATING page whose translation it does not hold (11_page R292): a write that passed its Probe before
does not wait. -/
def linkMigrates (s : State) (k : KLink) (b : List Byte) (plan : LinkPlan) : Bool :=
  ((k.row, k.bytes.length) :: (k.table.toNat, 128) :: linkRanges b k.head k.token k.bucket plan).any fun r =>
    migratingAt s k.agent r.1 r.2 && (granuleAddrs r.1 r.2).any fun a => (heldAt k.pages k.agent.slice a).isNone

/-- A link that is published: what is left of it until it is settled (09_guard R249). -/
def KLink.done (k : KLink) : KLink := { k with published := true, pages := [], bytes := [], poison := [], waiting := false }

/-- The rest of a KST that has claimed (18_bucket R395 to R398): its row, its link, the publication, which may be missed until a second
KST_LINK_PUBLISH settles it (09_guard R249). At scope NODE or wider it waits for the row's ACKs (20_link R431). A table that is no longer READY, or whose memory can no longer be reached, gives BROKEN, and one whose
last free block has gone meanwhile FULL (DEDUCED, log 30); a KST whose row write has ended its context is withdrawn (R398). -/
def kstPublish (s : State) (n : Nat) (k : KLink) : State :=
  let finish := fun (st : State) (code : Nat) => kstFinish st k.slot k.dest (kstWord code k.bucket k.bits)
  let ends := fun (st : State) (code : Nat) => finish { st with klinks := tabDel st.klinks n } code
  let broken := fun (st : State) => ends (breakObject { st with tables := tabDel st.tables k.key } 7 k.key) 0x15
  let fails := fun (x : TabFail × State) => match x with
    | (.held h, _) => holdReads s h
    | (_, st) => broken st
  match tabRead s k.agent k.table.toNat 128 with
  | .error e => fails e
  | .ok (b, s1) =>
    if tState b ≠ 1 then ends s1 0x15
    else
      match linkChecked s1 k b with
      | .error e => fails e
      | .ok (plan, next, bits, s2) =>
        if plan.full b then ends s2 0x11
        else if linkMigrates s k b plan then s
        else if readHolds s k.agent (tTguard b) 8 ≠ [] then holdReads s (readHolds s k.agent (tTguard b) 8)
        else
          let s3 := if k.bytes = [] then s2 else writeRow s2 k
          if (tabFind s3.klinks n).isNone then s3
          else if 5 ≤ tScope b ∧ unacked s3 (.slot k.slot) = true then { s3 with klinks := tabSet s3.klinks n { k with bytes := [], poison := [] } }
          else
            let p := publishLink (insertLink s3 k b plan next bits) k b
            if p.1 then finish { p.2 with klinks := tabSet p.2.klinks n k.done } 0 else broken p.2

/-- Whether a claim is the oldest of its slot (18_bucket R398; 09_guard R231). -/
def oldestLink (s : State) (n : Nat) (k : KLink) : Bool := !s.claims.any fun x => x.2.slot == k.slot && decide (x.1 < n)

/-- KST_LINK_PUBLISH (18_bucket R397). -/
def execKstLinkPublish (n : Nat) (s : State) : Host.Outcome State Fault Refusal :=
  next (match tabFind s.klinks n with
    | some k => if k.published then { s with klinks := tabDel s.klinks n } else if oldestLink s n k then kstPublish s n k else s
    | none => s)

/-- KST at the scalar side (18_bucket R395; 04_sequencer R82): the two scalars it captures are sb and the register after it. -/
def execKst (d a : BitVec 5) (b : BitVec 6) (s : State) : Host.Outcome State Fault Refusal :=
  next (passVector s (.instr (.kst d a b)) [b.toNat, b.toNat + 1])

/-- KSIG at the scalar side (18_bucket R394). -/
def execKsig (d a : BitVec 5) (b : BitVec 6) (s : State) : Host.Outcome State Fault Refusal :=
  next (passVector s (.instr (.ksig d a b)) [b.toNat])

/-- KPROJ at its KBU (18_bucket R403): that of the issuer's cluster (DEDUCED, log 54). -/
def runProj (s : State) (c : Cmd) (d : List Word) : Run Ran := do
  let w := wordAt d 2
  let key := c.cluster * 64 + wbits w 5 0
  runCheck s 2 (match tabFind s.proj key with | some p => p.tag == 0 || p.tag == c.tag | none => true)
  if w.getLsbD 63 then return ⟨0, 0, { s with proj := tabDel s.proj key }⟩
  else
    let dd := wbits w 20 8
    let b := wbits w 28 24
    let (m, s1) ← ctlRead s c.agent c.op (wordAt d 0).toNat (b * dd / 8)
    return ⟨0, b * dd / 8, { s1 with proj := tabSet s1.proj key ⟨dd, b, wbits w 36 32, m, c.tag⟩ }⟩

/-- What KRESET writes besides the descriptor (18_bucket R403): BUCK, PRES, the pool and TGUARD. -/
def resetRanges (b : List Byte) : List (Nat × Nat) :=
  [(tBuck b, 16 * tNhead b * (2 ^ tB b + 1)), (tPres b, tNhead b * tTcap b / 8), (tPool b, 64 * tNblk b), (tTguard b, 8)]

/-- The pool with every block free, in ascending order (18_bucket R403). -/
def freePool (b : List Byte) : List Byte :=
  (List.range (tNblk b)).flatMap fun i => padTo 64 (leBytes 8 (if i + 1 = tNblk b then 0 else tPool b + 64 * (i + 1)))

/-- A table whose descriptor or bucket array a command finds poisoned becomes BROKEN, where it is READY or BUSY (18_bucket R392); the command itself ends
with FORMAT (R403). -/
def breakPoisoned (s : State) (c : Cmd) (key va n : Nat) : State :=
  if rangeHoldsPoison s c.agent va n && ((tabFind s.tables key).isSome || c.claim.isSome) then
    breakObject { s with tables := tabDel s.tables key } 7 key
  else s

/-- The same for the descriptor that a command names. -/
def breakNamed (s : State) (c : Cmd) : State :=
  let va := (wordAt c.desc 0).toNat
  breakPoisoned s c (keyOfVa s c.agent va .read) va 128

/-- KRESET after its claim (18_bucket R403). -/
def runReset (s : State) (c : Cmd) : Run Ran := do
  let (d, b, key, s1) ← runDescs s c
  runWritable s1 c.agent (((wordAt d 0).toNat, 128) :: resetRanges b)
  let q := c.home
  let zero := fun (st : State) (r : Nat × Nat) => writeVa st q c.agent r.1 (List.replicate r.2 0) none
  let s2 := writeVa ((resetRanges b).foldl zero s1) q c.agent (tPool b) (freePool b) none
  let put := fun (st : State) (off n x : Nat) => writeVa st q c.agent ((wordAt d 0).toNat + off) (leBytes n x) none
  let s3 := put (put (put s2 0xB 1 c.engine) 0xC 2 c.tag.toNat) 0x3C 4 (tNblk b)
  if c.live s3 = false then return ⟨0x15, 0, s3⟩
  let s4 := put (put (put s3 0x40 8 (tPool b)) 0x5C 4 0) 2 1 1
  return ⟨0, tNblk b, { s4 with tables := tabSet s4.tables key c.tag }⟩

/-- KSTAT (18_bucket R403); in a READY table a FIRST that is not well placed is corruption (R390). -/
def runTableStat (s : State) (c : Cmd) (d : List Word) (b : List Byte) (key : Nat) : Run Ran := do
  let h := (wordAt d 3).toNat
  runCheck s 0x14 (decide (h < tNhead b))
  let n := 2 ^ tB b
  let (es, s1) ← match ctlRead s c.agent c.op (tEntry b h 0) (16 * (n + 1)) with
    | .error e => .error (e.1, if e.1 = 0x17 then breakPoisoned e.2 c key (tEntry b h 0) (16 * (n + 1)) else e.2)
    | .ok x => .ok x
  let first := fun g => fld es (16 * g) 8
  let count := fun g => fld es (16 * g + 8) 4
  if tState b = 1 ∧ ((List.range (n + 1)).any fun g => first g != 0 && !blockPlaced b (first g)) then
    .error (0x15, breakObject { s1 with tables := tabDel s1.tables key } 7 key)
  else
    let cs := (List.range n).map count
    let out := [tNlink b, tNfree b, cs.foldl (· + ·) (count n), count n, cs.foldl max 0, (cs.filter (· != 0)).length]
    let s2 ← cmdWrite s1 c (wordAt d 2).toNat (padTo 64 ((out.flatMap fun x => leBytes 4 x) ++ leBytes 1 (tState b)))
    return ⟨0, 64, s2⟩

/-- The beginning of a bucket command (18_bucket R392, R403): KRESET claims its table once every claim on it has been published; a
stream that has read tokens of it reads no row further, and ends with STATE. -/
def bucketBegin (s : State) (n : Nat) (c : Cmd) : State :=
  match runDescs s c with
  | .error e => cmdRan n c (.error (e.1, if e.1 = 0x17 ∧ c.op ≠ 0x20 then breakNamed e.2 c else e.2))
  | .ok (d, b, key, s1) =>
    if c.op = 0x20 then cmdRan n c (runProj s1 c d)
    else if c.op = 0x22 then (if migratingAt s c.agent (wordAt d 2).toNat 64 then s else cmdRan n c (runTableStat s1 c d b key))
    else if s.klinks.any fun k => k.2.key == key then s
    else if tState b = 0 ∨ tState b = 1 ∨ tState b = 3 then
      (match runWritable s1 c.agent [((wordAt d 0).toNat, 128)] with
      | .error e => cmdRan n c (.error e)
      | .ok _ =>
        if migratingAt s c.agent (wordAt d 0).toNat 128 then s
        else claimObject (endStreams s1 key 0x10 fun x => x.gen != 0 && x.stop.isNone) n c (wordAt d 0).toNat key (tState b))
    else cmdRan n c (.error (0x10, s1))

/-- A bucket command goes on (18_bucket R403). -/
def bucketCommand (s : State) (n : Nat) (c : Cmd) : State :=
  if c.running then
    match runDescs s c with
    | .error e => cmdRan n c (.error (e.1, if e.1 = 0x17 then breakNamed e.2 c else e.2))
    | .ok (_, b, _, _) => if (resetRanges b).any fun r => migratingAt s c.agent r.1 r.2 then s else cmdRan n c (runReset s c)
  else cmdAcquire s n c fun s1 => bucketBegin s1 n c

/-- KPROJ (18_bucket R403). -/
def execKproj (d a : BitVec 6) (c l : BitVec 1) (xs : BitVec 3) (s : State) : Host.Outcome State Fault Refusal :=
  next (issueCmd s (encode (.kproj d a c l xs)) 0x20 d a c l xs)

/-- KRESET (18_bucket R403). -/
def execKreset (d a : BitVec 6) (c l : BitVec 1) (xs : BitVec 3) (s : State) : Host.Outcome State Fault Refusal :=
  next (issueCmd s (encode (.kreset d a c l xs)) 0x21 d a c l xs)

/-- KSTAT (18_bucket R403). -/
def execKstat (d a : BitVec 6) (c l : BitVec 1) (xs : BitVec 3) (s : State) : Host.Outcome State Fault Refusal :=
  next (issueCmd s (encode (.kstat d a c l xs)) 0x22 d a c l xs)

/-- A command in flight goes on (11_page R290; 16_mesh R364; 17_partition R376, R382; 18_bucket R403): it waits for the stores that its
issuer passed on before it, or for what its acquire orders before it (09_guard R247), and while its remap tasks are pushed. One that has run waits for its release alone; an MCOLOUR whose mesh is
committed meanwhile ends with STALE (17_partition R377). A unit out of service
gives BROKEN (19_shroud R409), and so does an object that has become BROKEN while it was claimed (16_mesh R362; 17_partition R381; 18_bucket R392). -/
def commandStep (s : State) (n : Nat) (c : Cmd) : State :=
  match c.ended with
  | some x => cmdEnd s n c (if c.op = 0x10 ∧ c.running = true ∧ colourStale s c = true then 0x12 else x.1) x.2
  | none =>
    if (!c.running && startWaits s c.home n (c.a && wordAt c.desc 1 == 0)) || (tabFind s.remaps n).isSome then s
    else
      match c.kind with
      | .pgmig => if c.running then s else pgmigStart s n c
      | .unit op =>
        if s.quarUnits.contains (cmdClass c.kind, c.engine) then cmdRan n c (.error (0x15, s))
        else if frozenUnit s (cmdClass c.kind) c.engine then s
        else if c.running && !claimHeld s c then cmdEnd s n { c with claim := none } 0x15 0
        else if op < 0x10 then meshCommand s n c
        else if op = 0x10 then colourCommand s n c
        else if op < 0x20 then trimCommand s n c
        else bucketCommand s n c

/-- ENGINE_COMMAND_COMPLETION (16_mesh R364; 17_partition R382; 18_bucket R403). -/
def execEngineCommandCompletion (n : Nat) (s : State) : Host.Outcome State Fault Refusal :=
  next (match tabFind s.cmds n with
    | some c => commandStep s n c
    | none => s)

end Sys2Proof.Machine
end

