-- ==== Sys2Proof/Machine/Ports.lean ====
section
/-! DEFINITION. The port instructions (08_stream R201 to R208), and the streams that other units feed into ports: the faces of a mesh (16_mesh
R373 to R375) and the tokens and rows of a bucket table (18_bucket R399 to R402). -/

namespace Sys2Proof.Machine

/-- Go on when slot q may name port p (08_stream R203). -/
def whenPort (s : State) (q p : Nat) (w : Option Nat) (k : Port → State) : State :=
  let x := (s.core (coreOf q)).port p
  if x.st ≠ .closed ∧ x.owner ≠ q then trapWord s q 0x10 w else k x

/-- Go on when earlier instructions of slot q have taken what they read from port p: closing, unbinding or rereading a port acts after them (04_sequencer R81; 08_stream R204) (DEDUCED, log 67). -/
def whenTaken (s : State) (q p : Nat) (k : State) : State := if portAwaited s q p s.nextOp then s.stallSlot q .retry else k

/-- Whether an entry queued by slot q still reads or writes a register of a group, which a binding must not change under it
(04_sequencer R81). -/
def groupInUse (s : State) (q : Nat) (g : VGrp) : Bool :=
  ((s.slot q).vq.any fun e => e.kind == .instr && match e.shape with
    | some h => (h.dsts.any g.overlaps) || h.srcs.any fun x => g.overlaps x.1
    | none => false) ||
  !(tilesOf s q).isEmpty

/-- A port as SOPEN leaves it (08_stream R202, R218). -/
def openedPort (s : State) (q : Nat) (spec : List Word) (a : Bool) (scope : BitVec 3) : Port :=
  { Port.reset with st := .opened, owner := q, spec := spec, bindReg := 32, scope := scope, acquire := a, op := s.nextOp }

/-- A port opened; its number among the copies and commands is taken (09_guard R247). -/
def openPort (s : State) (q p : Nat) (x : Port) : State := { s.setPort (coreOf q) p x with nextOp := s.nextOp + 1 }

/-- A port that ends with a status before its first element (18_bucket R401). -/
def endedPort (x : Port) (status : Nat) : Port := ({ x with acquire := false, stop := some (status, false) } : Port).settle

/-- Fields of a BUCKET specification (18_bucket R399). -/
def kSig (p : List Word) : Nat := wbits (sP30 p) 15 0
def kProbes (p : List Word) : Nat := wbits (sP30 p) 19 16 + 1
def kForm (p : List Word) : Nat := wbits (sP30 p) 21 20
def kHead (p : List Word) : Nat := wbits (sP28 p) 63 56

/-- The number of ones of a number below 2^16. -/
def ones16 (n : Nat) : Nat := (List.range 16).foldl (fun k i => k + n / 2 ^ i % 2) 0

/-- The B-bit masks in the order of R400 (18_bucket): ascending number of ones, then ascending value. -/
def probeMasks (b : Nat) : List Nat := (List.range (b + 1)).flatMap fun k => (List.range (2 ^ b)).filter fun n => ones16 n == k

/-- The buckets that a stream reads: those of its probes in probe order, then the unbucketed list (18_bucket R396, R400). -/
def probedBuckets (p : List Word) (b : List Byte) : List Nat := ((probeMasks (tB b)).take (kProbes p)).map (kSig p ^^^ ·) ++ [2 ^ tB b]

/-- Their array entries. -/
def probedEntries (p : List Word) (b : List Byte) : List Nat := (probedBuckets p b).map (tEntry b (kHead p))

/-- The tokens of a bucket whose links a stream misses: those published and not settled (09_guard R249; 24_programs_attention_sparse R454). -/
def missedTokens (s : State) (key head g : Nat) : List Nat :=
  (s.klinks.filter fun e => e.2.published && e.2.key == key && e.2.head == head && e.2.bucket == g).map fun e => e.2.token

/-- The status of a failing read of a table for a stream: an uncorrectable error or corruption breaks the table (18_bucket R390, R392,
R401). -/
def streamFail (key : Nat) (ag : Agent) : TabFail × State → Nat × State
  | (.miss (m :: _) _, s) => engineMiss s ag m
  | (.miss [] _, s) => (2, s)
  | (.held h, s) => (heldStatus, holdReads s h)
  | (.broken, s) => (0x15, breakObject { s with tables := tabDel s.tables key } 7 key)

/-- The COUNTs of some array entries (18_bucket R390). -/
def readCounts (ag : Agent) : List Nat → State → TabRun (List Nat × State)
  | [], s => .ok ([], s)
  | a :: as, s => do
    let (x, s1) ← tabRead s ag a 16
    let (l, s2) ← readCounts ag as s1
    return (fld x 8 4 :: l, s2)

/-- The chains of some array entries, each as its tokens in chain order (18_bucket R390, R401). -/
def readLists (ag : Agent) (b : List Byte) : List Nat → State → TabRun (List (List Nat) × State)
  | [], s => .ok ([], s)
  | a :: as, s => do
    let (x, s1) ← tabRead s ag a 16
    let (bs, s2) ← readChain ag b (tNblk b) (fld x 0 8) s1
    let (l, s3) ← readLists ag b as s2
    return (bs.flatMap Block.toks :: l, s3)

/-- The least first token of some lists. -/
def leastHead (ls : List (List Nat)) : Option Nat := ls.foldl (fun m l => match m, l with
  | none, t :: _ => some t
  | some x, t :: _ => some (min x t)
  | m, [] => m) none

/-- The lists after one of them gives token t. -/
def takeHead (t : Nat) : List (List Nat) → List (List Nat)
  | [] => []
  | (x :: l) :: ls => if x = t then l :: ls else (x :: l) :: takeHead t ls
  | [] :: ls => [] :: takeHead t ls

/-- The tokens that a stream delivers, and the status with which it stops after them (18_bucket R401): the union in ascending order below the
bound; ORDER before a token that is not above its predecessor. -/
def mergeTokens (bound : Nat) : Nat → Option Nat → List (List Nat) → List Nat × Nat
  | 0, _, _ => ([], 0)
  | n + 1, prev, ls =>
    match leastHead ls with
    | none => ([], 0)
    | some t =>
      if (match prev with | some x => decide (t ≤ x) | none => false) then ([], 3)
      else if bound ≤ t then ([], 0)
      else
        let r := mergeTokens bound n (some t) (takeHead t ls)
        (t :: r.1, r.2)

/-- What SOPEN of a BUCKET stream comes to (18_bucket R401, R402). -/
inductive BucketOpen where
  | trap (cause : Nat) (aux : Word) (s : State)
  | sink (t : PTag) (s : State)
  | ends (status : Nat) (s : State)
  | opens (s : State)

/-- The decision of SOPEN on a READY table (18_bucket R399, R401, R402). A FMT that FORM and the table's KTYPE do not suit is charged to PARAM at
0x30, where FORM stands (00_scope R460). -/
def bucketDecide (s : State) (ag : Agent) (p : List Word) (key : Nat) (b : List Byte) : BucketOpen :=
  if kForm p ≠ 0 ∧ sFmt p ≠ tKtype b then .trap 0x01 0x30 s
  else if 2 ^ tB b < kProbes p ∨ 2 ^ tB b ≤ kSig p then .trap 0x01 0x30 s
  else if tNhead b ≤ kHead p then .ends 0x14 s
  else
    match readCounts ag (probedEntries p b) s with
    | .error e => let r := streamFail key ag e; .ends r.1 r.2
    | .ok (all, s1) =>
      let counts := (all.zip (probedBuckets p b)).map fun x => x.1 - (missedTokens s key (kHead p) x.2).length
      let c := counts.foldl (· + ·) 0
      let heavy := (List.range (kProbes p)).find? fun j => tBlim b != 0 && decide (tBlim b < counts.getD j 0)
      let inv := (sP30 p).getLsbD 24
      if inv ∨ heavy.isSome ∨ (tDlim b ≠ 0 ∧ tDlim b < c) then
        if (sP30 p).getLsbD 23 then .ends 0x13 s1
        else .trap 0x12 (BitVec.ofNat 64 (c % 2 ^ 32 + heavy.getD 0xF * 2 ^ 32 + inv.toNat * 2 ^ 36)) s1
      else .opens s1

/-- SOPEN of a BUCKET stream (18_bucket R401): the acquires of GUARD and TGUARD, the descriptor, its state and owner (R392), the decision. -/
def bucketOpen (s : State) (ag : Agent) (p : List Word) (a : Bool) : BucketOpen :=
  match (if a then engineAcquire s ag (sGuard p) else .ok (none, s)) with
  | .error (st, s1) => .ends st s1
  | .ok (some t, s1) => .sink t s1
  | .ok (none, s1) =>
    match engRead s1 ag (kTable p) 128 0 with
    | .error e => .ends e.1 e.2
    | .ok g =>
      let key := keyOfVa s1 ag (kTable p) .read
      let broken := fun (st : State) => let r := streamFail key ag (.broken, st); BucketOpen.ends r.1 r.2
      if g.poison.isSome then broken g.st
      else
        let b := g.bytes
        match engRead g.st ag (tTguard b) 8 0 with
        | .error (st, s2) => if tState b = 1 then .ends st s2 else .ends (if tState b = 3 then 0x15 else 0x10) s2
        | .ok t =>
          if tState b ≠ 1 then .ends (if tState b = 3 then 0x15 else 0x10) t.st
          else if ag.tag ≠ 0 ∧ ag.tag ≠ tOwner b then .ends 2 t.st
          else if t.poison.isSome then broken t.st
          else bucketDecide t.st ag p key b

/-- SOPEN (08_stream R201, R202, R218). A BUCKET stream makes its fallback decision before SOPEN completes (18_bucket R401), after the slot's
earlier scalar accesses (09_guard R247). -/
def openStream (s : State) (q p : Nat) (spec : List Word) (a : Bool) (scope : BitVec 3) : State :=
  let x := openedPort s q spec a scope
  if specKind spec ≠ 6 then (openPort s q p x).complete q
  else if portWaits s x then s.stallSlot q .accesses
  else
    match bucketOpen s (kbuAgent s q) spec a with
    | .trap c aux s1 => trap s1 q c 0 aux
    | .sink t s1 => sink s1 q t
    | .ends st s1 => if st = heldStatus then s1.stallSlot q .retry else if slotAlive s1 q then (openPort s1 q p (endedPort x st)).complete q else s1
    | .opens s1 => (openPort s1 q p { x with acquire := false }).complete q

/-- SOPEN (08_stream R201, R202). -/
def execSopen (a : BitVec 6) (p : BitVec 3) (c : BitVec 1) (sc : BitVec 3) (s : State) : Host.Outcome State Fault Refusal :=
  let q := s.cur
  let w := encode (.sopen a p c sc)
  next (whenReady s q [a.toNat] <| unlessPoisoned s q [a.toNat] <| whenPort s q p.toNat w fun x =>
    if x.st ≠ .closed then trapWord s q 0x10 w
    else readSpec s q w (s.me.val a.toNat) false fun spec s1 => openStream s1 q p.toNat spec (c = 1) sc)

/-- SCLOSE (08_stream R202). -/
def execSclose (p : BitVec 3) (s : State) : Host.Outcome State Fault Refusal :=
  let q := s.cur
  let w := encode (.sclose p)
  next (whenPort s q p.toNat w fun x =>
    if x.st = .closed then trapWord s q 0x10 w
    else whenTaken s q p.toNat <| (s.setPort (coreOf q) p.toNat x.close).complete q)

/-- SBIND (08_stream R202, R204): the group has the length of the current VCFG and is placed as R125 demands. -/
def execSbind (v : BitVec 5) (p : BitVec 3) (s : State) : Host.Outcome State Fault Refusal :=
  let q := s.cur
  let w := encode (.sbind v p)
  let g := vGroup s.me.vcfg
  let grp : VGrp := ⟨v.toNat, 2 ^ g, 0⟩
  next (whenPort s q p.toNat w fun x =>
    if x.st ≠ .opened then trapWord s q 0x10 w
    else if grp.placed = false then trapWord s q 0x01 w
    else if groupInUse s q grp then s.stallSlot q .retry
    else (s.setPort (coreOf q) p.toNat { x with st := .bound, bindReg := v.toNat, bindG := g }).complete q)

/-- SUNBIND (08_stream R202). -/
def execSunbind (p : BitVec 3) (s : State) : Host.Outcome State Fault Refusal :=
  let q := s.cur
  let w := encode (.sunbind p)
  next (whenPort s q p.toNat w fun x =>
    if x.st = .closed then trapWord s q 0x10 w
    else whenTaken s q p.toNat <|
      (s.setPort (coreOf q) p.toNat { x with st := if x.st = .bound then .opened else x.st, bindReg := 32, bindG := 0 }).complete q)

/-- SSTAT (08_stream R203, R204, R207): while an instruction before it is still to take what it reads from the port, sd is pending (04_sequencer
R81). -/
def execSstat (d : BitVec 6) (p : BitVec 3) (s : State) : Host.Outcome State Fault Refusal :=
  let q := s.cur
  next (whenReady s q [d.toNat] <| whenPort s q p.toNat (encode (.sstat d p)) fun x =>
    if portAwaited s q p.toNat s.nextOp then
      let s1 := (s.setSlot q (s.me.markPending d.toNat .queue)).setPort (coreOf q) p.toNat { x with stats := x.stats ++ [(s.me.regIndex d.toNat, s.nextOp)] }
      (bumpOp s1).complete q
    else s.finish q d.toNat x.statusWord none)

/-- Whether an earlier store or tile write of slot q has not been performed (08_stream R208). -/
def writesPending (s : State) (q : Nat) : Bool :=
  (s.stores.any fun a => a.home == .slot q) || (s.slot q).vq.any (fun e => e.kind == .instr && (queueCounts e.word).2.1 != 0) ||
  (s.claims.any fun k => k.2.slot == q) || (tilesOf s q).any fun e => e.word % 256 == 9

/-- A port that forgets what it holds and fetches it again (08_stream R203, R208). An ENDED port holds nothing. -/
def Port.again (x : Port) : Port :=
  if x.st = .ended then x
  else { x with fifo := [], stop := none, skip := x.pos, toks := [], cur := StreamCur.start, gen := if specKind x.spec = 6 then 0 else x.gen }

/-- SBAR (08_stream R208). -/
def execSbar (p : BitVec 3) (s : State) : Host.Outcome State Fault Refusal :=
  let q := s.cur
  let w := encode (.sbar p)
  next (whenPort s q p.toNat w fun x =>
    if x.st = .closed then trapWord s q 0x10 w
    else whenTaken s q p.toNat <|
      if writesPending s q then s.stallSlot q .accesses
      else (s.setPort (coreOf q) p.toNat x.again).complete q)

/-- A port stops with a status (08_stream R202, R217); what it still holds is delivered first unless it is dropped. -/
def portStop (s : State) (core p : Nat) (x : Port) (status : Nat) (drop : Bool) : State :=
  s.setPort core p ({ x with stop := some (status, false), skip := 0, fifo := if drop then [] else x.fifo } : Port).settle

/-- The topology engine that serves a NEIGH stream (16_mesh R373): the HOME of the mesh that its specification names. -/
def neighHome (s : State) (core : Nat) (x : Port) : Nat :=
  leNat (vRead s { portAgent s core x with slice := noSlice } ((sP28 x.spec).toNat + 7) 1) % 8

/-- The agent of the topology engine's reads for a port (11_page R288; 16_mesh R373). -/
def neighAgent (s : State) (core : Nat) (x : Port) : Agent := { portAgent s core x with slice := topologySlice (neighHome s core x) }

/-- The records of cell c that a NEIGH stream delivers (16_mesh R374). -/
def neighRecords (m : Mesh) (p : List Word) (c : Nat) : List (Nat × Option Nat) :=
  (m.records c).filter fun r => match r.2 with
    | none => !(sP38 p).getLsbD 2
    | some n => !(sP38 p).getLsbD 3 || decide (c ≤ n)

/-- One record in the form of a NEIGH stream (16_mesh R374); last on a cell's final record. -/
def neighElem (m : Mesh) (p : List Word) (c : Nat) (r : Nat × Option Nat) (last : Bool) : Word :=
  let nbr := r.2.getD 0xFFFFFFFF
  let rel := match r.2 with
    | none => 3
    | some n => if m.depthOf n = m.depthOf c then 0 else if m.depthOf n < m.depthOf c then 1 else 2
  match wbits (sP38 p) 1 0 with
  | 0 => BitVec.ofNat 64 (c * 2 ^ 32 + nbr)
  | 1 => BitVec.ofNat 64 nbr
  | _ => BitVec.ofNat 64 (r.1 + rel * 8 + last.toNat * 32)

/-- The next record of a NEIGH stream, over the cells that remain (16_mesh R374): a counts cells, b records within one. -/
def nextNeigh (m : Mesh) (p : List Word) : Nat → State → StreamCur → Fetch
  | 0, s, _ => .stop 0 false s
  | n + 1, s, c =>
    let cell := (sP30 p).toNat + c.a
    if m.leaves.length ≤ cell then .stop 0x11 false s
    else
      let rs := neighRecords m p cell
      match rs[c.b]? with
      | none => nextNeigh m p n s { c with a := c.a + 1, b := 0 }
      | some r =>
        .elem ⟨neighElem m p cell r (c.b + 1 == rs.length), none, 127⟩ { c with n := c.n + 1, b := c.b + 1 } s

/-- A fetch of a NEIGH stream (16_mesh R373 to R375): its first opens it on a READY mesh and keeps the generation, held as its number plus
one (DEDUCED, log 52). An engine out of service gives BROKEN (19_shroud R409). -/
def neighFetch (s : State) (core p : Nat) (x : Port) : State :=
  let ag := neighAgent s core x
  let va := (sP28 x.spec).toNat
  match engRead s ag va 256 0 with
  | .error (st, s1) => if st = heldStatus then s1 else portStop s1 core p x st false
  | .ok g =>
    let b := g.bytes
    let held := tabFind g.st.meshes (keyOfVa g.st ag va .read)
    if g.poison.isSome then portStop g.st core p x 0x14 false
    else if s.quarUnits.contains (8, mHome b % 8) then portStop g.st core p x 0x15 false
    else
      match held with
      | none => portStop g.st core p x (if x.gen ≠ 0 ∧ mState b = 3 then 0x15 else 0x11) false
      | some m =>
        if ag.tag ≠ 0 ∧ ag.tag ≠ m.tag then portStop g.st core p x 2 false
        else if x.gen = 0 then
          if mState b = 1 then g.st.setPort core p { x with gen := mGen b + 1 } else portStop g.st core p x 0x11 false
        else if mState b = 3 ∨ rangeHoldsPoison g.st ag (mStore b) (mStoreLen b) then portStop g.st core p x 0x15 false
        else if x.gen ≠ mGen b + 1 then portStop g.st core p x 0x12 true
        else if fetchAhead ≤ x.fifo.length then g.st
        else
          let fetch := fun (st : State) (c : StreamCur) => nextNeigh m x.spec (sCount x.spec - c.a) st c
          portTake ag core p x fetch (fetch g.st x.cur)

/-- The KV page, as its address and size, of a row at an address (11_page R296). -/
def kvPageOf (s : State) (ag : Agent) (kvpt row : Nat) : Nat × Nat :=
  let size := 2 ^ fld (readVa s ag kvpt 64).bytes 8 1
  (row / size * size, size)

/-- The byte offset of the row that a BUCKET stream reads for a token (18_bucket R389, R401). -/
def rowOffset (p : List Word) (b : List Byte) (t : Nat) : Nat := tOffset b (kHead p) t + if kForm p = 2 then tVoff b else 0

/-- The prefetches of the KV pages of some rows (18_bucket R401; 11_page R295): they belong to no copy port. -/
def prefetchRows (s : State) (q : Nat) (ag : Agent) (p : List Word) (b : List Byte) (ts : List Nat) : State :=
  let pages := (ts.foldl (fun (a : List (Nat × Nat) × State) t =>
    let r := kvLookup a.2 ag (tKvpt b) (rowOffset p b t) (tRow b)
    match r.1 with
    | .at row => (let g := kvPageOf r.2 ag (tKvpt b) row; if a.1.contains g then a.1 else a.1 ++ [g], r.2)
    | _ => (a.1, r.2)) ([], s))
  pages.1.foldl (fun st g =>
    pushCopy st { copyOf st q .cpypf [BitVec.ofNat 64 g.1, BitVec.ofNat 64 g.2] 0 0 false false 0 with home := .gone, core := Config.cores })
    pages.2

/-- A port whose BUCKET stream has no token left ends with its last element (08_stream R202; 18_bucket R401). -/
def bucketEnd (x : Port) : Port := if x.toks = [] ∧ x.cur.ka = some 0 then ({ x with stop := some (0, false), skip := 0 } : Port).settle else x

/-- The read of the tokens of a BUCKET stream (18_bucket R401): before it, the status with which the stream stops. -/
def bucketTokens (s : State) (core p : Nat) (x : Port) (ag : Agent) (b : List Byte) (key : Nat) : State :=
  match readLists ag b (probedEntries x.spec b) s with
  | .error e => let r := streamFail key ag e; if r.1 = heldStatus then r.2 else portStop r.2 core p x r.1 false
  | .ok (all, s1) =>
    let ls := (all.zip (probedBuckets x.spec b)).map fun l => l.1.filter fun t => !(missedTokens s key (kHead x.spec) l.2).contains t
    let r := mergeTokens (sCount x.spec) ((ls.map List.length).foldl (· + ·) 0 + 1) none ls
    let s2 := s1.setPort core p (bucketEnd { x with toks := r.1, gen := 1, cur := { x.cur with ka := some r.2 } })
    if kForm x.spec ≠ 0 ∧ (sP30 x.spec).getLsbD 22 = true then prefetchRows s2 x.owner ag x.spec b r.1 else s2

/-- The elements of a row (18_bucket R401), read under a swizzle mode (08_stream R224), with their poison. -/
def rowElems (s : State) (ag : Agent) (row n k mode : Nat) : List Element × State :=
  (List.range n).foldl (fun (a : List Element × State) i =>
    let g := readSw a.2 ag (row + i * k) k mode
    (a.1 ++ [⟨BitVec.ofNat 64 (if g.poison.isSome then 0 else leNat g.bytes), g.poison, 127⟩], g.st)) ([], s)

/-- The elements that a BUCKET stream delivers for a token (18_bucket R401), or the status with which it stops before it. -/
def tokenElems (s : State) (ag : Agent) (p : List Word) (b : List Byte) (t : Nat) : Except (Nat × State) (List Element × State) :=
  if kForm p = 0 then .ok ([⟨BitVec.ofNat 64 t, none, 127⟩], s)
  else
    let r := kvLookup s ag (tKvpt b) (rowOffset p b t) (tRow b)
    match r.1 with
    | .miss => .error (0x12, r.2)
    | .unreadable (m :: _) _ => .error (engineMiss r.2 ag m)
    | .unreadable [] _ => .error (2, r.2)
    | .held h => .error (heldStatus, holdReads s h)
    | .at row =>
      match probeRange r.2 ag .read row (tRow b) with
      | m :: _ => .error (engineMiss r.2 ag m)
      | [] =>
        let h := readHolds r.2 ag row (tRow b)
        if h ≠ [] then .error (heldStatus, holdReads s h) else .ok (rowElems r.2 ag row (tD b) (tRow b / tD b) (sSswz p))

/-- A fetch of a BUCKET stream (18_bucket R392, R401): its first reads the tokens, held from then on; each later one reads a token's elements,
of which those below the position to restore are discarded (08_stream R203) (DEDUCED, log 82). -/
def bucketFetch (s : State) (core p : Nat) (x : Port) : State :=
  let ag := kbuAgent s x.owner
  match engRead s ag (kTable x.spec) 128 0 with
  | .error (st, s1) => if st = heldStatus then s1 else portStop s1 core p x st false
  | .ok g =>
    let key := keyOfVa s ag (kTable x.spec) .read
    let b := g.bytes
    if g.poison.isSome then let r := streamFail key ag (.broken, g.st); portStop r.2 core p x r.1 false
    else if tState b ≠ 1 then portStop g.st core p x (if tState b = 3 then 0x15 else 0x10) false
    else if x.gen = 0 then bucketTokens g.st core p x ag b key
    else if fetchAhead ≤ x.fifo.length then g.st
    else
      match x.toks with
      | [] => portStop g.st core p x (x.cur.ka.getD 0) false
      | t :: ts =>
        match tokenElems g.st ag x.spec b t with
        | .error (st, s1) => if st = heldStatus then s1 else portStop s1 core p x st false
        | .ok (es, s1) =>
          s1.setPort core p (bucketEnd
            { x with toks := ts, skip := x.skip - es.length, fifo := x.fifo ++ es.drop x.skip, cur := { x.cur with n := x.cur.n + es.length } })

/-- Whether a port of kind NEIGH or BUCKET has a fetch to make. -/
def Port.unitFetching (x : Port) : Bool :=
  (x.st == .opened || x.st == .bound) && x.stop.isNone && (specKind x.spec == 5 || specKind x.spec == 6)

/-- Whether a freeze holds the unit that serves a port of kind NEIGH or BUCKET (21_device R438). -/
def serverFrozen (s : State) (core : Nat) (x : Port) : Bool :=
  if specKind x.spec = 5 then frozenUnit s 8 (neighHome s core x) else frozenUnit s 7 (clusterOfCore core)

/-- A fetch by the topology engine or the KBU (16_mesh R373; 18_bucket R401), after the acquire of SOPEN (08_stream R218). -/
def unitFetch (s : State) (core p : Nat) : State :=
  let x := (s.core core).port p
  if x.unitFetching = false ∨ portWaits s x = true ∨ serverFrozen s core x = true then s
  else
    let ag := if specKind x.spec = 5 then neighAgent s core x else kbuAgent s x.owner
    if x.acquire then
      match engineAcquire s ag (sGuard x.spec) with
      | .error (st, s1) => if st = heldStatus then s1 else portStop s1 core p { x with acquire := false } st false
      | .ok (some t, s1) => sink s1 x.owner t
      | .ok (none, s1) => s1.setPort core p { x with acquire := false }
    else if specKind x.spec = 5 then neighFetch s core p x
    else bucketFetch s core p x

/-- NEIGH_BUCKET_STREAM_FETCH (16_mesh R374; 18_bucket R401). -/
def execNeighBucketStreamFetch (core p : Nat) (s : State) : Host.Outcome State Fault Refusal :=
  next (if core < Config.cores ∧ p < 8 then unitFetch s core p else s)

end Sys2Proof.Machine
end

