-- ==== Sys2Proof/Machine/Pool.lean ====
section
/-! DEFINITION. The ready pool of a die (14_queue R333 to R337; 15_barrier R350; 10_context R265, R266): which entries can be dispatched and
where, the choice among them, displacement, and aging. -/

namespace Sys2Proof.Machine

/-- What a pool entry needs on a core: lane groups and accumulator rows (13_group R310; 14_queue R337). -/
structure Need where
  nlg : Nat
  rows : Nat
  deriving DecidableEq, Repr

/-- What a worker of a queue's task needs; none while the queue has no free CSA (14_queue R337). -/
def workerNeed (s : State) (n : Nat) : Option Need :=
  match readDesc s n with
  | .error _ => none
  | .ok d => if (lowestFree (s.queue n).csas (dNcsa d)).isSome then some ⟨dNlg d, dAccRows d⟩ else none

/-- What the entry of a new context needs; none while it must wait for a CSA (13_group R310, R317; 14_queue R337; 15_barrier R355). -/
def entryNeed (s : State) (e : PoolEntry) : Option Need :=
  let leaf := fun (k i : Nat) => (findLeaf s k i).map fun x => (⟨kNlg x.1.words, kAccRows x.1.words⟩ : Need)
  match e.kind, e.source with
  | .task n _, _ | .cont (.task n _) _ _ _ _ _, _ => workerNeed s n
  | .leaf k i, _ | .cont (.leaf k i) _ _ _ _ _, _ => leaf k i
  | .sibling _ _ _, .kernel k => (freeKernelCsa s k).map fun _ => ⟨0, 0⟩
  | _, _ => none

/-- The cores where an entry may be dispatched (13_group R309, R316; 14_queue R334). -/
def entryCores (e : PoolEntry) : List Nat :=
  match e.slot, e.core with
  | some q, _ => [coreOf q]
  | none, some c => [c]
  | none, none => (List.range 128).map fun i => 128 * e.die + i

/-- The image that a resume entry dispatches, if it still rests there. -/
def entryImage (s : State) (csa : Word) (asid : BitVec 12) : Option Image := s.images.find? fun im => im.csa == csa && im.asid == asid && !im.parked

/-- The lane groups that a resumed context is to have (10_context R254, R266): as many as at its save, or as many as its core presents (DEDUCED, log 60). -/
def resumeCount (s : State) (im : Image) (k : Nat) : Nat :=
  if im.held then im.laneCount
  else
    let n := wbits (physWord s (im.key + 0x18)) 55 52
    if nlgOk n then min n (s.core k).laneMap.length else 0

/-- The first of the lane groups that a resumed context takes in a slot (13_group R310, R316): those held for it, those it left, or the lowest
free ones. -/
def resumeBase (s : State) (im : Image) (q : Nat) : Option Nat :=
  let k := coreOf q
  let n := resumeCount s im k
  if im.held then some im.laneBase
  else if q = im.slot ∧ n = im.laneCount ∧ (laneRanges s k).all (fun r => !rangesMeet r (im.laneBase, n)) = true then some im.laneBase
  else freeLanes s k n

/-- Whether the accumulator rows of a resumed context are free on a core, but for contexts of its own leaf group (13_group R310). -/
def resumeRows (s : State) (im : Image) (k : Nat) : Bool :=
  let mine := (im.accBase.toNat, im.accLim.toNat)
  ((busyOfCore s k).all fun e => (im.ctx.work != .none && e.2.ctx.work == im.ctx.work) || !rangesMeet (e.2.accBase.toNat, e.2.accLim.toNat) mine) &&
  ((keptAll s).filter fun h => h.core == k).all fun h => !rangesMeet (h.accBase, h.accRows) mine

/-- Whether a slot may take a resumed context (13_group R316; 14_queue R335): one that is held takes back its own. -/
def resumeOpen (s : State) (im : Image) (q : Nat) : Bool :=
  (if im.held then q == im.slot && decide ((s.slot q).st = .free) && !slotQuarantined s q && !(keptAll s).any fun h => h.slot == some q
   else slotOpen s q) &&
  (resumeBase s im q).isSome && resumeRows s im (coreOf q)

/-- Whether an image's context has been loaded since its save, so that its entry is stale (10_context R252, R254). -/
def imageStale (s : State) (im : Image) : Bool := !(physWord s (im.key + 0x18)).getLsbD 59

/-- Where a pool entry can go now. -/
inductive EntryPlace where
  /-- nowhere: it waits for a CSA -/
  | waits
  /-- it finds no free slot that can take it (14_queue R335) -/
  | noSlot
  | slot (q : Nat)
  /-- it goes to an engine (14_queue R333) -/
  | engine
  /-- it is discarded when it is dispatched (10_context R252) -/
  | stale
  deriving DecidableEq, Repr

/-- The slots of a core that an entry may take, restricted to one slot when that is given (10_context R265). -/
def slotsFor (only : Option Nat) (k : Nat) : List Nat :=
  match only with
  | none => slotsOfCore k
  | some q => (slotsOfCore k).filter fun p => p == q

/-- The first slot of an entry's cores that passes a test. -/
def firstSlot (e : PoolEntry) (only : Option Nat) (ok : Nat → Bool) : EntryPlace :=
  match (entryCores e).findSome? fun k => (slotsFor only k).find? ok with
  | some q => .slot q
  | none => .noSlot

/-- Whether a healthy copy engine of clusters 2d and 2d + 1 can serve a task's copy (14_queue R333; 19_shroud R409), and the first one. -/
def taskEngine (s : State) (die : Nat) : Option Nat := ((List.range 32).map fun i => 32 * die + i).find? (engineHealthy s)

/-- Where an entry can go (14_queue R335, R337; 13_group R310, R316): the lowest slot that can take it. -/
def entryPlace (s : State) (only : Option Nat) (e : PoolEntry) : EntryPlace :=
  match e.kind with
  | .resume csa asid =>
    (match entryImage s csa asid with
    | none => .stale
    | some im => if imageStale s im then .stale else firstSlot e only (resumeOpen s im))
  | .task n p =>
    (match findTask s n p with
    | none => .stale
    | some t =>
      if recType t.words = 1 ∨ recType t.words = 6 then newPlace
      else if only.isSome then .waits
      else if recType t.words = 2 ∧ (taskEngine s e.die).isNone then .waits
      else .engine)
  | _ => newPlace
where
  /-- The place of a context that starts anew. -/
  newPlace : EntryPlace :=
    match entryNeed s e with
    | none => .waits
    | some n => firstSlot e only fun q => (ableSlots s (coreOf q) n.nlg n.rows).contains q

/-- Whether an entry can be dispatched now. -/
def EntryPlace.now : EntryPlace → Bool
  | .slot _ | .engine | .stale => true
  | .waits | .noSlot => false

/-- The entries of a die with their places, oldest first: its pool holds the first 4,096 of them, and later ones wait for a place in it (14_queue R334)
(DEDUCED, log 86). -/
def entriesOf (s : State) (die : Nat) : List (Nat × PoolEntry) :=
  (((List.range s.pool.length).zip s.pool).filter fun e => e.2.die == die).take 4096

/-- Whether a share is that of a source at a priority of a die. -/
def Share.isOf (x : Share) (die prio : Nat) (src : Source) : Bool := x.die == die && x.prio == prio && x.source == src

/-- Whether two shares are in one round. -/
def Share.peer (x y : Share) : Bool := x.die == y.die && x.prio == y.prio

/-- The round once a share leaves it (14_queue R335): where the round stood at it, it stands before the visit to the next. -/
def leaveRound (l : List Share) (x : Share) : List Share :=
  let rest := l.filter (· != x)
  if x.cur = false then rest
  else
    let i := l.findIdx (· == x)
    match ((l.drop (i + 1)) ++ l.take i).find? x.peer with
    | some y => rest.map fun z => if z = y then { z with cur := true, fresh := true } else z
    | none => rest

/-- The round of a die (14_queue R335): sources without an entry at a priority have left it, and sources with one have joined it, in order of
arrival (DEDUCED, log 61). -/
def joinRound (s : State) (die : Nat) : List Share :=
  let es := (entriesOf s die).map (·.2)
  let left := s.shares.filter fun x => x.die == die && !es.any fun e => x.isOf die e.prio e.source
  es.foldl (fun l e => if l.any fun x => x.isOf die e.prio e.source then l else l ++ [⟨die, e.prio, e.source, 0, false, false⟩])
    (left.foldl leaveRound s.shares)

/-- The rounds of every die after a move that has changed the pools (14_queue R335). -/
def syncRound (s : State) : State := (List.range 8).foldl (fun st d => { st with shares := joinRound st d }) s

/-- The pool without the entry at an index; a source whose last entry it was leaves the round (14_queue R335). -/
def dropEntry (s : State) (i : Nat) : State :=
  let s1 := { s with pool := s.pool.eraseIdx i }
  match s.pool[i]? with
  | some e => { s1 with shares := joinRound s1 e.die }
  | none => s1

/-- The registers of a continuation (15_barrier R355). -/
def contRegs (entry value : Word) (p : Option PTag) (arg fut : Word) : Word × SReg × Word × Word := (entry, ⟨value, p, .ready⟩, arg, fut)

/-- A resumed context takes its lane groups: those of another tag are zeroed (12_kernel R304), the others keep what they hold (10_context
R269). -/
def resumeLanes (s : State) (im : Image) (k base n : Nat) : State :=
  (List.range n).foldl (fun st i => if tabGet (st.core k).laneTag 0 (base + i) = im.tag then st else giveLane im.tag false k st (base + i)) s

/-- The dispatch of a resume entry into a slot (10_context R252, R266): loaded at the image's HPRIV; none while it waits for tile-queue entries. -/
def resumeInto (s : State) (i : Nat) (e : PoolEntry) (im : Image) (q : Nat) : Option State :=
  let k := coreOf q
  let n := resumeCount s im k
  let base := (resumeBase s im q).getD 0
  let s1 := resumeLanes { dropEntry s i with images := s.images.filter fun x => !(x.csa == im.csa && x.asid == im.asid) } im k base n
  let s2 := s1.setSlot q { (s1.slot q).blank with laneBase := base, laneCount := n, asid := im.asid, accBase := im.accBase, accLim := im.accLim }
  let hpriv := (levelOf (wbits (physWord s (im.key + 0x18)) 61 60)).getD .supervisor
  match dispatchImage s2 q { slice := noSlice, asid := im.asid, level := hpriv, tag := im.tag, cluster := clusterOf q } im.csa with
  | none => none
  | some s3 => some <|
    if (s3.slot q).st = .free then siblingLost (s3.setSlot q (s3.slot q).freed) im.ctx
    else compete { s3.setSlot q { s3.slot q with ctx := im.ctx, runPrio := e.prio, order := s3.nextOrder } with nextOrder := s3.nextOrder + 1 } q

/-- A task whose engine work cannot be issued completes at once (14_queue R333; 16_mesh R364), with ENGINE and STATUS. -/
def taskRefused (s : State) (t : Task) (engine status : Nat) : State := finishTask s t.queue t.pos (completionWord status engine 0)

/-- The agent of a task's engine work (14_queue R333). -/
def taskAgent (t : Task) : Agent := { deviceAgent t.asid t.tag with cluster := 2 * t.die }

/-- The issue of a TYPE 2 task by the queue unit (14_queue R333; 08_stream R201). A poisoned specification is a sink (19_shroud R412). -/
def issueTaskCopy (s : State) (t : Task) (engine : Nat) : State :=
  let ag := taskAgent t
  let sa := recEntry t.words
  if sa.toNat % 64 ≠ 0 then taskRefused s t engine 7
  else
    match engRead s ag sa.toNat 64 0 with
    | .error (st, s1) => if st = heldStatus then s1 else taskRefused s1 t engine st
    | .ok g =>
      match g.poison with
      | some p => engineSink g.st .gone (some (t.queue, t.pos)) ag p sa.toNat
      | none =>
        let spec := wordsOfBytes g.bytes
        match (if sCw spec then (probeRange g.st ag .write sa.toNat 8).head? else none), specBadField spec true with
        | some m, _ => let r := engineMiss g.st ag m; taskRefused r.2 t engine r.1
        | none, some _ => taskRefused g.st t engine 7
        | none, none =>
          pushCopy g.st
            { kind := if (recArg t.words).getLsbD 0 then .cpys else .cpy, phase := .start, spec := spec, specAddr := sa, home := .gone, slot := 0,
              dest := 0, task := some (t.queue, t.pos), core := 0, engine := engine, asid := t.asid, level := .user, tag := t.tag, pc := 0,
              a := false, r := false, scope := 0, frm := 0, count := 0, cur := StreamCur.start, fflags := 0 }

/-- The status with which the issue of a command by a task fails, if it does (16_mesh R364, R366; 18_bucket R393), with the descriptor and the
descriptor that it names. A poisoned one goes on to the unit, which ends with FORMAT (DEDUCED, log 55). -/
def taskCmdRead (s : State) (ag : Agent) (op : Nat) (sa : Word) : Except (Nat × State) (List Word × List Byte × State) :=
  let bad := formatCode op
  let rd := fun (st : State) (va n : Nat) => (match probeRange st ag .read va n with
    | _ :: _ => .error (bad, st)
    | [] =>
      let h := readHolds st ag va n
      if h ≠ [] then .error (heldStatus, holdReads s h) else .ok (readVa st ag va n) : Except (Nat × State) Got)
  if sa.toNat % 64 ≠ 0 then .error (bad, s)
  else do
    let g ← rd s sa.toNat 64
    let d := wordsOfBytes g.bytes
    if g.poison.isSome then return ([], [], g.st)
    else
      let h ← rd g.st (wordAt d 0).toNat (objectBytes op)
      let e ← rd h.st (wordAt d 2).toNat (if op = 0 then 64 else 0)
      if h.poison.isSome ∨ e.poison.isSome then return (d, [], e.st)
      else if (issueBreach op d h.bytes e.bytes).isSome then .error (bad, e.st)
      else if op = 0 ∧ mCcap h.bytes < fld e.bytes 0x10 4 then .error (0x10, e.st)
      else return (d, h.bytes, e.st)

/-- The issue of a TYPE 3, 4 or 5 task (14_queue R333; 16_mesh R364): at user level, with A = R = 0, by the units that die d reaches. -/
def issueTaskCmd (s : State) (t : Task) : State :=
  let op := (recArg t.words).toNat
  let sa := recEntry t.words
  let unit := cmdUnit op t.die (2 * t.die)
  match taskCmdRead s (taskAgent t) op sa with
  | .error (st, s1) => if st = heldStatus then s1 else taskRefused s1 t (unit []) st
  | .ok (d, obj, s1) =>
    pushCmd s1
      { kind := .unit op, descAddr := sa, desc := d, home := .gone, slot := 0, dest := 0, task := some (t.queue, t.pos), die := t.die,
        cluster := 2 * t.die, asid := t.asid, level := .user, tag := t.tag, pc := 0, a := false, r := false, scope := 0, running := false,
        claim := none, gen := 0, engine := unit obj, ended := none }

/-- A context starts for an entry in a slot (12_kernel R304; 13_group R317; 14_queue R337; 15_barrier R355). -/
def startEntry (s : State) (e : PoolEntry) (q : Nat) : State :=
  let worker := fun (st : State) (n p : Nat) (cont : Option (Word × SReg × Word × Word)) =>
    match findTask st n p, readDesc st n with
    | some t, .ok d => startTask st q t d e.prio cont
    | _, _ => st
  match e.kind, e.source with
  | .task n p, _ =>
    (match findTask s n p with
    | some t => (match t.st with
      | .active (a + 1) b => worker (setTask s { t with st := .active a b }) n p none
      | _ => s)
    | none => s)
  | .leaf k i, _ => startLeaf s q k i e.prio none
  | .cont (.task n p) en v po ar fu, _ => worker s n p (some (contRegs en v po ar fu))
  | .cont (.leaf k i) en v po ar fu, _ => startLeaf s q k i e.prio (some (contRegs en v po ar fu))
  | .sibling parent en _, .kernel k => startSibling s q k parent en e.start e.prio
  | _, _ => s

/-- What the capture of a dispatch holds (21_device R441): the entry at its priority, in a layout that the spec leaves open (DESIGN CHOICE, log
58). -/
def entryIdentity (e : PoolEntry) : List Byte :=
  let what := match e.kind with
    | .task n p => [1, n, p]
    | .leaf k i => [2, k, i]
    | .resume c a => [3, c.toNat, a.toNat]
    | .cont _ en _ _ _ fu => [4, en.toNat, fu.toNat]
    | .sibling p en _ => [5, p, en.toNat]
  (List.range 6).flatMap fun j => leBytes 8 (Config.replayIdentity (e.prio :: what) j).toNat

/-- SRC of the capture of a dispatch (21_device R441): die and slot, or 0xFFFF for an engine (DESIGN CHOICE, log 58). -/
def dispatchSource (die : Nat) : Option Nat → Nat
  | some q => die + q * 2 ^ 8
  | none => die + 0xFFFF * 2 ^ 8

/-- A dispatch is captured, and a replay run passes its record (21_device R441, R442). -/
def noteDispatch (s : State) (e : PoolEntry) (q : Option Nat) : State :=
  let src := dispatchSource e.die q
  capture (replayMatch s 4 src (entryIdentity e)) 4 src (entryIdentity e)

/-- The dispatch of the entry at an index (14_queue R333, R335; 21_device R441); none when it has to wait after all. -/
def dispatchEntry (s : State) (i : Nat) (e : PoolEntry) (at_ : EntryPlace) : Option State :=
  match at_ with
  | .slot q =>
    let s1 := noteDispatch s e (some q)
    (match e.kind with
    | .resume csa asid => (match entryImage s csa asid with | some im => resumeInto s1 i e im q | none => none)
    | _ => some (startEntry (dropEntry s1 i) e q))
  | .engine =>
    let s1 := noteDispatch s e none
    (match e.kind with
    | .task n p => some (match findTask s n p with
      | some t => if recType t.words = 2 then issueTaskCopy (dropEntry s1 i) t ((taskEngine s e.die).getD 0) else issueTaskCmd (dropEntry s1 i) t
      | none => dropEntry s i)
    | _ => none)
  | .stale => some (dropEntry s i)
  | .waits | .noSlot => none

/-- A deficit within its bounds (14_queue R335). -/
def saturate (d : Int) : Int := max (-2147483648) (min 2147483648 d)

/-- A debit of a source's share, if it is in the round (14_queue R335, R338). -/
def debitShare (l : List Share) (die prio : Nat) (src : Source) (n : Nat) : List Share :=
  l.map fun x => if x.isOf die prio src then { x with deficit := saturate (x.deficit - n) } else x

/-- Visits that a source needs before its deficit is positive (14_queue R335). -/
def visitsNeeded (d : Int) (quantum : Nat) : Nat := max 1 (((1 - d + quantum - 1) / (quantum : Int)).toNat)

/-- One round-robin choice among sources in the order of their next visits (14_queue R335): deficits and quanta give the source chosen and the
deficits after the visits. The source where the round stands goes on while its deficit is positive. -/
def roundChoice (ds : List (Int × Nat)) (stay : Option Nat) : Nat × List Int :=
  match stay with
  | some c => (c, ds.map (·.1))
  | none =>
    let needs := ds.map fun x => visitsNeeded x.1 x.2
    let least := needs.foldl min (needs.headD 1)
    let win := needs.findIdx (· == least)
    (win, (ds.zip (List.range ds.length)).map fun x => saturate (x.1.1 + ((if x.2 ≤ win then least else least - 1) * x.1.2 : Nat)))

/-- A round in the order of its next visits (14_queue R335): from the source after the one where it stands, which comes last, or first where its visit
is still to come. -/
def visitOrder (l : List Share) : List Share :=
  match l.findIdx? (·.cur) with
  | none => l
  | some c =>
    let k := if l.any fun x => x.cur && x.fresh then c else c + 1
    l.drop k ++ l.take k

/-- A choice of the pool: the index of an entry, the entry, its place, and the shares after it. -/
structure Choice where
  index : Nat
  entry : PoolEntry
  place : EntryPlace
  shares : List Share
  deriving DecidableEq, Repr

/-- The choice among the entries that can be dispatched at the highest priority (14_queue R335; 15_barrier R350): stale entries first, then
the oldest resume entry of a barrier-blocked context, then the round over the sources with such entries. -/
def chooseEntry (s : State) (die : Nat) (only : Option Nat) : Option Choice :=
  let placed := ((entriesOf s die).map fun e => (e.1, e.2, entryPlace s only e.2)).filter fun x => x.2.2.now
  let shares := joinRound s die
  match placed.find? fun x => x.2.2 == .stale with
  | some x => some ⟨x.1, x.2.1, x.2.2, shares⟩
  | none =>
    match placed with
    | [] => none
    | x :: xs =>
      let p := xs.foldl (fun m y => max m y.2.1.prio) x.2.1.prio
      let top := placed.filter fun y => y.2.1.prio == p
      match top.find? fun y => y.2.1.blocked with
      | some y => some ⟨y.1, y.2.1, y.2.2, debitShare shares die p y.2.1.source 64⟩
      | none =>
        let round := (visitOrder (shares.filter fun h => h.die == die && h.prio == p)).filter fun h => top.any fun y => y.2.1.source == h.source
        let weight := fun (h : Share) => match top.find? fun y => y.2.1.source == h.source with | some y => y.2.1.weight | none => 1
        let r := roundChoice (round.map fun h => (h.deficit, weight h * 1024))
          (round.findIdx? fun h => h.cur && !h.fresh && decide (0 < h.deficit))
        match round[r.1]? with
        | none => none
        | some win =>
          match top.find? fun y => y.2.1.source == win.source with
          | none => none
          | some y =>
            let after := shares.map fun h =>
              if h.die = die ∧ h.prio = p then
                let d := match round.findIdx? fun x => x.source == h.source with
                  | some j => r.2.getD j 0
                  | none => h.deficit
                { h with deficit := d, cur := h.source == win.source, fresh := false }
              else h
            some ⟨y.1, y.2.1, y.2.2, debitShare after die p win.source 64⟩

/-- The entry of a die that the next record of a replay run dispatches, at the priority it had then, with its place among the entries and the slot, if it
goes to one (21_device R442). -/
def recordedEntry (s : State) (die : Nat) : Option (Nat × PoolEntry × Option Nat) :=
  match replayEntry s with
  | some (4, src, data) =>
    let q := if src / 2 ^ 8 = 0xFFFF then none else some (src / 2 ^ 8)
    if src % 2 ^ 8 ≠ die then none
    else (entriesOf s die).findSome? fun e =>
      ((List.range 16).map fun p => { e.2 with prio := p }).findSome? fun x =>
        if e.2.prio ≤ x.prio ∧ entryIdentity x = data then some (e.1, x, q) else none
  | _ => none

/-- What a pool dispatches next (14_queue R335), in a replay run as its record says (21_device R442): an entry that is stale, or the recorded one once it
can go to its recorded place. -/
def nextChoice (s : State) (die : Nat) (only : Option Nat) : Option Choice :=
  match replayEntry s, chooseEntry s die only with
  | none, c => c
  | some _, some c => if c.place = .stale then some c else recorded
  | some _, none => recorded
where
  /-- The dispatch that the record names. -/
  recorded : Option Choice :=
    match recordedEntry s die with
    | none => none
    | some (i, e, q) =>
      let at_ := entryPlace s q e
      if at_ = (match q with | some k => .slot k | none => .engine) ∧ (only.isNone ∨ only = q) then
        some ⟨i, e, at_, debitShare (joinRound s die) die e.prio e.source 64⟩
      else none

/-- One dispatch of a die's pool, restricted to one slot when that is given; pools start with BOOT (21_device R435). An entry whose issue reads what
waits behind the traffic of a link stays (20_link R431). -/
def dispatchOne (s : State) (die : Nat) (only : Option Nat) : State :=
  if started s = false ∨ frozenUnit s 10 die = true then s
  else match nextChoice s die only with
  | none => s
  | some c =>
    match dispatchEntry { s with shares := c.shares } c.index c.entry c.place with
    | none => s
    | some t => if t.heldReads = s.heldReads then t else { s with heldReads := t.heldReads }

/-- The priority of the request that a slot is already to yield to (10_context R264, R265): pending or latched, or the one its handler
serves. -/
def requestPrio (x : Slot) : Option Nat :=
  match x.request with
  | some r => some r.prio.toNat
  | none => if x.mode = .handler ∧ x.trapCause = 0x21 then some (wbits x.trapAux 3 0) else none

/-- The state with a pre-emption request at a slot; of two requests the one of higher priority is kept (10_context R264, R265). -/
def postRequest (s : State) (q : Nat) (r : Request) : State :=
  let x := s.slot q
  match x.request with
  | some o => if o.prio.toNat < r.prio.toNat then s.setSlot q { x with request := some r } else s
  | none => s.setSlot q { x with request := some r }

/-- Whether slot a is displaced before slot b: running priority, then dispatch order, then index (14_queue R335). -/
def victimBefore (a b : Nat × Slot) : Bool :=
  decide (a.2.runPrio < b.2.runPrio) || (a.2.runPrio == b.2.runPrio && (decide (a.2.order < b.2.order) || (a.2.order == b.2.order && decide (a.1 < b.1))))

/-- The first to be displaced of some slots. -/
def firstVictim : List (Nat × Slot) → Option (Nat × Slot)
  | [] => none
  | x :: xs => some (xs.foldl (fun m y => if victimBefore y m then y else m) x)

/-- Insertion of an entry into a list by falling priority, after equal ones. -/
def insertPrio (e : PoolEntry) : List PoolEntry → List PoolEntry
  | [] => [e]
  | x :: xs => if x.prio < e.prio then e :: x :: xs else x :: insertPrio e xs

/-- The entries that find no free slot are paired with slots that run contexts of lower priority (14_queue R335), the highest priority first;
the first pair whose slot has no request as high gives the request to post. -/
def displacement (s : State) : List PoolEntry → List (Nat × Slot) → Option (Nat × Nat)
  | [], _ => none
  | e :: es, vs =>
    let fits := fun (v : Nat × Slot) => decide (v.2.runPrio < e.prio) && (entryCores e).contains (coreOf v.1)
    match firstVictim (vs.filter fits) with
    | none => displacement s es vs
    | some v =>
      if (match requestPrio v.2 with | some p => decide (p < e.prio) | none => true) then some (v.1, e.prio)
      else displacement s es (vs.filter fun x => x.1 != v.1)

/-- Displacement in a replay run (21_device R442): the slot that the next record dispatches to is to be vacated. -/
def displaceRecorded (s : State) (die : Nat) : State :=
  match recordedEntry s die with
  | some (_, e, some q) =>
    let x := s.slot q
    if x.st ≠ .free ∧ x.ctx.gang = false ∧ x.runPrio < e.prio ∧ (requestPrio x).all fun p => decide (p < e.prio) then
      postRequest s q ⟨BitVec.ofNat 4 e.prio, false, 0⟩
    else s
  | _ => s

/-- Displacement in a die (14_queue R335): at most one request. Gang members are never chosen. In a replay run it acts only as recorded. -/
def displace (s : State) (die : Nat) : State :=
  if (replayEntry s).isSome then displaceRecorded s die
  else
  let waiting := ((entriesOf s die).map (·.2)).filter fun e => entryPlace s none e == .noSlot
  if waiting = [] then s
  else
    let vs := (busySlots s).filter fun v => dieOf v.1 == die && !v.2.ctx.gang
    match displacement s (waiting.foldl (fun l e => insertPrio e l) []) vs with
    | none => s
    | some (q, p) => postRequest s q ⟨BitVec.ofNat 4 p, false, 0⟩

/-- READY_POOL_DISPATCH (14_queue R335); a place that it leaves in the pool may admit a task that waits for one (R334). At die 0 a FWLAUNCH that
waits goes first (21_device R436). -/
def execReadyPoolDispatch (die : Nat) (s : State) : Host.Outcome State Fault Refusal :=
  let s1 := if die = 0 then launchNext s else s
  next (if die < 8 ∧ started s1 = true ∧ frozenUnit s1 10 die = false then admitTop (dispatchOne (displace s1 die) die none) else s1)

/-- AGING (14_queue R336): the entry at a place of a die's pool rises by one priority level, unless aging is off or a
replay run follows its record, whose dispatches are as aged then (21_device R442). Its wait is not counted
(log 4). -/
def execAging (die n : Nat) (s : State) : Host.Outcome State Fault Refusal :=
  next (match (entriesOf s die)[n]? with
    | some e =>
      if ageLimitOf s die = 0 ∨ 15 ≤ e.2.prio ∨ (replayEntry s).isSome = true then s
      else { s with pool := s.pool.set e.1 { e.2 with prio := e.2.prio + 1 } }
    | none => s)

end Sys2Proof.Machine
end

