-- ==== Sys2Proof/Machine/VecIssue.lean ====
section
/-! DEFINITION. The vector unit of a core (05_vector R128 to R130; 14_queue R338): which entry issues its next element group, what it does, and
its charge; the recheck queue, suspect scores and the quarantine of lane groups (19_shroud R417 to R420); the scratchpad banks (08_stream R223). -/

namespace Sys2Proof.Machine

/-- The beats of one element group of an element-wise instruction: its class factor (05_vector R128). -/
def classFactor : VArith → Nat
  | .vfdiv _ _ _ _ | .vfdivVs _ _ _ _ | .vfsqrt _ _ _ | .vfrec _ _ _ | .vfrsq _ _ _ | .vfexp2 _ _ _ => 4
  | .vdiv _ _ _ _ | .vdivVs _ _ _ _ => 8
  | _ => 1

/-- Element groups that the active elements from index lo on fill at a width (05_vector R128). -/
def groupsFrom (c : Core) (v : VView) (m lo w : Nat) : Nat :=
  ((((List.range v.vl).filter fun i => decide (lo ≤ i) && c.active v m i).length * w) + 2047) / 2048

/-- The beats of an instruction that issues in one piece (05_vector R128). -/
def wholeBeats (c : Core) (v : VView) (a : VArith) : Nat :=
  max 1 (match a with
    | .mand _ _ _ | .mor _ _ _ | .mxor _ _ _ | .mandn _ _ _ | .mset _ | .mpopc _ _ _ | .mffs _ _ _ | .msbf _ _ _ => (v.vl - v.p + 2047) / 2048
    | .vslup _ _ _ m | .vsldn _ _ _ m | .vcomp _ _ m | .vexpd _ _ m | .vscan _ _ m => 2 * groupsFrom c v m.toNat 0 v.w
    | .vperm _ _ _ m | .viota _ _ m => 2 * groupsFrom c v m.toNat v.p v.w
    | .vprune48 _ _ => 2 * ((v.vl * 16 + 2047) / 2048)
    | .vredsum _ _ _ m | .vredmax _ _ _ m | .vredmin _ _ _ m | .vfredo _ _ _ m | .vfredu _ _ _ m | .vfredmax _ _ _ m =>
      groupsFrom c v m.toNat 0 v.w
    | _ => 1)

/-- Whether an instruction writes a mask register (05_vector R137 to R139). -/
def writesMask : Row → Bool
  | .arith a => (match a with
    | .mand _ _ _ | .mor _ _ _ | .mxor _ _ _ | .mandn _ _ _ | .mset _ | .msbf _ _ _ | .mfromv _ _ _ => true
    | _ => false)
  | .instr i => (match i with
    | .vcmp _ _ _ _ _ | .vcmpVs _ _ _ _ _ | .vfcmp _ _ _ _ _ | .vfcmpVs _ _ _ _ _ => true
    | _ => false)

/-- The bits of VDIRTY for register groups that are written, and for mask registers (10_context R267). -/
def dirtyBits (gs : List VGrp) (mask : Bool) : BitVec 6 :=
  BitVec.ofNat 6 (((List.range 4).foldl (fun n j =>
    if gs.any fun g => decide (g.reg < 8 * (j + 1)) && decide (8 * j < g.reg + g.n) then n + 2 ^ j else n) 0) + mask.toNat * 16)

/-- What one issue comes to. -/
inductive IssueRes where
  /-- the entry cannot issue now -/
  | wait
  /-- its reads wait behind the traffic of links (20_link R431) -/
  | held (hs : List (Nat × Nat))
  /-- a store waits for a MIGRATING page from now on: the ranges of its bytes (11_page R292) -/
  | hold (rs : List (Nat × Nat))
  /-- the entry raises a trap -/
  | raise (r : Report) (s : State)
  /-- a sink has ended the context -/
  | dead (s : State)
  /-- an element group, or the whole instruction: the state, its flags, the next progress index when the entry stays, the Probe that it has
  passed, the VL that it has trimmed, the scalar register that takes a result, and its beats -/
  | step (s : State) (flags : FFlags) (more : Option Nat) (probed : Option Probed) (vl : Nat) (dest : Option (Nat × SReg)) (beats : Nat)
  /-- a KST leaves the queue: the state after it (18_bucket R395) -/
  | kst (s : State)

/-- A report of a queue entry (10_context R261). -/
def VEntry.report (e : VEntry) (cause : Nat) (aux : Word) : Report := ⟨cause, e.pc, 0, aux, true, false⟩

/-- The trap of a saved entry that cannot stand in its queue (10_context R266). -/
def VEntry.malformed (e : VEntry) (s : State) : IssueRes := .raise (e.report 0x01 (BitVec.ofNat 64 e.word)) s

/-- What an arithmetic or compare entry does, with its class factor and, when it issues in one piece, its beats (05_vector R128, R133 to R143). -/
def entryAct (c : Core) (v : VView) (e : VEntry) : Row → Option (VAct × Nat × Nat)
  | .arith a => some (arithAct v e.op0 e.poison0 e.op1 e.poison1 a, classFactor a, wholeBeats c v a)
  | .instr i => (cmpActOf v e.op0 e.poison0 i).map fun x => (x, 1, 1)

/-- The beats of one issue of an arithmetic instruction (05_vector R128; 14_queue R338): an empty mask costs one (DEDUCED, log 70). -/
def VAct.cost (a : VAct) (c : Core) (v : VView) (factor whole : Nat) : Nat :=
  match a with
  | .elems _ _ _ m always _ => if (c.collected v m always).isEmpty then 1 else factor
  | .whole _ => whole

/-- The chunks that differ between two states of a core's registers, as they were before. -/
def changedChunks (c0 c1 : Core) : List (Nat × VChunk) :=
  (c1.vec.filter fun e => c0.chunk e.1 != e.2).map fun e => (e.1, c0.chunk e.1)

/-- What the scalar register of an entry takes when the entry leaves its queue (04_sequencer R81): its result, or, where the instruction writes
nothing (05_vector R120), the value it has. -/
def VEntry.lands (e : VEntry) (x : Slot) (scalar : Option (Word × Option PTag)) : Option (Nat × SReg) :=
  (queueDest e.word).map fun d => (d, match scalar with
    | some y => ⟨y.1, y.2, .ready⟩
    | none => { x.sreg d with pend := .ready })

/-- Whether an entry of the recheck queue is that of a queue entry, some of whose element groups it holds already (19_shroud R418). -/
def Recheck.isOf (r : Recheck) (q : Nat) (e : VEntry) : Bool := r.slot == q && r.ord == e.ord

/-- The recheck queue with one more issue of an entry (19_shroud R418): an instruction enters it with its first element group. -/
def Recheck.add (rs : List Recheck) (x : Recheck) : List Recheck :=
  if rs.any fun r => r.slot == x.slot && r.ord == x.ord then
    rs.map fun r =>
      if r.slot = x.slot ∧ r.ord = x.ord then
        { r with flags := r.flags ||| x.flags, dest := x.dest, undo := r.undo ++ x.undo.filter fun u => !r.undo.any fun w => w.1 == u.1 }
      else r
  else rs ++ [x]

/-- One issue of an arithmetic or compare entry (05_vector R126, R130). Under RECHK what it does waits in the recheck queue, and its flags and its
scalar wait with it (19_shroud R418). -/
def issueArith (s : State) (q : Nat) (e : VEntry) (v : VView) (a : VAct) (factor whole : Nat) : IssueRes :=
  let k := coreOf q
  let c := s.core k
  let x := s.slot q
  let r := a.step v c
  let dest := if r.more.isSome then none else e.lands x r.scalar
  let beats := a.cost c v factor whole
  if x.rechk = false then .step (s.setCore k r.core) r.flags r.more none v.vl dest beats
  else if 16 ≤ c.rechecks.length ∧ (c.rechecks.any fun y => y.isOf q e) = false then .wait
  else
    let y : Recheck :=
      { slot := q, ord := e.ord, pc := e.pc, laneBase := x.laneBase, laneCount := x.laneCount, flags := r.flags, dest := dest
        undo := changedChunks c r.core, aged := false }
    .step (s.setCore k { r.core with rechecks := Recheck.add c.rechecks y }) 0 r.more none v.vl none beats

/-- The next element group of an access that has passed its check (06_vector_access R149, R151, R153). A store of poison to memory that cannot hold it is a
sink before it writes a byte (19_shroud R411, R412). -/
def issueGroup (s : State) (q : Nat) (e : VEntry) (v : VView) (a : VAcc) (b : Probed) : IssueRes :=
  let c := s.core (coreOf q)
  let hs := if a.access = .write then [] else (a.spans c v (a.elems c v)).flatMap fun r => readHolds s (laneAgent s q r.1) r.1 r.2
  if hs ≠ [] then .held hs
  else
    match a.lost s q b.pages c v with
    | some t => .dead (sinkAt s q e.pc t)
    | none =>
      let is := a.elems c { v with p := e.began }
      let total := a.beats s q c v is
      let groups := max 1 ((is.length * v.w + 2047) / 2048)
      let r := a.group s q b v
      if slotAlive r.st q = false then .dead r.st
      else .step r.st r.flags r.more (some r.probed) v.vl none (if r.more.isSome then 1 else if a.ff then total else max 1 (total - (groups - 1)))

/-- The bytes that a TLD or a TST in the tile queue may touch (07_tile R190, R191): an address and a length. -/
def TEntry.span (t : TEntry) : Nat × Nat :=
  (t.opk.toNat, if t.word % 256 = 8 then 264 * (tileSegs t.desc t.row0).length else 4 * tdRows t.desc * tdCols t.desc)

/-- Whether a tile access of slot q from before a place in program order touches a byte of a range (09_guard R231). -/
def tileMayTouch (s : State) (q n : Nat) (r : Nat × Nat) : Bool :=
  (tilesOf s q).any fun t => wordIsTileAccess t.word && decide (t.ord < n) && sameBytes s q t.span r

/-- Whether a range of bytes of a vector access waits (09_guard R231; 06_vector_access R154): for a tile access or a link of the slot from before it,
and behind a scalar store from before it that waits for a MIGRATING page (11_page R292). -/
def rangeWaits (s : State) (q n : Nat) (r : Nat × Nat) : Bool := tileMayTouch s q n r || linkCovers s q n r || storeWaits s q n r

/-- One issue of a vector access (06_vector_access R149 to R151, R158), with the VL that its entry captured. Its first waits for what R231 puts before
it, for a MIGRATING page that it would write (11_page R292), and, where it writes DOORBELL, for every earlier access (09_guard R245). -/
def issueAccess (s : State) (q : Nat) (e : VEntry) (cap : Nat) (v : VView) (a : VAcc) : IssueRes :=
  let c := s.core (coreOf q)
  let first :=
    match a.check s q e cap c v with
    | .fail r st => .raise r st
    | .sink t => .dead (sinkAt s q e.pc t)
    | .pass vl =>
      let v1 := { v with vl := vl }
      let is := a.elems c v1
      let rs := a.spans c v1 is
      if rs.any (rangeWaits s q e.ord) then .wait
      else if a.migrates s q rs then (if e.probed.isSome then .wait else .hold rs)
      else if a.rings s q rs ∧ (accessesBefore s (.slot q) e.ord || unacked s (.slot q)) = true then .wait
      else issueGroup (a.touchAll s q c v1 is) q e v1 a { pages := a.pages s q c v1 is, waits := [] }
  match e.probed with
  | some b => if b.waits = [] then issueGroup s q e v a b else first
  | none => first

/-- One issue of a KST (18_bucket R395 to R397): a claim makes a link that is published later. -/
def issueKst (s : State) (q dest va : Nat) (e : VEntry) (v : VView) : IssueRes :=
  match kstIssue s q dest va e (s.core (coreOf q)) v with
  | .trap r st => .raise r st
  | .sink t => .dead (sinkAt s q e.pc t)
  | .done w st => .kst (kstFinish st q dest w)
  | .held st => .held st.heldReads
  | .claim l st =>
    if tileMayTouch s q e.ord (l.row, l.bytes.length) || storeWaits s q e.ord (l.row, l.bytes.length) then .wait
    else .kst (bumpOp { st with klinks := tabSet st.klinks st.nextOp l })

/-- One issue of an entry of majors 0x27 to 0x30. -/
def issueOther (s : State) (q : Nat) (e : VEntry) (cap : Nat) (v : VView) (i : Instr) : IssueRes :=
  let c := s.core (coreOf q)
  let move := fun (write : Bool) (r : Nat) =>
    (match tileMove s q e write r with
    | .wait => .wait
    | .raise cause addr aux => .raise ⟨cause, e.pc, addr, aux, true, false⟩ s
    | .sink t => .dead (sinkAt s q e.pc t)
    | .done st fl => .step st fl none none v.vl none (moveBeats c v e.op0) : IssueRes)
  match accOf e i with
  | some a => issueAccess s q e cap v a
  | none =>
    match i with
    | .kst d a _ => issueKst s q d.toNat a.toNat e v
    | .ksig _ a _ =>
      (match ksigIssue s q a.toNat e c v with
      | .inl r => .raise r s
      | .inr (.inl t) => .dead (sinkAt s q e.pc t)
      | .inr (.inr y) => .step s 0 none none v.vl (e.lands (s.slot q) (some y)) (max 1 ((v.vl * v.w + 2047) / 2048)))
    | .tmovr _ r => move false r.toNat
    | .tmovw _ r => move true r.toNat
    | _ => e.malformed s

/-- The ports that deliver into the groups that an entry reads, each once (08_stream R205). -/
def entryPorts (s : State) (q : Nat) (h : Shape) : List Nat :=
  (portsOf s q).filter fun p => h.srcs.any fun x => (portsAt s q x.1).contains p

/-- What the deliveries before an entry's first element group come to (08_stream R205): a wait, a trap, or the state with the groups filled, the
flags and the VL of the shortest. Each port delivers under the VL that the entry captured, and one that holds no element traps, whatever is needed of
it (DEDUCED, log 32). -/
inductive Delivered where
  | wait
  | raise (r : Report)
  | done (s : State) (flags : FFlags) (vl : Nat)

/-- The deliveries of an entry (08_stream R205). -/
def deliverAll (s : State) (q : Nat) (e : VEntry) (ports : List Nat) : Delivered :=
  let k := coreOf q
  let c := s.core k
  let v := VView.of (s.slot q) e
  let need := (needOf c v).length
  if ports.any fun p => !(c.port p).canDeliver need then .wait
  else
    match ports.find? fun p => (c.port p).fifo.isEmpty with
    | some p => .raise (e.report 0x10 (c.port p).statusWord)
    | none =>
      let r := ports.foldl (fun (a : Core × FFlags × Nat) p =>
        let y := deliver a.1 v p
        (y.1, a.2.1 ||| y.2.1, match y.2.2 with | some n => min a.2.2 n | none => a.2.2)) (c, 0, e.vl)
      .done (s.setCore k r.1) r.2.1 r.2.2

/-- The vector registers that hold the metadata of a TMMAS in the tile queue (07_tile R188). -/
def metaGroup (x : Slot) (e : TEntry) : Option VGrp :=
  if e.word / 32 % 8 = 1 then
    match decodeToRow e.word with
    | .ok (.instr (.tmmas _ _ _ _ v)) =>
      some ⟨v.toNat, if x.vlen = 0 then 0 else (tdRows e.desc * (e.opk.toNat / 8) * 16 + x.vlen - 1) / x.vlen, 16⟩
    | _ => none
  else none

/-- Whether a tile entry of the slot from before a place in program order still reads a register that is to be written (07_tile R188). -/
def metaHeld (s : State) (q n : Nat) (gs : List VGrp) : Bool :=
  (tilesOf s q).any fun t => decide (t.ord < n) && match metaGroup (s.slot q) t with
    | some g => gs.any g.overlaps
    | none => false

/-- Whether a saved VCFG holds a configuration (05_vector R119). -/
def vcfgOk (c : BitVec 14) : Bool := decide (c.toNat % 8 ≤ 5) && decide (vCvs c ≠ 3)

/-- Whether what an entry does may not depend on a result that is still to be retired (19_shroud R418): it reaches memory, a port or a tile, or, once
RECHK is clear, its flags and its scalar would land at once. -/
def leavesUnit (x : Slot) (e : VEntry) (ports : List Nat) : Bool := decide (0x28 ≤ e.word / 2 ^ 26) || ports != [] || !x.rechk

/-- Whether results of slot q are still to be retired (19_shroud R418). -/
def unretired (s : State) (q : Nat) : Bool := (s.core (coreOf q)).rechecks.any fun y => y.slot == q

/-- The state after an issue of the entry at place i of slot q (14_queue R338; 05_vector R130; 04_sequencer R109; 10_context R267): e is the entry
as it stood, gs the register groups written. -/
def issueLand (s : State) (q i : Nat) (e : VEntry) (gs : List VGrp) (mask : Bool) (flags : FFlags) (more : Option Nat) (probed : Option Probed)
    (vl : Nat) (dest : Option (Nat × SReg)) (beats : Nat) : State :=
  let y := s.slot q
  let n := queueCounts e.word
  let cost := beats * 2 ^ vGroup e.vcfg
  let y1 : Slot :=
    { y with
      vl := if vl < e.vl then vl else y.vl, fflags := y.fflags ||| flags, vdirty := y.vdirty ||| dirtyBits gs mask, charge := y.charge + cost
      vq := match more with
        | some p => y.vq.set i { e with p := p, vl := vl, probed := probed }
        | none => y.vq.eraseIdx i
      cnt := if more.isSome then y.cnt else { y.cnt with loads := y.cnt.loads - n.1, stores := y.cnt.stores - n.2.1, tiles := y.cnt.tiles - n.2.2 } }
  let y2 := match dest with
    | some d => y1.landAt d.1 d.2.val d.2.poison
    | none => y1
  { s.setSlot q y2 with shares := debitShare s.shares (dieOf q) y.runPrio y.ctx.source cost }

/-- The place of the next entry that the vector unit takes: markers keep none waiting (15_barrier R346). -/
def nextWork (es : List VEntry) : Option (Nat × VEntry) :=
  match es.findIdx? fun e => e.kind != .marker with
  | none => none
  | some i => (es[i]?).map fun e => (i, e)

/-- The issue of an entry whose word is decoded (05_vector R129; 08_stream R205; 19_shroud R418): the state after it, or none while it waits. A KST's P
counts as 0 (18_bucket R395). -/
def issueRow (s : State) (q i : Nat) (e : VEntry) (r : Row) (h : Shape) : Option State :=
  let k := coreOf q
  let c := s.core k
  let ports := if e.p = 0 ∨ wordIsKst e.word = true then entryPorts s q h else []
  let bound := ports.map fun p => (⟨(c.port p).bindReg, 2 ^ (c.port p).bindG, 0⟩ : VGrp)
  if (leavesUnit (s.slot q) e ports && unretired s q) || metaHeld s q e.ord (h.dsts ++ bound) then none
  else
    match (if ports = [] then .done s 0 e.vl else deliverAll s q e ports) with
    | .wait => none
    | .raise t => some (raiseDue s q e.ord t)
    | .done s1 fl vl =>
      let e1 := { e with vl := vl }
      let v := VView.of (s1.slot q) e1
      let res := match entryAct (s1.core k) v e1 r, r with
        | some a, _ => issueArith s1 q e1 v a.1 a.2.1 a.2.2
        | none, .instr j => issueOther s1 q e1 e.vl v j
        | none, .arith _ => e1.malformed s1
      match res with
      | .wait => none
      | .held hs => if hs.all s.heldReads.contains then none else some (holdReads s hs)
      | .hold rs => some (s.setSlot q { s.slot q with vq := (s.slot q).vq.set i { e with probed := some { pages := [], waits := rs } } })
      | .raise t st => some (raiseDue (st.setCore k c) q e.ord t)
      | .dead st => some st
      | .step st f more probed vl' dest beats =>
        let gs := if e.vl ≤ e.p then bound else h.dsts ++ bound
        some (issueLand st q i e gs (writesMask r && decide (e.p < e.vl)) (fl ||| f) more probed vl' dest beats)
      | .kst st =>
        let y := st.slot q
        let cost := max 1 ((vl * vWidth e.vcfg + 2047) / 2048) * 2 ^ vGroup e.vcfg
        some { st.setSlot q
          { y with
            vq := y.vq.eraseIdx i, charge := y.charge + cost, vl := if vl < e.vl then vl else y.vl, fflags := y.fflags ||| fl
            vdirty := y.vdirty ||| dirtyBits bound false } with
          shares := debitShare st.shares (dieOf q) y.runPrio y.ctx.source cost }

/-- Whether a freeze holds a slot, or a lane group that it owns (21_device R438). -/
def unitHeld (s : State) (q : Nat) : Bool :=
  let x := s.slot q
  frozenUnit s 1 q ||
  (frozenUnit s 2 (coreOf q) && match (s.core (coreOf q)).laneMap.findIdx? fun g => g == wbits s.mgmt.rbsel 23 21 with
    | some i => decide (x.laneBase ≤ i) && decide (i < x.laneBase + x.laneCount)
    | none => false)

/-- The issue of the oldest work of slot q's vector queue (05_vector R128 to R130; 09_guard R233; 10_context R266): the state after it, or none
while it waits (DEDUCED, log 71). -/
def issueHead (s : State) (q : Nat) : Option State :=
  let x := s.slot q
  if x.st = .free ∨ unitHeld s q = true then none
  else
    match nextWork x.vq with
    | none => none
    | some (i, e0) =>
      let e := { e0 with vl := min e0.vl (x.vlmax e0.vcfg) }
      let bad := raiseDue s q e.ord (e.report 0x01 (BitVec.ofNat 64 e.word))
      if heldByDue x e.ord = true then none else
      match decodeToRow e.word with
      | .error _ => some bad
      | .ok r =>
        if e.kind = .fenceVV then
          if r = .instr .fenceVv then
            if (tilesOf s q).any (fun t => wordIsTileAccess t.word && decide (t.ord < e.ord)) || (s.klinks.any fun l => l.2.slot == q && decide (l.2.ord < e.ord)) then none
            else some (s.setSlot q { x with vq := x.vq.eraseIdx i })
          else some bad
        else
          match rowShape e.vcfg e.vl e.p r with
          | none => some bad
          | some h =>
            if e.restored && !(h.check && vcfgOk e.vcfg && x.laneCount != 0) then some bad else issueRow s q i e r h

/-- The part of the vector state of a slot that a register group's elements from lo to hi take up (05_vector R117, R127), as a range of bits widened to
whole chunks; hi none is the end of the group. -/
def VGrp.part (g : VGrp) (vlen lo : Nat) (hi : Option Nat) : Nat × Nat :=
  let a := (g.reg * vlen + lo * g.w) / 64 * 64
  let b := match hi with | some n => (g.reg * vlen + n * g.w + 63) / 64 * 64 | none => (g.reg + g.n) * vlen
  (a, b - a)

/-- The part that mask bits from lo to hi take up, of whichever mask registers, beside the register groups. -/
def maskPart (vlen lo : Nat) (hi : Option Nat) : Nat × Nat :=
  let b := match hi with | some n => (n + 63) / 64 * 64 | none => max 8192 lo
  (64 * vlen + lo / 64 * 64, b - lo / 64 * 64)

/-- What an instruction reads and writes of the vector state: parts of it. -/
structure Reach where
  reads : List (Nat × Nat)
  writes : List (Nat × Nat)
  deriving DecidableEq, Repr

/-- What an instruction with a shape touches at the elements from lo to hi (05_vector R129); bound gives the groups that its ports still fill. -/
def reachOf (vlen : Nat) (h : Shape) (mask : Bool) (bound : List VGrp) (lo : Nat) (hi : Option Nat) : Reach :=
  let w := h.dsts.map fun g => g.part vlen lo hi
  { reads := maskPart vlen lo hi :: w ++ h.srcs.map fun g => g.1.part vlen lo hi
    writes := w ++ (if mask then [maskPart vlen lo hi] else []) ++ bound.map fun g => g.part vlen 0 none }

/-- Whether two instructions may not change places: one writes what the other reads or writes (05_vector R129). -/
def Reach.conflicts (a b : Reach) : Bool :=
  (a.writes.any fun x => (b.reads ++ b.writes).any (bytesMeet x)) || b.writes.any fun x => a.reads.any (bytesMeet x)

/-- Whether an entry issues by element groups (05_vector R130): an element-wise instruction or an access. -/
def rowByGroups (c : Core) (v : VView) (e : VEntry) (r : Row) : Bool :=
  match entryAct c v e r with
  | some (.elems _ _ _ _ _ _, _, _) => true
  | some (.whole _, _, _) => false
  | none => (rowAcc e).isSome

/-- Whether an older entry stands in the way of a later one that touches the parts y (05_vector R129). -/
def blocksLater (s : State) (q : Nat) (y : Reach) (o : VEntry) : Bool :=
  o.kind == .instr &&
    match decodeToRow o.word with
    | .error _ => true
    | .ok r => match rowShape o.vcfg o.vl o.p r with
      | none => true
      | some h =>
        let c := s.core (coreOf q)
        let lo := if rowByGroups c (VView.of (s.slot q) o) o r then o.p else 0
        let bound := (if o.p = 0 then entryPorts s q h else []).map fun p => (⟨(c.port p).bindReg, 2 ^ (c.port p).bindG, 0⟩ : VGrp)
        y.conflicts (reachOf (s.slot q).vlen h (writesMask r) bound lo none)

/-- Whether the predecessor of an entry among the instructions of its queue has issued an element group (05_vector R129). -/
def predecessorBegun (es : List VEntry) : Bool :=
  match es.reverse.find? fun o => o.kind == .instr with
  | some o => decide (o.began < o.p)
  | none => true

/-- The issue of a later entry of slot q's queue, chained to older ones (05_vector R129; log 5): the next element group of an arithmetic or compare
instruction whose operands no older entry still writes or reads, and, where it is element-wise, whose predecessor has issued a group. k counts the
entries from the oldest on. -/
def issueChained (s : State) (q k : Nat) : Option State :=
  let x := s.slot q
  match (((List.range x.vq.length).zip x.vq).filter fun y => y.2.kind != .marker)[k]? with
  | none => none
  | some (i, e) =>
    if x.st = .free ∨ heldByDue x e.ord = true ∨ unitHeld s q = true ∨ x.rechk = true ∨ unretired s q = true ∨ e.kind ≠ .instr ∨ x.vlmax e.vcfg < e.vl then none
    else
      match decodeToRow e.word with
      | .error _ => none
      | .ok r =>
        let v := VView.of x e
        let c := s.core (coreOf q)
        match rowShape e.vcfg e.vl e.p r, entryAct c v e r with
        | some h, some a =>
          let elems := rowByGroups c v e r
          if (e.restored && !(h.check && vcfgOk e.vcfg)) || entryPorts s q h != [] || metaHeld s q e.ord h.dsts ||
              (elems && !predecessorBegun (x.vq.take i)) then none
          else
            let y := a.1.step v c
            let reach := reachOf x.vlen h (writesMask r) [] (if elems then e.p else 0) (if elems then y.more else none)
            if (x.vq.take i).any (blocksLater s q reach) then none
            else
              some (issueLand (s.setCore (coreOf q) y.core) q i e (if e.vl ≤ e.p then [] else h.dsts) (writesMask r && decide (e.p < e.vl)) y.flags
                y.more none e.vl (if y.more.isSome then none else e.lands x y.scalar) (a.1.cost c v a.2.1 a.2.2))
        | _, _ => none

/-- Whether slot a issues before slot b: running priority, then charge, then index (14_queue R338). -/
def issuesBefore (s : State) (a b : Nat) : Bool :=
  let x := s.slot a
  let y := s.slot b
  decide (y.runPrio < x.runPrio) || (x.runPrio == y.runPrio && (decide (x.charge < y.charge) || (x.charge == y.charge && decide (a < b))))

/-- Insert a slot into a list in the order of R338. -/
def insertIssue (s : State) (q : Nat) : List Nat → List Nat
  | [] => [q]
  | p :: ps => if issuesBefore s q p then q :: p :: ps else p :: insertIssue s q ps

/-- The issue of slot q (05_vector R129): of the oldest work of its queue, or of the entry k places after it; of another entry that may issue where that
one may not. -/
def issueSlot (s : State) (q k : Nat) : Option State :=
  (if k = 0 then issueHead s q else issueChained s q k) <|> issueHead s q <|>
    (List.range (s.slot q).vq.length).findSome? fun j => issueChained s q (j + 1)

/-- The issue of the winning slot of a core (14_queue R338): the slot, and the state after it. -/
def issueWinner (s : State) (core k : Nat) : Option (Nat × State) :=
  ((slotsOfCore core).foldl (fun l q => insertIssue s q l) []).findSome? fun q => (issueSlot s q k).map fun t => (q, t)

/-- Whether the oldest entry of a core's recheck queue has waited 256 cycles (19_shroud R418). -/
def recheckAged (c : Core) : Bool := match c.rechecks with | r :: _ => r.aged | [] => false

/-- Suspect score of a physical lane group (19_shroud R417). -/
def Core.scoreOf (c : Core) (g : Nat) : Nat := tabGet c.score 0 g

/-- The healthy lane groups of a core, ascending (19_shroud R419). -/
def healthyGroups (c : Core) : List Nat := (List.range 8).filter fun g => !c.quarantined.contains g

/-- Quarantine of a lane group (19_shroud R420; 21_device R437): a pre-emption request of priority 15 to every slot of the core that owns lane groups, and
an error record, whose KIND is 0x07 but at self-test (R435). -/
def quarantineAs (kind : Nat) (s : State) (core g : Nat) : State :=
  let c := s.core core
  if c.quarantined.contains g then s else
  let qs := (slotsOfCore core).filter fun q => decide ((s.slot q).st ≠ .free) && (s.slot q).laneCount != 0
  let wait := qs.map fun q => (q, (s.slot q).ctx.id)
  let s1 := { s with mgmt := { s.mgmt with quar := min 255 (s.mgmt.quar + 1) } }.setCore core
    { c with quarantined := c.quarantined ++ [g], remapDue := true, remapWait := c.remapWait ++ wait }
  let s2 := qs.foldl (fun st q => postRequest st q ⟨15, false, 0⟩) s1
  let e : Event :=
    { kind := kind, cause := 0, held := false, unitClass := 2, unitIndex := core, sub := g, addr := 0, victim := 0, slot := none, pc := 0,
      detail := 0 }
  (recordEvent s2 e).2

/-- Quarantine of a lane group in service (19_shroud R420). -/
def quarantineLane (s : State) (core g : Nat) : State := quarantineAs 0x07 s core g

/-- A lane group's suspect score rises (19_shroud R417, R419): at 128 or more the group is quarantined. -/
def suspect (core n : Nat) (s : State) (g : Nat) : State :=
  let c := s.core core
  if c.quarantined.contains g then s
  else
    let v := min 255 (c.scoreOf g + n)
    let s1 := s.setCore core { c with score := tabSet c.score g v }
    if 128 ≤ v then quarantineLane s1 core g else s1

/-- The oldest recheck of a core retires (19_shroud R418): its flags and its scalar result land. -/
def retireRecheck (s : State) (core : Nat) (r : Recheck) : State :=
  let c := s.core core
  let s1 := s.setCore core { c with rechecks := c.rechecks.drop 1 }
  let x := s1.slot r.slot
  let y := match r.dest with | some (d, v) => x.landAt d v.val v.poison | none => x
  s1.setSlot r.slot (y.addFlags r.flags)

/-- The core with chunks as they were before some instructions, undone from the newest to the oldest. -/
def undoChunks (c : Core) (rs : List Recheck) : Core :=
  rs.reverse.foldl (fun a r => r.undo.foldl (fun b e => { b with vec := tabSet b.vec e.1 e.2 }) a) c

/-- The physical lane groups that compute for some logical ones of a core (19_shroud R420). -/
def Core.groupsOf (c : Core) (base count : Nat) : List Nat := (List.range count).filterMap fun i => c.laneMap[base + i]?

/-- An event that no execution has resolved (19_shroud R417, R419), of slot q's instruction at pc: the lane groups that took part gain 32, a record of
KIND 0x06 and CAUSE 0x22 tells them, and the context's shroud is killed; for tag 0 that record names no victim, and the end of the context has its own
(R413). How DETAIL shows the groups no rule says (log 33). -/
def unresolved (s : State) (core q : Nat) (pc : Word) (groups : List Nat) : State :=
  let s1 := groups.foldl (suspect core 32) s
  let detail := Config.recheckDetail groups
  if (s1.slot q).shtag = 0 then failContextAt (recordEvent s1 (slotEvent 0x06 0x22 q pc 0 detail)).2 q pc 0x06 0x22 detail
  else failContextAt s1 q pc 0x06 0x22 detail

/-- An unresolved recheck (19_shroud R419): the effects of the slot's unretired instructions are discarded. -/
def recheckUnresolved (s : State) (core : Nat) (r : Recheck) (groups : List Nat) : State :=
  let c := s.core core
  let mine := c.rechecks.filter fun y => y.slot == r.slot
  let s1 := s.setCore core { undoChunks c mine with rechecks := c.rechecks.filter fun y => y.slot != r.slot }
  unresolved s1 core r.slot r.pc groups

/-- The attempts of one lane group at an element group that miss their residue (19_shroud R417): the group, how many, three at most, and after three the
group that missed in its place, if that did. -/
structure ResidueRun where
  group : Nat
  fails : Nat
  other : Option Nat
  deriving DecidableEq, Repr

/-- The attempts that a list tells (19_shroud R417): a number below 8 is a lane group of those that execute, one mention for each mismatch; after three of
it, a number h + 8 says that the healthy group h, another one, missed in its place. Other numbers say nothing. n bounds the list. -/
def residueRuns (own healthy : List Nat) : Nat → List Nat → List ResidueRun
  | 0, _ => []
  | _, [] => []
  | n + 1, g :: l =>
    let more := (l.takeWhile fun h => h == g).length
    let rest := l.drop more
    if own.contains g = false ∨ 8 ≤ g then residueRuns own healthy n l
    else if more < 2 then ⟨g, more + 1, none⟩ :: residueRuns (own.filter (· != g)) healthy n rest
    else
      let other := match rest with | h :: _ => if 8 ≤ h ∧ h - 8 ≠ g ∧ healthy.contains (h - 8) = true then some (h - 8) else none | [] => none
      ⟨g, 3, other⟩ :: residueRuns (own.filter (· != g)) healthy n rest

/-- Whether the attempts of a lane group give no result (19_shroud R417): three have failed, and the other group has too, or there is none. -/
def ResidueRun.lost (healthy : List Nat) (r : ResidueRun) : Bool := r.fails == 3 && (r.other.isSome || !healthy.any fun g => g != r.group)

/-- The lane groups that took part. -/
def ResidueRun.groups (r : ResidueRun) : List Nat := r.group :: r.other.toList

/-- The scores of the mismatches of some attempts (19_shroud R417): 8 for each. -/
def residueScores (core : Nat) (runs : List ResidueRun) (s : State) : State :=
  runs.foldl (fun u r => (List.replicate r.fails r.group ++ r.other.toList).foldl (suspect core 8) u) s

/-- Where the entry that an issue of slot q has taken stands: the first of its queue that is not as it was. -/
def issuedPc (s s1 : State) (q : Nat) : Word := (((s.slot q).vq.find? fun e => !(s1.slot q).vq.contains e).map (·.pc)).getD (s.slot q).pc

/-- What mismatches of the residue check come to (19_shroud R417), at the issue that takes state s to s1 for slot q: each adds 8 to its lane group's score,
and a re-execution gives the result; after three of a group, another healthy one computes it, and where that fails too or none is there, the
effects are discarded as of an unresolved recheck. Which results mismatch no rule lets one predict: the event names them (DESIGN CHOICE, log 33). -/
def residue (s s1 : State) (core q : Nat) (bad : List Nat) : State :=
  let c := s.core core
  let runs := residueRuns (c.groupsOf (s.slot q).laneBase (s.slot q).laneCount) (healthyGroups c) bad.length bad
  let lost := runs.filter (ResidueRun.lost (healthyGroups c))
  if lost = [] then residueScores core runs s1
  else unresolved (residueScores core runs s) core q (issuedPc s s1 q) (lost.flatMap ResidueRun.groups).eraseDups

/-- VECTOR_ISSUE (14_queue R338): an aged recheck takes its beats first (19_shroud R418); k says which entry of the winning slot's queue issues and which
residue checks fail (R417). -/
def execVectorIssue (core : Nat) (k : VectorBeat) (s : State) : Host.Outcome State Fault Refusal :=
  next (if recheckAged (s.core core) then s
    else match issueWinner s core k.place with
      | none => s
      | some (q, t) => landCoreStats (if (t.slot q).due ≠ (s.slot q).due then t else residue s t core q k.bad) core)

/-- The healthy lane groups of a core that a RECHECK_EXECUTION says have executed, in turn (19_shroud R418, R419): three at most. -/
def recheckRan (v : RecheckVote) (c : Core) : List Nat := ((v.groups.filter (healthyGroups c).contains).eraseDups).take 3

/-- RECHECK_EXECUTION (19_shroud R418, R419): the oldest entry of a core's recheck queue executes again, in a beat that no slot uses or, once aged,
ahead of them. The event tells what the comparison gives, which no rule lets one predict (log 33): vote 0 agreement; 1 or 2 that the first or
the second of the lane groups that executed differs from a third; more, no agreement. Its executions have their residue checked (R417). -/
def execRecheckExecution (core : Nat) (v : RecheckVote) (s : State) : Host.Outcome State Fault Refusal :=
  let c := s.core core
  next (match c.rechecks with
    | [] => s
    | r :: _ =>
      if !r.aged && (issueWinner s core 0).isSome then s
      else
        let ran := recheckRan v c
        let runs := residueRuns (ran.drop 1) (healthyGroups c) v.bad.length v.bad
        let lost := runs.filter (ResidueRun.lost (healthyGroups c))
        let s1 := residueScores core runs s
        if lost ≠ [] then recheckUnresolved s1 core r (ran ++ lost.flatMap ResidueRun.groups).eraseDups
        else if v.vote = 0 then retireRecheck s1 core r
        else if v.vote ≤ 2 ∧ ran.length = 3 then suspect core 32 (retireRecheck s1 core r) (ran.getD (v.vote - 1) 0)
        else recheckUnresolved s1 core r ran)

/-- RECHECK_AGE_EXPIRY (19_shroud R418): the oldest entry of a core's recheck queue has waited 256 cycles (log 4). -/
def execRecheckAgeExpiry (core : Nat) (s : State) : Host.Outcome State Fault Refusal :=
  next (match (s.core core).rechecks with
    | [] => s
    | r :: rs => s.setCore core { s.core core with rechecks := { r with aged := true } :: rs })

/-- SUSPECT_SCORE_DECAY (19_shroud R419): every non-zero score falls by one. -/
def execSuspectScoreDecay (s : State) : Host.Outcome State Fault Refusal :=
  next { s with cores := s.cores.map fun e => (e.1, { e.2 with score := e.2.score.map fun g => (g.1, g.2 - 1) }) }

/-- The largest power of two not above a number up to 8, or 0 (19_shroud R420). -/
def powerBelow (n : Nat) : Nat := if 8 ≤ n then 8 else if 4 ≤ n then 4 else if 2 ≤ n then 2 else n

/-- The part of a run of lane groups that a core of n still presents (DEDUCED, log 6). -/
def clipLanes (n base count : Nat) : Nat := min count (n - base)

/-- A context's record of the lane groups of its children, after a remap. -/
def Ctx.clip (n : Nat) (x : Ctx) : Ctx :=
  { x with children := x.children.map fun c => { c with laneCount := clipLanes n c.laneBase c.laneCount } }

/-- The vector contents of a core's logical lane groups under a new map (19_shroud R420): a group that was not presented before has undefined
contents. -/
def remapVec (c : Core) (now : List Nat) (free : Nat) : Core :=
  let old := fun (i : Nat) => match now[i]? with | some p => c.laneMap.findIdx? fun x => x == p | none => none
  let places := (List.range now.length).filterMap fun i => (old i).map fun j => (i, j)
  let vec := places.flatMap fun ij => (c.vec.filter fun e => e.1 / 1280 == ij.2).map fun e => (ij.1 * 1280 + e.1 % 1280, e.2)
  let kept := places.filterMap fun ij => (tabFind c.fresh ij.2).map fun f => (ij.1, f)
  let new := ((List.range now.length).filter fun i => (old i).isNone).map fun i => (i, free + 1280 * i)
  let tags := places.filterMap fun ij => (tabFind c.laneTag ij.2).map fun t => (ij.1, t)
  let rest := c.fresh.filter fun e => 8 ≤ e.1
  { c with
    vec := vec, laneTag := tags, laneMap := now, remapDue := false, remapWait := []
    fresh := (kept ++ new ++ rest).foldl (fun t e => tabSet t e.1 e.2) [] }

/-- Whether a slot still runs the context that a remap waits for. -/
def stillAwaited (s : State) (w : Nat × Nat) : Bool := decide ((s.slot w.1).st ≠ .free) && (s.slot w.1).ctx.id == w.2

/-- The state after slot q executes ERET, IDLE or CTXLD: no remap waits for it any more (19_shroud R420). -/
def leaveRemap (s : State) (q : Nat) : State :=
  let c := s.core (coreOf q)
  s.setCore (coreOf q) { c with remapWait := c.remapWait.filter fun w => w.1 != q }

/-- LANE_GROUP_REMAP (19_shroud R420): once every slot that owned lane groups has executed ERET, IDLE or CTXLD, or has become FREE, the core presents
the lowest healthy groups, a power of two of them, and every slot of it takes VOWNER 0, VDIRTY 0 and the lower VLCAP. -/
def execLaneGroupRemap (core : Nat) (s : State) : Host.Outcome State Fault Refusal :=
  let c := s.core core
  next (if c.remapDue = false ∨ (c.remapWait.any fun w => stillAwaited s w) = true then s
    else
      let healthy := healthyGroups c
      let n := powerBelow healthy.length
      let s1 := s.setCore core (remapVec c (healthy.take n) s.free)
      let s2 := (slotsOfCore core).foldl (fun st q =>
        let x := st.slot q
        let y : Slot :=
          { x with
            vowner := 0, vdirty := 0, vlcap := min x.vlcap (2048 * n), laneCount := clipLanes n x.laneBase x.laneCount, ctx := x.ctx.clip n }
        st.setSlot q y.clampVl) s1
      { s2 with
        free := s.free + 1280 * 8
        images := s2.images.map fun im =>
          if coreOf im.slot = core then { im with laneCount := clipLanes n im.laneBase im.laneCount, ctx := im.ctx.clip n } else im })

/-- SCRATCHPAD_BANK_ARBITRATION (08_stream R223): the order in which banks serve requests changes only when each is served, which the model leaves out (log 4). -/
def execScratchpadBankArbitration (_core : Nat) (s : State) : Host.Outcome State Fault Refusal := next s

end Sys2Proof.Machine
end

