-- ==== Sys2Proof/Machine/Priv.lean ====
section
/-! DEFINITION. The instructions that end or redirect a handler and the kill of a tag: CTXSV, CTXLD, ERET and IDLE (10_context R272 to R275) and
SHKILL (19_shroud R421). -/

namespace Sys2Proof.Machine

/-- Go on in handler mode, else trap with cause 0x01 (10_context R251). -/
def whenHandler (s : State) (q : Nat) (w : Option Nat) (k : State) : State :=
  if (s.slot q).mode = .handler then k else trapWord s q 0x01 w

/-- Go on once the handler's own work is done: its stores, which may alter the image, are performed, and its queues are empty (DEDUCED, log 34). -/
def whenDrained (s : State) (q : Nat) (k : State) : State :=
  if storePending s q || !vectorIdle s q || !tilesIdle s q then s.stallSlot q .retry else k

/-- CTXSV (10_context R272). -/
def execCtxsv (d a : BitVec 6) (s : State) : Host.Outcome State Fault Refusal :=
  let q := s.cur
  let x := s.me
  let w := encode (.ctxsv d a)
  let n := (x.val a.toNat).toNat
  let fin := fun (st : State) (v : Word) => st.finish q d.toNat v none
  next (needLevel s q .supervisor w <| whenReady s q [d.toNat, a.toNat] <| unlessPoisoned s q [a.toNat] <|
    if 8191 < n ∨ slotQuarantined s n = true then fin s 3
    else if (s.slot n).st = .free then fin s 1
    else fin (postRequest s n ⟨x.prio, true, q⟩) (if (s.slot n).request.isSome then 2 else 0))

/-- The served context of a slot's handler ends (13_group R312; 12_kernel R305): its image is no longer VALID, and its operations in flight hold its
group back; their counts go on falling in the image (10_context R256). -/
def endServed (s : State) (q : Nat) : State :=
  match csaKey s q with
  | none => s
  | some k =>
    match (s.slot q).ctx.work with
    | .leaf n i => invalidateImage (moveHome s (.image k) (.ended n i (some k))) k
    | _ => invalidateImage (moveHome s (.image k) .gone) k

/-- The served context of a handler leaves the slot (10_context R252): it ends with its leaf group, or rests in its image. -/
def leaveServed (s : State) (q : Nat) : State := if (s.slot q).ctx.ending then endServed s q else yieldImage s q

/-- The handler's slot becomes FREE (10_context R265, R275), and is kept while the leaf group of an ended context waits (13_group R312). -/
def freeHandler (s : State) (q : Nat) : State :=
  let x := s.slot q
  let s1 := leaveServed s q
  let s2 := match x.ctx.ending, x.ctx.work with
    | true, .leaf n i => keepFor s1 n i q
    | _, _ => s1
  releaseSlot (leaveRemap s2 q) q

/-- ERET (10_context R265, R274): it yields after cause 0x21 or with a latched request, else it loads the image. The handler's cause is TRAPCAUSE as it
stands at ERET (DESIGN CHOICE, log 113); the image is the one that CSABASE names then, and an SWR of it leaves the slot the work of the context that it
served (DESIGN CHOICE, log 106). -/
def execEret (s : State) : Host.Outcome State Fault Refusal :=
  let q := s.cur
  let x := s.me
  let w := encode .eret
  next (needLevel s q .supervisor w <| outsideRep s q w <| whenHandler s q w <| whenDrained s q <|
    match csaKey s q with
    | none => failServed s q 0x0D
    | some k =>
      if x.ctx.ending then freeHandler s q
      else if x.trapCause = 0x21 ∨ x.request.isSome then dispatchOne (freeHandler s q) (dieOf q) (some q)
      else
        match load s q (scalarAgent s q) x.csaBase with
        | .ok s1 => compete (leaveRemap s1 q) q
        | .error none => s.stallSlot q .retry
        | .error (some (c, aux)) =>
          if c = 0x09 ∨ c = 0x0A then failServed s q 0x0D
          else
            (leaveRemap s q).setSlot q
              (x.enterHandler x.level (physWord s k) (physWord s (k + 8)) ⟨c, physWord s (k + 0x10), 0, aux, false, false⟩ false))

/-- IDLE (10_context R275). -/
def execIdle (s : State) : Host.Outcome State Fault Refusal :=
  let q := s.cur
  let w := encode .idle
  next (needLevel s q .supervisor w <| outsideRep s q w <| whenHandler s q w <| whenDrained s q <| freeHandler s q)

/-- The context that an image has brought into a slot by CTXLD: the one that the device knows by the image's key, or one that is a source of its own
(14_queue R334). Its running priority is its PRIO (DESIGN CHOICE, log 4). -/
def adoptImage (s : State) (q key : Nat) : State :=
  let x := s.slot q
  if x.st = .free then s
  else
    match s.images.find? fun im => im.key == key with
    | none => newContext s q x.prio.toNat
    | some im =>
      { s.setSlot q { x with ctx := im.ctx, runPrio := x.prio.toNat, order := s.nextOrder } with
        nextOrder := s.nextOrder + 1, images := s.images.filter fun im => im.key != key }

/-- Whether a context that the device knows by its image may resume in a slot (13_group R309, R316): a held one in the slot that it left; one of a leaf
group, an EFORK sibling and an issuer that waits for one in their core. -/
def imageAdmits (im : Image) (q : Nat) : Bool :=
  let e := resumeEntry im 0 false
  (match e.slot with | some p => p == q | none => true) && (match e.core with | some k => k == coreOf q | none => true)

/-- The lane groups with which slot q takes a context by CTXLD (13_group R316): a held context its own; none, where those of the slot are held for
its served context; else those of the slot. -/
def ctxldLanes (s : State) (q : Nat) (im : Option Image) : Nat × Nat :=
  let x := s.slot q
  match im.map fun i => (i.held, i.laneBase, i.laneCount) with
  | some (true, b, n) => (b, n)
  | _ =>
    if !x.ctx.ending && (x.ctx.children != [] || (x.ctx.parent.isSome && !x.ctx.sibling)) then (x.laneBase, 0) else (x.laneBase, x.laneCount)

/-- CTXLD (10_context R273): Load of another image, after which the served context rests in its own. An image that R309 or R316 ties to another slot or core
fails as a malformed one does (DESIGN CHOICE, log 103). A request latched for the slot stays pending there (DESIGN CHOICE, log 114). -/
def execCtxld (d a : BitVec 6) (s : State) : Host.Outcome State Fault Refusal :=
  let q := s.cur
  let x := s.me
  let w := encode (.ctxld d a)
  let c := x.val a.toNat
  let ag := scalarAgent s q
  let lanes := fun (st : State) (l : Nat × Nat) => st.setSlot q { st.slot q with laneBase := l.1, laneCount := l.2 }
  next (needLevel s q .supervisor w <| whenHandler s q w <| whenReady s q [d.toNat, a.toNat] <| unlessPoisoned s q [a.toNat] <|
    whenDrained s q <|
      let key := keyOfVa s ag c.toNat .read
      let own := csaKey s q == some key
      let im := if own then none else s.images.find? fun i => i.key == key
      let l := if own then (x.laneBase, x.laneCount) else ctxldLanes s q im
      match load (lanes s l) q ag c with
      | .error none => s.stallSlot q .retry
      | .error (some (cause, _)) => s.finish q d.toNat (BitVec.ofNat 64 cause) none
      | .ok s1 =>
        if own then compete (leaveRemap s1 q) q
        else if (im.map fun i => imageAdmits i q) = some false then s.finish q d.toNat 1 none
        else
          match load (lanes (leaveServed s q) l) q ag c with
          | .ok s2 => compete (adoptImage (leaveRemap s2 q) q key) q
          | .error _ => s1)

/-- SHKILL (19_shroud R421): the kill of a tag with its record. A kill that names the issuer's own tag ends the issuer, and one that strikes a frozen unit
stalls (21_device R438). -/
def execShkill (a : BitVec 6) (s : State) : Host.Outcome State Fault Refusal :=
  let q := s.cur
  let x := s.me
  let w := encode (.shkill a)
  let v := x.val a.toNat
  next (needLevel s q .supervisor w <| whenReady s q [a.toNat] <| unlessPoisoned s q [a.toNat] <|
    if v = 0 ∨ wbits v 63 10 ≠ 0 then trap s q 0x01 0 v
    else
      let tag : STag := BitVec.ofNat 10 v.toNat
      if killFrozen s tag then s.stallSlot q .retry else
      let r := killTag s tag
      let s1 := (recordEvent r.2 (slotEvent 0x08 0 q x.pc (victimWord tag x.asid r.1) 0)).2
      if slotAlive s1 q then s1.complete q else s1)

end Sys2Proof.Machine
end

