-- ==== Sys2Proof/Machine/Links.lean ====
section
/-! DEFINITION. What arrives from outside the package (20_link R422 to R434): host accesses, the CXL ports, and the Muaris links. -/

namespace Sys2Proof.Machine

/-- The inbound window w of a source (20_link R433; 21_device R436): base and length words. -/
def inboundWindow (s : State) (source w : Nat) : Word × Word := tabGet s.mgmt.windows (0, 0) (source * 16 + w)

/-- Whether n bytes at a physical address pass the inbound windows of a source (20_link R433). -/
def windowPasses (s : State) (source pa n : Nat) (rd wr : Bool) : Bool :=
  (List.range 16).any fun w =>
    let x := inboundWindow s source w
    let base := wbits x.1 51 12 * 4096
    let len := wbits x.2 51 12 * 4096
    decide (base ≤ pa) && decide (pa + n ≤ base + len) && (!rd || x.2.getLsbD 0) && (!wr || x.2.getLsbD 1)

/-- Whether n bytes at a local physical address lie in memory, the notify area or the management window (20_link R422; log 3). -/
def localOk (s : State) (pa n : Nat) : Bool :=
  (List.range n).all fun i => isHbm (pa + i) || isCxl s (pa + i) || isNotify s (pa + i) || isWindow (pa + i)

/-- A write that arrives from outside the package at a local physical address (14_queue R325; 20_link R424, R431). -/
def inboundWrite (s : State) (pa : Nat) (bytes : List Byte) : State :=
  if isNotify s pa then notifyWrite s (pa - s.notify.toNat) bytes true else writeKey s .gone (deviceAgent 0 0) pa bytes none

/-- An access of the host that is refused (19_shroud R415; 20_link R434): ADDR is the physical address or the BAR offset, with the BAR number. -/
def hostRefused (s : State) (port bar addr : Nat) : State := (recordEvent s (portEvent 0x0F 13 port bar addr false)).2

/-- A host write with EP set (20_link R424; 19_shroud R411): the granules become poisoned under a new record of KIND 0x01; where memory cannot hold
poison it is a sink. -/
def hostPoison (s : State) (port key : Nat) (bytes : List Byte) : State :=
  let r := recordEvent s (portEvent 0x01 13 port 0 (key / 64 * 64) true)
  writeKey r.2 .gone (deviceAgent 0 0) key bytes (some (BitVec.ofNat 12 r.1))

/-- A write of the host, or of a replay run in its place, at a physical address (20_link R422, R424): its data, poisoned where EP is set. -/
def hostWrite (s : State) (port pa : Nat) (bytes : List Byte) (ep : Bool) : State :=
  let s1 := captureData s port pa true ep bytes
  if ep then hostPoison s1 port pa bytes
  else if isWindow pa then mgmtWrite s1 (pa - windowBase) bytes
  else inboundWrite s1 pa bytes

/-- A read of the host at a physical address (20_link R424): its completion carries EP where a granule is poisoned, and makes no record. -/
def hostRead (s : State) (port pa n : Nat) : State :=
  let g := readKey s pa n
  { g.st with out := g.st.out ++ [.completion port g.bytes g.poison.isSome] }

/-- The physical address of an offset of a BAR, with the size of what the BAR shows, for a port (20_link R422): BAR4 shows as much of the local map as the
host has granted. -/
def barPlace (s : State) (port bar : Nat) : Option (Nat × Nat) :=
  match bar with
  | 0 => some (windowBase, 2 ^ 26)
  | 2 => some (s.notify.toNat, 2 ^ 24)
  | 4 => some (0, tabGet s.bar4 (2 ^ 44) port)
  | _ => none

/-- An access of the host, or of the expander of a CXL port, that is refused (19_shroud R415; 20_link R434): the record, whose ADDR is the physical address
or the BAR offset, with the BAR of a host port, and the answer. -/
def portRefused (s : State) (port bar addr : Nat) : State :=
  if port = 0 ∨ port = 3 then { hostRefused s port bar addr with out := (hostRefused s port bar addr).out ++ [.unsupported port] }
  else { hostRefused s port 0 addr with out := (hostRefused s port 0 addr).out ++ [.cxlError port] }

/-- HOST_INBOUND_ACCESS (20_link R422, R424, R433, R434): an access of size bytes at an offset of a BAR; v holds the bytes of a write, and ep is its EP bit.
Inbound windows govern BAR4 (DEDUCED, log 35). Under RERUN traffic is refused (21_device R442). What the expander of a CXL port asks of this package
lies outside every decoder. -/
def execHostInboundAccess (port bar off size : Nat) (wr : Bool) (v : List Byte) (ep : Bool) (s : State) : Host.Outcome State Fault Refusal :=
  let source := if port = 0 then 0 else 1
  let n := if wr then v.length else size
  next (if s.mgmt.phase < 3 ∨ s.hostDown.contains port = true ∨ n = 0 then s
    else if s.mgmt.rerun = true ∨ ¬ (port = 0 ∨ port = 3) then portRefused s port bar off
    else match barPlace s port bar with
      | none => portRefused s port bar off
      | some (base, len) =>
        if len < off + n ∨ (bar = 4 ∧ (localOk s off n = false ∨ windowPasses s source off n (!wr) wr = false)) then portRefused s port bar off
        else if wr then hostWrite s port (base + off) v ep
        else hostRead s port (base + off) n)

/-- HOST_LINK_DOWN (20_link R424): inbound traffic of the port stops and its queued MSI-X writes are dropped. -/
def execHostLinkDown (port : Nat) (s : State) : Host.Outcome State Fault Refusal :=
  next { s with
    hostDown := if s.hostDown.contains port then s.hostDown else s.hostDown ++ [port]
    msix := s.msix.filter fun m => m.1 != port }

/-- The keys of a CXL port's frames (20_link R425; log 3). -/
def cxlHolds (s : State) (port key : Nat) : Bool := isCxl s key && cxlPort (cxlPlace s key) == port

/-- CXL_PORT_FAILURE (20_link R426): the frames behind the port are unreadable, their pages become POISONED, and writes in flight to them are lost;
the port stays out of service. A page is a frame of the port where a byte of it lies there, whatever the interleaving. -/
def execCxlPortFailure (port : Nat) (s : State) : Host.Outcome State Fault Refusal :=
  next (if (tabFind s.deadPorts (cxlIndex port)).isSome then s
    else
      let r := recordEvent s (portEvent 0x01 13 port 0 0 true)
      let tag : PTag := BitVec.ofNat 12 r.1
      let s1 := { r.2 with deadPorts := tabSet r.2.deadPorts (cxlIndex port) tag, quarUnits := r.2.quarUnits ++ [(13, port)] }
      let s2 := poisonPages s1 (fun a n => (List.range (n / 256)).any fun i => cxlHolds s port (a + 256 * i)) tag
      loseAll { s2 with stores := s2.stores.filter fun a => !cxlHolds s port a.key }
        ((s2.stores.filter fun a => cxlHolds s port a.key).map fun a => (a.home, a.tag)) (portEvent 0x03 13 port 0 0 false))

/-- Poison that arrives with a read of a granule of CXL memory (19_shroud R410; 11_page R286): a record of KIND 0x0E; the completion is captured
(21_device R441; log 58). -/
def cxlPoisoned (s : State) (pa : Nat) : State :=
  let k := keyOfPa s pa
  let port := cxlPort (cxlPlace s k)
  let at_ := pa / 64 * 64
  let r := recordEvent (captureData s port at_ false true (physRead s (k / 64 * 64) 64)) (portEvent 0x0E 13 port 0 at_ true)
  { r.2 with poison := tabPut r.2.poison (k / 64) (lowerTag (some (BitVec.ofNat 12 r.1)) (tabFind r.2.poison (k / 64))) }

/-- CXL_POISON_RECEIVED (19_shroud R410). Under RERUN it is refused (21_device R442). -/
def execCxlPoisonReceived (pa : Nat) (s : State) : Host.Outcome State Fault Refusal :=
  let k := keyOfPa s pa
  next (if isCxl s k = false then s
    else if s.mgmt.rerun = true then portRefused s (cxlPort (cxlPlace s k)) 0 pa
    else cxlPoisoned s pa)

/-- The new value of a request's AMO on 8 bytes, in the order of 09_guard R246. The layout of a request header is not given (log 8). -/
def requestAmo (code old x : Nat) : Nat :=
  (match code with
  | 0 => old + x
  | 1 => x
  | 2 => if signedOf 64 old ≤ signedOf 64 x then old else x
  | 3 => if signedOf 64 old ≤ signedOf 64 x then x else old
  | 4 => min old x
  | 5 => max old x
  | 6 => old &&& x
  | 7 => old ||| x
  | _ => old ^^^ x) % 2 ^ 64

/-- A request of another package, as a header and the DATA of its flit hold it (20_link R427): its layout is not given (DESIGN CHOICE, log 8). Word 0 holds
what it asks in bits 63:60, none 0, read 1, write 2, or an AMO from 3 on in the order of 09_guard R246; its bytes in 59:52; its physical address in 51:0.
Word 1 holds the operand of an AMO on 8 bytes, or in bits 1:0 the DATA granule of a write. -/
structure LinkReq where
  op : Nat
  pa : Nat
  bytes : List Byte
  deriving DecidableEq, Repr

/-- The request of a header. -/
def linkReq (data : List Word) (w0 w1 : Word) : LinkReq :=
  let op := wbits w0 63 60
  let pa := wbits w0 51 0
  let n := if 3 ≤ op then 8 else wbits w0 59 52
  let granule := ((data.drop (8 * wbits w1 1 0)).take 8).flatMap fun w => leBytes 8 w.toNat
  ⟨op, pa, if op = 1 then List.replicate n 0 else if 3 ≤ op then leBytes 8 w1.toNat else (granule.drop (pa % 64)).take n⟩

/-- Whether a request stays in one granule, an atomic in an aligned word of 8 bytes (20_link R427; 09_guard R246). -/
def LinkReq.fits (r : LinkReq) : Bool := r.bytes != [] && decide (r.pa % 64 + r.bytes.length ≤ 64) && (decide (r.op ≤ 2) || (r.pa % 8 == 0 && decide (r.op ≤ 11)))

/-- A write of another package, or of a replay run in its place, at a local physical address. -/
def linkWrite (s : State) (l pa : Nat) (bytes : List Byte) : State := inboundWrite (captureInbound s (16 + l) pa true bytes) pa bytes

/-- One request of another package (20_link R427, R431, R433, R434): a read is answered, with the data of a flit, and a refused request by an error-response
flit. What an AMO leaves is captured as a write of it (log 58). -/
def linkRequest (l : Nat) (s : State) (r : LinkReq) : State :=
  let pa := keyOfPa s r.pa
  let x := s.link l
  if r.op = 0 then s
  else if s.mgmt.rerun = true ∨ r.fits = false ∨ isRemote pa = true ∨ localOk s pa r.bytes.length = false ∨
      windowPasses s (2 + l) pa r.bytes.length (r.op != 2) (r.op != 1) = false then
    let s1 := (recordEvent s (portEvent 0x0F 14 l 0 r.pa false)).2
    { s1 with out := s1.out ++ [.flit l 3 x.tx x.rx r.pa []] }
  else if r.op = 1 then
    let g := readKey s pa r.bytes.length
    { g.st with out := g.st.out ++ [.flit l 0 x.tx x.rx r.pa g.bytes] }
  else if r.op = 2 then linkWrite s l pa r.bytes
  else
    let g := readKey s pa 8
    let new := leBytes 8 (requestAmo (r.op - 3) (leNat g.bytes) (leNat r.bytes))
    writeKey (captureInbound g.st (16 + l) pa true new) .gone (deviceAgent 0 0) pa new g.poison

/-- Whether an ACK covers a flit that the sender's replay buffer of 1,024 may hold (20_link R428). -/
def MLink.covered (x : MLink) (ack : BitVec 12) (n : Nat) : Bool := decide ((ack - x.acked).toNat ≤ 1024) && decide (n ≤ (ack - x.acked).toNat)

/-- The sender's replay buffer is freed up to an ACK (20_link R428). -/
def MLink.takeAck (x : MLink) (ack : BitVec 12) : MLink := if x.covered ack 1 then { x with acked := ack, replays := 0 } else x

/-- The flits of a link sent again from the last ACK, in order (20_link R428, R429). -/
def replayFlits (s : State) (l : Nat) : State := { s with out := s.out ++ (replayBuffer s l).map (Sent.flit s) }

/-- The state with the ACK of a flit taken on link l: what it covers needs no replay any more, and flits that waited for a place in the replay buffer are
sent (20_link R428). -/
def takeAck (s : State) (l : Nat) (ack : BitVec 12) : State :=
  let x := s.link l
  let s1 := { s.setLink l (x.takeAck ack) with sent := s.sent.filter fun e => e.link != l || !x.covered ack (e.seq - x.acked).toNat }
  let stood := replayBuffer s l
  if x.live then { s1 with out := s1.out ++ ((replayBuffer s1 l).filter fun e => !stood.contains e).map (Sent.flit s1) } else s1

/-- A NAK at the sender (20_link R428): it replays from the flit after the ACK; eight consecutive replays of one flit retrain the link. -/
def takeNak (s : State) (l : Nat) (ack : BitVec 12) : State :=
  let s1 := takeAck s l ack
  let y := s1.link l
  if 8 ≤ y.replays + 1 then s1.setLink l { y with st := .retraining, replays := 0, fails := 0 }
  else replayFlits (s1.setLink l { y with replays := y.replays + 1 }) l

/-- A NAK sent (20_link R428): its ACK names the last good flit, and flits are discarded until the one after it comes. -/
def sendNak (s : State) (l : Nat) : State :=
  let x := s.link l
  { s.setLink l { x with nak := true } with out := s.out ++ [.flit l 1 x.tx x.rx 0 []] }

/-- The bytes of a flit that its CRC covers (20_link R427). -/
def flitBytes (head rsv : Word) (data req : List Word) (zero : Word) : List Byte :=
  (head :: rsv :: data ++ req ++ [zero]).flatMap fun w => leBytes 8 w.toNat

/-- FLIT_RECEIVE (20_link R427, R428, R434): the 256 bytes of a flit, as the words of its head (SEQ with TYPE, ACK, CREDIT), DATA, REQ and the last 16
bytes. A CRC mismatch or a gap discards it and sends a NAK, once for a gap; a data flit that is intact and next in order is delivered once, and one that
was delivered before is not again. NAK, idle and error-response flits carry an ACK too; a flit of a reserved TYPE does nothing. -/
def execFlitReceive (link : Nat) (head rsv : Word) (data req : List Word) (tail : BitVec 128) (s : State) : Host.Outcome State Fault Refusal :=
  let seq := BitVec.ofNat 12 (wbits head 11 0)
  let ty := wbits head 15 12
  let ack := BitVec.ofNat 12 (wbits head 27 16)
  let zero : Word := tail.truncate 64
  let intact := Config.flitCrc (flitBytes head rsv data req zero) == (tail.ushiftRight 64).truncate 64
  let x := s.link link
  next (if x.live = false then s
    else if intact = false then sendNak s link
    else
      let s1 := s.setLink link { x with credits := x.credits + wbits head 63 32 }
      if ty = 1 then takeNak s1 link ack
      else if ty = 2 ∨ ty = 3 then takeAck s1 link ack
      else if ty ≠ 0 then s
      else if seq = x.rx + 1 then
        let s2 := takeAck s1 link ack
        [linkReq data (wordAt req 0) (wordAt req 1), linkReq data (wordAt req 2) (wordAt req 3)].foldl (linkRequest link)
          (s2.setLink link { s2.link link with rx := seq, nak := false })
      else if (x.rx - seq).toNat < 1024 then takeAck s1 link ack
      else if x.nak then s
      else sendNak s1 link)

/-- NAK_RECEIVE (20_link R428). -/
def execNakReceive (link : Nat) (ack : BitVec 12) (s : State) : Host.Outcome State Fault Refusal :=
  next (if (s.link link).live = false then s else takeNak s link ack)

/-- A failed training (20_link R429): the fourth in a row quarantines the link, and what it held is lost (R432). -/
def trainingFailed (s : State) (l : Nat) : State :=
  let x := s.link l
  if x.fails < 3 then s.setLink l { x with fails := x.fails + 1 }
  else
    let r := recordEvent s (portEvent 0x04 14 l 0 0 true)
    let y : MLink := { x with st := .quarantined, fails := 4, record := BitVec.ofNat 12 r.1 }
    linkLost { r.2.setLink l y with
      quarUnits := r.2.quarUnits ++ [(14, l)], mgmt := { r.2.mgmt with quar := min 255 (r.2.mgmt.quar + 1) } } l (BitVec.ofNat 12 r.1)

/-- Whether a link is in training (20_link R429). -/
def MLink.trains (x : MLink) : Bool := x.st == .training || x.st == .retraining

/-- LINK_TRAINING_RESULT (20_link R429): at UP and DEGRADED replay resumes from the last ACK. -/
def execLinkTrainingResult (link lanes : Nat) (s : State) : Host.Outcome State Fault Refusal :=
  let x := s.link link
  next (if x.trains = false ∨ 16 < lanes then s
    else if lanes = 16 then replayFlits (s.setLink link { x with st := .up, fails := 0 }) link
    else if 8 ≤ lanes then replayFlits (s.setLink link { x with st := .degraded, fails := 0 }) link
    else trainingFailed s link)

/-- LINK_TRAINING_TIMEOUT (20_link R429): 10 ms without a result. -/
def execLinkTrainingTimeout (link : Nat) (s : State) : Host.Outcome State Fault Refusal :=
  next (if (s.link link).trains then trainingFailed s link else s)

/-- LANE_LOST (20_link R429). -/
def execLaneLost (link : Nat) (s : State) : Host.Outcome State Fault Refusal :=
  let x := s.link link
  next (if x.live then s.setLink link { x with st := .retraining, fails := 0 } else s)

/-- ERROR_RESPONSE_RECEIVED (20_link R434): the answer to a request of this package. A read returns poison under a record of KIND 0x0F; a write or AMO
kills its issuing tag, or for tag 0 ends the context that a write of the address still unacknowledged names (19_shroud R413). Under RERUN it is
refused (21_device R442). -/
def execErrorResponseReceived (link pa : Nat) (wr : Bool) (tag : Nat) (s : State) : Host.Outcome State Fault Refusal :=
  let k := keyOfPa s pa
  next (if isRemote k = false then s
    else if s.mgmt.rerun = true then (recordEvent s (portEvent 0x0F 14 link 0 pa false)).2
    else if wr then
      let e := portEvent 0x0F 14 link 0 pa false
      if tag % 1024 = 0 then
        (let s1 := (recordEvent s e).2
        let e3 := { e with kind := 0x03 }
        match s1.sent.find? fun x => x.link == link && x.tag == 0 && x.key == k with
        | some x => loseWrite { s1 with sent := s1.sent.erase x } x.home 0 e3
        | none => (recordEvent s1 e3).2)
      else failTag s (BitVec.ofNat 10 tag) e
    else
      let r := recordEvent s (portEvent 0x0F 14 link 0 pa true)
      { r.2 with poison := tabPut r.2.poison (k / 64) (some (BitVec.ofNat 12 r.1)) })

/-- The parts of an inbound write that a replay run holds next (21_device R442), from captureData: its source, whether its data is poisoned, its address,
its bytes, and the run past them. n bounds the parts. -/
def replayWrite : Nat → State → Option (Nat × Bool × Nat × List Byte × State)
  | 0, _ => none
  | n + 1, s =>
    match replayEntry s with
    | some (3, src, data) =>
      if (src / 2 ^ 16).testBit 0 = false then none
      else
        let part := (data.drop 8).take (src / 2 ^ 32 % 2 ^ 8)
        let at_ := leNat (data.take 8) + src / 2 ^ 24 % 2 ^ 8
        let head := (src % 2 ^ 16, (src / 2 ^ 16).testBit 1, at_)
        if (src / 2 ^ 16).testBit 2 = false then some (head.1, head.2.1, head.2.2, part, replayPast s)
        else (replayWrite n (replayPast s)).map fun r => (head.1, head.2.1, head.2.2, part ++ r.2.2.2.1, r.2.2.2.2)
    | _ => none

/-- The next recorded input of a replay run delivered at its point (21_device R442): a write of the host or of a link, poison from a CXL expander, or a
doorbell value from outside. The other entries are followed by what they record. -/
def replayInput (s : State) : State :=
  match replayEntry s with
  | some (2, src, data) => if src / 2 ^ 48 = 1 then doorbell s (src % 2 ^ 48) (BitVec.ofNat 64 (leNat (data.take 8))) true else s
  | some (3, src, data) =>
    (match replayWrite 64 s with
    | some (port, ep, pa, bytes, s1) => if port < 16 then hostWrite s1 port pa bytes ep else linkWrite s1 (port - 16) pa bytes
    | none =>
      if (src / 2 ^ 16).testBit 1 = false then s
      else if src / 2 ^ 24 % 2 ^ 8 = 0 then cxlPoisoned (replayPast s) (leNat (data.take 8)) else replayPast s)
  | _ => s

end Sys2Proof.Machine
end

