-- ==== Sys2Proof/Machine/Units.lean ====
section
/-! DEFINITION. The device as a whole (21_device R435 to R442): its phases, the management window's words as events, and the units that fail
(19_shroud R405 to R410). -/

namespace Sys2Proof.Machine

/-- The event of a unit's failure (19_shroud R415). -/
def unitEvent (kind cls idx sub addr : Nat) (held : Bool) : Event := portEvent kind cls idx sub addr held

/-- A unit leaves service (19_shroud R409): it is listed, counted and recorded with KIND 0x04; HELD where the record's index tags poison (R415): of the
frames behind a stack or a CXL port, or of the reads that a link held. -/
def retireUnit (s : State) (cls idx sub : Nat) : Nat × State :=
  let s1 := { s with
    quarUnits := if s.quarUnits.contains (cls, idx) then s.quarUnits else s.quarUnits ++ [(cls, idx)]
    mgmt := { s.mgmt with quar := min 255 (s.mgmt.quar + 1) } }
  recordEvent s1 (unitEvent 0x04 cls idx sub 0 (cls == 12 || cls == 14 || (cls == 13 && cxlPort (cxlIndex idx) == idx)))

/-- Whether a unit serves a port (08_stream R216; 16_mesh R373; 18_bucket R401): a copy engine, the topology engine that HOME names, the KBU of the
core's cluster or that of the table. -/
def servesPort (s : State) (cls idx core : Nat) (x : Port) : Bool :=
  decide (x.st = .opened ∨ x.st = .bound) &&
    (match cls with
    | 6 => decide (specKind x.spec ≤ 4) && healthyEngine s (engineOf core) == idx
    | 7 => specKind x.spec == 6 && (clusterOfCore core == idx ||
        leNat (vRead s (portAgent s core x) (kTable x.spec + 0xB) 1) == idx)
    | 8 => specKind x.spec == 5 && neighHome s core x == idx
    | _ => false)

/-- Whether a key lies in an HBM stack. -/
def inStack (stack key : Nat) : Bool := isHbm key && key / Config.stackBytes == stack

/-- The operations in flight through a unit, each with the context it belongs to and its tag (19_shroud R409): through an HBM controller the stores to its
stack, through a queue unit the tasks that it has taken. A walk is made whole within one move, so that none is in flight through a page walker. -/
def throughUnit (s : State) (cls idx : Nat) : List (Home × STag) :=
  let ports := s.cores.flatMap fun c => (c.2.ports.filter fun p => servesPort s cls idx c.1 p.2).map fun p =>
    (Home.slot p.2.owner, (s.slot p.2.owner).shtag)
  let copies := if cls = 6 then (s.copies.filter fun c => c.2.engine == idx).map fun c => (c.2.home, c.2.tag) else []
  let cmds := (s.cmds.filter fun c => c.2.kind != .pgmig && cmdClass c.2.kind == cls && c.2.engine == idx).map fun c => (c.2.home, c.2.tag)
  let links := if cls = 7 then (s.claims.filter fun l => clusterOf l.2.slot == idx || physLE s (l.2.key + 0xB) 1 == idx).map fun l =>
      (Home.slot l.2.slot, l.2.agent.tag)
    else []
  let stores := if cls = 12 then (s.stores.filter fun a => inStack idx a.key).map fun a => (a.home, a.tag) else []
  let tasks := if cls = 16 then (s.tasks.filter fun t => t.queue == idx).map fun t => (Home.gone, t.tag) else []
  copies ++ ports ++ cmds ++ links ++ stores ++ tasks

/-- Whether an operation of tag 0 belongs to no context that runs or rests (19_shroud R413): a queue unit's or an ended context's. -/
def forNoContext (h : Home) (tag : STag) : Bool :=
  tag == 0 && match h with | .slot _ | .image _ => false | .ended _ _ _ | .gone => true

/-- The operations of tag 0 for no context that pass through a unit which fails end where they stand (19_shroud R413), and their tasks with them. -/
def dropThrough (s : State) (cls idx : Nat) : State :=
  let copies := if cls = 6 then s.copies.filter fun c => c.2.engine == idx && forNoContext c.2.home c.2.tag else []
  let cmds := s.cmds.filter fun c => c.2.kind != .pgmig && cmdClass c.2.kind == cls && c.2.engine == idx && forNoContext c.2.home c.2.tag
  let s1 := cmds.foldl (fun st c => releaseClaim st c.2) s
  let s2 := { s1 with
    copies := copies.foldl (fun t c => tabDel t c.1) s1.copies, cmds := cmds.foldl (fun t c => tabDel t c.1) s1.cmds
    remaps := cmds.foldl (fun t c => tabDel t c.1) s1.remaps }
  let tasks := if cls = 16 then (s.tasks.filter fun t => t.queue == idx && t.tag == 0).map fun t => (t.queue, t.pos) else []
  (copies.filterMap (fun c => c.2.task) ++ cmds.filterMap (fun c => c.2.task) ++ tasks).foldl (fun st t => match findTask st t.1 t.2 with
    | some u => admitTop (cancelTask st u)
    | none => st) s2

/-- The tags and the tag-0 contexts with operations in flight through a unit that fails are ended (19_shroud R409, R413). -/
def endThrough (s : State) (cls idx : Nat) (ops : List (Home × STag)) : State :=
  dropThrough (loseAll s ops (unitEvent 0x03 cls idx 0 0 false)) cls idx

/-- The objects that a unit which leaves service held become BROKEN (19_shroud R409): the meshes whose HOME is a topology engine, the bucket tables
and projection slots of a KBU. -/
def breakHeld (s : State) (cls idx : Nat) : State :=
  if cls = 8 then
    s.meshes.foldl (fun st m => if mHome (physRead st m.1 64) = idx then breakObject st 8 m.1 else st) s
  else if cls = 7 then
    let s1 := s.tables.foldl (fun st t => if tHome (physRead st t.1 128) = idx then breakObject st 7 t.1 else st) s
    { s1 with
      tables := s1.tables.filter fun t => tHome (physRead s t.1 128) != idx
      proj := s1.proj.filter fun e => e.1 / 64 != idx }
  else s

/-- An HBM stack leaves service (19_shroud R409): every frame of it reads as poisoned, pages mapped to it become POISONED, and stores in flight to it are lost
with their tags. -/
def stackFailed (s : State) (stack : Nat) : State :=
  if (tabFind s.deadStacks stack).isSome then s
  else
    let ops := throughUnit s 12 stack
    let r := retireUnit (endThrough { s with stores := s.stores.filter fun a => !inStack stack a.key } 12 stack ops) 12 stack 0
    let tag : PTag := BitVec.ofNat 12 r.1
    poisonPages { r.2 with deadStacks := tabSet r.2.deadStacks stack tag }
      (fun a n => decide (a < (stack + 1) * Config.stackBytes) && decide (stack * Config.stackBytes < a + n)) tag

/-- The ports of a core that a copy engine serves move on with it; the copies of one that leaves service go to the next healthy engine of the cluster
(19_shroud R409). Those in flight end with their tags. -/
def unitFailed (s : State) (cls idx sub : Nat) : State :=
  if cls = 2 then (if sub < 8 then quarantineLane s idx sub else s)
  else if cls = 12 then stackFailed s idx
  else if s.quarUnits.contains (cls, idx) then s
  else
    let ops := throughUnit s cls idx
    let s1 := match cls with
      | 1 => if slotAlive s idx then failContext s idx 0x03 0 0 else s
      | _ => s
    let r := retireUnit (endThrough s1 cls idx ops) cls idx sub
    let tag : PTag := BitVec.ofNat 12 r.1
    let s2 := match cls with
      | 13 => if cxlPort (cxlIndex idx) = idx then { r.2 with deadPorts := tabSet r.2.deadPorts (cxlIndex idx) tag } else r.2
      | 14 => linkLost (r.2.setLink idx { r.2.link idx with st := .quarantined, record := tag }) idx tag
      | _ => r.2
    breakHeld s2 cls idx

/-- A granule of memory becomes poisoned under a new record (19_shroud R405, R410). -/
def granuleFailed (s : State) (cls idx key : Nat) : State :=
  let r := recordEvent s (unitEvent 0x01 cls idx 0 key true)
  { r.2 with poison := tabPut r.2.poison (key / 64) (lowerTag (some (BitVec.ofNat 12 r.1)) (tabFind r.2.poison (key / 64))) }

/-- A scalar register of a slot becomes poisoned (19_shroud R405). -/
def registerFailed (s : State) (q r : Nat) : State :=
  let e := recordEvent s { slotEvent 0x02 0 q (s.slot q).pc 0 0 with held := true }
  let x := e.2.slot q
  e.2.setSlot q (x.setReg r { x.sreg r with poison := lowerTag (some (BitVec.ofNat 12 e.1)) (x.poisonOf r) })

/-- A chunk of a vector or mask register becomes poisoned (19_shroud R405): by its key. -/
def chunkFailed (s : State) (core key : Nat) : State :=
  let e := recordEvent s (unitEvent 0x02 2 core (key / 1280 % 8) 0 true)
  let c := e.2.core core
  let h := c.chunk key
  e.2.setCore core { c with vec := tabSet c.vec key { h with poison := some ((lowerTag (some (BitVec.ofNat 12 e.1)) (h.poison.map (·.1))).getD 0, -1) } }

/-- An accumulator cell becomes poisoned (19_shroud R405), in the form of the CLASS that its segment's tile gives it (07_tile R181): the cell's own
form, or the tag beside it. -/
def cellFailed (s : State) (core cell : Nat) : State :=
  let e := recordEvent s (unitEvent 0x02 3 core 0 0 true)
  let tag : PTag := BitVec.ofNat 12 e.1
  e.2.setCore core ((e.2.core core).putCell cell { rawWrite false 0 (some tag) with side := some tag })

/-- An entry that can be rebuilt from memory is rebuilt (19_shroud R406): a clean cache line is dropped and fetched again, which leaves a record without HELD
and nothing else. -/
def retried (s : State) (cls idx key : Nat) : State := (recordEvent s (unitEvent 0x01 cls idx 0 key false)).2

/-- A cached translation is dropped (19_shroud R406): the next access of its slice walks the tables again. A refetch that fails again is an error in the
memory of its table entry. -/
def translationRetried (s : State) (walker i : Nat) (again : Bool) : State :=
  match s.tlb[i]? with
  | none => s
  | some e =>
    let s1 := retried { s with tlb := s.tlb.eraseIdx i } 11 walker e.place
    if again then granuleFailed s1 11 walker e.place else s1

/-- The tag that an entry of the control state of a unit records is killed (19_shroud R405); for tag 0 see R413. -/
def entryFailed (s : State) (cls idx : Nat) (h : Home) (tag : STag) : State := loseWrite s h tag (unitEvent 0x03 cls idx 0 0 false)

/-- A reef-log entry is lost (19_shroud R405): its tag is killed; one of tag 0 is only reported (R413). -/
def reefFailed (s : State) (core i : Nat) : State :=
  let c := s.core core
  match tabFind c.reefLog i with
  | some e => entryFailed (s.setCore core { c with reefLog := tabDel c.reefLog i }) 3 core .gone e.tag
  | none => s

/-- The state of a stream port, of whatever kind, is lost (19_shroud R405): by core × 8 + port, at the copy engine that serves the core. -/
def portFailed (s : State) (engine i : Nat) : State :=
  let x := tabGet (s.core (i / 8)).ports Port.reset (i % 8)
  if x.st ≠ .closed ∧ healthyEngine s (engineOf (i / 8)) = engine then entryFailed s 6 engine (.slot x.owner) (s.slot x.owner).shtag else s

/-- A copy slot is lost (19_shroud R405): one of tag 0 for no context that runs or rests ends where it stands, with its task (R413). -/
def copyFailed (s : State) (n : Nat) (c : Copy) : State :=
  if forNoContext c.home c.tag then
    let s1 := { s with copies := tabDel s.copies n }
    entryFailed (match c.task with
      | some t => (match findTask s1 t.1 t.2 with | some u => admitTop (cancelTask s1 u) | none => s1)
      | none => s1) 6 c.engine .gone 0
  else entryFailed s 6 c.engine c.home c.tag

/-- A mesh, partition or bucket table that an error in a unit's state for it concerns becomes BROKEN while it is READY or BUSY (16_mesh R362;
17_partition R381; 18_bucket R392). -/
def objectFailed (s : State) (cls key : Nat) : State :=
  let st := physLE s (key + 2) 1
  if st = 1 ∨ st = 2 then breakObject { s with tables := if cls = 7 then tabDel s.tables key else s.tables } cls key else s

/-- A ready-pool entry is lost (19_shroud R405, R413): its tag is killed; for tag 0 what it was to dispatch ends alone: the context of a resume entry, a
task, a kernel. -/
def poolEntryFailed (s : State) (die i : Nat) (e : PoolEntry) : State :=
  let ev := unitEvent 0x03 10 die 0 0 false
  if e.tag ≠ 0 then failTag s e.tag ev
  else
    let s1 := dropEntry s i
    let report := fun (st : State) => (recordEvent st ev).2
    match e.kind with
    | .resume csa asid => (match s1.images.find? fun im => im.csa == csa && im.asid == asid && !im.parked with
      | some im => loseWrite s1 (.image im.key) 0 ev
      | none => report s1)
    | .task queue pos => report (match findTask s1 queue pos with | some t => admitTop (cancelTask s1 t) | none => s1)
    | .leaf kernel _ => report (endKernel s1 kernel 1)
    | .sibling parent _ _ => report (match (busySlots s1).find? fun x => x.2.ctx.id == parent with
      | some x => (match x.2.ctx.work with | .leaf k j => endLeaf s1 k j | _ => s1)
      | none => (match s1.images.find? fun im => im.ctx.id == parent with
        | some im => (match im.ctx.work with | .leaf k j => endLeaf s1 k j | _ => s1)
        | none => s1))
    | .cont _ _ _ _ _ _ => report s1

/-- UNCORRECTABLE_ERROR (19_shroud R405, R406, R409) in the unit of a class and index of R415. sub names what has failed (log 37):
slot: 0 to 63 a scalar register, 64 its control state, 65 the slot; lane group: the key of a chunk, or past them all the lane group sub mod 8;
matrix unit: a cell, past them an entry of its tile queue, past those an entry of its reef log; scratchpad and HBM: a granule; die cache: twice a
granule for dirty data, and one more for clean data, and from 2^56 on the address or state bits of a line of the tag that is left; page walker, 64 of
compute die d from index 64 d on (log 88): 0 the walker, odd a cached translation, by twice its place and one more where its refetch fails again, even a
region entry; copy engine: 0 the engine, odd a copy, even a port;
KBU: 0 the KBU, else by threes a table's key, a claim, a projection slot; topology engine: 0 the engine, else the key of a mesh; trim unit: 0 the
unit, else the key of a partition; ready pool: an entry; any other unit: the unit itself. -/
def execUncorrectableError (cls n sub : Nat) (s : State) : Host.Outcome State Fault Refusal :=
  next (match cls with
    | 1 =>
      if 8191 < n then s
      else if sub = 65 then unitFailed s 1 n 0
      else if slotAlive s n = false then s
      else if sub < 64 then (if sub = 0 then s else registerFailed s n sub)
      else failContext s n 0x03 0 0
    | 2 => if 1023 < n then s else if sub < 8 * 1280 then chunkFailed s n sub else unitFailed s 2 n (sub % 8)
    | 3 =>
      if 1023 < n then s
      else if sub < 16384 then cellFailed s n sub
      else if sub < 16400 then (match (s.core n).tq[sub - 16384]? with
        | some e => entryFailed s 3 n (.slot e.slot) e.tag
        | none => s)
      else reefFailed s n (sub - 16400)
    | 4 => if n < 1024 ∧ sub < 16384 then granuleFailed s 4 n (padKeyOf n (64 * sub)) else s
    | 5 =>
      if n < 8 ∧ 2 ^ 56 ≤ sub then failTag s (BitVec.ofNat 10 (sub % 1024)) (unitEvent 0x03 5 n 0 0 false)
      else if n < 8 ∧ (isHbm (32 * sub) || isCxl s (32 * sub)) = true then
        (if sub % 2 = 0 then granuleFailed s 5 n (32 * sub) else (retried s 5 n (32 * (sub - 1))))
      else s
    | 6 =>
      if sub = 0 then (if n < 256 then unitFailed s 6 n 0 else s)
      else if sub % 2 = 1 then (match tabFind s.copies (sub / 2) with
        | some c => copyFailed s (sub / 2) c
        | none => s)
      else portFailed s n (sub / 2 - 1)
    | 7 =>
      if sub = 0 then (if n < 16 then unitFailed s 7 n 0 else s)
      else if sub % 3 = 1 then objectFailed s 7 (sub / 3)
      else if sub % 3 = 2 then (match tabFind s.claims (sub / 3) with
        | some k =>
          if physLE s (k.key + 0xB) 1 = n then entryFailed { s with klinks := tabDel s.klinks (sub / 3) } 7 n (.slot k.slot) k.agent.tag else s
        | none => s)
      else (match tabFind s.proj (64 * n + (sub / 3 - 1) % 64) with
        | some p => entryFailed { s with proj := tabDel s.proj (64 * n + (sub / 3 - 1) % 64) } 7 n .gone p.tag
        | none => s)
    | 8 =>
      if sub = 0 then (if n < 8 then unitFailed s 8 n 0 else s)
      else objectFailed s 8 (sub - 1)
    | 9 => if n < 8 then unitFailed s 9 n 0 else s
    | 10 => (match (entriesOf s n)[sub]? with
      | some e => poolEntryFailed s n e.1 e.2
      | none => s)
    | 11 =>
      if unitCount 11 ≤ n then s
      else if sub = 0 then unitFailed s 11 n 0
      else if sub % 2 = 1 then translationRetried s n (sub / 4) (sub / 2 % 2 == 1)
      else (match s.regions[sub / 2 - 1]? with
        | some r => entryFailed { s with regions := s.regions.eraseIdx (sub / 2 - 1) } 11 n .gone r.2.tag
        | none => s)
    | 12 => if n < 12 then (if sub = 0 then unitFailed s 12 n 0 else granuleFailed s 12 n (n * Config.stackBytes + 64 * (sub - 1))) else s
    | 15 =>
      if sub = 0 then unitFailed s 15 0 0
      else objectFailed s 15 (sub - 1)
    | 16 => if n < unitCount 16 then unitFailed s 16 n 0 else s
    | _ => s)

/-- SHROUD_KILL (19_shroud R407): a tag is killed because tagged state of it is lost, with a record of KIND 0x03 that names die cache 0 (DESIGN CHOICE, log
37). No kill names tag 0. A unit that a freeze holds keeps it waiting (21_device R438). -/
def execShroudKill (tag : Nat) (s : State) : Host.Outcome State Fault Refusal :=
  next (if tag = 0 ∨ 1023 < tag then s else failTag s (BitVec.ofNat 10 tag) (unitEvent 0x03 5 0 0 0 false))

/-- POWER_ON (21_device R435): as device reset, and memory holds what it does after power-on (log 2). -/
def execPowerOn (s : State) : Host.Outcome State Fault Refusal := next { deviceReset s with mem := [], poison := [] }

/-- PERST on both host ports (21_device R435). -/
def execPerst (s : State) : Host.Outcome State Fault Refusal := next (deviceReset s)

/-- MCTL_RESET (21_device R435, R437). -/
def execMctlReset (s : State) : Host.Outcome State Fault Refusal := next (deviceReset s)

/-- The state with the units that failed their tests out of service (21_device R435): class and index; a lane group by core × 8 + group. -/
def failedTests (s : State) (bad : List (Nat × Nat)) : State :=
  bad.foldl (fun st b => if b.1 = 2 then (if b.2 < 8192 then quarantineAs 0x04 st (b.2 / 8) (b.2 % 8) else st) else if b.2 < unitCount b.1 then unitFailed st b.1 b.2 0 else st) s

/-- CLOCKS_STABLE (21_device R435): RESET to SELFTEST; each unit is tested. -/
def execClocksStable (bad : List (Nat × Nat)) (s : State) : Host.Outcome State Fault Refusal :=
  next (if s.mgmt.phase = 0 then failedTests { s with mgmt := { s.mgmt with phase := 1 } } bad else s)

/-- SELFTEST_END (21_device R435): SELFTEST to MEMTRAIN. -/
def execSelftestEnd (s : State) : Host.Outcome State Fault Refusal :=
  next (if s.mgmt.phase = 1 then { s with mgmt := { s.mgmt with phase := 2 } } else s)

/-- MEMTRAIN_END (21_device R435; 20_link R422, R425): MEMTRAIN to FIRMWARE; HBM stacks and CXL ports that failed stay out of service, and the CXL range has
the size, the interleaving and the poison support that training has found, BAR4 the size that the host grants. -/
def execMemtrainEnd (badStacks : BitVec 12) (cxlBytes : Nat) (found : Trained) (s : State) : Host.Outcome State Fault Refusal :=
  next (if s.mgmt.phase = 2 then
      let s1 := { s with
        mgmt := { s.mgmt with phase := 3 }, cxlBytes := min cxlBytes (2 ^ 43) / 16384 * 16384
        cxlWays := if found.ways = 2 ∨ found.ways = 4 then found.ways else 1, cxlGran := if found.gran = 256 then 256 else 4096
        cxlPoison := found.poisonPorts, bar4 := found.bar4.foldl (fun t e => tabSet t e.1 e.2) [] }
      let s2 := ((List.range 12).filter fun i => badStacks.getLsbD i).foldl stackFailed s1
      ([1, 2, 4, 5].filter found.badPorts.contains).foldl (fun st p => unitFailed st 13 p 0) s2
    else s)

/-- Go on when the management window answers (21_device R435). -/
def whenWindow (s : State) (k : State) : State := if 3 ≤ s.mgmt.phase then k else s

/-- MCTL_BOOT (21_device R435, R437). -/
def execMctlBoot (s : State) : Host.Outcome State Fault Refusal := next (whenWindow s (mctlBoot s))

/-- MCTL_HINT (21_device R437). -/
def execMctlHint (s : State) : Host.Outcome State Fault Refusal := next (whenWindow s (mctlHint s))

/-- MCTL_FREEZE (21_device R437, R438). -/
def execMctlFreeze (on : Bool) (s : State) : Host.Outcome State Fault Refusal := next (whenWindow s (mctlFreeze s on))

/-- FREEZE_HOLD (21_device R438): the selected unit has stopped, a slot at a landing point, an engine between elements. What a scratchpad holds then is what
the aperture shows of it. -/
def execFreezeHold (s : State) : Host.Outcome State Fault Refusal :=
  let cls := wbits s.mgmt.rbsel 7 0
  let idx := wbits s.mgmt.rbsel 20 8
  let pad := padKeyOf idx 0
  next (if s.mgmt.freeze ∧ (cls ≠ 1 ∨ (s.slot idx).st = .free ∨ atLanding (s.slot idx) = true) then
      { s with mgmt := { s.mgmt with
        frozen := true
        snap := if cls = 4 then s.mem.filter fun c => decide (pad ≤ c.1) && decide (c.1 < pad + Config.padBytes) else []
        snapTags := if cls = 4 then s.sectors else [] } }
    else s)

/-- MCTL_CAPT (21_device R437, R441). -/
def execMctlCapt (on : Bool) (s : State) : Host.Outcome State Fault Refusal := next (whenWindow s (mctlCapt s on))

/-- MCTL_RERUN (21_device R437, R442). -/
def execMctlRerun (on : Bool) (s : State) : Host.Outcome State Fault Refusal := next (whenWindow s (mctlRerun s on))

/-- FWLAUNCH (21_device R436). -/
def execFwlaunch (csa : Word) (s : State) : Host.Outcome State Fault Refusal := next (whenWindow s (fwLaunch s csa))

/-- PBUDGET_WRITE (21_device R439). -/
def execPbudgetWrite (v : Word) (s : State) : Host.Outcome State Fault Refusal := next (whenWindow s (pbudgetWrite s v))

/-- POWER_ARBITRATION (21_device R439, R440): the gates of the eight compute dies, which change only timing. -/
def execPowerArbitration (gates : List Nat) (s : State) : Host.Outcome State Fault Refusal :=
  next (if gates.length = 8 ∧ (gates.all fun g => decide (g ≤ 15)) = true then
      { s with mgmt := { s.mgmt with gates := (((List.range 8).zip gates).filter fun e => e.2 != 0) } }
    else s)

/-- LINKEN (21_device R436; 20_link R429). -/
def execLinken (v : Word) (s : State) : Host.Outcome State Fault Refusal := next (whenWindow s (linkenWrite s v))

/-- ERROR_RECORD_FREE (19_shroud R414). -/
def execErrorRecordFree (n : Nat) (s : State) : Host.Outcome State Fault Refusal :=
  next (whenWindow s (if 1 ≤ n ∧ n ≤ 4095 then errorRecordFree s n else s))

/-- MGMT_REGISTER_WRITE (21_device R436): a word without behaviour of its own. -/
def execMgmtRegisterWrite (off : Nat) (v : Word) (s : State) : Host.Outcome State Fault Refusal :=
  next (whenWindow s (if off % 8 = 0 ∧ off < 2 ^ 26 then mgmtRegWrite s off v else s))

end Sys2Proof.Machine
end

