-- ==== Sys2Proof/Machine/Dispatch.lean ====
section
/-! DEFINITION. The dispatch of an instruction or event to its meaning. -/

namespace Sys2Proof.Machine

/-- The meaning of each instruction and event, acting for the slot State.cur names. -/
def exec (i : Instr) (s : State) : Host.Outcome State Fault Refusal :=
  match i with
  | .add d a b => Sys2Proof.Machine.execAdd d a b s
  | .sub d a b => Sys2Proof.Machine.execSub d a b s
  | .and d a b => Sys2Proof.Machine.execAnd d a b s
  | .or d a b => Sys2Proof.Machine.execOr d a b s
  | .xor d a b => Sys2Proof.Machine.execXor d a b s
  | .andn d a b => Sys2Proof.Machine.execAndn d a b s
  | .shl d a b => Sys2Proof.Machine.execShl d a b s
  | .shr d a b => Sys2Proof.Machine.execShr d a b s
  | .sar d a b => Sys2Proof.Machine.execSar d a b s
  | .mul d a b => Sys2Proof.Machine.execMul d a b s
  | .mulh d a b => Sys2Proof.Machine.execMulh d a b s
  | .mulhz d a b => Sys2Proof.Machine.execMulhz d a b s
  | .div d a b => Sys2Proof.Machine.execDiv d a b s
  | .divz d a b => Sys2Proof.Machine.execDivz d a b s
  | .rem d a b => Sys2Proof.Machine.execRem d a b s
  | .remz d a b => Sys2Proof.Machine.execRemz d a b s
  | .min d a b => Sys2Proof.Machine.execMin d a b s
  | .max d a b => Sys2Proof.Machine.execMax d a b s
  | .minz d a b => Sys2Proof.Machine.execMinz d a b s
  | .maxz d a b => Sys2Proof.Machine.execMaxz d a b s
  | .addsh d a b n => Sys2Proof.Machine.execAddsh d a b n s
  | .sel d a b => Sys2Proof.Machine.execSel d a b s
  | .cmpeq d a b => Sys2Proof.Machine.execCmpeq d a b s
  | .cmplt d a b => Sys2Proof.Machine.execCmplt d a b s
  | .cmpltz d a b => Sys2Proof.Machine.execCmpltz d a b s
  | .clz d a => Sys2Proof.Machine.execClz d a s
  | .ctz d a => Sys2Proof.Machine.execCtz d a s
  | .popc d a => Sys2Proof.Machine.execPopc d a s
  | .bswap d a => Sys2Proof.Machine.execBswap d a s
  | .fadd d a b p => Sys2Proof.Machine.execFadd d a b p s
  | .fsub d a b p => Sys2Proof.Machine.execFsub d a b p s
  | .fmul d a b p => Sys2Proof.Machine.execFmul d a b p s
  | .fdiv d a b p => Sys2Proof.Machine.execFdiv d a b p s
  | .fsqrt d a p => Sys2Proof.Machine.execFsqrt d a p s
  | .fma d a b p => Sys2Proof.Machine.execFma d a b p s
  | .fmin d a b p => Sys2Proof.Machine.execFmin d a b p s
  | .fmax d a b p => Sys2Proof.Machine.execFmax d a b p s
  | .fcmp d a b c p => Sys2Proof.Machine.execFcmp d a b c p s
  | .fcvtDS d a => Sys2Proof.Machine.execFcvtDS d a s
  | .fcvtSD d a => Sys2Proof.Machine.execFcvtSD d a s
  | .fcvtDI64 d a => Sys2Proof.Machine.execFcvtDI64 d a s
  | .fcvtSI64 d a => Sys2Proof.Machine.execFcvtSI64 d a s
  | .fcvtDZ64 d a => Sys2Proof.Machine.execFcvtDZ64 d a s
  | .fcvtSZ64 d a => Sys2Proof.Machine.execFcvtSZ64 d a s
  | .fcvtI64D d a => Sys2Proof.Machine.execFcvtI64D d a s
  | .fcvtI64S d a => Sys2Proof.Machine.execFcvtI64S d a s
  | .fcvtZ64D d a => Sys2Proof.Machine.execFcvtZ64D d a s
  | .fcvtZ64S d a => Sys2Proof.Machine.execFcvtZ64S d a s
  | .addi d a xi => Sys2Proof.Machine.execAddi d a xi s
  | .andi d a xi => Sys2Proof.Machine.execAndi d a xi s
  | .ori d a xi => Sys2Proof.Machine.execOri d a xi s
  | .xori d a xi => Sys2Proof.Machine.execXori d a xi s
  | .shli d a h => Sys2Proof.Machine.execShli d a h s
  | .shri d a h => Sys2Proof.Machine.execShri d a h s
  | .sari d a h => Sys2Proof.Machine.execSari d a h s
  | .cmplti d a xi => Sys2Proof.Machine.execCmplti d a xi s
  | .lih d xi => Sys2Proof.Machine.execLih d xi s
  | .addpc d xi => Sys2Proof.Machine.execAddpc d xi s
  | .ld d a t o => Sys2Proof.Machine.execLd d a t o s
  | .st d a t o => Sys2Proof.Machine.execSt d a t o s
  | .ldacq d a q xs => Sys2Proof.Machine.execLdacq d a q xs s
  | .strel d a q xs => Sys2Proof.Machine.execStrel d a q xs s
  | .acq a xs => Sys2Proof.Machine.execAcq a xs s
  | .rel a xs => Sys2Proof.Machine.execRel a xs s
  | .gbind d a => Sys2Proof.Machine.execGbind d a s
  | .gunbind a => Sys2Proof.Machine.execGunbind a s
  | .gfence xs => Sys2Proof.Machine.execGfence xs s
  | .amoadd d a q c l xs => Sys2Proof.Machine.execAmoadd d a q c l xs s
  | .amoswap d a q c l xs => Sys2Proof.Machine.execAmoswap d a q c l xs s
  | .amocas d a q c l xs => Sys2Proof.Machine.execAmocas d a q c l xs s
  | .amomin d a q c l xs => Sys2Proof.Machine.execAmomin d a q c l xs s
  | .amomax d a q c l xs => Sys2Proof.Machine.execAmomax d a q c l xs s
  | .amominz d a q c l xs => Sys2Proof.Machine.execAmominz d a q c l xs s
  | .amomaxz d a q c l xs => Sys2Proof.Machine.execAmomaxz d a q c l xs s
  | .amoand d a q c l xs => Sys2Proof.Machine.execAmoand d a q c l xs s
  | .amoor d a q c l xs => Sys2Proof.Machine.execAmoor d a q c l xs s
  | .amoxor d a q c l xs => Sys2Proof.Machine.execAmoxor d a q c l xs s
  | .beq a b o => Sys2Proof.Machine.execBeq a b o s
  | .bne a b o => Sys2Proof.Machine.execBne a b o s
  | .blt a b o => Sys2Proof.Machine.execBlt a b o s
  | .bge a b o => Sys2Proof.Machine.execBge a b o s
  | .bltz a b o => Sys2Proof.Machine.execBltz a b o s
  | .bgez a b o => Sys2Proof.Machine.execBgez a b o s
  | .j o => Sys2Proof.Machine.execJ o s
  | .call o => Sys2Proof.Machine.execCall o s
  | .jr a => Sys2Proof.Machine.execJr a s
  | .callr a => Sys2Proof.Machine.execCallr a s
  | .ret => Sys2Proof.Machine.execRet s
  | .loop l c => Sys2Proof.Machine.execLoop l c s
  | .loopr l a => Sys2Proof.Machine.execLoopr l a s
  | .lbrk a => Sys2Proof.Machine.execLbrk a s
  | .rep n t v xs => Sys2Proof.Machine.execRep n t v xs s
  | .wait l xs c t => Sys2Proof.Machine.execWait l xs c t s
  | .fenceSv => Sys2Proof.Machine.execFenceSv s
  | .fenceVs => Sys2Proof.Machine.execFenceVs s
  | .fenceVv => Sys2Proof.Machine.execFenceVv s
  | .bari d a => Sys2Proof.Machine.execBari d a s
  | .bara a xs => Sys2Proof.Machine.execBara a xs s
  | .barw a xs => Sys2Proof.Machine.execBarw a xs s
  | .fwait d a xs => Sys2Proof.Machine.execFwait d a xs s
  | .ffill d a xs => Sys2Proof.Machine.execFfill d a xs s
  | .freset a => Sys2Proof.Machine.execFreset a s
  | .vadd d a b m => Sys2Proof.Machine.execVadd d a b m s
  | .vsub d a b m => Sys2Proof.Machine.execVsub d a b m s
  | .vmul d a b m => Sys2Proof.Machine.execVmul d a b m s
  | .vmulh d a b m => Sys2Proof.Machine.execVmulh d a b m s
  | .vmulhz d a b m => Sys2Proof.Machine.execVmulhz d a b m s
  | .vdiv d a b m => Sys2Proof.Machine.execVdiv d a b m s
  | .vmin d a b m => Sys2Proof.Machine.execVmin d a b m s
  | .vmax d a b m => Sys2Proof.Machine.execVmax d a b m s
  | .vminz d a b m => Sys2Proof.Machine.execVminz d a b m s
  | .vmaxz d a b m => Sys2Proof.Machine.execVmaxz d a b m s
  | .vand d a b m => Sys2Proof.Machine.execVand d a b m s
  | .vor d a b m => Sys2Proof.Machine.execVor d a b m s
  | .vxor d a b m => Sys2Proof.Machine.execVxor d a b m s
  | .vshl d a b m => Sys2Proof.Machine.execVshl d a b m s
  | .vshr d a b m => Sys2Proof.Machine.execVshr d a b m s
  | .vsar d a b m => Sys2Proof.Machine.execVsar d a b m s
  | .vadds d a b m => Sys2Proof.Machine.execVadds d a b m s
  | .vsubs d a b m => Sys2Proof.Machine.execVsubs d a b m s
  | .vabs d a m => Sys2Proof.Machine.execVabs d a m s
  | .vwadd d a b m => Sys2Proof.Machine.execVwadd d a b m s
  | .vwmul d a b m => Sys2Proof.Machine.execVwmul d a b m s
  | .vnshr d a b m => Sys2Proof.Machine.execVnshr d a b m s
  | .vdot4 d a b m => Sys2Proof.Machine.execVdot4 d a b m s
  | .vaddVs d a b m => Sys2Proof.Machine.execVaddVs d a b m s
  | .vsubVs d a b m => Sys2Proof.Machine.execVsubVs d a b m s
  | .vmulVs d a b m => Sys2Proof.Machine.execVmulVs d a b m s
  | .vmulhVs d a b m => Sys2Proof.Machine.execVmulhVs d a b m s
  | .vmulhzVs d a b m => Sys2Proof.Machine.execVmulhzVs d a b m s
  | .vdivVs d a b m => Sys2Proof.Machine.execVdivVs d a b m s
  | .vminVs d a b m => Sys2Proof.Machine.execVminVs d a b m s
  | .vmaxVs d a b m => Sys2Proof.Machine.execVmaxVs d a b m s
  | .vminzVs d a b m => Sys2Proof.Machine.execVminzVs d a b m s
  | .vmaxzVs d a b m => Sys2Proof.Machine.execVmaxzVs d a b m s
  | .vandVs d a b m => Sys2Proof.Machine.execVandVs d a b m s
  | .vorVs d a b m => Sys2Proof.Machine.execVorVs d a b m s
  | .vxorVs d a b m => Sys2Proof.Machine.execVxorVs d a b m s
  | .vshlVs d a b m => Sys2Proof.Machine.execVshlVs d a b m s
  | .vshrVs d a b m => Sys2Proof.Machine.execVshrVs d a b m s
  | .vsarVs d a b m => Sys2Proof.Machine.execVsarVs d a b m s
  | .vaddsVs d a b m => Sys2Proof.Machine.execVaddsVs d a b m s
  | .vsubsVs d a b m => Sys2Proof.Machine.execVsubsVs d a b m s
  | .vwaddVs d a b m => Sys2Proof.Machine.execVwaddVs d a b m s
  | .vwmulVs d a b m => Sys2Proof.Machine.execVwmulVs d a b m s
  | .vnshrVs d a b m => Sys2Proof.Machine.execVnshrVs d a b m s
  | .vdot4Vs d a b m => Sys2Proof.Machine.execVdot4Vs d a b m s
  | .vfadd d a b m => Sys2Proof.Machine.execVfadd d a b m s
  | .vfsub d a b m => Sys2Proof.Machine.execVfsub d a b m s
  | .vfmul d a b m => Sys2Proof.Machine.execVfmul d a b m s
  | .vfdiv d a b m => Sys2Proof.Machine.execVfdiv d a b m s
  | .vfsqrt d a m => Sys2Proof.Machine.execVfsqrt d a m s
  | .vfma d a b m => Sys2Proof.Machine.execVfma d a b m s
  | .vfnms d a b m => Sys2Proof.Machine.execVfnms d a b m s
  | .vfmin d a b m => Sys2Proof.Machine.execVfmin d a b m s
  | .vfmax d a b m => Sys2Proof.Machine.execVfmax d a b m s
  | .vfcvt d a t m => Sys2Proof.Machine.execVfcvt d a t m s
  | .vfcvtSat d a t m => Sys2Proof.Machine.execVfcvtSat d a t m s
  | .vfrec d a m => Sys2Proof.Machine.execVfrec d a m s
  | .vfrsq d a m => Sys2Proof.Machine.execVfrsq d a m s
  | .vfexp2 d a m => Sys2Proof.Machine.execVfexp2 d a m s
  | .vfclass d a m => Sys2Proof.Machine.execVfclass d a m s
  | .vfaddVs d a b m => Sys2Proof.Machine.execVfaddVs d a b m s
  | .vfsubVs d a b m => Sys2Proof.Machine.execVfsubVs d a b m s
  | .vfmulVs d a b m => Sys2Proof.Machine.execVfmulVs d a b m s
  | .vfdivVs d a b m => Sys2Proof.Machine.execVfdivVs d a b m s
  | .vfmaVs d a b m => Sys2Proof.Machine.execVfmaVs d a b m s
  | .vfnmsVs d a b m => Sys2Proof.Machine.execVfnmsVs d a b m s
  | .vfminVs d a b m => Sys2Proof.Machine.execVfminVs d a b m s
  | .vfmaxVs d a b m => Sys2Proof.Machine.execVfmaxVs d a b m s
  | .mand d a b => Sys2Proof.Machine.execMand d a b s
  | .mor d a b => Sys2Proof.Machine.execMor d a b s
  | .mxor d a b => Sys2Proof.Machine.execMxor d a b s
  | .mandn d a b => Sys2Proof.Machine.execMandn d a b s
  | .mpopc d a m => Sys2Proof.Machine.execMpopc d a m s
  | .mffs d a m => Sys2Proof.Machine.execMffs d a m s
  | .msbf d a m => Sys2Proof.Machine.execMsbf d a m s
  | .mset d => Sys2Proof.Machine.execMset d s
  | .mfromv d a m => Sys2Proof.Machine.execMfromv d a m s
  | .mtov d a m => Sys2Proof.Machine.execMtov d a m s
  | .viota d a m => Sys2Proof.Machine.execViota d a m s
  | .vslup d a b m => Sys2Proof.Machine.execVslup d a b m s
  | .vsldn d a b m => Sys2Proof.Machine.execVsldn d a b m s
  | .vperm d a b m => Sys2Proof.Machine.execVperm d a b m s
  | .vcomp d a m => Sys2Proof.Machine.execVcomp d a m s
  | .vexpd d a m => Sys2Proof.Machine.execVexpd d a m s
  | .vmerge d a b m => Sys2Proof.Machine.execVmerge d a b m s
  | .vbcast d a m => Sys2Proof.Machine.execVbcast d a m s
  | .vextr d a b => Sys2Proof.Machine.execVextr d a b s
  | .vins d a b => Sys2Proof.Machine.execVins d a b s
  | .vredsum d a b m => Sys2Proof.Machine.execVredsum d a b m s
  | .vredmax d a b m => Sys2Proof.Machine.execVredmax d a b m s
  | .vredmin d a b m => Sys2Proof.Machine.execVredmin d a b m s
  | .vfredo d a b m => Sys2Proof.Machine.execVfredo d a b m s
  | .vfredu d a b m => Sys2Proof.Machine.execVfredu d a b m s
  | .vfredmax d a b m => Sys2Proof.Machine.execVfredmax d a b m s
  | .vscan d a m => Sys2Proof.Machine.execVscan d a m s
  | .vprune48 d a => Sys2Proof.Machine.execVprune48 d a s
  | .vsetvl d a b => Sys2Proof.Machine.execVsetvl d a b s
  | .vsetvli d a c => Sys2Proof.Machine.execVsetvli d a c s
  | .vgrant d a => Sys2Proof.Machine.execVgrant d a s
  | .vcmp d a b m c => Sys2Proof.Machine.execVcmp d a b m c s
  | .vcmpVs d a b m c => Sys2Proof.Machine.execVcmpVs d a b m c s
  | .vfcmp d a b m c => Sys2Proof.Machine.execVfcmp d a b m c s
  | .vfcmpVs d a b m c => Sys2Proof.Machine.execVfcmpVs d a b m c s
  | .vld d a m => Sys2Proof.Machine.execVld d a m s
  | .vlds d a b m => Sys2Proof.Machine.execVlds d a b m s
  | .vldx d a b m => Sys2Proof.Machine.execVldx d a b m s
  | .vldxo d a b m => Sys2Proof.Machine.execVldxo d a b m s
  | .vldff d a m => Sys2Proof.Machine.execVldff d a m s
  | .vst d a m => Sys2Proof.Machine.execVst d a m s
  | .vsts d a b m => Sys2Proof.Machine.execVsts d a b m s
  | .vstx d a b m => Sys2Proof.Machine.execVstx d a b m s
  | .vstxo d a b m => Sys2Proof.Machine.execVstxo d a b m s
  | .vstxadd d a b m => Sys2Proof.Machine.execVstxadd d a b m s
  | .vldn d a z xs m t f => Sys2Proof.Machine.execVldn d a z xs m t f s
  | .vstn d a z xs m t f => Sys2Proof.Machine.execVstn d a z xs m t f s
  | .kst d a b => Sys2Proof.Machine.execKst d a b s
  | .ksig d a b => Sys2Proof.Machine.execKsig d a b s
  | .tzero t => Sys2Proof.Machine.execTzero t s
  | .tmma t a b k => Sys2Proof.Machine.execTmma t a b k s
  | .tmmaf t a b k => Sys2Proof.Machine.execTmmaf t a b k s
  | .tmmag t a b k => Sys2Proof.Machine.execTmmag t a b k s
  | .tmmas t a b k v => Sys2Proof.Machine.execTmmas t a b k v s
  | .tld t k => Sys2Proof.Machine.execTld t k s
  | .tst t u f k => Sys2Proof.Machine.execTst t u f k s
  | .tmovr t v => Sys2Proof.Machine.execTmovr t v s
  | .tmovw t v => Sys2Proof.Machine.execTmovw t v s
  | .treef t k => Sys2Proof.Machine.execTreef t k s
  | .tstat t d => Sys2Proof.Machine.execTstat t d s
  | .tsetx t k => Sys2Proof.Machine.execTsetx t k s
  | .taddx t k => Sys2Proof.Machine.execTaddx t k s
  | .sopen a p c xs => Sys2Proof.Machine.execSopen a p c xs s
  | .sclose p => Sys2Proof.Machine.execSclose p s
  | .sbind v p => Sys2Proof.Machine.execSbind v p s
  | .sunbind p => Sys2Proof.Machine.execSunbind p s
  | .sstat d p => Sys2Proof.Machine.execSstat d p s
  | .sbar p => Sys2Proof.Machine.execSbar p s
  | .cpy d a c l xs => Sys2Proof.Machine.execCpy d a c l xs s
  | .cpys d a c l xs => Sys2Proof.Machine.execCpys d a c l xs s
  | .cpypf d a => Sys2Proof.Machine.execCpypf d a s
  | .klaunch d a => Sys2Proof.Machine.execKlaunch d a s
  | .vfork d a => Sys2Proof.Machine.execVfork d a s
  | .vjoin a => Sys2Proof.Machine.execVjoin a s
  | .efork a c => Sys2Proof.Machine.execEfork a c s
  | .erdv => Sys2Proof.Machine.execErdv s
  | .gexit => Sys2Proof.Machine.execGexit s
  | .gid d n => Sys2Proof.Machine.execGid d n s
  | .tqpush a b => Sys2Proof.Machine.execTqpush a b s
  | .tqpushn d a b => Sys2Proof.Machine.execTqpushn d a b s
  | .tdone a => Sys2Proof.Machine.execTdone a s
  | .tqstat d a => Sys2Proof.Machine.execTqstat d a s
  | .mimport d a c l xs => Sys2Proof.Machine.execMimport d a c l xs s
  | .mexport d a c l xs => Sys2Proof.Machine.execMexport d a c l xs s
  | .mrefine d a c l xs => Sys2Proof.Machine.execMrefine d a c l xs s
  | .mcoarsen d a c l xs => Sys2Proof.Machine.execMcoarsen d a c l xs s
  | .mrenum d a c l xs => Sys2Proof.Machine.execMrenum d a c l xs s
  | .mstat d a c l xs => Sys2Proof.Machine.execMstat d a c l xs s
  | .mcolour d a c l xs => Sys2Proof.Machine.execMcolour d a c l xs s
  | .mtrim d a c l xs => Sys2Proof.Machine.execMtrim d a c l xs s
  | .mmigr d a c l xs => Sys2Proof.Machine.execMmigr d a c l xs s
  | .mghost d a c l xs => Sys2Proof.Machine.execMghost d a c l xs s
  | .kproj d a c l xs => Sys2Proof.Machine.execKproj d a c l xs s
  | .kreset d a c l xs => Sys2Proof.Machine.execKreset d a c l xs s
  | .kstat d a c l xs => Sys2Proof.Machine.execKstat d a c l xs s
  | .srd d n => Sys2Proof.Machine.execSrd d n s
  | .swr a n => Sys2Proof.Machine.execSwr a n s
  | .srset a n => Sys2Proof.Machine.execSrset a n s
  | .srclr a n => Sys2Proof.Machine.execSrclr a n s
  | .ctxsv d a => Sys2Proof.Machine.execCtxsv d a s
  | .ctxld d a => Sys2Proof.Machine.execCtxld d a s
  | .tlbinv d a => Sys2Proof.Machine.execTlbinv d a s
  | .probe d a => Sys2Proof.Machine.execProbe d a s
  | .pgmig d a => Sys2Proof.Machine.execPgmig d a s
  | .shkill a => Sys2Proof.Machine.execShkill a s
  | .trap n => Sys2Proof.Machine.execTrap n s
  | .brk n => Sys2Proof.Machine.execBrk n s
  | .eret => Sys2Proof.Machine.execEret s
  | .uiret => Sys2Proof.Machine.execUiret s
  | .idle => Sys2Proof.Machine.execIdle s
  | .slotStallRelease q => Sys2Proof.Machine.execSlotStallRelease q s
  | .ulInterruptEntry q => Sys2Proof.Machine.execUlInterruptEntry q s
  | .vectorIssue core k => Sys2Proof.Machine.execVectorIssue core k s
  | .recheckExecution core vote => Sys2Proof.Machine.execRecheckExecution core vote s
  | .recheckAgeExpiry core => Sys2Proof.Machine.execRecheckAgeExpiry core s
  | .suspectScoreDecay => Sys2Proof.Machine.execSuspectScoreDecay s
  | .laneGroupRemap core => Sys2Proof.Machine.execLaneGroupRemap core s
  | .matrixStep core => Sys2Proof.Machine.execMatrixStep core s
  | .copyEngineTransfer isPort n => Sys2Proof.Machine.execCopyEngineTransfer isPort n s
  | .copyCompletion n => Sys2Proof.Machine.execCopyCompletion n s
  | .scratchpadBankArbitration core => Sys2Proof.Machine.execScratchpadBankArbitration core s
  | .firstStageSave q => Sys2Proof.Machine.execFirstStageSave q s
  | .preemptionLanding q => Sys2Proof.Machine.execPreemptionLanding q s
  | .pageWalk slice asid va wr => Sys2Proof.Machine.execPageWalk slice asid va wr s
  | .migrationCommit n ok => Sys2Proof.Machine.execMigrationCommit n ok s
  | .frameUnreadableReport pa => Sys2Proof.Machine.execFrameUnreadableReport pa s
  | .doorbell queue off size v outside => Sys2Proof.Machine.execDoorbell queue off size v outside s
  | .taskTake queue => Sys2Proof.Machine.execTaskTake queue s
  | .readyPoolDispatch die => Sys2Proof.Machine.execReadyPoolDispatch die s
  | .aging die n => Sys2Proof.Machine.execAging die n s
  | .leafGroupCreate kernel => Sys2Proof.Machine.execLeafGroupCreate kernel s
  | .leafGroupEnded kernel leaf => Sys2Proof.Machine.execLeafGroupEnded kernel leaf s
  | .kernelComplete kernel => Sys2Proof.Machine.execKernelComplete kernel s
  | .kernelAborted kernel => Sys2Proof.Machine.execKernelAborted kernel s
  | .barrierMarkerFire q k => Sys2Proof.Machine.execBarrierMarkerFire q k s
  | .continuationWalk n => Sys2Proof.Machine.execContinuationWalk n s
  | .engineCommandCompletion n => Sys2Proof.Machine.execEngineCommandCompletion n s
  | .remapPush n => Sys2Proof.Machine.execRemapPush n s
  | .kstLinkPublish n => Sys2Proof.Machine.execKstLinkPublish n s
  | .shroudKill tag => Sys2Proof.Machine.execShroudKill tag s
  | .uncorrectableError cls n sub => Sys2Proof.Machine.execUncorrectableError cls n sub s
  | .hostInboundAccess port bar off size wr v ep => Sys2Proof.Machine.execHostInboundAccess port bar off size wr v ep s
  | .hostLinkDown port => Sys2Proof.Machine.execHostLinkDown port s
  | .cxlPortFailure port => Sys2Proof.Machine.execCxlPortFailure port s
  | .cxlPoisonReceived pa => Sys2Proof.Machine.execCxlPoisonReceived pa s
  | .flitReceive link seq ty ack crcOk reqs => Sys2Proof.Machine.execFlitReceive link seq ty ack crcOk reqs s
  | .nakReceive link ack => Sys2Proof.Machine.execNakReceive link ack s
  | .linkTrainingResult link lanes => Sys2Proof.Machine.execLinkTrainingResult link lanes s
  | .linkTrainingTimeout link => Sys2Proof.Machine.execLinkTrainingTimeout link s
  | .laneLost link => Sys2Proof.Machine.execLaneLost link s
  | .errorResponseReceived link pa wr tag => Sys2Proof.Machine.execErrorResponseReceived link pa wr tag s
  | .powerOn => Sys2Proof.Machine.execPowerOn s
  | .perst => Sys2Proof.Machine.execPerst s
  | .clocksStable bad => Sys2Proof.Machine.execClocksStable bad s
  | .selftestEnd => Sys2Proof.Machine.execSelftestEnd s
  | .memtrainEnd badStacks cxlBytes cxlPoison => Sys2Proof.Machine.execMemtrainEnd badStacks cxlBytes cxlPoison s
  | .mctlReset => Sys2Proof.Machine.execMctlReset s
  | .mctlBoot => Sys2Proof.Machine.execMctlBoot s
  | .mctlHint => Sys2Proof.Machine.execMctlHint s
  | .mctlFreeze on => Sys2Proof.Machine.execMctlFreeze on s
  | .freezeHold => Sys2Proof.Machine.execFreezeHold s
  | .mctlCapt on => Sys2Proof.Machine.execMctlCapt on s
  | .mctlRerun on => Sys2Proof.Machine.execMctlRerun on s
  | .fwlaunch csa => Sys2Proof.Machine.execFwlaunch csa s
  | .pbudgetWrite v => Sys2Proof.Machine.execPbudgetWrite v s
  | .powerArbitration gates => Sys2Proof.Machine.execPowerArbitration gates s
  | .linken v => Sys2Proof.Machine.execLinken v s
  | .errorRecordFree n => Sys2Proof.Machine.execErrorRecordFree n s
  | .mgmtRegisterWrite off v => Sys2Proof.Machine.execMgmtRegisterWrite off v s
  | .spbaseWrite q v => Sys2Proof.Machine.execSpbaseWrite q v s
  | .vlWrite q v => Sys2Proof.Machine.execVlWrite q v s
  | .vcfgWrite q v => Sys2Proof.Machine.execVcfgWrite q v s
  | .vlcapWrite q v => Sys2Proof.Machine.execVlcapWrite q v s
  | .accrangeWrite q lim v => Sys2Proof.Machine.execAccrangeWrite q lim v s
  | .reefctlClr q => Sys2Proof.Machine.execReefctlClr q s
  | .agelimitWrite q v => Sys2Proof.Machine.execAgelimitWrite q v s
  | .contextIdWrite q n v => Sys2Proof.Machine.execContextIdWrite q n v s
  | .accessPerformed q k => Sys2Proof.Machine.execAccessPerformed q k s
  | .neighBucketStreamFetch core p => Sys2Proof.Machine.execNeighBucketStreamFetch core p s

end Sys2Proof.Machine
end

