-- ==== Sys2Proof/Machine/Run.lean ====
section
/-! DEFINITION. One move of the device: a slot fetches, decodes and runs an instruction (04_sequencer R80, R99, R106; 03_encoding R62), or a
unit makes the move of an event; and the moves that the model makes when its agenda is empty (log 4). -/

namespace Sys2Proof.Machine

/-- The meaning of a decoded row. -/
noncomputable def runRow (r : Row) (s : State) : Host.Outcome State Fault Refusal := exec r.toInstr s

/-- The same, with the arithmetic rows run through the operation that each of their meanings is. -/
def runRowFast (r : Row) (s : State) : Host.Outcome State Fault Refusal :=
  match r with
  | .instr i => exec i s
  | .arith c => next (enqueueArith c s)

/-- The two agree, so that compiled code can run every row. -/
@[csimp] theorem runRow_fast : @runRow = @runRowFast := by
  funext r s
  cases r with
  | instr i => rfl
  | arith c => cases c <;> rfl

/-- A fetch of the four bytes at slot q's program counter (04_sequencer R99; 11_page R284, R286): the failing page, or the bytes (DEDUCED, log 42) (DEDUCED, log 59). -/
def fetchBytes (s : State) (q : Nat) : Except Miss Got :=
  let ag := scalarAgent s q
  let pc := (s.slot q).pc.toNat
  match probeRange s ag .fetch pc 4 with
  | m :: _ => .error m
  | [] => .ok ((spans pc 4).foldl (fun g p =>
      match checkAddr g.st ag p.1 .fetch with
      | .error _ => g
      | .ok h =>
        let r := readKey (touch g.st ag p.1 .fetch) h.key p.2
        ⟨g.bytes ++ r.bytes, lowerTag g.poison (h.poisonIn g.st p.2), r.st⟩) ⟨[], none, s⟩)

/-- A fetch that fails (04_sequencer R99; 10_context R262): cause 0x08 with the fetch address and the address of the instruction before or
that transferred; at a handler's entry it kills the context's shroud. -/
def fetchFault (s : State) (q : Nat) : State :=
  let x := s.slot q
  if x.mode = .handler ∧ x.prev = none then failContext s q 0x0D 0 0
  else trap s q 0x08 x.pc (x.prev.getD 0)

/-- The word that slot q decodes and what it decodes to (04_sequencer R106): in a REP frame, the word with its register fields offset. -/
def decodeAt (x : Slot) (w : Nat) : Nat × Except DecodeError Row :=
  match x.loops with
  | e :: _ =>
    if e.kind = 2 ∧ e.start.toNat ≤ x.pc.toNat ∧ x.pc.toNat ≤ e.endAddr.toNat then decodeOffset w e.j e.vstr e.sstr else (w, decodeToRow w)
  | [] => (w, decodeToRow w)

/-- Slot q runs the instruction whose bytes it has fetched (03_encoding R62): a word that does not decode traps with cause 0x01. -/
noncomputable def runBytes (s : State) (q : Nat) (bs : List Byte) : Host.Outcome State Fault Refusal :=
  let d := decodeAt (s.slot q) (leNat bs)
  match d.2 with
  | .error _ => next (trapWord s q 0x01 (some d.1))
  | .ok r => runRow r { s with cur := q }

/-- The compiled form. -/
def runBytesFast (s : State) (q : Nat) (bs : List Byte) : Host.Outcome State Fault Refusal :=
  let d := decodeAt (s.slot q) (leNat bs)
  match d.2 with
  | .error _ => next (trapWord s q 0x01 (some d.1))
  | .ok r => runRowFast r { s with cur := q }

@[csimp] theorem runBytes_fast : @runBytes = @runBytesFast := by
  funext s q bs
  simp only [runBytes, runBytesFast, runRow_fast]

/-- Slot q fetches its next instruction and runs it. Poisoned bytes are a sink (11_page R286; 19_shroud R412); a fetch waits behind the traffic of a link to
its granule (20_link R431). -/
def fetchRun (s : State) (q : Nat) : Host.Outcome State Fault Refusal :=
  match fetchBytes s q with
  | .error _ => next (fetchFault s q)
  | .ok g =>
    let held := readHolds s (scalarAgent s q) (s.slot q).pc.toNat 4
    if held ≠ [] then next (holdReads s held)
    else
      match g.poison with
      | some t => next (sink g.st q t)
      | none => runBytes g.st q g.bytes

/-- What stands before the next instruction of slot q (04_sequencer R114; 10_context R261, R264; 13_group R312; 21_device R438): a trap that a
queue entry has raised, a landing, or a user-level interrupt; a frozen slot stands at its landing point. -/
def boundary (s : State) (q : Nat) : Option State :=
  let x := s.slot q
  if x.st = .free then some s
  else if frozenUnit s 1 q = true ∧ atLanding x = true then some s
  else if x.due.isSome then some (takeDue s q)
  else if landingDue s q then some (land s q)
  else if x.st = .stall .draining then some (drain s q)
  else if uiDue x then some (s.setSlot q x.enterUser)
  else none

/-- The move of slot q's scalar side. -/
def slotMove (s : State) (q : Nat) : Host.Outcome State Fault Refusal :=
  match boundary s q with
  | some s' => next s'
  | none => fetchRun s q

/-- The move of a unit: an event of the opcode table. An instruction word is no such move, and an event with operands out of range is none. -/
def unitMove (s : State) (i : Instr) : Host.Outcome State Fault Refusal :=
  match encode i with
  | some _ => .refused .wordIsNoUnitMove
  | none => if wellFormed i then exec i s else next s

/-- A move. -/
def runMove (s : State) : Move → Host.Outcome State Fault Refusal
  | .slot q => slotMove s q
  | .unit i => unitMove s i

/-- The pending scalar accesses, each as its slot's access of a number (log 4). -/
def accessMoves (s : State) : List Move :=
  s.stores.zipIdx.map fun e => .unit (.accessPerformed e.1.slot ((s.stores.take e.2).filter fun a => a.slot == e.1.slot).length)

/-- The moves that slots and their queued work may make next (log 4). -/
def slotMoves (s : State) : List Move :=
  (busySlots s).flatMap fun e =>
    .slot e.1 :: ((e.2.vq.zipIdx.filter fun v => v.1.unfired).map fun v => .unit (.barrierMarkerFire e.1 v.2))

/-- The moves of the units of cores (log 4). -/
def coreMoves (s : State) : List Move :=
  (((busySlots s).filter fun e => !e.2.vq.isEmpty).map fun e => coreOf e.1).eraseDups.map (fun k => .unit (.vectorIssue k ⟨0, []⟩)) ++
  s.cores.flatMap fun e =>
    (if e.2.tq.isEmpty then [] else [.unit (.matrixStep e.1)]) ++
    (if e.2.rechecks.isEmpty then [] else [.unit (.recheckExecution e.1 ⟨0, [], []⟩)]) ++
    (if e.2.remapDue then [.unit (.laneGroupRemap e.1)] else []) ++
    (e.2.ports.filter fun p => decide (p.2.st = .opened ∨ p.2.st = .bound) && p.2.stop.isNone).map fun p =>
      if 5 ≤ specKind p.2.spec then .unit (.neighBucketStreamFetch e.1 p.1) else .unit (.copyEngineTransfer true (e.1 * 8 + p.1))

/-- The moves of engines and of the units of a die (log 4). -/
def engineMoves (s : State) : List Move :=
  (s.copies.map fun c => match c.2.phase with
    | .done _ => .unit (.copyCompletion c.1)
    | _ => .unit (.copyEngineTransfer false c.1)) ++
  (s.cmds.map fun c => .unit (.engineCommandCompletion c.1)) ++
  (s.remaps.map fun r => .unit (.remapPush r.1)) ++
  (s.migrations.map fun m => .unit (.migrationCommit m.1 true)) ++
  (s.klinks.map fun k => .unit (.kstLinkPublish k.1)) ++
  (s.walkers.map fun w => .unit (.continuationWalk w.1)) ++
  (if s.pool.isEmpty && s.mgmt.launches.isEmpty then [] else (List.range 8).map fun d => .unit (.readyPoolDispatch d)) ++
  (s.queues.map fun q => .unit (.taskTake q.1)) ++
  (s.kernels.flatMap fun k => .unit (.leafGroupCreate k.1) :: .unit (.kernelComplete k.1) :: .unit (.kernelAborted k.1) ::
    k.2.leaves.map fun l => .unit (.leafGroupEnded k.1 l.index))

/-- The move that the model makes by itself: the moves at hand in turn (log 4). -/
def defaultMove (s : State) : Option Move :=
  let l := slotMoves s ++ accessMoves s ++ coreMoves s ++ engineMoves s
  l[s.turn % max 1 l.length]?

/-- What follows a move: where it has changed a ready pool, sources join and leave the rounds of the dies (14_queue R335); and a replay run delivers the
next recorded input, where its record has come to one (21_device R442). -/
def afterMove (s : State) : Host.Outcome State Fault Refusal → Host.Outcome State Fault Refusal
  | .next t =>
    let u := if t.pool = s.pool then t else syncRound t
    next (if u.mgmt.rerun then replayInput u else u)
  | o => o

/-- One step: the next move of the agenda, which it leaves, or a default move; with nothing to do the package stands still. -/
def stepMove (s : State) : Host.Outcome State Fault Refusal :=
  match s.agenda with
  | m :: rest => afterMove s (runMove { s with agenda := rest } m)
  | [] =>
    match defaultMove s with
    | some m => afterMove s (runMove { s with turn := s.turn + 1 } m)
    | none => next s

/-- The address at which a word to run is placed, and the addresses of the translation that reaches it (log 9). -/
def placeAt : Nat := 0x1000
def placeRoot : Nat := 0x4000
def placeTable : Nat := 0x6000
def placeAsids : Nat := 0x20000

/-- Memory with the word at placeAt, and with tables that map the first 64 GiB of the address space of ASID 0 to the first 64 GiB of
physical memory, readable, writable, executable, at user level too (11_page R278, R281, R282). -/
def placeMem (m : List Host.Cell) (w : Nat) : List Host.Cell :=
  writeBytes placeAt (bytesOfWord w) <|
  writeLE (writeLE (writeLE (writeLE (writeLE (writeLE m placeAsids 8 (2 ^ 63 + placeRoot)) (placeAsids + 8) 8 0) (placeAsids + 16) 8 0)
    (placeAsids + 24) 8 0) placeRoot 8 (placeTable + 1)) placeTable 8 0xDE6

/-- The slot that is to run the word: in RUN on it, in no loop, with no landing, trap or interrupt before it. A FREE slot takes a context at
firmware level as FWLAUNCH loads one (21_device R436; log 9), with the lane groups given. -/
def Slot.placed (x : Slot) (lanes : Nat) : Slot :=
  let y : Slot := if x.st = .free then { x with mode := .context, level := .firmware, laneBase := 0, laneCount := lanes } else x
  { y with
    st := .run, pc := BitVec.ofNat 64 placeAt, asid := 0, loops := [], due := none, request := none, uistat := { y.uistat with en := false },
    ctx := { y.ctx with ending := false } }

/-- The state in which the next move is slot 0's, and slot 0 fetches the word w (log 9). The table entries, poison, translations, frames and freeze
that would keep it from doing so are gone. -/
def placeWord (s : State) (w : Nat) : State :=
  let lanes := if (slotsOfCore 0).all fun q => decide ((s.slot q).st = .free) then 8 else 0
  { s with
    agenda := [.slot 0], slots := tabSet s.slots 0 ((s.slot 0).placed lanes), mem := placeMem s.mem w
    poison := tabDel (tabDel (tabDel (tabDel s.poison (placeAt / 64)) (placeRoot / 64)) (placeTable / 64)) (placeAsids / 64)
    tlb := [], spbase := tabDel s.spbase 0, deadStacks := tabDel s.deadStacks 0, asidTab := BitVec.ofNat 64 placeAsids
    notify := if s.notify.toNat < 2 ^ 36 then 0 else s.notify, mgmt := { s.mgmt with frozen := false } }

end Sys2Proof.Machine
end

