-- ==== Sys2Proof/Machine/Step.lean ====
section
/-! DEFINITION. The step of the machine, and the state in which its next step runs a given instruction. -/

namespace Sys2Proof.Machine

/-- One step of the package: the next move of its agenda, or a move that the model chooses (log 4). -/
def step (s : State) : Host.Outcome State Fault Refusal := stepMove s

/-- The state whose next step fetches the instruction word w and runs it (log 9). Every word has 32 bits: a row of fewer is filled up with zeros. -/
def State.withFetchWord (s : State) (_nbits w : Nat) : State := placeWord s w

end Sys2Proof.Machine
end

