-- ==== Sys2Proof/Safety.lean ====
section
/-! DEFINITION. What claims about a run are stated in: the invariant of a sound state, what an instruction finds ready, and what it leaves
unchanged. -/

namespace Sys2Proof.Machine

/-- Memory holds its bytes in the one canonical form (log 2). A safe run stays among such states. -/
def State.Canonical (s : State) : Prop := Memory.wf s.mem

/-- The registers of some numbers are neither pending (04_sequencer R81) nor poisoned (R87). -/
def Slot.Clean (x : Slot) (rs : List Nat) : Prop := ∀ r ∈ rs, (x.sreg r).pend = .ready ∧ (x.sreg r).poison = none

/-- The slot's program counter stands outside every REP frame on top of its loop stack (04_sequencer R107). -/
def Slot.OutsideRep (x : Slot) : Prop :=
  ∀ e rest, x.loops = e :: rest → ¬ (e.kind = 2 ∧ e.start.toNat ≤ x.pc.toNat ∧ x.pc.toNat ≤ e.endAddr.toNat)

/-- Nothing but slot q differs: no other slot, no other part of the device, no byte of memory. -/
structure OnlySlot (s t : State) (q : Nat) : Prop where
  others : ∀ r, r ≠ q → t.slot r = s.slot r
  device : t = { s with slots := t.slots }
  bytes : ∀ a, readByte t.mem a = readByte s.mem a

/-- Nothing but scalar registers and the place in the program differs between two states of a slot: flags, modes, system registers, counters
and queue stay. -/
def SystemKept (x y : Slot) : Prop :=
  y = { x with regs := y.regs, bank1 := y.bank1, st := y.st, pc := y.pc, prev := y.prev, loops := y.loops, land := y.land }

/-- The scalar registers outside a list stay. -/
def RegsKept (x y : Slot) (ds : List Nat) : Prop := ∀ r, r ∉ ds → y.sreg r = x.sreg r

/-- The slot has gone past its instruction with the frame-end step (04_sequencer R99, R102). -/
def WentOn (x y : Slot) : Prop := y.st = .run ∧ y.prev = some x.pc ∧ (y.pc, y.loops, y.land) = frameEnd x.pc x.loops false

/-- The slot has gone to an address (04_sequencer R96). -/
def WentTo (x y : Slot) (target : Word) : Prop :=
  y.st = .run ∧ y.prev = some x.pc ∧ y.pc = target ∧ y.loops = x.loops ∧ y.land = false

/-- In every state whose source registers are clean and whose destination is not pending, the instruction completes, writes v to register d
(nothing to s0) and changes nothing else. -/
def WritesReg (i : Instr) (d : Nat) (srcs : List Nat) (v : Slot → Word) : Prop :=
  ∀ s : State, s.me.Clean srcs → (s.me.sreg d).pend = .ready →
    ∃ t, exec i s = .next t ∧ OnlySlot s t s.cur ∧ SystemKept s.me t.me ∧ RegsKept s.me t.me [d] ∧ WentOn s.me t.me ∧
      (d ≠ 0 → t.me.sreg d = ⟨v s.me, none, .ready⟩)

/-- A two-operand operation of scalar registers (04_sequencer R83). -/
def BinaryOp (i : BitVec 6 → BitVec 6 → BitVec 6 → Instr) (f : Word → Word → Word) : Prop :=
  ∀ d a b, WritesReg (i d a b) d.toNat [a.toNat, b.toNat] fun x => f (x.val a.toNat) (x.val b.toNat)

/-- A one-operand operation of scalar registers. -/
def UnaryOp (i : BitVec 6 → BitVec 6 → Instr) (f : Word → Word) : Prop :=
  ∀ d a, WritesReg (i d a) d.toNat [a.toNat] fun x => f (x.val a.toNat)

/-- The same for a floating-point operation (04_sequencer R91): it writes a code and ORs flags into FFLAGS. -/
def WritesFloat (i : Instr) (d : Nat) (srcs : List Nat) (v : Slot → Nat × FFlags) : Prop :=
  ∀ s : State, s.me.Clean srcs → (s.me.sreg d).pend = .ready →
    ∃ t, exec i s = .next t ∧ OnlySlot s t s.cur ∧ SystemKept { s.me with fflags := s.me.fflags ||| (v s.me).2 } t.me ∧
      RegsKept s.me t.me [d] ∧ WentOn s.me t.me ∧ (d ≠ 0 → t.me.sreg d = ⟨BitVec.ofNat 64 (v s.me).1, none, .ready⟩)

/-- A value of a precision in a register (04_sequencer R91): all 64 bits as binary64, or bits 31 to 0 as binary32. -/
def scalarValue (p : BitVec 1) (w : Word) : FVal := if p = 0 then fmtF64.decode w.toNat else fmtF32.decode (w.toNat % 2 ^ 32)

/-- Round to a precision under a slot's FRM (00_scope R8; 02_numbers R31), with the flags of the exact operation. -/
def roundedTo (p : BitVec 1) (x : Slot) (v : FVal × FFlags) : Nat × FFlags :=
  let r := (if p = 0 then fmtF64 else fmtF32).round (RMode.ofFrm x.frm) false v.1
  (r.1, r.2 ||| v.2)

/-- The real number that an exact finite value is. -/
def realOfFin (neg : Bool) (m : Nat) (e : Int) : ℚ := (if neg then -1 else 1) * (m : ℚ) * (2 : ℚ) ^ e

/-- The real number that a finite value stands for: the number itself where it is exact, else one that its bits enclose, of 65 bits or more, which is
more than any format has. -/
def FVal.Denotes (x : FVal) (v : ℝ) : Prop :=
  match x with
  | .fin neg m e false => v = (realOfFin neg m e : ℚ)
  | .fin neg m e true => 2 ^ 64 ≤ m ∧ (m : ℝ) * (2 : ℝ) ^ e < |v| ∧ |v| < ((m : ℝ) + 1) * (2 : ℝ) ^ e ∧ (neg = true ↔ v < 0)
  | _ => False

/-- The integer z that a mode selects for a number (02_numbers R35; 00_scope R9): the nearest one, of two as near the even one; the greatest not above
it; the least not below it; the one of these toward zero. -/
def RMode.Selects (mode : RMode) (v : ℚ) (z : ℤ) : Prop :=
  match mode with
  | .rne => |v - z| ≤ 1 / 2 ∧ (|v - z| = 1 / 2 → z % 2 = 0)
  | .rtz => z = if 0 ≤ v then ⌊v⌋ else ⌈v⌉
  | .rdn => z = ⌊v⌋
  | .rup => z = ⌈v⌉

/-- A code of a format stands for a finite number x. -/
def Fmt.StandsFor (f : Fmt) (code : Nat) (x : ℚ) : Prop :=
  code < 2 ^ (1 + f.ebits + f.fbits) ∧ ∃ neg m e, f.decode code = .fin neg m e false ∧ x = realOfFin neg m e

/-- The extended real number that a value is; a NaN is none. -/
def FVal.extended (v : FVal) : Option (WithBot (WithTop ℚ)) :=
  match v with
  | .nan _ => none
  | .inf neg => some (if neg then ⊥ else ((⊤ : WithTop ℚ) : WithBot (WithTop ℚ)))
  | .fin neg m e _ => some (((realOfFin neg m e : ℚ) : WithTop ℚ) : WithBot (WithTop ℚ))

/-- What a code of a format stands for (02_numbers R27): a number, an infinity, or none for a NaN. -/
def Fmt.valueOf (f : Fmt) (code : Nat) : Option (WithBot (WithTop ℚ)) := (f.decode code).extended

/-- A read at a key leaves nothing in the replay buffer and follows no record (21_device R441, R442): it is of no CXL port, or neither capture nor
replay is on. -/
def State.unrecorded (s : State) (key : Nat) : Prop := isCxl s key = true → s.mgmt.capt = false ∧ s.mgmt.rerun = false

/-- A scalar read of n bytes at a virtual address has its place at a key of plain memory (00_scope R13; 04_sequencer R88): aligned, permitted,
translated by the slot's TLB slice, in the ASID that it used last, or by the scratchpad window, not behind a write of the slot's vector or tile queue
that waits for its page, or a link's traffic (20_link R431). -/
structure ReadPlace (s : State) (va n key : Nat) : Prop where
  aligned : va % n = 0
  passes : ∃ h, checkAddr s (scalarAgent s s.cur) va .read = .ok h ∧ h.key = key ∧ h.poison = none
  plain : isPad key = true ∨ isHbm key = true ∨ isCxl s key = true
  cached : touch s (scalarAgent s s.cur) va .read = s
  behind : vectorWaits s s.cur (va, n) = false
  held : readHolds s (scalarAgent s s.cur) va n = []
  unseen : s.unrecorded key

/-- A scalar read of n bytes finds them at a key of plain memory: in its place, unpoisoned, and not behind a store of its own. -/
structure PlainRead (s : State) (va n key : Nat) : Prop extends ReadPlace s va n key where
  own : ∀ a ∈ s.stores, a.home ≠ .slot s.cur
  clean : rangePoison s key n = none

/-- The one store of its own that a scalar read of n bytes at a key may meet (04_sequencer R89): an unpoisoned ST to memory of the package, passed on under the
slot's tag and not yet performed, that waits for no page. -/
structure OwnStore (s : State) (a : PendAcc) : Prop where
  only : ∃ pre post, s.stores = pre ++ a :: post ∧ ∀ b ∈ pre ++ post, b.home ≠ .slot s.cur
  home : a.home = .slot s.cur
  plain : (isPad a.key = true ∨ isHbm a.key = true ∨ isCxl s a.key = true) ∧ a.increment = false
  clean : a.poison = none
  tag : a.tag = s.me.shtag
  still : a.waiting = false

/-- A scalar write of n bytes at a virtual address may be made at a key: aligned, permitted, translated by the slot's TLB slice or the
window, to a page that is not MIGRATING, with no earlier write of the slot waiting for one, and room for m more stores (04_sequencer R88,
R108; 11_page R292). -/
structure PlainWrite (s : State) (k : Access) (va n m key : Nat) : Prop where
  aligned : va % n = 0
  passes : ∃ h, checkAddr s (scalarAgent s s.cur) va k = .ok h ∧ h.key = key
  cached : touch s (scalarAgent s s.cur) va k = s
  still : migratingAt s (scalarAgent s s.cur) va n = false
  unblocked : ∀ a ∈ s.stores, a.home = .slot s.cur → a.waiting = false
  behind : vectorWaits s s.cur (va, n) = false
  held : k = .write ∨ readHolds s (scalarAgent s s.cur) va n = []
  room : s.me.cnt.stores + m ≤ 255

/-- A store that slot q has passed on: its place in program order, its address, where it performs, its bytes and their poison, and whether it is a
release. -/
structure StoreOf (ord q : Nat) (va : Word) (key : Nat) (bs : List Byte) (p : Option PTag) (rel : Bool) (a : PendAcc) : Prop where
  slot : a.slot = q
  home : a.home = .slot q
  va : a.va = va
  key : a.key = key
  bytes : a.bytes = bs
  poison : a.poison = p
  increment : a.increment = false
  release : a.release = rel
  waiting : a.waiting = false
  ord : a.ord = ord

/-- Nothing but slot q, the list of stores passed on and the number of operations passed on differs. -/
structure OnlyStores (s t : State) (q : Nat) (new : List PendAcc) : Prop where
  others : ∀ r, r ≠ q → t.slot r = s.slot r
  stores : t.stores = s.stores ++ new
  device : t = { s with slots := t.slots, stores := t.stores, nextOp := s.nextOp + new.length }
  bytes : ∀ a, readByte t.mem a = readByte s.mem a

/-- A slot with n more stores counted (04_sequencer R109). -/
def Slot.countStores (x : Slot) (n : Nat) : Slot := { x with cnt := { x.cnt with stores := x.cnt.stores + n } }

/-- An instruction completes, changes no register and nothing outside its slot. -/
def Passes (i : Instr) (s : State) : Prop :=
  ∃ t, exec i s = .next t ∧ OnlySlot s t s.cur ∧ SystemKept s.me t.me ∧ RegsKept s.me t.me [] ∧ WentOn s.me t.me

/-- The same over a state u in which the instruction's effect on the rest of the device stands. -/
def PassesInto (i : Instr) (s u : State) : Prop :=
  ∃ t, exec i s = .next t ∧ OnlySlot u t s.cur ∧ SystemKept (u.slot s.cur) (t.slot s.cur) ∧ RegsKept (u.slot s.cur) (t.slot s.cur) [] ∧
    WentOn (u.slot s.cur) (t.slot s.cur)

/-- A transfer to an address completes, changes no register and nothing outside its slot. -/
def Transfers (i : Instr) (s : State) (target : Word) : Prop :=
  ∃ t, exec i s = .next t ∧ OnlySlot s t s.cur ∧ SystemKept s.me t.me ∧ RegsKept s.me t.me [] ∧ WentTo s.me t.me target

/-- An instruction stalls its slot and has no effect (04_sequencer R80). -/
def Stalls (i : Instr) (s : State) (why : Stall) : Prop :=
  exec i s = .next (s.setSlot s.cur { s.me with st := .stall why })

/-- An instruction that names a pending register of a list stalls on one of them, in every state that meets ok (04_sequencer R81). -/
def StallsOn (i : Instr) (rs : List Nat) (ok : State → Prop) : Prop :=
  ∀ s : State, ok s → (∃ r ∈ rs, (s.me.sreg r).pend ≠ .ready) → ∃ r ∈ rs, (s.me.sreg r).pend ≠ .ready ∧ Stalls i s (.register r)

/-- A branch (04_sequencer R95): taken, it goes 4 × off14 further; else it goes on. -/
def Branches (i : BitVec 6 → BitVec 6 → BitVec 14 → Instr) (c : Word → Word → Prop) : Prop :=
  ∀ (a b : BitVec 6) (o : BitVec 14) (s : State), s.me.OutsideRep → s.me.Clean [a.toNat, b.toNat] →
    (c (s.me.val a.toNat) (s.me.val b.toNat) → Transfers (i a b o) s (s.me.pc + 4 * o.signExtend 64)) ∧
    (¬ c (s.me.val a.toNat) (s.me.val b.toNat) → Passes (i a b o) s)

/-- The sign- or zero-extension of the little-endian number in n bytes at a key (00_scope R3; 04_sequencer R88). -/
def loadedValue (s : State) (key n : Nat) (signed : Bool) : Word :=
  let v := BitVec.ofNat (8 * n) (readLE s.mem key n)
  if signed then v.signExtend 64 else v.zeroExtend 64

/-- An instruction reads register d from somewhere: it completes with a value and its poison there, and changes nothing else. -/
def Loads (i : Instr) (s : State) (d : Nat) (v : Word) (p : Option PTag) : Prop :=
  ∃ t, exec i s = .next t ∧ OnlySlot s t s.cur ∧ SystemKept s.me t.me ∧ RegsKept s.me t.me [d] ∧ WentOn s.me t.me ∧
    (d ≠ 0 → t.me.sreg d = ⟨v, p, .ready⟩)

/-- An instruction passes on one store: it completes, counts it, and changes no register and no byte of memory yet (04_sequencer R108, R109). -/
def PassesStore (i : Instr) (s : State) (a : PendAcc → Prop) : Prop :=
  ∃ t x, exec i s = .next t ∧ a x ∧ OnlyStores s t s.cur [x] ∧ SystemKept (s.me.countStores 1) t.me ∧ RegsKept s.me t.me [] ∧
    WentOn s.me t.me

/-- A block of bytes is memory proper at each byte: no remote, window or notify address (20_link R422), and not behind a stack or port that is out of
service (19_shroud R409); and no read of it is recorded. -/
def Ordinary (s : State) (key n : Nat) : Prop :=
  (isPad key = true ∨ (isHbm key = true ∨ isCxl s key = true) ∧ isWindow key = false ∧ isRemote key = false) ∧
    (deadTag s key = none ∧ s.unrecorded key) ∧ ∀ i < n, isNotify s (key + i) = false

/-- Bytes are written at a key, every other byte of memory and everything else but slots, poison and sector tags stays. -/
structure WritesBytes (s t : State) (key : Nat) (bs : List Byte) : Prop where
  device : t = { s with slots := t.slots, mem := t.mem, poison := t.poison, sectors := t.sectors }
  inside : ∀ i < bs.length, readByte t.mem (key + i) = bs.getD i 0
  outside : ∀ a, a < key ∨ key + bs.length ≤ a → readByte t.mem a = readByte s.mem a

/-- The state in which an atomic has read: with A, every publication made so far is seen (09_guard R241, R246; 18_bucket R397). -/
def State.acquired (s : State) (c : BitVec 1) : State := if c = 1 then s.settleLinks else s

/-- An atomic on n bytes (09_guard R246): memory receives the new value computed from the old one and the low bytes of sd, sd the old value
sign-extended. -/
def Atomic (i : BitVec 6 → BitVec 6 → BitVec 1 → BitVec 1 → BitVec 1 → BitVec 3 → Instr) (f : (w : Nat) → BitVec w → BitVec w → BitVec w) : Prop :=
  ∀ (d a : BitVec 6) (q c l : BitVec 1) (sc : BitVec 3) (s : State) (key : Nat),
    let n := if q = 0 then 4 else 8
    let va := (s.me.val a.toNat).toNat
    s.me.st ≠ .free → s.me.Clean [d.toNat, a.toNat] → PlainRead s va n key → PlainWrite s .update va n 0 key → Ordinary s key n →
    (l = 1 → accessPending s s.cur = false) →
    ∃ t, exec (i d a q c l sc) s = .next t ∧ (∀ r, r ≠ s.cur → t.slot r = s.slot r) ∧ SystemKept s.me t.me ∧ RegsKept s.me t.me [d.toNat] ∧
      WentOn s.me t.me ∧ (d ≠ 0 → t.me.sreg d.toNat = ⟨loadedValue s key n true, none, .ready⟩) ∧
      WritesBytes (s.acquired c) t key (leBytes n
        (f (8 * n) (BitVec.ofNat (8 * n) (readLE s.mem key n)) (BitVec.ofNat (8 * n) (s.me.val d.toNat).toNat)).toNat)

/-- An instruction appends one entry to its slot's vector queue, with VSTART set to zero, and changes no register but that those of a list become
pending (04_sequencer R81, R82; 05_vector R120). cnt are the counters after it. -/
def Enqueues (i : Instr) (s : State) (e : VEntry → Prop) (cnt : Counters) (ds : List Nat) : Prop :=
  ∃ t x ch, exec i s = .next t ∧ e x ∧ OnlySlot { s with nextOp := s.nextOp + 1 } t s.cur ∧
    SystemKept { s.me with vq := s.me.vq ++ [x], vstart := 0, cnt := cnt, charge := ch } t.me ∧ RegsKept s.me t.me ds ∧ WentOn s.me t.me ∧
    ∀ d ∈ ds, d ≠ 0 → t.me.sreg d = { s.me.sreg d with pend := .queue }

/-- The context save area of slot q at a key can take a save (10_context R262): the page at CSABASE is writable at supervisor level through the TLB
slice or the window, not user-writable and not MIGRATING; HPRIV names a level; the first bytes are not poisoned; no work of the slot waits outside
its queues; its leaf group is not ending (12_kernel R305); and its loop stack and queues are within their sizes. -/
structure SaveArea (s : State) (q key : Nat) : Prop where
  aligned : key % 4096 = 0
  passes : ∃ h, checkAddr s { scalarAgent s q with level := .supervisor } (s.slot q).csaBase.toNat .write = .ok h ∧ h.key = key ∧ h.state ≠ 3
  guarded : ∃ m, checkAddr s { scalarAgent s q with level := .user, tag := 0 } (s.slot q).csaBase.toNat .write = .error m
  cached : touch s { scalarAgent s q with level := .supervisor } (s.slot q).csaBase.toNat .write = s
  level : wbits (readWord s.mem (key + 0x18)) 61 60 = 1 ∨ wbits (readWord s.mem (key + 0x18)) 61 60 = 2
  clean : rangePoison s key 32 = none
  idle : unitsPending s q = false
  going : (s.slot q).ctx.ending = false
  sizes : (s.slot q).loops.length ≤ 6 ∧ (s.slot q).vq.length ≤ 32 ∧ (tilesOf s q).length ≤ 16

/-- Slot q has entered its handler on a report (10_context R262, R263, R270): the program counter is the image's SVPC, s63 its SVSP, the loop stack and
the vector queue are empty, the counters are cnt, and the trap registers hold the report. Every other scalar register keeps its value and its
poison, and waits tells what it still waits for; every other system register stays, and so does every other slot. The results of SSTATs that
waited are written first (08_stream R204). -/
structure EntersHandler (s t : State) (q key : Nat) (level : Level) (nested : Bool) (r : Report) (cnt : Counters) (waits : Nat → Pend → Pend) :
    Prop where
  slot : t.slot q = { (settleStats s q).slot q with
    st := .run, mode := .handler, level := level, pc := readWord s.mem key, prev := none, land := false, regs := (t.slot q).regs
    bank1 := (t.slot q).bank1, loops := [], vq := [], cnt := cnt, trapCause := BitVec.ofNat 8 r.cause, trapNested := nested, trapQueue := r.queue
    trapFrlost := r.frlost, trapPc := r.pc, trapAddr := r.addr, trapAux := r.aux, due := none, dueOrd := 0
    servedTag := if nested then (s.slot q).servedTag else (s.slot q).shtag }
  sp : (t.slot q).sreg 63 = ⟨readWord s.mem (key + 8), none, .ready⟩
  regs : ∀ n < 63, (t.slot q).sreg n =
    { ((settleStats s q).slot q).sreg n with pend := waits n (((settleStats s q).slot q).sreg n).pend }
  others : ∀ n, n ≠ q → t.slot n = s.slot n

/-- The state that stands when a first-stage save has entered the handler: no operation counts, and no register waits (10_context R256, R262). -/
def EntersSaved (s t : State) (q key : Nat) (r : Report) : Prop :=
  EntersHandler s t q key (if wbits (readWord s.mem (key + 0x18)) 61 60 = 2 then .firmware else .supervisor) false r ⟨0, 0, 0, 0⟩ fun _ _ => .ready

/-- A vector-queue entry as the image holds it at an address (10_context R255; 15_barrier R347): KIND 1, 2 or 3; of a marker, P says whether it has
fired and OP1 is the phase it joined; a poisoned operand is zero, and PTAG gives its tag. -/
def VqImage (m : List Host.Cell) (a : Nat) (e : VEntry) : Prop :=
  let word := fun o => readWord m (a + o)
  word 0 = e.pc ∧ wbits (word 8) 31 0 = e.word % 2 ^ 32 ∧ wbits (word 8) 63 48 = e.vl % 2 ^ 16 ∧ wbits (word 16) 15 0 = e.vcfg.toNat ∧
  wbits (word 16) 47 32 = e.poison0.elim 0 (fun t => 2 ^ 15 + t.toNat) ∧ wbits (word 16) 63 48 = e.poison1.elim 0 (fun t => 2 ^ 15 + t.toNat) ∧
  word 24 = (if e.poison0 = none then e.op0 else 0) ∧ word 40 = 0 ∧
  match e.kind with
  | .instr => wbits (word 16) 31 16 = 1 ∧ wbits (word 8) 47 32 = e.p % 2 ^ 16 ∧ word 32 = if e.poison1 = none then e.op1 else 0
  | .marker => wbits (word 16) 31 16 = 2 ∧ wbits (word 8) 47 32 = (if e.joined = none then 0 else 1) ∧
      word 32 = if e.poison1 = none then e.joined.getD 0 else 0
  | .fenceVV => wbits (word 16) 31 16 = 3 ∧ wbits (word 8) 47 32 = 0 ∧ word 32 = if e.poison1 = none then e.op1 else 0

/-- A tile-queue entry as the image holds it at an address (10_context R255). -/
def TqImage (m : List Host.Cell) (a : Nat) (e : TEntry) : Prop :=
  let word := fun o => readWord m (a + o)
  word 0 = e.pc ∧ wbits (word 8) 31 0 = e.word % 2 ^ 32 ∧ wbits (word 8) 63 32 = e.seq.toNat ∧ wbits (word 16) 31 0 = e.kp % 2 ^ 32 ∧
  wbits (word 16) 33 32 = e.frm.toNat ∧ wbits (word 16) 39 34 = e.reefTh.toNat ∧ wbits (word 16) 40 40 = e.reefTrap.toNat ∧
  wbits (word 16) 47 41 = e.accRow.toNat ∧ wbits (word 16) 63 48 = 0 ∧ word 24 = e.desc ∧
  word 32 = (if e.poison = none then e.opk else 0) ∧ word 40 = BitVec.ofNat 64 (e.poison.elim 0 fun t => 2 ^ 15 + t.toNat)

/-- A port as the image holds it at an address (10_context R255; 08_stream R202): the captured specification, the port status word and the binding. -/
def PortImage (m : List Host.Cell) (a : Nat) (p : Port) : Prop :=
  (∀ i < 8, readWord m (a + 8 * i) = wordAt p.spec i) ∧ readWord m (a + 0x40) = p.statusWord ∧
  readWord m (a + 0x48) = if p.st ≠ .closed ∧ p.bindReg < 32 then BitVec.ofNat 64 (2 ^ 7 + p.bindG * 2 ^ 5 + p.bindReg) else 0

/-- The PSN halfword of a register at an address (10_context R253, R256): bit 15 and the tag of its poison, bit 14 while an engine command in flight
will write it. -/
def PsnImage (m : List Host.Cell) (a : Nat) (v : SReg) : Prop :=
  readLE m a 2 = v.poison.elim 0 (fun t => 2 ^ 15 + t.toNat) + if v.pend = .engine then 2 ^ 14 else 0

/-- The image at a key can be loaded into slot q by an agent (10_context R266), and holds no queue entry and no port. -/
structure Loadable (s : State) (q : Nat) (ag : Agent) (c : Word) (key : Nat) : Prop where
  aligned : wbits c 11 0 = 0
  passes : ∃ h, checkAddr s ag c.toNat .read = .ok h ∧ h.key = key
  cached : touch s ag c.toNat .read = s
  image : imageOk s key = true
  level : wbits (readWord s.mem (key + 0x18)) 63 62 ≤ levelCode ag.level
  empty : wbits (readWord s.mem (key + 0x18)) 33 15 = 0
  vlen : wbits (readWord s.mem (key + 0x18)) 51 37 ≤ (s.slot q).vlen
  room : tileRoom s (coreOf q) [] = true

/-- Slot q runs the context of the image at a key (10_context R253, R266): its registers and system registers are the image's words. -/
structure Resumed (s : State) (x : Slot) (key : Nat) : Prop where
  mode : x.st = .run ∧ x.mode = .context
  level : some x.level = levelOf (wbits (readWord s.mem (key + 0x18)) 63 62)
  pc : x.pc = readWord s.mem (key + 0x10)
  regs : ∀ r, 1 ≤ r → r ≤ 63 →
    (x.bank0 r).val = readWord s.mem (key + 0xC0 + 8 * r) ∧ (x.bank0 r).poison = poisonOfPsn (readLE s.mem (key + 0xF40 + 2 * r) 2)
  bank1 : ∀ r, 56 ≤ r → r ≤ 61 → (x.bankOne r).val = readWord s.mem (key + 0x2C0 + 8 * (r - 56))
  flags : x.fflags = (readWord s.mem (key + 0x40)).setWidth 5 ∧ x.frm = (readWord s.mem (key + 0x48)).setWidth 2
  vector : x.vl = wbits (readWord s.mem (key + 0x50)) 13 0 ∧ x.vcfg = (readWord s.mem (key + 0x58)).setWidth 14 ∧
    x.vstart = wbits (readWord s.mem (key + 0x60)) 13 0
  user : x.uivec = readWord s.mem (key + 0x68) ∧ x.uiepc = readWord s.mem (key + 0x70)
  names : x.asid = (readWord s.mem (key + 0xA8)).setWidth 12 ∧ x.shtag = (readWord s.mem (key + 0xB0)).setWidth 10 ∧
    x.prio = (readWord s.mem (key + 0xB8)).setWidth 4
  loops : x.loops.length = wbits (readWord s.mem (key + 0x18)) 36 34
  queue : x.vq = [] ∧ x.due = none

/-- A system register (03_encoding R57): its number, the levels that may read and write it, its RW bits, its value as a read by the slot whose
instruction runs shows it, the values that may stand in it, the state after a write, and what the W1C and WO bits of a word do first under SWR. -/
structure SysReg where
  num : BitVec 12
  readLevel : Level
  writeLevel : Level
  rw : Word
  get : State → Word
  ok : State → Word → Prop
  set : State → Word → State
  act : State → Word → State

/-- A register that is a field of the slot. -/
def SysReg.ofSlot (num : BitVec 12) (readLevel writeLevel : Level) (rw : Word) (get : Slot → Word) (ok : Slot → Word → Prop)
    (set : Slot → Word → Slot) : SysReg :=
  ⟨num, readLevel, writeLevel, rw, fun s => get s.me, fun s => ok s.me, fun s v => s.setSlot s.cur (set s.me v), fun s _ => s⟩

/-- The entries of a core's reef log without those of a tag (07_tile R168). -/
def Core.reefsBut (c : Core) (tag : STag) (log : Bool) : Core :=
  { c with reefLog := if log then c.reefLog.filter fun e => e.2.tag != tag else c.reefLog, reefOvf := c.reefOvf.filter fun t => t != tag }

/-- Every system register with RW fields (02_numbers R31, R32; 04_sequencer R112; 05_vector R118 to R121; 07_tile R167, R168; 08_stream R221; 10_context
R267, R268, R270; 11_page R277; 14_queue R336; 19_shroud R404, R418, R420). A VLEN or configuration whose VLMAX is below VL lowers VL, and a VL
above VLMAX becomes VLMAX. UISTAT's PCOPY and PREEF are cleared by writing one; REEFCTL's CLR makes the log entries of the context's tag invalid and
clears OVF, and writing one to OVF clears it. AGELIMIT belongs to the die (log 11). -/
def systemRegisters : List SysReg :=
  let free := fun (_ : Slot) (_ : Word) => True
  [.ofSlot 0x001 .user .user 0x1F (fun x => x.fflags.setWidth 64) free fun x v => { x with fflags := v.setWidth 5 },
   .ofSlot 0x002 .user .user 0x3 (fun x => x.frm.setWidth 64) free fun x v => { x with frm := v.setWidth 2 },
   .ofSlot 0x010 .user .supervisor 0x3FFF (fun x => BitVec.ofNat 64 x.vl) free fun x v => { x with vl := min v.toNat (x.vlmax x.vcfg) },
   .ofSlot 0x011 .user .supervisor 0x3FFF (fun x => x.vcfg.setWidth 64) (fun _ v => wbits v 2 0 ≤ 5 ∧ wbits v 13 12 ≠ 3)
     fun x v => { x with vcfg := v.setWidth 14, vl := min x.vl (x.vlmax (v.setWidth 14)) },
   .ofSlot 0x012 .user .supervisor 0x3FFF (fun x => BitVec.ofNat 64 x.vstart) free fun x v => { x with vstart := v.toNat },
   ⟨0x013, .user, .supervisor, 0x7FFF, fun s => BitVec.ofNat 64 s.me.vlcap,
    fun s v => (v = 2048 ∨ v = 4096 ∨ v = 8192 ∨ v = 16384) ∧ v.toNat ≤ 2048 * (s.core (coreOf s.cur)).laneMap.length,
    fun s v => let y : Slot := { s.me with vlcap := v.toNat }; s.setSlot s.cur { y with vl := min y.vl (y.vlmax y.vcfg) }, fun s _ => s⟩,
   .ofSlot 0x014 .supervisor .supervisor 0x3F (fun x => x.vdirty.setWidth 64) free fun x v => { x with vdirty := v.setWidth 6 },
   .ofSlot 0x015 .supervisor .supervisor 0x00FFFFFFFFFFF000 (fun x => x.vowner) free fun x v => { x with vowner := v },
   .ofSlot 0x016 .supervisor .supervisor 1 (fun x => BitVec.ofNat 64 x.vuse.toNat) free fun x v => { x with vuse := v.getLsbD 0 },
   .ofSlot 0x020 .user .user 0x00FFFFFFFFFFFFFC (fun x => x.uivec) free fun x v => { x with uivec := v },
   .ofSlot 0x021 .user .user 0x00FFFFFFFFFFFFFC (fun x => x.uiepc) free fun x v => { x with uiepc := v },
   ⟨0x022, .user, .user, 1, fun s => let u := s.me.uistat
      BitVec.ofNat 64 (u.en.toNat + u.act.toNat * 2 + u.cause.toNat * 2 ^ 8 + u.preef.toNat * 2 ^ 16 + u.pcopy.toNat * 2 ^ 17), fun _ _ => True,
    fun s v => s.setSlot s.cur { s.me with uistat := { s.me.uistat with en := v.getLsbD 0 } },
    fun s a => s.setSlot s.cur
      { s.me with uistat := { s.me.uistat with pcopy := s.me.uistat.pcopy && !a.getLsbD 17, preef := s.me.uistat.preef && !a.getLsbD 16 } }⟩,
   .ofSlot 0x040 .user .supervisor 0x7F (fun x => x.accBase.setWidth 64) (fun x v => v.toNat + x.accLim.toNat ≤ 128)
     fun x v => { x with accBase := v.setWidth 7 },
   .ofSlot 0x041 .user .supervisor 0xFF (fun x => x.accLim.setWidth 64) (fun x v => x.accBase.toNat + v.toNat ≤ 128)
     fun x v => { x with accLim := v.setWidth 8 },
   .ofSlot 0x042 .user .user 0x3F (fun x => x.reefTh.setWidth 64) (fun _ v => 1 ≤ v.toNat ∧ v.toNat ≤ 60) fun x v => { x with reefTh := v.setWidth 6 },
   ⟨0x043, .user, .user, 1, fun s => let c := s.core (coreOf s.cur)
      BitVec.ofNat 64 (s.me.reefTrap.toNat + (decide (s.me.shtag ∈ c.reefOvf)).toNat * 2 + c.reefs % 64 * 2 ^ 8 +
        (c.reefLog.filter fun e => e.2.tag == s.me.shtag).length * 2 ^ 16), fun _ _ => True,
    fun s v => s.setSlot s.cur { s.me with reefTrap := v.getLsbD 0 },
    fun s a => let c := s.core (coreOf s.cur)
      if a.getLsbD 2 then s.setCore (coreOf s.cur) (c.reefsBut s.me.shtag true)
      else if a.getLsbD 1 then s.setCore (coreOf s.cur) (c.reefsBut s.me.shtag false) else s⟩,
   .ofSlot 0x100 .supervisor .supervisor 0xBFF
     (fun x => BitVec.ofNat 64 (x.trapCause.toNat + x.trapNested.toNat * 2 ^ 8 + x.trapQueue.toNat * 2 ^ 9 +
       (if x.mode = .handler ∧ x.request.isSome then 2 ^ 10 else 0) + x.trapFrlost.toNat * 2 ^ 11)) free
     fun x v => { x with trapCause := v.setWidth 8, trapNested := v.getLsbD 8, trapQueue := v.getLsbD 9, trapFrlost := v.getLsbD 11 },
   .ofSlot 0x101 .supervisor .supervisor (-1) (fun x => x.trapPc) free fun x v => { x with trapPc := v },
   .ofSlot 0x102 .supervisor .supervisor (-1) (fun x => x.trapAddr) free fun x v => { x with trapAddr := v },
   .ofSlot 0x103 .supervisor .supervisor (-1) (fun x => x.trapAux) free fun x v => { x with trapAux := v },
   .ofSlot 0x104 .supervisor .supervisor 0x00FFFFFFFFFFFFC0 (fun x => x.faultRec) free fun x v => { x with faultRec := v },
   .ofSlot 0x110 .supervisor .supervisor 0xFFF (fun x => x.asid.setWidth 64) free fun x v => { x with asid := v.setWidth 12 },
   .ofSlot 0x111 .user .supervisor 0x3FF (fun x => x.shtag.setWidth 64) free fun x v => { x with shtag := v.setWidth 10 },
   .ofSlot 0x112 .user .supervisor 0xF (fun x => x.prio.setWidth 64) free fun x v => { x with prio := v.setWidth 4 },
   .ofSlot 0x113 .supervisor .supervisor 0x00FFFFFFFFFFF000 (fun x => x.csaBase) free fun x v => { x with csaBase := v },
   ⟨0x114, .user, .supervisor, 0x00FFFFFFFC000000, fun s => spBase s (clusterOf s.cur), fun _ _ => True,
    fun s v => { s with spbase := tabSet s.spbase (clusterOf s.cur) v }, fun s _ => s⟩,
   .ofSlot 0x120 .supervisor .supervisor 1 (fun x => BitVec.ofNat 64 x.rechk.toNat) free fun x v => { x with rechk := v.getLsbD 0 },
   ⟨0x200, .firmware, .firmware, 0xFFFFFFFFFF, fun s => ageLimitOf s (dieOf s.cur), fun _ v => v = 0 ∨ 1024 ≤ v.toNat,
    fun s v => { s with ageLimit := tabSet s.ageLimit (dieOf s.cur) v }, fun s _ => s⟩]

/-- A write of a system register by an instruction: a value that may stand there takes effect in u, any other traps with cause 0x01. -/
def WritesSys (i : Instr) (s : State) (g : SysReg) (v : Word) (u : State) : Prop :=
  (g.ok s v → PassesInto i s u) ∧ (¬ g.ok s v → exec i s = .next (trapWord s s.cur 0x01 (encode i)))

/-- A block of n bytes at a virtual address can be read and written in place at a key of ordinary memory. -/
structure PlainBlock (s : State) (va n key : Nat) : Prop where
  read : PlainRead s va n key
  write : PlainWrite s .write va n 0 key
  update : PlainWrite s .update va n 0 key
  memory : Ordinary s key n

/-- The instruction stalls until it is tried again, with no effect. -/
def Retries (i : Instr) (s : State) : Prop := Stalls i s .retry

/-- A vector instruction may be passed on (03_encoding R62; 10_context R269; 06_vector_access R157): the slot has lane groups, its vector state is its
own, and VL is not pending. -/
structure VectorOpen (s : State) : Prop where
  lanes : s.me.laneCount ≠ 0
  owner : s.me.mode = .context → s.me.vuse = true → s.me.vowner = s.me.csaBase
  vl : vlPending s s.cur = false

/-- The word of a decoded instruction is passed on to the vector queue (04_sequencer R81, R82; 05_vector R120; 03_encoding R62): with lane groups and
vector state of its own, no pending register, room in the queue and in the counters, and operands that R125 and R205 permit, the entry captures the
program counter, the progress index, VL, VCFG and the scalar operands, and the scalar destination becomes pending. -/
def EntersQueue (i : Instr) (r : Row) : Prop :=
  ∀ (s : State) (h : Shape),
    let w := encodeRow r
    let ops := wordScalars r
    let n := queueCounts w
    let cnt : Counters := { s.me.cnt with loads := s.me.cnt.loads + n.1, stores := s.me.cnt.stores + n.2.1, tiles := s.me.cnt.tiles + n.2.2 }
    VectorOpen s → (∀ x ∈ ops ++ (queueDest w).toList, (s.me.sreg x).pend = .ready) → s.me.vq.length < 32 →
    cnt.loads ≤ 255 → cnt.stores ≤ 255 → cnt.tiles ≤ 255 →
    rowShape s.me.vcfg s.me.vl s.me.vstart r = some h → h.check = true → boundBreach s s.cur s.me.vcfg h = false →
    Enqueues i s
      (fun e => e =
        { pc := s.me.pc, word := w, p := s.me.vstart, vl := s.me.vl, vcfg := s.me.vcfg, kind := .instr, op0 := s.me.val (ops.getD 0 0)
          op1 := s.me.val (ops.getD 1 0), poison0 := (s.me.sreg (ops.getD 0 0)).poison, poison1 := (s.me.sreg (ops.getD 1 0)).poison
          probed := none, joined := none, restored := false, ord := s.nextOp, began := s.me.vstart })
      cnt (queueDest w).toList

/-- The checks of the scalar side on the word of a decoded vector instruction (03_encoding R62; 04_sequencer R82; 05_vector R125; 08_stream R205). -/
def QueueChecks (i : Instr) (r : Row) : Prop :=
  ∀ s : State,
    let w := encodeRow r
    (s.me.laneCount = 0 → exec i s = .next (trapWord s s.cur 0x06 w)) ∧
    (s.me.laneCount ≠ 0 → s.me.mode = .context → s.me.vuse = true → s.me.vowner ≠ s.me.csaBase → exec i s = .next (trapWord s s.cur 0x03 w)) ∧
    StallsOn i (wordScalars r ++ (queueDest w).toList) (fun u => u = s ∧ s.me.laneCount ≠ 0 ∧
      (s.me.mode = .context → s.me.vuse = true → s.me.vowner = s.me.csaBase)) ∧
    (VectorOpen s → (∀ x ∈ wordScalars r ++ (queueDest w).toList, (s.me.sreg x).pend = .ready) →
      (32 ≤ s.me.vq.length → Stalls i s .vectorQueueFull) ∧
      (s.me.vq.length < 32 → s.me.cnt.loads < 255 → s.me.cnt.stores < 255 → s.me.cnt.tiles < 255 →
        ∀ h, rowShape s.me.vcfg s.me.vl s.me.vstart r = some h →
          (h.check = false → exec i s = .next (trapWord s s.cur 0x01 w)) ∧
          (h.check = true → boundBreach s s.cur s.me.vcfg h = true → exec i s = .next (trapWord s s.cur 0x10 w))))

/-- The bits of element i of a destination. -/
def dstBits (c : Core) (v : VView) : VDst → Nat → Nat
  | .reg r w, i => (c.elem v r w i).bits
  | .mask m, i => (c.maskBit v m i).bits

/-- Slot q of core k is the only slot of its core with work for the vector unit, one unsaved instruction entry e of row r that nothing holds back, no
chunk of the core is poisoned, and the element width is one that R119 gives, as R125 has checked (05_vector R128, R129; 14_queue R338). -/
structure BeatReady (s : State) (k q : Nat) (e : VEntry) (r : Row) : Prop where
  core : coreOf q = k
  head : (s.slot q).vq = [e]
  alone : ∀ j, coreOf j = k → j ≠ q → (s.slot j).vq = []
  word : e.word = encodeRow r ∧ wellFormedRow r = true ∧ e.kind = .instr ∧ e.restored = false
  captured : e.poison0 = none ∧ e.poison1 = none ∧ e.p < e.vl ∧ e.vl ≤ (s.slot q).vlmax e.vcfg
  slot : (s.slot q).st ≠ .free ∧ (s.slot q).due = none ∧ (s.slot q).rechk = false ∧ s.mgmt.frozen = false
  vlen : (s.slot q).vlen ∈ [2048, 4096, 8192, 16384]
  idle : portsOf s q = [] ∧ tilesOf s q = [] ∧ (s.core k).rechecks = [] ∧ ∀ p, ((s.core k).port p).stats = []
  clean : ∀ n, ((s.core k).chunk n).poison = none
  width : wbits (e.vcfg.setWidth 64) 2 0 ≤ 5

/-- One issue of the entry e of slot q has done the elements from P up to n (05_vector R126, R128): val gives the new bits of an element of the
destination, or none where it stays; the tail follows TP. No other register of the core, no other core, no other slot and no byte of memory changes. -/
structure GroupDone (s t : State) (k q : Nat) (e : VEntry) (d : VDst) (size n : Nat) (val : Nat → Option Nat) : Prop where
  device : t = { s with slots := t.slots, cores := t.cores, shares := t.shares }
  slots : ∀ j, j ≠ q → t.slot j = s.slot j
  cores : ∀ j, j ≠ k → t.core j = s.core j
  state : t.core k = { s.core k with vec := (t.core k).vec }
  range : e.p < n ∧ n ≤ e.vl
  new : ∀ i, e.p ≤ i → i < n → dstBits (t.core k) (VView.of (s.slot q) e) d i = (val i).getD (dstBits (s.core k) (VView.of (s.slot q) e) d i)
  kept : ∀ i, i < e.p ∨ n ≤ i ∧ i < size ∧ ¬ (e.vl ≤ i ∧ n = e.vl ∧ e.vcfg.getLsbD 5 = true) →
    dstBits (t.core k) (VView.of (s.slot q) e) d i = dstBits (s.core k) (VView.of (s.slot q) e) d i
  tail : n = e.vl → e.vcfg.getLsbD 5 = true → ∀ i, e.vl ≤ i → i < size → dstBits (t.core k) (VView.of (s.slot q) e) d i = 0
  rest : ∀ lane reg j, lane < 8 → reg < 40 → j < 32 →
    (match d with | .reg r w => reg < r ∨ r + max 1 (2 ^ vGroup e.vcfg * w / vWidth e.vcfg) ≤ reg | .mask m => reg ≠ 32 + m) →
    (t.core k).chunk (vecKey lane reg j) = (s.core k).chunk (vecKey lane reg j)
  clean : ∀ n, ((t.core k).chunk n).poison = none

/-- The same of an arithmetic or compare entry: it goes on at n or leaves the queue, and its slot keeps all but the flags, VDIRTY and the charge. -/
structure BeatDone (s t : State) (k q : Nat) (e : VEntry) (d : VDst) (size n : Nat) (val : Nat → Option Nat) (fl : FFlags) : Prop
    extends GroupDone s t k q e d size n val where
  queue : (t.slot q).vq = if n = e.vl then [] else [{ e with p := n, probed := none }]
  slot : t.slot q = { s.slot q with vq := (t.slot q).vq, fflags := (s.slot q).fflags ||| fl, vdirty := (t.slot q).vdirty, charge := (t.slot q).charge }

/-- The new bits of an element of an element-wise instruction (05_vector R126): f where it is active, zero under MP where it is not. -/
def maskedValue (c : Core) (v : VView) (m : Nat) (f : Nat → Nat) (i : Nat) : Option Nat :=
  if c.active v m i then some (f i) else if v.vcfg.getLsbD 6 then some 0 else none

/-- The flags of the active elements from lo to hi − 1 (05_vector R126). -/
def flagsOf (c : Core) (v : VView) (m lo hi : Nat) (f : Nat → FFlags) : FFlags :=
  (List.range hi).foldl (fun a i => if lo ≤ i ∧ c.active v m i then a ||| f i else a) 0

/-- A group of 2^G registers stands where R125 allows. -/
def Placed (c : BitVec 14) (r : Nat) : Prop := r % 2 ^ vGroup c = 0 ∧ r + 2 ^ vGroup c ≤ 32

/-- An element-wise instruction at the plain width (05_vector R126, R128, R133, R135): one issue treats the next 2,048 / w active elements, or all that
are left. rd and rs are its destination and source groups, m its mask field, ok what its configuration must satisfy, and f the
element's bits and flags. -/
def ElementWise (r : Row) (rd : Nat) (rs : List Nat) (m : Nat) (ok : BitVec 14 → Prop) (f : Core → VView → VEntry → Nat → Nat × FFlags) : Prop :=
  ∀ (s : State) (k q : Nat) (e : VEntry), BeatReady s k q e r → ok e.vcfg → (∀ x ∈ rd :: rs, Placed e.vcfg x) →
    let c := s.core k
    let v := VView.of (s.slot q) e
    ∃ t n, exec (.vectorIssue k ⟨0, []⟩) s = .next t ∧
      BeatDone s t k q e (.reg rd (vWidth e.vcfg)) ((s.slot q).vlmax e.vcfg) n (maskedValue c v m fun i => (f c v e i).1)
        (flagsOf c v m e.p n fun i => (f c v e i).2) ∧
      (n < e.vl → ((List.range n).filter fun i => decide (e.p ≤ i) && c.active v m i).length = 2048 / vWidth e.vcfg)

/-- A widening instruction (05_vector R134): as ElementWise, into a group of twice the registers at twice the width. -/
def WideElements (r : Row) (rd : Nat) (rs : List Nat) (m : Nat) (f : Core → VView → VEntry → Nat → Nat) : Prop :=
  ∀ (s : State) (k q : Nat) (e : VEntry), BeatReady s k q e r → vWidth e.vcfg ≤ 32 → vGroup e.vcfg ≤ 2 → rd % (2 * 2 ^ vGroup e.vcfg) = 0 →
    rd + 2 * 2 ^ vGroup e.vcfg ≤ 32 → (∀ x ∈ rs, Placed e.vcfg x ∧ (x + 2 ^ vGroup e.vcfg ≤ rd ∨ rd + 2 * 2 ^ vGroup e.vcfg ≤ x)) →
    let c := s.core k
    let v := VView.of (s.slot q) e
    ∃ t n, exec (.vectorIssue k ⟨0, []⟩) s = .next t ∧
      BeatDone s t k q e (.reg rd (2 * vWidth e.vcfg)) ((s.slot q).vlmax e.vcfg) n (maskedValue c v m fun i => f c v e i) 0 ∧
      (n < e.vl → ((List.range n).filter fun i => decide (e.p ≤ i) && c.active v m i).length = 2048 / (2 * vWidth e.vcfg))

/-- VNSHR (05_vector R134): as ElementWise, from a group of twice the registers at twice the width. -/
def NarrowElements (r : Row) (rd ra : Nat) (rs : List Nat) (m : Nat) (f : Core → VView → VEntry → Nat → Nat) : Prop :=
  ∀ (s : State) (k q : Nat) (e : VEntry), BeatReady s k q e r → vWidth e.vcfg ≤ 32 → (∀ x ∈ rd :: rs, Placed e.vcfg x) →
    ra % (2 * 2 ^ vGroup e.vcfg) = 0 → ra + 2 * 2 ^ vGroup e.vcfg ≤ 32 →
    rd + 2 ^ vGroup e.vcfg ≤ ra ∨ ra + 2 * 2 ^ vGroup e.vcfg ≤ rd →
    let c := s.core k
    let v := VView.of (s.slot q) e
    ∃ t n, exec (.vectorIssue k ⟨0, []⟩) s = .next t ∧
      BeatDone s t k q e (.reg rd (vWidth e.vcfg)) ((s.slot q).vlmax e.vcfg) n (maskedValue c v m fun i => f c v e i) 0 ∧
      (n < e.vl → ((List.range n).filter fun i => decide (e.p ≤ i) && c.active v m i).length = 2048 / (2 * vWidth e.vcfg))

/-- VFCVT (05_vector R136): as ElementWise, into a group of elements of wd bits. -/
def ConvertElements (r : Row) (rd ra m wd : Nat) (ok : BitVec 14 → Prop) (f : Core → VView → VEntry → Nat → Nat × FFlags) : Prop :=
  ∀ (s : State) (k q : Nat) (e : VEntry), BeatReady s k q e r → ok e.vcfg → Placed e.vcfg ra →
    let g := max 1 (2 ^ vGroup e.vcfg * wd / vWidth e.vcfg)
    g ≤ 8 → rd % g = 0 → rd + g ≤ 32 → (wd = vWidth e.vcfg ∨ ra + 2 ^ vGroup e.vcfg ≤ rd ∨ rd + g ≤ ra) →
    let c := s.core k
    let v := VView.of (s.slot q) e
    ∃ t n, exec (.vectorIssue k ⟨0, []⟩) s = .next t ∧
      BeatDone s t k q e (.reg rd wd) (min ((s.slot q).vlen * g / wd) ((s.slot q).vlen / 2)) n (maskedValue c v m fun i => (f c v e i).1)
        (flagsOf c v m e.p n fun i => (f c v e i).2) ∧
      (n < e.vl → ((List.range n).filter fun i => decide (e.p ≤ i) && c.active v m i).length = 2048 / max (vWidth e.vcfg) wd)

/-- The types that VFCVT converts to, by their code (03_encoding R67): signed and unsigned integers, and floating types. -/
def convertTypes : List (BitVec 5 × (Bool × Nat ⊕ Fmt)) :=
  [(0, .inl (true, 2)), (1, .inl (true, 4)), (2, .inl (true, 8)), (3, .inl (true, 16)), (4, .inl (true, 32)), (5, .inl (true, 64)),
   (6, .inl (false, 8)), (7, .inl (false, 16)), (8, .inl (false, 32)), (9, .inl (false, 64)), (12, .inr fmtBF16), (13, .inr fmtF16),
   (14, .inr fmtF32), (15, .inr fmtF64)]

/-- The width of such a type. -/
def convertWidth (t : Bool × Nat ⊕ Fmt) : Nat := match t with | .inl i => i.2 | .inr f => 1 + f.ebits + f.fbits

/-- An element of w bits converted (05_vector R136; 02_numbers R34 to R36): CVS tells whether it is of the floating type, signed or unsigned. -/
def converted (v : VView) (t : Bool × Nat ⊕ Fmt) (sat : Bool) (x : Nat) : Nat × FFlags :=
  let w := vWidth v.vcfg
  let int : Int := if wbits (v.vcfg.setWidth 64) 13 12 = 1 then (BitVec.ofNat w x).toInt else (BitVec.ofNat w x).toNat
  let value : FVal := if wbits (v.vcfg.setWidth 64) 13 12 = 0 then ((floatType v.vcfg).getD fmtF64).decode x else .ofInt int
  match t with
  | .inr f => let r := f.round v.frm sat value; (r.1, r.2 ||| if value = .nan true then flagNV else 0)
  | .inl (signed, n) =>
    if wbits (v.vcfg.setWidth 64) 13 12 = 0 then toInteger v.frm signed n value
    else
      let lo : Int := if signed then -2 ^ (n - 1) else 0
      let hi : Int := if signed then 2 ^ (n - 1) - 1 else 2 ^ n - 1
      ((BitVec.ofInt n (if sat && decide (n ≤ w) then max lo (min hi int) else int)).toNat, 0)

/-- A floating-point condition of VFCMP by its code (05_vector R137; 04_sequencer R93): .eq, .ne, .lt, .le and .un; NV for a signalling NaN, and under
.lt and .le for any NaN. -/
def floatHolds (k : Nat) (x y : FVal) : Bool × FFlags :=
  match x.extended, y.extended with
  | some a, some b => (match k with
      | 0 => decide (a = b)
      | 1 => decide (a ≠ b)
      | 2 => decide (a < b)
      | 3 => decide (a ≤ b)
      | _ => false, 0)
  | _, _ => (k == 1 || k == 4, if k = 2 ∨ k = 3 ∨ x = .nan true ∨ y = .nan true then flagNV else 0)

/-- The classes of VFCLASS (05_vector R135), one bit each. -/
def floatClass (f : Fmt) (code : Nat) : Nat :=
  match f.decode code with
  | .inf true => 2 ^ 0
  | .inf false => 2 ^ 7
  | .nan true => 2 ^ 8
  | .nan false => 2 ^ 9
  | .fin neg m _ _ =>
    if m = 0 then (if neg then 2 ^ 3 else 2 ^ 4)
    else if code / 2 ^ f.fbits % 2 ^ f.ebits = 0 then (if neg then 2 ^ 2 else 2 ^ 5)
    else if neg then 2 ^ 1 else 2 ^ 6

/-- What r holds as the smaller, or the larger, of two codes of a format (02_numbers R30; 04_sequencer R92; 05_vector R135): of two numbers the smaller or
larger one, with −0 below +0; beside a NaN the other operand; of two NaNs the canonical one. NV is set by a signalling NaN, and nothing else is. -/
def PicksOf (f : Fmt) (less : Bool) (x y : Nat) (r : Nat × FFlags) : Prop :=
  (r.2 = if f.decode x = .nan true ∨ f.decode y = .nan true then flagNV else 0) ∧
  (∀ a b, f.valueOf x = some a → f.valueOf y = some b →
    (a < b → r.1 = if less then x else y) ∧ (b < a → r.1 = if less then y else x) ∧
    (a = b → (r.1 = x ∨ r.1 = y) ∧ (f.decode r.1).neg = if less then (f.decode x).neg || (f.decode y).neg else (f.decode x).neg && (f.decode y).neg)) ∧
  (f.valueOf x = none → f.valueOf y ≠ none → r.1 = y) ∧ (f.valueOf x ≠ none → f.valueOf y = none → r.1 = x) ∧
  (f.valueOf x = none → f.valueOf y = none → r.1 = (2 ^ (f.ebits + 1) - 1) * 2 ^ (f.fbits - 1))

/-- The sum of the products of the four signed fields of a quarter of w bits of two elements (05_vector R133). -/
def fieldProducts (w x y : Nat) : Int :=
  let field := fun (z j : Nat) => ((BitVec.ofNat w z).extractLsb' (j * (w / 4)) (w / 4)).toInt
  field x 0 * field y 0 + field x 1 * field y 1 + field x 2 * field y 2 + field x 3 * field y 3

/-- An integer operation on two vector operands, and on a vector and a scalar operand (05_vector R133). -/
def VectorInteger (i : BitVec 5 → BitVec 5 → BitVec 5 → BitVec 3 → VArith) (j : BitVec 5 → BitVec 5 → BitVec 6 → BitVec 3 → VArith)
    (f : (w : Nat) → BitVec w → BitVec w → BitVec w) : Prop :=
  (∀ d a b m, ElementWise (.arith (i d a b m)) d.toNat [a.toNat, b.toNat] m.toNat (fun _ => True) fun c v e n =>
    let w := vWidth e.vcfg
    ((f w (BitVec.ofNat w (c.elem v a.toNat w n).bits) (BitVec.ofNat w (c.elem v b.toNat w n).bits)).toNat, 0)) ∧
  ∀ d a b m, ElementWise (.arith (j d a b m)) d.toNat [a.toNat] m.toNat (fun _ => True) fun c v e n =>
    let w := vWidth e.vcfg
    ((f w (BitVec.ofNat w (c.elem v a.toNat w n).bits) (e.op0.setWidth w)).toNat, 0)

/-- Rounding of an exact result to the floating type of a configuration under FRM (05_vector R135; 02_numbers R31). -/
def vectorRound (v : VView) (x : FVal × FFlags) : Nat × FFlags :=
  let r := ((floatType v.vcfg).getD fmtF64).round v.frm false x.1
  (r.1, r.2 ||| x.2)

/-- The exact value of an element of a group, and of the captured scalar (05_vector R135; 04_sequencer R82). -/
def elemValue (c : Core) (v : VView) (r n : Nat) : FVal := ((floatType v.vcfg).getD fmtF64).decode (c.elem v r (vWidth v.vcfg) n).bits
def scalarElem (v : VView) (e : VEntry) : FVal := ((floatType v.vcfg).getD fmtF64).decode (e.op0.toNat % 2 ^ vWidth v.vcfg)

/-- A floating-point operation on two vector operands, and on a vector and a scalar operand (05_vector R135): g has the exact values of both and of the
destination. -/
def VectorFloat (i : BitVec 5 → BitVec 5 → BitVec 5 → BitVec 3 → VArith) (j : BitVec 5 → BitVec 5 → BitVec 6 → BitVec 3 → VArith)
    (g : VView → FVal → FVal → FVal → FVal × FFlags) : Prop :=
  (∀ d a b m, ElementWise (.arith (i d a b m)) d.toNat [a.toNat, b.toNat] m.toNat (fun c => (floatType c).isSome) fun c v _ n =>
    vectorRound v (g v (elemValue c v a.toNat n) (elemValue c v b.toNat n) (elemValue c v d.toNat n))) ∧
  ∀ d a b m, ElementWise (.arith (j d a b m)) d.toNat [a.toNat] m.toNat (fun c => (floatType c).isSome) fun c v e n =>
    vectorRound v (g v (elemValue c v a.toNat n) (scalarElem v e) (elemValue c v d.toNat n))

/-- A compare (05_vector R137): mask bit i tells whether the condition holds. -/
def VectorCompare (r : Row) (d : Nat) (rs : List Nat) (m : Nat) (ok : BitVec 14 → Prop) (f : Core → VView → VEntry → Nat → Bool × FFlags) : Prop :=
  ∀ (s : State) (k q : Nat) (e : VEntry), BeatReady s k q e r → ok e.vcfg → (∀ x ∈ rs, Placed e.vcfg x) → d ≠ 0 →
    let c := s.core k
    let v := VView.of (s.slot q) e
    ∃ t n, exec (.vectorIssue k ⟨0, []⟩) s = .next t ∧
      BeatDone s t k q e (.mask d) (1024 * (s.slot q).laneCount) n (maskedValue c v m fun i => (f c v e i).1.toNat)
        (flagsOf c v m e.p n fun i => (f c v e i).2)

/-- An instruction that issues in one piece and writes a register group or a mask register (05_vector R130, R138 to R140): val gives the new bits of each
element from P to VL − 1. An instruction that ignores P (R140) is stated for P = 0. -/
def WholeWith (ok : BitVec 14 → Prop) (r : Row) (d : VDst) (again : Bool) (rs : List Nat) (val : Core → VView → VEntry → Nat → Option Nat)
    (fl : Core → VView → VEntry → FFlags) : Prop :=
  ∀ (s : State) (k q : Nat) (e : VEntry), BeatReady s k q e r → ok e.vcfg → (∀ x ∈ rs, Placed e.vcfg x) → (again = true → e.p = 0) →
    ∃ t, exec (.vectorIssue k ⟨0, []⟩) s = .next t ∧
      BeatDone s t k q e (match d with | .reg x _ => .reg x (vWidth e.vcfg) | .mask x => .mask x)
        (match d with | .reg _ _ => (s.slot q).vlmax e.vcfg | .mask _ => 1024 * (s.slot q).laneCount) e.vl
        (val (s.core k) (VView.of (s.slot q) e) e) (fl (s.core k) (VView.of (s.slot q) e) e)

/-- The same without flags, for every configuration. -/
def Whole (r : Row) (d : VDst) (again : Bool) (rs : List Nat) (val : Core → VView → VEntry → Nat → Option Nat) : Prop :=
  WholeWith (fun _ => True) r d again rs val fun _ _ _ => 0

/-- VFREDU's tree (02_numbers R55): what stands at a position of a level, from the values at the positions of level 0, and the flags of the additions
below it. -/
def treeAt (add : Nat → Nat → Nat × FFlags) (leaf : Nat → Option Nat) : Nat → Nat → Option Nat × FFlags
  | 0, j => (leaf j, 0)
  | l + 1, j =>
    let x := treeAt add leaf l (2 * j)
    let y := treeAt add leaf l (2 * j + 1)
    match x.1, y.1 with
    | some a, some b => (some (add a b).1, x.2 ||| y.2 ||| (add a b).2)
    | some a, none => (some a, x.2 ||| y.2)
    | none, z => (z, x.2 ||| y.2)

/-- An instruction of the vector unit writes a scalar register (05_vector R139, R140; 04_sequencer R81). -/
def WritesScalar (r : Row) (d : Nat) (rs : List Nat) (val : Core → VView → VEntry → Word) : Prop :=
  ∀ (s : State) (k q : Nat) (e : VEntry), BeatReady s k q e r → (∀ x ∈ rs, Placed e.vcfg x) → d ≠ 0 →
    ∃ t, exec (.vectorIssue k ⟨0, []⟩) s = .next t ∧ t = { s with slots := t.slots, cores := t.cores, shares := t.shares } ∧
      (∀ j, j ≠ q → t.slot j = s.slot j) ∧ (∀ j, t.core j = s.core j) ∧ (t.slot q).vq = [] ∧
      (t.slot q).sreg d = ⟨val (s.core k) (VView.of (s.slot q) e) e, none, .ready⟩ ∧ RegsKept (s.slot q) (t.slot q) [d]

/-- One place of memory that the lanes of slot q touch for its entry e (06_vector_access R149 to R152; 00_scope R13): n bytes at a virtual address, within
one 4 KiB granule, at a key of ordinary memory by the translations that the access holds. Before the first element group they pass Probe without a
change of the tables, and nothing that 09_guard R231 puts before the access meets them. -/
structure LanePlace (s : State) (q : Nat) (e : VEntry) (k : Access) (pages : List HeldPage) (va n key : Nat) : Prop where
  inside : 0 < n ∧ va % 4096 + n ≤ 4096
  fresh : e.probed = none → (∃ h, checkAddr s (laneAgent s q va) va k = .ok h ∧ h.key = key) ∧ touch s (laneAgent s q va) va k = s ∧
    rangeWaits s q e.ord (va, n) = false
  page : ∃ h, heldAt pages (laneAgent s q va).slice va = some h ∧ h.key + (va - h.va) = key ∧ h.poison = none
  memory : Ordinary s key n
  held : k = .write ∨ readHolds s (laneAgent s q va) va n = []
  clean : k = .write ∨ rangePoison s key n = none
  still : k = .read ∨ migratingAt s (laneAgent s q va) va n = false

/-- What the access of an entry knows from its Probe on (06_vector_access R151): it is to find its translations now, or holds them and waits for
nothing. -/
def AccessPages (s : State) (q : Nat) (e : VEntry) (b : Probed) : Prop :=
  let c := s.core (coreOf q)
  let v := VView.of (s.slot q) e
  (e.probed = none ∧ ∃ a, rowAcc e = some a ∧ b = { pages := a.pages s q c v (a.elems c v), waits := [] }) ∨ (e.probed = some b ∧ b.waits = [])

/-- What one element group of an access leaves of its slot (05_vector R126; 04_sequencer R109): the entry goes on at n with its translations or leaves
the queue, and a load or a store is complete; vl is VL after it. -/
structure AccessLeaves (s t : State) (q : Nat) (e : VEntry) (b : Probed) (n vl : Nat) (load : Bool) (fl : FFlags) : Prop where
  queue : if n = e.vl then (t.slot q).vq = [] else
    ∃ b' : Probed, b'.pages = b.pages ∧ b'.waits = [] ∧ (t.slot q).vq = [{ e with p := n, probed := some b' }]
  slot : t.slot q = { s.slot q with
    vq := (t.slot q).vq, fflags := (s.slot q).fflags ||| fl, vdirty := (t.slot q).vdirty, charge := (t.slot q).charge, vl := vl
    cnt := if n ≠ e.vl then (s.slot q).cnt
      else if load then { (s.slot q).cnt with loads := (s.slot q).cnt.loads - 1 } else { (s.slot q).cnt with stores := (s.slot q).cnt.stores - 1 } }

/-- The active elements from lo to hi − 1, ascending. -/
def activeFrom (c : Core) (v : VView) (m lo hi : Nat) : List Nat := (List.range hi).filter fun i => decide (lo ≤ i) && c.active v m i

/-- A vector load (06_vector_access R147, R149, R150, R163): one issue loads the next 2,048 / w active elements, or all that are left. place gives an
element's address and its first bit there, w its bits in memory, scale the address of its block's scale byte, where there is one, and val what
becomes of the bits read, with that byte. Elements of whole bytes are aligned where al holds. -/
def LoadElements (i : Instr) (d m : Nat) (rs : List Nat) (al : Bool) (ok : BitVec 14 → Prop) (place : Core → VView → VEntry → Nat → Nat × Nat)
    (w : BitVec 14 → Nat) (scale : Option (VEntry → Nat → Nat)) (val : VView → Nat → Nat → Nat × FFlags) : Prop :=
  ∀ (s : State) (k q : Nat) (e : VEntry) (b : Probed) (key sk : Nat → Nat), BeatReady s k q e (.instr i) → ok e.vcfg → (∀ x ∈ d :: rs, Placed e.vcfg x) →
    AccessPages s q e b →
    let c := s.core k
    let v := VView.of (s.slot q) e
    let at_ := place c v e
    let n8 := fun j => ((at_ j).2 + w e.vcfg + 7) / 8
    (∀ j ∈ activeFrom c v m e.p e.vl, LanePlace s q e .read b.pages (at_ j).1 (n8 j) (key j) ∧
      (al = true → 8 ≤ vWidth e.vcfg → (at_ j).1 % (vWidth e.vcfg / 8) = 0) ∧ ∀ f ∈ scale, LanePlace s q e .read b.pages (f e j) 1 (sk j)) →
    let res := fun j => val v (readLE s.mem (key j) (n8 j) / 2 ^ (at_ j).2 % 2 ^ w e.vcfg) (readLE s.mem (sk j) 1)
    ∃ t n, exec (.vectorIssue k ⟨0, []⟩) s = .next t ∧
      GroupDone s t k q e (.reg d (vWidth e.vcfg)) ((s.slot q).vlmax e.vcfg) n (maskedValue c v m fun j => (res j).1) ∧
      AccessLeaves s t q e b n (s.slot q).vl true (flagsOf c v m e.p n fun j => (res j).2) ∧
      (n < e.vl → (activeFrom c v m e.p n).length = 2048 / vWidth e.vcfg)

/-- Memory with w bits written from a bit of the byte at a key on; the other bits of the bytes stay (06_vector_access R148, R160). -/
def writeBitsAt (m : List Host.Cell) (key off w bits : Nat) : List Host.Cell :=
  let n := (off + w + 7) / 8
  let old := readLE m key n
  writeBytes key (leBytes n (old - old / 2 ^ off % 2 ^ w * 2 ^ off + bits % 2 ^ w * 2 ^ off)) m

/-- Nothing but memory, its poison, sector tags, slot q and the bookkeeping of shares differs, and no core. -/
structure OnlyStored (s t : State) (q : Nat) : Prop where
  device : t = { s with slots := t.slots, cores := t.cores, shares := t.shares, mem := t.mem, poison := t.poison, sectors := t.sectors }
  slots : ∀ j, j ≠ q → t.slot j = s.slot j
  cores : ∀ j, t.core j = s.core j

/-- A vector store (06_vector_access R147, R149, R150, R159, R164): one issue stores the next 2,048 / w active elements, or all that are left, in ascending
order. val gives an element's bits in memory and its flags from the element and from what memory holds in its place by then. -/
def StoreElements (i : Instr) (d m : Nat) (rs : List Nat) (al : Bool) (ok : BitVec 14 → Prop) (acc : Access)
    (place : Core → VView → VEntry → Nat → Nat × Nat) (w : BitVec 14 → Nat) (val : VView → Nat → Nat → Nat × FFlags) : Prop :=
  ∀ (s : State) (k q : Nat) (e : VEntry) (b : Probed) (key : Nat → Nat), BeatReady s k q e (.instr i) → ok e.vcfg → (∀ x ∈ d :: rs, Placed e.vcfg x) →
    AccessPages s q e b →
    let c := s.core k
    let v := VView.of (s.slot q) e
    let at_ := place c v e
    let n8 := fun j => ((at_ j).2 + w e.vcfg + 7) / 8
    (∀ j ∈ activeFrom c v m e.p e.vl, LanePlace s q e acc b.pages (at_ j).1 (n8 j) (key j) ∧
      (al = true → 8 ≤ vWidth e.vcfg → (at_ j).1 % (vWidth e.vcfg / 8) = 0)) →
    let put := fun (x : List Host.Cell × FFlags) (j : Nat) =>
      let r := val v (c.elem v d (vWidth e.vcfg) j).bits (readLE x.1 (key j) (n8 j))
      (writeBitsAt x.1 (key j) (at_ j).2 (w e.vcfg) r.1, x.2 ||| r.2)
    ∃ t n, exec (.vectorIssue k ⟨0, []⟩) s = .next t ∧ OnlyStored s t q ∧ e.p < n ∧ n ≤ e.vl ∧
      (n < e.vl → (activeFrom c v m e.p n).length = 2048 / vWidth e.vcfg) ∧
      (let r := (activeFrom c v m e.p n).foldl put (s.mem, 0)
       t.mem = r.1 ∧ AccessLeaves s t q e b n (s.slot q).vl false r.2) ∧
      ∀ a, (∀ j ∈ activeFrom c v m e.p n, a < key j ∨ key j + n8 j ≤ a) → readByte t.mem a = readByte s.mem a

/-- Where the elements of the five forms of an access lie (06_vector_access R147, R162): by unit stride at a width, with a stride, or by indexes. -/
def placeUnit (w : BitVec 14 → Nat) (_ : Core) (_ : VView) (e : VEntry) (j : Nat) : Nat × Nat :=
  ((e.op0 + BitVec.ofNat 64 (j * w e.vcfg / 8)).toNat, j * w e.vcfg % 8)
def placeStrided (_ : Core) (_ : VView) (e : VEntry) (j : Nat) : Nat × Nat := ((e.op0 + BitVec.ofNat 64 j * e.op1).toNat, 0)
def placeIndexed (r : Nat) (c : Core) (v : VView) (e : VEntry) (j : Nat) : Nat × Nat :=
  ((e.op0 + BitVec.ofNat 64 ((c.elem v r (vWidth e.vcfg) j).bits * (vWidth e.vcfg / 8))).toNat, 0)

/-- The bits of an entry's captured mask field of TMOVR and TMOVW (07_tile R192; 05_vector R119): the mask register, or 0 for none. -/
def moveMask (c : BitVec 14) : Nat := if c.getLsbD 11 then wbits (c.setWidth 64) 10 8 else 0

/-- A tile instruction is passed on to its core's tile queue (07_tile R170, R172, R176; 03_encoding R62): with a descriptor and an operand that may stand,
room in the queue, ports that feed it, and nothing of the vector queue to wait for, an entry captures its program counter, the core's next
sequence number, FRM, REEFTH, TRAP, ACCBASE, the descriptor and the operand, and TILES counts it. A register that it will write becomes pending. -/
def EntersTiles (i : Instr) (t k : Nat) (dest : Option Nat) : Prop :=
  ∀ s : State,
    let q := s.cur
    let core := coreOf q
    let w := (encode i).getD 0
    let d := s.me.val t
    (s.me.mode = .context → s.me.vuse = true → s.me.vowner = s.me.csaBase) → s.me.Clean [t, k] →
    (∀ r ∈ dest, (s.me.sreg r).pend = .ready) → tileRoom s core [w] = true →
    s.me.cnt.loads ≤ 255 → s.me.cnt.stores ≤ 255 → s.me.cnt.tiles < 255 →
    (w / 32 % 8 = 1 → s.me.laneCount ≠ 0 ∧ vectorIdle s q = true) → (wordIsTileAccess w = true → fenceWaiting s q = false) →
    descBad d (isTstat i) (readsPorts i) s.me.accLim.toNat = none → opkOk s.me core d (s.me.val k) i = true →
    (∀ p ∈ (portsRead i).zip [tdAt d, tdBt d], portFeeds s q p.1 p.2 = true) →
    let e : TEntry :=
      { slot := q, pc := s.me.pc, word := w, seq := (s.core core).seq, kp := 0, frm := s.me.frm, reefTh := s.me.reefTh, reefTrap := s.me.reefTrap
        accRow := s.me.accBase, desc := d, opk := s.me.val k, poison := none, tag := s.me.shtag, gangOf := none, reefed := false
        ord := s.nextOp, dest := (dest.map s.me.regIndex).getD 0, waits := [] }
    ∃ n, exec i s = .next n ∧ n = { s with slots := n.slots, cores := n.cores, nextOp := s.nextOp + 1 } ∧ (∀ r, r ≠ q → n.slot r = s.slot r) ∧
      n.core core = { s.core core with tq := (s.core core).tq ++ [e], seq := (s.core core).seq + 1 } ∧
      (∀ m, m ≠ core → n.core m = if isGangWord w ∧ m / 16 = core / 16 then
        { s.core m with tq := (s.core m).tq ++ [{ e with seq := (s.core m).seq, gangOf := some core }], seq := (s.core m).seq + 1 } else s.core m) ∧
      SystemKept { s.me with cnt := { s.me.cnt with tiles := s.me.cnt.tiles + 1 } } n.me ∧ RegsKept s.me n.me dest.toList ∧ WentOn s.me n.me ∧
      ∀ r ∈ dest, r ≠ 0 → n.me.sreg r = { s.me.sreg r with pend := .queue }

/-- The entry e of instruction i is the only one of core k's tile queue, its slot's work holds nothing back, and its descriptor and operand may stand
(07_tile R170, R173). -/
structure TileReady (s : State) (k : Nat) (e : TEntry) (i : Instr) : Prop where
  head : (s.core k).tq = [e]
  word : encode i = some e.word ∧ wellFormed i = true ∧ e.gangOf = none ∧ e.poison = none
  slot : coreOf e.slot = k ∧ (s.slot e.slot).due = none ∧ s.mgmt.frozen = false
  desc : descBad e.desc (isTstat i) (readsPorts i) (s.slot e.slot).accLim.toNat = none
  opk : opkOk (s.slot e.slot) k e.desc e.opk i = true
  idle : ∀ p, ((s.core k).port p).stats = []

/-- Slot q after a tile operation has run, its counter and interrupt bit aside: VDIRTY, FFLAGS and the registers may differ. -/
def Slot.afterTile (x y : Slot) : Slot :=
  { x with vdirty := y.vdirty, fflags := y.fflags, regs := y.regs, bank1 := y.bank1 }

/-- A slot whose tile operation is complete (04_sequencer R109; 00_scope R11): TILES falls, and a reef that traps makes interrupt 0x13 pending. -/
def Slot.tileCounted (x : Slot) (raises : Bool) : Slot :=
  { x with cnt := { x.cnt with tiles := x.cnt.tiles - 1 }, uistat := { x.uistat with preef := x.uistat.preef || raises } }

/-- The tile operation e of core k has completed (04_sequencer R109; 07_tile R184): it has left the queue and its slot counts one less. Beside the
core's accumulator store, and VDIRTY of the slots of the core, only what is stated of e's slot changes. -/
structure TileDone (s t : State) (k : Nat) (e : TEntry) : Prop where
  device : t = { s with slots := t.slots, cores := t.cores }
  cores : ∀ m, m ≠ k → t.core m = s.core m
  state : t.core k = { s.core k with tq := [], acc := (t.core k).acc, seg := (t.core k).seg, rowTag := (t.core k).rowTag }
  slot : t.slot e.slot = ((s.slot e.slot).afterTile (t.slot e.slot)).tileCounted (e.reefTrap && e.reefed)
  slots : ∀ r, r ≠ e.slot → t.slot r = { s.slot r with vdirty := (t.slot r).vdirty }

/-- The same of one that may have reefed (07_tile R183; 00_scope R11): the reef log too may have changed, and raises tells whether the slot is to be
interrupted. -/
structure TileReefed (s t : State) (k : Nat) (e : TEntry) (raises : Bool) : Prop where
  device : t = { s with slots := t.slots, cores := t.cores }
  cores : ∀ m, m ≠ k → t.core m = s.core m
  state : t.core k = { s.core k with
    tq := [], acc := (t.core k).acc, seg := (t.core k).seg, rowTag := (t.core k).rowTag, reefLog := (t.core k).reefLog, reefs := (t.core k).reefs
    reefOvf := (t.core k).reefOvf }
  slot : t.slot e.slot = ((s.slot e.slot).afterTile (t.slot e.slot)).tileCounted raises
  slots : ∀ r, r ≠ e.slot → t.slot r = { s.slot r with vdirty := (t.slot r).vdirty }

/-- The cells of a tile: those of rows row0 up, at the columns of its segments (07_tile R166, R169). -/
def inTile (e : TEntry) (cell : Nat) : Prop :=
  e.row0 ≤ cell / 128 ∧ cell / 128 < e.row0 + tdRows e.desc ∧ 32 * tdSegb e.desc ≤ cell % 128 ∧ cell % 128 < 32 * (tdSegb e.desc + tdSegs e.desc)

/-- The next value of k of a dense tile operation that has more: the entry e of TMMA (per = 1) or TMMAF (per = 8) is ready and takes kn of them in
this step (07_tile R176, R186). -/
structure StepReady (s : State) (k : Nat) (e : TEntry) (x y : BitVec 6) (a b : BitVec 3) (per kn : Nat) : Prop where
  ready : per = 1 ∧ TileReady s k e (.tmma x a b y) ∨ per = 8 ∧ TileReady s k e (.tmmaf x a b y)
  left : e.kp * per < e.opk.toNat
  takes : kn = min per (e.opk.toNat - e.kp * per)

/-- The integer nearest to a rational number on the side of zero (00_scope R9). -/
def towardZero (q : ℚ) : Int := if 0 ≤ q then ⌊q⌋ else ⌈q⌉

/-- One step of an accumulation of core k has been made (07_tile R176, R184): last tells whether the entry has left the queue. Its rows carry its tag,
and no cell or segment outside its tile has changed. -/
structure MatrixStepped (s t : State) (k : Nat) (e : TEntry) (last : Bool) : Prop where
  device : t = { s with slots := t.slots, cores := t.cores }
  cores : ∀ m, m ≠ k → t.core m = s.core m
  state : ∃ re, t.core k = { s.core k with
    acc := (t.core k).acc, seg := (t.core k).seg, rowTag := (t.core k).rowTag, reefLog := (t.core k).reefLog, reefs := (t.core k).reefs
    reefOvf := (t.core k).reefOvf, ports := (t.core k).ports, tq := if last then [] else [{ e with kp := e.kp + 1, reefed := re }] }
  slots : ∀ r, r ≠ e.slot → t.slot r = { s.slot r with vdirty := (t.slot r).vdirty }
  outside : ∀ n, ¬ inTile e n → (t.core k).cell n = (s.core k).cell n ∧ (t.core k).segment (n / 32) = (s.core k).segment (n / 32)
  tags : ∀ r, tabGet (t.core k).rowTag 0 r = if e.row0 ≤ r ∧ r < e.row0 + tdRows e.desc then e.tag else tabGet (s.core k).rowTag 0 r

/-- A segment g that is not EMPTY, whose cells are finite and have headroom, has received an exact sum in each cell (07_tile R178, R179; 00_scope R9),
of n products at most, each of which bound keeps away from the top: the sum aligned once toward zero; E stays. -/
def SegmentAdds (c u : Core) (g n : Nat) (bound sum : Nat → ℚ) : Prop :=
  (c.segment g).empty = false → 1 ≤ (c.segment g).hr → (∀ i < 32, cellClass (c.cell (32 * g + i)).bits = 0) →
    (∀ i < 32, |bound i| * 2 ^ ceilLog2 n < (2 : ℚ) ^ (60 + (c.segment g).exp)) →
    (u.segment g).exp = (c.segment g).exp ∧ (u.segment g).empty = false ∧ (u.segment g).reefCnt = (c.segment g).reefCnt ∧
    ∀ i < 32, (u.cell (32 * g + i)).bits = finiteCell (cellM (c.cell (32 * g + i)).bits + towardZero (sum i / (2 : ℚ) ^ (c.segment g).exp))

/-- A port holds n elements or more. -/
def Port.holds (x : Port) (n : Nat) : Prop := n ≤ x.fifo.length

/-- No further element of a port's stream will come (08_stream R202). -/
def Port.over (x : Port) : Prop := x.stop.isSome = true ∨ x.st = .ended ∨ x.st = .closed

/-- The exact value of the element at a place of a port (07_tile R177; 02_numbers R48, R49), where it is an unpoisoned number. -/
def Port.operand (x : Port) (n : Nat) : Option ℚ :=
  match (x.fifo[n]?).map (operandVal x.spec) with
  | some ⟨.fin neg m e false, none⟩ => some (realOfFin neg m e)
  | _ => none

/-- n bytes at a virtual address that an agent may read at a key of ordinary memory (00_scope R13; 08_stream R225): within one 4 KiB granule, permitted,
translated without a change of the tables, not behind a link's traffic, and not poisoned. -/
structure AgentRead (s : State) (ag : Agent) (va n key : Nat) : Prop where
  inside : 0 < n ∧ va % 4096 + n ≤ 4096
  passes : ∃ h, checkAddr s ag va .read = .ok h ∧ h.key = key ∧ h.poison = none
  memory : Ordinary s key n
  cached : touch s ag va .read = s
  held : readHolds s ag va n = []
  clean : rangePoison s key n = none

/-- n bytes at a virtual address that an agent may write at a key of ordinary memory: as AgentRead, and not in a page that is MIGRATING. -/
structure AgentWrite (s : State) (ag : Agent) (va n key : Nat) : Prop where
  inside : 0 < n ∧ va % 4096 + n ≤ 4096
  passes : ∃ h, checkAddr s ag va .write = .ok h ∧ h.key = key
  memory : Ordinary s key n
  cached : touch s ag va .write = s
  still : migratingAt s ag va n = false

/-- n bytes that the slot of the instruction may read: as AgentRead, no store of its own is still to be performed, and no write of its vector or tile
queue waits for their page. -/
structure OwnRead (s : State) (va n key : Nat) : Prop where
  read : AgentRead s (scalarAgent s s.cur) va n key
  own : ∀ a ∈ s.stores, a.home ≠ .slot s.cur
  behind : vectorWaits s s.cur (va, n) = false

/-- The n little-endian words at a key. -/
def wordsAt (s : State) (key n : Nat) : List Word := (List.range n).map fun i => readWord s.mem (key + 8 * i)

/-- An instruction completes, changes no register, makes its core c and numbers n operations; nothing else outside its slot changes. -/
def ActsOnCore (i : Instr) (s : State) (c : Core) (n : Nat) : Prop :=
  ∃ t, exec i s = .next t ∧ t = { s with slots := t.slots, cores := t.cores, nextOp := s.nextOp + n } ∧ (∀ r, r ≠ s.cur → t.slot r = s.slot r) ∧
    (∀ k, k ≠ coreOf s.cur → t.core k = s.core k) ∧ t.core (coreOf s.cur) = c ∧ SystemKept s.me t.me ∧ RegsKept s.me t.me [] ∧ WentOn s.me t.me

/-- An instruction passes a copy or command on (04_sequencer R81, R109): u is the state with it in flight; register d becomes pending, COPIES rises,
and nothing else of any slot changes. -/
def IssuesWork (i : Instr) (s : State) (d : Nat) (u : State) : Prop :=
  ∃ t, exec i s = .next t ∧ t = { u with slots := t.slots } ∧ (∀ r, r ≠ s.cur → t.slot r = s.slot r) ∧
    SystemKept { s.me with cnt := { s.me.cnt with copies := s.me.cnt.copies + 1 } } t.me ∧ RegsKept s.me t.me [d] ∧ WentOn s.me t.me ∧
    (d ≠ 0 → t.me.sreg d = { s.me.sreg d with pend := .engine })

/-- A stream of whole bytes (08_stream R209): elements of b bytes in a format without blocks, no swizzle, KIND LINEAR. -/
structure ByteStream (p : List Word) (b : Nat) : Prop where
  kind : specKind p = 0
  size : b ∈ [1, 2, 4, 8] ∧ (srcFmt p).width = 8 * b ∧ (srcFmt p).isMx = false
  plain : sSswz p = 0 ∧ sDswz p = 0

/-- The state after a copy or command that has a slot is complete (04_sequencer R109): its result lands in a remembered register, its flags
accumulate, and COPIES falls. -/
def Slot.receives (x : Slot) (i : Nat) (v : Word) (fl : FFlags) (raise : Bool) : Slot :=
  let y := x.landAt i v none
  { y with
    fflags := y.fflags ||| fl, uistat := { y.uistat with pcopy := y.uistat.pcopy || raise }, cnt := { y.cnt with copies := y.cnt.copies - 1 } }

/-- An instruction completes over a state u in which its effect on the rest of the device stands, writes v to register d (nothing to s0), and
changes nothing else of u. -/
def Yields (i : Instr) (s u : State) (d : Nat) (v : Word) : Prop :=
  ∃ t, exec i s = .next t ∧ OnlySlot u t s.cur ∧ SystemKept (u.slot s.cur) (t.slot s.cur) ∧ RegsKept (u.slot s.cur) (t.slot s.cur) [d] ∧
    WentOn (u.slot s.cur) (t.slot s.cur) ∧ (d ≠ 0 → (t.slot s.cur).sreg d = ⟨v, none, .ready⟩)

/-- A command of a context in slot q, unclaimed, without acquire and release, that nothing holds back (16_mesh R364; 09_guard R247). -/
structure CommandReady (s : State) (n q : Nat) (c : Cmd) : Prop where
  held : tabFind s.cmds n = some c ∧ tabFind s.remaps n = none
  plain : c.a = false ∧ c.r = false ∧ c.task = none ∧ c.claim = none ∧ c.running = false
  home : c.home = .slot q
  first : startWaits s (.slot q) n false = false
  thawed : frozenUnit s (cmdClass c.kind) c.engine = false
  small : c.engine < 256
  ended : c.ended = none

/-- A command has ended in slot q with a status word (16_mesh R366): it is gone, and its result has landed. -/
def CommandDone (s t : State) (n q : Nat) (c : Cmd) (word : Word) : Prop :=
  (∀ m, tabFind t.cmds m = if m = n then none else tabFind s.cmds m) ∧ (∀ r, r ≠ q → t.slot r = s.slot r) ∧
    t.slot q = (s.slot q).receives c.dest word 0 false

/-- A command of an op that has claimed an object in a state and is to run (16_mesh R362; 17_partition R381; 18_bucket R392): it carries no release,
its unit serves, and the object, whose descriptor stands at a key, is still BUSY. -/
structure CommandClaimed (s : State) (n q : Nat) (c : Cmd) (op key former : Nat) : Prop where
  held : tabFind s.cmds n = some c ∧ tabFind s.remaps n = none
  plain : c.kind = .unit op ∧ c.r = false ∧ c.task = none ∧ c.ended = none ∧ c.running = true
  claim : c.claim = some (key, former)
  home : c.home = .slot q
  serves : (cmdClass c.kind, c.engine) ∉ s.quarUnits ∧ frozenUnit s (cmdClass c.kind) c.engine = false
  small : c.engine < 256
  busy : readByte s.mem (key + 2) = 2

/-- A command of an op that nothing holds back, at a unit in service. -/
def CommandServed (s : State) (n q : Nat) (c : Cmd) (op : Nat) : Prop :=
  CommandReady s n q c ∧ c.kind = .unit op ∧ (cmdClass c.kind, c.engine) ∉ s.quarUnits

/-- A command has claimed the object at a key, which was in a state: its STATE byte is BUSY, and only memory and the command differ. -/
structure CommandClaims (s t : State) (n : Nat) (c : Cmd) (key former : Nat) : Prop where
  device : t = { s with cmds := t.cmds, mem := t.mem, poison := t.poison, cores := t.cores, parts := t.parts }
  cmds : ∀ m, tabFind t.cmds m = if m = n then some { c with running := true, claim := some (key, former) } else tabFind s.cmds m
  inside : readByte t.mem (key + 2) = 2
  outside : ∀ a, a ≠ key + 2 → readByte t.mem a = readByte s.mem a

/-- A command has ended in slot q with a status word, with n bytes written at a key; no other byte of memory differs. -/
structure CommandWrites (s t : State) (n q : Nat) (c : Cmd) (word : Word) (key len : Nat) : Prop where
  done : CommandDone s t n q c word
  device : t = { s with slots := t.slots, cmds := t.cmds, mem := t.mem, poison := t.poison, sectors := t.sectors }
  outside : ∀ a, a < key ∨ key + len ≤ a → readByte t.mem a = readByte s.mem a

/-- A state that differs from another only in what the writes of a unit and the commit of a mesh may change on their way. -/
def OnTheWay (s t : State) : Prop := t = { s with mem := t.mem, sectors := t.sectors, meshes := t.meshes, free := t.free }

/-- Bytes that an agent may read at a key, whatever its own command has written so far. -/
def SteadyRead (s : State) (ag : Agent) (va n key : Nat) : Prop := ∀ t, OnTheWay s t → AgentRead t ag va n key

/-- Bytes that an agent may write at a key, from any of them on, whatever its own command has written so far. -/
def SteadyWrite (s : State) (ag : Agent) (va n key : Nat) : Prop :=
  ∀ t, OnTheWay s t → ∀ i < n, AgentWrite t ag (va + i) (n - i) (key + i)

/-- Ranges of bytes, as first and length, of which no two meet. -/
def RangesApart (l : List (Nat × Nat)) : Prop := l.Pairwise fun x y => x.1 + x.2 ≤ y.1 ∨ y.1 + y.2 ≤ x.1

/-- What the words of a command descriptor shall hold, by op (16_mesh R365; 17_partition R376, R383 to R385; 18_bucket R403). -/
def CommandWords (op : Nat) (d : List Word) : Prop :=
  let w := wordAt d
  (if op = 0x20 then wbits (w 0) 2 0 = 0 else wbits (w 0) 5 0 = 0) ∧ wbits (w 1) 2 0 = 0 ∧ w 6 = 0 ∧ w 7 = 0 ∧
  match op with
  | 0x00 | 0x01 => wbits (w 2) 5 0 = 0 ∧ w 4 = 0 ∧ w 5 = 0
  | 0x02 | 0x03 => w 3 = 0 ∧ w 4 = 0 ∧ w 5 = 0
  | 0x04 => if w 2 = 0 then w 3 = 0 ∧ wbits (w 4) 2 0 = 0 ∧ w 5 = 0 else wbits (w 2) 7 0 = 1 ∧ wbits (w 2) 63 17 = 0
  | 0x05 => wbits (w 2) 5 0 = 0 ∧ w 3 = 0 ∧ w 4 = 0 ∧ w 5 = 0
  | 0x10 => (w 2).getLsbD 31 = false ∧ (wbits (w 2) 33 32 = 1 ∨ wbits (w 2) 33 32 = 2) ∧ wbits (w 2) 39 34 = 0 ∧ 1 ≤ wbits (w 2) 46 40 ∧
      wbits (w 2) 46 40 ≤ 64 ∧ wbits (w 2) 63 47 = 0 ∧ wbits (w 3) 63 32 = 0 ∧ wbits (w 5) 1 0 = 0
  | 0x11 => w 2 = 0 ∧ wbits (w 4) 63 8 = 0 ∧ w 5 = 0
  | 0x12 => w 2 = 0 ∧ (w 3).toNat ≤ 2 ∧ w 4 = 0 ∧ w 5 = 0
  | 0x13 => w 2 = 0 ∧ wbits (w 3) 63 16 = 0 ∧ wbits (w 4) 63 16 = 0 ∧ w 5 = 0
  | 0x20 => wbits (w 2) 7 6 = 0 ∧ wbits (w 2) 23 21 = 0 ∧ wbits (w 2) 31 29 = 0 ∧ wbits (w 2) 62 37 = 0 ∧ w 3 = 0 ∧ w 4 = 0 ∧ w 5 = 0 ∧
      ((w 2).getLsbD 63 = true ∨ (wbits (w 2) 20 8 ∈ [16, 32, 64, 128, 256, 512, 1024] ∧ 4 ≤ wbits (w 2) 28 24 ∧ wbits (w 2) 28 24 ≤ 16 ∧
        0x18 ≤ wbits (w 2) 36 32 ∧ wbits (w 2) 36 32 ≤ 0x1A))
  | 0x21 => w 2 = 0 ∧ w 3 = 0 ∧ w 4 = 0 ∧ w 5 = 0
  | _ => wbits (w 2) 5 0 = 0 ∧ w 4 = 0 ∧ w 5 = 0

/-- Nothing but the cores differs. -/
def OnlyCores (s t : State) : Prop := t = { s with cores := t.cores }

/-- The event record of a failure of a unit (19_shroud R415). -/
def recorded (s : State) (kind cls idx sub addr : Nat) (held : Bool) : Nat × State := recordEvent s (portEvent kind cls idx sub addr held)

/-- Slot q is to run the word w, which stands at a key of ordinary memory (04_sequencer R99; 10_context R264): no trap, landing or interrupt is due and
no freeze holds it; its program counter's four bytes lie in one 4 KiB granule that it may fetch without a change of the tables; none is poisoned. -/
structure FetchesWord (s : State) (q w key : Nat) : Prop where
  busy : (s.slot q).st ≠ .free
  leaving : (s.slot q).st ≠ .stall .draining
  noTrap : (s.slot q).due = none
  noLanding : landingDue s q = false
  noInterrupt : uiDue (s.slot q) = false
  thawed : s.mgmt.frozen = false
  inside : (s.slot q).pc.toNat % 4096 + 4 ≤ 4096
  passes : ∃ h, checkAddr s (scalarAgent s q) (s.slot q).pc.toNat .fetch = .ok h ∧ h.key = key ∧ h.poison = none
  cached : touch s (scalarAgent s q) (s.slot q).pc.toNat .fetch = s
  held : readHolds s (scalarAgent s q) (s.slot q).pc.toNat 4 = []
  memory : Ordinary s key 4
  clean : rangePoison s key 4 = none
  word : readLE s.mem key 4 = w

/-- Poison joins a granule of memory under the tag of a record (19_shroud R405, R410, R412). -/
def State.poisoned (s : State) (key tag : Nat) : State :=
  { s with poison := tabPut s.poison (key / 64) (lowerTag (some (BitVec.ofNat 12 tag)) (tabFind s.poison (key / 64))) }

end Sys2Proof.Machine
end

