-- ==== Sys2Proof/Certificates/Slice0/Obligations.lean ====
section
/-! DEFINITION. The statements for the provers, each with the rule of the spec that it formalises. -/

open Sys2Proof Sys2Proof.Machine

/-- 04_sequencer R83 to R86: the integer instructions. The two-operand operations in the words of the table: wrapping sums and products, both high
halves of a product, division truncated toward zero with all ones for a zero divisor, shifts by the low six bits, signed and unsigned order. The bit
counts and the byte reversal of one operand, and SEL, which reads its destination too. The immediate operations, with 14-bit immediates
sign-extended, and the two that build constants. -/
def Obligations.IntegerResults : Prop :=
  (BinaryOp .add (fun x y => x + y) ∧ BinaryOp .sub (fun x y => x - y) ∧
   BinaryOp .and (fun x y => x &&& y) ∧ BinaryOp .or (fun x y => x ||| y) ∧ BinaryOp .xor (fun x y => x ^^^ y) ∧
   BinaryOp .andn (fun x y => x &&& ~~~y) ∧
   BinaryOp .shl (fun x y => x <<< (y.setWidth 6)) ∧ BinaryOp .shr (fun x y => x >>> (y.setWidth 6)) ∧
   BinaryOp .sar (fun x y => x.sshiftRight' (y.setWidth 6)) ∧
   BinaryOp .mul (fun x y => x * y) ∧
   BinaryOp .mulh (fun x y => (x.signExtend 128 * y.signExtend 128).extractLsb' 64 64) ∧
   BinaryOp .mulhz (fun x y => (x.zeroExtend 128 * y.zeroExtend 128).extractLsb' 64 64) ∧
   BinaryOp .div (fun x y => if y = 0 then BitVec.allOnes 64 else x.sdiv y) ∧
   BinaryOp .divz (fun x y => if y = 0 then BitVec.allOnes 64 else x.udiv y) ∧
   BinaryOp .rem (fun x y => if y = 0 then x else x.srem y) ∧
   BinaryOp .remz (fun x y => if y = 0 then x else x.umod y) ∧
   BinaryOp .min (fun x y => if x.slt y then x else y) ∧ BinaryOp .max (fun x y => if x.slt y then y else x) ∧
   BinaryOp .minz (fun x y => if x.ult y then x else y) ∧ BinaryOp .maxz (fun x y => if x.ult y then y else x) ∧
   BinaryOp .cmpeq (fun x y => if x = y then 1 else 0) ∧
   BinaryOp .cmplt (fun x y => if x.slt y then 1 else 0) ∧ BinaryOp .cmpltz (fun x y => if x.ult y then 1 else 0) ∧
   (∀ n : BitVec 2, BinaryOp (fun d a b => .addsh d a b n) (fun x y => x + (y <<< n.toNat)))) ∧
  (UnaryOp .clz (fun x => if x = 0 then 64 else BitVec.ofNat 64 (63 - x.toNat.log2)) ∧
   (∃ f, UnaryOp .ctz f ∧ f 0 = 64 ∧ ∀ x, x ≠ 0 → x.getLsbD (f x).toNat = true ∧ ∀ j, j < (f x).toNat → x.getLsbD j = false) ∧
   UnaryOp .popc (fun x => BitVec.ofNat 64 ((List.range 64).countP fun j => x.getLsbD j)) ∧
   (∃ f, UnaryOp .bswap f ∧ ∀ x j, j < 8 → (f x).extractLsb' (8 * j) 8 = x.extractLsb' (8 * (7 - j)) 8) ∧
   ∀ d a b : BitVec 6, WritesReg (.sel d a b) d.toNat [a.toNat, b.toNat, d.toNat]
     fun x => if x.val d.toNat = 0 then x.val b.toNat else x.val a.toNat) ∧
  ((∀ n : BitVec 14,
     UnaryOp (fun d a => .addi d a n) (fun x => x + n.signExtend 64) ∧ UnaryOp (fun d a => .andi d a n) (fun x => x &&& n.signExtend 64) ∧
     UnaryOp (fun d a => .ori d a n) (fun x => x ||| n.signExtend 64) ∧ UnaryOp (fun d a => .xori d a n) (fun x => x ^^^ n.signExtend 64) ∧
     UnaryOp (fun d a => .cmplti d a n) (fun x => if x.slt (n.signExtend 64) then 1 else 0)) ∧
   (∀ h : BitVec 6,
     UnaryOp (fun d a => .shli d a h) (fun x => x <<< h) ∧ UnaryOp (fun d a => .shri d a h) (fun x => x >>> h) ∧
     UnaryOp (fun d a => .sari d a h) (fun x => x.sshiftRight' h)) ∧
   (∀ (d : BitVec 6) (n : BitVec 20), WritesReg (.lih d n) d.toNat [] fun _ => n.signExtend 64 * 0x4000) ∧
   ∀ (d : BitVec 6) (n : BitVec 20), WritesReg (.addpc d n) d.toNat [] fun x => (x.pc - x.pc % 0x1000) + n.signExtend 64 * 0x1000)

/-- 04_sequencer R91 to R94 and 02_numbers R30, R34 to R36: the floating-point instructions. The arithmetic ones round the exact result once under
FRM, and OR its flags into FFLAGS. Minimum, maximum and comparison, of numbers, infinities and NaNs: FCMP writes 1 exactly when its condition holds;
NV is set by a signalling NaN, and under .lt and .le by any NaN. The conversions, with sat = 0; FiniteArithmeticIsExact says what their integers are.
-/
def Obligations.FloatResults : Prop :=
  (∀ (d a b : BitVec 6) (p : BitVec 1),
     let fa := fun (x : Slot) => scalarValue p (x.val a.toNat)
     let fb := fun (x : Slot) => scalarValue p (x.val b.toNat)
     let fd := fun (x : Slot) => scalarValue p (x.val d.toNat)
     let mode := fun (x : Slot) => RMode.ofFrm x.frm
     WritesFloat (.fadd d a b p) d.toNat [a.toNat, b.toNat] (fun x => roundedTo p x (fAdd (mode x) (fa x) (fb x))) ∧
     WritesFloat (.fsub d a b p) d.toNat [a.toNat, b.toNat] (fun x => roundedTo p x (fAdd (mode x) (fa x) (fb x).negate)) ∧
     WritesFloat (.fmul d a b p) d.toNat [a.toNat, b.toNat] (fun x => roundedTo p x (fMul (fa x) (fb x))) ∧
     WritesFloat (.fdiv d a b p) d.toNat [a.toNat, b.toNat] (fun x => roundedTo p x (fDiv (fa x) (fb x))) ∧
     WritesFloat (.fsqrt d a p) d.toNat [a.toNat] (fun x => roundedTo p x (fSqrt (fa x))) ∧
     WritesFloat (.fma d a b p) d.toNat [a.toNat, b.toNat, d.toNat] (fun x => roundedTo p x (fFma (mode x) (fa x) (fb x) (fd x)))) ∧
  (∀ (d a b : BitVec 6) (p : BitVec 1),
     let code := fun (x : Slot) (r : BitVec 6) => if p = 0 then (x.val r.toNat).toNat else (x.val r.toNat).toNat % 2 ^ 32
     let f := if p = 0 then fmtF64 else fmtF32
     (∃ g, WritesFloat (.fmin d a b p) d.toNat [a.toNat, b.toNat] g ∧ ∀ x, PicksOf f true (code x a) (code x b) (g x)) ∧
     (∃ g, WritesFloat (.fmax d a b p) d.toNat [a.toNat, b.toNat] g ∧ ∀ x, PicksOf f false (code x a) (code x b) (g x)) ∧
     ∀ c : BitVec 2, ∃ g, WritesFloat (.fcmp d a b c p) d.toNat [a.toNat, b.toNat] g ∧
       (∀ x u v, f.valueOf (code x a) = some u → f.valueOf (code x b) = some v → (g x).2 = 0 ∧
         (g x).1 = match c.toNat with
           | 0 => if u = v then 1 else 0
           | 1 => if u < v then 1 else 0
           | 2 => if u ≤ v then 1 else 0
           | _ => 0) ∧
       ∀ x, f.valueOf (code x a) = none ∨ f.valueOf (code x b) = none →
         (g x).1 = (if c = 3 then 1 else 0) ∧
         (g x).2 = if c = 1 ∨ c = 2 ∨ f.decode (code x a) = .nan true ∨ f.decode (code x b) = .nan true then flagNV else 0) ∧
  (∀ d a : BitVec 6,
     let f64 := fun (x : Slot) => fmtF64.decode (x.val a.toNat).toNat
     let f32 := fun (x : Slot) => fmtF32.decode ((x.val a.toNat).toNat % 2 ^ 32)
     let mode := fun (x : Slot) => RMode.ofFrm x.frm
     WritesFloat (.fcvtDS d a) d.toNat [a.toNat] (fun x => roundedTo 0 x (f32 x, (f32 x).nv)) ∧
     WritesFloat (.fcvtSD d a) d.toNat [a.toNat] (fun x => roundedTo 1 x (f64 x, (f64 x).nv)) ∧
     WritesFloat (.fcvtDI64 d a) d.toNat [a.toNat] (fun x => roundedTo 0 x (FVal.ofInt (x.val a.toNat).toInt, 0)) ∧
     WritesFloat (.fcvtSI64 d a) d.toNat [a.toNat] (fun x => roundedTo 1 x (FVal.ofInt (x.val a.toNat).toInt, 0)) ∧
     WritesFloat (.fcvtDZ64 d a) d.toNat [a.toNat] (fun x => roundedTo 0 x (FVal.ofInt (x.val a.toNat).toNat, 0)) ∧
     WritesFloat (.fcvtSZ64 d a) d.toNat [a.toNat] (fun x => roundedTo 1 x (FVal.ofInt (x.val a.toNat).toNat, 0)) ∧
     WritesFloat (.fcvtI64D d a) d.toNat [a.toNat] (fun x => toInteger (mode x) true 64 (f64 x)) ∧
     WritesFloat (.fcvtI64S d a) d.toNat [a.toNat] (fun x => toInteger (mode x) true 64 (f32 x)) ∧
     WritesFloat (.fcvtZ64D d a) d.toNat [a.toNat] (fun x => toInteger (mode x) false 64 (f64 x)) ∧
     WritesFloat (.fcvtZ64S d a) d.toNat [a.toNat] (fun x => toInteger (mode x) false 64 (f32 x)))

/-- 00_scope R8 and 02_numbers R31: without overflow, Round gives a member of the format, and the one that the mode selects: the greatest not
above the number under RDN, the least not below it under RUP, the greatest in magnitude not beyond it under RTZ, and under RNE one that no member is
nearer than, and of two as near the one with an even code; NX is set exactly when the result differs from the number. -/
def Obligations.RoundSelectsByMode : Prop :=
  ∀ f ∈ [fmtF64, fmtF32, fmtF16, fmtBF16], ∀ (mode : RMode) (a : FVal) (v : ℝ), a.Denotes v →
    let r := f.round mode false a
    r.2 &&& flagOF = 0 →
      ∃ x : ℚ, f.StandsFor r.1 x ∧ (r.2 &&& flagNX = 0 ↔ (x : ℝ) = v) ∧ ∀ (code : Nat) (y : ℚ), f.StandsFor code y →
        match mode with
        | .rdn => (x : ℝ) ≤ v ∧ ((y : ℝ) ≤ v → y ≤ x)
        | .rup => v ≤ (x : ℝ) ∧ (v ≤ (y : ℝ) → x ≤ y)
        | .rtz => |(x : ℝ)| ≤ |v| ∧ (|(y : ℝ)| ≤ |v| → |y| ≤ |x|)
        | .rne => |(x : ℝ) - v| ≤ |(y : ℝ) - v| ∧ (y ≠ x → |(x : ℝ) - v| = |(y : ℝ) - v| → r.1 % 2 = 0)

/-- 00_scope R8 and 02_numbers R33, R35: sums, products and fused sums of finite numbers are exact before Round; quotients, square roots and their
reciprocals are held with more bits than any format has, and with the knowledge whether more follow. A conversion to an integer gives the integer
that the mode selects, with NX where that differs from the number; beyond the type's bounds, of an infinity and of a NaN it gives the bound, the bound
and zero, with NV. -/
def Obligations.FiniteArithmeticIsExact : Prop :=
  (∀ (mode : RMode) (n n' k : Bool) (m m' l : Nat) (e e' j : Int),
    let x := FVal.fin n m e false
    let y := FVal.fin n' m' e' false
    (∃ s r x', (fAdd mode x y).1 = .fin s r x' false ∧ realOfFin s r x' = realOfFin n m e + realOfFin n' m' e') ∧
    (∃ s r x', (fMul x y).1 = .fin s r x' false ∧ realOfFin s r x' = realOfFin n m e * realOfFin n' m' e') ∧
    (∃ s r x', (fFma mode x y (.fin k l j false)).1 = .fin s r x' false ∧
      realOfFin s r x' = realOfFin n m e * realOfFin n' m' e' + realOfFin k l j) ∧
    (m' ≠ 0 → (fDiv x y).1.Denotes ((realOfFin n m e / realOfFin n' m' e' : ℚ) : ℝ) ∧ (fDiv x y).2 = 0) ∧
    (n = false → (fSqrt x).1.Denotes (Real.sqrt (realOfFin n m e : ℚ)) ∧ (fSqrt x).2 = 0) ∧
    (n = false → m ≠ 0 → (fRsqrt x).1.Denotes (1 / Real.sqrt (realOfFin n m e : ℚ)) ∧ (fRsqrt x).2 = 0)) ∧
  ∀ (mode : RMode) (signed : Bool) (w : Nat), 1 ≤ w →
    let lo : ℤ := if signed then -2 ^ (w - 1) else 0
    let hi : ℤ := if signed then 2 ^ (w - 1) - 1 else 2 ^ w - 1
    let code := fun (z : ℤ) => (BitVec.ofInt w z).toNat
    (∀ (n : Bool) (m : Nat) (e : Int), ∃ z : ℤ, mode.Selects (realOfFin n m e) z ∧
      toInteger mode signed w (.fin n m e false) =
        if z < lo then (code lo, flagNV) else if hi < z then (code hi, flagNV) else (code z, if (z : ℚ) = realOfFin n m e then 0 else flagNX)) ∧
    (∀ n : Bool, toInteger mode signed w (.inf n) = (code (if n then lo else hi), flagNV)) ∧
    ∀ b : Bool, toInteger mode signed w (.nan b) = (0, flagNV)

/-- 04_sequencer R87: with a poisoned source the result of an integer instruction is poisoned with the lowest source tag, and nothing else
changes. -/
def Obligations.PoisonedSourcePoisonsResult : Prop :=
  ∀ (i : BitVec 6 → BitVec 6 → BitVec 6 → Instr), i ∈ [Instr.add, .sub, .and, .or, .xor, .andn, .shl, .shr, .sar, .mul, .mulh, .mulhz, .div,
      .divz, .rem, .remz, .min, .max, .minz, .maxz, .cmpeq, .cmplt, .cmpltz] →
    ∀ (d a b : BitVec 6) (s : State) (ta tb : Option PTag), d ≠ 0 →
      (∀ r ∈ [d.toNat, a.toNat, b.toNat], (s.me.sreg r).pend = .ready) →
      (s.me.sreg a.toNat).poison = ta → (s.me.sreg b.toNat).poison = tb → (ta ≠ none ∨ tb ≠ none) →
      ∃ t p, exec (i d a b) s = .next t ∧ OnlySlot s t s.cur ∧ SystemKept s.me t.me ∧ RegsKept s.me t.me [d.toNat] ∧
        WentOn s.me t.me ∧ (t.me.sreg d.toNat).poison = some p ∧ (some p = ta ∨ some p = tb) ∧
        (∀ x, ta = some x → p.toNat ≤ x.toNat) ∧ ∀ x, tb = some x → p.toNat ≤ x.toNat

/-- 04_sequencer R81: an instruction that names a pending register stalls on it, with no effect. Every instruction that names a scalar register, but
those of the vector queue, which VectorQueueEntries states. An instruction whose level, mode, number, lane groups or place in a REP frame it checks
first does so where that check passes; that a check by the word alone comes before the stall is the model's choice (log 43). VFORK and EFORK wait for
all 64 registers, which their children take (log 20). -/
def Obligations.PendingRegisterStalls : Prop :=
  ∀ (d a b : BitVec 6),
    let on := fun (rs : List (BitVec 6)) (ok : State → Prop) (is : List Instr) => ∀ i ∈ is, StallsOn i (rs.map BitVec.toNat) ok
    let any := fun (_ : State) => True
    let outside := fun (s : State) => s.me.OutsideRep
    let above := fun (s : State) => s.me.level ≠ .user
    let owns := fun (s : State) => s.me.mode = .context → s.me.vuse = true → s.me.vowner = s.me.csaBase
    let lanes := fun (s : State) => s.me.laneCount ≠ 0 ∧ owns s
    -- integer and floating-point instructions
    on [d, a, b] any [.add d a b, .sub d a b, .and d a b, .or d a b, .xor d a b, .andn d a b, .shl d a b, .shr d a b, .sar d a b, .mul d a b, .mulh d a b,
      .mulhz d a b, .div d a b, .divz d a b, .rem d a b, .remz d a b, .min d a b, .max d a b, .minz d a b, .maxz d a b, .cmpeq d a b, .cmplt d a b,
      .cmpltz d a b, .sel d a b] ∧
    on [d, a] any [.clz d a, .ctz d a, .popc d a, .bswap d a, .fcvtDS d a, .fcvtSD d a, .fcvtDI64 d a, .fcvtSI64 d a, .fcvtDZ64 d a, .fcvtSZ64 d a,
      .fcvtI64D d a, .fcvtI64S d a, .fcvtZ64D d a, .fcvtZ64S d a] ∧
    (∀ p : BitVec 1, on [d, a] any [.fsqrt d a p] ∧
      on [d, a, b] any [.fadd d a b p, .fsub d a b p, .fmul d a b p, .fdiv d a b p, .fma d a b p, .fmin d a b p, .fmax d a b p] ∧
      ∀ c : BitVec 2, on [d, a, b] any [.fcmp d a b c p, .addsh d a b c]) ∧
    (∀ (n : BitVec 14) (m : BitVec 20), on [d] any [.lih d m, .addpc d m] ∧
      on [d, a] any [.addi d a n, .andi d a n, .ori d a n, .xori d a n, .cmplti d a n, .shli d a b, .shri d a b, .sari d a b]) ∧
    -- scalar memory accesses, atomics, regions
    (∀ (ty : BitVec 3) (q : BitVec 2) (o : BitVec 11) (sc : BitVec 3), on [a] any [.acq a sc, .rel a sc, .gunbind a] ∧
      on [d, a] any [.ld d a ty o, .st d a q o, .ldacq d a q sc, .strel d a q sc, .gbind d a]) ∧
    (∀ (q c l : BitVec 1) (sc : BitVec 3),
      on [d, a] any [.amoadd d a q c l sc, .amoswap d a q c l sc, .amomin d a q c l sc, .amomax d a q c l sc, .amominz d a q c l sc,
        .amomaxz d a q c l sc, .amoand d a q c l sc, .amoor d a q c l sc, .amoxor d a q c l sc] ∧
      StallsOn (.amocas d a q c l sc) [d.toNat, d.toNat + 1, a.toNat] any) ∧
    -- control transfers
    (∀ (o : BitVec 14) (m : BitVec 26) (n : BitVec 10),
      on [a, b] outside [.beq a b o, .bne a b o, .blt a b o, .bge a b o, .bltz a b o, .bgez a b o] ∧ on [a] outside [.jr a, .lbrk a, .loopr n a] ∧
      on [a, 63] outside [.callr a] ∧ on [63] outside [.call m, .ret]) ∧
    -- barriers and futures
    (∀ sc : BitVec 3, on [d, a] any [.bari d a, .fwait d a sc, .ffill d a sc] ∧ on [a] any [.bara a sc, .barw a sc, .freset a]) ∧
    -- vector configuration and tile instructions
    (∀ (c : BitVec 12) (x y : BitVec 3) (r : BitVec 5) (u z : BitVec 1), on [d, a, b] lanes [.vsetvl d a b] ∧ on [d, a] lanes [.vsetvli d a c] ∧
      StallsOn (.vgrant d a) [d.toNat, d.toNat + 1, a.toNat] lanes ∧ on [a, b] lanes [.tmmas a x y b r] ∧ on [a] owns [.tzero a] ∧ on [a, d] owns [.tstat a d] ∧
      on [a, b] owns [.tmma a x y b, .tmmaf a x y b, .tmmag a x y b, .tld a b, .tst a u z b, .treef a b, .tsetx a b, .taddx a b]) ∧
    -- streams, copies and commands
    (∀ (p sc : BitVec 3) (c l : BitVec 1), on [a] any [.sopen a p c sc] ∧ on [d] any [.sstat d p] ∧
      on [d, a] any [.cpy d a c l sc, .cpys d a c l sc, .cpypf d a, .mimport d a c l sc, .mexport d a c l sc, .mrefine d a c l sc, .mcoarsen d a c l sc,
        .mrenum d a c l sc, .mstat d a c l sc, .mcolour d a c l sc, .mtrim d a c l sc, .mmigr d a c l sc, .mghost d a c l sc, .kproj d a c l sc,
        .kreset d a c l sc, .kstat d a c l sc]) ∧
    -- kernels, groups and tasks
    on [d, a] any [.klaunch d a, .vfork d a, .tqstat d a] ∧ on [a, b] any [.tqpush a b] ∧ on [d, a, b] any [.tqpushn d a b] ∧ on [a] any [.tdone a] ∧
    (∀ n : BitVec 6, (n.toNat < 8 → on [d] any [.gid d n]) ∧ (a ≠ 0 → on [a] any [.vjoin a]) ∧
      StallsOn (.efork a n) (List.range 64) fun s => 1 ≤ n.toNat ∧ n.toNat ≤ 3 ∧ s.me.mode = .context ∧ (∃ k i, s.me.ctx.work = .leaf k i) ∧
        s.me.ctx.sibling = false ∧ s.me.ctx.siblings + n.toNat ≤ 3) ∧
    -- privileged instructions and system registers
    on [d, a] above [.tlbinv d a, .probe d a, .pgmig d a, .ctxsv d a] ∧ on [a] above [.shkill a] ∧
    on [d, a] (fun s => above s ∧ s.me.mode = .handler) [.ctxld d a] ∧ on [d] any [.srd d 0x030] ∧
    ∀ g ∈ systemRegisters, on [d] (fun s => levelCode g.readLevel ≤ levelCode s.me.level) [.srd d g.num] ∧
      on [a] (fun s => levelCode g.writeLevel ≤ levelCode s.me.level) [.swr a g.num, .srset a g.num, .srclr a g.num]

/-- 04_sequencer R95, R96, R103: the six branches; J and JR set the program counter; JR to an address that is no multiple of 4 traps with cause 0x0B;
LBRK pops the top frame and goes past its end, or completes when its register is zero. -/
def Obligations.ControlTransfers : Prop :=
  (Branches .beq (fun x y => x = y) ∧ Branches .bne (fun x y => x ≠ y) ∧ Branches .blt (fun x y => x.toInt < y.toInt) ∧
   Branches .bge (fun x y => y.toInt ≤ x.toInt) ∧ Branches .bltz (fun x y => x.toNat < y.toNat) ∧ Branches .bgez (fun x y => y.toNat ≤ x.toNat)) ∧
  (∀ s : State, s.me.OutsideRep →
     (∀ o : BitVec 26, Transfers (.j o) s (s.me.pc + 4 * o.signExtend 64)) ∧
     (∀ a : BitVec 6, s.me.Clean [a.toNat] →
       ((s.me.val a.toNat).toNat % 4 = 0 → Transfers (.jr a) s (s.me.val a.toNat)) ∧
       ((s.me.val a.toNat).toNat % 4 ≠ 0 → exec (.jr a) s = .next (trap s s.cur 0x0B (s.me.val a.toNat) 0)) ∧
       (a ≠ 0 → s.me.val a.toNat = 0 → Passes (.lbrk a) s) ∧
       ∀ e rest, s.me.loops = e :: rest → (a = 0 ∨ s.me.val a.toNat ≠ 0) →
         ∃ t, exec (.lbrk a) s = .next t ∧ OnlySlot s t s.cur ∧ SystemKept s.me t.me ∧ RegsKept s.me t.me [] ∧
           t.me.pc = e.start + BitVec.ofNat 64 (4 * e.len) + 4 ∧ t.me.loops = rest))

/-- 04_sequencer R88 to R90 and 09_guard R241, R249: LD and LDACQ give the extended number of the bytes at their address; ACQ discards it. A load that
meets a store of its own that is not performed gives the bytes of that store; one that meets a poisoned granule gives a value with the poison of the
lowest tag. That an acquire also lets every KST publication made so far be seen is the model's choice (log 5). -/
def Obligations.LoadResults : Prop :=
  (∀ (d a : BitVec 6) (ty : BitVec 3) (o : BitVec 11) (s : State) (key : Nat),
    let n := 2 ^ (ty.toNat / 2)
    s.me.Clean [a.toNat] → (s.me.sreg d.toNat).pend = .ready →
    let va := (s.me.val a.toNat + o.signExtend 64 * BitVec.ofNat 64 n).toNat
    (PlainRead s va n key → Loads (.ld d a ty o) s d.toNat (loadedValue s key n (ty.toNat % 2 = 0)) none) ∧
    (ReadPlace s va n key →
      (∀ b, OwnStore s b → rangePoison s key n = none →
        (∃ h, checkAddr (ownView s s.cur) (scalarAgent s s.cur) va .read = .ok h ∧ h.key = key ∧ h.poison = none) →
        Loads (.ld d a ty o) s d.toNat (loadedValue { s with mem := writeBytes b.key b.bytes s.mem } key n (ty.toNat % 2 = 0)) none) ∧
      ∀ t, (∀ b ∈ s.stores, b.home ≠ .slot s.cur) → rangePoison s key n = some t → ∃ v, Loads (.ld d a ty o) s d.toNat v (some t))) ∧
  (∀ (d a : BitVec 6) (q : BitVec 2) (sc : BitVec 3) (s : State) (key : Nat),
    s.me.Clean [a.toNat] → (s.me.sreg d.toNat).pend = .ready → PlainRead s (s.me.val a.toNat).toNat (2 ^ q.toNat) key →
    Yields (.ldacq d a q sc) s s.settleLinks d.toNat (loadedValue s key (2 ^ q.toNat) false)) ∧
  ∀ (a : BitVec 6) (sc : BitVec 3) (s : State) (key : Nat),
    s.me.Clean [a.toNat] → PlainRead s (s.me.val a.toNat).toNat 8 key → PassesInto (.acq a sc) s s.settleLinks

/-- 04_sequencer R88, R109 and 09_guard R241: ST, STREL and REL pass on one store at their address. A scalar access at an address that is no multiple
of its size traps with cause 0x0B and TRAPADDR the address. -/
def Obligations.StoresArePassedOn : Prop :=
  ((∀ (d a : BitVec 6) (ty : BitVec 2) (o : BitVec 11) (s : State) (key : Nat),
     let n := 2 ^ ty.toNat
     let va := s.me.val a.toNat + o.signExtend 64 * BitVec.ofNat 64 n
     s.me.Clean [a.toNat] → (s.me.sreg d.toNat).pend = .ready → PlainWrite s .write va.toNat n 1 key →
     PassesStore (.st d a ty o) s
       (StoreOf s.nextOp s.cur va key (leBytes n (s.me.val d.toNat).toNat) (s.me.sreg d.toNat).poison false)) ∧
   (∀ (d a : BitVec 6) (q : BitVec 2) (sc : BitVec 3) (s : State) (key : Nat),
     let n := 2 ^ q.toNat
     s.me.Clean [a.toNat] → (s.me.sreg d.toNat).pend = .ready → PlainWrite s .write (s.me.val a.toNat).toNat n 1 key →
     PassesStore (.strel d a q sc) s
       (StoreOf s.nextOp s.cur (s.me.val a.toNat) key (leBytes n (s.me.val d.toNat).toNat) (s.me.sreg d.toNat).poison true)) ∧
   ∀ (a : BitVec 6) (sc : BitVec 3) (s : State) (key : Nat),
     s.me.Clean [a.toNat] → PlainWrite s .update (s.me.val a.toNat).toNat 8 1 key →
     PassesStore (.rel a sc) s fun x => x.home = .slot s.cur ∧ x.key = key ∧ x.increment = true ∧ x.release = true ∧ x.ord = s.nextOp) ∧
  (∀ (d a : BitVec 6) (o : BitVec 11) (sc : BitVec 3) (s : State), s.me.Clean [a.toNat] → (s.me.sreg d.toNat).pend = .ready →
     (∀ ty : BitVec 3, let va := s.me.val a.toNat + o.signExtend 64 * BitVec.ofNat 64 (2 ^ (ty.toNat / 2))
       va.toNat % 2 ^ (ty.toNat / 2) ≠ 0 → exec (.ld d a ty o) s = .next (trap s s.cur 0x0B va 0)) ∧
     (∀ ty : BitVec 2, let va := s.me.val a.toNat + o.signExtend 64 * BitVec.ofNat 64 (2 ^ ty.toNat)
       va.toNat % 2 ^ ty.toNat ≠ 0 → exec (.st d a ty o) s = .next (trap s s.cur 0x0B va 0)) ∧
     (∀ q : BitVec 2, (s.me.val a.toNat).toNat % 2 ^ q.toNat ≠ 0 →
       exec (.ldacq d a q sc) s = .next (trap s s.cur 0x0B (s.me.val a.toNat) 0) ∧
       exec (.strel d a q sc) s = .next (trap s s.cur 0x0B (s.me.val a.toNat) 0)) ∧
     ((s.me.val a.toNat).toNat % 8 ≠ 0 →
       exec (.acq a sc) s = .next (trap s s.cur 0x0B (s.me.val a.toNat) 0) ∧
       exec (.rel a sc) s = .next (trap s s.cur 0x0B (s.me.val a.toNat) 0)))

/-- 04_sequencer R109 and 09_guard R241, R242: the oldest store that a slot has passed on, when it is performed, puts its bytes at its key and no other
byte; a REL adds one to its word. It leaves the list, and its slot counts one less. A release waits until no access of the slot from before it
stands in a queue, and until other packages have acknowledged those it sent them (20_link R431): until then ACCESS_PERFORMED leaves everything as it
is. -/
def Obligations.PerformedStoreWritesItsBytes : Prop :=
  ∀ (s : State) (a : PendAcc) (rest : List PendAcc) (q : Nat), s.stores = a :: rest → a.slot = q → a.home = .slot q →
    a.waiting = false → (∀ b ∈ rest, b.home = .slot q → a.ord < b.ord) → 0 < a.bytes.length →
    Ordinary s a.key a.bytes.length → a.poison = none →
    (a.increment = true → a.bytes.length = 8 ∧ rangePoison s a.key 8 = none) →
    (a.release = true → vectorBefore s q a.ord = true ∨ unacked s (.slot q) = true → exec (.accessPerformed q 0) s = .next s) ∧
    ((a.release = true → vectorBefore s q a.ord = false ∧ unacked s (.slot q) = false) → ∃ t, exec (.accessPerformed q 0) s = .next t ∧
      WritesBytes { s with stores := rest } t a.key
        (if a.increment then leBytes 8 (BitVec.ofNat 64 (readLE s.mem a.key 8) + 1).toNat else a.bytes) ∧
      (∀ r, r ≠ q → t.slot r = s.slot r) ∧
      t.slot q = { s.slot q with cnt := { (s.slot q).cnt with stores := (s.slot q).cnt.stores - 1 } })

/-- 09_guard R246: the ten atomics. That one with A also lets every KST publication made so far be seen is the model's choice (log 5). -/
def Obligations.AtomicResults : Prop :=
  Atomic .amoadd (fun _ x y => x + y) ∧ Atomic .amoswap (fun _ _ y => y) ∧
  Atomic .amomin (fun _ x y => if x.sle y then x else y) ∧ Atomic .amomax (fun _ x y => if x.sle y then y else x) ∧
  Atomic .amominz (fun _ x y => if x.ule y then x else y) ∧ Atomic .amomaxz (fun _ x y => if x.ule y then y else x) ∧
  Atomic .amoand (fun _ x y => x &&& y) ∧ Atomic .amoor (fun _ x y => x ||| y) ∧ Atomic .amoxor (fun _ x y => x ^^^ y) ∧
  ∀ (d a : BitVec 6) (q c l : BitVec 1) (sc : BitVec 3) (s : State) (key : Nat),
    let n := if q = 0 then 4 else 8
    let va := (s.me.val a.toNat).toNat
    let hit := readLE s.mem key n = (s.me.val d.toNat).toNat % 2 ^ (8 * n)
    s.me.st ≠ .free → s.me.Clean [d.toNat, d.toNat + 1, a.toNat] → PlainRead s va n key → PlainWrite s .update va n 0 key → Ordinary s key n →
    (l = 1 → accessPending s s.cur = false) →
    ∃ t, exec (.amocas d a q c l sc) s = .next t ∧ (∀ r, r ≠ s.cur → t.slot r = s.slot r) ∧ SystemKept s.me t.me ∧
      RegsKept s.me t.me [d.toNat] ∧ WentOn s.me t.me ∧ (d ≠ 0 → t.me.sreg d.toNat = ⟨loadedValue s key n true, none, .ready⟩) ∧
      (hit → WritesBytes (s.acquired c) t key (leBytes n (s.me.val (d.toNat + 1)).toNat)) ∧
      (¬ hit → OnlySlot (s.acquired c) t s.cur)

/-- 04_sequencer R101, R102, R105, R107: LOOP, LOOPR and REP push an entry; a count of zero passes over the body; a seventh push traps with cause
0x04, and one of these words at the END of the top entry, or within a REP frame, with 0x01. The frame-end step: away from the top entry's END the
program goes on in line; a LOOP with more than one iteration left goes back and counts one less; a REP below its last repetition goes back with J one
higher; a last iteration pops, and the next entry is compared in the same step. -/
def Obligations.LoopStack : Prop :=
  ((∀ (s : State) (e : LoopEntry) (rest : List LoopEntry), s.me.loops = e :: rest →
     (s.me.OutsideRep ∧ s.me.pc = e.start + BitVec.ofNat 64 (4 * e.len)) ∨
       (e.kind = 2 ∧ e.start.toNat ≤ s.me.pc.toNat ∧ s.me.pc.toNat ≤ (e.start + BitVec.ofNat 64 (4 * e.len)).toNat) →
     ∀ (l : BitVec 10) (c : BitVec 16) (a : BitVec 6) (n : BitVec 4) (ts : BitVec 8) (v : BitVec 4) (xs : BitVec 6),
       exec (.loop l c) s = .next (trapWord s s.cur 0x01 (encode (.loop l c))) ∧
       ((s.me.sreg a.toNat).pend = .ready → exec (.loopr l a) s = .next (trapWord s s.cur 0x01 (encode (.loopr l a)))) ∧
       exec (.rep n ts v xs) s = .next (trapWord s s.cur 0x01 (encode (.rep n ts v xs)))) ∧
   ∀ s : State, s.me.OutsideRep → (∀ e rest, s.me.loops = e :: rest → s.me.pc ≠ e.start + BitVec.ofNat 64 (4 * e.len)) →
     let pushes := fun (i : Instr) (e : LoopEntry → Prop) =>
       (s.me.loops.length ≠ 6 → ∃ t x, exec i s = .next t ∧ e x ∧ OnlySlot s t s.cur ∧ SystemKept s.me t.me ∧ RegsKept s.me t.me [] ∧
         t.me.loops = x :: s.me.loops ∧ t.me.pc = s.me.pc + 4) ∧
       (s.me.loops.length = 6 → exec i s = .next (trapWord s s.cur 0x04 (encode i)))
     let body := fun (len : Nat) (c : Word) (e : LoopEntry) =>
       e.kind = 1 ∧ e.len + 1 = len ∧ e.start = s.me.pc + 4 ∧ e.count = c ∧ e.j = 0
     (∀ (l : BitVec 10) (c : BitVec 16), c ≠ 0 → pushes (.loop l c) (body (l.toNat + 1) (c.zeroExtend 64))) ∧
     (∀ l : BitVec 10, Transfers (.loop l 0) s (s.me.pc + BitVec.ofNat 64 (4 * (l.toNat + 2)))) ∧
     (∀ (l : BitVec 10) (a : BitVec 6), s.me.Clean [a.toNat] →
       (s.me.val a.toNat ≠ 0 → pushes (.loopr l a) (body (l.toNat + 1) (s.me.val a.toNat))) ∧
       (s.me.val a.toNat = 0 → Transfers (.loopr l a) s (s.me.pc + BitVec.ofNat 64 (4 * (l.toNat + 2))))) ∧
     ∀ (n : BitVec 4) (ts : BitVec 8) (v : BitVec 4) (xs : BitVec 6), pushes (.rep n ts v xs) fun e =>
       e.kind = 2 ∧ e.len = n.toNat ∧ e.vstr = v.toNat ∧ e.sstr = xs.toNat ∧ e.times = ts.toNat ∧ e.j = 0 ∧ e.start = s.me.pc + 4 ∧ e.count = 0) ∧
  (∀ (pc : Word) (e : LoopEntry) (rest : List LoopEntry) (b : Bool),
     let endOf := e.start + BitVec.ofNat 64 (4 * e.len)
     (frameEnd pc [] b).1 = pc + 4 ∧ (frameEnd pc [] b).2.1 = [] ∧
     (pc ≠ endOf → (frameEnd pc (e :: rest) b).1 = pc + 4 ∧ (frameEnd pc (e :: rest) b).2.1 = e :: rest) ∧
     (pc = endOf → e.kind = 1 → e.count ≠ 1 → ∃ x, frameEnd pc (e :: rest) b = (e.start, x :: rest, true) ∧ x.count = e.count - 1 ∧
       x.p = e.p ∧ x.start = e.start) ∧
     (pc = endOf → e.kind = 1 → e.count = 1 → frameEnd pc (e :: rest) b = frameEnd pc rest true) ∧
     (pc = endOf → e.kind = 2 → e.j < e.times → ∃ x, frameEnd pc (e :: rest) b = (e.start, x :: rest, true) ∧ x.j = e.j + 1 ∧
       x.kind = 2 ∧ x.len = e.len ∧ x.times = e.times ∧ x.vstr = e.vstr ∧ x.sstr = e.sstr ∧ x.start = e.start) ∧
     (pc = endOf → e.kind = 2 → e.times ≤ e.j → frameEnd pc (e :: rest) b = frameEnd pc rest true))

/-- 04_sequencer R79, R96 to R98: CALL and CALLR push the return address and the vector-state word below s63, lower s63 by 16 and jump; RET goes to the
word at s63, takes VL and the fields of VCFG from the next one, and raises s63 by 16. FT and CVS stay. -/
def Obligations.CallAndReturn : Prop :=
  (∀ (s : State) (key : Nat), s.me.OutsideRep → s.me.Clean [63] → vlPending s s.cur = false →
     PlainWrite s .write (s.me.val 63 - 16).toNat 16 2 key → (s.me.val 63).toNat % 16 = 0 →
     (spBase s (clusterOf s.cur)).toNat % Config.windowBytes = 0 → s.me.vl < 2 ^ 14 →
     let calls := fun (i : Instr) (target : Word) =>
       ∃ t x y, exec i s = .next t ∧ OnlyStores s t s.cur [x, y] ∧ SystemKept (s.me.countStores 2) t.me ∧ RegsKept s.me t.me [63] ∧
         t.me.sreg 63 = ⟨s.me.val 63 - 16, none, .ready⟩ ∧ WentTo s.me t.me target ∧
         StoreOf s.nextOp s.cur (s.me.val 63 - 16) key (leBytes 8 (s.me.pc + 4).toNat) none false x ∧
         y.va = s.me.val 63 - 8 ∧ y.ord = s.nextOp + 1 ∧ ∃ w : Word, y.bytes = leBytes 8 w.toNat ∧
           wbits w 13 0 = s.me.vl ∧ wbits w 16 14 = wbits (s.me.vcfg.setWidth 64) 2 0 ∧
           wbits w 18 17 = wbits (s.me.vcfg.setWidth 64) 4 3 ∧ wbits w 21 19 = wbits (s.me.vcfg.setWidth 64) 10 8 ∧
           w.getLsbD 22 = s.me.vcfg.getLsbD 11 ∧ w.getLsbD 23 = s.me.vcfg.getLsbD 5 ∧ w.getLsbD 24 = s.me.vcfg.getLsbD 6
     (∀ o : BitVec 26, calls (.call o) (s.me.pc + 4 * o.signExtend 64)) ∧
     ∀ a : BitVec 6, s.me.Clean [a.toNat] → (s.me.val a.toNat).toNat % 4 = 0 → calls (.callr a) (s.me.val a.toNat)) ∧
  (∀ (s : State) (key : Nat), s.me.OutsideRep → s.me.Clean [63] → vlPending s s.cur = false → PlainRead s (s.me.val 63).toNat 16 key →
     let w0 : Word := BitVec.ofNat 64 (readLE s.mem key 8)
     let w1 : Word := BitVec.ofNat 64 (readLE s.mem (key + 8) 8)
     let c := vcfgOfVsw s.me.vcfg w1
     wbits w1 63 25 = 0 → wbits w1 16 14 ≤ 5 → wbits w1 13 0 ≤ s.me.vlmax c → w0.toNat % 4 = 0 →
     ∃ t, exec .ret s = .next t ∧ OnlySlot s t s.cur ∧ SystemKept { s.me with vl := wbits w1 13 0, vcfg := c } t.me ∧
       RegsKept s.me t.me [63] ∧ t.me.sreg 63 = ⟨s.me.val 63 + 16, none, .ready⟩ ∧ WentTo s.me t.me w0 ∧
       wbits (c.setWidth 64) 2 0 = wbits w1 16 14 ∧ wbits (c.setWidth 64) 4 3 = wbits w1 18 17 ∧ c.getLsbD 5 = w1.getLsbD 23 ∧
       c.getLsbD 6 = w1.getLsbD 24 ∧ c.getLsbD 7 = s.me.vcfg.getLsbD 7 ∧ wbits (c.setWidth 64) 10 8 = wbits w1 21 19 ∧
       c.getLsbD 11 = w1.getLsbD 22 ∧ wbits (c.setWidth 64) 13 12 = wbits (s.me.vcfg.setWidth 64) 13 12)

/-- 04_sequencer R111 and 09_guard R233, R243: WAIT, GFENCE, FENCE.SV and FENCE.VS complete when what they wait for is done, and stall until then;
FENCE.VV is an entry of the vector queue. That FENCE.SV stalls until the scalar stores are performed, with its place noted for the commands that follow
(R247), and that FENCE.VV waits for tile accesses before it enters is the model's reading (log 46); that FENCE.VV takes its P from VSTART
and sets it to zero is log 65; that GFENCE lets every KST publication made so far be seen is log 5. -/
def Obligations.WaitsAndFences : Prop :=
  ∀ s : State,
    (∀ l xs c n : BitVec 6,
      let met := s.me.cnt.loads ≤ l.toNat ∧ s.me.cnt.stores ≤ xs.toNat ∧ s.me.cnt.copies ≤ c.toNat ∧ s.me.cnt.tiles ≤ n.toNat
      (met → Passes (.wait l xs c n) s) ∧ (¬ met → Stalls (.wait l xs c n) s (.counts l.toNat xs.toNat c.toNat n.toNat))) ∧
    (∀ sc : BitVec 3, (accessPending s s.cur = false → PassesInto (.gfence sc) s s.settleLinks) ∧ (accessPending s s.cur = true → Stalls (.gfence sc) s .accesses)) ∧
    ((∀ a ∈ s.stores, a.home ≠ .slot s.cur) →
      ∃ t, exec .fenceSv s = .next t ∧ OnlySlot { s with nextOp := s.nextOp + 1 } t s.cur ∧
        SystemKept { s.me with ctx := { s.me.ctx with fence := s.nextOp } } t.me ∧ RegsKept s.me t.me [] ∧ WentOn s.me t.me) ∧
    ((∃ a ∈ s.stores, a.home = .slot s.cur) → Stalls .fenceSv s .accesses) ∧
    (vectorAccessPending s s.cur = false → Passes .fenceVs s) ∧
    (vectorAccessPending s s.cur = true → Stalls .fenceVs s .vectorAccesses) ∧
    (s.me.vq.length < 32 → (∀ e ∈ tilesOf s s.cur, wordIsTileAccess e.word = false) →
      Enqueues .fenceVv s (fun e => e.kind = .fenceVV ∧ e.word = 0x74000200 ∧ e.pc = s.me.pc ∧ e.p = s.me.vstart) s.me.cnt []) ∧
    (32 ≤ s.me.vq.length → Stalls .fenceVv s .vectorQueueFull)

/-- 10_context R262, R263: a trap in context mode saves the context in its context save area and enters the handler at the level that HPRIV names; the
image holds the program counter given, the report and the registers, and no byte outside the image's written part changes. A trap in handler mode
with NESTED clear saves nothing, sets NESTED and starts the handler again at its level; it empties the queues, the counters are those of the
operations still in flight, and a register that a queue entry would have written waits no longer. -/
def Obligations.TrapEntry : Prop :=
  (∀ (s : State) (q key : Nat) (r : Report) (pc : Word), (s.slot q).mode = .context → SaveArea s q key →
     let t := takeTrapAt s q r pc
     let x := (settleStats s q).slot q
     EntersSaved s t q key r ∧ readWord t.mem (key + 0x10) = pc ∧
     (r.cause < 256 → wbits (readWord t.mem (key + 0x20)) 7 0 = r.cause) ∧ readWord t.mem (key + 0x28) = r.pc ∧
     readWord t.mem (key + 0x30) = r.addr ∧ readWord t.mem (key + 0x38) = r.aux ∧
     (∀ n, 1 ≤ n → n ≤ 63 → readWord t.mem (key + 0xC0 + 8 * n) = if (x.bank0 n).poison = none then (x.bank0 n).val else 0) ∧
     ∀ a, a < key + 0x10 ∨ key + 0x1000 ≤ a → readByte t.mem a = readByte s.mem a) ∧
  (∀ (s : State) (q key : Nat) (r : Report) (pc : Word), (s.slot q).mode = .handler → (s.slot q).trapNested = false → csaKey s q = some key →
     let t := takeTrapAt s q r pc
     let stores := (s.stores.filter fun a => a.home == .slot q).length + (s.claims.filter fun k => k.2.slot == q).length
     let copies := (s.copies.filter fun c => c.2.home == .slot q).length + (s.cmds.filter fun c => c.2.home == .slot q).length
     EntersHandler s t q key (s.slot q).level true r ⟨0, stores, copies, 0⟩
       (fun n p => if p = .queue ∧ (s.slot q).regIndex n ∉ unitDests s q then .ready else p) ∧
     ∀ a, readByte t.mem a = readByte s.mem a)

/-- 10_context R253 to R256 and R262: what a first-stage save writes beside the resume address and the report: CSTAT with VALID set and PARK clear, the
SYS words, bank 1, the loop stack, the queues, the ports and PSN; everything else of the CSA from 0x300 on is zero. The results of SSTATs that waited
are written first (08_stream R204). -/
def Obligations.SavedImage : Prop :=
  ∀ (s : State) (q key : Nat) (r : Report) (pc : Word), (s.slot q).mode = .context → SaveArea s q key →
    let m := (takeTrapAt s q r pc).mem
    let u := settleStats s q
    let x := u.slot q
    let port := fun p => (u.core (coreOf q)).port p
    let owns := fun p => p < 8 ∧ (port p).st ≠ .closed ∧ (port p).owner = q
    let word := fun o => readWord m (key + o)
    let stores := (s.stores.filter fun a => a.home == .slot q).length
    let copies := (s.copies.filter fun c => c.2.home == .slot q).length + (s.cmds.filter fun c => c.2.home == .slot q).length
    (let c := word 0x18
     x.laneCount ≤ 8 → x.vlen < 2 ^ 15 →
     wbits c 63 62 = levelCode x.level ∧ wbits c 61 60 = wbits (readWord s.mem (key + 0x18)) 61 60 ∧ wbits c 59 59 = 1 ∧ wbits c 58 58 = 0 ∧
     wbits c 57 56 = 0 ∧ wbits c 55 52 = x.laneCount ∧ wbits c 51 37 = x.vlen ∧ wbits c 36 34 = x.loops.length ∧ wbits c 33 28 = x.vq.length ∧
     wbits c 27 23 = (tilesOf u q).length ∧ (∀ p < 8, c.getLsbD (15 + p) = true ↔ owns p) ∧ wbits c 14 0 = 0) ∧
    (r.cause < 256 → word 0x20 = BitVec.ofNat 64 (r.cause + r.queue.toNat * 2 ^ 9 + x.request.isSome.toNat * 2 ^ 10 + r.frlost.toNat * 2 ^ 11)) ∧
    (∀ i < 16, word (0x40 + 8 * i) =
      ([x.fflags.setWidth 64, x.frm.setWidth 64, BitVec.ofNat 64 x.vl, x.vcfg.setWidth 64, BitVec.ofNat 64 x.vstart, x.uivec, x.uiepc, x.uistat.word,
        x.accBase.setWidth 64, x.accLim.setWidth 64, x.reefTh.setWidth 64, BitVec.ofNat 64 x.reefTrap.toNat,
        BitVec.ofNat 64 (stores * 2 ^ 16 + copies * 2 ^ 8), x.asid.setWidth 64, x.shtag.setWidth 64, x.prio.setWidth 64] : List Word).getD i 0) ∧
    (∀ n, 56 ≤ n → n ≤ 61 → word (0x2C0 + 8 * (n - 56)) = if (x.bankOne n).poison = none then (x.bankOne n).val else 0) ∧
    (∀ i e, x.loops.reverse[i]? = some e → let a := 0x300 + 24 * i; word a = e.p ∧ word (a + 8) = e.start ∧ word (a + 16) = e.count) ∧
    (∀ i e, x.vq[i]? = some e → VqImage m (key + 0x3C0 + 48 * i) e) ∧
    (∀ i e, (tilesOf u q)[i]? = some e → TqImage m (key + 0x9C0 + 48 * i) e) ∧
    (∀ p, owns p → PortImage m (key + 0xCC0 + 80 * p) (port p)) ∧
    (∀ n < 64, PsnImage m (key + 0xF40 + 2 * n) (x.bank0 n)) ∧
    (∀ n, 56 ≤ n → n ≤ 61 → PsnImage m (key + 0xFC0 + 2 * (n - 56)) (x.bankOne n)) ∧
    (∀ p < 8, ¬ owns p → ∀ b < 80, readByte m (key + 0xCC0 + 80 * p + b) = 0) ∧
    ∀ o, (0x2F0 ≤ o ∧ o < 0x300) ∨ (0x300 + 24 * x.loops.length ≤ o ∧ o < 0x3C0) ∨ (0x3C0 + 48 * x.vq.length ≤ o ∧ o < 0x9C0) ∨
      (0x9C0 + 48 * (tilesOf u q).length ≤ o ∧ o < 0xCC0) ∨ (0xFCC ≤ o ∧ o < 0x1000) → readByte m (key + o) = 0

/-- 10_context R276: TRAP and BRK complete with their frame-end step and then trap with causes 0x31 and 0x30; TRAPPC is the instruction, TRAPAUX its
number, and the image's PC the next one. -/
def Obligations.SoftwareTraps : Prop :=
  ∀ (s : State) (key : Nat) (n : BitVec 18), s.me.mode = .context → s.me.OutsideRep → SaveArea (s.complete s.cur) s.cur key →
    let enters := fun (i : Instr) (cause : Nat) => ∃ t, exec i s = .next t ∧
      EntersSaved (s.complete s.cur) t s.cur key ⟨cause, s.me.pc, 0, BitVec.ofNat 64 n.toNat, false, false⟩ ∧
      readWord t.mem (key + 0x10) = (frameEnd s.me.pc s.me.loops false).1 ∧
      ∀ a, a < key + 0x10 ∨ key + 0x1000 ≤ a → readByte t.mem a = readByte s.mem a
    enters (.trap n) 0x31 ∧ enters (.brk n) 0x30

/-- 04_sequencer R114, R115: entry to the user-level handler, a reef interrupt first, and UIRET, which traps with cause 0x01 when ACT is clear. -/
def Obligations.UserInterrupts : Prop :=
  ∀ (s : State) (q : Nat),
    (let x := s.slot q
     x.st ≠ .free → x.st ≠ .stall .draining → x.mode = .context → x.uistat.en = true → x.uistat.act = false → (x.uistat.preef = true ∨ x.uistat.pcopy = true) → x.due = none →
     ∃ t, exec (.ulInterruptEntry q) s = .next t ∧ OnlySlot s t q ∧ (t.slot q).pc = x.uivec ∧ (t.slot q).uiepc = x.pc ∧
       (t.slot q).uistat.act = true ∧ (t.slot q).uistat.en = true ∧
       (if x.uistat.preef then (t.slot q).uistat.cause = 0x13 ∧ (t.slot q).uistat.preef = false ∧ (t.slot q).uistat.pcopy = x.uistat.pcopy
        else (t.slot q).uistat.cause = 0x20 ∧ (t.slot q).uistat.pcopy = false) ∧
       (∀ r, r < 56 ∨ 61 < r → (t.slot q).sreg r = x.sreg r) ∧ ∀ r, 56 ≤ r → r ≤ 61 → (t.slot q).sreg r = x.bankOne r) ∧
    (s.me.OutsideRep → s.me.uistat.act = true →
      ∃ t, exec .uiret s = .next t ∧ OnlySlot s t s.cur ∧ SystemKept { s.me with uistat := { s.me.uistat with act := false } } t.me ∧
        WentTo s.me t.me s.me.uiepc ∧ (∀ r, r < 56 ∨ 61 < r → t.me.sreg r = s.me.sreg r) ∧ ∀ r, 56 ≤ r → r ≤ 61 → t.me.sreg r = s.me.bank0 r) ∧
    (s.me.OutsideRep → s.me.uistat.act = false → exec .uiret s = .next (trapWord s s.cur 0x01 (encode .uiret)))

/-- 10_context R265, R266, R274: ERET loads the image of the context that the handler serves, which runs on as the image says, and clears its VALID
bit; no other byte of memory changes. -/
def Obligations.ReturnFromHandler : Prop :=
  ∀ (s : State) (key : Nat), 1 ≤ levelCode s.me.level → s.me.OutsideRep → s.me.mode = .handler → storePending s s.cur = false → vectorIdle s s.cur = true →
    tilesIdle s s.cur = true → csaKey s s.cur = some key → s.me.ctx.ending = false → s.me.trapCause ≠ 0x21 → s.me.request = none →
    Loadable s s.cur (scalarAgent s s.cur) s.me.csaBase key →
    ∃ t, exec .eret s = .next t ∧ Resumed s t.me key ∧ (∀ n, n ≠ s.cur → t.slot n = s.slot n) ∧
      readWord t.mem (key + 0x18) = readWord s.mem (key + 0x18) &&& ~~~(1#64 <<< 59) ∧
      ∀ a, a < key + 0x18 ∨ key + 0x20 ≤ a → readByte t.mem a = readByte s.mem a

/-- 03_encoding R57 and 10_context R271: for every system register with RW fields, SRD gives its fields, SWR, SRSET and SRCLR write the RW ones from sa,
from the field OR sa and from the field AND NOT sa, and SWR alone has the W1C and WO ones act; a value that may not stand traps with cause 0x01; a level
below the register's traps with cause 0x02, and a write of SHTAG, ASID or CSABASE in context mode with 0x01, which R271 says of SWR and the model of
SRSET and SRCLR too (log 40). AGELIMIT is read and written per die (log 11). -/
def Obligations.SystemRegisters : Prop :=
  ∀ g ∈ systemRegisters, ∀ (s : State) (a : BitVec 6),
    let writes := [Instr.swr a g.num, .srset a g.num, .srclr a g.num]
    let sa := s.me.val a.toNat
    (levelCode g.readLevel ≤ levelCode s.me.level → (s.me.sreg a.toNat).pend = .ready → sysWaits s s.cur g.num.toNat false = false →
      Loads (.srd a g.num) s a.toNat (g.get s) none) ∧
    (levelCode s.me.level < levelCode g.readLevel → exec (.srd a g.num) s = .next (trapWord s s.cur 0x02 (encode (.srd a g.num)))) ∧
    (levelCode s.me.level < levelCode g.writeLevel → ∀ i ∈ writes, exec i s = .next (trapWord s s.cur 0x02 (encode i))) ∧
    (levelCode g.writeLevel ≤ levelCode s.me.level → s.me.Clean [a.toNat] →
      (g.num ∈ [0x110, 0x111, 0x113] ∧ s.me.mode = .context → ∀ i ∈ writes, exec i s = .next (trapWord s s.cur 0x01 (encode i))) ∧
      (g.num ∉ [0x110, 0x111, 0x113] ∨ s.me.mode = .handler → sysWaits s s.cur g.num.toNat true = false →
        WritesSys (.swr a g.num) s g (sa &&& g.rw) (g.set (g.act s sa) (sa &&& g.rw)) ∧
        (let v := (g.get s ||| sa) &&& g.rw; WritesSys (.srset a g.num) s g v (g.set s v)) ∧
        let v := (g.get s &&& ~~~sa) &&& g.rw
        WritesSys (.srclr a g.num) s g v (g.set s v)))

/-- 05_vector R123, 07_tile R168, 06_vector_access R157, 08_stream R221, 14_queue R336 and 03_encoding R57: the waits of system registers; WAITCNT,
which may only be read; and every number that names no register, which traps with cause 0x01. AGELIMIT is per die (log 11). -/
def Obligations.SystemRegisterWaits : Prop :=
  (∀ (s : State) (a : BitVec 6), s.me.Clean [a.toNat] → s.me.level = .firmware →
    let writes := fun (n : BitVec 12) => [Instr.swr a n, .srset a n, .srclr a n]
    let stalls := fun (is : List Instr) (why : Stall) => ∀ i ∈ is, Stalls i s why
    (vectorIdle s s.cur = false → vlPending s s.cur = false →
      (∀ n ∈ [0x001, 0x002, 0x012, 0x013], stalls (.srd a n :: writes n) .vectorBusy) ∧
      (∀ n ∈ [0x010, 0x011], stalls (writes n) .vectorBusy) ∧ Loads (.srd a 0x011) s a.toNat (s.me.vcfg.setWidth 64) none) ∧
    (vectorIdle s s.cur = true → tilesIdle s s.cur = false → vlPending s s.cur = false →
      (∀ n ∈ [0x001, 0x042, 0x043], stalls (.srd a n :: writes n) .tilesBusy) ∧ ∀ n ∈ [0x040, 0x041], stalls (writes n) .tilesBusy) ∧
    (vlPending s s.cur = true → stalls (.srd a 0x010 :: writes 0x010) .vlPending) ∧
    (vectorIdle s s.cur = true → tilesIdle s s.cur = true → windowBusy s (clusterOf s.cur) = true → stalls (writes 0x114) .retry) ∧
    Loads (.srd a 0x114) s a.toNat (spBase s (clusterOf s.cur)) none ∧ Loads (.srd a 0x200) s a.toNat (ageLimitOf s (dieOf s.cur)) none) ∧
  ∀ (s : State) (a : BitVec 6) (n : BitVec 12),
    ((s.me.sreg a.toNat).pend = .ready → Loads (.srd a 0x030) s a.toNat
      (BitVec.ofNat 64 (s.me.cnt.loads * 2 ^ 24 + s.me.cnt.stores * 2 ^ 16 + s.me.cnt.copies * 2 ^ 8 + s.me.cnt.tiles)) none) ∧
    ((∀ g ∈ systemRegisters, g.num ≠ n) →
      (∀ i ∈ [Instr.swr a n, .srset a n, .srclr a n], exec i s = .next (trapWord s s.cur 0x01 (encode i))) ∧
      (n ≠ 0x030 → exec (.srd a n) s = .next (trapWord s s.cur 0x01 (encode (.srd a n)))))

/-- 09_guard R235 to R237: GBIND puts a region into the lowest free entry of the address space, or answers −2 on an overlap and −1 without a free entry;
GUNBIND invalidates an entry of the issuer's tag. -/
def Obligations.RegionBinding : Prop :=
  ∀ (s : State) (d a : BitVec 6), s.me.Clean [a.toNat] →
    (∀ key : Nat, (s.me.sreg d.toNat).pend = .ready → (s.me.val a.toNat).toNat % 8 = 0 → OwnRead s (s.me.val a.toNat).toNat 32 key →
      let w := fun i => readWord s.mem (key + 8 * i)
      let entry := fun e => tabFind s.regions (s.me.asid.toNat * 64 + e)
      let meets := fun r : Region => (w 0).toNat < r.base.toNat + r.len.toNat ∧ r.base.toNat < (w 0).toNat + (w 1).toNat
      let answers := fun (regions : Tab Region) (v : Word) => ∃ t, exec (.gbind d a) s = .next t ∧ OnlySlot { s with regions := regions } t s.cur ∧
        SystemKept s.me t.me ∧ RegsKept s.me t.me [d.toNat] ∧ WentOn s.me t.me ∧ (d ≠ 0 → t.me.sreg d.toNat = ⟨v, none, .ready⟩)
      (w 0).toNat % 64 = 0 → (w 1).toNat % 64 = 0 → 64 ≤ (w 1).toNat → (w 0).toNat + (w 1).toNat ≤ 2 ^ 56 → (w 2).toNat % 8 = 0 →
      ¬ ((w 0).toNat ≤ (w 2).toNat ∧ (w 2).toNat < (w 0).toNat + (w 1).toNat) → w 3 = 0 →
      ((∃ e < 64, ∃ r, entry e = some r ∧ meets r) → answers s.regions (-2)) ∧
      ((∀ e < 64, ∀ r, entry e = some r → ¬ meets r) →
        ((∀ e < 64, entry e ≠ none) → answers s.regions (-1)) ∧
        ∀ e < 64, entry e = none → (∀ j < e, entry j ≠ none) →
          answers (tabSet s.regions (s.me.asid.toNat * 64 + e) ⟨w 0, w 1, w 2, s.me.shtag⟩) (BitVec.ofNat 64 e))) ∧
    (63 < (s.me.val a.toNat).toNat → exec (.gunbind a) s = .next (trapWord s s.cur 0x01 (encode (.gunbind a)))) ∧
    ((s.me.val a.toNat).toNat ≤ 63 →
      let n := s.me.asid.toNat * 64 + (s.me.val a.toNat).toNat
      (tabFind s.regions n = none → Passes (.gunbind a) s) ∧
      ∀ r, tabFind s.regions n = some r →
        (s.me.shtag = 0 ∨ r.tag = s.me.shtag →
          ∃ t, exec (.gunbind a) s = .next t ∧ OnlySlot { s with regions := tabDel s.regions n } t s.cur ∧ SystemKept s.me t.me ∧
            RegsKept s.me t.me [] ∧ WentOn s.me t.me) ∧
        (s.me.shtag ≠ 0 → r.tag ≠ s.me.shtag → exec (.gunbind a) s = .next (trap s s.cur 0x0A 0 0)))

/-- 15_barrier R343 to R348: BARI passes on the store of the count; BARA puts a marker for its address into the vector queue; BARW without a
marker is a read, and with a fired marker completes once the phase differs from the joined one, which removes the marker. A marker that fires adds
an arrival to its word, or completes the phase, and records the phase it joined; on a word of no participants or of too many arrivals it raises a
trap with cause 0x01 (R344, R346) and leaves the word. That BARA sets VSTART to zero, as every queue entry does, is the model's reading (log 65). -/
def Obligations.BarrierInstructions : Prop :=
  (∀ (s : State) (d a : BitVec 6) (sc : BitVec 3), s.me.Clean [a.toNat] →
     let sa := s.me.val a.toNat
     (∀ key : Nat, s.me.Clean [d.toNat] → s.me.val d.toNat ≠ 0 → (s.me.val d.toNat).toNat < 2 ^ 20 → PlainWrite s .write sa.toNat 8 1 key →
       PassesStore (.bari d a) s (StoreOf s.nextOp s.cur sa key (leBytes 8 (s.me.val d.toNat).toNat) none false)) ∧
     (s.me.Clean [d.toNat] → sa.toNat % 8 = 0 → s.me.val d.toNat = 0 ∨ 2 ^ 20 ≤ (s.me.val d.toNat).toNat →
       exec (.bari d a) s = .next (trap s s.cur 0x01 0 (s.me.val d.toNat))) ∧
     (sa.toNat % 8 ≠ 0 → exec (.bara a sc) s = .next (trap s s.cur 0x0B sa 0)) ∧
     (sa.toNat % 8 = 0 → s.me.vq.length < 32 →
       Enqueues (.bara a sc) s (fun e => e.kind = .marker ∧ e.op0 = sa ∧ e.pc = s.me.pc ∧ e.joined = none) s.me.cnt []) ∧
     ∀ key : Nat, PlainRead s sa.toNat 8 key →
       ((∀ e ∈ s.me.vq, ¬ (e.kind = .marker ∧ e.op0 = sa)) → Passes (.barw a sc) s) ∧
       ∀ pre m post, s.me.vq = pre ++ m :: post → (∀ e ∈ pre, ¬ (e.kind = .marker ∧ e.op0 = sa)) → m.kind = .marker → m.op0 = sa →
         (m.joined = none → Retries (.barw a sc) s) ∧
         ∀ p : Word, m.joined = some p →
           (p.toNat = wbits (readWord s.mem key) 63 40 → Retries (.barw a sc) s) ∧
           (p.toNat ≠ wbits (readWord s.mem key) 63 40 →
             ∃ t, exec (.barw a sc) s = .next t ∧ OnlySlot s t s.cur ∧ SystemKept { s.me with vq := pre ++ post } t.me ∧ RegsKept s.me t.me [] ∧
               WentOn s.me t.me)) ∧
  (∀ (s : State) (k key : Nat) (e : VEntry) (r : Row), s.me.vq[k]? = some e → e.unfired = true → s.me.due = none → s.me.st ≠ .free →
     mayFire s s.cur e = true → decodeToRow e.word = .ok r → PlainBlock s e.op0.toNat 8 key →
     let w := readWord s.mem key
     let phase := wbits w 63 40
     let arrived := wbits w 39 20
     let n := wbits w 19 0
     (arrived < n →
       ∃ t, exec (.barrierMarkerFire s.cur k) s = .next t ∧ (∀ q, q ≠ s.cur → t.slot q = s.slot q) ∧
         t.me = { s.me with vq := s.me.vq.set k { e with probed := none, joined := some (BitVec.ofNat 64 phase) } } ∧
         WritesBytes { s with stores := t.stores } t key
           (leBytes 8 (if arrived + 1 < n then phase * 2 ^ 40 + (arrived + 1) * 2 ^ 20 + n else (phase + 1) % 2 ^ 24 * 2 ^ 40 + n))) ∧
     (n ≤ arrived →
       ∃ t, exec (.barrierMarkerFire s.cur k) s = .next t ∧ OnlySlot s t s.cur ∧
         t.me = { s.me with due := some ⟨0x01, e.pc, e.op0, BitVec.ofNat 64 e.word, true, false⟩, dueOrd := e.ord }))

/-- 15_barrier R351, R353, R354, R356: FWAIT reads a FULL future and links its record to an EMPTY one, whose reader ends; FFILL makes an EMPTY future
FULL with its value and starts the walk of the continuations; FRESET makes one EMPTY. -/
def Obligations.FutureResults : Prop :=
  ∀ (s : State) (d a : BitVec 6) (sc : BitVec 3) (key : Nat), s.me.st ≠ .free → s.me.Clean [a.toNat] → (s.me.sreg d.toNat).pend = .ready →
    PlainBlock s (s.me.val a.toNat).toNat 16 key →
    let w := readWord s.mem key
    let v := readWord s.mem (key + 8)
    let head := w &&& 0x00FFFFFFFFFFFFC0#64
    wbits w 61 56 = 0 → wbits w 5 0 = 0 →
    (wbits w 63 62 = 1 → Loads (.fwait d a sc) s d.toNat v none) ∧
    (wbits w 63 62 = 0 → accessPending s s.cur = false → (s.me.sreg d.toNat).poison = none →
      ∃ t, exec (.ffill d a sc) s = .next t ∧ (∀ q, q ≠ s.cur → t.slot q = s.slot q) ∧ SystemKept s.me t.me ∧ RegsKept s.me t.me [] ∧
        WentOn s.me t.me ∧ (head = 0 → t.walkers = s.walkers) ∧
        (head ≠ 0 → ∃ x, tabFind t.walkers s.nextOp = some x ∧ x.next = head ∧ x.value = s.me.val d.toNat) ∧
        WritesBytes { s with walkers := t.walkers, nextOp := t.nextOp } t key (leBytes 8 (2 ^ 62) ++ leBytes 8 (s.me.val d.toNat).toNat)) ∧
    (wbits w 63 62 = 1 ∨ head = 0 ∧ wbits w 63 62 = 0 →
      ∃ t, exec (.freset a) s = .next t ∧ (∀ q, q ≠ s.cur → t.slot q = s.slot q) ∧ SystemKept s.me t.me ∧ RegsKept s.me t.me [] ∧
        WentOn s.me t.me ∧ WritesBytes s t key (List.replicate 16 0)) ∧
    (wbits w 63 62 ≠ 0 → accessPending s s.cur = false → exec (.ffill d a sc) s = .next (trap s s.cur 0x01 0 w)) ∧
    ∀ (rec n p : Nat), wbits w 63 62 = 0 → s.me.mode = .context → s.me.ctx.work = .task n p → s.me.ctx.children = [] → s.me.ctx.siblings = 0 →
      s.me.Clean [d.toNat] → PlainBlock s (s.me.val d.toNat).toNat 64 rec → PlainWrite s .write ((s.me.val d.toNat).toNat + 0x30) 16 0 (rec + 0x30) →
      (rec + 64 ≤ key ∨ key + 16 ≤ rec) → contBadField ((List.range 8).map fun i => readWord s.mem (rec + 8 * i)) = none →
      slotDrained s s.cur = true →
      ∃ t, exec (.fwait d a sc) s = .next t ∧ t.me.st = .free ∧ (∀ q, q ≠ s.cur → t.slot q = s.slot q) ∧
        readWord t.mem key = s.me.val d.toNat &&& 0x00FFFFFFFFFFFFC0#64 ∧
        readWord t.mem (rec + 0x30) = BitVec.ofNat 64 (s.me.shtag.toNat + n % 4096 * 2 ^ 16 + p % 2 ^ 32 * 2 ^ 32) ∧
        readWord t.mem (rec + 0x38) = head ∧
        ∀ x, (x < key ∨ key + 8 ≤ x) → (x < rec + 0x30 ∨ rec + 0x40 ≤ x) → readByte t.mem x = readByte s.mem x

/-- 05_vector R131, R132: VSETVL and VSETVLI set VCFG and VL and give VL; VGRANT claims the next strip of a record, whose CLAIM stands at offset 8 and
COUNT at 0. -/
def Obligations.VectorLengthResults : Prop :=
  ∀ s : State, VectorOpen s →
    (let sets := fun (i : Instr) (d : Nat) (c : BitVec 14) (n : Nat) =>
      let vl := min n (s.me.vlmax c)
      ∃ t, exec i s = .next t ∧ OnlySlot s t s.cur ∧ SystemKept { s.me with vcfg := c, vl := vl } t.me ∧ RegsKept s.me t.me [d] ∧
        WentOn s.me t.me ∧ (d ≠ 0 → t.me.sreg d = ⟨BitVec.ofNat 64 vl, none, .ready⟩)
    (∀ d a b : BitVec 6, s.me.Clean [a.toNat, b.toNat] → (s.me.sreg d.toNat).pend = .ready →
      let c := s.me.val b.toNat
      (wbits c 63 14 = 0 → wbits c 2 0 ≤ 5 → wbits c 13 12 ≠ 3 → sets (.vsetvl d a b) d.toNat (c.setWidth 14) (s.me.val a.toNat).toNat) ∧
      (wbits c 63 14 ≠ 0 ∨ 5 < wbits c 2 0 ∨ wbits c 13 12 = 3 → exec (.vsetvl d a b) s = .next (trap s s.cur 0x01 0 c))) ∧
    ∀ (d a : BitVec 6) (c : BitVec 12), s.me.Clean [a.toNat] → (s.me.sreg d.toNat).pend = .ready →
      sets (.vsetvli d a c) d.toNat (c.zeroExtend 14) (s.me.val a.toNat).toNat) ∧
    ∀ (d a : BitVec 6) (key : Nat), d ≠ 0 → d ≠ 63 → s.me.st ≠ .free → s.me.Clean [a.toNat] → (s.me.sreg d.toNat).pend = .ready →
      (s.me.sreg (d.toNat + 1)).pend = .ready → PlainBlock s (s.me.val a.toNat).toNat 64 key →
      PlainWrite s .write ((s.me.val a.toNat).toNat + 8) 8 0 (key + 8) →
      let count := (readWord s.mem key).toNat
      let old := (readWord s.mem (key + 8)).toNat
      let vlmax := s.me.vlmax s.me.vcfg
      let n := if count ≤ old then 0 else min vlmax (count - old)
      ∃ t, exec (.vgrant d a) s = .next t ∧ (∀ q, q ≠ s.cur → t.slot q = s.slot q) ∧ SystemKept { s.me with vl := n } t.me ∧
        RegsKept s.me t.me [d.toNat, d.toNat + 1] ∧ WentOn s.me t.me ∧ t.me.sreg d.toNat = ⟨BitVec.ofNat 64 n, none, .ready⟩ ∧
        t.me.sreg (d.toNat + 1) = ⟨BitVec.ofNat 64 (if n = 0 then count else old), none, .ready⟩ ∧
        WritesBytes s t (key + 8) (leBytes 8 ((old + vlmax) % 2 ^ 64))

/-- 04_sequencer R81, R82, 05_vector R120, R125, 08_stream R205 and 03_encoding R62: every instruction of the vector queue enters it, the words of
majors 0x20 to 0x24 being those of VArith; before it does, a slot without lane groups traps with cause 0x06, vector state of another context with
0x03, operands that R125 forbids with 0x01 and a bound group with 0x10; a full queue stalls. That a full queue stalls before those operands are
checked, and they before the bound, is the model's order (log 43); so is the kind of a bound port at passing (log 69). -/
def Obligations.VectorQueueEntries : Prop :=
  ((∀ c : VArith, EntersQueue c.toInstr (.arith c)) ∧
   ∀ i : Instr, (∃ d a b m c, i = .vcmp d a b m c ∨ i = .vcmpVs d a b m c ∨ i = .vfcmp d a b m c ∨ i = .vfcmpVs d a b m c) ∨
     (∃ d a b m, i = .vld d a m ∨ i = .vlds d a b m ∨ i = .vldff d a m ∨ i = .vst d a m ∨ i = .vsts d a b m) ∨
     (∃ d a b m, i = .vldx d a b m ∨ i = .vldxo d a b m ∨ i = .vstx d a b m ∨ i = .vstxo d a b m ∨ i = .vstxadd d a b m) ∨
     (∃ d a z xs m t f, i = .vldn d a z xs m t f ∨ i = .vstn d a z xs m t f) ∨ (∃ d a b, i = .kst d a b ∨ i = .ksig d a b) ∨
     (∃ x v, i = .tmovr x v ∨ i = .tmovw x v) → EntersQueue i (.instr i) ∧ QueueChecks i (.instr i)) ∧
  ∀ c : VArith, QueueChecks c.toInstr (.arith c)

/-- 05_vector R126, R128, R133, R134: the elements of the integer instructions of both forms, modulo 2^w, of VABS and VDOT4, and of those whose elements
widen or narrow. -/
def Obligations.VectorIntegerElements : Prop :=
  VectorInteger .vadd .vaddVs (fun _ x y => x + y) ∧ VectorInteger .vsub .vsubVs (fun _ x y => x - y) ∧
  VectorInteger .vmul .vmulVs (fun _ x y => x * y) ∧
  VectorInteger .vmulh .vmulhVs (fun w x y => (x.signExtend (2 * w) * y.signExtend (2 * w)).extractLsb' w w) ∧
  VectorInteger .vmulhz .vmulhzVs (fun w x y => (x.zeroExtend (2 * w) * y.zeroExtend (2 * w)).extractLsb' w w) ∧
  VectorInteger .vdiv .vdivVs (fun w x y => if y = 0 then BitVec.allOnes w else x.sdiv y) ∧
  VectorInteger .vmin .vminVs (fun _ x y => if x.slt y then x else y) ∧ VectorInteger .vmax .vmaxVs (fun _ x y => if x.slt y then y else x) ∧
  VectorInteger .vminz .vminzVs (fun _ x y => if x.ult y then x else y) ∧ VectorInteger .vmaxz .vmaxzVs (fun _ x y => if x.ult y then y else x) ∧
  VectorInteger .vand .vandVs (fun _ x y => x &&& y) ∧ VectorInteger .vor .vorVs (fun _ x y => x ||| y) ∧
  VectorInteger .vxor .vxorVs (fun _ x y => x ^^^ y) ∧
  VectorInteger .vshl .vshlVs (fun w x y => x <<< (y.toNat % w)) ∧ VectorInteger .vshr .vshrVs (fun w x y => x >>> (y.toNat % w)) ∧
  VectorInteger .vsar .vsarVs (fun w x y => x.sshiftRight (y.toNat % w)) ∧
  VectorInteger .vadds .vaddsVs (fun w x y => BitVec.ofInt w (max (-2 ^ (w - 1)) (min (2 ^ (w - 1) - 1) (x.toInt + y.toInt)))) ∧
  VectorInteger .vsubs .vsubsVs (fun w x y => BitVec.ofInt w (max (-2 ^ (w - 1)) (min (2 ^ (w - 1) - 1) (x.toInt - y.toInt)))) ∧
  (∀ d a m, ElementWise (.arith (.vabs d a m)) d.toNat [a.toNat] m.toNat (fun _ => True) fun c v e n =>
    let x := BitVec.ofNat (vWidth e.vcfg) (c.elem v a.toNat (vWidth e.vcfg) n).bits
    ((if x.toInt < 0 then -x else x).toNat, 0)) ∧
  ∀ (d a b : BitVec 5) (x : BitVec 6) (m : BitVec 3),
    let el := fun (c : Core) (v : VView) (e : VEntry) (r : BitVec 5) (n : Nat) => (c.elem v r.toNat (vWidth e.vcfg) n).bits
    let sx := fun (e : VEntry) (y : Nat) => (BitVec.ofNat (vWidth e.vcfg) y).toInt
    let wide := fun (e : VEntry) (y : Int) => (BitVec.ofInt (2 * vWidth e.vcfg) y).toNat
    let dot := fun (c : Core) (v : VView) (e : VEntry) (n y : Nat) =>
      ((BitVec.ofInt (vWidth e.vcfg) (el c v e d n + fieldProducts (vWidth e.vcfg) (el c v e a n) y)).toNat, (0 : FFlags))
    let shifted := fun (c : Core) (v : VView) (e : VEntry) (n y : Nat) =>
      (((BitVec.ofNat (2 * vWidth e.vcfg) (c.elem v a.toNat (2 * vWidth e.vcfg) n).bits).sshiftRight (y % (2 * vWidth e.vcfg))).setWidth
        (vWidth e.vcfg)).toNat
    ElementWise (.arith (.vdot4 d a b m)) d.toNat [a.toNat, b.toNat] m.toNat (fun c => 8 ≤ vWidth c) (fun c v e n => dot c v e n (el c v e b n)) ∧
    ElementWise (.arith (.vdot4Vs d a x m)) d.toNat [a.toNat] m.toNat (fun c => 8 ≤ vWidth c) (fun c v e n => dot c v e n e.op0.toNat) ∧
    WideElements (.arith (.vwadd d a b m)) d.toNat [a.toNat, b.toNat] m.toNat (fun c v e n => wide e (sx e (el c v e a n) + sx e (el c v e b n))) ∧
    WideElements (.arith (.vwmul d a b m)) d.toNat [a.toNat, b.toNat] m.toNat (fun c v e n => wide e (sx e (el c v e a n) * sx e (el c v e b n))) ∧
    WideElements (.arith (.vwaddVs d a x m)) d.toNat [a.toNat] m.toNat (fun c v e n => wide e (sx e (el c v e a n) + sx e e.op0.toNat)) ∧
    WideElements (.arith (.vwmulVs d a x m)) d.toNat [a.toNat] m.toNat (fun c v e n => wide e (sx e (el c v e a n) * sx e e.op0.toNat)) ∧
    NarrowElements (.arith (.vnshr d a b m)) d.toNat a.toNat [b.toNat] m.toNat (fun c v e n => shifted c v e n (el c v e b n)) ∧
    NarrowElements (.arith (.vnshrVs d a x m)) d.toNat a.toNat [] m.toNat fun c v e n => shifted c v e n (e.op0.toNat % 2 ^ vWidth e.vcfg)

/-- 05_vector R126, R135, R136 and 02_numbers R31, R34 to R36: the elements of the floating-point instructions: one rounding of the exact result under
FRM, with flags from active elements only; of two numbers VFMIN gives the smaller and VFMAX the larger; VFCLASS tells the class; VFCVT converts
between floating types and integers, with and without .sat, which among integers clamps where the type is not wider (log 89). FiniteArithmeticIsExact
says what the operations before Round give. -/
def Obligations.VectorFloatElements : Prop :=
  VectorFloat .vfadd .vfaddVs (fun v x y _ => fAdd v.frm x y) ∧ VectorFloat .vfsub .vfsubVs (fun v x y _ => fAdd v.frm x y.negate) ∧
  VectorFloat .vfmul .vfmulVs (fun _ x y _ => fMul x y) ∧ VectorFloat .vfdiv .vfdivVs (fun _ x y _ => fDiv x y) ∧
  VectorFloat .vfma .vfmaVs (fun v x y z => fFma v.frm x y z) ∧ VectorFloat .vfnms .vfnmsVs (fun v x y z => fFma v.frm x.negate y z) ∧
  ∀ d a m,
    let unary := fun (c : VArith) (g : FVal → FVal × FFlags) => ElementWise (.arith c) d.toNat [a.toNat] m.toNat (fun c => (floatType c).isSome)
      fun c v _ n => vectorRound v (g (elemValue c v a.toNat n))
    let type := fun (v : VView) => (floatType v.vcfg).getD fmtF64
    let bits := fun (c : Core) (v : VView) (r : BitVec 5) (n : Nat) => (c.elem v r.toNat (vWidth v.vcfg) n).bits
    (∀ (b : BitVec 5) (x : BitVec 6) (less : Bool), ∃ g : VView → Nat → Nat → Nat × FFlags, (∀ v y z, PicksOf (type v) less y z (g v y z)) ∧
      ElementWise (.arith (if less then .vfmin d a b m else .vfmax d a b m)) d.toNat [a.toNat, b.toNat] m.toNat (fun c => (floatType c).isSome)
        (fun c v _ n => g v (bits c v a n) (bits c v b n)) ∧
      ElementWise (.arith (if less then .vfminVs d a x m else .vfmaxVs d a x m)) d.toNat [a.toNat] m.toNat (fun c => (floatType c).isSome)
        fun c v e n => g v (bits c v a n) (e.op0.toNat % 2 ^ vWidth v.vcfg)) ∧
    unary (.vfsqrt d a m) fSqrt ∧ unary (.vfrec d a m) fRec ∧ unary (.vfrsq d a m) fRsqrt ∧ unary (.vfexp2 d a m) fExp2 ∧
    ElementWise (.arith (.vfclass d a m)) d.toNat [a.toNat] m.toNat (fun c => (floatType c).isSome)
      (fun c v _ n => (floatClass (type v) (bits c v a n), 0)) ∧
    ∀ t ∈ convertTypes, ∀ sat : Bool, ConvertElements (.arith (if sat then .vfcvtSat d a t.1 m else .vfcvt d a t.1 m)) d.toNat a.toNat m.toNat
      (convertWidth t.2) (fun c => wbits (c.setWidth 64) 13 12 ≠ 3 ∧ (wbits (c.setWidth 64) 13 12 = 0 → (floatType c).isSome = true))
      fun c v _ n => converted v t.2 sat (bits c v a n)

/-- 05_vector R137 to R139 and 04_sequencer R93: the mask bits that integer and floating-point compares, mask logic, MSBF and MFROMV write, and what
MPOPC and MFFS put into their register. -/
def Obligations.VectorMaskResults : Prop :=
  (∀ d a b m (k : BitVec 4), k.toNat ≤ 5 → VectorCompare (.instr (.vcmp d a b m k)) d.toNat [a.toNat, b.toNat] m.toNat (fun _ => True) fun c v e n =>
    let x := BitVec.ofNat (vWidth e.vcfg) (c.elem v a.toNat (vWidth e.vcfg) n).bits
    let y := BitVec.ofNat (vWidth e.vcfg) (c.elem v b.toNat (vWidth e.vcfg) n).bits
    (match k.toNat with
      | 0 => x == y
      | 1 => x != y
      | 2 => x.slt y
      | 3 => y.sle x
      | 4 => x.ult y
      | _ => y.ule x, 0)) ∧
  (∀ d a b m (k : BitVec 4), k.toNat ≤ 5 → VectorCompare (.instr (.vcmpVs d a b m k)) d.toNat [a.toNat] m.toNat (fun _ => True) fun c v e n =>
    let x := BitVec.ofNat (vWidth e.vcfg) (c.elem v a.toNat (vWidth e.vcfg) n).bits
    let y := e.op0.setWidth (vWidth e.vcfg)
    (match k.toNat with
      | 0 => x == y
      | 1 => x != y
      | 2 => x.slt y
      | 3 => y.sle x
      | 4 => x.ult y
      | _ => y.ule x, 0)) ∧
  (∀ d a m (k : BitVec 4), k.toNat ≤ 4 →
    (∀ b, VectorCompare (.instr (.vfcmp d a b m k)) d.toNat [a.toNat, b.toNat] m.toNat (fun c => (floatType c).isSome) fun c v _ n =>
      floatHolds k.toNat (elemValue c v a.toNat n) (elemValue c v b.toNat n)) ∧
    ∀ b, VectorCompare (.instr (.vfcmpVs d a b m k)) d.toNat [a.toNat] m.toNat (fun c => (floatType c).isSome) fun c v e n =>
      floatHolds k.toNat (elemValue c v a.toNat n) (scalarElem v e)) ∧
  (∀ d a m, VectorCompare (.arith (.mfromv d a m)) d.toNat [a.toNat] m.toNat (fun _ => True) fun c v e n =>
    ((c.elem v a.toNat (vWidth e.vcfg) n).bits != 0, 0)) ∧
  (∀ d a b : BitVec 3, d ≠ 0 →
    let bit := fun (c : Core) (v : VView) (x : BitVec 3) (n : Nat) => (c.maskBit v x.toNat n).bits
    Whole (.arith (.mand d a b)) (.mask d.toNat) false [] (fun c v _ n => some (bit c v a n &&& bit c v b n)) ∧
    Whole (.arith (.mor d a b)) (.mask d.toNat) false [] (fun c v _ n => some (bit c v a n ||| bit c v b n)) ∧
    Whole (.arith (.mxor d a b)) (.mask d.toNat) false [] (fun c v _ n => some (bit c v a n ^^^ bit c v b n)) ∧
    Whole (.arith (.mandn d a b)) (.mask d.toNat) false [] (fun c v _ n => some (bit c v a n &&& (1 - bit c v b n))) ∧
    Whole (.arith (.mset d)) (.mask d.toNat) false [] (fun _ _ _ _ => some 1)) ∧
  ∀ (g : BitVec 5) (d a m : BitVec 3),
    let set := fun (c : Core) (v : VView) (n : Nat) => c.active v m.toNat n && (c.maskBit v a.toNat n).bits == 1
    (d ≠ 0 → Whole (.arith (.msbf d a m)) (.mask d.toNat) false [] fun c v _ n =>
      maskedValue c v m.toNat (fun j => ((List.range (j + 1)).all fun i => !set c v i).toNat) n) ∧
    WritesScalar (.arith (.mpopc g a m)) g.toNat [] (fun c v _ => BitVec.ofNat 64 ((List.range v.vl).countP fun i => set c v i)) ∧
    WritesScalar (.arith (.mffs g a m)) g.toNat [] fun c v _ => match (List.range v.vl).find? fun i => set c v i with
      | some i => BitVec.ofNat 64 i
      | none => -1

/-- 05_vector R139 to R143 and 02_numbers R55: the elements that the permutations, VIOTA, VSCAN, the reductions and VPRUNE48 write. VFREDO adds in
ascending order and VFREDU by a tree; of VFREDMAX each step picks as VFMAX does. VPRUNE48 keeps four of each group of eight, those of largest
magnitude, and of equal ones those of lower index. -/
def Obligations.VectorPermutationResults : Prop :=
  ∀ (d a b x : BitVec 5) (m : BitVec 3),
    let el := fun (c : Core) (v : VView) (r : BitVec 5) (n : Nat) => (c.elem v r.toNat (vWidth v.vcfg) n).bits
    (∀ y : BitVec 5, ElementWise (.arith (.vbcast d x m)) d.toNat [] m.toNat (fun _ => True) (fun _ _ e _ => (e.op0.toNat % 2 ^ vWidth e.vcfg, 0)) ∧
      WritesScalar (.arith (.vextr y a x)) y.toNat [a.toNat] fun c v e => if e.op0.toNat < v.vl then BitVec.ofNat 64 (el c v a e.op0.toNat) else 0) ∧
    (∀ y : BitVec 3, ElementWise (.arith (.mtov d y m)) d.toNat [] m.toNat (fun _ => True) fun c v _ n => ((c.maskBit v y.toNat n).bits, 0)) ∧
    Whole (.arith (.vslup d a x m)) (.reg d.toNat 0) true [d.toNat, a.toNat] (fun c v e n =>
      if e.op0.toNat ≤ n then maskedValue c v m.toNat (fun i => el c v a (i - e.op0.toNat)) n
      else if c.active v m.toNat n then none else maskedValue c v m.toNat (fun _ => 0) n) ∧
    Whole (.arith (.vsldn d a x m)) (.reg d.toNat 0) true [d.toNat, a.toNat] (fun c v e =>
      maskedValue c v m.toNat fun i => if i + e.op0.toNat < v.vl then el c v a (i + e.op0.toNat) else 0) ∧
    Whole (.arith (.vperm d a b m)) (.reg d.toNat 0) false [d.toNat, a.toNat, b.toNat] (fun c v _ =>
      maskedValue c v m.toNat fun i => if el c v b i < v.vl then el c v a (el c v b i) else 0) ∧
    let act := fun (c : Core) (v : VView) => (List.range v.vl).filter fun i => c.active v m.toNat i
    let below := fun (c : Core) (v : VView) (i : Nat) => (List.range i).filter fun j => c.active v m.toNat j
    let tailed := fun (v : VView) => if v.vcfg.getLsbD 5 then some 0 else (none : Option Nat)
    let reduces := fun (r : VArith) (f : (w : Nat) → BitVec w → BitVec w → BitVec w) =>
      Whole (.arith r) (.reg d.toNat 0) true [d.toNat, a.toNat, b.toNat] fun c v _ i =>
        if i = 0 then some ((act c v).foldl (fun y j => f _ y (BitVec.ofNat (vWidth v.vcfg) (el c v a j))) (BitVec.ofNat (vWidth v.vcfg) (el c v b 0))).toNat
        else tailed v
    reduces (.vredsum d a b m) (fun _ y z => y + z) ∧
    reduces (.vredmax d a b m) (fun _ y z => if y.slt z then z else y) ∧
    reduces (.vredmin d a b m) (fun _ y z => if z.slt y then z else y) ∧
    let type := fun (v : VView) => (floatType v.vcfg).getD fmtF64
    let reducesF := fun (r : VArith) (f : Core → VView → Nat × FFlags) => WholeWith (fun c => (floatType c).isSome) (.arith r) (.reg d.toNat 0) true
      [d.toNat, a.toNat, b.toNat] (fun c v _ i => if i = 0 then some (f c v).1 else tailed v) fun c v _ => (f c v).2
    let add := fun (v : VView) (x y : Nat) => vectorRound v (fAdd v.frm ((type v).decode x) ((type v).decode y))
    let inOrder := fun (g : Nat → Nat → Nat × FFlags) (c : Core) (v : VView) =>
      (act c v).foldl (fun (r : Nat × FFlags) j => ((g r.1 (el c v a j)).1, r.2 ||| (g r.1 (el c v a j)).2)) (el c v b 0, 0)
    reducesF (.vfredo d a b m) (fun c v => inOrder (add v) c v) ∧
    reducesF (.vfredu d a b m) (fun c v =>
      let t := treeAt (add v) (fun j => if j < v.vl ∧ c.active v m.toNat j = true then some (el c v a j) else none) 13 0
      match t.1 with
      | some x => ((add v (el c v b 0) x).1, t.2 ||| (add v (el c v b 0) x).2)
      | none => (el c v b 0, 0)) ∧
    (∃ g : VView → Nat → Nat → Nat × FFlags, (∀ v y z, PicksOf (type v) false y z (g v y z)) ∧
      reducesF (.vfredmax d a b m) fun c v => inOrder (g v) c v) ∧
    (∀ (s : State) (k q : Nat) (e : VEntry), BeatReady s k q e (.arith (.vprune48 d a)) → vWidth e.vcfg = 8 → e.p = 0 → Placed e.vcfg d.toNat →
      Placed e.vcfg a.toNat → d.toNat + 2 * 2 ^ vGroup e.vcfg ≤ 32 →
      d.toNat + 2 * 2 ^ vGroup e.vcfg ≤ a.toNat ∨ a.toNat + 2 ^ vGroup e.vcfg ≤ d.toNat →
      let c := s.core k
      let v := VView.of (s.slot q) e
      let x := fun (g j : Nat) => if 8 * g + j < e.vl then (c.elem v a.toNat 8 (8 * g + j)).bits else 0
      let mag := fun (g j : Nat) => (BitVec.ofNat 8 (x g j)).toInt.natAbs
      let groups := (e.vl + 7) / 8
      let old := fun (r w i : Nat) => if v.vcfg.getLsbD 5 then 0 else (c.elem v r w i).bits
      ∃ t, exec (.vectorIssue k ⟨0, []⟩) s = .next t ∧ t = { s with slots := t.slots, cores := t.cores, shares := t.shares } ∧
        (∀ j, j ≠ q → t.slot j = s.slot j) ∧ (∀ j, j ≠ k → t.core j = s.core j) ∧ (t.slot q).vq = [] ∧
        (∀ g < groups, ∃ k0 k1 k2 k3, k0 < k1 ∧ k1 < k2 ∧ k2 < k3 ∧ k3 < 8 ∧
          (∀ i ∈ [k0, k1, k2, k3], ∀ j < 8, j ∉ [k0, k1, k2, k3] → mag g j < mag g i ∨ mag g j = mag g i ∧ i < j) ∧
          (∀ i < 4, ((t.core k).elem v d.toNat 8 (4 * g + i)).bits = x g ([k0, k1, k2, k3].getD i 0)) ∧
          ((t.core k).elem v (d.toNat + 2 ^ vGroup e.vcfg) 16 g).bits = k0 + 8 * k1 + 64 * k2 + 512 * k3) ∧
        (∀ i, 4 * groups ≤ i → i < (s.slot q).vlmax e.vcfg → ((t.core k).elem v d.toNat 8 i).bits = old d.toNat 8 i) ∧
        (∀ i, groups ≤ i → i < min ((s.slot q).vlen * 2 ^ vGroup e.vcfg / 16) ((s.slot q).vlen / 2) →
          ((t.core k).elem v (d.toNat + 2 ^ vGroup e.vcfg) 16 i).bits = old (d.toNat + 2 ^ vGroup e.vcfg) 16 i) ∧
        ∀ lane reg j, lane < 8 → reg < 40 → j < 32 → reg < d.toNat ∨ d.toNat + 2 * 2 ^ vGroup e.vcfg ≤ reg →
          (t.core k).chunk (vecKey lane reg j) = (s.core k).chunk (vecKey lane reg j)) ∧
    Whole (.arith (.vscan d a m)) (.reg d.toNat 0) true [d.toNat, a.toNat] (fun c v _ =>
      maskedValue c v m.toNat fun i => ((below c v (i + 1)).map fun j => el c v a j).sum % 2 ^ vWidth v.vcfg) ∧
    Whole (.arith (.vexpd d a m)) (.reg d.toNat 0) true [d.toNat, a.toNat] (fun c v _ =>
      maskedValue c v m.toNat fun i => el c v a (below c v i).length) ∧
    Whole (.arith (.vcomp d a m)) (.reg d.toNat 0) true [d.toNat, a.toNat] (fun c v _ i => match (act c v)[i]? with
      | some j => some (el c v a j)
      | none => tailed v) ∧
    (∀ y : BitVec 3, Whole (.arith (.viota d y m)) (.reg d.toNat 0) false [d.toNat] fun c v _ =>
      maskedValue c v m.toNat fun i => ((below c v i).countP fun j => (c.maskBit v y.toNat j).bits == 1) % 2 ^ vWidth v.vcfg) ∧
    (∀ (y : BitVec 5) (s : State) (k q : Nat) (e : VEntry), BeatReady s k q e (.arith (.vins d y x)) → Placed e.vcfg d.toNat →
      ∃ t, exec (.vectorIssue k ⟨0, []⟩) s = .next t ∧ t = { s with slots := t.slots, cores := t.cores, shares := t.shares } ∧
        (∀ j, j ≠ q → t.slot j = s.slot j) ∧ (∀ j, j ≠ k → t.core j = s.core j) ∧ (t.slot q).vq = [] ∧
        (∀ i, i < (s.slot q).vlmax e.vcfg → el (t.core k) (VView.of (s.slot q) e) d i =
          if i = e.op1.toNat ∧ e.p ≤ i ∧ i < e.vl then e.op0.toNat % 2 ^ vWidth e.vcfg else el (s.core k) (VView.of (s.slot q) e) d i) ∧
        ∀ lane reg j, lane < 8 → reg < 40 → j < 32 → reg < d.toNat ∨ d.toNat + 2 ^ vGroup e.vcfg ≤ reg →
          (t.core k).chunk (vecKey lane reg j) = (s.core k).chunk (vecKey lane reg j)) ∧
    ∀ (s : State) (k q : Nat) (e : VEntry), BeatReady s k q e (.arith (.vmerge d a b m)) → Placed e.vcfg d.toNat → Placed e.vcfg a.toNat →
      Placed e.vcfg b.toNat →
      ∃ t n, exec (.vectorIssue k ⟨0, []⟩) s = .next t ∧
        BeatDone s t k q e (.reg d.toNat (vWidth e.vcfg)) ((s.slot q).vlmax e.vcfg) n
          (fun i => some (el (s.core k) (VView.of (s.slot q) e) (if (s.core k).active (VView.of (s.slot q) e) m.toNat i then a else b) i)) 0

/-- 06_vector_access R147 to R152, R154, R158, R159, R162 to R164: what one issue of a vector access does to the registers and to memory: loads and
stores by unit stride, with a stride and by indexes, VLDFF, scatter-adds, and narrow arrays with their microscaling blocks. No element is poisoned,
and each lies in one 4 KiB granule. The model's choices: a scale byte goes through the slice of its own address (log 109); a block of a microscaling
store is not stored where a short delivery leaves it incomplete (log 92), which no premise here admits. -/
def Obligations.VectorAccessResults : Prop :=
  (let any := fun (_ : BitVec 14) => True
   let bytes := fun (c : BitVec 14) => 8 ≤ vWidth c
   let raw := fun (_ : VView) (x _ : Nat) => (x, (0 : FFlags))
   ∀ (d b : BitVec 5) (a x : BitVec 6) (m : BitVec 3),
    LoadElements (.vld d a m) d.toNat m.toNat [] true any (placeUnit vWidth) vWidth none raw ∧
    LoadElements (.vlds d a x m) d.toNat m.toNat [] true bytes placeStrided vWidth none raw ∧
    LoadElements (.vldx d a b m) d.toNat m.toNat [b.toNat] true bytes (placeIndexed b.toNat) vWidth none raw ∧
    LoadElements (.vldxo d a b m) d.toNat m.toNat [b.toNat] true bytes (placeIndexed b.toNat) vWidth none raw ∧
    StoreElements (.vst d a m) d.toNat m.toNat [] true any .write (placeUnit vWidth) vWidth raw ∧
    StoreElements (.vsts d a x m) d.toNat m.toNat [] true bytes .write placeStrided vWidth raw ∧
    StoreElements (.vstx d a b m) d.toNat m.toNat [b.toNat] true bytes .write (placeIndexed b.toNat) vWidth raw ∧
    StoreElements (.vstxo d a b m) d.toNat m.toNat [b.toNat] true bytes .write (placeIndexed b.toNat) vWidth raw ∧
    StoreElements (.vstxadd d a b m) d.toNat m.toNat [b.toNat] true (fun c => 8 ≤ vWidth c ∧ (wbits (c.setWidth 64) 13 12 = 0 → (floatType c).isSome)) .update
      (placeIndexed b.toNat) vWidth fun v x old =>
        if wbits (v.vcfg.setWidth 64) 13 12 = 0 then
          let f := (floatType v.vcfg).getD fmtF64
          vectorRound v (fAdd v.frm (f.decode old) (f.decode x))
        else ((old + x) % 2 ^ vWidth v.vcfg, 0)) ∧
  (∀ (d : BitVec 5) (a : BitVec 6) (m : BitVec 3) (s : State) (k q : Nat) (e : VEntry) (b : Probed) (key : Nat → Nat) (vl : Nat),
    BeatReady s k q e (.instr (.vldff d a m)) → Placed e.vcfg d.toNat → e.probed = none → e.p < vl → vl ≤ e.vl → AccessPages s q { e with vl := vl } b →
    let c := s.core k
    let v := VView.of (s.slot q) e
    let w := vWidth e.vcfg
    let at_ := placeUnit vWidth c v e
    let n8 := fun j => ((at_ j).2 + w + 7) / 8
    (∀ j ∈ activeFrom c v m.toNat e.p vl, LanePlace s q e .read b.pages (at_ j).1 (n8 j) (key j) ∧ (8 ≤ w → (at_ j).1 % (w / 8) = 0)) →
    (vl < e.vl → activeFrom c v m.toNat e.p vl ≠ [] ∧ c.active v m.toNat vl = true ∧ (8 ≤ w → (at_ vl).1 % (w / 8) = 0) ∧
      ∃ x, checkAddr s (laneAgent s q (at_ vl).1) (at_ vl).1 .read = .error x) →
    ∃ t, exec (.vectorIssue k ⟨0, []⟩) s = .next t ∧
      GroupDone s t k q { e with vl := vl } (.reg d.toNat w) ((s.slot q).vlmax e.vcfg) vl
        (maskedValue c v m.toNat fun j => readLE s.mem (key j) (n8 j) / 2 ^ (at_ j).2 % 2 ^ w) ∧
      AccessLeaves s t q { e with vl := vl } b vl (if vl < e.vl then vl else (s.slot q).vl) true 0) ∧
  ∀ (d : BitVec 5) (a : BitVec 6) (z : BitVec 1) (x : BitVec 5) (m : BitVec 3) (sat : BitVec 1) (f : BitVec 4),
    let nf := narrowFmt f.toNat
    let ok := fun (c : BitVec 14) => if f.toNat < 10 then (floatType c).isSome = true else 8 ≤ vWidth c
    LoadElements (.vldn d a z x m sat f) d.toNat m.toNat [] false ok (placeUnit fun _ => nf.width) (fun _ => nf.width)
      (if nf.isMx then some fun e j => (e.op1 + BitVec.ofNat 64 (j / 32)).toNat else none)
      (fun v raw scale =>
        if f.toNat < 10 then (EFmt.flt ((floatType v.vcfg).getD fmtF64)).narrow v.frm (sat == 1 && nf.isMx) (nf.value raw scale (z == 1))
        else (((BitVec.ofNat nf.width raw).signExtend (vWidth v.vcfg)).toNat, 0)) ∧
    (nf.isMx = false → StoreElements (.vstn d a z x m sat f) d.toNat m.toNat [] false ok .write (placeUnit fun _ => nf.width) (fun _ => nf.width)
      fun v y _ => convertElem (if f.toNat < 10 then .flt ((floatType v.vcfg).getD fmtF64) else .int true (vWidth v.vcfg)) nf v.frm (sat == 1) y) ∧
    (nf.isMx = true → ∀ (s : State) (k q : Nat) (e : VEntry) (b : Probed) (key sk : Nat → Nat), BeatReady s k q e (.instr (.vstn d a z x m sat f)) →
      ok e.vcfg → Placed e.vcfg d.toNat → AccessPages s q e b → m = 0 → e.vl % 32 = 0 → e.p % 32 = 0 →
      let c := s.core k
      let v := VView.of (s.slot q) e
      let w := nf.width
      let at_ := placeUnit (fun _ => w) c v e
      let n8 := fun j => ((at_ j).2 + w + 7) / 8
      (∀ j, e.p ≤ j → j < e.vl → LanePlace s q e .write b.pages (at_ j).1 (n8 j) (key j) ∧
        LanePlace s q e .write b.pages (e.op1 + BitVec.ofNat 64 (j / 32)).toNat 1 (sk (j / 32))) →
      let block := fun g => mxEncode nf v.frm (sat == 1) (z == 1)
        ((List.range 32).map fun j => ((floatType e.vcfg).getD fmtF64).decode (c.elem v d.toNat (vWidth e.vcfg) (32 * g + j)).bits)
      let put := fun (mem : List Host.Cell) (g : Nat) =>
        writeBitsAt ((List.range 32).foldl (fun y j => writeBitsAt y (key (32 * g + j)) (at_ (32 * g + j)).2 w ((block g).2.1.getD j 0)) mem)
          (sk g) 0 8 (block g).1
      ∃ t n, exec (.vectorIssue k ⟨0, []⟩) s = .next t ∧ OnlyStored s t q ∧ e.p < n ∧ n ≤ e.vl ∧ (n < e.vl → n = e.p + 2048 / vWidth e.vcfg) ∧
        (let gs := (List.range (n / 32)).filter fun g => decide (e.p / 32 ≤ g)
         t.mem = gs.foldl put s.mem ∧
         AccessLeaves s t q e b n (s.slot q).vl false (gs.foldl (fun fl g => fl ||| (block g).2.2) 0)) ∧
        ∀ a, (∀ j, e.p ≤ j → j < n → (a < key j ∨ key j + n8 j ≤ a) ∧ a ≠ sk (j / 32)) → readByte t.mem a = readByte s.mem a)

/-- 18_bucket R388, R394, R395; 07_tile R192, R193: what the vector unit does for KSIG, KST, TMOVR and TMOVW. KSIG gives the signature of its key. KST
ends with a result at once, traps, or leaves the queue with a claim, whose bucket is the signature of its key, or the bucket of none. TMOVR moves
cells of a tile to elements, TMOVW elements to cells. The model's choice: status fields stay under MODE 0b01 (log 94). -/
def Obligations.VectorUnitResults : Prop :=
  (∀ (d a : BitVec 5) (b : BitVec 6) (s : State) (k q : Nat) (e : VEntry) (p : Proj), BeatReady s k q e (.instr (.ksig d a b)) → d ≠ 0 →
    Placed e.vcfg a.toNat → wbits e.op0 63 6 = 0 → projSlot s (clusterOf q) e.op0.toNat = some p → p.tag = 0 ∨ p.tag = (s.slot q).shtag → e.vl = p.d →
    floatType e.vcfg = some (keyFmt p.ktype) →
    ∃ t, exec (.vectorIssue k ⟨0, []⟩) s = .next t ∧ t = { s with slots := t.slots, cores := t.cores, shares := t.shares } ∧
      (∀ j, j ≠ q → t.slot j = s.slot j) ∧ (∀ j, t.core j = s.core j) ∧ (t.slot q).vq = [] ∧ RegsKept (s.slot q) (t.slot q) [d.toNat] ∧
      (t.slot q).sreg d.toNat = ⟨match p.signature ((List.range e.vl).map fun i =>
          (keyFmt p.ktype).decode ((s.core k).elem (VView.of (s.slot q) e) a.toNat (vWidth e.vcfg) i).bits) with
        | some g => BitVec.ofNat 64 g
        | none => -1, none, .ready⟩) ∧
  (∀ (d a : BitVec 5) (b : BitVec 6) (s : State) (k q key : Nat) (e : VEntry),
    let c := s.core k
    let v := VView.of (s.slot q) e
    let ag := kbuAgent s q
    let tva := wbits e.op1 55 6 * 64
    let desc := readBytes s.mem key 128
    BeatReady s k q e (.instr (.kst d a b)) → d ≠ 0 → Placed e.vcfg a.toNat → wbits e.op1 5 0 = 0 → AgentRead s ag tva 128 key →
    (let gives := fun (code : Nat) => ∃ t, exec (.vectorIssue k ⟨0, []⟩) s = .next t ∧
        t = { s with slots := t.slots, cores := t.cores, shares := t.shares } ∧ (∀ j, j ≠ q → t.slot j = s.slot j) ∧ (∀ j, t.core j = s.core j) ∧
        (t.slot q).vq = [] ∧ (t.slot q).cnt = { (s.slot q).cnt with stores := (s.slot q).cnt.stores - 1 } ∧
        (t.slot q).sreg d.toNat = ⟨BitVec.ofNat 64 (code * 2 ^ 56), none, .ready⟩ ∧ RegsKept (s.slot q) (t.slot q) [d.toNat]
      let traps := fun (aux : Word) => ∃ t, exec (.vectorIssue k ⟨0, []⟩) s = .next t ∧ t = { s with slots := t.slots, cores := t.cores } ∧
        (∀ j, t.core j = s.core j) ∧ ∀ j, t.slot j = if j = q then { s.slot q with due := some ⟨0x01, e.pc, 0, aux, true, false⟩, dueOrd := e.ord } else s.slot j
      (tState desc = 3 → gives 0x15) ∧ (tState desc ≠ 1 → tState desc ≠ 3 → gives 0x10) ∧
      (tState desc = 1 → tOwner desc ≠ 0 → tOwner desc ≠ ag.tag → ag.tag ≠ 0 → gives 2) ∧
      (tState desc = 1 → tOwner desc = 0 ∨ tOwner desc = ag.tag ∨ ag.tag = 0 →
        (floatType e.vcfg ≠ some (keyFmt (tKtype desc)) → traps 0x07) ∧
        (floatType e.vcfg = some (keyFmt (tKtype desc)) → e.vl ≠ tD desc → traps 0x08) ∧
        (floatType e.vcfg = some (keyFmt (tKtype desc)) → e.vl = tD desc → tNhead desc ≤ wbits e.op1 63 56 ∨ tTcap desc ≤ e.op0.toNat → gives 0x14))) ∧
    ∀ l u, kstIssue s q d.toNat a.toNat e c v = .claim l u → storeWaits s q e.ord (l.row, l.bytes.length) = false →
      l.head = wbits e.op1 63 56 ∧ l.token = e.op0.toNat ∧ l.dest = d.toNat ∧ l.slot = q ∧ l.published = false ∧
      l.bytes = (List.range e.vl).flatMap (fun i => leBytes (vWidth e.vcfg / 8) (c.elem v a.toNat (vWidth e.vcfg) i).bits) ∧
      (∀ p, projSlot s (tHome desc) (tPslot desc) = some p →
        match p.signature ((List.range e.vl).map fun i => (keyFmt p.ktype).decode (c.elem v a.toNat (vWidth e.vcfg) i).bits) with
        | some x => x < 2 ^ tB desc → l.bucket = x
        | none => l.bucket = 2 ^ tB desc) ∧
      ∃ t, exec (.vectorIssue k ⟨0, []⟩) s = .next t ∧ t.mem = u.mem ∧ t.klinks = tabSet u.klinks u.nextOp l ∧ t.nextOp = u.nextOp + 1 ∧
        (t.slot q).vq = (u.slot q).vq.drop 1 ∧ (t.slot q).cnt = (u.slot q).cnt ∧ RegsKept (u.slot q) (t.slot q) []) ∧
  ∀ (x : BitVec 6) (r : BitVec 5) (s : State) (k q : Nat) (e : VEntry),
    let c := s.core k
    let v := VView.of (s.slot q) e
    let d := e.op0
    let m := moveMask e.vcfg
    let row := (s.slot q).accBase.toNat + tdRowb d
    let cell := fun i => 128 * (row + i / tdCols d) + 32 * tdSegb d + i % tdCols d
    let s' := s.setCore k { c with seq := c.seq + 1 }
    let fp64 := tdMode d = 1
    Placed e.vcfg r.toNat → descBad d false false (s.slot q).accLim.toNat = none → e.vl ≤ tdRows d * tdCols d → c.tq = [] →
    (BeatReady s k q e (.instr (.tmovr x r)) →
      (if wbits (e.vcfg.setWidth 64) 13 12 = 0 then (floatType e.vcfg).isSome = true else wbits (e.vcfg.setWidth 64) 13 12 = 1 ∧ vWidth e.vcfg = 64) →
      (∀ i, e.p ≤ i → i < e.vl → if fp64 then (c.cell (cell i)).side = none else cellClass (c.cell (cell i)).bits ≠ 3) →
      let value := fun i =>
        if wbits (e.vcfg.setWidth 64) 13 12 = 0 then
          let y := cellValue (c.cell (cell i)) (c.segment (cell i / 32)).exp (decide fp64)
          let z := ((floatType e.vcfg).getD fmtF64).round .rne false y
          (z.1, z.2 ||| y.nv)
        else ((c.cell (cell i)).bits.toNat, 0)
      ∃ t, exec (.vectorIssue k ⟨0, []⟩) s = .next t ∧
        GroupDone s' t k q e (.reg r.toNat (vWidth e.vcfg)) ((s.slot q).vlmax e.vcfg) e.vl (maskedValue c v m fun i => (value i).1) ∧
        t.slot q = { s.slot q with
          vq := [], fflags := (s.slot q).fflags ||| flagsOf c v m e.p e.vl fun i => (value i).2, vdirty := (t.slot q).vdirty, charge := (t.slot q).charge
          cnt := { (s.slot q).cnt with tiles := (s.slot q).cnt.tiles - 1 } }) ∧
    (BeatReady s k q e (.instr (.tmovw x r)) → wbits (e.vcfg.setWidth 64) 13 12 = 1 → vWidth e.vcfg = 64 →
      let act := activeFrom c v m e.p e.vl
      ∃ t, exec (.vectorIssue k ⟨0, []⟩) s = .next t ∧ t = { s with slots := t.slots, cores := t.cores, shares := t.shares } ∧
        (∀ j, j ≠ k → t.core j = s.core j) ∧ t.core k = { c with seq := c.seq + 1, acc := (t.core k).acc, seg := (t.core k).seg, rowTag := (t.core k).rowTag } ∧
        (∀ i ∈ act, (t.core k).cell (cell i) =
          if fp64 then ⟨BitVec.ofNat 64 (c.elem v r.toNat 64 i).bits, none⟩ else ⟨rawCell (BitVec.ofNat 64 (c.elem v r.toNat 64 i).bits), none⟩) ∧
        (∀ n, (∀ i ∈ act, n ≠ cell i) → (t.core k).cell n = c.cell n) ∧
        (∀ g, (∃ i ∈ act, g = cell i / 32) → ¬ fp64 → ((t.core k).segment g).exp = (c.segment g).exp ∧ ((t.core k).segment g).empty = false ∧
          ((t.core k).segment g).reefCnt = (c.segment g).reefCnt) ∧
        (∀ g, fp64 ∨ (∀ i ∈ act, g ≠ cell i / 32) → (t.core k).segment g = c.segment g) ∧
        (∀ n, tabGet (t.core k).rowTag 0 n = if ∃ i ∈ act, n = cell i / 128 then (s.slot q).shtag else tabGet c.rowTag 0 n) ∧
        (∀ j, j ≠ q → t.slot j = { s.slot j with vdirty := (t.slot j).vdirty }) ∧
        t.slot q = { s.slot q with
          vq := [], vdirty := (t.slot q).vdirty, charge := (t.slot q).charge, cnt := { (s.slot q).cnt with tiles := (s.slot q).cnt.tiles - 1 } })

/-- 07_tile R172, R176, R187: the instructions of major 0x30 that enter the tile queue, the parts of a TMMAG among them, which take numbers in gang
order (log 74), and for TZERO the trap of a descriptor that fails its check, with the cause that R170 gives. TMOVR and TMOVW enter the vector queue.
-/
def Obligations.TileQueueEntries : Prop :=
  ∀ (x k d : BitVec 6) (a b : BitVec 3) (v : BitVec 5) (u f : BitVec 1),
    EntersTiles (.tzero x) x.toNat 0 none ∧ (a ≠ b → EntersTiles (.tmma x a b k) x.toNat k.toNat none) ∧
    (a ≠ b → EntersTiles (.tmmaf x a b k) x.toNat k.toNat none) ∧ (a ≠ b → EntersTiles (.tmmag x a b k) x.toNat k.toNat none) ∧
    (a ≠ b → EntersTiles (.tmmas x a b k v) x.toNat k.toNat none) ∧ EntersTiles (.tld x k) x.toNat k.toNat none ∧
    EntersTiles (.tst x u f k) x.toNat k.toNat none ∧ EntersTiles (.treef x k) x.toNat k.toNat none ∧
    EntersTiles (.tstat x d) x.toNat 0 (some d.toNat) ∧ EntersTiles (.tsetx x k) x.toNat k.toNat none ∧
    EntersTiles (.taddx x k) x.toNat k.toNat none ∧
    ∀ (s : State) (c : Nat) (aux : Word), s.me.vuse = false → s.me.Clean [x.toNat] → tileRoom s (coreOf s.cur) [(encode (.tzero x)).getD 0] = true →
      s.me.cnt.loads ≤ 255 → s.me.cnt.stores ≤ 255 → s.me.cnt.tiles < 255 →
      descBad (s.me.val x.toNat) false false s.me.accLim.toNat = some (c, aux) → exec (.tzero x) s = .next (trap s s.cur c 0 aux)

/-- 07_tile R169, R173, R176 to R179, R184 to R186, R195, R196 and 02_numbers R53: what MATRIX_STEP does. TZERO clears the cells and the status of its
tile, TSETX sets the exponent of its segments, under MODE 0b01 too (log 94: R181 against R195), and TSTAT writes the status word of its tile's first
segment. A step of TMMA or TMMAF waits for its operands, traps with cause 0x10 and the step's index when they will not come, and else takes them, tags
the rows of its tile and leaves every other cell; in a segment of finite cells with headroom, where no product can overflow it, each cell receives the
exact sum of its products, aligned once toward zero, and E stays. -/
def Obligations.TileResults : Prop :=
  ∀ (s : State) (k : Nat) (e : TEntry),
    (∀ x, TileReady s k e (.tzero x) → ∃ t, exec (.matrixStep k) s = .next t ∧ TileDone s t k e ∧ (t.slot e.slot).vdirty.getLsbD 5 = true ∧
      (∀ n, inTile e n → (t.core k).cell n = ⟨0, none⟩ ∧ (t.core k).segment (n / 32) = SegStatus.reset) ∧
      (∀ n, ¬ inTile e n → (t.core k).cell n = (s.core k).cell n ∧ (t.core k).segment (n / 32) = (s.core k).segment (n / 32)) ∧
      ∀ r, tabGet (t.core k).rowTag 0 r = if e.row0 ≤ r ∧ r < e.row0 + tdRows e.desc then e.tag else tabGet (s.core k).rowTag 0 r) ∧
    (∀ x y, TileReady s k e (.tsetx x y) → ∃ t, exec (.matrixStep k) s = .next t ∧ TileDone s t k e ∧ (∀ n, (t.core k).cell n = (s.core k).cell n) ∧
      (∀ n, inTile e n → ((t.core k).segment (n / 32)).exp = e.opk.toInt ∧ ((t.core k).segment (n / 32)).empty = false ∧
        ((t.core k).segment (n / 32)).reefCnt = ((s.core k).segment (n / 32)).reefCnt) ∧
      ∀ n, ¬ inTile e n → (t.core k).segment (n / 32) = (s.core k).segment (n / 32)) ∧
    (∀ x d : BitVec 6, TileReady s k e (.tstat x d) → tdMode e.desc ≠ 3 → d ≠ 0 → d.toNat < 56 → e.dest = d.toNat →
      ∃ t, exec (.matrixStep k) s = .next t ∧ TileDone s t k e ∧
        (∀ n, (t.core k).cell n = (s.core k).cell n ∧ (t.core k).segment n = (s.core k).segment n) ∧
        (t.slot e.slot).sreg d.toNat = ⟨((s.core k).segment (4 * e.row0 + tdSegb e.desc)).word, none, .ready⟩ ∧
        RegsKept (s.slot e.slot) (t.slot e.slot) [d.toNat]) ∧
    ∀ (x y : BitVec 6) (a b : BitVec 3) (per kn : Nat), StepReady s k e x y a b per kn →
      let c := s.core k
      let pa := c.port a.toNat
      let pb := c.port b.toNat
      let na := kn * tdRows e.desc
      let nb := kn * tdCols e.desc
      (¬ (pa.holds na ∧ pb.holds nb) → (¬ pa.holds na → ¬ pa.over) → (¬ pb.holds nb → ¬ pb.over) → exec (.matrixStep k) s = .next s) ∧
      (¬ pa.holds na ∧ pa.over ∨ ¬ pb.holds nb ∧ pb.over →
        exec (.matrixStep k) s = .next (s.setSlot e.slot { s.slot e.slot with due := some ⟨0x10, e.pc, 0, BitVec.ofNat 64 e.kp, true, false⟩, dueOrd := e.ord })) ∧
      (pa.holds na → pb.holds nb → ∃ t, exec (.matrixStep k) s = .next t ∧
        t = { s with slots := t.slots, cores := t.cores } ∧ (∀ m, m ≠ k → t.core m = s.core m) ∧
        (let u := t.core k
         let e' := { e with kp := e.kp + 1, reefed := e.reefed || u.reefs != c.reefs }
         let last : Bool := decide (e.opk.toNat ≤ (e.kp + 1) * per)
         let y := { s.slot e.slot with vdirty := (t.slot e.slot).vdirty, fflags := (t.slot e.slot).fflags }
         u = { c with acc := u.acc, seg := u.seg, rowTag := u.rowTag, tq := if last then [] else [e'], reefLog := u.reefLog, reefs := u.reefs, reefOvf := u.reefOvf, ports := u.ports } ∧
         t.slot e.slot = (if last then y.tileCounted (e.reefTrap && e'.reefed) else y) ∧
         (∀ r, r ≠ e.slot → t.slot r = { s.slot r with vdirty := (t.slot r).vdirty }) ∧
         u.port a.toNat = pa.consume na ∧ u.port b.toNat = pb.consume nb ∧ (∀ j, j ≠ a.toNat → j ≠ b.toNat → u.port j = c.port j) ∧
         (∀ n, ¬ inTile e n → u.cell n = c.cell n ∧ u.segment (n / 32) = c.segment (n / 32)) ∧
         (∀ r, tabGet u.rowTag 0 r = if e.row0 ≤ r ∧ r < e.row0 + tdRows e.desc then e.tag else tabGet c.rowTag 0 r) ∧
         ∀ (r j : Nat) (va vb : Nat → ℚ), r < tdRows e.desc → j < tdSegs e.desc → tdMode e.desc = 0 →
           (∀ n < na, pa.operand n = some (va n)) → (∀ n < nb, pb.operand n = some (vb n)) →
           let g := 4 * (e.row0 + r) + tdSegb e.desc + j
           let old := c.segment g
           let prod := fun (n i : Nat) => va (n * tdRows e.desc + r) * vb (n * tdCols e.desc + (32 * j + i))
           old.empty = false → 1 ≤ old.hr → (∀ i < 32, cellClass (c.cell (32 * g + i)).bits = 0) →
           (∀ n < kn, ∀ i < 32, |prod n i| * 2 ^ ceilLog2 kn < (2 : ℚ) ^ (60 + old.exp)) →
           (u.segment g).exp = old.exp ∧ (u.segment g).empty = false ∧ (u.segment g).reefCnt = old.reefCnt ∧
           ∀ i < 32, u.cell (32 * g + i) = ⟨finiteCell (cellM (c.cell (32 * g + i)).bits +
             towardZero ((∑ n ∈ Finset.range kn, prod n i) / (2 : ℚ) ^ old.exp)), none⟩))

/-- 07_tile R177 to R179, R187 to R191, R194; 00_scope R9, R11; 02_numbers R54: MATRIX_STEP beyond TileResults. TREEF shifts each segment that is not
EMPTY, with an overflow to infinities; TADDX adds a source tile, or traps where a row is not the context's; TLD loads segment records and TST stores
converted cells; TMMAS takes the elements that its metadata keeps, TMMAG gives each core of the gang its blocks; and a step of TMMA or TMMAF gives an
EMPTY segment its exponent and reefs one without headroom before it adds. -/
def Obligations.TileUnitResults : Prop :=
  ∀ (s : State) (k : Nat) (e : TEntry),
    let c := s.core k
    let nr := tdRows e.desc
    let nc := tdCols e.desc
    let seg := fun (r j : Nat) => 4 * (e.row0 + r) + tdSegb e.desc + j
    let shifted := fun (sh : Nat) (old new : AccCell) => ∃ z : Int, RMode.Selects .rne (cellM old.bits / (2 : ℚ) ^ sh) z ∧ new = ⟨finiteCell z, none⟩
    let mode := RMode.ofFrm e.frm
    (∀ x y : BitVec 6, TileReady s k e (.treef x y) →
      (e.opk = 0 ∨ tdMode e.desc = 1 → ∃ t, exec (.matrixStep k) s = .next t ∧ TileDone s t k e ∧ ∀ n, (t.core k).cell n = c.cell n ∧
        (t.core k).segment n = c.segment n) ∧
      (e.opk ≠ 0 → tdMode e.desc = 0 → ∃ t, exec (.matrixStep k) s = .next t ∧
        (let full := ((List.range nr).flatMap fun r => (List.range (tdSegs e.desc)).map (seg r)).countP fun g => !(c.segment g).empty
         TileReefed s t k e (e.reefTrap && decide (full ≠ 0)) ∧ (t.core k).reefs = c.reefs + full) ∧
        (∀ n, ¬ inTile e n → (t.core k).cell n = c.cell n ∧ (t.core k).segment (n / 32) = c.segment (n / 32)) ∧
        (∀ r, tabGet (t.core k).rowTag 0 r = tabGet c.rowTag 0 r) ∧
        ∀ r j, r < nr → j < tdSegs e.desc →
          let g := seg r j
          let old := c.segment g
          let new := (t.core k).segment g
          (old.empty = true → new = old ∧ ∀ i < 32, (t.core k).cell (32 * g + i) = c.cell (32 * g + i)) ∧
          (old.empty = false → new.empty = false ∧ new.reefCnt = min (old.reefCnt + 1) 0xFFFF ∧
            (∀ i < 32, cellClass (c.cell (32 * g + i)).bits ≠ 0 → (t.core k).cell (32 * g + i) = c.cell (32 * g + i)) ∧
            (old.exp + e.opk.toNat ≤ 32767 → new.exp = old.exp + e.opk.toNat ∧
              ∀ i < 32, cellClass (c.cell (32 * g + i)).bits = 0 → shifted e.opk.toNat (c.cell (32 * g + i)) ((t.core k).cell (32 * g + i))) ∧
            (32767 < old.exp + e.opk.toNat → new.exp = 32767 ∧
              ∀ i < 32, cellClass (c.cell (32 * g + i)).bits = 0 → ∃ z : Int,
                RMode.Selects .rne (cellM (c.cell (32 * g + i)).bits / (2 : ℚ) ^ e.opk.toNat) z ∧
                (t.core k).cell (32 * g + i) = if z = 0 then ⟨finiteCell 0, none⟩ else ⟨infCell (decide (z < 0)), none⟩)))) ∧
    (∀ (x y : BitVec 6) (h : Nat), TileReady s k e (.taddx x y) → h < 16 → (∀ i < 16, e.opk.getLsbD (16 + i) = decide (i = h)) →
      let src := s.core (k / 16 * 16 + h)
      let from_ := fun (r j : Nat) => 4 * (wbits e.opk 6 0 + r) + tdSegb e.desc + j
      ((∃ r < nr, tabGet src.rowTag 0 (wbits e.opk 6 0 + r) ≠ e.tag) → exec (.matrixStep k) s =
        .next (s.setSlot e.slot { s.slot e.slot with due := some ⟨0x0A, e.pc, 0, 0, true, false⟩, dueOrd := e.ord })) ∧
      ((∀ r < nr, tabGet src.rowTag 0 (wbits e.opk 6 0 + r) = e.tag) →
        (tdMode e.desc = 1 → ∃ t, exec (.matrixStep k) s = .next t ∧ TileReefed s t k e false ∧ (∀ n, (t.core k).segment n = c.segment n) ∧
          (∀ n, ¬ inTile e n → (t.core k).cell n = c.cell n) ∧
          (∀ r, tabGet (t.core k).rowTag 0 r = if e.row0 ≤ r ∧ r < e.row0 + nr then e.tag else tabGet c.rowTag 0 r) ∧
          ∀ r j i, r < nr → j < tdSegs e.desc → i < 32 →
            let a := c.cell (32 * seg r j + i)
            let b := src.cell (32 * from_ r j + i)
            a.side = none → b.side = none → (t.core k).cell (32 * seg r j + i) =
              ⟨BitVec.ofNat 64 (fmtF64.round mode false (fAdd mode (fmtF64.decode a.bits.toNat) (fmtF64.decode b.bits.toNat)).1).1, none⟩) ∧
        (tdMode e.desc = 0 → (∀ r j, r < nr → j < tdSegs e.desc →
            let a := c.segment (seg r j)
            let b := src.segment (from_ r j)
            b.empty = true ∨ a.empty = false ∧ b.empty = false ∧ a.exp = b.exp ∧ a.exp ≤ 32767 ∧ ∀ i < 32,
              let x := (c.cell (32 * seg r j + i)).bits
              let y := (src.cell (32 * from_ r j + i)).bits
              cellClass x = 0 ∧ cellClass y = 0 ∧ -2 ^ 61 ≤ cellM x + cellM y ∧ cellM x + cellM y ≤ 2 ^ 61 - 1) →
          ∃ t, exec (.matrixStep k) s = .next t ∧ TileReefed s t k e false ∧
            (∀ n, ¬ inTile e n → (t.core k).cell n = c.cell n ∧ (t.core k).segment (n / 32) = c.segment (n / 32)) ∧
            (∀ r, tabGet (t.core k).rowTag 0 r = if e.row0 ≤ r ∧ r < e.row0 + nr then e.tag else tabGet c.rowTag 0 r) ∧
            ∀ r j, r < nr → j < tdSegs e.desc →
              let g := seg r j
              ((t.core k).segment g).exp = (c.segment g).exp ∧ ((t.core k).segment g).empty = (c.segment g).empty ∧
              ((t.core k).segment g).reefCnt = (c.segment g).reefCnt ∧
              ∀ i < 32, (t.core k).cell (32 * g + i) = if (src.segment (from_ r j)).empty then c.cell (32 * g + i)
                else ⟨finiteCell (cellM (c.cell (32 * g + i)).bits + cellM (src.cell (32 * from_ r j + i)).bits), none⟩))) ∧
    (∀ (x y : BitVec 6) (key : Nat → Nat), TileReady s k e (.tld x y) →
      let va := e.opk.toNat
      let len := 264 * (nr * tdSegs e.desc)
      va % 8 = 0 → tileWaits s e (va, len) = false → (∀ p ∈ tilePieces va len, readHolds s (tileAgent s e p.1) p.1 p.2 = []) →
      (∀ n < 33 * (nr * tdSegs e.desc), AgentRead s (tileAgent s e (va + 8 * n)) (va + 8 * n) 8 (key n)) →
      ∃ t, exec (.matrixStep k) s = .next t ∧ TileDone s t k e ∧
        (∀ n, ¬ inTile e n → (t.core k).cell n = c.cell n ∧ (t.core k).segment (n / 32) = c.segment (n / 32)) ∧
        (∀ r, tabGet (t.core k).rowTag 0 r = if e.row0 ≤ r ∧ r < e.row0 + nr then e.tag else tabGet c.rowTag 0 r) ∧
        ∀ r j, r < nr → j < tdSegs e.desc →
          let n := 33 * (r * tdSegs e.desc + j)
          let w := readWord s.mem (key n)
          ((t.core k).segment (seg r j)).reefCnt = wbits w 63 48 ∧ ((t.core k).segment (seg r j)).empty = w.getLsbD 38 ∧
          ((t.core k).segment (seg r j)).exp = (w.setWidth 16).toInt ∧
          ∀ i < 32, (t.core k).cell (32 * seg r j + i) =
            let b := readWord s.mem (key (n + 1 + i))
            if tdMode e.desc = 1 then ⟨b, none⟩ else ⟨rawCell b, none⟩) ∧
    (∀ (x y : BitVec 6) (sat half : BitVec 1) (key : Nat → Nat), TileReady s k e (.tst x sat half y) →
      let f := if half = 1 then fmtBF16 else fmtF32
      let z := if half = 1 then 2 else 4
      let va := e.opk.toNat
      let len := nr * nc * z
      let lo := fun i => max va (64 * (va / 64 + i))
      let n := fun i => min (va + len) (64 * (va / 64 + i) + 64) - lo i
      let cell := fun i => 128 * (e.row0 + i / nc) + 32 * tdSegb e.desc + i % nc
      let value := fun i => cellValue (c.cell (cell i)) (c.segment (cell i / 32)).exp (decide (tdMode e.desc = 1))
      let code := fun i => f.round .rne (sat == 1) (value i)
      slotAlive s e.slot = true → va % z = 0 → tileWaits s e (va, len) = false →
      (∀ i < nr * nc, if tdMode e.desc = 1 then (c.cell (cell i)).side = none else cellClass (c.cell (cell i)).bits ≠ 3) →
      (∀ i < granuleCount va len, AgentWrite s (tileAgent s e (lo i)) (lo i) (n i) (key i)) →
      ∃ t, exec (.matrixStep k) s = .next t ∧ t = { s with slots := t.slots, cores := t.cores, mem := t.mem, poison := t.poison, sectors := t.sectors } ∧
        (∀ m, m ≠ k → t.core m = s.core m) ∧ t.core k = { c with tq := [] } ∧ (∀ r, r ≠ e.slot → t.slot r = s.slot r) ∧
        t.slot e.slot = ({ s.slot e.slot with
          fflags := (s.slot e.slot).fflags ||| (List.range (nr * nc)).foldl (fun fl i => fl ||| ((code i).2 ||| (value i).nv)) 0 } : Slot).tileCounted
            (e.reefTrap && e.reefed) ∧
        t.mem = (List.range (granuleCount va len)).foldl (fun m i => writeBytes (key i)
          ((List.range (n i)).map fun b => (leBytes z (code ((lo i - va + b) / z)).1).getD ((lo i - va + b) % z) 0) m) s.mem ∧
        ∀ a, (∀ i < granuleCount va len, a < key i ∨ key i + n i ≤ a) → readByte t.mem a = readByte s.mem a) ∧
    (∀ (x y : BitVec 6) (a b : BitVec 3) (v : BitVec 5), TileReady s k e (.tmmas x a b y v) → e.kp < e.opk.toNat →
      let ng := e.opk.toNat / 8
      let md := fun (r g : Nat) => c.elem (metaView (s.slot e.slot)) v.toNat 16 (r * ng + g)
      let pa := c.port a.toNat
      let pb := c.port b.toNat
      (∀ r g, r < nr → g < ng → (md r g).poison = none ∧ metaOk (md r g).bits = true) → pa.holds (4 * nr) → pb.holds nc → a ≠ b →
      let g := e.kp / 8
      let last := decide (e.opk.toNat ≤ e.kp + 1)
      ∃ t, exec (.matrixStep k) s = .next t ∧ MatrixStepped s t k e last ∧
        (t.core k).port a.toNat = pa.consume (if e.kp % 8 = 7 then 4 * nr else 0) ∧ (t.core k).port b.toNat = pb.consume nc ∧
        (∀ j, j ≠ a.toNat → j ≠ b.toNat → (t.core k).port j = c.port j) ∧
        ∀ (r j : Nat) (va vb : Nat → ℚ), r < nr → j < tdSegs e.desc →
          (∀ n < 4 * nr, pa.operand n = some (va n)) → (∀ n < nc, pb.operand n = some (vb n)) →
          let prod := fun i => match (keptOf (md r g).bits).findIdx? fun u => u == e.kp % 8 with
            | some u => va (4 * r + u) * vb (32 * j + i)
            | none => 0
          SegmentAdds c (t.core k) (seg r j) 1 (fun i => prod i) prod) ∧
    (∀ (x y : BitVec 6) (a b : BitVec 3), TileReady s k e (.tmmag x a b y) → gangReady s k e = true → 8 * e.kp < e.opk.toNat →
      (e.kp = 0 → gangTagsOk s k e = true) → a ≠ b →
      let kn := min 8 (e.opk.toNat - e.kp * 8)
      let pa := c.port a.toNat
      let pb := c.port b.toNat
      pa.holds (kn * (4 * nr)) → pb.holds (kn * (4 * nc)) →
      let last := decide (e.opk.toNat ≤ (e.kp + 1) * 8)
      let base := k / 16 * 16
      ∃ t, exec (.matrixStep k) s = .next t ∧ t = { s with slots := t.slots, cores := t.cores } ∧
        (∀ m, (m < base ∨ base + 16 ≤ m) → t.core m = s.core m) ∧
        (t.core k).port a.toNat = pa.consume (kn * (4 * nr)) ∧ (t.core k).port b.toNat = pb.consume (kn * (4 * nc)) ∧
        (∃ re, (t.core k).tq = if last then [] else [{ e with kp := e.kp + 1, reefed := re }]) ∧
        ∀ h < 16,
          let u := t.core (base + h)
          let w := s.core (base + h)
          (base + h ≠ k → u.tq = (if last then w.tq.drop 1 else w.tq) ∧ u.ports = w.ports) ∧
          (∀ n, ¬ inTile e n → u.cell n = w.cell n ∧ u.segment (n / 32) = w.segment (n / 32)) ∧
          (∀ r, tabGet u.rowTag 0 r = if e.row0 ≤ r ∧ r < e.row0 + nr then e.tag else tabGet w.rowTag 0 r) ∧
          ∀ (r j : Nat) (va vb : Nat → ℚ), r < nr → j < tdSegs e.desc → tdMode e.desc = 0 →
            (∀ n < kn * (4 * nr), pa.operand n = some (va n)) → (∀ n < kn * (4 * nc), pb.operand n = some (vb n)) →
            let prod := fun (n i : Nat) => va (n * (4 * nr) + (h / 4 * nr + r)) * vb (n * (4 * nc) + (h % 4 * nc + (32 * j + i)))
            ∀ bound : Nat → ℚ, (∀ i < 32, ∀ n < kn, |prod n i| ≤ bound i) →
              SegmentAdds w u (seg r j) kn bound fun i => ∑ n ∈ Finset.range kn, prod n i) ∧
    ∀ (x y : BitVec 6) (a b : BitVec 3) (per kn : Nat), StepReady s k e x y a b per kn → tdMode e.desc = 0 → a ≠ b →
      let pa := c.port a.toNat
      let pb := c.port b.toNat
      pa.holds (kn * nr) → pb.holds (kn * nc) → ∃ t, exec (.matrixStep k) s = .next t ∧
        ∀ (r j : Nat) (va vb : Nat → ℚ) (top : Int), r < nr → j < tdSegs e.desc →
          (∀ n < kn * nr, pa.operand n = some (va n)) → (∀ n < kn * nc, pb.operand n = some (vb n)) →
          let g := seg r j
          let old := c.segment g
          let new := (t.core k).segment g
          let prod := fun (n i : Nat) => va (n * nr + r) * vb (n * nc + (32 * j + i))
          let sum := fun i => ∑ n ∈ Finset.range kn, prod n i
          (∀ i < 32, cellClass (c.cell (32 * g + i)).bits = 0) →
          (∀ n < kn, ∀ i < 32, |prod n i| < (2 : ℚ) ^ top) → (∃ n < kn, ∃ i < 32, (2 : ℚ) ^ (top - 1) ≤ |prod n i|) →
          let up := top + ceilLog2 kn
          (old.empty = true →
            let x := max (up - 61 + e.reefTh.toNat) (-32768)
            new.exp = x ∧ new.empty = false ∧ new.reefCnt = old.reefCnt ∧
            ∀ i < 32, (t.core k).cell (32 * g + i) = ⟨finiteCell (cellM (c.cell (32 * g + i)).bits + towardZero (sum i / (2 : ℚ) ^ x)), none⟩) ∧
          (old.empty = false → old.hr = 0 ∨ 60 < up - old.exp →
            let sh := (max (1 - (old.hr : Int)) (up - old.exp - 60)).toNat
            old.exp + sh ≤ 32767 → new.exp = old.exp + sh ∧ new.empty = false ∧ new.reefCnt = min (old.reefCnt + 1) 0xFFFF ∧
            ∀ i < 32, ∃ z : Int, RMode.Selects .rne (cellM (c.cell (32 * g + i)).bits / (2 : ℚ) ^ sh) z ∧
              (t.core k).cell (32 * g + i) = ⟨finiteCell (z + towardZero (sum i / (2 : ℚ) ^ (old.exp + sh))), none⟩)

/-- 08_stream R201 to R208, R218: the port instructions: the state in which each leaves its port, what SSTAT writes, and the traps of a port that is
closed or another slot's. That SCLOSE leaves the status word with status 5, the kind and the position is the model's choice (log 31). -/
def Obligations.StreamInstructions : Prop :=
  ∀ (p : BitVec 3) (s : State),
    let k := coreOf s.cur
    let x := (s.core k).port p.toNat
    let put := fun (i : Instr) (y : Port) (n : Nat) => ActsOnCore i s ((s.core k).setPort p.toNat y) n
    (∀ (a : BitVec 6) (c : BitVec 1) (sc : BitVec 3) (key : Nat),
      let spec := wordsAt s key 8
      x.st = .closed → s.me.Clean [a.toNat] → (s.me.val a.toNat).toNat % 64 = 0 → OwnRead s (s.me.val a.toNat).toNat 64 key →
      (specBadField spec false = none → specKind spec ≠ 6 →
        put (.sopen a p c sc)
          { Port.reset with st := .opened, owner := s.cur, spec := spec, bindReg := 32, scope := sc, acquire := decide (c = 1), op := s.nextOp } 1) ∧
      ∀ off, specBadField spec false = some off → (sCw spec = true → ∃ h, checkAddr s (scalarAgent s s.cur) (s.me.val a.toNat).toNat .write = .ok h) →
        exec (.sopen a p c sc) s = .next (trap s s.cur 0x01 0 (BitVec.ofNat 64 off))) ∧
    (x.st ≠ .closed → x.owner = s.cur → portAwaited s s.cur p.toNat s.nextOp = false →
      put (.sclose p) { Port.reset with spec := x.spec, pos := x.pos, status := 5 } 0 ∧
      put (.sunbind p) { x with st := if x.st = .bound then .opened else x.st, bindReg := 32, bindG := 0 } 0 ∧
      (writesPending s s.cur = false → put (.sbar p) x.again 0) ∧ (writesPending s s.cur = true → Stalls (.sbar p) s .accesses)) ∧
    (∀ v : BitVec 5, x.st = .opened → x.owner = s.cur → Placed s.me.vcfg v.toNat →
      groupInUse s s.cur ⟨v.toNat, 2 ^ vGroup s.me.vcfg, 0⟩ = false →
      put (.sbind v p) { x with st := .bound, bindReg := v.toNat, bindG := vGroup s.me.vcfg } 0) ∧
    (∀ d : BitVec 6, (s.me.sreg d.toNat).pend = .ready → x.st = .closed ∨ x.owner = s.cur → portAwaited s s.cur p.toNat s.nextOp = false →
      x.status < 128 → x.pos < 2 ^ 48 →
      ∃ v : Word, Loads (.sstat d p) s d.toNat v none ∧ wbits v 63 57 = x.status ∧
        wbits v 56 54 = (match x.st with | .closed => 0 | .opened => 1 | .bound => 2 | .ended => 3) ∧ wbits v 53 51 = wbits (wordAt x.spec 0) 2 0 ∧
        v.getLsbD 50 = x.list ∧ wbits v 49 48 = 0 ∧ wbits v 47 0 = x.pos) ∧
    (∀ d : BitVec 6, (s.me.sreg d.toNat).pend = .ready → x.st ≠ .closed → x.owner = s.cur → portAwaited s s.cur p.toNat s.nextOp = true →
      ∃ t, exec (.sstat d p) s = .next t ∧ t = { s with slots := t.slots, cores := t.cores, nextOp := s.nextOp + 1 } ∧
        (∀ r, r ≠ s.cur → t.slot r = s.slot r) ∧ (∀ m, m ≠ k → t.core m = s.core m) ∧
        t.core k = (s.core k).setPort p.toNat { x with stats := x.stats ++ [(s.me.regIndex d.toNat, s.nextOp)] } ∧
        SystemKept s.me t.me ∧ RegsKept s.me t.me [d.toNat] ∧ WentOn s.me t.me ∧
        (d ≠ 0 → t.me.sreg d.toNat = { s.me.sreg d.toNat with pend := .queue })) ∧
    ∀ v : BitVec 5, x.st = .closed ∨ x.owner ≠ s.cur →
      ∀ i ∈ [Instr.sclose p, .sunbind p, .sbar p, .sbind v p], exec i s = .next (trapWord s s.cur 0x10 (encode i))

/-- 08_stream R202, R209; 16_mesh R373, R374; 18_bucket R401: what COPY_ENGINE_TRANSFER and NEIGH_BUCKET_STREAM_FETCH put into a port: the next
element of a LINEAR stream, its end, the generation and the records of a mesh, and the tokens of a bucket table. How far a port fetches ahead (log 4),
and that a BUCKET port holds its tokens and turns one into an element at a fetch (log 82), are the model's choices. -/
def Obligations.StreamTransfers : Prop :=
  ∀ (s : State) (k p : Nat), k < Config.cores → p < 8 →
    let x := (s.core k).port p
    let c := x.cur
    (x.st = .opened ∨ x.st = .bound) → x.stop = none → portWaits s x = false → x.acquire = false → x.skip = 0 → x.fifo.length < fetchAhead →
    (∀ b key, frozenUnit s 6 (healthyEngine s (engineOf k)) = false → ByteStream x.spec b →
      (c.n < sCount x.spec → AgentRead s (portAgent s k x) (sSrc x.spec + BitVec.ofNat 64 (c.n * b)).toNat b key →
        exec (.copyEngineTransfer true (8 * k + p)) s = .next (s.setPort k p
          { x with
            fifo := x.fifo ++ [⟨BitVec.ofNat 64 (readLE s.mem key b), none, 127⟩], cur := { c with n := c.n + 1 }
            stop := if sCount x.spec ≤ c.n + 1 then some (0, false) else none })) ∧
      (sCount x.spec ≤ c.n → x.fifo = [] →
        exec (.copyEngineTransfer true (8 * k + p)) s = .next (s.setPort k p
          { x with st := .ended, status := 0, list := false, stop := some (0, false) }))) ∧
    (∀ key m, specKind x.spec = 5 → AgentRead s (neighAgent s k x) (sP28 x.spec).toNat 256 key → tabFind s.meshes key = some m →
      (s.slot x.owner).shtag = 0 ∨ (s.slot x.owner).shtag = m.tag →
      serverFrozen s k x = false →
      let b := readBytes s.mem key 256
      mState b = 1 → (8, mHome b % 8) ∉ s.quarUnits →
      (x.gen = 0 → exec (.neighBucketStreamFetch k p) s = .next (s.setPort k p { x with gen := mGen b + 1 })) ∧
      (x.gen = mGen b + 1 → rangeHoldsPoison s (neighAgent s k x) (mStore b) (mStoreLen b) = false → ∀ r, c.a < sCount x.spec → (sP30 x.spec).toNat + c.a < m.leaves.length →
        (neighRecords m x.spec ((sP30 x.spec).toNat + c.a))[c.b]? = some r →
        let cell := (sP30 x.spec).toNat + c.a
        let last := decide (c.b + 1 = (neighRecords m x.spec cell).length)
        exec (.neighBucketStreamFetch k p) s = .next (s.setPort k p
          { x with
            fifo := x.fifo ++ [⟨neighElem m x.spec cell r last, none, 127⟩], cur := { c with n := c.n + 1, b := c.b + 1 }
            stop := match nextNeigh m x.spec (sCount x.spec - c.a) s { c with n := c.n + 1, b := c.b + 1 } with
              | .stop 0 l _ => some (0, l)
              | _ => none }))) ∧
    ∀ key t ts, specKind x.spec = 6 → AgentRead s (kbuAgent s x.owner) (kTable x.spec) 128 key → tState (readBytes s.mem key 128) = 1 →
      serverFrozen s k x = false → x.gen ≠ 0 → x.toks = t :: ts → kForm x.spec = 0 →
      exec (.neighBucketStreamFetch k p) s = .next (s.setPort k p
        (bucketEnd { x with toks := ts, fifo := x.fifo ++ [⟨BitVec.ofNat 64 t, none, 127⟩], cur := { c with n := c.n + 1 } }))

/-- 08_stream R201, R214 to R220; 11_page R295: CPY, CPYS and CPYPF put a copy in flight; an element of a LINEAR copy moves; COPY_COMPLETION writes the
completion word where CW asks for it and into sd (R215, R216). That one transfer moves elements up to the end of the aligned 8-byte unit is the
model's choice (log 100). -/
def Obligations.CopyResults : Prop :=
  (∀ (s : State) (d a : BitVec 6) (c l : BitVec 1) (sc : BitVec 3) (key : Nat),
    let sa := s.me.val a.toNat
    let spec := wordsAt s key 8
    (s.me.sreg d.toNat).pend = .ready → s.me.Clean [a.toNat] → s.me.cnt.copies < 255 → copiesOfCore s (coreOf s.cur) < 128 →
    (sa.toNat % 64 = 0 → OwnRead s sa.toNat 64 key → (sCw spec = true → ∃ h, checkAddr s (scalarAgent s s.cur) sa.toNat .write = .ok h) →
      specBadField spec true = none →
      IssuesWork (.cpy d a c l sc) s d.toNat (pushCopy s (copyOf s s.cur .cpy spec sa d.toNat (c = 1) (l = 1) sc)) ∧
      IssuesWork (.cpys d a c l sc) s d.toNat (pushCopy s (copyOf s s.cur .cpys spec sa d.toNat (c = 1) (l = 1) sc))) ∧
    (s.me.Clean [d.toNat] →
      (s.me.val d.toNat ≠ 0 → sa.toNat + (s.me.val d.toNat).toNat ≤ 2 ^ 56 →
        IssuesWork (.cpypf d a) s 0 (pushCopy s (copyOf s s.cur .cpypf [sa, s.me.val d.toNat] 0 0 false false 0))) ∧
      (s.me.val d.toNat = 0 → sa.toNat ≤ 2 ^ 56 → Passes (.cpypf d a) s) ∧
      (2 ^ 56 < sa.toNat + (s.me.val d.toNat).toNat → exec (.cpypf d a) s = .next (trapWord s s.cur 0x01 (encode (.cpypf d a)))))) ∧
  (∀ (s : State) (n b k1 k2 m : Nat) (c : Copy), tabFind s.copies n = some c → frozenUnit s 6 c.engine = false → c.engine < 256 → c.phase = .moving →
    c.kind ≠ .cpypf → ByteStream c.spec b → dstFmt c.spec = srcFmt c.spec →
    let out := (sDst c.spec + BitVec.ofNat 64 (c.count * b)).toNat
    1 ≤ m → c.cur.n + m ≤ sCount c.spec → (∀ j, 1 ≤ j → j < m → (out + j * b) % 8 ≠ 0) → (out + m * b) % 8 = 0 →
    AgentRead s c.agent (sSrc c.spec + BitVec.ofNat 64 (c.cur.n * b)).toNat (m * b) k1 → AgentWrite s c.agent out (m * b) k2 →
    (m = 1 ∨ k1 + m * b ≤ k2 ∨ k2 + m * b ≤ k1) →
    ∃ t, exec (.copyEngineTransfer false n) s = .next t ∧ t = { s with mem := t.mem, poison := t.poison, sectors := t.sectors, copies := t.copies } ∧
      tabFind t.copies n = some { c with count := c.count + m, cur := { c.cur with n := c.cur.n + m } } ∧
      (∀ j, j ≠ n → tabFind t.copies j = tabFind s.copies j) ∧ (∀ i < m * b, readByte t.mem (k2 + i) = readByte s.mem (k1 + i)) ∧
      ∀ a, a < k2 ∨ k2 + m * b ≤ a → readByte t.mem a = readByte s.mem a) ∧
  ∀ (s : State) (n q st key : Nat) (c : Copy), tabFind s.copies n = some c → c.phase = .done st → st < 128 → c.home = .slot q → c.task = none → c.r = false →
    frozenUnit s 6 c.engine = false → c.engine < 256 → c.count < 2 ^ 48 →
    let word : Word := BitVec.ofNat 64 (2 ^ 63 + st * 2 ^ 56 + c.engine * 2 ^ 48 + c.count)
    let done := fun (t : State) (y : Slot) => exec (.copyCompletion n) s = .next t ∧ tabFind t.copies n = none ∧
      (∀ m, m ≠ n → tabFind t.copies m = tabFind s.copies m) ∧ (∀ r, r ≠ q → t.slot r = s.slot r) ∧ t.slot q = y
    (c.kind = .cpypf → ∃ t, done t ((s.slot q).receives 0 0 0 false) ∧ t = { s with slots := t.slots, copies := t.copies }) ∧
    (c.kind ≠ .cpypf → sCw c.spec = false →
      ∃ t, done t ((s.slot q).receives c.dest word c.fflags false) ∧ t = { s with slots := t.slots, copies := t.copies }) ∧
    (c.kind ≠ .cpypf → sCw c.spec = true → AgentWrite s c.agent c.specAddr.toNat 8 key →
      ∃ t, done t ((s.slot q).receives c.dest word c.fflags (sUie c.spec)) ∧ WritesBytes { s with copies := t.copies } t key (leBytes 8 word.toNat))

/-- 16_mesh R364 and R366, 17_partition R376 and R382, 18_bucket R403: the issue of the thirteen commands: checked descriptors put a command in flight
and make sd pending; the first offending field traps with cause 0x01, and a mesh with too many cells for its capacity with 0x15. -/
def Obligations.CommandIssue : Prop :=
  ∀ (s : State) (d a : BitVec 6) (c l : BitVec 1) (xs : BitVec 3) (op key okey hkey : Nat) (i : Instr),
    (op, i) ∈ [(0x00, .mimport d a c l xs), (0x01, .mexport d a c l xs), (0x02, .mrefine d a c l xs), (0x03, .mcoarsen d a c l xs),
      (0x04, .mrenum d a c l xs), (0x05, .mstat d a c l xs), (0x10, .mcolour d a c l xs), (0x11, .mtrim d a c l xs), (0x12, .mmigr d a c l xs),
      (0x13, .mghost d a c l xs), (0x20, .kproj d a c l xs), (0x21, .kreset d a c l xs), (0x22, .kstat d a c l xs)] →
    let sa := s.me.val a.toNat
    let desc := wordsAt s key 8
    let obj := readBytes s.mem okey (objectBytes op)
    let hdr := if op = 0 then readBytes s.mem hkey 64 else []
    (s.me.sreg d.toNat).pend = .ready → s.me.Clean [a.toNat] → sa.toNat % 64 = 0 → OwnRead s sa.toNat 64 key →
    (op ≠ 0x20 → OwnRead s (wordAt desc 0).toNat (objectBytes op) okey) → (op = 0 → OwnRead s (wordAt desc 2).toNat 64 hkey) →
    (∀ off, issueBreach op desc obj hdr = some off → exec i s = .next (trap s s.cur 0x01 0 (BitVec.ofNat 64 off))) ∧
    (issueBreach op desc obj hdr = none →
      (op = 0 → mCcap obj < fld hdr 0x10 4 → exec i s = .next (trap s s.cur 0x15 0 (BitVec.ofNat 64 (fld hdr 0x10 4)))) ∧
      ((op = 0 → fld hdr 0x10 4 ≤ mCcap obj) →
        (s.me.cnt.copies < 255 → IssuesWork i s d.toNat (pushCmd s
          { cmdOf s s.cur (.unit op) sa desc d.toNat (c = 1) (l = 1) xs with engine := cmdUnit op (dieOf s.cur) (clusterOf s.cur) obj })) ∧
        (255 ≤ s.me.cnt.copies → Stalls i s .counterFull)))

/-- 16_mesh R366, 18_bucket R387 and R403, 19_shroud R409, 11_page R290 and R291: ENGINE_COMMAND_COMPLETION: KPROJ empties or loads a projection slot
of its KBU, a unit out of service ends a command with BROKEN, which is the model's choice (log 37), and a PGMIG begins its migration or ends with the
status that says why not. -/
def Obligations.CommandCompletion : Prop :=
  ∀ (s : State) (n q : Nat) (c : Cmd), CommandReady s n q c →
    let word := fun (status count : Nat) => (BitVec.ofNat 64 (2 ^ 63 + status * 2 ^ 56 + c.engine * 2 ^ 48 + count) : Word)
    (∀ key, c.kind = .unit 0x20 → (7, c.engine) ∉ s.quarUnits → AgentRead s c.agent c.descAddr.toNat 64 key →
      let d := wordsAt s key 8
      let w := wordAt d 2
      let e := c.cluster * 64 + wbits w 5 0
      leastBreach (cmdChecks 0x20 d) = none → (∀ p, tabFind s.proj e = some p → p.tag = 0 ∨ p.tag = c.tag) →
      (w.getLsbD 63 = true → ∃ t, exec (.engineCommandCompletion n) s = .next t ∧ CommandDone s t n q c (word 0 0) ∧
        t = { s with slots := t.slots, cmds := t.cmds, proj := t.proj } ∧ ∀ m, tabFind t.proj m = if m = e then none else tabFind s.proj m) ∧
      (∀ mkey, w.getLsbD 63 = false →
        let bytes := wbits w 28 24 * wbits w 20 8 / 8
        AgentRead s c.agent (wordAt d 0).toNat bytes mkey → ∃ t, exec (.engineCommandCompletion n) s = .next t ∧
          CommandDone s t n q c (word 0 bytes) ∧ t = { s with slots := t.slots, cmds := t.cmds, proj := t.proj } ∧
          ∀ m, tabFind t.proj m =
            if m = e then some ⟨wbits w 20 8, wbits w 28 24, wbits w 36 32, readBytes s.mem mkey bytes, c.tag⟩ else tabFind s.proj m)) ∧
    (∀ op, c.kind = .unit op → (cmdClass (.unit op), c.engine) ∈ s.quarUnits →
      ∃ t, exec (.engineCommandCompletion n) s = .next t ∧ CommandDone s t n q c (word 0x15 0) ∧ t = { s with slots := t.slots, cmds := t.cmds }) ∧
    (c.kind = .pgmig →
      let m := beginMigration s (BitVec.ofNat 12 (wordAt c.desc 1).toNat) (wordAt c.desc 0) (wordAt c.desc 2).toNat n false
      (∀ u, m = .ok u → exec (.engineCommandCompletion n) s = .next { u with cmds := tabSet u.cmds n { c with running := true } }) ∧
      ∀ st, m = .error st → ∃ t, exec (.engineCommandCompletion n) s = .next t ∧ CommandDone s t n q c (BitVec.ofNat 64 st) ∧
        t = { s with slots := t.slots, cmds := t.cmds })

/-- 00_scope R460, 16_mesh R362 to R371, 17_partition R376 to R384, 18_bucket R392 and R403: the checks of a command, the claims, and what the units
of major 0x33 write: MSTAT, MEXPORT, KSTAT, KRESET, the commit of a mesh and of MTRIM, and the copies of the trim unit; with the colouring of R377 and
the cuts of R383 as functions of their operands. The store's own bytes after a commit are free values (log 25), and the arrays of an exported image
follow each other directly (log 26). -/
def Obligations.UnitCommandResults : Prop :=
  (∀ (op : Nat) (d : List Word) (obj hdr : List Byte),
    let checks := cmdChecks op d ++ shiftChecks 0x100 (objectChecks op d obj) ++ (if op = 0 then shiftChecks 0x200 (headerChecks hdr (mDim obj)) else [])
    ((∀ x ∈ cmdChecks op d, x.2 = true) ↔ CommandWords op d) ∧
    (issueBreach op d obj hdr = none ↔ ∀ x ∈ checks, x.2 = true) ∧
    ∀ off, issueBreach op d obj hdr = some off ↔ (off, false) ∈ checks ∧ ∀ x ∈ checks, x.2 = false → off ≤ x.1) ∧
  (∀ (m : Mesh) (first dist cmax n : Nat), cmax ≤ 64 →
    let x := colourRun m first dist cmax n []
    let used := fun i k => ∃ j < i, first + j ∈ m.within dist (first + i) ∧ x.1[j]? = some k
    x.1.length ≤ n ∧ (x.2 = false ↔ x.1.length = n) ∧ (x.2 = true → ∀ k < cmax, used x.1.length k) ∧
    ∀ i k, x.1[i]? = some k → k < cmax ∧ ¬ used i k ∧ ∀ l < k, used i l) ∧
  (∀ (w : List Nat) (np : Nat), 0 < np →
    let sum := fun k => (w.take k).sum
    let new := newCuts (prefixSums 0 w) np w.length
    new.length = np + 1 ∧ new[0]? = some 0 ∧ new[np]? = some w.length ∧
    ∀ p cut, 0 < p → p < np → new[p]? = some cut → cut ≤ w.length ∧ p * sum w.length ≤ sum cut * np ∧ ∀ k < cut, sum k * np < p * sum w.length) ∧
  (∀ (s : State) (c : Cmd) (l : List (CellCopy × Nat × Nat)), s.poison = [] → c.live s = true →
    (∀ x ∈ l, SteadyRead s c.agent x.1.1 x.1.2.2.1 x.2.1 ∧ SteadyWrite s c.agent x.1.2.1 x.1.2.2.1 x.2.2) →
    RangesApart (l.map fun x => (x.2.2, x.1.2.2.1)) →
    (∀ x ∈ l, ∀ y ∈ l, x.2.2 + x.1.2.2.1 ≤ y.2.1 ∨ y.2.1 + y.1.2.2.1 ≤ x.2.2) →
    let t := doCopies c (l.map (·.1)) s
    t = { s with mem := t.mem, sectors := t.sectors } ∧
    (∀ x ∈ l, ∀ i < x.1.2.2.1, readByte t.mem (x.2.2 + i) = readByte s.mem (x.2.1 + i)) ∧
    ∀ a, (∀ x ∈ l, a < x.2.2 ∨ x.2.2 + x.1.2.2.1 ≤ a) → readByte t.mem a = readByte s.mem a) ∧
  ∀ (s : State) (n q : Nat) (c : Cmd),
    let word := fun (status count : Nat) => (BitVec.ofNat 64 (2 ^ 63 + status * 2 ^ 56 + c.engine * 2 ^ 48 + count) : Word)
    let completes := fun (f : State → Prop) => ∃ t, exec (.engineCommandCompletion n) s = .next t ∧ f t
    (∀ op, CommandServed s n q c op →
      (∀ r, op < 0x10 → meshRead s c = .ok (r, s) →
        let spoilt := r.mesh.isSome = true ∧ rangeHoldsPoison s c.agent (mStore r.obj) (mStoreLen r.obj) = true
        let leaves := r.mesh.elim [] Mesh.leaves
        let out := (wordAt r.d 2).toNat
        (op ∈ [0, 2, 3] ∨ (op = 4 ∧ wordAt r.d 2 = 0) →
          (op = 0 ∧ mState r.obj ∈ [0, 1, 3]) ∨ (op ≠ 0 ∧ mState r.obj = 1 ∧ r.mesh.isSome = true ∧ remapQueueOk s c r.obj = true) →
          (∀ m, r.mesh = some m → m.pending = []) → (∀ e ∈ s.remaps, e.2.mesh ≠ r.key) → AgentWrite s c.agent r.va 256 r.key →
          completes fun t => CommandClaims s t n c r.key (mState r.obj) ∧ t.cores = s.cores ∧ t.parts = s.parts) ∧
        (∀ key, op = 5 → ¬ spoilt → AgentWrite s c.agent out 128 key → completes fun t =>
          CommandWrites s t n q c (word 0 128) key 128 ∧ readLE t.mem key 4 = mNcell r.obj ∧ readLE t.mem (key + 4) 4 = fld r.obj 0x24 4 ∧
          readLE t.mem (key + 8) 4 = fld r.obj 0x28 4 ∧ readLE t.mem (key + 0xC) 4 = mNvert r.obj ∧ readLE t.mem (key + 0x10) 4 = mGen r.obj ∧
          readLE t.mem (key + 0x14) 4 = remapCount s r % 2 ^ 32 ∧ readLE t.mem (key + 0x18) 1 = mState r.obj ∧
          readLE t.mem (key + 0x19) 1 = (leaves.map Cell.depth).foldl max 0 % 2 ^ 8 ∧
          (∀ o, 0x1A ≤ o → o < 0x40 → readByte t.mem (key + o) = 0) ∧
          ∀ k < 16, readLE t.mem (key + 0x40 + 4 * k) 4 = (leaves.filter fun x => x.depth == k).length % 2 ^ 32) ∧
        (∀ m key, op = 1 → r.mesh = some m → mState r.obj = 1 → ¬ spoilt → migratingAt s c.agent out (wordAt r.d 3).toNat = false →
          let size := (exportImage m).length
          ((wordAt r.d 3).toNat < size → completes fun t => CommandDone s t n q c (word 0x10 0) ∧ t = { s with slots := t.slots, cmds := t.cmds }) ∧
          (size ≤ (wordAt r.d 3).toNat → AgentWrite s c.agent out size key → completes fun t =>
            CommandWrites s t n q c (word 0 size) key size ∧ readLE t.mem key 2 = 1 ∧ readLE t.mem (key + 2) 1 = m.dim % 2 ^ 8 ∧
            readLE t.mem (key + 8) 4 = m.coords.length / m.dim % 2 ^ 32 ∧ readLE t.mem (key + 0xC) 4 = m.rankedRoots.length % 2 ^ 32 ∧
            readLE t.mem (key + 0x10) 4 = m.leaves.length % 2 ^ 32 ∧ readLE t.mem (key + 0x18) 8 = 64 ∧
            readLE t.mem (key + 0x20) 8 = 64 + 8 * m.coords.length ∧
            readLE t.mem (key + 0x28) 8 = 64 + 8 * m.coords.length + 32 * m.rankedRoots.length ∧
            ∀ i x, m.coords[i]? = some x → readWord t.mem (key + 64 + 8 * i) = x))) ∧
      (∀ r m, op = 0x10 → meshRead s c = .ok (r, s) → r.mesh = some m → mState r.obj = 1 →
        rangeHoldsPoison s c.agent (mStore r.obj) (mStoreLen r.obj) = false → wbits (wordAt r.d 2) 30 0 + wbits (wordAt r.d 3) 31 0 ≤ mNcell r.obj →
        completes fun t => t = { s with cmds := t.cmds } ∧
          ∀ m, tabFind t.cmds m = if m = n then some { c with running := true, gen := mGen r.obj } else tabFind s.cmds m) ∧
      (∀ r, op = 0x11 → trimBusy s n = false → partRead s c = .ok (r, s) → fld r.obj 2 1 ∈ [0, 1, 3] → AgentWrite s c.agent r.va 512 r.key →
        completes fun t => CommandClaims s t n { c with gen := mGen r.mobj } r.key (fld r.obj 2 1) ∧ t.cores = s.cores ∧
          ∀ k, tabFind t.parts k = if k = r.key ∧ tabFind s.parts k = none then some c.tag else tabFind s.parts k) ∧
      (∀ d b key, op = 0x21 → runDescs s c = .ok (d, b, key, s) → (∀ k ∈ s.klinks, k.2.key ≠ key) → tState b ∈ [0, 1, 3] →
        AgentWrite s c.agent (wordAt d 0).toNat 128 key → completes fun t => CommandClaims s t n c key (tState b) ∧ t.parts = s.parts) ∧
      (∀ d b tkey, op = 0x22 → runDescs s c = .ok (d, b, tkey, s) →
        let h := (wordAt d 3).toNat
        let g := 2 ^ tB b
        (tNhead b ≤ h → migratingAt s c.agent (wordAt d 2).toNat 64 = false → completes fun t =>
          CommandDone s t n q c (word 0x14 0) ∧ t = { s with slots := t.slots, cmds := t.cmds }) ∧
        (∀ ekey key, h < tNhead b → AgentRead s c.agent (tBuck b + 16 * (h * (g + 1))) (16 * (g + 1)) ekey → AgentWrite s c.agent (wordAt d 2).toNat 64 key →
          let first := fun i => readLE s.mem (ekey + 16 * i) 8
          let count := fun i => readLE s.mem (ekey + 16 * i + 8) 4
          (tState b = 1 → ∀ i ≤ g, first i = 0 ∨ (first i % 64 = 0 ∧ tPool b ≤ first i ∧ first i < tPool b + 64 * tNblk b)) →
          completes fun t => CommandWrites s t n q c (word 0 64) key 64 ∧ readLE t.mem key 4 = tNlink b ∧ readLE t.mem (key + 4) 4 = tNfree b ∧
            readLE t.mem (key + 8) 4 = ((List.range (g + 1)).map count).sum % 2 ^ 32 ∧ readLE t.mem (key + 0xC) 4 = count g ∧
            readLE t.mem (key + 0x10) 4 = ((List.range g).map count).foldl max 0 ∧
            readLE t.mem (key + 0x14) 4 = ((List.range g).filter fun i => count i != 0).length % 2 ^ 32 ∧ readLE t.mem (key + 0x18) 1 = tState b ∧
            ∀ o, 0x19 ≤ o → o < 0x40 → readByte t.mem (key + o) = 0))) ∧
    (∀ op r former m list status count lkey skey, CommandClaimed s n q c op r.key former → op ∈ [0, 2, 3, 4] → s.poison = [] →
      meshRead s c = .ok (r, s) → meshBuild s c r = .ok (.mesh m list status count, s) →
      op = 0 ∨ rangeHoldsPoison s c.agent (mStore r.obj) (mStoreLen r.obj) = false → (commitRanges c r list).any (fun x => migratingAt s c.agent x.1 x.2) = false →
      probe s c.agent .write (commitRanges c r list) = [] →
      let store := (128 * mCcap r.obj + 32 * mFcap r.obj + 4095) / 4096 * 4096
      SteadyWrite s c.agent r.va 256 r.key → SteadyWrite s c.agent (mRmap r.obj + 0x400) (8 * list.length) lkey →
      SteadyWrite s c.agent (mStore r.obj) store skey → RangesApart [(r.key, 256), (lkey, 8 * list.length), (skey, store)] →
      completes fun t =>
        t = { s with
          slots := t.slots, cores := t.cores, cmds := t.cmds, remaps := t.remaps, mem := t.mem, sectors := t.sectors, meshes := t.meshes, free := t.free } ∧
        (if op = 0 ∨ mNfld r.obj = 0 then CommandDone s t n q c (word status count) ∧ t.remaps = s.remaps
         else t.slots = s.slots ∧ (∀ k, tabFind t.cmds k = if k = n then some { c with claim := none } else tabFind s.cmds k) ∧
           ∀ k, tabFind t.remaps k = if k = n then some ⟨r.key, 0, status, count⟩ else tabFind s.remaps k) ∧
        (∀ k, tabFind t.meshes k = if k = r.key then some m else tabFind s.meshes k) ∧
        (∀ i x, list[i]? = some x → readWord t.mem (lkey + 8 * i) = x) ∧ readLE t.mem (r.key + 0x20) 4 = m.leaves.length % 2 ^ 32 ∧
        readLE t.mem (r.key + 0x24) 4 = m.faces % 2 ^ 32 ∧ readLE t.mem (r.key + 0x28) 4 = m.roots.length % 2 ^ 32 ∧
        readLE t.mem (r.key + 0x3C) 4 = m.coords.length / m.dim % 2 ^ 32 ∧ readLE t.mem (r.key + 0x38) 4 = (mGen r.obj + 1) % 2 ^ 32 ∧
        readLE t.mem (r.key + 5) 1 = (if op = 0 then readLE s.mem (r.key + 5) 1 else 1 - mCur r.obj) ∧
        readLE t.mem (r.key + 7) 1 = (if op = 0 then c.engine else readLE s.mem (r.key + 7) 1) ∧ readLE t.mem (r.key + 2) 1 = 1 ∧
        ∀ a, a < r.key ∨ r.key + 0x40 ≤ a → a < lkey ∨ lkey + 8 * list.length ≤ a → a < skey ∨ skey + store ≤ a →
          readByte t.mem a = readByte s.mem a) ∧
    (∀ op r former status count, CommandClaimed s n q c op r.key former → op ∈ [2, 3] → meshRead s c = .ok (r, s) →
      meshBuild s c r = .ok (.nothing status count, s) → rangeHoldsPoison s c.agent (mStore r.obj) (mStoreLen r.obj) = false →
      completes fun t => CommandDone s t n q c (word status count) ∧
        t = { s with slots := t.slots, cmds := t.cmds, mem := t.mem, poison := t.poison } ∧ readByte t.mem (r.key + 2) = BitVec.ofNat 8 former ∧
        ∀ a, a ≠ r.key + 2 → readByte t.mem a = readByte s.mem a) ∧
    (∀ r former wkey, CommandClaimed s n q c 0x11 r.key former → s.poison = [] → trimBusy s n = false → partMigrates s c = false →
      partRead s c = .ok (r, s) → mGen r.mobj = c.gen → layoutOk r = true → SteadyWrite s c.agent r.va 512 r.key →
      let nc := r.mesh.leaves.length
      let np := pNpart r.obj
      AgentRead s c.agent (wordAt r.d 3).toNat (4 * nc) wkey →
      let given := (List.range nc).map fun i => readLE s.mem (wkey + 4 * i) 4
      let w := if given.all (· == 0) then given.map fun _ => 1 else given
      let sum := fun k => (w.take k).sum
      let cut := (List.range (np + 1)).map (pCut r.obj)
      let new := newCuts (prefixSums 0 w) np nc
      let balanced := former = 1 ∧ pGen r.obj = c.gen ∧ ∀ p < np,
        (sum (min (pCut r.obj (p + 1)) nc) - sum (min (pCut r.obj p) nc)) * np * 256 ≤ sum nc * (256 + wbits (wordAt r.d 4) 7 0)
      completes fun t => t = { s with slots := t.slots, cmds := t.cmds, mem := t.mem, sectors := t.sectors } ∧
        readByte t.mem (r.key + 2) = BitVec.ofNat 8 former ∧
        (balanced → CommandDone s t n q c (word 0 0) ∧ ∀ a, a ≠ r.key + 2 → readByte t.mem a = readByte s.mem a) ∧
        (¬ balanced →
          CommandDone s t n q c (word 0 (if pGen r.obj = c.gen then ((List.range nc).filter fun i => ownerOf cut i != ownerOf new i).length else nc)) ∧
          (∀ p x, new[p]? = some x → readLE t.mem (r.key + 0x84 + 4 * p) 4 = x % 2 ^ 32) ∧ readLE t.mem (r.key + 0x28) 4 = c.gen ∧
          readByte t.mem (r.key + 7) = 1 ∧
          ∀ a, a < r.key ∨ r.key + 0xC8 ≤ a → readByte t.mem a = readByte s.mem a)) ∧
    ∀ d b key former bkey pkey fkey gkey, CommandClaimed s n q c 0x21 key former → s.poison = [] → runDescs s c = .ok (d, b, key, s) →
      let blen := 16 * tNhead b * (2 ^ tB b + 1)
      let plen := tNhead b * tTcap b / 8
      SteadyWrite s c.agent (wordAt d 0).toNat 128 key → SteadyWrite s c.agent (tBuck b) blen bkey → SteadyWrite s c.agent (tPres b) plen pkey →
      SteadyWrite s c.agent (tPool b) (64 * tNblk b) fkey → SteadyWrite s c.agent (tTguard b) 8 gkey →
      RangesApart [(key, 128), (bkey, blen), (pkey, plen), (fkey, 64 * tNblk b), (gkey, 8)] →
      completes fun t => CommandDone s t n q c (word 0 (tNblk b)) ∧
        t = { s with slots := t.slots, cmds := t.cmds, mem := t.mem, sectors := t.sectors, tables := t.tables } ∧
        (∀ k, tabFind t.tables k = if k = key then some c.tag else tabFind s.tables k) ∧
        (∀ i < blen, readByte t.mem (bkey + i) = 0) ∧ (∀ i < plen, readByte t.mem (pkey + i) = 0) ∧ readWord t.mem gkey = 0 ∧
        (∀ i < tNblk b, readWord t.mem (fkey + 64 * i) = (if i + 1 = tNblk b then 0 else BitVec.ofNat 64 (tPool b + 64 * (i + 1))) ∧
          ∀ o, 8 ≤ o → o < 64 → readByte t.mem (fkey + 64 * i + o) = 0) ∧
        readLE t.mem (key + 0xB) 1 = c.engine ∧ readLE t.mem (key + 0xC) 2 = c.tag.toNat ∧ readLE t.mem (key + 0x3C) 4 = tNblk b ∧
        readLE t.mem (key + 0x40) 8 = tPool b ∧ readLE t.mem (key + 0x5C) 4 = 0 ∧ readLE t.mem (key + 2) 1 = 1 ∧
        ∀ a, a < key ∨ key + 0x60 ≤ a → a < bkey ∨ bkey + blen ≤ a → a < pkey ∨ pkey + plen ≤ a → a < fkey ∨ fkey + 64 * tNblk b ≤ a →
          a < gkey ∨ gkey + 8 ≤ a → readByte t.mem a = readByte s.mem a

/-- 16_mesh R371, 18_bucket R395 and R397, 15_barrier R354: REMAP_PUSH pushes the next remap task of a mesh command, KST_LINK_PUBLISH ends a KST with
its result when its link is published, and CONTINUATION_WALK makes the continuation of a task ready and goes on to the next record. The model's
choices: the link is checked before the row is written (log 30); a published link stands until a second KST_LINK_PUBLISH settles it (log 5); the walk
trusts OWNER (log 76); and it waits while the pool is full (log 86). -/
def Obligations.UnitProgress : Prop :=
  (∀ (s u v : State) (n key : Nat) (c : Cmd) (x : RemapPush) (d dq : List Word) (obj : List Byte), tabFind s.remaps n = some x → tabFind s.cmds n = some c →
    runDescs s c = .ok (d, obj, key, u) → x.field + 1 < mNfld obj →
    cmdWrite u c (mRmap obj + 64 * x.field) (bytesOfWords (remapDesc (wordAt d 0).toNat obj x.field)) = .ok v → readDesc v (mQueue obj) = .ok dq →
    let p := pushWith v (mQueue obj) dq (bytesOfWords (remapRecord obj x.field))
    p.1 < 2 → ∃ t, exec (.remapPush n) s = .next t ∧ tabFind t.remaps n = some { x with field := x.field + 1 } ∧ t.mem = p.2.mem ∧
      ∀ m, tabFind p.2.meshes x.mesh = some m →
        tabFind t.meshes x.mesh = some { m with pending := m.pending ++ [(mQueue obj, dTail dq + dStail dq)] }) ∧
  (∀ (s u v : State) (n next bits : Nat) (k : KLink) (b : List Byte) (plan : LinkPlan), tabFind s.klinks n = some k →
    (k.published = true → exec (.kstLinkPublish n) s = .next { s with klinks := tabDel s.klinks n }) ∧
    (k.published = false → oldestLink s n k = true → tabRead s k.agent k.table.toNat 128 = .ok (b, u) → tState b = 1 →
      linkChecked u k b = .ok (plan, next, bits, v) → plan.full b = false → linkMigrates s k b plan = false → readHolds s k.agent (tTguard b) 8 = [] →
      k.bytes ≠ [] → (tabFind (writeRow v k).klinks n).isSome = true → (5 ≤ tScope b → unacked (writeRow v k) (.slot k.slot) = false) →
      let r := publishLink (insertLink (writeRow v k) k b plan next bits) k b
      r.1 = true →
      exec (.kstLinkPublish n) s =
        .next (kstFinish { r.2 with klinks := tabSet r.2.klinks n k.done } k.slot k.dest (kstWord 0 k.bucket k.bits)))) ∧
  ∀ (s : State) (n key : Nat) (w : Walker) (x : Task),
    let ag : Agent := { slice := noSlice, asid := w.asid, level := w.level, tag := w.tag, cluster := w.cluster }
    let r := wordsAt s key 8
    let o := wordAt r 6
    tabFind s.walkers n = some w → w.fills = false → w.next.toNat % 4096 + 64 ≤ 4096 →
    (∃ h, checkAddr s ag w.next.toNat .read = .ok h ∧ h.key = key ∧ h.poison = none) → (∃ h, checkAddr s ag w.next.toNat .update = .ok h) →
    rangePoison s key 64 = none → linkOk o (wordAt r 7) = true → o.getLsbD 12 = false →
    (s.tasks.find? fun t => t.queue == wbits o 27 16 && t.pos % 2 ^ 32 == wbits o 63 32) = some x → x.tag = BitVec.ofNat 10 o.toNat →
    poolCount s x.die < 4096 →
    ∃ t, exec (.continuationWalk n) s = .next t ∧ t = { s with walkers := t.walkers, pool := t.pool } ∧
      (∀ m, tabFind t.walkers m =
        if m = n then (if wordAt r 7 = 0 then none else some { w with next := wordAt r 7 }) else tabFind s.walkers m) ∧
      t.pool = s.pool ++ [
        { die := x.die, kind := .cont (.task (wbits o 27 16) x.pos) (wordAt r 1) w.value w.poison (wordAt r 2) w.fut, prio := x.prio,
          source := .queue (wbits o 27 16), weight := x.weight, tag := x.tag, core := none, slot := none, start := [], blocked := false }]

/-- 11_page R290, R297, R298 and 03_encoding R62: TLBINV removes the entries that its operands name, PROBE writes the fields of a leaf, PGMIG puts a
migration command in flight; at user level each traps with cause 0x02. -/
def Obligations.PageInstructions : Prop :=
  ∀ (s : State) (d a : BitVec 6),
    (s.me.level = .user → ∀ i ∈ [Instr.tlbinv d a, .probe d a, .pgmig d a], exec i s = .next (trapWord s s.cur 0x02 (encode i))) ∧
    (s.me.level ≠ .user → (s.me.sreg d.toNat).pend = .ready → s.me.Clean [a.toNat] →
      let va := (s.me.val a.toNat).toNat
      let v := s.me.val d.toNat
      let hit := fun (x : BitVec 12) => v.getLsbD 13 || x == BitVec.ofNat 12 v.toNat
      (s.me.Clean [d.toNat] →
        (wbits v 63 14 = 0 → accessPending s s.cur = false → invalidationWaits s hit = false →
          ∃ t, exec (.tlbinv d a) s = .next t ∧ t = { s with slots := t.slots, tlb := t.tlb } ∧ (∀ r, r ≠ s.cur → t.slot r = s.slot r) ∧
            SystemKept s.me t.me ∧ RegsKept s.me t.me [] ∧ WentOn s.me t.me ∧
            ∀ e, e ∈ t.tlb ↔ e ∈ s.tlb ∧ ¬ ((v.getLsbD 13 = true ∨ e.asid = v.setWidth 12) ∧
              (v.getLsbD 12 = true ∨ e.page = va / pageBytes e.size * pageBytes e.size))) ∧
        (wbits v 63 14 ≠ 0 → exec (.tlbinv d a) s = .next (trapWord s s.cur 0x01 (encode (.tlbinv d a))))) ∧
      (inWindow s (clusterOf s.cur) va = true → Loads (.probe d a) s d.toNat 0x800 none) ∧
      (inWindow s (clusterOf s.cur) va = false →
        (2 ^ 56 ≤ va → Loads (.probe d a) s d.toNat 0 none) ∧
        (va < 2 ^ 56 →
          (∀ bad, walk s s.me.asid va = .unmapped bad → Loads (.probe d a) s d.toNat (if bad then 0x400 else 0) none) ∧
          ∀ level place e, walk s s.me.asid va = .leaf level place e → ∃ w : Word, Loads (.probe d a) s d.toNat w none ∧
            w.getLsbD 63 = true ∧ wbits w 62 60 = leafState e ∧ wbits w 59 56 = sizeCode level ∧ wbits w 55 52 = 0 ∧ wbits w 51 12 = wbits e 51 12 ∧
            wbits w 11 8 = 0 ∧ w.getLsbD 7 = e.getLsbD 11 ∧ w.getLsbD 6 = e.getLsbD 10 ∧ w.getLsbD 5 = e.getLsbD 8 ∧ w.getLsbD 4 = e.getLsbD 7 ∧
            w.getLsbD 3 = e.getLsbD 6 ∧ w.getLsbD 2 = e.getLsbD 5 ∧ wbits w 1 0 = 0)) ∧
      ∀ key, va % 8 = 0 → OwnRead s va 32 key →
        let desc := wordsAt s key 4
        (wbits (wordAt desc 1) 63 12 ≠ 0 → exec (.pgmig d a) s = .next (trap s s.cur 0x01 0 8)) ∧
        (wbits (wordAt desc 1) 63 12 = 0 → wordAt desc 3 ≠ 0 → exec (.pgmig d a) s = .next (trap s s.cur 0x01 0 0x18)) ∧
        (wbits (wordAt desc 1) 63 12 = 0 → wordAt desc 3 = 0 → s.me.cnt.copies < 255 →
          IssuesWork (.pgmig d a) s d.toNat (pushCmd s (cmdOf s s.cur .pgmig (s.me.val a.toNat) desc d.toNat false false 0))))

/-- 11_page R282, R285, R287, R288, R291: PAGE_WALK fills a TLB slice and sets A, and D for a write; MIGRATION_COMMIT moves the frame's bytes, points
the leaf to them and gives it the tier's STATE; FRAME_UNREADABLE_REPORT poisons the pages of the frame under a new error record. A walk acts for the
first user of its slice, whose tag the entry takes (log 101). -/
def Obligations.PageEvents : Prop :=
  (∀ (s : State) (slice asid place level : Nat) (va w : Word) (wr : Bool) (l : List TlbEntry) (ag : Agent) (h : Hit),
    let k := if wr then Access.write else .read
    let id : BitVec 12 := BitVec.ofNat 12 asid
    let size := sizeCode level
    let w1 := w ||| (if wr then 0xC00 else 0x400)
    slice < noSlice → asid < 4096 → va.toNat < 2 ^ 56 → ((sliceUsers s slice).find? fun u => u.asid == id) = some ag →
    inWindow s ag.cluster va.toNat = false → tlbFind s slice id va.toNat = none →
    walk s id va.toNat = .leaf level place w → tlbForAsid s slice id = some l → checkLeaf s ag va.toNat k size w = .ok h →
    ∃ t, exec (.pageWalk slice asid va wr) s = .next t ∧ readWord t.mem place = w1 ∧
      (⟨slice, id, va.toNat / pageBytes size * pageBytes size, size, w1, ag.tag, place⟩ : TlbEntry) ∈ t.tlb ∧
      ∀ a, a < place ∨ place + 8 ≤ a → readByte t.mem a = readByte s.mem a) ∧
  (∀ (s : State) (n : Nat) (m : Migration), s.Canonical → tabFind s.migrations n = some m → frameBusy s m = false → m.prefetch = false →
    tabFind s.cmds m.owner = none → readWord s.mem m.leafAt = m.leaf1 → m.dest % 4096 = 0 → m.dest < 2 ^ 52 →
    let src := keyOfPa s (leafPa m.leaf0)
    let dst := keyOfPa s m.dest
    let len := pageBytes m.size
    poisonUnheld s src dst len = none → deadTag s dst = none →
    (isHbm src = true ∨ isCxl s src = true) → (isHbm dst = true ∨ isCxl s dst = true) →
    (src + len ≤ dst ∨ dst + len ≤ src) → (m.leafAt + 8 ≤ dst ∨ dst + len ≤ m.leafAt) → (m.leafAt + 8 ≤ src ∨ src + len ≤ m.leafAt) →
    ∃ t, exec (.migrationCommit n true) s = .next t ∧ tabFind t.migrations n = none ∧ (∀ i < len, readByte t.mem (dst + i) = readByte s.mem (src + i)) ∧
      leafPa (readWord t.mem m.leafAt) = m.dest ∧ leafState (readWord t.mem m.leafAt) = (if isHbm dst then 1 else 2) ∧
      (∀ a, (a < dst ∨ dst + len ≤ a) → (a < m.leafAt ∨ m.leafAt + 8 ≤ a) → readByte t.mem a = readByte s.mem a) ∧
      t.tlb = (s.tlb.map fun e => { e with place := movedKey src dst len e.place }).filter fun e => e.place != m.leafAt) ∧
  ∀ (s : State) (pa : Nat), isHbm (keyOfPa s pa) = true →
    let r := recordEvent s (memoryEvent 12 (keyOfPa s pa / Config.stackBytes) pa)
    exec (.frameUnreadableReport pa) s =
      .next (poisonPages r.2 (fun a n => decide (a ≤ keyOfPa s pa) && decide (keyOfPa s pa < a + n)) (BitVec.ofNat 12 r.1))

/-- 12_kernel R302; 13_group R313 to R320: KLAUNCH, VFORK, VJOIN, EFORK, ERDV, GEXIT and GID in a leaf group, and what each gives where it does not
apply. -/
def Obligations.GroupInstructions : Prop :=
  ∀ (s : State) (d a : BitVec 6),
    let x := s.me
    let sa := x.val a.toNat
    -- KLAUNCH
    (∀ key, (x.sreg d.toNat).pend = .ready → x.Clean [a.toNat] → sa.toNat % 64 = 0 → OwnRead s sa.toNat 256 key → accessPending s s.cur = false →
      let r := wordsAt s key 32
      (∀ off, kernelBadField r = some off → exec (.klaunch d a) s = .next (trap s s.cur 0x01 0 (BitVec.ofNat 64 off))) ∧
      (kernelBadField r = none → x.prio.toNat < kPrio r → exec (.klaunch d a) s = .next (trapWord s s.cur 0x02 (encode (.klaunch d a)))) ∧
      (kernelBadField r = none → kPrio r ≤ x.prio.toNat →
        (∀ v, launchRefusal s r x.own.work = some v → Loads (.klaunch d a) s d.toNat v none) ∧
        (launchRefusal s r x.own.work = none →
          (freeKernelId s = none → Loads (.klaunch d a) s d.toNat (-1) none) ∧
          ∀ k, freeKernelId s = some k →
            Yields (.klaunch d a) s { s with kernels := tabSet s.kernels k (newKernel s x sa r) } d.toNat (BitVec.ofNat 64 k)))) ∧
    -- VFORK
    (x.st = .run → x.mode = .context → x.Clean [a.toNat] → (∀ r < 64, (x.sreg r).pend = .ready) → sa.toNat % 4 = 0 → vectorIdle s s.cur = true →
      accessPending s s.cur = false →
      (x.laneCount < 2 → Loads (.vfork d a) s d.toNat (-2) none) ∧
      (2 ≤ x.laneCount → (∀ k i, x.ctx.work ≠ .leaf k i) → Loads (.vfork d a) s d.toNat (-3) none) ∧
      (2 ≤ x.laneCount → ∀ kn i kr, x.ctx.work = .leaf kn i → tabFind s.kernels kn = some kr →
        (freeKernelCsa s kn = none → Loads (.vfork d a) s d.toNat (-3) none) ∧
        ∀ c, freeKernelCsa s kn = some c →
          (freeSlotAmong s (slotsOfCore (coreOf s.cur)) = none → Loads (.vfork d a) s d.toNat (-1) none) ∧
          ∀ child, freeSlotAmong s (slotsOfCore (coreOf s.cur)) = some child →
            ∃ t, exec (.vfork d a) s = .next t ∧ (d ≠ 0 → t.me.sreg d.toNat = ⟨BitVec.ofNat 64 child, none, .ready⟩) ∧ WentOn x t.me ∧
              RegsKept x t.me [d.toNat] ∧ t.me.laneCount = x.laneCount / 2 ∧ t.me.laneBase = x.laneBase ∧
              (let y := t.slot child
               y.st = .run ∧ y.mode = .context ∧ y.pc = sa ∧ y.level = .user ∧ y.laneBase = x.laneBase + x.laneCount / 2 ∧
                y.laneCount = x.laneCount / 2 ∧ y.vcfg = x.vcfg ∧ y.frm = x.frm ∧ y.asid = x.asid ∧ y.shtag = x.shtag ∧ y.prio = x.prio ∧
                y.csaBase = poolCsa (kCsaPool kr.words) c ∧ y.loops = [] ∧
                y.sreg 63 = ⟨poolStack (kStack kr.words) (kSstride kr.words) c, none, .ready⟩ ∧ ∀ r, r < 63 → y.sreg r = x.bank0 r) ∧
              ∀ r, r ≠ s.cur → r ≠ child → t.slot r = s.slot r)) ∧
    -- VJOIN, the parent's form and the child's
    (x.mode = .context → x.Clean [a.toNat] → a ≠ 0 →
      ((∀ r ∈ x.ctx.children, r.joined = false → BitVec.ofNat 64 r.slot ≠ sa) → exec (.vjoin a) s = .next (trap s s.cur 0x01 0 sa)) ∧
      ∀ r, (x.ctx.children.find? fun r => BitVec.ofNat 64 r.slot == sa && !r.joined) = some r →
        (r.ended = false ∨ vectorIdle s s.cur = false → Retries (.vjoin a) s) ∧
        (r.ended = true → vectorIdle s s.cur = true → (∀ c ∈ x.ctx.children, c.joined = false ∧ (c.laneBase = r.laneBase → c = r)) →
          ∃ t, exec (.vjoin a) s = .next t ∧ WentOn x t.me ∧ t.me.laneBase = x.laneBase ∧ t.me.fflags = x.fflags ||| r.fflags ∧
            (r.laneBase = x.laneBase + x.laneCount → t.me.laneCount = x.laneCount + r.laneCount ∧
              t.me.ctx.children = x.ctx.children.filter fun c => c.laneBase != r.laneBase) ∧
            (r.laneBase ≠ x.laneBase + x.laneCount → t.me.laneCount = x.laneCount ∧
              t.me.ctx.children = x.ctx.children.map fun c => if c.laneBase = r.laneBase then { c with joined := true } else c) ∧
            RegsKept x t.me [] ∧ ∀ n, n ≠ s.cur → t.slot n = s.slot n)) ∧
    (x.mode = .context → x.ctx.sibling = false → x.ctx.children = [] → x.ctx.siblings = 0 →
      (x.ctx.parent = none → exec (.vjoin 0) s = .next (trapWord s s.cur 0x01 (encode (.vjoin 0)))) ∧
      (x.ctx.parent.isSome = true → x.ctx.csa.isSome = true →
        (slotDrained s s.cur = true → ∃ t, exec (.vjoin 0) s = .next t ∧ t = endChild s s.cur ∧ t.me.st = .free) ∧
        (slotDrained s s.cur = false → Retries (.vjoin 0) s))) ∧
    -- EFORK and ERDV
    (∀ (n : BitVec 6) (key k i : Nat), x.mode = .context → 1 ≤ n.toNat → n.toNat ≤ 3 → x.ctx.work = .leaf k i → x.ctx.sibling = false →
      x.ctx.siblings + n.toNat ≤ 3 → (∀ r < 64, (x.sreg r).pend = .ready) → x.Clean [a.toNat] → sa.toNat % 8 = 0 →
      OwnRead s sa.toNat (8 * n.toNat) key → accessPending s s.cur = false →
      let es := wordsAt s key n.toNat
      (∀ j, (es.findIdx? fun e => decide (e.toNat % 4 ≠ 0)) = some j → exec (.efork a n) s = .next (trap s s.cur 0x01 0 (BitVec.ofNat 64 j))) ∧
      ((∀ e ∈ es, e.toNat % 4 = 0) →
        let u := es.foldl (fun t e => forkSibling t s.cur k i e) s
        let y := u.slot s.cur
        exec (.efork a n) s = .next (u.setSlot s.cur ({ y with ctx := { y.ctx with siblings := y.ctx.siblings + n.toNat } } : Slot).complete))) ∧
    (x.mode = .context → x.ctx.sibling = true →
      (slotDrained s s.cur = true → ∃ t, exec .erdv s = .next t ∧ t = endSibling s s.cur ∧ t.me.st = .free) ∧
      (slotDrained s s.cur = false → Retries .erdv s)) ∧
    (x.mode = .context → x.ctx.sibling = false → (x.ctx.siblings ≠ 0 → Retries .erdv s) ∧
      (x.ctx.siblings = 0 → ∃ t, exec .erdv s = .next t ∧ OnlySlot s t s.cur ∧ WentOn x t.me ∧ RegsKept x t.me [] ∧
        SystemKept { x with fflags := x.fflags ||| x.ctx.sibFlags, ctx := { x.ctx with sibFlags := 0 } } t.me)) ∧
    -- GEXIT and GID
    (x.mode = .context →
      ((∀ k i, x.ctx.work ≠ .leaf k i) →
        exec .gexit s = .next (trapWord s s.cur 0x01 (encode .gexit)) ∧
        ∀ n : BitVec 6, n.toNat < 8 → (x.sreg d.toNat).pend = .ready → Loads (.gid d n) s d.toNat (-1) none) ∧
      ∀ k i, x.ctx.work = .leaf k i →
        (let u := (endLeaf s k i).stallSlot s.cur .draining
         (unitsPending s s.cur = false → countedQueued s s.cur = false →
           ∃ t, exec .gexit s = .next t ∧ t = endMember u s.cur ∧ t.me.st = .free) ∧
         (unitsPending s s.cur = true ∨ countedQueued s s.cur = true → exec .gexit s = .next u)) ∧
        ∀ (n : BitVec 6) (kr : Kernel), n.toNat < 8 → (x.sreg d.toNat).pend = .ready → tabFind s.kernels k = some kr →
          Loads (.gid d n) s d.toNat
            (if kNlev kr.words ≤ n.toNat then -1
             else if kDomain kr.words n.toNat = 0 then BitVec.ofNat 64 (kExtent kr.words n.toNat)
             else BitVec.ofNat 64 (groupIndex kr.words i n.toNat % kExtent kr.words n.toNat)) none) ∧
    ∀ n : BitVec 6, 8 ≤ n.toNat → exec (.gid d n) s = .next (trapWord s s.cur 0x01 (encode (.gid d n)))

/-- 14_queue R325, R330, R339 to R341: TQPUSH and TQPUSHN push a checked record and differ only in what a push that fails comes to; TDONE ends a worker
of a task, TQSTAT reads a queue's status; DOORBELL tells a queue unit of records, and TASK_TAKE takes the next one. -/
def Obligations.TaskInstructions : Prop :=
  ∀ (s : State) (d a b : BitVec 6),
    let x := s.me
    let n := (x.val a.toNat).toNat
    (∀ key, (x.sreg d.toNat).pend = .ready → x.Clean [a.toNat, b.toNat] → n ≤ 4095 → (x.val b.toNat).toNat % 64 = 0 →
      OwnRead s (x.val b.toNat).toNat 64 key → accessPending s s.cur = false →
      let bs := readBytes s.mem key 64
      (∀ off, recordBadField (wordsAt s key 8) = some off →
        ∀ i ∈ [Instr.tqpush a b, .tqpushn d a b], exec i s = .next (trap s s.cur 0x01 0 (BitVec.ofNat 64 off))) ∧
      (recordBadField (wordsAt s key 8) = none →
        let r := pushRecord s s.cur n bs
        exec (.tqpushn d a b) s = .next (r.2.finish s.cur d.toNat (BitVec.ofNat 64 r.1) none) ∧
        (r.1 < 2 → exec (.tqpush a b) s = .next (r.2.complete s.cur)) ∧
        (r.1 = 2 → exec (.tqpush a b) s = .next (trapWord r.2 s.cur 0x14 (encode (.tqpush a b)))) ∧
        (r.1 = 3 → exec (.tqpush a b) s = .next (trapWord r.2 s.cur 0x0A (encode (.tqpush a b)))) ∧
        ∀ dq, readDesc s n = .ok dq → dDev dq = true → dEn dq = true → (x.level = .user → qAsid s n = x.asid) →
          ∀ va pos, (dTail dq < dHead dq + dNent dq ∧ dStail dq = dShead dq ∧ va = dBase dq + 64 * (dTail dq % dNent dq) ∧ pos = 0 ∨
              (dNent dq + dHead dq ≤ dTail dq ∨ dStail dq ≠ dShead dq) ∧ 0 < dSnent dq ∧ dStail dq < dShead dq + dSnent dq ∧ va = dSpill dq + 64 * (dStail dq % dSnent dq) ∧ pos = 1) →
            probeRange s (qAgent s n) .write va 64 = [] → descLocked s n (if pos = 0 then 0x18 else 0x38) = none →
            r = (pos, wakeQueue (descPut (vWrite s (qAgent s n) va bs none) n (if pos = 0 then 0x18 else 0x38)
              ((if pos = 0 then dTail dq else dStail dq) + 1)) n))) ∧
    (∀ k p, x.mode = .context → x.Clean [a.toNat] → x.ctx.work = .task k p → x.ctx.children = [] → x.ctx.siblings = 0 →
      (slotDrained s s.cur = true → exec (.tdone a) s = .next (workerDone (releaseSlot (freeQueueCsa s x) s.cur) k p (x.val a.toNat))) ∧
      (slotDrained s s.cur = false → Retries (.tdone a) s)) ∧
    (x.mode = .context → x.Clean [a.toNat] → x.ctx.work = .none → exec (.tdone a) s = .next (trapWord s s.cur 0x01 (encode (.tdone a)))) ∧
    ((x.sreg d.toNat).pend = .ready → x.Clean [a.toNat] →
      (4095 < n → exec (.tqstat d a) s = .next (trapWord s s.cur 0x01 (encode (.tqstat d a)))) ∧
      (n ≤ 4095 → ∀ dq, readDesc s n = .ok dq → ∃ w : Word, Loads (.tqstat d a) s d.toNat w none ∧
        (let active := (s.tasks.filter fun t => t.queue == n).length
         active < 128 → w.getLsbD 63 = dEn dq ∧ w.getLsbD 62 = dDev dq ∧ wbits w 56 40 = min (2 ^ 17 - 1) (dStail dq - dShead dq) ∧
           wbits w 39 23 = min (2 ^ 17 - 1) (max (dTail dq) (s.queue n).notified - dHead dq) ∧ wbits w 22 16 = active ∧ wbits w 3 0 = dPrio dq))) ∧
    (∀ (k : Nat) (v : Word) (outside : Bool) (dq : List Word), k < 4096 → s.mgmt.capt = false → s.mgmt.rerun = false → readDesc s k = .ok dq →
      (dDev dq = false → (outside = true → qHostOk s k = true) → (v - BitVec.ofNat 64 (dHead dq)).toNat ≤ dNent dq →
        exec (.doorbell k 0 8 v outside) s =
          .next (wakeQueue (s.setQueue k { s.queue k with notified := max (s.queue k).notified v.toNat }) k)) ∧
      (dDev dq = true → exec (.doorbell k 0 8 v outside) s = .next (wakeQueue (countErr s k) k))) ∧
    ∀ (k va : Nat) (dq : List Word) (spill : Bool), (s.queue k).waits = false → started s = true → frozenUnit s 16 k = false → (16, k) ∉ s.quarUnits →
      readDesc s k = .ok dq → nextRecord s k dq = some (spill, va) → dEn dq = true →
      (∀ t ∈ s.tasks, t.queue = k → dHead dq + dShead dq ≤ t.pos + 64) → poolCount s (dPool dq) < 3072 →
      exec (.taskTake k) s = .next (takeAt s k dq spill va)

/-- 10_context R252, R264, R272, R273, R275 and 19_shroud R407, R421: CTXSV posts a request, CTXLD loads an image, IDLE frees the handler's slot,
SHKILL kills a tag and writes its record; below the level they need they trap with cause 0x02, and CTXLD and IDLE outside a handler with 0x01.
That CTXLD answers 1 for an image that R309 or R316 ties to another slot or core is the model's choice (log 103), and so is that a kill which strikes a
unit held by FREEZE waits (log 72). -/
def Obligations.ContextInstructions : Prop :=
  ∀ (s : State) (d a : BitVec 6),
    let x := s.me
    let v := x.val a.toNat
    (x.level = .user → ∀ i ∈ [Instr.ctxsv d a, .ctxld d a, .idle, .shkill a], exec i s = .next (trapWord s s.cur 0x02 (encode i))) ∧
    (x.level ≠ .user → x.mode = .context → ∀ i ∈ [Instr.ctxld d a, .idle], exec i s = .next (trapWord s s.cur 0x01 (encode i))) ∧
    (x.level ≠ .user → (x.sreg d.toNat).pend = .ready → x.Clean [a.toNat] →
      -- CTXSV
      ((8191 < v.toNat ∨ slotQuarantined s v.toNat = true) → Loads (.ctxsv d a) s d.toNat 3 none) ∧
      (v.toNat ≤ 8191 → slotQuarantined s v.toNat = false →
        ((s.slot v.toNat).st = .free → Loads (.ctxsv d a) s d.toNat 1 none) ∧
        ((s.slot v.toNat).st ≠ .free →
          ((s.slot v.toNat).request = none →
            Yields (.ctxsv d a) s (s.setSlot v.toNat { s.slot v.toNat with request := some ⟨x.prio, true, s.cur⟩ }) d.toNat 0) ∧
          ∀ o, (s.slot v.toNat).request = some o →
            (o.prio.toNat < x.prio.toNat →
              Yields (.ctxsv d a) s (s.setSlot v.toNat { s.slot v.toNat with request := some ⟨x.prio, true, s.cur⟩ }) d.toNat 2) ∧
            (x.prio.toNat ≤ o.prio.toNat → Loads (.ctxsv d a) s d.toNat 2 none))) ∧
      -- SHKILL
      ((v = 0 ∨ wbits v 63 10 ≠ 0) → exec (.shkill a) s = .next (trap s s.cur 0x01 0 v)) ∧
      (v ≠ 0 → wbits v 63 10 = 0 → killFrozen s (v.setWidth 10) = true → Retries (.shkill a) s) ∧
      (v ≠ 0 → wbits v 63 10 = 0 → killFrozen s (v.setWidth 10) = false →
        let r := killTag s (v.setWidth 10)
        let u := (recordEvent r.2 (slotEvent 0x08 0 s.cur x.pc (victimWord (v.setWidth 10) x.asid r.1) 0)).2
        ((u.slot s.cur).st ≠ .free → exec (.shkill a) s = .next (u.complete s.cur)) ∧ ((u.slot s.cur).st = .free → exec (.shkill a) s = .next u)) ∧
      -- CTXLD and IDLE
      (x.mode = .handler → storePending s s.cur = false → vectorIdle s s.cur = true → tilesIdle s s.cur = true →
        (x.OutsideRep → ∃ t, exec .idle s = .next t ∧ t = freeHandler s s.cur ∧ t.me.st = .free) ∧
        (let ag := scalarAgent s s.cur
         let key := keyOfVa s ag v.toNat .read
         let own := csaKey s s.cur == some key
         let im := if own then none else s.images.find? fun i => i.key == key
         let l := if own then (x.laneBase, x.laneCount) else ctxldLanes s s.cur im
         let at_ := fun u : State => u.setSlot s.cur { u.slot s.cur with laneBase := l.1, laneCount := l.2 }
         (∀ c aux, load (at_ s) s.cur ag v = .error (some (c, aux)) → Loads (.ctxld d a) s d.toNat (BitVec.ofNat 64 c) none) ∧
         (own = true → Loadable s s.cur ag v key →
           ∃ t, exec (.ctxld d a) s = .next t ∧ Resumed s t.me key ∧ ∀ n, n ≠ s.cur → t.slot n = s.slot n) ∧
         ∀ u, own = false → load (at_ s) s.cur ag v = .ok u →
           (im.map (imageAdmits · s.cur) = some false → Loads (.ctxld d a) s d.toNat 1 none) ∧
           ∀ w, im.map (imageAdmits · s.cur) ≠ some false → load (at_ (leaveServed s s.cur)) s.cur ag v = .ok w →
             exec (.ctxld d a) s = .next (compete (adoptImage (leaveRemap w s.cur) s.cur key) s.cur))))

/-- 04_sequencer R80; 10_context R261, R262, R264; 13_group R312: SLOT_STALL_RELEASE, FIRST_STAGE_SAVE and PREEMPTION_LANDING: a stall ends when its
condition has cleared, a trap that a queue entry has raised is taken once the older entries have completed, and a requested slot saves its context
with cause 0x21 at a landing point. A context of an ending leaf group takes no trap: it ends. -/
def Obligations.SlotEvents : Prop :=
  ∀ (s : State) (q : Nat),
    let x := s.slot q
    (∀ r, x.st = .stall (.register r) →
      ((x.sreg r).pend = .ready → exec (.slotStallRelease q) s = .next (s.setSlot q { x with st := .run })) ∧
      ((x.sreg r).pend ≠ .ready → exec (.slotStallRelease q) s = .next s)) ∧
    (∀ key r, x.st ≠ .free → x.mode = .context → x.ctx.ending = false → x.due = some r → (r.queue = false ∨ olderLeft s q x.dueOrd = false) →
      SaveArea s q key →
      ∃ t, exec (.firstStageSave q) s = .next t ∧ EntersSaved s t q key r ∧ readWord t.mem (key + 0x10) = x.pc ∧
        ∀ a, a < key + 0x10 ∨ key + 0x1000 ≤ a → readByte t.mem a = readByte s.mem a) ∧
    (∀ r, x.st ≠ .free → x.mode = .context → x.due = some r →
      (x.ctx.ending = false → r.queue = true → olderLeft s q x.dueOrd = true → exec (.firstStageSave q) s = .next s) ∧
      (x.ctx.ending = true →
        (unitsPending s q = false → ∃ t, exec (.firstStageSave q) s = .next t ∧ t = endMember s q ∧ (t.slot q).st = .free) ∧
        (unitsPending s q = true → exec (.firstStageSave q) s = .next s))) ∧
    (∀ key o, x.st ≠ .free → x.st ≠ .stall .draining → x.mode = .context → x.due = none → (x.loops = [] ∨ x.land = true) → x.ctx.ending = false → x.request = some o →
      let u := s.setSlot q { x with request := none }
      SaveArea u q key →
      let aux : Word := BitVec.ofNat 64 (o.prio.toNat + if o.fromCtxsv then 16 + o.issuer * 2 ^ 5 else 0)
      ∃ t, exec (.preemptionLanding q) s = .next t ∧ EntersSaved u t q key ⟨0x21, x.pc, 0, aux, false, false⟩ ∧
        readWord t.mem (key + 0x10) = x.pc) ∧
    (x.st ≠ .free → x.st ≠ .stall .draining → x.mode = .context → x.due = none → (x.loops = [] ∨ x.land = true) → x.ctx.ending = true → unitsPending s q = false →
      ∃ t, exec (.preemptionLanding q) s = .next t ∧ t = endMember s q ∧ (t.slot q).st = .free) ∧
    (x.loops ≠ [] → x.land = false → exec (.preemptionLanding q) s = .next s)

/-- 19_shroud R418 to R420 and 08_stream R223: RECHECK_EXECUTION retires the oldest recheck on agreement, raises the score of the lane group that a
third one outvotes, and leaves a recheck unresolved that has no majority; how the event tells the votes is the model's (log 33). RECHECK_AGE_EXPIRY
ages it, SUSPECT_SCORE_DECAY lowers every score by one, LANE_GROUP_REMAP presents the healthy groups; scratchpad arbitration changes only when banks
serve. -/
def Obligations.CoreEvents : Prop :=
  (∀ (s : State) (k : Nat) (r : Recheck) (rs : List Recheck), (s.core k).rechecks = r :: rs →
    (∃ t, exec (.recheckAgeExpiry k) s = .next t ∧ OnlyCores s t ∧ t.core k = { s.core k with rechecks := { r with aged := true } :: rs } ∧
      ∀ j, j ≠ k → t.core j = s.core j) ∧
    ((r.aged = true ∨ issueWinner s k 0 = none) →
      let lands := fun (x : Slot) => (match r.dest with | some (d, v) => x.landAt d v.val v.poison | none => x).addFlags r.flags
      (∀ gs : List Nat, ∃ t, exec (.recheckExecution k ⟨0, gs, []⟩) s = .next t ∧ t = { s with slots := t.slots, cores := t.cores } ∧ t.core k = { s.core k with rechecks := rs } ∧
        t.slot r.slot = lands (s.slot r.slot) ∧ (∀ j, j ≠ k → t.core j = s.core j) ∧ ∀ q, q ≠ r.slot → t.slot q = s.slot q) ∧
      (∀ g1 g2 g3 : Nat, [g1, g2, g3].Nodup → (∀ g ∈ [g1, g2, g3], g ∈ healthyGroups (s.core k)) →
        ∀ (vote g : Nat), vote = 1 ∧ g = g1 ∨ vote = 2 ∧ g = g2 → (s.core k).scoreOf g + 32 < 128 →
          ∃ t, exec (.recheckExecution k ⟨vote, [g1, g2, g3], []⟩) s = .next t ∧ t = { s with slots := t.slots, cores := t.cores } ∧
            t.core k = { s.core k with rechecks := rs, score := tabSet (s.core k).score g ((s.core k).scoreOf g + 32) } ∧
            t.slot r.slot = lands (s.slot r.slot)) ∧
      ∀ (vote : Nat) (gs : List Nat), vote ≠ 0 → gs.Nodup → (∀ g ∈ gs, g ∈ healthyGroups (s.core k)) → 3 ≤ vote ∧ gs.length ≤ 3 ∨ gs.length < 3 →
        exec (.recheckExecution k ⟨vote, gs, []⟩) s = .next (recheckUnresolved s k r gs))) ∧
  (∀ s : State, ∃ t, exec .suspectScoreDecay s = .next t ∧ OnlyCores s t ∧
    ∀ k g, tabGet (t.core k).score 0 g = tabGet (s.core k).score 0 g - 1 ∧ t.core k = { s.core k with score := (t.core k).score }) ∧
  (∀ (s : State) (k : Nat), (s.core k).remapDue = true → (s.core k).remapWait = [] →
    let healthy := healthyGroups (s.core k)
    let n := powerBelow healthy.length
    ∃ t, exec (.laneGroupRemap k) s = .next t ∧ (t.core k).laneMap = healthy.take n ∧ (t.core k).remapDue = false ∧
      (∀ q, coreOf q = k → (t.slot q).vowner = 0 ∧ (t.slot q).vdirty = 0 ∧ (t.slot q).vlcap = min (s.slot q).vlcap (2048 * n) ∧
        (t.slot q).vl ≤ (t.slot q).vlmax (t.slot q).vcfg) ∧
      (∀ q, coreOf q ≠ k → t.slot q = s.slot q) ∧ ∀ j, j ≠ k → t.core j = s.core j) ∧
  ∀ (s : State) (k : Nat), exec (.scratchpadBankArbitration k) s = .next s

/-- 12_kernel R303 and R306, 13_group R309 and R312, 14_queue R333, R335 and R336: LEAF_GROUP_CREATE, LEAF_GROUP_ENDED, KERNEL_COMPLETE and
KERNEL_ABORTED, READY_POOL_DISPATCH of the one entry of a pool, and AGING. -/
def Obligations.PoolEvents : Prop :=
  (∀ (s : State) (k : Nat) (x : Kernel), tabFind s.kernels k = some x →
    (∀ c (u : State), x.st = .pending ∨ x.st = .running → gangLevel x.words = none → createLeaf s k false none = some (c, u) →
      poolCount s (dieOfCore c) < 3072 → ∃ t, exec (.leafGroupCreate k) s = .next t ∧ t = { u with pool := t.pool } ∧
        t.pool = u.pool ++ [
          { die := dieOfCore c, kind := .leaf k x.cursor, prio := kPrio x.words, source := .kernel k, weight := 16, tag := x.tag, core := some c,
            slot := none, start := [], blocked := false }]) ∧
    (∀ g u, x.st = .pending ∨ x.st = .running → gangLevel x.words = some g → gangCreate s k x g = some u → exec (.leafGroupCreate k) s = .next u) ∧
    (∀ i l, (x.leaves.find? fun l => l.index == i) = some l → l.st = .ending → leafEmpty s k i = true →
      exec (.leafGroupEnded k i) s =
        .next { s with kernels := tabSet s.kernels k { x with leaves := x.leaves.filter fun l => l.index != i } }) ∧
    (x.leaves = [] → childKernels s k = [] → endWaits s x = false →
      let ends := fun (status : Word) => deviceFill { s with kernels := orphanChildren (tabDel s.kernels k) k, sent := passWrites s.sent k x } (deviceAgent x.asid x.tag) (kDone x.words) status
      (x.st = .draining → kernelOps s k = false → exec (.kernelComplete k) s = .next (ends 0)) ∧
      (x.st = .aborting → exec (.kernelAborted k) s = .next (ends 2)))) ∧
  (∀ (s : State) (e : PoolEntry) (n p : Nat) (x : Task) (q : Nat), started s = true → frozenUnit s 10 e.die = false → e.die < 8 → s.pool = [e] →
    s.mgmt.capt = false → s.mgmt.rerun = false → s.mgmt.launches = [] → s.shares = [] → e.blocked = false → e.kind = .task n p → e.source = .queue n → findTask s n p = some x →
    recType x.words = 1 → entryPlace s none e = .slot q →
    ∃ v : State, exec (.readyPoolDispatch e.die) s = .next (admitTop (startEntry { v with pool := [] } e q)) ∧ v = { s with shares := v.shares }) ∧
  ∀ (s : State) (die n : Nat) (e : Nat × PoolEntry), (entriesOf s die)[n]? = some e →
    ((replayEntry s).isSome = false → ageLimitOf s die ≠ 0 → e.2.prio < 15 → exec (.aging die n) s = .next { s with pool := s.pool.set e.1 { e.2 with prio := e.2.prio + 1 } }) ∧
    (ageLimitOf s die = 0 → exec (.aging die n) s = .next s)

/-- 19_shroud R405, R407, R409, R410, R412 to R415; 20_link R422 to R426, R434; 11_page R287: SHROUD_KILL, UNCORRECTABLE_ERROR, ERROR_RECORD_FREE,
poison and failures of CXL, error responses, and host accesses. -/
def Obligations.ErrorEvents : Prop :=
  (∀ (s : State) (tag : STag), tag ≠ 0 →
    let r := killTag s tag
    let e := portEvent 0x03 5 0 0 0 false
    (killFrozen s tag = false → exec (.shroudKill tag.toNat) s = .next (recordEvent r.2 { e with victim := victimWord tag 0 r.1 }).2) ∧
    (killFrozen s tag = true → exec (.shroudKill tag.toNat) s = .next { s with mgmt := { s.mgmt with kills := s.mgmt.kills ++ [(tag, e)] } })) ∧
  (∀ s : State, exec (.shroudKill 0) s = .next s) ∧
  (∀ (s : State) (k n : Nat), k < 1024 → n < 16384 →
    let r := recorded s 0x01 4 k 0 (padKeyOf k (64 * n)) true
    exec (.uncorrectableError 4 k n) s = .next (r.2.poisoned (padKeyOf k (64 * n)) r.1)) ∧
  (∀ (s : State) (q n : Nat), q < 8192 → 1 ≤ n → n < 64 → (s.slot q).st ≠ .free →
    let r := recordEvent s { slotEvent 0x02 0 q (s.slot q).pc 0 0 with held := true }
    ∃ t, exec (.uncorrectableError 1 q n) s = .next t ∧ t = { r.2 with slots := t.slots } ∧ (∀ m, m ≠ q → t.slot m = r.2.slot m) ∧
      (t.slot q).sreg n = { (r.2.slot q).sreg n with poison := lowerTag (some (BitVec.ofNat 12 r.1)) ((r.2.slot q).poisonOf n) }) ∧
  (∀ (s : State) (n : Nat), 3 ≤ s.mgmt.phase → 1 ≤ n → n ≤ 4095 → ∃ t, exec (.errorRecordFree n) s = .next t ∧ t = { s with errors := t.errors } ∧
    ∀ m, tabFind t.errors m = if m = n then (tabFind s.errors n).map (fun r => { r with hdr := r.hdr &&& 0x3FFFFFFFFFFFFFFF }) else tabFind s.errors m) ∧
  (∀ (s : State) (pa port : Nat), s.mgmt.rerun = false → s.mgmt.capt = false → isCxl s (keyOfPa s pa) = true → port ∈ [1, 2, 4, 5] → cxlHolds s port (keyOfPa s pa) = true →
    let r := recorded s 0x0E 13 port 0 (pa / 64 * 64) true
    exec (.cxlPoisonReceived pa) s = .next (r.2.poisoned (keyOfPa s pa) r.1)) ∧
  (∀ (s : State) (port : Nat), tabFind s.deadPorts (cxlIndex port) = none →
    let r := recorded s 0x01 13 port 0 0 true
    let t : PTag := BitVec.ofNat 12 r.1
    let u := { r.2 with deadPorts := tabSet r.2.deadPorts (cxlIndex port) t, quarUnits := r.2.quarUnits ++ [(13, port)] }
    let v := poisonPages u (fun a n => (List.range (n / 256)).any fun i => cxlHolds s port (a + 256 * i)) t
    let left := { v with stores := v.stores.filter fun a => !cxlHolds s port a.key }
    ((∀ a ∈ v.stores, cxlHolds s port a.key = false) → exec (.cxlPortFailure port) s = .next v) ∧
    ∀ tag : STag, tag ≠ 0 → (∃ a ∈ v.stores, cxlHolds s port a.key = true) → (∀ a ∈ v.stores, cxlHolds s port a.key = true → a.tag = tag) →
      exec (.cxlPortFailure port) s = .next (failTag left tag (portEvent 0x03 13 port 0 0 false))) ∧
  (∀ (s : State) (l pa tag : Nat), s.mgmt.rerun = false → isRemote (keyOfPa s pa) = true →
    (let r := recorded s 0x0F 14 l 0 pa true
     exec (.errorResponseReceived l pa false tag) s =
      .next { r.2 with poison := tabPut r.2.poison (keyOfPa s pa / 64) (some (BitVec.ofNat 12 r.1)) }) ∧
    (tag % 1024 ≠ 0 → killFrozen s (BitVec.ofNat 10 tag) = false → let r := killTag s (BitVec.ofNat 10 tag)
     exec (.errorResponseReceived l pa true tag) s =
      .next (recordEvent r.2 { portEvent 0x0F 14 l 0 pa false with victim := victimWord (BitVec.ofNat 10 tag) 0 r.1 }).2)) ∧
  (∀ (s : State) (port : Nat), ∃ t, exec (.hostLinkDown port) s = .next t ∧ t = { s with hostDown := t.hostDown, msix := t.msix } ∧
    (∀ p, p ∈ t.hostDown ↔ p = port ∨ p ∈ s.hostDown) ∧ ∀ m, m ∈ t.msix ↔ m ∈ s.msix ∧ m.1 ≠ port) ∧
  ∀ (s : State) (port off size : Nat) (v : List Byte), 3 ≤ s.mgmt.phase → port ∉ s.hostDown → 1 ≤ size → v ≠ [] →
    let answers := fun (u : State) (o : Output) => Host.Outcome.next (φ := Fault) (ρ := Refusal) { u with out := u.out ++ [o] }
    let refused := fun (bar : Nat) => answers (recorded s 0x0F 13 port bar off false).2 (.unsupported port)
    let source := if port = 0 then 0 else 1
    (port ≠ 0 → port ≠ 3 → ∀ bar wr ep, exec (.hostInboundAccess port bar off size wr v ep) s =
      answers (recorded s 0x0F 13 port 0 off false).2 (.cxlError port)) ∧
    (port = 0 ∨ port = 3 →
      (s.mgmt.rerun = true → ∀ bar wr ep, exec (.hostInboundAccess port bar off size wr v ep) s = refused bar) ∧
      (s.mgmt.rerun = false → s.mgmt.capt = false →
        (off + v.length ≤ 2 ^ 26 → exec (.hostInboundAccess port 0 off size true v false) s = .next (mgmtWrite s off v)) ∧
        (off + size ≤ 2 ^ 26 →
          exec (.hostInboundAccess port 0 off size false v false) s = answers s (.completion port (mgmtRead s off size) false)) ∧
        (s.notify ≠ 0 → s.notify.toNat + 2 ^ 24 ≤ windowBase → off + v.length ≤ 2 ^ 24 →
          exec (.hostInboundAccess port 2 off size true v false) s = .next (notifyWrite s off v true)) ∧
        (off + v.length ≤ tabGet s.bar4 (2 ^ 44) port → localOk s off v.length = true → windowPasses s source off v.length false true = true →
          Ordinary s off v.length → isPad off = false →
          (∃ t, exec (.hostInboundAccess port 4 off size true v false) s = .next t ∧ WritesBytes s t off v) ∧
          (holdsPoison s off = true →
            let r := recorded s 0x01 13 port 0 (off / 64 * 64) true
            ∃ t, exec (.hostInboundAccess port 4 off size true v true) s = .next t ∧ WritesBytes r.2 t off v ∧
              ∀ g, off / 64 ≤ g → g ≤ (off + v.length - 1) / 64 →
                tabFind t.poison g = lowerTag (some (BitVec.ofNat 12 r.1)) (tabFind r.2.poison g))) ∧
        (off + size ≤ tabGet s.bar4 (2 ^ 44) port → localOk s off size = true → windowPasses s source off size true false = true →
          Ordinary s off size → isPad off = false →
          exec (.hostInboundAccess port 4 off size false v false) s =
            answers s (.completion port (readBytes s.mem off size) (rangePoison s off size).isSome)) ∧
        (tabGet s.bar4 (2 ^ 44) port < off + v.length ∨ windowPasses s source off v.length false true = false →
          exec (.hostInboundAccess port 4 off size true v false) s = refused 4)))

/-- 19_shroud R407, 08_stream R225 and 16_mesh R362: what the kill of a non-zero tag frees and what it leaves. Its contexts end: their slots are FREE
and blank, their ports CLOSED with status CANCEL, their tile-queue entries, rechecks and links gone. No store, copy, pool entry, image, task, kernel,
translation, region, projection slot, table, unacknowledged write or reef entry keeps the tag, and of commands only migrations that have begun, which
run to their end. The accumulator rows of the tag are cleared. Every other slot, and every row, region, projection slot, store and copy of another
tag, stays. Where nothing of the tag is in flight that writes as it ends, memory differs in the tag's scratchpad sectors only, which are zero and
released. -/
def Obligations.KilledTag : Prop :=
  ∀ (s : State) (tag : STag), tag ≠ 0 →
    let t := (killTag s tag).2
    let qs := slotsOfTag s tag
    (killTag s tag).1 = qs.length + (s.images.filter fun im => im.tag == tag).length ∧
    (∀ q, (s.slot q).st ≠ .free → (s.slot q).shtag = tag → q ∈ qs) ∧ (∀ q ∈ qs, t.slot q = (s.slot q).blank) ∧ (∀ q, q ∉ qs → t.slot q = s.slot q) ∧
    (∀ q ∈ qs,
      (∀ p < 8, ((s.core (coreOf q)).port p).st ≠ .closed → ((s.core (coreOf q)).port p).owner = q →
        ((t.core (coreOf q)).port p).st = .closed ∧ ((t.core (coreOf q)).port p).status = 5 ∧ ((t.core (coreOf q)).port p).fifo = []) ∧
      (∀ k, k / 16 = coreOf q / 16 → ∀ e ∈ (t.core k).tq, e.slot ≠ q) ∧ (∀ r ∈ (t.core (coreOf q)).rechecks, r.slot ≠ q) ∧
      (∀ a ∈ t.stores, a.home ≠ .slot q) ∧ (∀ c ∈ t.copies, c.2.home ≠ .slot q) ∧ ∀ k ∈ t.klinks, k.2.slot ≠ q) ∧
    ((∀ a ∈ t.stores, a.tag ≠ tag) ∧ (∀ c ∈ t.copies, c.2.tag ≠ tag) ∧ (∀ c ∈ t.cmds, c.2.tag = tag → c.2.migrates = true ∧ c.2.home = .gone) ∧
      (∀ e ∈ t.pool, e.tag ≠ tag) ∧ (∀ im ∈ t.images, im.tag ≠ tag) ∧ (∀ x ∈ t.tasks, x.tag ≠ tag) ∧ (∀ k ∈ t.kernels, k.2.tag ≠ tag) ∧
      (∀ e ∈ t.tlb, e.tag ≠ tag) ∧ (∀ x ∈ t.tables, x.2 ≠ tag) ∧ (∀ x ∈ t.sent, x.tag ≠ tag) ∧ (∀ k ∈ t.klinks, k.2.agent.tag ≠ tag) ∧
      (∀ k, ∀ e ∈ (t.core k).reefLog, e.2.tag ≠ tag) ∧
      t.regions = s.regions.filter (fun e => e.2.tag != tag) ∧ t.proj = s.proj.filter fun e => e.2.tag != tag) ∧
    (∀ k n,
      tabGet (t.core k).rowTag 0 n ≠ tag ∧
      ((n, tag) ∈ (s.core k).rowTag →
        (∀ j < 128, (t.core k).cell (128 * n + j) = ⟨0, none⟩) ∧ ∀ j < 4, (t.core k).segment (4 * n + j) = SegStatus.reset) ∧
      ((n, tag) ∉ (s.core k).rowTag → tabGet (t.core k).rowTag 0 n = tabGet (s.core k).rowTag 0 n ∧
        (∀ j < 128, (t.core k).cell (128 * n + j) = (s.core k).cell (128 * n + j)) ∧
        ∀ j < 4, (t.core k).segment (4 * n + j) = (s.core k).segment (4 * n + j))) ∧
    (∀ a ∈ s.stores, a.tag ≠ tag → (∀ q ∈ qs, a.home ≠ .slot q) → (∀ k, a.home ≠ .image k) → a ∈ t.stores) ∧
    (∀ c ∈ s.copies, c.2.tag ≠ tag → (∀ q ∈ qs, c.2.home ≠ .slot q) → (∀ k, c.2.home ≠ .image k) → c ∈ t.copies) ∧
    (s.Canonical → s.tasks = [] → s.cmds = [] → (∀ im ∈ s.images, im.tag ≠ tag) → (∀ k ∈ s.kernels, k.2.tag ≠ tag) → (∀ x ∈ s.tables, x.2 ≠ tag) →
      (∀ q ∈ qs, (s.slot q).mode = .context) →
      (∀ n, tabGet t.sectors 0 n = if (n, tag) ∈ s.sectors then 0 else tabGet s.sectors 0 n) ∧
      ∀ a, readByte t.mem a = if isPad a = true ∧ (sectorOf a, tag) ∈ s.sectors then 0 else readByte s.mem a)

/-- 20_link R427 to R434: the states of a Muaris link: LINKEN, training results and timeouts, a lost lane, NAK, and flits, which are delivered once
and in order. A flit that its CRC does not fit or that leaves a gap is answered by a NAK. An ACK frees the writes that it covers, and a NAK has those
left sent again, as does a training that succeeds. A link that is disabled, or whose training fails for the fourth time, loses the writes it holds:
here those of one non-zero tag, which is killed; the reads it holds give poison. A request that a flit carries writes, is answered, or is refused. The
layout of a request's header and the CRC are the model's choice (log 8). -/
def Obligations.LinkEvents : Prop :=
  ∀ (s : State) (l : Nat),
    let x := s.link l
    let becomes := fun (i : Instr) (y : MLink) => ∃ t, exec i s = .next t ∧ t = { s with muaris := t.muaris } ∧ t.link l = y ∧
      ∀ m, m ≠ l → t.link m = s.link m
    let outputs := fun (i : Instr) (y : MLink) (o : List Output) => ∃ t, exec i s = .next t ∧ t = { s with muaris := t.muaris, out := s.out ++ o } ∧
      t.link l = y ∧ ∀ m, m ≠ l → t.link m = s.link m
    let covers := fun (ack n : BitVec 12) => (ack - x.acked).toNat ≤ 1024 ∧ n.toNat ≤ (ack - x.acked).toNat
    let acks := fun (i : Instr) (ack : BitVec 12) (y : MLink) (again : Bool) => ∃ t, exec i s = .next t ∧
      t = { s with muaris := t.muaris, sent := t.sent, out := t.out } ∧ t.link l = y ∧ (∀ m, m ≠ l → t.link m = s.link m) ∧
      (∀ e, e ∈ t.sent ↔ e ∈ s.sent ∧ ¬(e.link = l ∧ covers ack (e.seq - x.acked))) ∧
      (s.sent.length ≤ 1024 → t.out = s.out ++ if again then (replayBuffer t l).map (Sent.flit t) else [])
    let lost := fun (i : Instr) (u : State) (tag : STag) => exec i s =
      .next (recordEvent (killTag u tag).2 { portEvent 0x03 14 l 0 0 false with victim := victimWord tag 0 (killTag u tag).1 }).2
    let failed := recorded s 0x04 14 l 0 0 true
    let leaves := fun (u : State) => { u with quarUnits := u.quarUnits ++ [(14, l)], mgmt := { u.mgmt with quar := min 255 (u.mgmt.quar + 1) } }
    let ended : MLink := { x with st := .quarantined, fails := 4, record := BitVec.ofNat 12 failed.1 }
    (∀ tag : STag, tag ≠ 0 → s.mgmt.frozen = false → s.heldReads = [] → s.sent ≠ [] → (∀ e ∈ s.sent, e.link = l ∧ e.tag = tag) →
      (∀ v : Word, 3 ≤ s.mgmt.phase → l < 18 → v.getLsbD l = false → x.st ≠ .down → x.st ≠ .quarantined → (∀ m < 18, m ≠ l → v.getLsbD m = true) →
        ∃ u : State, u = { s with mgmt := { s.mgmt with linken := v &&& 0x3FFFF }, muaris := u.muaris, sent := [] } ∧ u.link l = { x with st := .down } ∧
          lost (.linken v) u tag) ∧
      (x.st = .training ∨ x.st = .retraining → 3 ≤ x.fails →
        ∃ u : State, u = { leaves failed.2 with muaris := u.muaris, sent := [] } ∧ u.link l = ended ∧ lost (.linkTrainingTimeout l) u tag)) ∧
    (∀ v : Word, 3 ≤ s.mgmt.phase → l < 18 → s.sent = [] → s.heldReads = [] → ∃ t, exec (.linken v) s = .next t ∧
      t = { s with mgmt := { s.mgmt with linken := v &&& 0x3FFFF }, muaris := t.muaris } ∧
      t.link l = (if v.getLsbD l ∧ x.st = .down then { x with st := .training, fails := 0 }
        else if v.getLsbD l = false ∧ x.st ≠ .down ∧ x.st ≠ .quarantined then { x with st := .down } else x)) ∧
    (x.st = .training ∨ x.st = .retraining →
      outputs (.linkTrainingResult l 16) { x with st := .up, fails := 0 } ((replayBuffer s l).map (Sent.flit s)) ∧
      (∀ n, 8 ≤ n → n < 16 → outputs (.linkTrainingResult l n) { x with st := .degraded, fails := 0 } ((replayBuffer s l).map (Sent.flit s))) ∧
      (∀ n, n < 8 → x.fails < 3 → becomes (.linkTrainingResult l n) { x with fails := x.fails + 1 }) ∧
      (x.fails < 3 → becomes (.linkTrainingTimeout l) { x with fails := x.fails + 1 }) ∧
      (3 ≤ x.fails → s.sent = [] → ∃ t, exec (.linkTrainingTimeout l) s = .next t ∧
        t = { leaves failed.2 with muaris := t.muaris, heldReads := s.heldReads.filter fun r => r.1 != l, poison := t.poison } ∧ t.link l = ended ∧
        ∀ g, tabFind t.poison g = if (l, g) ∈ s.heldReads then some (BitVec.ofNat 12 failed.1) else tabFind failed.2.poison g)) ∧
    (x.st = .up ∨ x.st = .degraded →
      becomes (.laneLost l) { x with st := .retraining, fails := 0 } ∧
      (∀ ack : BitVec 12,
        let y : MLink := if covers ack 1 then { x with acked := ack, replays := 0 } else x
        acks (.nakReceive l ack) ack (if 8 ≤ y.replays + 1 then { y with st := .retraining, replays := 0, fails := 0 }
          else { y with replays := y.replays + 1 }) (decide (y.replays + 1 < 8))) ∧
      ∀ (head rsv : Word) (data req : List Word) (tail : BitVec 128),
        let i := Instr.flitReceive l head rsv data req tail
        let seq : BitVec 12 := head.setWidth 12
        let ack : BitVec 12 := (head >>> 16).setWidth 12
        let ty := wbits head 15 12
        let xc : MLink := { x with credits := x.credits + wbits head 63 32 }
        let y : MLink := if covers ack 1 then { xc with acked := ack, replays := 0 } else xc
        let z : MLink := { y with rx := seq, nak := false }
        let intact := Config.flitCrc (flitBytes head rsv data req (tail.setWidth 64)) = (tail >>> 64).setWidth 64
        let nak := [Output.flit l 1 x.tx x.rx 0 []]
        (¬ intact → outputs i { x with nak := true } nak) ∧
        (intact →
          (ty = 1 → acks i ack (if 8 ≤ y.replays + 1 then { y with st := .retraining, replays := 0, fails := 0 }
            else { y with replays := y.replays + 1 }) (decide (y.replays + 1 < 8))) ∧
          (ty = 2 ∨ ty = 3 → acks i ack y false) ∧
          (3 < ty → exec i s = .next s) ∧
          (ty = 0 → seq ≠ x.rx + 1 → (x.rx - seq).toNat < 1024 → acks i ack y false) ∧
          (ty = 0 → seq ≠ x.rx + 1 → 1024 ≤ (x.rx - seq).toNat →
            (x.nak = false → outputs i { xc with nak := true } nak) ∧ (x.nak = true → exec i s = .next s)) ∧
          (ty = 0 → seq = x.rx + 1 → wbits (wordAt req 2) 63 60 = 0 →
            let r := linkReq data (wordAt req 0) (wordAt req 1)
            let n := r.bytes.length
            (r.op = 0 → acks i ack z false) ∧
            (s.mgmt.rerun = false → s.mgmt.capt = false → r.fits = true → localOk s r.pa n = true → Ordinary s r.pa n → isPad r.pa = false →
              (r.op = 2 → windowPasses s (2 + l) r.pa n false true = true → ∃ t, exec i s = .next t ∧ t.link l = z ∧
                (∀ j < n, readByte t.mem (r.pa + j) = r.bytes.getD j 0) ∧ ∀ a, a < r.pa ∨ r.pa + n ≤ a → readByte t.mem a = readByte s.mem a) ∧
              (r.op = 1 → windowPasses s (2 + l) r.pa n true false = true → ∃ t, exec i s = .next t ∧ t.link l = z ∧ t.mem = s.mem ∧
                (s.sent.length ≤ 1024 → t.out = s.out ++ [.flit l 0 x.tx seq r.pa (readBytes s.mem r.pa n)]))) ∧
            (r.op ≠ 0 → s.sent = [] → s.mgmt.rerun = true → ∃ u : State, u = { s with muaris := u.muaris } ∧ u.link l = z ∧
              let e := recorded u 0x0F 14 l 0 r.pa false
              exec i s = .next { e.2 with out := e.2.out ++ [.flit l 3 x.tx seq r.pa []] })))) ∧
    (x.st ≠ .up → x.st ≠ .degraded → ∀ head rsv data req tail, exec (.flitReceive l head rsv data req tail) s = .next s)

/-- 21_device R435 to R442: power-on and reset, the phases of the device, MCTL's bits, FWLAUNCH, the power budget, RBSEL's freeze, and the words of
the management window. That a reset keeps what memory holds (log 13), that a kill which strikes a unit held by FREEZE waits for its end (log 72), and
that the event of MEMTRAIN tells what training has found (log 3) are the model's choice. -/
def Obligations.DeviceEvents : Prop :=
  ∀ s : State,
    let manages := fun (i : Instr) (m : Mgmt) => exec i s = .next { s with mgmt := m }
    (∃ t, exec .powerOn s = .next t ∧ t = { State.reset with agenda := s.agenda, free := s.free }) ∧
    (∀ i ∈ [Instr.perst, .mctlReset], ∃ t, exec i s = .next t ∧
      t = { State.reset with agenda := s.agenda, free := s.free, mem := t.mem, poison := t.poison } ∧ t.mem = s.mem) ∧
    (s.mgmt.phase = 0 → manages (.clocksStable []) { s.mgmt with phase := 1 }) ∧
    (s.mgmt.phase = 1 → manages .selftestEnd { s.mgmt with phase := 2 }) ∧
    (s.mgmt.phase = 2 → ∀ (n : Nat) (found : Trained), found.badPorts = [] → exec (.memtrainEnd 0 n found) s = .next
      { s with
        mgmt := { s.mgmt with phase := 3 }, cxlBytes := min n (2 ^ 43) / 16384 * 16384
        cxlWays := if found.ways = 2 ∨ found.ways = 4 then found.ways else 1, cxlGran := if found.gran = 256 then 256 else 4096
        cxlPoison := found.poisonPorts, bar4 := found.bar4.foldl (fun t e => tabSet t e.1 e.2) [] }) ∧
    (s.mgmt.phase = 3 → manages .mctlBoot { s.mgmt with boot := true, phase := 4 }) ∧
    (s.mgmt.phase < 3 → ∀ i ∈ [Instr.mctlBoot, .mctlHint, .mctlFreeze true, .mctlCapt true, .mctlRerun true, .fwlaunch 0, .pbudgetWrite 0, .linken 0],
      exec i s = .next s) ∧
    (3 ≤ s.mgmt.phase →
      (∃ t, exec .mctlHint s = .next t ∧ t = { s with msix := t.msix } ∧
        ∀ m, m ∈ t.msix ↔ m ∈ s.msix ∨ (m.2 = 1 ∧ (m.1 = 0 ∨ m.1 = 3) ∧ m.1 ∉ s.hostDown)) ∧
      manages (.mctlFreeze true) { s.mgmt with freeze := true } ∧
      exec (.mctlFreeze false) s = .next (s.mgmt.kills.foldl (fun t k => failTag t k.1 k.2)
        { s with mgmt := { s.mgmt with freeze := false, frozen := false, kills := [], snap := [], snapTags := [] } }) ∧
      (s.mgmt.rerun = false → s.mgmt.capt = false → manages (.mctlCapt true) { s.mgmt with capt := true, rpos := 0, rfull := false } ∧
        manages (.mctlRerun true) { s.mgmt with rerun := true, rcur := 0 }) ∧
      (s.mgmt.rerun = true → exec (.mctlCapt true) s = .next s) ∧ (s.mgmt.capt = true → exec (.mctlRerun true) s = .next s) ∧
      manages (.mctlCapt false) { s.mgmt with capt := false } ∧ manages (.mctlRerun false) { s.mgmt with rerun := false } ∧
      (∀ v : Word, manages (.pbudgetWrite v) { s.mgmt with pbudget := max 1000 (min 2700 (wbits v 11 0)) }) ∧
      (∀ v : Word, manages (.mgmtRegisterWrite 0x90 v) { s.mgmt with rbsel := v &&& 0xFFFFFF, frozen := false } ∧
        (s.mgmt.boot = false → exec (.mgmtRegisterWrite 0x40 v) s = .next { s with asidTab := v &&& 0x000FFFFFFFFE0000 } ∧
          exec (.mgmtRegisterWrite 0x48 v) s = .next { s with qtab := v &&& 0x000FFFFFFFFF0000 } ∧
          exec (.mgmtRegisterWrite 0x50 v) s = .next { s with notify := v &&& 0x000FFFFFFF000000 }) ∧
        (s.mgmt.boot = true → ∀ off ∈ [0x40, 0x48, 0x50, 0x58], exec (.mgmtRegisterWrite off v) s = .next s)) ∧
      (∀ csa : Word, freeSlotAmong s (slotsOfDie 0) = none → exec (.fwlaunch csa) s = .next s) ∧
      ∀ (csa : Word) (q key : Nat), freeSlotAmong s (slotsOfDie 0) = some q →
        let u := s.setSlot q (s.slot q).blank
        Loadable u q { slice := noSlice, asid := 0, level := .firmware, tag := 0, cluster := clusterOf q } csa key →
        ∃ t, exec (.fwlaunch csa) s = .next t ∧ Resumed s (t.slot q) key ∧ ∀ n, n ≠ q → t.slot n = s.slot n) ∧
    (s.mgmt.freeze = true →
      (wbits s.mgmt.rbsel 7 0 ∉ [1, 4] → manages .freezeHold { s.mgmt with frozen := true, snap := [], snapTags := [] }) ∧
      (wbits s.mgmt.rbsel 7 0 = 4 → s.Canonical → ∃ t, exec .freezeHold s = .next t ∧
        t = { s with mgmt := { s.mgmt with frozen := true, snap := t.mgmt.snap, snapTags := s.sectors } } ∧
        ∀ i < Config.padBytes, let a := padKeyOf (wbits s.mgmt.rbsel 20 8) i; readByte t.mgmt.snap a = readByte s.mem a)) ∧
    (s.mgmt.freeze = false → exec .freezeHold s = .next s) ∧
    ∀ gates : List Nat, gates.length = 8 → (∀ g ∈ gates, g ≤ 15) → ∃ t, exec (.powerArbitration gates) s = .next t ∧
      t = { s with mgmt := { s.mgmt with gates := t.mgmt.gates } } ∧ ∀ i < 8, tabGet t.mgmt.gates 0 i = gates.getD i 0

/-- 05_vector R118 to R123, 07_tile R167 and R168, 08_stream R221, 10_context R271, 14_queue R336: the writes of system registers as events: a value
that may stand takes effect, any other traps with cause 0x01, and a FREE slot or one that must wait is left alone; so does a write of SHTAG, ASID or
CSABASE in context mode. AGELIMIT is written per die (log 11). -/
def Obligations.RegisterWriteEvents : Prop :=
  ∀ (s : State) (q : Nat) (v : Word),
    let x := s.slot q
    (x.st = .free → ∀ i ∈ [Instr.spbaseWrite q v, .vlWrite q v, .vcfgWrite q v, .vlcapWrite q v, .accrangeWrite q true v, .accrangeWrite q false v,
      .reefctlClr q, .agelimitWrite q v, .contextIdWrite q 0x110 v], exec i s = .next s) ∧
    (∀ c ∈ [(Instr.vlWrite q v, 0x010), (.vcfgWrite q v, 0x011), (.vlcapWrite q v, 0x013), (.accrangeWrite q false v, 0x040),
      (.accrangeWrite q true v, 0x041), (.reefctlClr q, 0x043), (.spbaseWrite q v, 0x114)], sysWaits s q c.2 true = true → exec c.1 s = .next s) ∧
    (x.st ≠ .free →
      let put := fun (i : Instr) (y : Slot) => exec i s = .next (s.setSlot q y)
      let traps := fun (i : Instr) => exec i s = .next (trap s q 0x01 0 0)
      (sysWaits s q 0x010 true = false → put (.vlWrite q v) { x with vl := min (v &&& 0x3FFF).toNat (x.vlmax x.vcfg) }) ∧
      (sysWaits s q 0x011 true = false →
        (wbits v 2 0 ≤ 5 → wbits v 13 12 ≠ 3 → put (.vcfgWrite q v) { x with vcfg := v.setWidth 14, vl := min x.vl (x.vlmax (v.setWidth 14)) }) ∧
        (5 < wbits v 2 0 ∨ wbits v 13 12 = 3 → traps (.vcfgWrite q v))) ∧
      (sysWaits s q 0x013 true = false →
        let n := (v &&& 0x7FFF).toNat
        let may := n ∈ [2048, 4096, 8192, 16384] ∧ n ≤ 2048 * (s.core (coreOf q)).laneMap.length
        (may → put (.vlcapWrite q v) ({ x with vlcap := n } : Slot).clampVl) ∧ (¬ may → traps (.vlcapWrite q v))) ∧
      (sysWaits s q 0x040 true = false →
        ((v &&& 0x7F).toNat + x.accLim.toNat ≤ 128 → put (.accrangeWrite q false v) { x with accBase := v.setWidth 7 }) ∧
        (128 < (v &&& 0x7F).toNat + x.accLim.toNat → traps (.accrangeWrite q false v))) ∧
      (sysWaits s q 0x041 true = false →
        (x.accBase.toNat + (v &&& 0xFF).toNat ≤ 128 → put (.accrangeWrite q true v) { x with accLim := v.setWidth 8 }) ∧
        (128 < x.accBase.toNat + (v &&& 0xFF).toNat → traps (.accrangeWrite q true v))) ∧
      (sysWaits s q 0x114 true = false → ∃ t, exec (.spbaseWrite q v) s = .next t ∧ t = { s with spbase := t.spbase } ∧
        spBase t (clusterOf q) = v &&& 0x00FFFFFFFC000000 ∧ ∀ c, c ≠ clusterOf q → spBase t c = spBase s c) ∧
      (let w := v &&& 0xFFFFFFFFFF
       (w = 0 ∨ 1024 ≤ w.toNat → ∃ t, exec (.agelimitWrite q v) s = .next t ∧ t = { s with ageLimit := t.ageLimit } ∧ ageLimitOf t (dieOf q) = w ∧
         ∀ d, d ≠ dieOf q → ageLimitOf t d = ageLimitOf s d) ∧
       (w ≠ 0 → w.toNat < 1024 → traps (.agelimitWrite q v))) ∧
      (x.mode = .handler →
        put (.contextIdWrite q 0x110 v) { x with asid := v.setWidth 12 } ∧ put (.contextIdWrite q 0x111 v) { x with shtag := v.setWidth 10 } ∧
        put (.contextIdWrite q 0x113 v) { x with csaBase := v &&& 0x00FFFFFFFFFFF000 }) ∧
      (x.mode = .context → ∀ n ∈ [0x110, 0x111, 0x113], traps (.contextIdWrite q n v)) ∧
      (sysWaits s q 0x043 true = false → ∃ t, exec (.reefctlClr q) s = .next t ∧ OnlyCores s t ∧ (∀ k, k ≠ coreOf q → t.core k = s.core k) ∧
        (∀ e, e ∈ (t.core (coreOf q)).reefLog ↔ e ∈ (s.core (coreOf q)).reefLog ∧ e.2.tag ≠ x.shtag) ∧
        (t.core (coreOf q)).reefOvf = (s.core (coreOf q)).reefOvf.filter fun y => y != x.shtag)) ∧
    ∀ n : BitVec 12, n ∉ [0x110, 0x111, 0x113] → exec (.contextIdWrite q n v) s = .next s

/-- 03_encoding R58 to R71: words written out from the formats and code tables, the three worked encodings of the chapter among them, and words that a
decode refuses: all zeros, all ones, a reserved major, an unassigned function, and a register in a field that shall be zero. -/
def Obligations.DecodedWords : Prop :=
  decodeWord 0x04108301 = .ok (.sub 1 2 3) ∧ decodeWord 0x04108316 = .ok (.addsh 1 2 3 2) ∧ decodeWord 0x08A2CC12 = .ok (.fcmp 10 11 12 1 0) ∧
  decodeWord 0x0C10BFFF = .ok (.addi 1 2 0x3FFF) ∧ decodeWord 0x1C72203F = .ok (.sari 7 8 63) ∧ decodeWord 0x24580000 = .ok (.lih 5 0x80000) ∧
  decodeWord 0x2C312FFE = .ok (.ld 3 4 5 0x7FE) ∧ decodeWord 0x30312008 = .ok (.st 3 4 2 8) ∧ decodeWord 0x3431014E = .ok (.strel 3 4 2 6) ∧
  decodeWord 0x38518072 = .ok (.amoadd 5 6 1 1 0 2) ∧ decodeWord 0x44403FFD = .ok (.bne 4 0 0x3FFD) ∧ decodeWord 0x5FFFFFFF = .ok (.call 0x3FFFFFF) ∧
  decodeWord 0x60000002 = .ok .ret ∧ decodeWord 0x64010003 = .ok (.loop 1 3) ∧ decodeWord 0x68001401 = .ok (.lbrk 5) ∧
  decodeWord 0x6C408C40 = .ok (.rep 1 2 3 4) ∧ decodeWord 0x70108310 = .ok (.wait 1 2 3 4) ∧ decodeWord 0x74000200 = .ok .fenceVv ∧
  decodeWord 0x74018A11 = .ok (.barw 6 1) ∧ decodeWord 0x80221C00 = .ok (.vadd 1 2 3 4) ∧ decodeWord 0x8422A18F = .ok (.vsarVs 1 2 40 3) ∧
  decodeWord 0x88611205 = .ok (.vfma 3 1 2 2) ∧ decodeWord 0x8864690A = .ok (.vfcvtSat 3 4 0x0D 1) ∧ decodeWord 0x90221803 = .ok (.mandn 1 2 3) ∧
  decodeWord 0x94311105 = .ok (.vsetvli 3 4 0x105) ∧ decodeWord 0x984549C4 = .ok (.vfcmpVs 2 5 9 1 4) ∧ decodeWord 0xA0620B81 = .ok (.vlds 3 4 5 6) ∧
  decodeWord 0xA8624B84 = .ok (.vldn 3 4 1 5 6 0 4) ∧ decodeWord 0xAC64F800 = .ok (.kst 3 4 62) ∧ decodeWord 0xC05DC829 = .ok (.tmmas 5 6 7 8 9) ∧
  decodeWord 0xC050C609 = .ok (.tst 5 1 1 6) ∧ decodeWord 0xC4018072 = .ok (.sopen 6 3 1 2) ∧ decodeWord 0xC5100260 = .ok (.sbind 17 3) ∧
  decodeWord 0xC801430A = .ok (.efork 5 3) ∧ decodeWord 0xCC51921B = .ok (.mmigr 5 6 1 1 3) ∧ decodeWord 0xE0012010 = .ok (.srset 4 0x010) ∧
  decodeWord 0xE020CF01 = .ok (.ctxld 2 3) ∧ decodeWord 0xE4000500 = .ok (.trap 5) ∧
  ∀ w ∈ [0x00000000, 0xFFFFFFFF, 0x3C000000, 0x04000020, 0x0400011C, 0x9C000000], ∃ e, decodeWord w = .error e

/-- 03_encoding R58 to R71: the decoder reads back every well-formed instruction from the four bytes of its word, with every operand, whatever bytes
follow. -/
def Obligations.DecodeEncodeAgree : Prop :=
  ∀ (i : Instr) (w : Nat) (rest : List Byte), encode i = some w → wellFormed i = true → w < 2 ^ 32 ∧ decode (bytesOfWord w ++ rest) = .ok (i, rest)

/-- 03_encoding R62, 04_sequencer R99, R106: a slot whose program counter names readable bytes runs the instruction they decode to, in a REP frame the
one of the offset word; a word that does not decode traps with cause 0x01. An event with operands in range is made as the agenda names it. Whatever
the instruction and the state, its meaning goes on (00_scope R1: nothing stops the device). How the agenda orders moves is the model's choice (log 4).
-/
def Obligations.StepRunsDecoded : Prop :=
  (∀ (s : State) (q w key : Nat) (rest : List Move), s.agenda = .slot q :: rest →
    let u := { s with agenda := rest }
    FetchesWord u q w key →
    ((u.slot q).OutsideRep →
      (∀ i, decodeWord w = .ok i → step s = afterMove s (exec i { u with cur := q })) ∧
      (∀ e, decodeWord w = .error e → step s = afterMove s (.next (trapWord u q 0x01 (some w))))) ∧
    ∀ e es, (u.slot q).loops = e :: es → e.kind = 2 → e.start.toNat ≤ (u.slot q).pc.toNat → (u.slot q).pc.toNat ≤ e.endAddr.toNat →
      let d := decodeOffset w e.j e.vstr e.sstr
      (∀ r, d.2 = .ok r → step s = afterMove s (exec r.toInstr { u with cur := q })) ∧
      ∀ x, d.2 = .error x → step s = afterMove s (.next (trapWord u q 0x01 (some d.1)))) ∧
  (∀ (s : State) (i : Instr) (rest : List Move), s.agenda = .unit i :: rest → encode i = none →
    step s = if wellFormed i then afterMove s (exec i { s with agenda := rest }) else .next { s with agenda := rest }) ∧
  ∀ (i : Instr) (s : State), ∃ t, exec i s = .next t

/-- 21_device R435: what reset leaves: every slot FREE, the registers at the Reset columns of their layouts, no error record, no unit out of service,
the accumulator store of R52 and R53, and memory in its canonical form. -/
def Obligations.ResetState : Prop :=
  let s := State.reset
  s.Canonical ∧ s.mgmt.phase = 0 ∧ s.mgmt.boot = false ∧ s.mgmt.pbudget = 2700 ∧ s.errors = [] ∧ s.quarUnits = [] ∧ s.tlb = [] ∧
  (∀ l, (s.link l).st = .down) ∧ (∀ d, ageLimitOf s d = 0x1000000) ∧ (∀ c, spBase s c = 0x00FFFFFFFC000000) ∧
  (∀ q, let x := s.slot q
    x.st = .free ∧ x.fflags = 0 ∧ x.frm = 0 ∧ x.vl = 0 ∧ x.vcfg = 0b101 ∧ x.vstart = 0 ∧ x.vlcap = 16384 ∧ x.vdirty = 0 ∧ x.vowner = 0 ∧
    x.vuse = false ∧ x.uivec = 0 ∧ x.uiepc = 0 ∧ x.uistat.en = false ∧ x.uistat.act = false ∧ x.cnt = ⟨0, 0, 0, 0⟩ ∧ x.accBase = 0 ∧ x.accLim = 0 ∧
    x.reefTh = 4 ∧ x.reefTrap = false ∧ x.trapCause = 0 ∧ x.trapPc = 0 ∧ x.faultRec = 0 ∧ x.asid = 0 ∧ x.shtag = 0 ∧ x.prio = 0 ∧ x.csaBase = 0 ∧
    x.rechk = false ∧ x.loops = [] ∧ x.vq = [] ∧ ∀ n, (x.sreg n).pend = .ready ∧ (x.sreg n).poison = none) ∧
  ∀ k n, (s.core k).segment n = ⟨0, true, 61, 0⟩ ∧ ((s.core k).cell n).bits = 0 ∧ tabGet (s.core k).rowTag 0 n = 0 ∧ ((s.core k).port n).st = .closed ∧
    (s.core k).tq = [] ∧ (s.core k).reefLog = []

/-- Every step, of a slot or of a unit, keeps memory in its one canonical form: rising addresses and no byte listed that an unlisted address reads as
(the model's choice, log 2), so that equal memories are equal lists. -/
def Obligations.StepKeepsCanonical : Prop :=
  ∀ s t : State, s.Canonical → step s = .next t → t.Canonical
end

