-- ==== Sys2Proof/Laws/Memory.lean ====
section
/-! SUPPORT. What the operations on the bytes of memory do: a read after a write, the canonical form kept, and numbers as bytes. -/

namespace Sys2Proof.Machine

/-- A lower bound on the addresses of a canonical memory may be lowered. -/
theorem cellsFrom_mono {lo hi : Nat} (h : lo ≤ hi) : ∀ {m : List Host.Cell}, cellsFrom hi m = true → cellsFrom lo m = true
  | [], _ => rfl
  | (a, v) :: m, w => by
    simp only [cellsFrom, Bool.and_eq_true, decide_eq_true_eq] at w ⊢
    exact ⟨⟨by omega, w.1.2⟩, w.2⟩

/-- The cells at and above an address are canonical from there on. -/
theorem cellsFrom_cellsAbove {a lo : Nat} : ∀ {m : List Host.Cell}, cellsFrom lo m = true → cellsFrom a (cellsAbove a m) = true
  | [], _ => rfl
  | (a', v) :: m, w => by
    simp only [cellsFrom, Bool.and_eq_true, decide_eq_true_eq] at w
    simp only [cellsAbove]
    split
    · exact cellsFrom_cellsAbove w.2
    · simp only [cellsFrom, Bool.and_eq_true, decide_eq_true_eq]
      exact ⟨⟨by omega, w.1.2⟩, w.2⟩

/-- A block of bytes before a canonical memory is canonical. -/
theorem cellsFrom_block {m : List Host.Cell} :
    ∀ {a : Nat} (bs : List Byte), cellsFrom (a + bs.length) m = true → cellsFrom a (blockCells a bs ++ m) = true
  | a, [], w => by simpa [blockCells] using w
  | a, b :: bs, w => by
    have ih : cellsFrom (a + 1) (blockCells (a + 1) bs ++ m) = true := cellsFrom_block bs (by
      rw [List.length_cons] at w; rwa [Nat.add_right_comm, Nat.add_assoc])
    simp only [blockCells]
    split
    · exact cellsFrom_mono (Nat.le_succ a) ih
    · rename_i hb
      simpa [cellsFrom, ih] using hb

/-- A write keeps the canonical form. -/
theorem cellsFrom_writeBytes {a lo : Nat} (bs : List Byte) :
    ∀ {m : List Host.Cell}, lo ≤ a → cellsFrom lo m = true → cellsFrom lo (writeBytes a bs m) = true
  | [], h, _ => by
    have := cellsFrom_block (m := []) (a := a) bs rfl
    rw [List.append_nil] at this
    exact cellsFrom_mono h this
  | (a', v) :: m, h, w => by
    have w' := w
    simp only [cellsFrom, Bool.and_eq_true, decide_eq_true_eq] at w
    simp only [writeBytes]
    split
    · simp only [cellsFrom, Bool.and_eq_true, decide_eq_true_eq]
      exact ⟨w.1, cellsFrom_writeBytes bs (by omega) w.2⟩
    · exact cellsFrom_mono h (cellsFrom_block bs (cellsFrom_cellsAbove w'))

/-- A write keeps the canonical form of memory. -/
theorem wf_writeBytes {a : Nat} {bs : List Byte} {m : List Host.Cell} (h : Memory.wf m) : Memory.wf (writeBytes a bs m) :=
  cellsFrom_writeBytes bs (Nat.zero_le a) h

/-- A write of a number keeps the canonical form of memory. -/
theorem wf_writeLE {a n x : Nat} {m : List Host.Cell} (h : Memory.wf m) : Memory.wf (writeLE m a n x) := wf_writeBytes h

/-- Dropping cells keeps the canonical form of memory. -/
theorem wf_filter (p : Host.Cell → Bool) : ∀ {lo : Nat} {m : List Host.Cell}, cellsFrom lo m = true → cellsFrom lo (m.filter p) = true
  | _, [], _ => rfl
  | lo, (a, v) :: m, w => by
    simp only [cellsFrom, Bool.and_eq_true, decide_eq_true_eq] at w
    simp only [List.filter]
    have ih : cellsFrom (a + 1) (m.filter p) = true := wf_filter p w.2
    split
    · simp only [cellsFrom, Bool.and_eq_true, decide_eq_true_eq]
      exact ⟨w.1, ih⟩
    · exact cellsFrom_mono (by omega) ih

/-- Reading below every cell gives zero. -/
theorem readByte_below {m : List Host.Cell} {lo x : Nat} (w : cellsFrom lo m = true) (h : x < lo) : readByte m x = 0 := by
  cases m with
  | nil => rfl
  | cons e m =>
    obtain ⟨a, v⟩ := e
    simp only [cellsFrom, Bool.and_eq_true, decide_eq_true_eq] at w
    have h1 : a ≠ x := by omega
    have h2 : x < a := by omega
    simp [readByte, h1, h2]

/-- Reading at or above an address does not need the cells below it. -/
theorem readByte_cellsAbove {a x : Nat} (h : a ≤ x) : ∀ m : List Host.Cell, readByte (cellsAbove a m) x = readByte m x
  | [] => rfl
  | (a', v) :: m => by
    simp only [cellsAbove]
    split
    · have h1 : a' ≠ x := by omega
      have h2 : ¬ x < a' := by omega
      simp [readByte, h1, h2, readByte_cellsAbove h m]
    · rfl

/-- Reading below the cells kept by cellsAbove gives zero. -/
theorem readByte_cellsAbove_below {a x : Nat} (h : x < a) : ∀ m : List Host.Cell, readByte (cellsAbove a m) x = 0
  | [] => rfl
  | (a', v) :: m => by
    simp only [cellsAbove]
    split
    · exact readByte_cellsAbove_below h m
    · have h1 : a' ≠ x := by omega
      have h2 : x < a' := by omega
      simp [readByte, h1, h2]

/-- Reading outside a block reads what stands behind it. -/
theorem readByte_block_above {m : List Host.Cell} {x : Nat} :
    ∀ {a : Nat} (bs : List Byte), a + bs.length ≤ x → readByte (blockCells a bs ++ m) x = readByte m x
  | a, [], _ => by simp [blockCells]
  | a, b :: bs, h => by
    rw [List.length_cons] at h
    have ih := readByte_block_above (m := m) (x := x) (a := a + 1) bs (by omega)
    simp only [blockCells]
    split
    · exact ih
    · have h1 : a ≠ x := by omega
      have h2 : ¬ x < a := by omega
      simp [readByte, h1, h2, ih]

/-- Reading below a block reads zero when what stands behind the block does. -/
theorem readByte_block_below {m : List Host.Cell} {x : Nat} (hm : readByte m x = 0) :
    ∀ {a : Nat} (bs : List Byte), x < a → readByte (blockCells a bs ++ m) x = 0
  | a, [], _ => by simpa [blockCells] using hm
  | a, b :: bs, h => by
    simp only [blockCells]
    split
    · exact readByte_block_below hm bs (by omega)
    · have h1 : a ≠ x := by omega
      simp [readByte, h1, h]

/-- Reading inside a block. -/
theorem readByte_block {m : List Host.Cell} :
    ∀ {a : Nat} (bs : List Byte) {i : Nat}, i < bs.length → (∀ j, j < bs.length → readByte m (a + j) = 0) →
      readByte (blockCells a bs ++ m) (a + i) = bs.getD i 0
  | a, [], i, h, _ => absurd h (Nat.not_lt_zero _)
  | a, b :: bs, 0, _, hm => by
    have h0 := hm 0 (by simp)
    simp only [blockCells]
    split
    · rename_i hb
      rw [Nat.add_zero] at h0 ⊢
      have e := readByte_block_below h0 bs (Nat.lt_succ_self a)
      rw [Nat.succ_eq_add_one] at e
      simp [e, hb]
    · simp [readByte]
  | a, b :: bs, i + 1, h, hm => by
    have ih := readByte_block (m := m) (a := a + 1) bs (i := i) (by simpa using h) (fun j hj => by
      have := hm (j + 1) (by simpa using hj)
      rwa [Nat.add_right_comm, Nat.add_assoc])
    rw [show a + (i + 1) = a + 1 + i by omega]
    simp only [blockCells]
    split
    · simpa using ih
    · have h1 : a ≠ a + 1 + i := by omega
      have h2 : ¬ a + 1 + i < a := by omega
      simp [readByte, h1, h2, ih]

/-- A read inside the bytes written gives the byte written. -/
theorem readByte_writeBytes {a i : Nat} {bs : List Byte} (h : i < bs.length) :
    ∀ m : List Host.Cell, readByte (writeBytes a bs m) (a + i) = bs.getD i 0
  | [] => by
    have := readByte_block (m := []) (a := a) bs h (fun _ _ => rfl)
    rwa [List.append_nil] at this
  | (a', v) :: m => by
    simp only [writeBytes]
    split
    · have h1 : a' ≠ a + i := by omega
      have h2 : ¬ a + i < a' := by omega
      simp [readByte, h1, h2, readByte_writeBytes h m]
    · exact readByte_block bs h fun j hj => readByte_cellsAbove_below (by omega) _

/-- A read outside the bytes written gives what it gave before. -/
theorem readByte_writeBytes_ne {a x : Nat} {bs : List Byte} (h : x < a ∨ a + bs.length ≤ x) :
    ∀ m : List Host.Cell, readByte (writeBytes a bs m) x = readByte m x
  | [] => by
    rcases h with h | h
    · have := readByte_block_below (m := []) rfl bs h
      rw [List.append_nil] at this
      simpa [writeBytes, readByte] using this
    · have := readByte_block_above (m := []) bs h
      rw [List.append_nil] at this
      simpa [writeBytes] using this
  | (a', v) :: m => by
    simp only [writeBytes]
    split
    · simp [readByte, readByte_writeBytes_ne h m]
    · rcases h with h | h
      · rw [readByte_block_below (readByte_cellsAbove_below (by omega) _) bs h]
        have h1 : a' ≠ x := by omega
        have h2 : x < a' := by omega
        simp [readByte, h1, h2]
      · rw [readByte_block_above bs h, readByte_cellsAbove h]

/-- The number of bytes read. -/
@[simp] theorem length_readBytes (m : List Host.Cell) : ∀ (n a : Nat), (readBytes m a n).length = n
  | 0, _ => rfl
  | n + 1, a => by simp [readBytes, length_readBytes m n]

@[simp] theorem length_leBytes : ∀ (n x : Nat), (leBytes n x).length = n
  | 0, _ => rfl
  | n + 1, x => by simp [leBytes, length_leBytes n]

/-- Reading a range outside the bytes written. -/
theorem readBytes_writeBytes_ne {a : Nat} {bs : List Byte} {m : List Host.Cell} :
    ∀ {n x : Nat}, x + n ≤ a ∨ a + bs.length ≤ x → readBytes (writeBytes a bs m) x n = readBytes m x n
  | 0, _, _ => rfl
  | n + 1, x, h => by
    simp only [readBytes]
    rw [readByte_writeBytes_ne (by omega), readBytes_writeBytes_ne (by omega)]

/-- Reading what was written. -/
theorem readBytes_writeBytes_from {a : Nat} {bs : List Byte} {m : List Host.Cell} :
    ∀ {n i : Nat}, i + n ≤ bs.length → readBytes (writeBytes a bs m) (a + i) n = (bs.drop i).take n
  | 0, _, _ => by simp [readBytes]
  | n + 1, i, h => by
    have hi : i < bs.length := by omega
    simp only [readBytes]
    rw [readByte_writeBytes hi, show a + i + 1 = a + (i + 1) by omega, readBytes_writeBytes_from (by omega),
      List.drop_eq_getElem_cons hi, List.take_succ_cons, List.getD_eq_getElem _ _ hi]

theorem readBytes_writeBytes {a : Nat} {bs : List Byte} {m : List Host.Cell} :
    readBytes (writeBytes a bs m) a bs.length = bs := by
  have := readBytes_writeBytes_from (a := a) (bs := bs) (m := m) (n := bs.length) (i := 0) (by omega)
  simpa using this

/-- The low bytes of a number give its residue. -/
theorem leNat_leBytes : ∀ (n x : Nat), leNat (leBytes n x) = x % 256 ^ n
  | 0, x => by simp [leBytes, leNat, Nat.mod_one]
  | n + 1, x => by
    simp only [leBytes, leNat, leNat_leBytes n, BitVec.toNat_ofNat]
    rw [show 256 ^ (n + 1) = 256 * 256 ^ n by rw [pow_succ, mul_comm], Nat.mod_mul]

/-- Bytes give a number below the power of 256 of their count. -/
theorem leNat_lt : ∀ bs : List Byte, leNat bs < 256 ^ bs.length
  | [] => by simp [leNat]
  | b :: bs => by
    have := leNat_lt bs
    have hb := b.isLt
    simp only [leNat, List.length_cons, pow_succ]
    omega

/-- Reading a number that was written. -/
theorem readLE_writeLE (m : List Host.Cell) (a n x : Nat) : readLE (writeLE m a n x) a n = x % 256 ^ n := by
  unfold readLE writeLE
  have := readBytes_writeBytes (a := a) (bs := leBytes n x) (m := m)
  rw [length_leBytes] at this
  rw [this, leNat_leBytes]

end Sys2Proof.Machine
end

