-- ==== Sys2Proof/Laws/Tab.lean ====
section
/-! SUPPORT. Reading a table after writing it, in any order of its entries. -/

namespace Sys2Proof.Machine

/-- The entry of a key after it is set. -/
@[simp] theorem tabFind_tabSet {α : Type} (t : Tab α) (k : Nat) (v : α) : tabFind (tabSet t k v) k = some v := by
  induction t with
  | nil => simp [tabSet, tabFind]
  | cons e t ih =>
    obtain ⟨k', v'⟩ := e
    simp only [tabSet]
    split
    · simp [tabFind]
    · split
      · simp [tabFind]
      · simp [tabFind, *]

/-- Another key's entry after a key is set. -/
theorem tabFind_tabSet_ne {α : Type} (t : Tab α) {k j : Nat} (v : α) (h : j ≠ k) : tabFind (tabSet t k v) j = tabFind t j := by
  induction t with
  | nil => simp [tabSet, tabFind, Ne.symm h]
  | cons e t ih =>
    obtain ⟨k', v'⟩ := e
    simp only [tabSet]
    split
    · rename_i e; subst e; simp [tabFind, Ne.symm h]
    · split
      · simp [tabFind, Ne.symm h]
      · simp [tabFind, ih]

/-- The value of a key after it is set. -/
@[simp] theorem tabGet_tabSet {α : Type} (t : Tab α) (d : α) (k : Nat) (v : α) : tabGet (tabSet t k v) d k = v := by
  simp [tabGet]

/-- Another key's value after a key is set. -/
theorem tabGet_tabSet_ne {α : Type} (t : Tab α) (d : α) {k j : Nat} (v : α) (h : j ≠ k) :
    tabGet (tabSet t k v) d j = tabGet t d j := by
  simp [tabGet, tabFind_tabSet_ne t v h]

/-- The last value set for a key counts. -/
@[simp] theorem tabSet_tabSet {α : Type} (t : Tab α) (k : Nat) (v w : α) : tabSet (tabSet t k v) k w = tabSet t k w := by
  induction t with
  | nil => simp [tabSet]
  | cons e t ih =>
    obtain ⟨k', v'⟩ := e
    simp only [tabSet]
    split
    · simp [tabSet]
    · split
      · simp [tabSet]
      · simp [tabSet, *]

/-- A removed key has no entry. -/
@[simp] theorem tabFind_tabDel {α : Type} (t : Tab α) (k : Nat) : tabFind (tabDel t k) k = none := by
  induction t with
  | nil => rfl
  | cons e t ih =>
    obtain ⟨k', v'⟩ := e
    simp only [tabDel]
    split
    · exact ih
    · simp [tabFind, *]

/-- Another key's entry after a key is removed. -/
theorem tabFind_tabDel_ne {α : Type} (t : Tab α) {k j : Nat} (h : j ≠ k) : tabFind (tabDel t k) j = tabFind t j := by
  induction t with
  | nil => rfl
  | cons e t ih =>
    obtain ⟨k', v'⟩ := e
    simp only [tabDel]
    split
    · rename_i e; subst e; simp [tabFind, Ne.symm h, ih]
    · simp [tabFind, ih]

end Sys2Proof.Machine
end

