-- ==== Sys2Proof/Laws/State.lean ====
section
/-! SUPPORT. What each update of a state and of a slot leaves and sets, field by field, all true by rfl, and the reads after the
writes of slots, cores and scalar registers. -/

namespace Sys2Proof.Machine

section fields

variable (s : State) (q k r : Nat) (x : Slot) (c : Core) (y : Queue) (v : Word) (p : Option PTag) (e : LoopEntry)

@[simp] theorem State.setSlot_agenda  : (s.setSlot q x).agenda = s.agenda := rfl
@[simp] theorem State.setSlot_cur  : (s.setSlot q x).cur = s.cur := rfl
@[simp] theorem State.setSlot_turn  : (s.setSlot q x).turn = s.turn := rfl
@[simp] theorem State.setSlot_free  : (s.setSlot q x).free = s.free := rfl
@[simp] theorem State.setSlot_cores  : (s.setSlot q x).cores = s.cores := rfl
@[simp] theorem State.setSlot_mem  : (s.setSlot q x).mem = s.mem := rfl
@[simp] theorem State.setSlot_poison  : (s.setSlot q x).poison = s.poison := rfl
@[simp] theorem State.setSlot_sectors  : (s.setSlot q x).sectors = s.sectors := rfl
@[simp] theorem State.setSlot_spbase  : (s.setSlot q x).spbase = s.spbase := rfl
@[simp] theorem State.setSlot_tlb  : (s.setSlot q x).tlb = s.tlb := rfl
@[simp] theorem State.setSlot_asidUse  : (s.setSlot q x).asidUse = s.asidUse := rfl
@[simp] theorem State.setSlot_stores  : (s.setSlot q x).stores = s.stores := rfl
@[simp] theorem State.setSlot_copies  : (s.setSlot q x).copies = s.copies := rfl
@[simp] theorem State.setSlot_cmds  : (s.setSlot q x).cmds = s.cmds := rfl
@[simp] theorem State.setSlot_nextOp  : (s.setSlot q x).nextOp = s.nextOp := rfl
@[simp] theorem State.setSlot_migrations  : (s.setSlot q x).migrations = s.migrations := rfl
@[simp] theorem State.setSlot_images  : (s.setSlot q x).images = s.images := rfl
@[simp] theorem State.setSlot_saved  : (s.setSlot q x).saved = s.saved := rfl
@[simp] theorem State.setSlot_nextCtx  : (s.setSlot q x).nextCtx = s.nextCtx := rfl
@[simp] theorem State.setSlot_nextOrder  : (s.setSlot q x).nextOrder = s.nextOrder := rfl
@[simp] theorem State.setSlot_pool  : (s.setSlot q x).pool = s.pool := rfl
@[simp] theorem State.setSlot_shares  : (s.setSlot q x).shares = s.shares := rfl
@[simp] theorem State.setSlot_queues  : (s.setSlot q x).queues = s.queues := rfl
@[simp] theorem State.setSlot_tasks  : (s.setSlot q x).tasks = s.tasks := rfl
@[simp] theorem State.setSlot_kernels  : (s.setSlot q x).kernels = s.kernels := rfl
@[simp] theorem State.setSlot_walkers  : (s.setSlot q x).walkers = s.walkers := rfl
@[simp] theorem State.setSlot_futPoison  : (s.setSlot q x).futPoison = s.futPoison := rfl
@[simp] theorem State.setSlot_regions  : (s.setSlot q x).regions = s.regions := rfl
@[simp] theorem State.setSlot_errors  : (s.setSlot q x).errors = s.errors := rfl
@[simp] theorem State.setSlot_cxlBytes  : (s.setSlot q x).cxlBytes = s.cxlBytes := rfl
@[simp] theorem State.setSlot_cxlPoison  : (s.setSlot q x).cxlPoison = s.cxlPoison := rfl
@[simp] theorem State.setSlot_cxlWays  : (s.setSlot q x).cxlWays = s.cxlWays := rfl
@[simp] theorem State.setSlot_cxlGran  : (s.setSlot q x).cxlGran = s.cxlGran := rfl
@[simp] theorem State.setSlot_bar4  : (s.setSlot q x).bar4 = s.bar4 := rfl
@[simp] theorem State.setSlot_heldReads  : (s.setSlot q x).heldReads = s.heldReads := rfl
@[simp] theorem State.setSlot_out  : (s.setSlot q x).out = s.out := rfl
@[simp] theorem State.setSlot_deadStacks  : (s.setSlot q x).deadStacks = s.deadStacks := rfl
@[simp] theorem State.setSlot_deadPorts  : (s.setSlot q x).deadPorts = s.deadPorts := rfl
@[simp] theorem State.setSlot_asidTab  : (s.setSlot q x).asidTab = s.asidTab := rfl
@[simp] theorem State.setSlot_qtab  : (s.setSlot q x).qtab = s.qtab := rfl
@[simp] theorem State.setSlot_errq  : (s.setSlot q x).errq = s.errq := rfl
@[simp] theorem State.setSlot_errEntry  : (s.setSlot q x).errEntry = s.errEntry := rfl
@[simp] theorem State.setSlot_msix  : (s.setSlot q x).msix = s.msix := rfl
@[simp] theorem State.setSlot_hostDown  : (s.setSlot q x).hostDown = s.hostDown := rfl
@[simp] theorem State.setSlot_notify  : (s.setSlot q x).notify = s.notify := rfl
@[simp] theorem State.setSlot_nid  : (s.setSlot q x).nid = s.nid := rfl
@[simp] theorem State.setSlot_mgmt  : (s.setSlot q x).mgmt = s.mgmt := rfl
@[simp] theorem State.setSlot_quarUnits  : (s.setSlot q x).quarUnits = s.quarUnits := rfl
@[simp] theorem State.setSlot_muaris  : (s.setSlot q x).muaris = s.muaris := rfl
@[simp] theorem State.setSlot_sent  : (s.setSlot q x).sent = s.sent := rfl
@[simp] theorem State.setSlot_ageLimit  : (s.setSlot q x).ageLimit = s.ageLimit := rfl
@[simp] theorem State.setSlot_meshes  : (s.setSlot q x).meshes = s.meshes := rfl
@[simp] theorem State.setSlot_remaps  : (s.setSlot q x).remaps = s.remaps := rfl
@[simp] theorem State.setSlot_parts  : (s.setSlot q x).parts = s.parts := rfl
@[simp] theorem State.setSlot_proj  : (s.setSlot q x).proj = s.proj := rfl
@[simp] theorem State.setSlot_klinks  : (s.setSlot q x).klinks = s.klinks := rfl
@[simp] theorem State.setSlot_tables  : (s.setSlot q x).tables = s.tables := rfl

@[simp] theorem State.setCore_agenda  : (s.setCore k c).agenda = s.agenda := rfl
@[simp] theorem State.setCore_cur  : (s.setCore k c).cur = s.cur := rfl
@[simp] theorem State.setCore_turn  : (s.setCore k c).turn = s.turn := rfl
@[simp] theorem State.setCore_free  : (s.setCore k c).free = s.free := rfl
@[simp] theorem State.setCore_slots  : (s.setCore k c).slots = s.slots := rfl
@[simp] theorem State.setCore_mem  : (s.setCore k c).mem = s.mem := rfl
@[simp] theorem State.setCore_poison  : (s.setCore k c).poison = s.poison := rfl
@[simp] theorem State.setCore_sectors  : (s.setCore k c).sectors = s.sectors := rfl
@[simp] theorem State.setCore_spbase  : (s.setCore k c).spbase = s.spbase := rfl
@[simp] theorem State.setCore_tlb  : (s.setCore k c).tlb = s.tlb := rfl
@[simp] theorem State.setCore_asidUse  : (s.setCore k c).asidUse = s.asidUse := rfl
@[simp] theorem State.setCore_stores  : (s.setCore k c).stores = s.stores := rfl
@[simp] theorem State.setCore_copies  : (s.setCore k c).copies = s.copies := rfl
@[simp] theorem State.setCore_cmds  : (s.setCore k c).cmds = s.cmds := rfl
@[simp] theorem State.setCore_nextOp  : (s.setCore k c).nextOp = s.nextOp := rfl
@[simp] theorem State.setCore_migrations  : (s.setCore k c).migrations = s.migrations := rfl
@[simp] theorem State.setCore_images  : (s.setCore k c).images = s.images := rfl
@[simp] theorem State.setCore_saved  : (s.setCore k c).saved = s.saved := rfl
@[simp] theorem State.setCore_nextCtx  : (s.setCore k c).nextCtx = s.nextCtx := rfl
@[simp] theorem State.setCore_nextOrder  : (s.setCore k c).nextOrder = s.nextOrder := rfl
@[simp] theorem State.setCore_pool  : (s.setCore k c).pool = s.pool := rfl
@[simp] theorem State.setCore_shares  : (s.setCore k c).shares = s.shares := rfl
@[simp] theorem State.setCore_queues  : (s.setCore k c).queues = s.queues := rfl
@[simp] theorem State.setCore_tasks  : (s.setCore k c).tasks = s.tasks := rfl
@[simp] theorem State.setCore_kernels  : (s.setCore k c).kernels = s.kernels := rfl
@[simp] theorem State.setCore_walkers  : (s.setCore k c).walkers = s.walkers := rfl
@[simp] theorem State.setCore_futPoison  : (s.setCore k c).futPoison = s.futPoison := rfl
@[simp] theorem State.setCore_regions  : (s.setCore k c).regions = s.regions := rfl
@[simp] theorem State.setCore_errors  : (s.setCore k c).errors = s.errors := rfl
@[simp] theorem State.setCore_cxlBytes  : (s.setCore k c).cxlBytes = s.cxlBytes := rfl
@[simp] theorem State.setCore_cxlPoison  : (s.setCore k c).cxlPoison = s.cxlPoison := rfl
@[simp] theorem State.setCore_cxlWays  : (s.setCore k c).cxlWays = s.cxlWays := rfl
@[simp] theorem State.setCore_cxlGran  : (s.setCore k c).cxlGran = s.cxlGran := rfl
@[simp] theorem State.setCore_bar4  : (s.setCore k c).bar4 = s.bar4 := rfl
@[simp] theorem State.setCore_heldReads  : (s.setCore k c).heldReads = s.heldReads := rfl
@[simp] theorem State.setCore_out  : (s.setCore k c).out = s.out := rfl
@[simp] theorem State.setCore_deadStacks  : (s.setCore k c).deadStacks = s.deadStacks := rfl
@[simp] theorem State.setCore_deadPorts  : (s.setCore k c).deadPorts = s.deadPorts := rfl
@[simp] theorem State.setCore_asidTab  : (s.setCore k c).asidTab = s.asidTab := rfl
@[simp] theorem State.setCore_qtab  : (s.setCore k c).qtab = s.qtab := rfl
@[simp] theorem State.setCore_errq  : (s.setCore k c).errq = s.errq := rfl
@[simp] theorem State.setCore_errEntry  : (s.setCore k c).errEntry = s.errEntry := rfl
@[simp] theorem State.setCore_msix  : (s.setCore k c).msix = s.msix := rfl
@[simp] theorem State.setCore_hostDown  : (s.setCore k c).hostDown = s.hostDown := rfl
@[simp] theorem State.setCore_notify  : (s.setCore k c).notify = s.notify := rfl
@[simp] theorem State.setCore_nid  : (s.setCore k c).nid = s.nid := rfl
@[simp] theorem State.setCore_mgmt  : (s.setCore k c).mgmt = s.mgmt := rfl
@[simp] theorem State.setCore_quarUnits  : (s.setCore k c).quarUnits = s.quarUnits := rfl
@[simp] theorem State.setCore_muaris  : (s.setCore k c).muaris = s.muaris := rfl
@[simp] theorem State.setCore_sent  : (s.setCore k c).sent = s.sent := rfl
@[simp] theorem State.setCore_ageLimit  : (s.setCore k c).ageLimit = s.ageLimit := rfl
@[simp] theorem State.setCore_meshes  : (s.setCore k c).meshes = s.meshes := rfl
@[simp] theorem State.setCore_remaps  : (s.setCore k c).remaps = s.remaps := rfl
@[simp] theorem State.setCore_parts  : (s.setCore k c).parts = s.parts := rfl
@[simp] theorem State.setCore_proj  : (s.setCore k c).proj = s.proj := rfl
@[simp] theorem State.setCore_klinks  : (s.setCore k c).klinks = s.klinks := rfl
@[simp] theorem State.setCore_tables  : (s.setCore k c).tables = s.tables := rfl

@[simp] theorem State.setQueue_agenda  : (s.setQueue k y).agenda = s.agenda := rfl
@[simp] theorem State.setQueue_cur  : (s.setQueue k y).cur = s.cur := rfl
@[simp] theorem State.setQueue_turn  : (s.setQueue k y).turn = s.turn := rfl
@[simp] theorem State.setQueue_free  : (s.setQueue k y).free = s.free := rfl
@[simp] theorem State.setQueue_slots  : (s.setQueue k y).slots = s.slots := rfl
@[simp] theorem State.setQueue_cores  : (s.setQueue k y).cores = s.cores := rfl
@[simp] theorem State.setQueue_mem  : (s.setQueue k y).mem = s.mem := rfl
@[simp] theorem State.setQueue_poison  : (s.setQueue k y).poison = s.poison := rfl
@[simp] theorem State.setQueue_sectors  : (s.setQueue k y).sectors = s.sectors := rfl
@[simp] theorem State.setQueue_spbase  : (s.setQueue k y).spbase = s.spbase := rfl
@[simp] theorem State.setQueue_tlb  : (s.setQueue k y).tlb = s.tlb := rfl
@[simp] theorem State.setQueue_asidUse  : (s.setQueue k y).asidUse = s.asidUse := rfl
@[simp] theorem State.setQueue_stores  : (s.setQueue k y).stores = s.stores := rfl
@[simp] theorem State.setQueue_copies  : (s.setQueue k y).copies = s.copies := rfl
@[simp] theorem State.setQueue_cmds  : (s.setQueue k y).cmds = s.cmds := rfl
@[simp] theorem State.setQueue_nextOp  : (s.setQueue k y).nextOp = s.nextOp := rfl
@[simp] theorem State.setQueue_migrations  : (s.setQueue k y).migrations = s.migrations := rfl
@[simp] theorem State.setQueue_images  : (s.setQueue k y).images = s.images := rfl
@[simp] theorem State.setQueue_saved  : (s.setQueue k y).saved = s.saved := rfl
@[simp] theorem State.setQueue_nextCtx  : (s.setQueue k y).nextCtx = s.nextCtx := rfl
@[simp] theorem State.setQueue_nextOrder  : (s.setQueue k y).nextOrder = s.nextOrder := rfl
@[simp] theorem State.setQueue_pool  : (s.setQueue k y).pool = s.pool := rfl
@[simp] theorem State.setQueue_shares  : (s.setQueue k y).shares = s.shares := rfl
@[simp] theorem State.setQueue_tasks  : (s.setQueue k y).tasks = s.tasks := rfl
@[simp] theorem State.setQueue_kernels  : (s.setQueue k y).kernels = s.kernels := rfl
@[simp] theorem State.setQueue_walkers  : (s.setQueue k y).walkers = s.walkers := rfl
@[simp] theorem State.setQueue_futPoison  : (s.setQueue k y).futPoison = s.futPoison := rfl
@[simp] theorem State.setQueue_regions  : (s.setQueue k y).regions = s.regions := rfl
@[simp] theorem State.setQueue_errors  : (s.setQueue k y).errors = s.errors := rfl
@[simp] theorem State.setQueue_cxlBytes  : (s.setQueue k y).cxlBytes = s.cxlBytes := rfl
@[simp] theorem State.setQueue_cxlPoison  : (s.setQueue k y).cxlPoison = s.cxlPoison := rfl
@[simp] theorem State.setQueue_cxlWays  : (s.setQueue k y).cxlWays = s.cxlWays := rfl
@[simp] theorem State.setQueue_cxlGran  : (s.setQueue k y).cxlGran = s.cxlGran := rfl
@[simp] theorem State.setQueue_bar4  : (s.setQueue k y).bar4 = s.bar4 := rfl
@[simp] theorem State.setQueue_heldReads  : (s.setQueue k y).heldReads = s.heldReads := rfl
@[simp] theorem State.setQueue_out  : (s.setQueue k y).out = s.out := rfl
@[simp] theorem State.setQueue_deadStacks  : (s.setQueue k y).deadStacks = s.deadStacks := rfl
@[simp] theorem State.setQueue_deadPorts  : (s.setQueue k y).deadPorts = s.deadPorts := rfl
@[simp] theorem State.setQueue_asidTab  : (s.setQueue k y).asidTab = s.asidTab := rfl
@[simp] theorem State.setQueue_qtab  : (s.setQueue k y).qtab = s.qtab := rfl
@[simp] theorem State.setQueue_errq  : (s.setQueue k y).errq = s.errq := rfl
@[simp] theorem State.setQueue_errEntry  : (s.setQueue k y).errEntry = s.errEntry := rfl
@[simp] theorem State.setQueue_msix  : (s.setQueue k y).msix = s.msix := rfl
@[simp] theorem State.setQueue_hostDown  : (s.setQueue k y).hostDown = s.hostDown := rfl
@[simp] theorem State.setQueue_notify  : (s.setQueue k y).notify = s.notify := rfl
@[simp] theorem State.setQueue_nid  : (s.setQueue k y).nid = s.nid := rfl
@[simp] theorem State.setQueue_mgmt  : (s.setQueue k y).mgmt = s.mgmt := rfl
@[simp] theorem State.setQueue_quarUnits  : (s.setQueue k y).quarUnits = s.quarUnits := rfl
@[simp] theorem State.setQueue_muaris  : (s.setQueue k y).muaris = s.muaris := rfl
@[simp] theorem State.setQueue_sent  : (s.setQueue k y).sent = s.sent := rfl
@[simp] theorem State.setQueue_ageLimit  : (s.setQueue k y).ageLimit = s.ageLimit := rfl
@[simp] theorem State.setQueue_meshes  : (s.setQueue k y).meshes = s.meshes := rfl
@[simp] theorem State.setQueue_remaps  : (s.setQueue k y).remaps = s.remaps := rfl
@[simp] theorem State.setQueue_parts  : (s.setQueue k y).parts = s.parts := rfl
@[simp] theorem State.setQueue_proj  : (s.setQueue k y).proj = s.proj := rfl
@[simp] theorem State.setQueue_klinks  : (s.setQueue k y).klinks = s.klinks := rfl
@[simp] theorem State.setQueue_tables  : (s.setQueue k y).tables = s.tables := rfl

@[simp] theorem State.complete_agenda  : (s.complete q).agenda = s.agenda := rfl
@[simp] theorem State.complete_cur  : (s.complete q).cur = s.cur := rfl
@[simp] theorem State.complete_turn  : (s.complete q).turn = s.turn := rfl
@[simp] theorem State.complete_free  : (s.complete q).free = s.free := rfl
@[simp] theorem State.complete_cores  : (s.complete q).cores = s.cores := rfl
@[simp] theorem State.complete_mem  : (s.complete q).mem = s.mem := rfl
@[simp] theorem State.complete_poison  : (s.complete q).poison = s.poison := rfl
@[simp] theorem State.complete_sectors  : (s.complete q).sectors = s.sectors := rfl
@[simp] theorem State.complete_spbase  : (s.complete q).spbase = s.spbase := rfl
@[simp] theorem State.complete_tlb  : (s.complete q).tlb = s.tlb := rfl
@[simp] theorem State.complete_asidUse  : (s.complete q).asidUse = s.asidUse := rfl
@[simp] theorem State.complete_stores  : (s.complete q).stores = s.stores := rfl
@[simp] theorem State.complete_copies  : (s.complete q).copies = s.copies := rfl
@[simp] theorem State.complete_cmds  : (s.complete q).cmds = s.cmds := rfl
@[simp] theorem State.complete_nextOp  : (s.complete q).nextOp = s.nextOp := rfl
@[simp] theorem State.complete_migrations  : (s.complete q).migrations = s.migrations := rfl
@[simp] theorem State.complete_images  : (s.complete q).images = s.images := rfl
@[simp] theorem State.complete_saved  : (s.complete q).saved = s.saved := rfl
@[simp] theorem State.complete_nextCtx  : (s.complete q).nextCtx = s.nextCtx := rfl
@[simp] theorem State.complete_nextOrder  : (s.complete q).nextOrder = s.nextOrder := rfl
@[simp] theorem State.complete_pool  : (s.complete q).pool = s.pool := rfl
@[simp] theorem State.complete_shares  : (s.complete q).shares = s.shares := rfl
@[simp] theorem State.complete_queues  : (s.complete q).queues = s.queues := rfl
@[simp] theorem State.complete_tasks  : (s.complete q).tasks = s.tasks := rfl
@[simp] theorem State.complete_kernels  : (s.complete q).kernels = s.kernels := rfl
@[simp] theorem State.complete_walkers  : (s.complete q).walkers = s.walkers := rfl
@[simp] theorem State.complete_futPoison  : (s.complete q).futPoison = s.futPoison := rfl
@[simp] theorem State.complete_regions  : (s.complete q).regions = s.regions := rfl
@[simp] theorem State.complete_errors  : (s.complete q).errors = s.errors := rfl
@[simp] theorem State.complete_cxlBytes  : (s.complete q).cxlBytes = s.cxlBytes := rfl
@[simp] theorem State.complete_cxlPoison  : (s.complete q).cxlPoison = s.cxlPoison := rfl
@[simp] theorem State.complete_cxlWays  : (s.complete q).cxlWays = s.cxlWays := rfl
@[simp] theorem State.complete_cxlGran  : (s.complete q).cxlGran = s.cxlGran := rfl
@[simp] theorem State.complete_bar4  : (s.complete q).bar4 = s.bar4 := rfl
@[simp] theorem State.complete_heldReads  : (s.complete q).heldReads = s.heldReads := rfl
@[simp] theorem State.complete_out  : (s.complete q).out = s.out := rfl
@[simp] theorem State.complete_deadStacks  : (s.complete q).deadStacks = s.deadStacks := rfl
@[simp] theorem State.complete_deadPorts  : (s.complete q).deadPorts = s.deadPorts := rfl
@[simp] theorem State.complete_asidTab  : (s.complete q).asidTab = s.asidTab := rfl
@[simp] theorem State.complete_qtab  : (s.complete q).qtab = s.qtab := rfl
@[simp] theorem State.complete_errq  : (s.complete q).errq = s.errq := rfl
@[simp] theorem State.complete_errEntry  : (s.complete q).errEntry = s.errEntry := rfl
@[simp] theorem State.complete_msix  : (s.complete q).msix = s.msix := rfl
@[simp] theorem State.complete_hostDown  : (s.complete q).hostDown = s.hostDown := rfl
@[simp] theorem State.complete_notify  : (s.complete q).notify = s.notify := rfl
@[simp] theorem State.complete_nid  : (s.complete q).nid = s.nid := rfl
@[simp] theorem State.complete_mgmt  : (s.complete q).mgmt = s.mgmt := rfl
@[simp] theorem State.complete_quarUnits  : (s.complete q).quarUnits = s.quarUnits := rfl
@[simp] theorem State.complete_muaris  : (s.complete q).muaris = s.muaris := rfl
@[simp] theorem State.complete_sent  : (s.complete q).sent = s.sent := rfl
@[simp] theorem State.complete_ageLimit  : (s.complete q).ageLimit = s.ageLimit := rfl
@[simp] theorem State.complete_meshes  : (s.complete q).meshes = s.meshes := rfl
@[simp] theorem State.complete_remaps  : (s.complete q).remaps = s.remaps := rfl
@[simp] theorem State.complete_parts  : (s.complete q).parts = s.parts := rfl
@[simp] theorem State.complete_proj  : (s.complete q).proj = s.proj := rfl
@[simp] theorem State.complete_klinks  : (s.complete q).klinks = s.klinks := rfl
@[simp] theorem State.complete_tables  : (s.complete q).tables = s.tables := rfl

@[simp] theorem State.jump_agenda  : (s.jump q v).agenda = s.agenda := rfl
@[simp] theorem State.jump_cur  : (s.jump q v).cur = s.cur := rfl
@[simp] theorem State.jump_turn  : (s.jump q v).turn = s.turn := rfl
@[simp] theorem State.jump_free  : (s.jump q v).free = s.free := rfl
@[simp] theorem State.jump_cores  : (s.jump q v).cores = s.cores := rfl
@[simp] theorem State.jump_mem  : (s.jump q v).mem = s.mem := rfl
@[simp] theorem State.jump_poison  : (s.jump q v).poison = s.poison := rfl
@[simp] theorem State.jump_sectors  : (s.jump q v).sectors = s.sectors := rfl
@[simp] theorem State.jump_spbase  : (s.jump q v).spbase = s.spbase := rfl
@[simp] theorem State.jump_tlb  : (s.jump q v).tlb = s.tlb := rfl
@[simp] theorem State.jump_asidUse  : (s.jump q v).asidUse = s.asidUse := rfl
@[simp] theorem State.jump_stores  : (s.jump q v).stores = s.stores := rfl
@[simp] theorem State.jump_copies  : (s.jump q v).copies = s.copies := rfl
@[simp] theorem State.jump_cmds  : (s.jump q v).cmds = s.cmds := rfl
@[simp] theorem State.jump_nextOp  : (s.jump q v).nextOp = s.nextOp := rfl
@[simp] theorem State.jump_migrations  : (s.jump q v).migrations = s.migrations := rfl
@[simp] theorem State.jump_images  : (s.jump q v).images = s.images := rfl
@[simp] theorem State.jump_saved  : (s.jump q v).saved = s.saved := rfl
@[simp] theorem State.jump_nextCtx  : (s.jump q v).nextCtx = s.nextCtx := rfl
@[simp] theorem State.jump_nextOrder  : (s.jump q v).nextOrder = s.nextOrder := rfl
@[simp] theorem State.jump_pool  : (s.jump q v).pool = s.pool := rfl
@[simp] theorem State.jump_shares  : (s.jump q v).shares = s.shares := rfl
@[simp] theorem State.jump_queues  : (s.jump q v).queues = s.queues := rfl
@[simp] theorem State.jump_tasks  : (s.jump q v).tasks = s.tasks := rfl
@[simp] theorem State.jump_kernels  : (s.jump q v).kernels = s.kernels := rfl
@[simp] theorem State.jump_walkers  : (s.jump q v).walkers = s.walkers := rfl
@[simp] theorem State.jump_futPoison  : (s.jump q v).futPoison = s.futPoison := rfl
@[simp] theorem State.jump_regions  : (s.jump q v).regions = s.regions := rfl
@[simp] theorem State.jump_errors  : (s.jump q v).errors = s.errors := rfl
@[simp] theorem State.jump_cxlBytes  : (s.jump q v).cxlBytes = s.cxlBytes := rfl
@[simp] theorem State.jump_cxlPoison  : (s.jump q v).cxlPoison = s.cxlPoison := rfl
@[simp] theorem State.jump_cxlWays  : (s.jump q v).cxlWays = s.cxlWays := rfl
@[simp] theorem State.jump_cxlGran  : (s.jump q v).cxlGran = s.cxlGran := rfl
@[simp] theorem State.jump_bar4  : (s.jump q v).bar4 = s.bar4 := rfl
@[simp] theorem State.jump_heldReads  : (s.jump q v).heldReads = s.heldReads := rfl
@[simp] theorem State.jump_out  : (s.jump q v).out = s.out := rfl
@[simp] theorem State.jump_deadStacks  : (s.jump q v).deadStacks = s.deadStacks := rfl
@[simp] theorem State.jump_deadPorts  : (s.jump q v).deadPorts = s.deadPorts := rfl
@[simp] theorem State.jump_asidTab  : (s.jump q v).asidTab = s.asidTab := rfl
@[simp] theorem State.jump_qtab  : (s.jump q v).qtab = s.qtab := rfl
@[simp] theorem State.jump_errq  : (s.jump q v).errq = s.errq := rfl
@[simp] theorem State.jump_errEntry  : (s.jump q v).errEntry = s.errEntry := rfl
@[simp] theorem State.jump_msix  : (s.jump q v).msix = s.msix := rfl
@[simp] theorem State.jump_hostDown  : (s.jump q v).hostDown = s.hostDown := rfl
@[simp] theorem State.jump_notify  : (s.jump q v).notify = s.notify := rfl
@[simp] theorem State.jump_nid  : (s.jump q v).nid = s.nid := rfl
@[simp] theorem State.jump_mgmt  : (s.jump q v).mgmt = s.mgmt := rfl
@[simp] theorem State.jump_quarUnits  : (s.jump q v).quarUnits = s.quarUnits := rfl
@[simp] theorem State.jump_muaris  : (s.jump q v).muaris = s.muaris := rfl
@[simp] theorem State.jump_sent  : (s.jump q v).sent = s.sent := rfl
@[simp] theorem State.jump_ageLimit  : (s.jump q v).ageLimit = s.ageLimit := rfl
@[simp] theorem State.jump_meshes  : (s.jump q v).meshes = s.meshes := rfl
@[simp] theorem State.jump_remaps  : (s.jump q v).remaps = s.remaps := rfl
@[simp] theorem State.jump_parts  : (s.jump q v).parts = s.parts := rfl
@[simp] theorem State.jump_proj  : (s.jump q v).proj = s.proj := rfl
@[simp] theorem State.jump_klinks  : (s.jump q v).klinks = s.klinks := rfl
@[simp] theorem State.jump_tables  : (s.jump q v).tables = s.tables := rfl

@[simp] theorem State.finish_agenda  : (s.finish q r v p).agenda = s.agenda := rfl
@[simp] theorem State.finish_cur  : (s.finish q r v p).cur = s.cur := rfl
@[simp] theorem State.finish_turn  : (s.finish q r v p).turn = s.turn := rfl
@[simp] theorem State.finish_free  : (s.finish q r v p).free = s.free := rfl
@[simp] theorem State.finish_cores  : (s.finish q r v p).cores = s.cores := rfl
@[simp] theorem State.finish_mem  : (s.finish q r v p).mem = s.mem := rfl
@[simp] theorem State.finish_poison  : (s.finish q r v p).poison = s.poison := rfl
@[simp] theorem State.finish_sectors  : (s.finish q r v p).sectors = s.sectors := rfl
@[simp] theorem State.finish_spbase  : (s.finish q r v p).spbase = s.spbase := rfl
@[simp] theorem State.finish_tlb  : (s.finish q r v p).tlb = s.tlb := rfl
@[simp] theorem State.finish_asidUse  : (s.finish q r v p).asidUse = s.asidUse := rfl
@[simp] theorem State.finish_stores  : (s.finish q r v p).stores = s.stores := rfl
@[simp] theorem State.finish_copies  : (s.finish q r v p).copies = s.copies := rfl
@[simp] theorem State.finish_cmds  : (s.finish q r v p).cmds = s.cmds := rfl
@[simp] theorem State.finish_nextOp  : (s.finish q r v p).nextOp = s.nextOp := rfl
@[simp] theorem State.finish_migrations  : (s.finish q r v p).migrations = s.migrations := rfl
@[simp] theorem State.finish_images  : (s.finish q r v p).images = s.images := rfl
@[simp] theorem State.finish_saved  : (s.finish q r v p).saved = s.saved := rfl
@[simp] theorem State.finish_nextCtx  : (s.finish q r v p).nextCtx = s.nextCtx := rfl
@[simp] theorem State.finish_nextOrder  : (s.finish q r v p).nextOrder = s.nextOrder := rfl
@[simp] theorem State.finish_pool  : (s.finish q r v p).pool = s.pool := rfl
@[simp] theorem State.finish_shares  : (s.finish q r v p).shares = s.shares := rfl
@[simp] theorem State.finish_queues  : (s.finish q r v p).queues = s.queues := rfl
@[simp] theorem State.finish_tasks  : (s.finish q r v p).tasks = s.tasks := rfl
@[simp] theorem State.finish_kernels  : (s.finish q r v p).kernels = s.kernels := rfl
@[simp] theorem State.finish_walkers  : (s.finish q r v p).walkers = s.walkers := rfl
@[simp] theorem State.finish_futPoison  : (s.finish q r v p).futPoison = s.futPoison := rfl
@[simp] theorem State.finish_regions  : (s.finish q r v p).regions = s.regions := rfl
@[simp] theorem State.finish_errors  : (s.finish q r v p).errors = s.errors := rfl
@[simp] theorem State.finish_cxlBytes  : (s.finish q r v p).cxlBytes = s.cxlBytes := rfl
@[simp] theorem State.finish_cxlPoison  : (s.finish q r v p).cxlPoison = s.cxlPoison := rfl
@[simp] theorem State.finish_cxlWays  : (s.finish q r v p).cxlWays = s.cxlWays := rfl
@[simp] theorem State.finish_cxlGran  : (s.finish q r v p).cxlGran = s.cxlGran := rfl
@[simp] theorem State.finish_bar4  : (s.finish q r v p).bar4 = s.bar4 := rfl
@[simp] theorem State.finish_heldReads  : (s.finish q r v p).heldReads = s.heldReads := rfl
@[simp] theorem State.finish_out  : (s.finish q r v p).out = s.out := rfl
@[simp] theorem State.finish_deadStacks  : (s.finish q r v p).deadStacks = s.deadStacks := rfl
@[simp] theorem State.finish_deadPorts  : (s.finish q r v p).deadPorts = s.deadPorts := rfl
@[simp] theorem State.finish_asidTab  : (s.finish q r v p).asidTab = s.asidTab := rfl
@[simp] theorem State.finish_qtab  : (s.finish q r v p).qtab = s.qtab := rfl
@[simp] theorem State.finish_errq  : (s.finish q r v p).errq = s.errq := rfl
@[simp] theorem State.finish_errEntry  : (s.finish q r v p).errEntry = s.errEntry := rfl
@[simp] theorem State.finish_msix  : (s.finish q r v p).msix = s.msix := rfl
@[simp] theorem State.finish_hostDown  : (s.finish q r v p).hostDown = s.hostDown := rfl
@[simp] theorem State.finish_notify  : (s.finish q r v p).notify = s.notify := rfl
@[simp] theorem State.finish_nid  : (s.finish q r v p).nid = s.nid := rfl
@[simp] theorem State.finish_mgmt  : (s.finish q r v p).mgmt = s.mgmt := rfl
@[simp] theorem State.finish_quarUnits  : (s.finish q r v p).quarUnits = s.quarUnits := rfl
@[simp] theorem State.finish_muaris  : (s.finish q r v p).muaris = s.muaris := rfl
@[simp] theorem State.finish_sent  : (s.finish q r v p).sent = s.sent := rfl
@[simp] theorem State.finish_ageLimit  : (s.finish q r v p).ageLimit = s.ageLimit := rfl
@[simp] theorem State.finish_meshes  : (s.finish q r v p).meshes = s.meshes := rfl
@[simp] theorem State.finish_remaps  : (s.finish q r v p).remaps = s.remaps := rfl
@[simp] theorem State.finish_parts  : (s.finish q r v p).parts = s.parts := rfl
@[simp] theorem State.finish_proj  : (s.finish q r v p).proj = s.proj := rfl
@[simp] theorem State.finish_klinks  : (s.finish q r v p).klinks = s.klinks := rfl
@[simp] theorem State.finish_tables  : (s.finish q r v p).tables = s.tables := rfl

@[simp] theorem State.stallSlot_agenda (w : Stall) : (s.stallSlot q w).agenda = s.agenda := rfl
@[simp] theorem State.stallSlot_cur (w : Stall) : (s.stallSlot q w).cur = s.cur := rfl
@[simp] theorem State.stallSlot_turn (w : Stall) : (s.stallSlot q w).turn = s.turn := rfl
@[simp] theorem State.stallSlot_free (w : Stall) : (s.stallSlot q w).free = s.free := rfl
@[simp] theorem State.stallSlot_cores (w : Stall) : (s.stallSlot q w).cores = s.cores := rfl
@[simp] theorem State.stallSlot_mem (w : Stall) : (s.stallSlot q w).mem = s.mem := rfl
@[simp] theorem State.stallSlot_poison (w : Stall) : (s.stallSlot q w).poison = s.poison := rfl
@[simp] theorem State.stallSlot_sectors (w : Stall) : (s.stallSlot q w).sectors = s.sectors := rfl
@[simp] theorem State.stallSlot_spbase (w : Stall) : (s.stallSlot q w).spbase = s.spbase := rfl
@[simp] theorem State.stallSlot_tlb (w : Stall) : (s.stallSlot q w).tlb = s.tlb := rfl
@[simp] theorem State.stallSlot_asidUse (w : Stall) : (s.stallSlot q w).asidUse = s.asidUse := rfl
@[simp] theorem State.stallSlot_stores (w : Stall) : (s.stallSlot q w).stores = s.stores := rfl
@[simp] theorem State.stallSlot_copies (w : Stall) : (s.stallSlot q w).copies = s.copies := rfl
@[simp] theorem State.stallSlot_cmds (w : Stall) : (s.stallSlot q w).cmds = s.cmds := rfl
@[simp] theorem State.stallSlot_nextOp (w : Stall) : (s.stallSlot q w).nextOp = s.nextOp := rfl
@[simp] theorem State.stallSlot_migrations (w : Stall) : (s.stallSlot q w).migrations = s.migrations := rfl
@[simp] theorem State.stallSlot_images (w : Stall) : (s.stallSlot q w).images = s.images := rfl
@[simp] theorem State.stallSlot_saved (w : Stall) : (s.stallSlot q w).saved = s.saved := rfl
@[simp] theorem State.stallSlot_nextCtx (w : Stall) : (s.stallSlot q w).nextCtx = s.nextCtx := rfl
@[simp] theorem State.stallSlot_nextOrder (w : Stall) : (s.stallSlot q w).nextOrder = s.nextOrder := rfl
@[simp] theorem State.stallSlot_pool (w : Stall) : (s.stallSlot q w).pool = s.pool := rfl
@[simp] theorem State.stallSlot_shares (w : Stall) : (s.stallSlot q w).shares = s.shares := rfl
@[simp] theorem State.stallSlot_queues (w : Stall) : (s.stallSlot q w).queues = s.queues := rfl
@[simp] theorem State.stallSlot_tasks (w : Stall) : (s.stallSlot q w).tasks = s.tasks := rfl
@[simp] theorem State.stallSlot_kernels (w : Stall) : (s.stallSlot q w).kernels = s.kernels := rfl
@[simp] theorem State.stallSlot_walkers (w : Stall) : (s.stallSlot q w).walkers = s.walkers := rfl
@[simp] theorem State.stallSlot_futPoison (w : Stall) : (s.stallSlot q w).futPoison = s.futPoison := rfl
@[simp] theorem State.stallSlot_regions (w : Stall) : (s.stallSlot q w).regions = s.regions := rfl
@[simp] theorem State.stallSlot_errors (w : Stall) : (s.stallSlot q w).errors = s.errors := rfl
@[simp] theorem State.stallSlot_cxlBytes (w : Stall) : (s.stallSlot q w).cxlBytes = s.cxlBytes := rfl
@[simp] theorem State.stallSlot_cxlPoison (w : Stall) : (s.stallSlot q w).cxlPoison = s.cxlPoison := rfl
@[simp] theorem State.stallSlot_cxlWays (w : Stall) : (s.stallSlot q w).cxlWays = s.cxlWays := rfl
@[simp] theorem State.stallSlot_cxlGran (w : Stall) : (s.stallSlot q w).cxlGran = s.cxlGran := rfl
@[simp] theorem State.stallSlot_bar4 (w : Stall) : (s.stallSlot q w).bar4 = s.bar4 := rfl
@[simp] theorem State.stallSlot_heldReads (w : Stall) : (s.stallSlot q w).heldReads = s.heldReads := rfl
@[simp] theorem State.stallSlot_out (w : Stall) : (s.stallSlot q w).out = s.out := rfl
@[simp] theorem State.stallSlot_deadStacks (w : Stall) : (s.stallSlot q w).deadStacks = s.deadStacks := rfl
@[simp] theorem State.stallSlot_deadPorts (w : Stall) : (s.stallSlot q w).deadPorts = s.deadPorts := rfl
@[simp] theorem State.stallSlot_asidTab (w : Stall) : (s.stallSlot q w).asidTab = s.asidTab := rfl
@[simp] theorem State.stallSlot_qtab (w : Stall) : (s.stallSlot q w).qtab = s.qtab := rfl
@[simp] theorem State.stallSlot_errq (w : Stall) : (s.stallSlot q w).errq = s.errq := rfl
@[simp] theorem State.stallSlot_errEntry (w : Stall) : (s.stallSlot q w).errEntry = s.errEntry := rfl
@[simp] theorem State.stallSlot_msix (w : Stall) : (s.stallSlot q w).msix = s.msix := rfl
@[simp] theorem State.stallSlot_hostDown (w : Stall) : (s.stallSlot q w).hostDown = s.hostDown := rfl
@[simp] theorem State.stallSlot_notify (w : Stall) : (s.stallSlot q w).notify = s.notify := rfl
@[simp] theorem State.stallSlot_nid (w : Stall) : (s.stallSlot q w).nid = s.nid := rfl
@[simp] theorem State.stallSlot_mgmt (w : Stall) : (s.stallSlot q w).mgmt = s.mgmt := rfl
@[simp] theorem State.stallSlot_quarUnits (w : Stall) : (s.stallSlot q w).quarUnits = s.quarUnits := rfl
@[simp] theorem State.stallSlot_muaris (w : Stall) : (s.stallSlot q w).muaris = s.muaris := rfl
@[simp] theorem State.stallSlot_sent (w : Stall) : (s.stallSlot q w).sent = s.sent := rfl
@[simp] theorem State.stallSlot_ageLimit (w : Stall) : (s.stallSlot q w).ageLimit = s.ageLimit := rfl
@[simp] theorem State.stallSlot_meshes (w : Stall) : (s.stallSlot q w).meshes = s.meshes := rfl
@[simp] theorem State.stallSlot_remaps (w : Stall) : (s.stallSlot q w).remaps = s.remaps := rfl
@[simp] theorem State.stallSlot_parts (w : Stall) : (s.stallSlot q w).parts = s.parts := rfl
@[simp] theorem State.stallSlot_proj (w : Stall) : (s.stallSlot q w).proj = s.proj := rfl
@[simp] theorem State.stallSlot_klinks (w : Stall) : (s.stallSlot q w).klinks = s.klinks := rfl
@[simp] theorem State.stallSlot_tables (w : Stall) : (s.stallSlot q w).tables = s.tables := rfl

@[simp] theorem State.bumpOp_agenda : (bumpOp s).agenda = s.agenda := rfl
@[simp] theorem State.bumpOp_cur : (bumpOp s).cur = s.cur := rfl
@[simp] theorem State.bumpOp_turn : (bumpOp s).turn = s.turn := rfl
@[simp] theorem State.bumpOp_free : (bumpOp s).free = s.free := rfl
@[simp] theorem State.bumpOp_slots : (bumpOp s).slots = s.slots := rfl
@[simp] theorem State.bumpOp_cores : (bumpOp s).cores = s.cores := rfl
@[simp] theorem State.bumpOp_mem : (bumpOp s).mem = s.mem := rfl
@[simp] theorem State.bumpOp_poison : (bumpOp s).poison = s.poison := rfl
@[simp] theorem State.bumpOp_sectors : (bumpOp s).sectors = s.sectors := rfl
@[simp] theorem State.bumpOp_spbase : (bumpOp s).spbase = s.spbase := rfl
@[simp] theorem State.bumpOp_tlb : (bumpOp s).tlb = s.tlb := rfl
@[simp] theorem State.bumpOp_asidUse : (bumpOp s).asidUse = s.asidUse := rfl
@[simp] theorem State.bumpOp_stores : (bumpOp s).stores = s.stores := rfl
@[simp] theorem State.bumpOp_copies : (bumpOp s).copies = s.copies := rfl
@[simp] theorem State.bumpOp_cmds : (bumpOp s).cmds = s.cmds := rfl
@[simp] theorem State.bumpOp_migrations : (bumpOp s).migrations = s.migrations := rfl
@[simp] theorem State.bumpOp_images : (bumpOp s).images = s.images := rfl
@[simp] theorem State.bumpOp_saved : (bumpOp s).saved = s.saved := rfl
@[simp] theorem State.bumpOp_nextCtx : (bumpOp s).nextCtx = s.nextCtx := rfl
@[simp] theorem State.bumpOp_nextOrder : (bumpOp s).nextOrder = s.nextOrder := rfl
@[simp] theorem State.bumpOp_pool : (bumpOp s).pool = s.pool := rfl
@[simp] theorem State.bumpOp_shares : (bumpOp s).shares = s.shares := rfl
@[simp] theorem State.bumpOp_queues : (bumpOp s).queues = s.queues := rfl
@[simp] theorem State.bumpOp_tasks : (bumpOp s).tasks = s.tasks := rfl
@[simp] theorem State.bumpOp_kernels : (bumpOp s).kernels = s.kernels := rfl
@[simp] theorem State.bumpOp_walkers : (bumpOp s).walkers = s.walkers := rfl
@[simp] theorem State.bumpOp_futPoison : (bumpOp s).futPoison = s.futPoison := rfl
@[simp] theorem State.bumpOp_regions : (bumpOp s).regions = s.regions := rfl
@[simp] theorem State.bumpOp_errors : (bumpOp s).errors = s.errors := rfl
@[simp] theorem State.bumpOp_cxlBytes : (bumpOp s).cxlBytes = s.cxlBytes := rfl
@[simp] theorem State.bumpOp_cxlPoison : (bumpOp s).cxlPoison = s.cxlPoison := rfl
@[simp] theorem State.bumpOp_cxlWays : (bumpOp s).cxlWays = s.cxlWays := rfl
@[simp] theorem State.bumpOp_cxlGran : (bumpOp s).cxlGran = s.cxlGran := rfl
@[simp] theorem State.bumpOp_bar4 : (bumpOp s).bar4 = s.bar4 := rfl
@[simp] theorem State.bumpOp_heldReads : (bumpOp s).heldReads = s.heldReads := rfl
@[simp] theorem State.bumpOp_out : (bumpOp s).out = s.out := rfl
@[simp] theorem State.bumpOp_deadStacks : (bumpOp s).deadStacks = s.deadStacks := rfl
@[simp] theorem State.bumpOp_deadPorts : (bumpOp s).deadPorts = s.deadPorts := rfl
@[simp] theorem State.bumpOp_asidTab : (bumpOp s).asidTab = s.asidTab := rfl
@[simp] theorem State.bumpOp_qtab : (bumpOp s).qtab = s.qtab := rfl
@[simp] theorem State.bumpOp_errq : (bumpOp s).errq = s.errq := rfl
@[simp] theorem State.bumpOp_errEntry : (bumpOp s).errEntry = s.errEntry := rfl
@[simp] theorem State.bumpOp_msix : (bumpOp s).msix = s.msix := rfl
@[simp] theorem State.bumpOp_hostDown : (bumpOp s).hostDown = s.hostDown := rfl
@[simp] theorem State.bumpOp_notify : (bumpOp s).notify = s.notify := rfl
@[simp] theorem State.bumpOp_nid : (bumpOp s).nid = s.nid := rfl
@[simp] theorem State.bumpOp_mgmt : (bumpOp s).mgmt = s.mgmt := rfl
@[simp] theorem State.bumpOp_quarUnits : (bumpOp s).quarUnits = s.quarUnits := rfl
@[simp] theorem State.bumpOp_muaris : (bumpOp s).muaris = s.muaris := rfl
@[simp] theorem State.bumpOp_sent : (bumpOp s).sent = s.sent := rfl
@[simp] theorem State.bumpOp_ageLimit : (bumpOp s).ageLimit = s.ageLimit := rfl
@[simp] theorem State.bumpOp_meshes : (bumpOp s).meshes = s.meshes := rfl
@[simp] theorem State.bumpOp_remaps : (bumpOp s).remaps = s.remaps := rfl
@[simp] theorem State.bumpOp_parts : (bumpOp s).parts = s.parts := rfl
@[simp] theorem State.bumpOp_proj : (bumpOp s).proj = s.proj := rfl
@[simp] theorem State.bumpOp_klinks : (bumpOp s).klinks = s.klinks := rfl
@[simp] theorem State.bumpOp_tables : (bumpOp s).tables = s.tables := rfl
@[simp] theorem State.bumpOp_nextOp : (bumpOp s).nextOp = s.nextOp + 1 := rfl

@[simp] theorem Slot.complete_mode : (x.complete).mode = x.mode := rfl
@[simp] theorem Slot.complete_level : (x.complete).level = x.level := rfl
@[simp] theorem Slot.complete_regs : (x.complete).regs = x.regs := rfl
@[simp] theorem Slot.complete_bank1 : (x.complete).bank1 = x.bank1 := rfl
@[simp] theorem Slot.complete_fflags : (x.complete).fflags = x.fflags := rfl
@[simp] theorem Slot.complete_frm : (x.complete).frm = x.frm := rfl
@[simp] theorem Slot.complete_vl : (x.complete).vl = x.vl := rfl
@[simp] theorem Slot.complete_vcfg : (x.complete).vcfg = x.vcfg := rfl
@[simp] theorem Slot.complete_vstart : (x.complete).vstart = x.vstart := rfl
@[simp] theorem Slot.complete_vlcap : (x.complete).vlcap = x.vlcap := rfl
@[simp] theorem Slot.complete_vdirty : (x.complete).vdirty = x.vdirty := rfl
@[simp] theorem Slot.complete_vowner : (x.complete).vowner = x.vowner := rfl
@[simp] theorem Slot.complete_vuse : (x.complete).vuse = x.vuse := rfl
@[simp] theorem Slot.complete_uivec : (x.complete).uivec = x.uivec := rfl
@[simp] theorem Slot.complete_uiepc : (x.complete).uiepc = x.uiepc := rfl
@[simp] theorem Slot.complete_uistat : (x.complete).uistat = x.uistat := rfl
@[simp] theorem Slot.complete_cnt : (x.complete).cnt = x.cnt := rfl
@[simp] theorem Slot.complete_accBase : (x.complete).accBase = x.accBase := rfl
@[simp] theorem Slot.complete_accLim : (x.complete).accLim = x.accLim := rfl
@[simp] theorem Slot.complete_reefTh : (x.complete).reefTh = x.reefTh := rfl
@[simp] theorem Slot.complete_reefTrap : (x.complete).reefTrap = x.reefTrap := rfl
@[simp] theorem Slot.complete_trapCause : (x.complete).trapCause = x.trapCause := rfl
@[simp] theorem Slot.complete_trapNested : (x.complete).trapNested = x.trapNested := rfl
@[simp] theorem Slot.complete_trapQueue : (x.complete).trapQueue = x.trapQueue := rfl
@[simp] theorem Slot.complete_trapFrlost : (x.complete).trapFrlost = x.trapFrlost := rfl
@[simp] theorem Slot.complete_trapPc : (x.complete).trapPc = x.trapPc := rfl
@[simp] theorem Slot.complete_trapAddr : (x.complete).trapAddr = x.trapAddr := rfl
@[simp] theorem Slot.complete_trapAux : (x.complete).trapAux = x.trapAux := rfl
@[simp] theorem Slot.complete_faultRec : (x.complete).faultRec = x.faultRec := rfl
@[simp] theorem Slot.complete_asid : (x.complete).asid = x.asid := rfl
@[simp] theorem Slot.complete_shtag : (x.complete).shtag = x.shtag := rfl
@[simp] theorem Slot.complete_prio : (x.complete).prio = x.prio := rfl
@[simp] theorem Slot.complete_csaBase : (x.complete).csaBase = x.csaBase := rfl
@[simp] theorem Slot.complete_rechk : (x.complete).rechk = x.rechk := rfl
@[simp] theorem Slot.complete_servedTag : (x.complete).servedTag = x.servedTag := rfl
@[simp] theorem Slot.complete_dueOrd : (x.complete).dueOrd = x.dueOrd := rfl
@[simp] theorem Slot.complete_vq : (x.complete).vq = x.vq := rfl
@[simp] theorem Slot.complete_laneBase : (x.complete).laneBase = x.laneBase := rfl
@[simp] theorem Slot.complete_laneCount : (x.complete).laneCount = x.laneCount := rfl
@[simp] theorem Slot.complete_due : (x.complete).due = x.due := rfl
@[simp] theorem Slot.complete_request : (x.complete).request = x.request := rfl
@[simp] theorem Slot.complete_ctx : (x.complete).ctx = x.ctx := rfl
@[simp] theorem Slot.complete_runPrio : (x.complete).runPrio = x.runPrio := rfl
@[simp] theorem Slot.complete_order : (x.complete).order = x.order := rfl
@[simp] theorem Slot.complete_charge : (x.complete).charge = x.charge := rfl

@[simp] theorem Slot.complete_st : x.complete.st = .run := rfl
@[simp] theorem Slot.complete_prev : x.complete.prev = some x.pc := rfl
@[simp] theorem Slot.complete_pc : x.complete.pc = (frameEnd x.pc x.loops false).1 := rfl
@[simp] theorem Slot.complete_loops : x.complete.loops = (frameEnd x.pc x.loops false).2.1 := rfl
@[simp] theorem Slot.complete_land : x.complete.land = (frameEnd x.pc x.loops false).2.2 := rfl

@[simp] theorem Slot.jump_mode : (x.jump v).mode = x.mode := rfl
@[simp] theorem Slot.jump_level : (x.jump v).level = x.level := rfl
@[simp] theorem Slot.jump_regs : (x.jump v).regs = x.regs := rfl
@[simp] theorem Slot.jump_bank1 : (x.jump v).bank1 = x.bank1 := rfl
@[simp] theorem Slot.jump_loops : (x.jump v).loops = x.loops := rfl
@[simp] theorem Slot.jump_fflags : (x.jump v).fflags = x.fflags := rfl
@[simp] theorem Slot.jump_frm : (x.jump v).frm = x.frm := rfl
@[simp] theorem Slot.jump_vl : (x.jump v).vl = x.vl := rfl
@[simp] theorem Slot.jump_vcfg : (x.jump v).vcfg = x.vcfg := rfl
@[simp] theorem Slot.jump_vstart : (x.jump v).vstart = x.vstart := rfl
@[simp] theorem Slot.jump_vlcap : (x.jump v).vlcap = x.vlcap := rfl
@[simp] theorem Slot.jump_vdirty : (x.jump v).vdirty = x.vdirty := rfl
@[simp] theorem Slot.jump_vowner : (x.jump v).vowner = x.vowner := rfl
@[simp] theorem Slot.jump_vuse : (x.jump v).vuse = x.vuse := rfl
@[simp] theorem Slot.jump_uivec : (x.jump v).uivec = x.uivec := rfl
@[simp] theorem Slot.jump_uiepc : (x.jump v).uiepc = x.uiepc := rfl
@[simp] theorem Slot.jump_uistat : (x.jump v).uistat = x.uistat := rfl
@[simp] theorem Slot.jump_cnt : (x.jump v).cnt = x.cnt := rfl
@[simp] theorem Slot.jump_accBase : (x.jump v).accBase = x.accBase := rfl
@[simp] theorem Slot.jump_accLim : (x.jump v).accLim = x.accLim := rfl
@[simp] theorem Slot.jump_reefTh : (x.jump v).reefTh = x.reefTh := rfl
@[simp] theorem Slot.jump_reefTrap : (x.jump v).reefTrap = x.reefTrap := rfl
@[simp] theorem Slot.jump_trapCause : (x.jump v).trapCause = x.trapCause := rfl
@[simp] theorem Slot.jump_trapNested : (x.jump v).trapNested = x.trapNested := rfl
@[simp] theorem Slot.jump_trapQueue : (x.jump v).trapQueue = x.trapQueue := rfl
@[simp] theorem Slot.jump_trapFrlost : (x.jump v).trapFrlost = x.trapFrlost := rfl
@[simp] theorem Slot.jump_trapPc : (x.jump v).trapPc = x.trapPc := rfl
@[simp] theorem Slot.jump_trapAddr : (x.jump v).trapAddr = x.trapAddr := rfl
@[simp] theorem Slot.jump_trapAux : (x.jump v).trapAux = x.trapAux := rfl
@[simp] theorem Slot.jump_faultRec : (x.jump v).faultRec = x.faultRec := rfl
@[simp] theorem Slot.jump_asid : (x.jump v).asid = x.asid := rfl
@[simp] theorem Slot.jump_shtag : (x.jump v).shtag = x.shtag := rfl
@[simp] theorem Slot.jump_prio : (x.jump v).prio = x.prio := rfl
@[simp] theorem Slot.jump_csaBase : (x.jump v).csaBase = x.csaBase := rfl
@[simp] theorem Slot.jump_rechk : (x.jump v).rechk = x.rechk := rfl
@[simp] theorem Slot.jump_servedTag : (x.jump v).servedTag = x.servedTag := rfl
@[simp] theorem Slot.jump_dueOrd : (x.jump v).dueOrd = x.dueOrd := rfl
@[simp] theorem Slot.jump_vq : (x.jump v).vq = x.vq := rfl
@[simp] theorem Slot.jump_laneBase : (x.jump v).laneBase = x.laneBase := rfl
@[simp] theorem Slot.jump_laneCount : (x.jump v).laneCount = x.laneCount := rfl
@[simp] theorem Slot.jump_due : (x.jump v).due = x.due := rfl
@[simp] theorem Slot.jump_request : (x.jump v).request = x.request := rfl
@[simp] theorem Slot.jump_ctx : (x.jump v).ctx = x.ctx := rfl
@[simp] theorem Slot.jump_runPrio : (x.jump v).runPrio = x.runPrio := rfl
@[simp] theorem Slot.jump_order : (x.jump v).order = x.order := rfl
@[simp] theorem Slot.jump_charge : (x.jump v).charge = x.charge := rfl

@[simp] theorem Slot.jump_st : (x.jump v).st = .run := rfl
@[simp] theorem Slot.jump_prev : (x.jump v).prev = x.pc := rfl
@[simp] theorem Slot.jump_pc : (x.jump v).pc = v := rfl
@[simp] theorem Slot.jump_land : (x.jump v).land = false := rfl

@[simp] theorem Slot.clampVl_st : (x.clampVl).st = x.st := rfl
@[simp] theorem Slot.clampVl_mode : (x.clampVl).mode = x.mode := rfl
@[simp] theorem Slot.clampVl_level : (x.clampVl).level = x.level := rfl
@[simp] theorem Slot.clampVl_pc : (x.clampVl).pc = x.pc := rfl
@[simp] theorem Slot.clampVl_prev : (x.clampVl).prev = x.prev := rfl
@[simp] theorem Slot.clampVl_land : (x.clampVl).land = x.land := rfl
@[simp] theorem Slot.clampVl_regs : (x.clampVl).regs = x.regs := rfl
@[simp] theorem Slot.clampVl_bank1 : (x.clampVl).bank1 = x.bank1 := rfl
@[simp] theorem Slot.clampVl_loops : (x.clampVl).loops = x.loops := rfl
@[simp] theorem Slot.clampVl_fflags : (x.clampVl).fflags = x.fflags := rfl
@[simp] theorem Slot.clampVl_frm : (x.clampVl).frm = x.frm := rfl
@[simp] theorem Slot.clampVl_vcfg : (x.clampVl).vcfg = x.vcfg := rfl
@[simp] theorem Slot.clampVl_vstart : (x.clampVl).vstart = x.vstart := rfl
@[simp] theorem Slot.clampVl_vlcap : (x.clampVl).vlcap = x.vlcap := rfl
@[simp] theorem Slot.clampVl_vdirty : (x.clampVl).vdirty = x.vdirty := rfl
@[simp] theorem Slot.clampVl_vowner : (x.clampVl).vowner = x.vowner := rfl
@[simp] theorem Slot.clampVl_vuse : (x.clampVl).vuse = x.vuse := rfl
@[simp] theorem Slot.clampVl_uivec : (x.clampVl).uivec = x.uivec := rfl
@[simp] theorem Slot.clampVl_uiepc : (x.clampVl).uiepc = x.uiepc := rfl
@[simp] theorem Slot.clampVl_uistat : (x.clampVl).uistat = x.uistat := rfl
@[simp] theorem Slot.clampVl_cnt : (x.clampVl).cnt = x.cnt := rfl
@[simp] theorem Slot.clampVl_accBase : (x.clampVl).accBase = x.accBase := rfl
@[simp] theorem Slot.clampVl_accLim : (x.clampVl).accLim = x.accLim := rfl
@[simp] theorem Slot.clampVl_reefTh : (x.clampVl).reefTh = x.reefTh := rfl
@[simp] theorem Slot.clampVl_reefTrap : (x.clampVl).reefTrap = x.reefTrap := rfl
@[simp] theorem Slot.clampVl_trapCause : (x.clampVl).trapCause = x.trapCause := rfl
@[simp] theorem Slot.clampVl_trapNested : (x.clampVl).trapNested = x.trapNested := rfl
@[simp] theorem Slot.clampVl_trapQueue : (x.clampVl).trapQueue = x.trapQueue := rfl
@[simp] theorem Slot.clampVl_trapFrlost : (x.clampVl).trapFrlost = x.trapFrlost := rfl
@[simp] theorem Slot.clampVl_trapPc : (x.clampVl).trapPc = x.trapPc := rfl
@[simp] theorem Slot.clampVl_trapAddr : (x.clampVl).trapAddr = x.trapAddr := rfl
@[simp] theorem Slot.clampVl_trapAux : (x.clampVl).trapAux = x.trapAux := rfl
@[simp] theorem Slot.clampVl_faultRec : (x.clampVl).faultRec = x.faultRec := rfl
@[simp] theorem Slot.clampVl_asid : (x.clampVl).asid = x.asid := rfl
@[simp] theorem Slot.clampVl_shtag : (x.clampVl).shtag = x.shtag := rfl
@[simp] theorem Slot.clampVl_prio : (x.clampVl).prio = x.prio := rfl
@[simp] theorem Slot.clampVl_csaBase : (x.clampVl).csaBase = x.csaBase := rfl
@[simp] theorem Slot.clampVl_rechk : (x.clampVl).rechk = x.rechk := rfl
@[simp] theorem Slot.clampVl_servedTag : (x.clampVl).servedTag = x.servedTag := rfl
@[simp] theorem Slot.clampVl_dueOrd : (x.clampVl).dueOrd = x.dueOrd := rfl
@[simp] theorem Slot.clampVl_vq : (x.clampVl).vq = x.vq := rfl
@[simp] theorem Slot.clampVl_laneBase : (x.clampVl).laneBase = x.laneBase := rfl
@[simp] theorem Slot.clampVl_laneCount : (x.clampVl).laneCount = x.laneCount := rfl
@[simp] theorem Slot.clampVl_due : (x.clampVl).due = x.due := rfl
@[simp] theorem Slot.clampVl_request : (x.clampVl).request = x.request := rfl
@[simp] theorem Slot.clampVl_ctx : (x.clampVl).ctx = x.ctx := rfl
@[simp] theorem Slot.clampVl_runPrio : (x.clampVl).runPrio = x.runPrio := rfl
@[simp] theorem Slot.clampVl_order : (x.clampVl).order = x.order := rfl
@[simp] theorem Slot.clampVl_charge : (x.clampVl).charge = x.charge := rfl

@[simp] theorem Slot.clampVl_vl : x.clampVl.vl = min x.vl (x.vlmax x.vcfg) := rfl

@[simp] theorem Slot.addFlags_st (f : BitVec 5) : (x.addFlags f).st = x.st := rfl
@[simp] theorem Slot.addFlags_mode (f : BitVec 5) : (x.addFlags f).mode = x.mode := rfl
@[simp] theorem Slot.addFlags_level (f : BitVec 5) : (x.addFlags f).level = x.level := rfl
@[simp] theorem Slot.addFlags_pc (f : BitVec 5) : (x.addFlags f).pc = x.pc := rfl
@[simp] theorem Slot.addFlags_prev (f : BitVec 5) : (x.addFlags f).prev = x.prev := rfl
@[simp] theorem Slot.addFlags_land (f : BitVec 5) : (x.addFlags f).land = x.land := rfl
@[simp] theorem Slot.addFlags_regs (f : BitVec 5) : (x.addFlags f).regs = x.regs := rfl
@[simp] theorem Slot.addFlags_bank1 (f : BitVec 5) : (x.addFlags f).bank1 = x.bank1 := rfl
@[simp] theorem Slot.addFlags_loops (f : BitVec 5) : (x.addFlags f).loops = x.loops := rfl
@[simp] theorem Slot.addFlags_frm (f : BitVec 5) : (x.addFlags f).frm = x.frm := rfl
@[simp] theorem Slot.addFlags_vl (f : BitVec 5) : (x.addFlags f).vl = x.vl := rfl
@[simp] theorem Slot.addFlags_vcfg (f : BitVec 5) : (x.addFlags f).vcfg = x.vcfg := rfl
@[simp] theorem Slot.addFlags_vstart (f : BitVec 5) : (x.addFlags f).vstart = x.vstart := rfl
@[simp] theorem Slot.addFlags_vlcap (f : BitVec 5) : (x.addFlags f).vlcap = x.vlcap := rfl
@[simp] theorem Slot.addFlags_vdirty (f : BitVec 5) : (x.addFlags f).vdirty = x.vdirty := rfl
@[simp] theorem Slot.addFlags_vowner (f : BitVec 5) : (x.addFlags f).vowner = x.vowner := rfl
@[simp] theorem Slot.addFlags_vuse (f : BitVec 5) : (x.addFlags f).vuse = x.vuse := rfl
@[simp] theorem Slot.addFlags_uivec (f : BitVec 5) : (x.addFlags f).uivec = x.uivec := rfl
@[simp] theorem Slot.addFlags_uiepc (f : BitVec 5) : (x.addFlags f).uiepc = x.uiepc := rfl
@[simp] theorem Slot.addFlags_uistat (f : BitVec 5) : (x.addFlags f).uistat = x.uistat := rfl
@[simp] theorem Slot.addFlags_cnt (f : BitVec 5) : (x.addFlags f).cnt = x.cnt := rfl
@[simp] theorem Slot.addFlags_accBase (f : BitVec 5) : (x.addFlags f).accBase = x.accBase := rfl
@[simp] theorem Slot.addFlags_accLim (f : BitVec 5) : (x.addFlags f).accLim = x.accLim := rfl
@[simp] theorem Slot.addFlags_reefTh (f : BitVec 5) : (x.addFlags f).reefTh = x.reefTh := rfl
@[simp] theorem Slot.addFlags_reefTrap (f : BitVec 5) : (x.addFlags f).reefTrap = x.reefTrap := rfl
@[simp] theorem Slot.addFlags_trapCause (f : BitVec 5) : (x.addFlags f).trapCause = x.trapCause := rfl
@[simp] theorem Slot.addFlags_trapNested (f : BitVec 5) : (x.addFlags f).trapNested = x.trapNested := rfl
@[simp] theorem Slot.addFlags_trapQueue (f : BitVec 5) : (x.addFlags f).trapQueue = x.trapQueue := rfl
@[simp] theorem Slot.addFlags_trapFrlost (f : BitVec 5) : (x.addFlags f).trapFrlost = x.trapFrlost := rfl
@[simp] theorem Slot.addFlags_trapPc (f : BitVec 5) : (x.addFlags f).trapPc = x.trapPc := rfl
@[simp] theorem Slot.addFlags_trapAddr (f : BitVec 5) : (x.addFlags f).trapAddr = x.trapAddr := rfl
@[simp] theorem Slot.addFlags_trapAux (f : BitVec 5) : (x.addFlags f).trapAux = x.trapAux := rfl
@[simp] theorem Slot.addFlags_faultRec (f : BitVec 5) : (x.addFlags f).faultRec = x.faultRec := rfl
@[simp] theorem Slot.addFlags_asid (f : BitVec 5) : (x.addFlags f).asid = x.asid := rfl
@[simp] theorem Slot.addFlags_shtag (f : BitVec 5) : (x.addFlags f).shtag = x.shtag := rfl
@[simp] theorem Slot.addFlags_prio (f : BitVec 5) : (x.addFlags f).prio = x.prio := rfl
@[simp] theorem Slot.addFlags_csaBase (f : BitVec 5) : (x.addFlags f).csaBase = x.csaBase := rfl
@[simp] theorem Slot.addFlags_rechk (f : BitVec 5) : (x.addFlags f).rechk = x.rechk := rfl
@[simp] theorem Slot.addFlags_servedTag (f : BitVec 5) : (x.addFlags f).servedTag = x.servedTag := rfl
@[simp] theorem Slot.addFlags_dueOrd (f : BitVec 5) : (x.addFlags f).dueOrd = x.dueOrd := rfl
@[simp] theorem Slot.addFlags_vq (f : BitVec 5) : (x.addFlags f).vq = x.vq := rfl
@[simp] theorem Slot.addFlags_laneBase (f : BitVec 5) : (x.addFlags f).laneBase = x.laneBase := rfl
@[simp] theorem Slot.addFlags_laneCount (f : BitVec 5) : (x.addFlags f).laneCount = x.laneCount := rfl
@[simp] theorem Slot.addFlags_due (f : BitVec 5) : (x.addFlags f).due = x.due := rfl
@[simp] theorem Slot.addFlags_request (f : BitVec 5) : (x.addFlags f).request = x.request := rfl
@[simp] theorem Slot.addFlags_ctx (f : BitVec 5) : (x.addFlags f).ctx = x.ctx := rfl
@[simp] theorem Slot.addFlags_runPrio (f : BitVec 5) : (x.addFlags f).runPrio = x.runPrio := rfl
@[simp] theorem Slot.addFlags_order (f : BitVec 5) : (x.addFlags f).order = x.order := rfl
@[simp] theorem Slot.addFlags_charge (f : BitVec 5) : (x.addFlags f).charge = x.charge := rfl

@[simp] theorem Slot.addFlags_fflags (f : BitVec 5) : (x.addFlags f).fflags = x.fflags ||| f := rfl

end fields

/-- A write to a scalar register leaves every field but the two register banks. -/
theorem Slot.setReg_eq (x : Slot) (r : Nat) (v : SReg) :
    x.setReg r v = { x with regs := (x.setReg r v).regs, bank1 := (x.setReg r v).bank1 } := by
  unfold Slot.setReg; split
  · rfl
  · split <;> rfl

@[simp] theorem Slot.setReg_st (x : Slot) (r : Nat) (v : SReg) : (x.setReg r v).st = x.st := by rw [Slot.setReg_eq]
@[simp] theorem Slot.setReg_mode (x : Slot) (r : Nat) (v : SReg) : (x.setReg r v).mode = x.mode := by rw [Slot.setReg_eq]
@[simp] theorem Slot.setReg_level (x : Slot) (r : Nat) (v : SReg) : (x.setReg r v).level = x.level := by rw [Slot.setReg_eq]
@[simp] theorem Slot.setReg_pc (x : Slot) (r : Nat) (v : SReg) : (x.setReg r v).pc = x.pc := by rw [Slot.setReg_eq]
@[simp] theorem Slot.setReg_prev (x : Slot) (r : Nat) (v : SReg) : (x.setReg r v).prev = x.prev := by rw [Slot.setReg_eq]
@[simp] theorem Slot.setReg_land (x : Slot) (r : Nat) (v : SReg) : (x.setReg r v).land = x.land := by rw [Slot.setReg_eq]
@[simp] theorem Slot.setReg_loops (x : Slot) (r : Nat) (v : SReg) : (x.setReg r v).loops = x.loops := by rw [Slot.setReg_eq]
@[simp] theorem Slot.setReg_fflags (x : Slot) (r : Nat) (v : SReg) : (x.setReg r v).fflags = x.fflags := by rw [Slot.setReg_eq]
@[simp] theorem Slot.setReg_frm (x : Slot) (r : Nat) (v : SReg) : (x.setReg r v).frm = x.frm := by rw [Slot.setReg_eq]
@[simp] theorem Slot.setReg_vl (x : Slot) (r : Nat) (v : SReg) : (x.setReg r v).vl = x.vl := by rw [Slot.setReg_eq]
@[simp] theorem Slot.setReg_vcfg (x : Slot) (r : Nat) (v : SReg) : (x.setReg r v).vcfg = x.vcfg := by rw [Slot.setReg_eq]
@[simp] theorem Slot.setReg_vstart (x : Slot) (r : Nat) (v : SReg) : (x.setReg r v).vstart = x.vstart := by rw [Slot.setReg_eq]
@[simp] theorem Slot.setReg_vlcap (x : Slot) (r : Nat) (v : SReg) : (x.setReg r v).vlcap = x.vlcap := by rw [Slot.setReg_eq]
@[simp] theorem Slot.setReg_vdirty (x : Slot) (r : Nat) (v : SReg) : (x.setReg r v).vdirty = x.vdirty := by rw [Slot.setReg_eq]
@[simp] theorem Slot.setReg_vowner (x : Slot) (r : Nat) (v : SReg) : (x.setReg r v).vowner = x.vowner := by rw [Slot.setReg_eq]
@[simp] theorem Slot.setReg_vuse (x : Slot) (r : Nat) (v : SReg) : (x.setReg r v).vuse = x.vuse := by rw [Slot.setReg_eq]
@[simp] theorem Slot.setReg_uivec (x : Slot) (r : Nat) (v : SReg) : (x.setReg r v).uivec = x.uivec := by rw [Slot.setReg_eq]
@[simp] theorem Slot.setReg_uiepc (x : Slot) (r : Nat) (v : SReg) : (x.setReg r v).uiepc = x.uiepc := by rw [Slot.setReg_eq]
@[simp] theorem Slot.setReg_uistat (x : Slot) (r : Nat) (v : SReg) : (x.setReg r v).uistat = x.uistat := by rw [Slot.setReg_eq]
@[simp] theorem Slot.setReg_cnt (x : Slot) (r : Nat) (v : SReg) : (x.setReg r v).cnt = x.cnt := by rw [Slot.setReg_eq]
@[simp] theorem Slot.setReg_accBase (x : Slot) (r : Nat) (v : SReg) : (x.setReg r v).accBase = x.accBase := by rw [Slot.setReg_eq]
@[simp] theorem Slot.setReg_accLim (x : Slot) (r : Nat) (v : SReg) : (x.setReg r v).accLim = x.accLim := by rw [Slot.setReg_eq]
@[simp] theorem Slot.setReg_reefTh (x : Slot) (r : Nat) (v : SReg) : (x.setReg r v).reefTh = x.reefTh := by rw [Slot.setReg_eq]
@[simp] theorem Slot.setReg_reefTrap (x : Slot) (r : Nat) (v : SReg) : (x.setReg r v).reefTrap = x.reefTrap := by rw [Slot.setReg_eq]
@[simp] theorem Slot.setReg_trapCause (x : Slot) (r : Nat) (v : SReg) : (x.setReg r v).trapCause = x.trapCause := by rw [Slot.setReg_eq]
@[simp] theorem Slot.setReg_trapNested (x : Slot) (r : Nat) (v : SReg) : (x.setReg r v).trapNested = x.trapNested := by rw [Slot.setReg_eq]
@[simp] theorem Slot.setReg_trapQueue (x : Slot) (r : Nat) (v : SReg) : (x.setReg r v).trapQueue = x.trapQueue := by rw [Slot.setReg_eq]
@[simp] theorem Slot.setReg_trapFrlost (x : Slot) (r : Nat) (v : SReg) : (x.setReg r v).trapFrlost = x.trapFrlost := by rw [Slot.setReg_eq]
@[simp] theorem Slot.setReg_trapPc (x : Slot) (r : Nat) (v : SReg) : (x.setReg r v).trapPc = x.trapPc := by rw [Slot.setReg_eq]
@[simp] theorem Slot.setReg_trapAddr (x : Slot) (r : Nat) (v : SReg) : (x.setReg r v).trapAddr = x.trapAddr := by rw [Slot.setReg_eq]
@[simp] theorem Slot.setReg_trapAux (x : Slot) (r : Nat) (v : SReg) : (x.setReg r v).trapAux = x.trapAux := by rw [Slot.setReg_eq]
@[simp] theorem Slot.setReg_faultRec (x : Slot) (r : Nat) (v : SReg) : (x.setReg r v).faultRec = x.faultRec := by rw [Slot.setReg_eq]
@[simp] theorem Slot.setReg_asid (x : Slot) (r : Nat) (v : SReg) : (x.setReg r v).asid = x.asid := by rw [Slot.setReg_eq]
@[simp] theorem Slot.setReg_shtag (x : Slot) (r : Nat) (v : SReg) : (x.setReg r v).shtag = x.shtag := by rw [Slot.setReg_eq]
@[simp] theorem Slot.setReg_prio (x : Slot) (r : Nat) (v : SReg) : (x.setReg r v).prio = x.prio := by rw [Slot.setReg_eq]
@[simp] theorem Slot.setReg_csaBase (x : Slot) (r : Nat) (v : SReg) : (x.setReg r v).csaBase = x.csaBase := by rw [Slot.setReg_eq]
@[simp] theorem Slot.setReg_rechk (x : Slot) (r : Nat) (v : SReg) : (x.setReg r v).rechk = x.rechk := by rw [Slot.setReg_eq]
@[simp] theorem Slot.setReg_servedTag (x : Slot) (r : Nat) (v : SReg) : (x.setReg r v).servedTag = x.servedTag := by rw [Slot.setReg_eq]
@[simp] theorem Slot.setReg_dueOrd (x : Slot) (r : Nat) (v : SReg) : (x.setReg r v).dueOrd = x.dueOrd := by rw [Slot.setReg_eq]
@[simp] theorem Slot.setReg_vq (x : Slot) (r : Nat) (v : SReg) : (x.setReg r v).vq = x.vq := by rw [Slot.setReg_eq]
@[simp] theorem Slot.setReg_laneBase (x : Slot) (r : Nat) (v : SReg) : (x.setReg r v).laneBase = x.laneBase := by rw [Slot.setReg_eq]
@[simp] theorem Slot.setReg_laneCount (x : Slot) (r : Nat) (v : SReg) : (x.setReg r v).laneCount = x.laneCount := by rw [Slot.setReg_eq]
@[simp] theorem Slot.setReg_due (x : Slot) (r : Nat) (v : SReg) : (x.setReg r v).due = x.due := by rw [Slot.setReg_eq]
@[simp] theorem Slot.setReg_request (x : Slot) (r : Nat) (v : SReg) : (x.setReg r v).request = x.request := by rw [Slot.setReg_eq]
@[simp] theorem Slot.setReg_ctx (x : Slot) (r : Nat) (v : SReg) : (x.setReg r v).ctx = x.ctx := by rw [Slot.setReg_eq]
@[simp] theorem Slot.setReg_runPrio (x : Slot) (r : Nat) (v : SReg) : (x.setReg r v).runPrio = x.runPrio := by rw [Slot.setReg_eq]
@[simp] theorem Slot.setReg_order (x : Slot) (r : Nat) (v : SReg) : (x.setReg r v).order = x.order := by rw [Slot.setReg_eq]
@[simp] theorem Slot.setReg_charge (x : Slot) (r : Nat) (v : SReg) : (x.setReg r v).charge = x.charge := by rw [Slot.setReg_eq]

@[simp] theorem Slot.put_st (x : Slot) (r : Nat) (v : Word) (p : Option PTag) : (x.put r v p).st = x.st := Slot.setReg_st x r _
@[simp] theorem Slot.put_mode (x : Slot) (r : Nat) (v : Word) (p : Option PTag) : (x.put r v p).mode = x.mode := Slot.setReg_mode x r _
@[simp] theorem Slot.put_level (x : Slot) (r : Nat) (v : Word) (p : Option PTag) : (x.put r v p).level = x.level := Slot.setReg_level x r _
@[simp] theorem Slot.put_pc (x : Slot) (r : Nat) (v : Word) (p : Option PTag) : (x.put r v p).pc = x.pc := Slot.setReg_pc x r _
@[simp] theorem Slot.put_prev (x : Slot) (r : Nat) (v : Word) (p : Option PTag) : (x.put r v p).prev = x.prev := Slot.setReg_prev x r _
@[simp] theorem Slot.put_land (x : Slot) (r : Nat) (v : Word) (p : Option PTag) : (x.put r v p).land = x.land := Slot.setReg_land x r _
@[simp] theorem Slot.put_loops (x : Slot) (r : Nat) (v : Word) (p : Option PTag) : (x.put r v p).loops = x.loops := Slot.setReg_loops x r _
@[simp] theorem Slot.put_fflags (x : Slot) (r : Nat) (v : Word) (p : Option PTag) : (x.put r v p).fflags = x.fflags := Slot.setReg_fflags x r _
@[simp] theorem Slot.put_frm (x : Slot) (r : Nat) (v : Word) (p : Option PTag) : (x.put r v p).frm = x.frm := Slot.setReg_frm x r _
@[simp] theorem Slot.put_vl (x : Slot) (r : Nat) (v : Word) (p : Option PTag) : (x.put r v p).vl = x.vl := Slot.setReg_vl x r _
@[simp] theorem Slot.put_vcfg (x : Slot) (r : Nat) (v : Word) (p : Option PTag) : (x.put r v p).vcfg = x.vcfg := Slot.setReg_vcfg x r _
@[simp] theorem Slot.put_vstart (x : Slot) (r : Nat) (v : Word) (p : Option PTag) : (x.put r v p).vstart = x.vstart := Slot.setReg_vstart x r _
@[simp] theorem Slot.put_vlcap (x : Slot) (r : Nat) (v : Word) (p : Option PTag) : (x.put r v p).vlcap = x.vlcap := Slot.setReg_vlcap x r _
@[simp] theorem Slot.put_vdirty (x : Slot) (r : Nat) (v : Word) (p : Option PTag) : (x.put r v p).vdirty = x.vdirty := Slot.setReg_vdirty x r _
@[simp] theorem Slot.put_vowner (x : Slot) (r : Nat) (v : Word) (p : Option PTag) : (x.put r v p).vowner = x.vowner := Slot.setReg_vowner x r _
@[simp] theorem Slot.put_vuse (x : Slot) (r : Nat) (v : Word) (p : Option PTag) : (x.put r v p).vuse = x.vuse := Slot.setReg_vuse x r _
@[simp] theorem Slot.put_uivec (x : Slot) (r : Nat) (v : Word) (p : Option PTag) : (x.put r v p).uivec = x.uivec := Slot.setReg_uivec x r _
@[simp] theorem Slot.put_uiepc (x : Slot) (r : Nat) (v : Word) (p : Option PTag) : (x.put r v p).uiepc = x.uiepc := Slot.setReg_uiepc x r _
@[simp] theorem Slot.put_uistat (x : Slot) (r : Nat) (v : Word) (p : Option PTag) : (x.put r v p).uistat = x.uistat := Slot.setReg_uistat x r _
@[simp] theorem Slot.put_cnt (x : Slot) (r : Nat) (v : Word) (p : Option PTag) : (x.put r v p).cnt = x.cnt := Slot.setReg_cnt x r _
@[simp] theorem Slot.put_accBase (x : Slot) (r : Nat) (v : Word) (p : Option PTag) : (x.put r v p).accBase = x.accBase := Slot.setReg_accBase x r _
@[simp] theorem Slot.put_accLim (x : Slot) (r : Nat) (v : Word) (p : Option PTag) : (x.put r v p).accLim = x.accLim := Slot.setReg_accLim x r _
@[simp] theorem Slot.put_reefTh (x : Slot) (r : Nat) (v : Word) (p : Option PTag) : (x.put r v p).reefTh = x.reefTh := Slot.setReg_reefTh x r _
@[simp] theorem Slot.put_reefTrap (x : Slot) (r : Nat) (v : Word) (p : Option PTag) : (x.put r v p).reefTrap = x.reefTrap := Slot.setReg_reefTrap x r _
@[simp] theorem Slot.put_trapCause (x : Slot) (r : Nat) (v : Word) (p : Option PTag) : (x.put r v p).trapCause = x.trapCause := Slot.setReg_trapCause x r _
@[simp] theorem Slot.put_trapNested (x : Slot) (r : Nat) (v : Word) (p : Option PTag) : (x.put r v p).trapNested = x.trapNested := Slot.setReg_trapNested x r _
@[simp] theorem Slot.put_trapQueue (x : Slot) (r : Nat) (v : Word) (p : Option PTag) : (x.put r v p).trapQueue = x.trapQueue := Slot.setReg_trapQueue x r _
@[simp] theorem Slot.put_trapFrlost (x : Slot) (r : Nat) (v : Word) (p : Option PTag) : (x.put r v p).trapFrlost = x.trapFrlost := Slot.setReg_trapFrlost x r _
@[simp] theorem Slot.put_trapPc (x : Slot) (r : Nat) (v : Word) (p : Option PTag) : (x.put r v p).trapPc = x.trapPc := Slot.setReg_trapPc x r _
@[simp] theorem Slot.put_trapAddr (x : Slot) (r : Nat) (v : Word) (p : Option PTag) : (x.put r v p).trapAddr = x.trapAddr := Slot.setReg_trapAddr x r _
@[simp] theorem Slot.put_trapAux (x : Slot) (r : Nat) (v : Word) (p : Option PTag) : (x.put r v p).trapAux = x.trapAux := Slot.setReg_trapAux x r _
@[simp] theorem Slot.put_faultRec (x : Slot) (r : Nat) (v : Word) (p : Option PTag) : (x.put r v p).faultRec = x.faultRec := Slot.setReg_faultRec x r _
@[simp] theorem Slot.put_asid (x : Slot) (r : Nat) (v : Word) (p : Option PTag) : (x.put r v p).asid = x.asid := Slot.setReg_asid x r _
@[simp] theorem Slot.put_shtag (x : Slot) (r : Nat) (v : Word) (p : Option PTag) : (x.put r v p).shtag = x.shtag := Slot.setReg_shtag x r _
@[simp] theorem Slot.put_prio (x : Slot) (r : Nat) (v : Word) (p : Option PTag) : (x.put r v p).prio = x.prio := Slot.setReg_prio x r _
@[simp] theorem Slot.put_csaBase (x : Slot) (r : Nat) (v : Word) (p : Option PTag) : (x.put r v p).csaBase = x.csaBase := Slot.setReg_csaBase x r _
@[simp] theorem Slot.put_rechk (x : Slot) (r : Nat) (v : Word) (p : Option PTag) : (x.put r v p).rechk = x.rechk := Slot.setReg_rechk x r _
@[simp] theorem Slot.put_servedTag (x : Slot) (r : Nat) (v : Word) (p : Option PTag) : (x.put r v p).servedTag = x.servedTag := Slot.setReg_servedTag x r _
@[simp] theorem Slot.put_dueOrd (x : Slot) (r : Nat) (v : Word) (p : Option PTag) : (x.put r v p).dueOrd = x.dueOrd := Slot.setReg_dueOrd x r _
@[simp] theorem Slot.put_vq (x : Slot) (r : Nat) (v : Word) (p : Option PTag) : (x.put r v p).vq = x.vq := Slot.setReg_vq x r _
@[simp] theorem Slot.put_laneBase (x : Slot) (r : Nat) (v : Word) (p : Option PTag) : (x.put r v p).laneBase = x.laneBase := Slot.setReg_laneBase x r _
@[simp] theorem Slot.put_laneCount (x : Slot) (r : Nat) (v : Word) (p : Option PTag) : (x.put r v p).laneCount = x.laneCount := Slot.setReg_laneCount x r _
@[simp] theorem Slot.put_due (x : Slot) (r : Nat) (v : Word) (p : Option PTag) : (x.put r v p).due = x.due := Slot.setReg_due x r _
@[simp] theorem Slot.put_request (x : Slot) (r : Nat) (v : Word) (p : Option PTag) : (x.put r v p).request = x.request := Slot.setReg_request x r _
@[simp] theorem Slot.put_ctx (x : Slot) (r : Nat) (v : Word) (p : Option PTag) : (x.put r v p).ctx = x.ctx := Slot.setReg_ctx x r _
@[simp] theorem Slot.put_runPrio (x : Slot) (r : Nat) (v : Word) (p : Option PTag) : (x.put r v p).runPrio = x.runPrio := Slot.setReg_runPrio x r _
@[simp] theorem Slot.put_order (x : Slot) (r : Nat) (v : Word) (p : Option PTag) : (x.put r v p).order = x.order := Slot.setReg_order x r _
@[simp] theorem Slot.put_charge (x : Slot) (r : Nat) (v : Word) (p : Option PTag) : (x.put r v p).charge = x.charge := Slot.setReg_charge x r _

@[simp] theorem Slot.markPending_st (x : Slot) (r : Nat) (p : Pend) : (x.markPending r p).st = x.st := Slot.setReg_st x r _
@[simp] theorem Slot.markPending_mode (x : Slot) (r : Nat) (p : Pend) : (x.markPending r p).mode = x.mode := Slot.setReg_mode x r _
@[simp] theorem Slot.markPending_level (x : Slot) (r : Nat) (p : Pend) : (x.markPending r p).level = x.level := Slot.setReg_level x r _
@[simp] theorem Slot.markPending_pc (x : Slot) (r : Nat) (p : Pend) : (x.markPending r p).pc = x.pc := Slot.setReg_pc x r _
@[simp] theorem Slot.markPending_prev (x : Slot) (r : Nat) (p : Pend) : (x.markPending r p).prev = x.prev := Slot.setReg_prev x r _
@[simp] theorem Slot.markPending_land (x : Slot) (r : Nat) (p : Pend) : (x.markPending r p).land = x.land := Slot.setReg_land x r _
@[simp] theorem Slot.markPending_loops (x : Slot) (r : Nat) (p : Pend) : (x.markPending r p).loops = x.loops := Slot.setReg_loops x r _
@[simp] theorem Slot.markPending_fflags (x : Slot) (r : Nat) (p : Pend) : (x.markPending r p).fflags = x.fflags := Slot.setReg_fflags x r _
@[simp] theorem Slot.markPending_frm (x : Slot) (r : Nat) (p : Pend) : (x.markPending r p).frm = x.frm := Slot.setReg_frm x r _
@[simp] theorem Slot.markPending_vl (x : Slot) (r : Nat) (p : Pend) : (x.markPending r p).vl = x.vl := Slot.setReg_vl x r _
@[simp] theorem Slot.markPending_vcfg (x : Slot) (r : Nat) (p : Pend) : (x.markPending r p).vcfg = x.vcfg := Slot.setReg_vcfg x r _
@[simp] theorem Slot.markPending_vstart (x : Slot) (r : Nat) (p : Pend) : (x.markPending r p).vstart = x.vstart := Slot.setReg_vstart x r _
@[simp] theorem Slot.markPending_vlcap (x : Slot) (r : Nat) (p : Pend) : (x.markPending r p).vlcap = x.vlcap := Slot.setReg_vlcap x r _
@[simp] theorem Slot.markPending_vdirty (x : Slot) (r : Nat) (p : Pend) : (x.markPending r p).vdirty = x.vdirty := Slot.setReg_vdirty x r _
@[simp] theorem Slot.markPending_vowner (x : Slot) (r : Nat) (p : Pend) : (x.markPending r p).vowner = x.vowner := Slot.setReg_vowner x r _
@[simp] theorem Slot.markPending_vuse (x : Slot) (r : Nat) (p : Pend) : (x.markPending r p).vuse = x.vuse := Slot.setReg_vuse x r _
@[simp] theorem Slot.markPending_uivec (x : Slot) (r : Nat) (p : Pend) : (x.markPending r p).uivec = x.uivec := Slot.setReg_uivec x r _
@[simp] theorem Slot.markPending_uiepc (x : Slot) (r : Nat) (p : Pend) : (x.markPending r p).uiepc = x.uiepc := Slot.setReg_uiepc x r _
@[simp] theorem Slot.markPending_uistat (x : Slot) (r : Nat) (p : Pend) : (x.markPending r p).uistat = x.uistat := Slot.setReg_uistat x r _
@[simp] theorem Slot.markPending_cnt (x : Slot) (r : Nat) (p : Pend) : (x.markPending r p).cnt = x.cnt := Slot.setReg_cnt x r _
@[simp] theorem Slot.markPending_accBase (x : Slot) (r : Nat) (p : Pend) : (x.markPending r p).accBase = x.accBase := Slot.setReg_accBase x r _
@[simp] theorem Slot.markPending_accLim (x : Slot) (r : Nat) (p : Pend) : (x.markPending r p).accLim = x.accLim := Slot.setReg_accLim x r _
@[simp] theorem Slot.markPending_reefTh (x : Slot) (r : Nat) (p : Pend) : (x.markPending r p).reefTh = x.reefTh := Slot.setReg_reefTh x r _
@[simp] theorem Slot.markPending_reefTrap (x : Slot) (r : Nat) (p : Pend) : (x.markPending r p).reefTrap = x.reefTrap := Slot.setReg_reefTrap x r _
@[simp] theorem Slot.markPending_trapCause (x : Slot) (r : Nat) (p : Pend) : (x.markPending r p).trapCause = x.trapCause := Slot.setReg_trapCause x r _
@[simp] theorem Slot.markPending_trapNested (x : Slot) (r : Nat) (p : Pend) : (x.markPending r p).trapNested = x.trapNested := Slot.setReg_trapNested x r _
@[simp] theorem Slot.markPending_trapQueue (x : Slot) (r : Nat) (p : Pend) : (x.markPending r p).trapQueue = x.trapQueue := Slot.setReg_trapQueue x r _
@[simp] theorem Slot.markPending_trapFrlost (x : Slot) (r : Nat) (p : Pend) : (x.markPending r p).trapFrlost = x.trapFrlost := Slot.setReg_trapFrlost x r _
@[simp] theorem Slot.markPending_trapPc (x : Slot) (r : Nat) (p : Pend) : (x.markPending r p).trapPc = x.trapPc := Slot.setReg_trapPc x r _
@[simp] theorem Slot.markPending_trapAddr (x : Slot) (r : Nat) (p : Pend) : (x.markPending r p).trapAddr = x.trapAddr := Slot.setReg_trapAddr x r _
@[simp] theorem Slot.markPending_trapAux (x : Slot) (r : Nat) (p : Pend) : (x.markPending r p).trapAux = x.trapAux := Slot.setReg_trapAux x r _
@[simp] theorem Slot.markPending_faultRec (x : Slot) (r : Nat) (p : Pend) : (x.markPending r p).faultRec = x.faultRec := Slot.setReg_faultRec x r _
@[simp] theorem Slot.markPending_asid (x : Slot) (r : Nat) (p : Pend) : (x.markPending r p).asid = x.asid := Slot.setReg_asid x r _
@[simp] theorem Slot.markPending_shtag (x : Slot) (r : Nat) (p : Pend) : (x.markPending r p).shtag = x.shtag := Slot.setReg_shtag x r _
@[simp] theorem Slot.markPending_prio (x : Slot) (r : Nat) (p : Pend) : (x.markPending r p).prio = x.prio := Slot.setReg_prio x r _
@[simp] theorem Slot.markPending_csaBase (x : Slot) (r : Nat) (p : Pend) : (x.markPending r p).csaBase = x.csaBase := Slot.setReg_csaBase x r _
@[simp] theorem Slot.markPending_rechk (x : Slot) (r : Nat) (p : Pend) : (x.markPending r p).rechk = x.rechk := Slot.setReg_rechk x r _
@[simp] theorem Slot.markPending_servedTag (x : Slot) (r : Nat) (p : Pend) : (x.markPending r p).servedTag = x.servedTag := Slot.setReg_servedTag x r _
@[simp] theorem Slot.markPending_dueOrd (x : Slot) (r : Nat) (p : Pend) : (x.markPending r p).dueOrd = x.dueOrd := Slot.setReg_dueOrd x r _
@[simp] theorem Slot.markPending_vq (x : Slot) (r : Nat) (p : Pend) : (x.markPending r p).vq = x.vq := Slot.setReg_vq x r _
@[simp] theorem Slot.markPending_laneBase (x : Slot) (r : Nat) (p : Pend) : (x.markPending r p).laneBase = x.laneBase := Slot.setReg_laneBase x r _
@[simp] theorem Slot.markPending_laneCount (x : Slot) (r : Nat) (p : Pend) : (x.markPending r p).laneCount = x.laneCount := Slot.setReg_laneCount x r _
@[simp] theorem Slot.markPending_due (x : Slot) (r : Nat) (p : Pend) : (x.markPending r p).due = x.due := Slot.setReg_due x r _
@[simp] theorem Slot.markPending_request (x : Slot) (r : Nat) (p : Pend) : (x.markPending r p).request = x.request := Slot.setReg_request x r _
@[simp] theorem Slot.markPending_ctx (x : Slot) (r : Nat) (p : Pend) : (x.markPending r p).ctx = x.ctx := Slot.setReg_ctx x r _
@[simp] theorem Slot.markPending_runPrio (x : Slot) (r : Nat) (p : Pend) : (x.markPending r p).runPrio = x.runPrio := Slot.setReg_runPrio x r _
@[simp] theorem Slot.markPending_order (x : Slot) (r : Nat) (p : Pend) : (x.markPending r p).order = x.order := Slot.setReg_order x r _
@[simp] theorem Slot.markPending_charge (x : Slot) (r : Nat) (p : Pend) : (x.markPending r p).charge = x.charge := Slot.setReg_charge x r _

/-- Reading a slot after writing one. -/
@[simp] theorem State.slot_setSlot (s : State) (q : Nat) (x : Slot) : (s.setSlot q x).slot q = x := tabGet_tabSet _ _ _ _

theorem State.slot_setSlot_ne (s : State) {q r : Nat} (x : Slot) (h : r ≠ q) : (s.setSlot q x).slot r = s.slot r :=
  tabGet_tabSet_ne _ _ _ h

/-- Reading a core after writing one. -/
@[simp] theorem State.core_setCore (s : State) (k : Nat) (c : Core) : (s.setCore k c).core k = c := tabGet_tabSet _ _ _ _

theorem State.core_setCore_ne (s : State) {k j : Nat} (c : Core) (h : j ≠ k) : (s.setCore k c).core j = s.core j :=
  tabGet_tabSet_ne _ _ _ h

@[simp] theorem State.core_setSlot (s : State) (q k : Nat) (x : Slot) : (s.setSlot q x).core k = s.core k := rfl
@[simp] theorem State.slot_setCore (s : State) (q k : Nat) (c : Core) : (s.setCore k c).slot q = s.slot q := rfl

/-- The last write to a slot counts. -/
@[simp] theorem State.setSlot_setSlot (s : State) (q : Nat) (x y : Slot) : (s.setSlot q x).setSlot q y = s.setSlot q y := by
  simp [State.setSlot, tabSet_tabSet]

/-- The slot after its instruction completes, after a value is written and it completes, and after a stall. -/
@[simp] theorem State.slot_complete (s : State) (q : Nat) : (s.complete q).slot q = (s.slot q).complete := State.slot_setSlot _ _ _
@[simp] theorem State.slot_jump (s : State) (q : Nat) (v : Word) : (s.jump q v).slot q = (s.slot q).jump v := State.slot_setSlot _ _ _
@[simp] theorem State.slot_finish (s : State) (q r : Nat) (v : Word) (p : Option PTag) :
    (s.finish q r v p).slot q = ((s.slot q).put r v p).complete := State.slot_setSlot _ _ _
@[simp] theorem State.slot_stallSlot (s : State) (q : Nat) (w : Stall) :
    (s.stallSlot q w).slot q = { s.slot q with st := .stall w } := State.slot_setSlot _ _ _

/-- s0 reads zero (03_encoding R56). -/
@[simp] theorem Slot.sreg_zero (x : Slot) : x.sreg 0 = SReg.zero := rfl
@[simp] theorem Slot.val_zero (x : Slot) : x.val 0 = 0 := rfl
@[simp] theorem Slot.poisonOf_zero (x : Slot) : x.poisonOf 0 = none := rfl

/-- A write to s0 is discarded (03_encoding R56). -/
@[simp] theorem Slot.setReg_zero (x : Slot) (v : SReg) : x.setReg 0 v = x := rfl
@[simp] theorem Slot.put_zero (x : Slot) (v : Word) (p : Option PTag) : x.put 0 v p = x := rfl

@[simp] theorem Slot.banked_setReg (x : Slot) (r d : Nat) (v : SReg) : (x.setReg d v).banked r = x.banked r := by
  simp [Slot.banked]

/-- A scalar register reads what was written to it. -/
theorem Slot.sreg_setReg (x : Slot) {d : Nat} (v : SReg) (h : d ≠ 0) : (x.setReg d v).sreg d = v := by
  unfold Slot.sreg
  rw [Slot.banked_setReg]
  unfold Slot.setReg
  simp only [h, if_false]
  split <;> simp [tabGet_tabSet]

/-- A write to a scalar register leaves every other one. -/
theorem Slot.sreg_setReg_ne (x : Slot) {d r : Nat} (v : SReg) (h : r ≠ d) : (x.setReg d v).sreg r = x.sreg r := by
  unfold Slot.sreg
  rw [Slot.banked_setReg]
  unfold Slot.setReg
  split
  · rfl
  · by_cases hd : d = 0
    · simp [hd]
    · simp only [hd, if_false]
      by_cases b : x.banked d = true <;> simp [b, tabGet_tabSet_ne _ _ _ h]

@[simp] theorem Slot.sreg_complete (x : Slot) (r : Nat) : x.complete.sreg r = x.sreg r := rfl
@[simp] theorem Slot.val_complete (x : Slot) (r : Nat) : x.complete.val r = x.val r := rfl
@[simp] theorem Slot.sreg_jump (x : Slot) (v : Word) (r : Nat) : (x.jump v).sreg r = x.sreg r := rfl
@[simp] theorem Slot.sreg_addFlags (x : Slot) (f : BitVec 5) (r : Nat) : (x.addFlags f).sreg r = x.sreg r := rfl

/-- The registers that an instruction names are not pending. -/
theorem whenReady_ready {s : State} {q : Nat} {rs : List Nat} (k : State) (h : (s.slot q).pendingAmong rs = none) :
    whenReady s q rs k = k := by simp [whenReady, h]

/-- No register that an instruction names is poisoned. -/
theorem unlessPoisoned_clean {s : State} {q : Nat} {rs : List Nat} (k : State) (h : (s.slot q).poisonAmong rs = none) :
    unlessPoisoned s q rs k = k := by simp [unlessPoisoned, h]

end Sys2Proof.Machine
end

