-- ==== Sys2Proof/Laws/Scalar.lean ====
section
/-! SUPPORT. What the shared operations of scalar instructions do, once for all instructions that use them. -/

namespace Sys2Proof.Machine

/-- Clean registers are not pending. -/
theorem pendingAmong_clean {x : Slot} {rs : List Nat} (h : x.Clean rs) : x.pendingAmong rs = none := by
  simp only [Slot.pendingAmong, List.find?_eq_none, decide_eq_true_eq, not_not]
  exact fun r hr => (h r hr).1

/-- Clean registers carry no poison. -/
theorem poisonAmong_clean {x : Slot} {rs : List Nat} (h : x.Clean rs) : x.poisonAmong rs = none := by
  unfold Slot.poisonAmong
  have key : ∀ (l : List Nat), x.Clean l → l.foldl (fun t r => lowerTag t (x.poisonOf r)) none = none := by
    intro l
    induction l with
    | nil => intro; rfl
    | cons r l ih =>
      intro hl
      have h0 : x.poisonOf r = none := (hl r (by simp)).2
      simp only [List.foldl_cons, h0, lowerTag]
      exact ih fun r' hr' => hl r' (by simp [hr'])
  exact key rs h

/-- A destination that is not pending may be added to clean sources. -/
theorem pendingAmong_cons {x : Slot} {d : Nat} {rs : List Nat} (hd : (x.sreg d).pend = .ready) (h : x.Clean rs) :
    x.pendingAmong (d :: rs) = none := by
  have := pendingAmong_clean h
  simp only [Slot.pendingAmong, List.find?_cons, hd] at this ⊢
  simpa using this

/-- Replacing one slot leaves everything else. -/
theorem onlySlot_setSlot (s : State) (q : Nat) (x : Slot) : OnlySlot s (s.setSlot q x) q :=
  ⟨fun _ h => State.slot_setSlot_ne s x h, rfl, fun _ => rfl⟩

/-- What State.finish does: the value in its register, every other register and everything else kept, and the frame-end step. -/
theorem finish_spec (s : State) (d : Nat) (v : Word) (p : Option PTag) :
    OnlySlot s (s.finish s.cur d v p) s.cur ∧ SystemKept s.me (s.finish s.cur d v p).me ∧ RegsKept s.me (s.finish s.cur d v p).me [d] ∧
      WentOn s.me (s.finish s.cur d v p).me ∧ (d ≠ 0 → (s.finish s.cur d v p).me.sreg d = ⟨v, p, .ready⟩) := by
  have me : (s.finish s.cur d v p).me = ((s.slot s.cur).put d v p).complete := State.slot_finish _ _ _ _ _
  have old : s.me = s.slot s.cur := rfl
  rw [me, old]
  refine ⟨onlySlot_setSlot _ _ _, ?_, ?_, ⟨rfl, ?_, ?_⟩, ?_⟩
  · unfold SystemKept Slot.put Slot.complete
    rw [Slot.setReg_eq]
  · intro r hr
    rw [Slot.sreg_complete]
    exact Slot.sreg_setReg_ne _ _ (by simpa using hr)
  · simp
  · simp
  · intro hd
    rw [Slot.sreg_complete]
    exact Slot.sreg_setReg _ _ hd

/-- A scalar operation writes what it computes from clean sources. -/
theorem writesReg_of_alu {i : Instr} {d : Nat} {srcs : List Nat} {v w : Slot → Word} (h : ∀ s, exec i s = next (alu s d srcs v))
    (hv : ∀ x, v x = w x) : WritesReg i d srcs w := by
  intro s hs hd
  refine ⟨s.finish s.cur d (w s.me) none, ?_, finish_spec _ _ _ _⟩
  rw [h, alu, whenReady_ready _ (pendingAmong_cons hd hs), poisonAmong_clean (x := s.slot s.cur) hs, hv]
  rfl

end Sys2Proof.Machine
end

