-- ==== Sys2Proof/Laws/Ops.lean ====
section
/-! SUPPORT. What the shared operations over memory, accesses and queues do: each lemma says it once, for every meaning that calls the operation. -/

namespace Sys2Proof.Machine

/-- Clean source registers let an instruction go on. -/
theorem whenReady_clean {s : State} {q : Nat} {rs : List Nat} (k : State) (h : (s.slot q).Clean rs) : whenReady s q rs k = k :=
  whenReady_ready k (pendingAmong_clean h)

/-- Clean registers are not consumed as poison. -/
theorem unlessPoisoned_of_clean {s : State} {q : Nat} {rs : List Nat} (k : State) (h : (s.slot q).Clean rs) : unlessPoisoned s q rs k = k :=
  unlessPoisoned_clean k (poisonAmong_clean h)

/-- A level that suffices lets an instruction go on. -/
theorem needLevel_of {s : State} {q : Nat} {l : Level} (w : Option Nat) (k : State) (h : levelCode l ≤ levelCode (s.slot q).level) :
    needLevel s q l w k = k := by simp [needLevel, h]

/-- A level that does not suffice traps with cause 0x02. -/
theorem needLevel_trap {s : State} {q : Nat} {l : Level} (w : Option Nat) (k : State) (h : levelCode (s.slot q).level < levelCode l) :
    needLevel s q l w k = trapWord s q 0x02 w := by simp [needLevel, Nat.not_le.mpr h]

/-- Room in the stores counter lets an instruction go on. -/
theorem whenStoreRoom_of {s : State} {q n : Nat} (k : State) (h : (s.slot q).cnt.stores + n ≤ 255) : whenStoreRoom s q n k = k := by
  simp [whenStoreRoom, h]

/-- A physical write keeps the canonical form. -/
theorem wf_physWrite {s : State} {key : Nat} {bs : List Byte} {p : Option PTag} (h : s.Canonical) : (physWrite s key bs p).Canonical :=
  wf_writeBytes h

/-- So does the write of a word. -/
theorem wf_physPut {s : State} {key : Nat} {w : Word} (h : s.Canonical) : (physPut s key w).Canonical := wf_physWrite h

/-- So does a store at a key of any class. -/
theorem wf_storeKey {s : State} {tag : STag} {key : Nat} {bs : List Byte} {p : Option PTag} (h : s.Canonical) :
    (storeKey s tag key bs p).Canonical := by
  unfold storeKey
  split
  · exact wf_physWrite (p := p) h
  · split
    · exact wf_physWrite h
    · exact h

/-- So does the use of a translation, which may set the A and D bits of a leaf. -/
theorem wf_touch {s : State} {ag : Agent} {va : Nat} {k : Access} (h : s.Canonical) : (touch s ag va k).Canonical := by
  unfold touch
  split
  · exact h
  · split
    · dsimp only
      split
      · exact wf_physPut h
      · exact h
    · split
      · split
        · exact h
        · rename_i level at_ w _ _
          generalize w ||| (if k.writes = true then 0xC00#64 else 0x400#64) = w'
          have h1 : State.Canonical (if w' = w then s else physPut s at_ w') := by
            split
            · exact h
            · exact wf_physPut h
          dsimp only
          split <;> exact h1
      · exact h

/-- A run of steps that each keep the canonical form keeps it. -/
theorem wf_foldl {α : Type} {f : State → α → State} (hf : ∀ s a, s.Canonical → (f s a).Canonical) :
    ∀ (l : List α) (s : State), s.Canonical → (l.foldl f s).Canonical
  | [], _, h => h
  | a :: l, s, h => wf_foldl hf l (f s a) (hf s a h)

/-- So does the use of the translations of a range. -/
theorem wf_touchRange {s : State} {ag : Agent} {k : Access} {va n : Nat} (h : s.Canonical) : (touchRange s ag k va n).Canonical :=
  wf_foldl (fun _ _ h => wf_touch h) _ _ h

/-- So does a write at a virtual address. -/
theorem wf_vWrite {s : State} {ag : Agent} {va : Nat} {bs : List Byte} {p : Option PTag} (h : s.Canonical) : (vWrite s ag va bs p).Canonical :=
  wf_foldl (fun st r hs => by
    split
    · exact wf_storeKey (wf_touch hs)
    · exact hs) _ _ h

/-- A physical write changes memory and its poison alone. -/
theorem writesBytes_physWrite (s : State) (key : Nat) (bs : List Byte) (p : Option PTag) : WritesBytes s (physWrite s key bs p) key bs where
  device := rfl
  inside := fun _ hi => readByte_writeBytes hi s.mem
  outside := fun _ ha => readByte_writeBytes_ne ha s.mem

/-- A store in ordinary memory writes its bytes and no other. -/
theorem storeKey_ordinary {s : State} {tag : STag} {key : Nat} {bs : List Byte} {p : Option PTag} (h : Ordinary s key bs.length) :
    WritesBytes s (storeKey s tag key bs p) key bs := by
  unfold storeKey
  split
  · exact { device := rfl, inside := (writesBytes_physWrite s key bs p).inside, outside := (writesBytes_physWrite s key bs p).outside }
  · rename_i hp
    split
    · exact writesBytes_physWrite s key bs p
    · rename_i hk
      rcases h.1 with hq | ⟨hq, -, -⟩
      · exact absurd hq hp
      · exact absurd (by simpa using hq) hk

/-- A write in ordinary memory of unpoisoned bytes is a store there. -/
theorem writeKey_ordinary {s : State} {q : Home} {ag : Agent} {key : Nat} {bs : List Byte} (h : Ordinary s key bs.length)
    (hl : 0 < bs.length) : writeKey s q ag key bs none = storeKey s ag.tag key bs none := by
  have hn : isNotify s key = false := by simpa using h.2.2 0 hl
  have hd : (deadTag s key).isSome = false := by simp [h.2.1.1]
  unfold writeKey
  rcases h.1 with hp | ⟨-, hw, hr⟩
  · have hr : isRemote key = false := by
      simp only [isPad, isRemote, decide_eq_true_eq, Bool.and_eq_false_iff, decide_eq_false_iff_not] at hp ⊢
      omega
    simp only [hr, hn, hd, Bool.false_eq_true, if_false]
    split
    · rename_i hw
      have h1 : 2 ^ 52 ≤ key := of_decide_eq_true hp
      have h2 : key < 2 ^ 44 := by
        have := hw
        simp only [isWindow, Bool.and_eq_true, decide_eq_true_eq] at this
        exact this.2
      omega
    · rfl
  · simp [hr, hw, hn, hd]

/-- An aligned access of at most 4,096 bytes, a power of two, is checked at one address. -/
theorem granuleAddrs_aligned {va n : Nat} (hn : 0 < n) (h : va % 4096 + n ≤ 4096) : granuleAddrs va n = [va] := by
  have hd : (va + n - 1) / 4096 = va / 4096 := by omega
  simp [granuleAddrs, hd, Nat.pos_iff_ne_zero.mp hn]

/-- Such an access uses one translation. -/
theorem touchRange_one {s : State} {ag : Agent} {k : Access} {va n : Nat} (hn : 0 < n) (h : va % 4096 + n ≤ 4096) :
    touchRange s ag k va n = touch s ag va k := by simp [touchRange, granuleAddrs_aligned hn h]

/-- Probe of such an access finds nothing where its address passes. -/
theorem probeRange_one {s : State} {ag : Agent} {k : Access} {va n : Nat} {hit : Hit} (hn : 0 < n) (h : va % 4096 + n ≤ 4096)
    (hc : checkAddr s ag va k = .ok hit) : probeRange s ag k va n = [] := by
  simp [probeRange, granuleAddrs_aligned hn h, checkInRange, hc]

/-- A slot with no store of its own passed on sees memory as it is. -/
theorem ownView_none {s : State} {q : Nat} (h : ∀ a ∈ s.stores, a.home ≠ .slot q) : ownView s q = s := by
  have : (s.stores.filter fun a => a.home == .slot q && !a.increment) = [] := by
    simp only [List.filter_eq_nil_iff, Bool.and_eq_true, beq_iff_eq, not_and]
    exact fun a ha hh => absurd hh (h a ha)
  simp [ownView, this]

/-- No access of a slot waits behind its stores and its vector side when none of them waits, and, for a read, no release is left. -/
theorem waitsBehind_none {s : State} {q va n : Nat} {k : Access} (h : ∀ a ∈ s.stores, a.home = .slot q → a.waiting = false)
    (hv : vectorWaits s q (va, n) = false) (hr : k = .read → ∀ a ∈ s.stores, a.home ≠ .slot q) : waitsBehind s q k va n = false := by
  have hs : storeWaits s q s.nextOp (va, n) = false := by
    simp only [storeWaits, List.any_eq_false, Bool.and_eq_true, beq_iff_eq, decide_eq_true_eq, not_and]
    exact fun a ha hh hw => absurd (h a ha hh.1.1) (by simp [hh.1.2])
  have hk : (k == .read && s.stores.any fun a => a.home == .slot q && (a.increment || !isPlain s a.key) && sameBytes s q a.range (va, n)) = false := by
    by_cases hkr : k = .read
    · have : (s.stores.any fun a => a.home == .slot q && (a.increment || !isPlain s a.key) && sameBytes s q a.range (va, n)) = false := by
        simp only [List.any_eq_false, Bool.and_eq_true, beq_iff_eq, not_and]
        exact fun a ha hh => absurd hh.1 (hr hkr a ha)
      simp [this]
    · have : (k == .read) = false := by simpa using hkr
      simp [this]
  unfold waitsBehind
  rw [hs, hv, hk]
  rfl

/-- An aligned address that is a multiple of the access's size, a power of two up to 4,096, keeps the access in one granule. -/
theorem inside_of_aligned {va j : Nat} (hj : j ≤ 12) (h : va % 2 ^ j = 0) : va % 4096 + 2 ^ j ≤ 4096 := by
  have hd : 2 ^ j ∣ 4096 := Nat.pow_dvd_pow 2 hj
  obtain ⟨c, hc⟩ := hd
  have hp : 0 < 2 ^ j := Nat.two_pow_pos j
  have hm : va % 4096 % 2 ^ j = 0 := by rw [Nat.mod_mod_of_dvd _ ⟨c, hc⟩, h]
  obtain ⟨a, ha⟩ := Nat.dvd_of_mod_eq_zero hm
  have hlt : va % 4096 < 4096 := Nat.mod_lt _ (by norm_num)
  rw [ha] at hlt ⊢
  rw [hc] at hlt ⊢
  have : a < c := Nat.lt_of_mul_lt_mul_left hlt
  calc 2 ^ j * a + 2 ^ j = 2 ^ j * (a + 1) := by ring
    _ ≤ 2 ^ j * c := Nat.mul_le_mul_left _ this

/-- What passing on a store does: one more store in the list and in the counter, and no byte of memory yet. -/
theorem pushStore_stores {s : State} {q va : Nat} {bs : List Byte} {p : Option PTag} {inc rel : Bool}
    (hm : migratingAt s (scalarAgent s q) va bs.length = false)
    (h : touchRange s (scalarAgent s q) (if inc then .update else .write) va bs.length = s) :
    ∃ a, (pushStore s q va bs p inc rel).stores = s.stores ++ [a] ∧ a.slot = q ∧ a.home = .slot q ∧ a.va = BitVec.ofNat 64 va ∧
      a.ord = s.nextOp ∧ a.waiting = false ∧ (pushStore s q va bs p inc rel).nextOp = s.nextOp + 1 ∧ a.bytes = bs ∧ a.poison = p ∧ a.increment = inc ∧ a.release = rel ∧ (pushStore s q va bs p inc rel).mem = s.mem ∧
      (pushStore s q va bs p inc rel).slot q = { s.slot q with cnt := { (s.slot q).cnt with stores := (s.slot q).cnt.stores + 1 } } := by
  unfold pushStore
  simp only [hm, Bool.false_eq_true, if_false, h]
  exact ⟨_, rfl, rfl, rfl, rfl, rfl, rfl, trivial, rfl, rfl, rfl, rfl, rfl, State.slot_setSlot _ _ _⟩

/-- A trap of an instruction reports it as not executed: TRAPPC and the image's program counter are its own (10_context R260). -/
theorem trap_eq (s : State) (q cause : Nat) (addr aux : Word) :
    trap s q cause addr aux = takeTrapAt s q ⟨cause, (s.slot q).pc, addr, aux, false, false⟩ (s.slot q).pc := rfl

/-- A trap that shows the instruction has TRAPADDR zero. -/
theorem trapWord_eq (s : State) (q cause : Nat) (w : Option Nat) :
    trapWord s q cause w = trap s q cause 0 (auxWord (s.slot q) w) := rfl

/-- Outside a REP frame the word stands alone in TRAPAUX (04_sequencer R106). -/
theorem repIndex_outside {x : Slot} (h : x.OutsideRep) : repIndex x = 0 := by
  unfold repIndex
  split
  · rename_i e rest he
    exact if_neg (h e rest he)
  · rfl

/-- A stall changes nothing but the slot's state. -/
theorem onlySlot_stallSlot (s : State) (q : Nat) (w : Stall) : OnlySlot s (s.stallSlot q w) q := onlySlot_setSlot _ _ _

/-- Completing an instruction changes nothing outside its slot. -/
theorem onlySlot_complete (s : State) (q : Nat) : OnlySlot s (s.complete q) q := onlySlot_setSlot _ _ _

/-- An instruction that only completes passes. -/
theorem passes_of_complete {i : Instr} {s : State} (h : exec i s = next (s.complete s.cur)) : Passes i s := by
  have me : (s.complete s.cur).me = s.me.complete := State.slot_complete _ _
  refine ⟨_, h, onlySlot_complete _ _, ?_, ?_, ?_⟩ <;> rw [me]
  · rfl
  · intro r _
    rfl
  · exact ⟨rfl, rfl, rfl⟩

/-- What drawing a free value does: the counter moves on and nothing else changes. -/
theorem drawFree_eq (s : State) : drawFree s = (Config.freeValue s.free, { s with free := s.free + 1 }) := rfl

end Sys2Proof.Machine
end

