-- ==== Sys2Proof/Laws/PerInstr.lean ====
section
/-! SUPPORT. Every instruction word decodes to the instruction it encodes: one lemma per constructor (03_encoding R58 to R71). -/

namespace Sys2Proof.Laws

set_option Elab.async false

/-- A bit field of a word is the field that the word was made of. -/
theorem bits_eq {n : Nat} {w lo : Nat} (v : BitVec n) (h : w / 2 ^ lo % 2 ^ n = v.toNat) : bits n w lo = v :=
  BitVec.eq_of_toNat_eq (by simpa [bits] using h)

/-- The word of a well-formed instruction has 32 bits and decodes to it; an event has no word. -/
def encodes.Statement (i : Instr) : Prop := ∀ w, encode i = some w → wellFormed i = true → decodeWord w = .ok i ∧ w < 2 ^ 32

/-- A word whose row is well formed decodes to the instruction of the row. -/
theorem row_ok {w : Nat} {r : Row} (h : decodeRow w = some r) (wf : wellFormedRow r = true) (b : w < 2 ^ 32) :
    decodeWord w = .ok r.toInstr ∧ w < 2 ^ 32 := by
  exact ⟨by simp only [decodeWord, decodeToRow, h, wf, if_true], b⟩

/-- The row of a word of major 0x01. -/
theorem row01 {w : Nat} {i : Instr} (m : w / 2 ^ 26 = 0x01) (h : decodeMajor01 w = some i) :
    decodeRow w = some (.instr i) := by
  unfold decodeRow; rw [m]; simp only [h, Option.map_some]

/-- The row of a word of major 0x02. -/
theorem row02 {w : Nat} {i : Instr} (m : w / 2 ^ 26 = 0x02) (h : decodeMajor02 w = some i) :
    decodeRow w = some (.instr i) := by
  unfold decodeRow; rw [m]; simp only [h, Option.map_some]

/-- The row of a word of major 0x03. -/
theorem row03 {w : Nat} {i : Instr} (m : w / 2 ^ 26 = 0x03) (h : decodeMajor03 w = some i) :
    decodeRow w = some (.instr i) := by
  unfold decodeRow; rw [m]; simp only [h, Option.map_some]

/-- The row of a word of major 0x04. -/
theorem row04 {w : Nat} {i : Instr} (m : w / 2 ^ 26 = 0x04) (h : decodeMajor04 w = some i) :
    decodeRow w = some (.instr i) := by
  unfold decodeRow; rw [m]; simp only [h, Option.map_some]

/-- The row of a word of major 0x05. -/
theorem row05 {w : Nat} {i : Instr} (m : w / 2 ^ 26 = 0x05) (h : decodeMajor05 w = some i) :
    decodeRow w = some (.instr i) := by
  unfold decodeRow; rw [m]; simp only [h, Option.map_some]

/-- The row of a word of major 0x06. -/
theorem row06 {w : Nat} {i : Instr} (m : w / 2 ^ 26 = 0x06) (h : decodeMajor06 w = some i) :
    decodeRow w = some (.instr i) := by
  unfold decodeRow; rw [m]; simp only [h, Option.map_some]

/-- The row of a word of major 0x07. -/
theorem row07 {w : Nat} {i : Instr} (m : w / 2 ^ 26 = 0x07) (h : decodeMajor07 w = some i) :
    decodeRow w = some (.instr i) := by
  unfold decodeRow; rw [m]; simp only [h, Option.map_some]

/-- The row of a word of major 0x08. -/
theorem row08 {w : Nat} {i : Instr} (m : w / 2 ^ 26 = 0x08) (h : decodeMajor08 w = some i) :
    decodeRow w = some (.instr i) := by
  unfold decodeRow; rw [m]; simp only [h, Option.map_some]

/-- The row of a word of major 0x09. -/
theorem row09 {w : Nat} {i : Instr} (m : w / 2 ^ 26 = 0x09) (h : decodeMajor09 w = some i) :
    decodeRow w = some (.instr i) := by
  unfold decodeRow; rw [m]; simp only [h, Option.map_some]

/-- The row of a word of major 0x0a. -/
theorem row0A {w : Nat} {i : Instr} (m : w / 2 ^ 26 = 0x0a) (h : decodeMajor0A w = some i) :
    decodeRow w = some (.instr i) := by
  unfold decodeRow; rw [m]; simp only [h, Option.map_some]

/-- The row of a word of major 0x0b. -/
theorem row0B {w : Nat} {i : Instr} (m : w / 2 ^ 26 = 0x0b) (h : decodeMajor0B w = some i) :
    decodeRow w = some (.instr i) := by
  unfold decodeRow; rw [m]; simp only [h, Option.map_some]

/-- The row of a word of major 0x0c. -/
theorem row0C {w : Nat} {i : Instr} (m : w / 2 ^ 26 = 0x0c) (h : decodeMajor0C w = some i) :
    decodeRow w = some (.instr i) := by
  unfold decodeRow; rw [m]; simp only [h, Option.map_some]

/-- The row of a word of major 0x0d. -/
theorem row0D {w : Nat} {i : Instr} (m : w / 2 ^ 26 = 0x0d) (h : decodeMajor0D w = some i) :
    decodeRow w = some (.instr i) := by
  unfold decodeRow; rw [m]; simp only [h, Option.map_some]

/-- The row of a word of major 0x0e. -/
theorem row0E {w : Nat} {i : Instr} (m : w / 2 ^ 26 = 0x0e) (h : decodeMajor0E w = some i) :
    decodeRow w = some (.instr i) := by
  unfold decodeRow; rw [m]; simp only [h, Option.map_some]

/-- The row of a word of major 0x10. -/
theorem row10 {w : Nat} {i : Instr} (m : w / 2 ^ 26 = 0x10) (h : decodeMajor10 w = some i) :
    decodeRow w = some (.instr i) := by
  unfold decodeRow; rw [m]; simp only [h, Option.map_some]

/-- The row of a word of major 0x11. -/
theorem row11 {w : Nat} {i : Instr} (m : w / 2 ^ 26 = 0x11) (h : decodeMajor11 w = some i) :
    decodeRow w = some (.instr i) := by
  unfold decodeRow; rw [m]; simp only [h, Option.map_some]

/-- The row of a word of major 0x12. -/
theorem row12 {w : Nat} {i : Instr} (m : w / 2 ^ 26 = 0x12) (h : decodeMajor12 w = some i) :
    decodeRow w = some (.instr i) := by
  unfold decodeRow; rw [m]; simp only [h, Option.map_some]

/-- The row of a word of major 0x13. -/
theorem row13 {w : Nat} {i : Instr} (m : w / 2 ^ 26 = 0x13) (h : decodeMajor13 w = some i) :
    decodeRow w = some (.instr i) := by
  unfold decodeRow; rw [m]; simp only [h, Option.map_some]

/-- The row of a word of major 0x14. -/
theorem row14 {w : Nat} {i : Instr} (m : w / 2 ^ 26 = 0x14) (h : decodeMajor14 w = some i) :
    decodeRow w = some (.instr i) := by
  unfold decodeRow; rw [m]; simp only [h, Option.map_some]

/-- The row of a word of major 0x15. -/
theorem row15 {w : Nat} {i : Instr} (m : w / 2 ^ 26 = 0x15) (h : decodeMajor15 w = some i) :
    decodeRow w = some (.instr i) := by
  unfold decodeRow; rw [m]; simp only [h, Option.map_some]

/-- The row of a word of major 0x16. -/
theorem row16 {w : Nat} {i : Instr} (m : w / 2 ^ 26 = 0x16) (h : decodeMajor16 w = some i) :
    decodeRow w = some (.instr i) := by
  unfold decodeRow; rw [m]; simp only [h, Option.map_some]

/-- The row of a word of major 0x17. -/
theorem row17 {w : Nat} {i : Instr} (m : w / 2 ^ 26 = 0x17) (h : decodeMajor17 w = some i) :
    decodeRow w = some (.instr i) := by
  unfold decodeRow; rw [m]; simp only [h, Option.map_some]

/-- The row of a word of major 0x18. -/
theorem row18 {w : Nat} {i : Instr} (m : w / 2 ^ 26 = 0x18) (h : decodeMajor18 w = some i) :
    decodeRow w = some (.instr i) := by
  unfold decodeRow; rw [m]; simp only [h, Option.map_some]

/-- The row of a word of major 0x19. -/
theorem row19 {w : Nat} {i : Instr} (m : w / 2 ^ 26 = 0x19) (h : decodeMajor19 w = some i) :
    decodeRow w = some (.instr i) := by
  unfold decodeRow; rw [m]; simp only [h, Option.map_some]

/-- The row of a word of major 0x1a. -/
theorem row1A {w : Nat} {i : Instr} (m : w / 2 ^ 26 = 0x1a) (h : decodeMajor1A w = some i) :
    decodeRow w = some (.instr i) := by
  unfold decodeRow; rw [m]; simp only [h, Option.map_some]

/-- The row of a word of major 0x1b. -/
theorem row1B {w : Nat} {i : Instr} (m : w / 2 ^ 26 = 0x1b) (h : decodeMajor1B w = some i) :
    decodeRow w = some (.instr i) := by
  unfold decodeRow; rw [m]; simp only [h, Option.map_some]

/-- The row of a word of major 0x1c. -/
theorem row1C {w : Nat} {i : Instr} (m : w / 2 ^ 26 = 0x1c) (h : decodeMajor1C w = some i) :
    decodeRow w = some (.instr i) := by
  unfold decodeRow; rw [m]; simp only [h, Option.map_some]

/-- The row of a word of major 0x1d. -/
theorem row1D {w : Nat} {i : Instr} (m : w / 2 ^ 26 = 0x1d) (h : decodeMajor1D w = some i) :
    decodeRow w = some (.instr i) := by
  unfold decodeRow; rw [m]; simp only [h, Option.map_some]

/-- The row of a word of major 0x20. -/
theorem row20 {w : Nat} {i : VArith} (m : w / 2 ^ 26 = 0x20) (h : decodeMajor20 w = some i) :
    decodeRow w = some (.arith i) := by
  unfold decodeRow; rw [m]; simp only [h, Option.map_some]

/-- The row of a word of major 0x21. -/
theorem row21 {w : Nat} {i : VArith} (m : w / 2 ^ 26 = 0x21) (h : decodeMajor21 w = some i) :
    decodeRow w = some (.arith i) := by
  unfold decodeRow; rw [m]; simp only [h, Option.map_some]

/-- The row of a word of major 0x22. -/
theorem row22 {w : Nat} {i : VArith} (m : w / 2 ^ 26 = 0x22) (h : decodeMajor22 w = some i) :
    decodeRow w = some (.arith i) := by
  unfold decodeRow; rw [m]; simp only [h, Option.map_some]

/-- The row of a word of major 0x23. -/
theorem row23 {w : Nat} {i : VArith} (m : w / 2 ^ 26 = 0x23) (h : decodeMajor23 w = some i) :
    decodeRow w = some (.arith i) := by
  unfold decodeRow; rw [m]; simp only [h, Option.map_some]

/-- The row of a word of major 0x24. -/
theorem row24 {w : Nat} {i : VArith} (m : w / 2 ^ 26 = 0x24) (h : decodeMajor24 w = some i) :
    decodeRow w = some (.arith i) := by
  unfold decodeRow; rw [m]; simp only [h, Option.map_some]

/-- The row of a word of major 0x25. -/
theorem row25 {w : Nat} {i : Instr} (m : w / 2 ^ 26 = 0x25) (h : decodeMajor25 w = some i) :
    decodeRow w = some (.instr i) := by
  unfold decodeRow; rw [m]; simp only [h, Option.map_some]

/-- The row of a word of major 0x26. -/
theorem row26 {w : Nat} {i : Instr} (m : w / 2 ^ 26 = 0x26) (h : decodeMajor26 w = some i) :
    decodeRow w = some (.instr i) := by
  unfold decodeRow; rw [m]; simp only [h, Option.map_some]

/-- The row of a word of major 0x28. -/
theorem row28 {w : Nat} {i : Instr} (m : w / 2 ^ 26 = 0x28) (h : decodeMajor28 w = some i) :
    decodeRow w = some (.instr i) := by
  unfold decodeRow; rw [m]; simp only [h, Option.map_some]

/-- The row of a word of major 0x29. -/
theorem row29 {w : Nat} {i : Instr} (m : w / 2 ^ 26 = 0x29) (h : decodeMajor29 w = some i) :
    decodeRow w = some (.instr i) := by
  unfold decodeRow; rw [m]; simp only [h, Option.map_some]

/-- The row of a word of major 0x2a. -/
theorem row2A {w : Nat} {i : Instr} (m : w / 2 ^ 26 = 0x2a) (h : decodeMajor2A w = some i) :
    decodeRow w = some (.instr i) := by
  unfold decodeRow; rw [m]; simp only [h, Option.map_some]

/-- The row of a word of major 0x2b. -/
theorem row2B {w : Nat} {i : Instr} (m : w / 2 ^ 26 = 0x2b) (h : decodeMajor2B w = some i) :
    decodeRow w = some (.instr i) := by
  unfold decodeRow; rw [m]; simp only [h, Option.map_some]

/-- The row of a word of major 0x30. -/
theorem row30 {w : Nat} {i : Instr} (m : w / 2 ^ 26 = 0x30) (h : decodeMajor30 w = some i) :
    decodeRow w = some (.instr i) := by
  unfold decodeRow; rw [m]; simp only [h, Option.map_some]

/-- The row of a word of major 0x31. -/
theorem row31 {w : Nat} {i : Instr} (m : w / 2 ^ 26 = 0x31) (h : decodeMajor31 w = some i) :
    decodeRow w = some (.instr i) := by
  unfold decodeRow; rw [m]; simp only [h, Option.map_some]

/-- The row of a word of major 0x32. -/
theorem row32 {w : Nat} {i : Instr} (m : w / 2 ^ 26 = 0x32) (h : decodeMajor32 w = some i) :
    decodeRow w = some (.instr i) := by
  unfold decodeRow; rw [m]; simp only [h, Option.map_some]

/-- The row of a word of major 0x33. -/
theorem row33 {w : Nat} {i : Instr} (m : w / 2 ^ 26 = 0x33) (h : decodeMajor33 w = some i) :
    decodeRow w = some (.instr i) := by
  unfold decodeRow; rw [m]; simp only [h, Option.map_some]

/-- The row of a word of major 0x38. -/
theorem row38 {w : Nat} {i : Instr} (m : w / 2 ^ 26 = 0x38) (h : decodeMajor38 w = some i) :
    decodeRow w = some (.instr i) := by
  unfold decodeRow; rw [m]; simp only [h, Option.map_some]

/-- The row of a word of major 0x39. -/
theorem row39 {w : Nat} {i : Instr} (m : w / 2 ^ 26 = 0x39) (h : decodeMajor39 w = some i) :
    decodeRow w = some (.instr i) := by
  unfold decodeRow; rw [m]; simp only [h, Option.map_some]

theorem encodes.add (d : BitVec 6) (a : BitVec 6) (b : BitVec 6) : encodes.Statement (.add d a b) := by
  intro w h wf
  have b0 := d.isLt; have b1 := a.isLt; have b2 := b.isLt
  have e : w = 0x04000000 + d.toNat * 0x100000 + a.toNat * 0x4000 + b.toNat * 0x100 := (Option.some.inj h).symm
  have f7_0 : field w 7 0 = 0x0 := by unfold field; omega
  have v0 : bits 6 w 20 = d := bits_eq _ (by omega)
  have v1 : bits 6 w 14 = a := bits_eq _ (by omega)
  have v2 : bits 6 w 8 = b := bits_eq _ (by omega)
  refine row_ok (r := .instr (.add d a b)) (row01 (by omega) ?_) wf (by omega)
  simp only [decodeMajor01, f7_0, v0, v1, v2]; rfl

theorem encodes.sub (d : BitVec 6) (a : BitVec 6) (b : BitVec 6) : encodes.Statement (.sub d a b) := by
  intro w h wf
  have b0 := d.isLt; have b1 := a.isLt; have b2 := b.isLt
  have e : w = 0x04000001 + d.toNat * 0x100000 + a.toNat * 0x4000 + b.toNat * 0x100 := (Option.some.inj h).symm
  have f7_0 : field w 7 0 = 0x1 := by unfold field; omega
  have v0 : bits 6 w 20 = d := bits_eq _ (by omega)
  have v1 : bits 6 w 14 = a := bits_eq _ (by omega)
  have v2 : bits 6 w 8 = b := bits_eq _ (by omega)
  refine row_ok (r := .instr (.sub d a b)) (row01 (by omega) ?_) wf (by omega)
  simp only [decodeMajor01, f7_0, v0, v1, v2]; rfl

theorem encodes.and (d : BitVec 6) (a : BitVec 6) (b : BitVec 6) : encodes.Statement (.and d a b) := by
  intro w h wf
  have b0 := d.isLt; have b1 := a.isLt; have b2 := b.isLt
  have e : w = 0x04000002 + d.toNat * 0x100000 + a.toNat * 0x4000 + b.toNat * 0x100 := (Option.some.inj h).symm
  have f7_0 : field w 7 0 = 0x2 := by unfold field; omega
  have v0 : bits 6 w 20 = d := bits_eq _ (by omega)
  have v1 : bits 6 w 14 = a := bits_eq _ (by omega)
  have v2 : bits 6 w 8 = b := bits_eq _ (by omega)
  refine row_ok (r := .instr (.and d a b)) (row01 (by omega) ?_) wf (by omega)
  simp only [decodeMajor01, f7_0, v0, v1, v2]; rfl

theorem encodes.or (d : BitVec 6) (a : BitVec 6) (b : BitVec 6) : encodes.Statement (.or d a b) := by
  intro w h wf
  have b0 := d.isLt; have b1 := a.isLt; have b2 := b.isLt
  have e : w = 0x04000003 + d.toNat * 0x100000 + a.toNat * 0x4000 + b.toNat * 0x100 := (Option.some.inj h).symm
  have f7_0 : field w 7 0 = 0x3 := by unfold field; omega
  have v0 : bits 6 w 20 = d := bits_eq _ (by omega)
  have v1 : bits 6 w 14 = a := bits_eq _ (by omega)
  have v2 : bits 6 w 8 = b := bits_eq _ (by omega)
  refine row_ok (r := .instr (.or d a b)) (row01 (by omega) ?_) wf (by omega)
  simp only [decodeMajor01, f7_0, v0, v1, v2]; rfl

theorem encodes.xor (d : BitVec 6) (a : BitVec 6) (b : BitVec 6) : encodes.Statement (.xor d a b) := by
  intro w h wf
  have b0 := d.isLt; have b1 := a.isLt; have b2 := b.isLt
  have e : w = 0x04000004 + d.toNat * 0x100000 + a.toNat * 0x4000 + b.toNat * 0x100 := (Option.some.inj h).symm
  have f7_0 : field w 7 0 = 0x4 := by unfold field; omega
  have v0 : bits 6 w 20 = d := bits_eq _ (by omega)
  have v1 : bits 6 w 14 = a := bits_eq _ (by omega)
  have v2 : bits 6 w 8 = b := bits_eq _ (by omega)
  refine row_ok (r := .instr (.xor d a b)) (row01 (by omega) ?_) wf (by omega)
  simp only [decodeMajor01, f7_0, v0, v1, v2]; rfl

theorem encodes.andn (d : BitVec 6) (a : BitVec 6) (b : BitVec 6) : encodes.Statement (.andn d a b) := by
  intro w h wf
  have b0 := d.isLt; have b1 := a.isLt; have b2 := b.isLt
  have e : w = 0x04000005 + d.toNat * 0x100000 + a.toNat * 0x4000 + b.toNat * 0x100 := (Option.some.inj h).symm
  have f7_0 : field w 7 0 = 0x5 := by unfold field; omega
  have v0 : bits 6 w 20 = d := bits_eq _ (by omega)
  have v1 : bits 6 w 14 = a := bits_eq _ (by omega)
  have v2 : bits 6 w 8 = b := bits_eq _ (by omega)
  refine row_ok (r := .instr (.andn d a b)) (row01 (by omega) ?_) wf (by omega)
  simp only [decodeMajor01, f7_0, v0, v1, v2]; rfl

theorem encodes.shl (d : BitVec 6) (a : BitVec 6) (b : BitVec 6) : encodes.Statement (.shl d a b) := by
  intro w h wf
  have b0 := d.isLt; have b1 := a.isLt; have b2 := b.isLt
  have e : w = 0x04000006 + d.toNat * 0x100000 + a.toNat * 0x4000 + b.toNat * 0x100 := (Option.some.inj h).symm
  have f7_0 : field w 7 0 = 0x6 := by unfold field; omega
  have v0 : bits 6 w 20 = d := bits_eq _ (by omega)
  have v1 : bits 6 w 14 = a := bits_eq _ (by omega)
  have v2 : bits 6 w 8 = b := bits_eq _ (by omega)
  refine row_ok (r := .instr (.shl d a b)) (row01 (by omega) ?_) wf (by omega)
  simp only [decodeMajor01, f7_0, v0, v1, v2]; rfl

theorem encodes.shr (d : BitVec 6) (a : BitVec 6) (b : BitVec 6) : encodes.Statement (.shr d a b) := by
  intro w h wf
  have b0 := d.isLt; have b1 := a.isLt; have b2 := b.isLt
  have e : w = 0x04000007 + d.toNat * 0x100000 + a.toNat * 0x4000 + b.toNat * 0x100 := (Option.some.inj h).symm
  have f7_0 : field w 7 0 = 0x7 := by unfold field; omega
  have v0 : bits 6 w 20 = d := bits_eq _ (by omega)
  have v1 : bits 6 w 14 = a := bits_eq _ (by omega)
  have v2 : bits 6 w 8 = b := bits_eq _ (by omega)
  refine row_ok (r := .instr (.shr d a b)) (row01 (by omega) ?_) wf (by omega)
  simp only [decodeMajor01, f7_0, v0, v1, v2]; rfl

theorem encodes.sar (d : BitVec 6) (a : BitVec 6) (b : BitVec 6) : encodes.Statement (.sar d a b) := by
  intro w h wf
  have b0 := d.isLt; have b1 := a.isLt; have b2 := b.isLt
  have e : w = 0x04000008 + d.toNat * 0x100000 + a.toNat * 0x4000 + b.toNat * 0x100 := (Option.some.inj h).symm
  have f7_0 : field w 7 0 = 0x8 := by unfold field; omega
  have v0 : bits 6 w 20 = d := bits_eq _ (by omega)
  have v1 : bits 6 w 14 = a := bits_eq _ (by omega)
  have v2 : bits 6 w 8 = b := bits_eq _ (by omega)
  refine row_ok (r := .instr (.sar d a b)) (row01 (by omega) ?_) wf (by omega)
  simp only [decodeMajor01, f7_0, v0, v1, v2]; rfl

theorem encodes.mul (d : BitVec 6) (a : BitVec 6) (b : BitVec 6) : encodes.Statement (.mul d a b) := by
  intro w h wf
  have b0 := d.isLt; have b1 := a.isLt; have b2 := b.isLt
  have e : w = 0x04000009 + d.toNat * 0x100000 + a.toNat * 0x4000 + b.toNat * 0x100 := (Option.some.inj h).symm
  have f7_0 : field w 7 0 = 0x9 := by unfold field; omega
  have v0 : bits 6 w 20 = d := bits_eq _ (by omega)
  have v1 : bits 6 w 14 = a := bits_eq _ (by omega)
  have v2 : bits 6 w 8 = b := bits_eq _ (by omega)
  refine row_ok (r := .instr (.mul d a b)) (row01 (by omega) ?_) wf (by omega)
  simp only [decodeMajor01, f7_0, v0, v1, v2]; rfl

theorem encodes.mulh (d : BitVec 6) (a : BitVec 6) (b : BitVec 6) : encodes.Statement (.mulh d a b) := by
  intro w h wf
  have b0 := d.isLt; have b1 := a.isLt; have b2 := b.isLt
  have e : w = 0x0400000a + d.toNat * 0x100000 + a.toNat * 0x4000 + b.toNat * 0x100 := (Option.some.inj h).symm
  have f7_0 : field w 7 0 = 0xa := by unfold field; omega
  have v0 : bits 6 w 20 = d := bits_eq _ (by omega)
  have v1 : bits 6 w 14 = a := bits_eq _ (by omega)
  have v2 : bits 6 w 8 = b := bits_eq _ (by omega)
  refine row_ok (r := .instr (.mulh d a b)) (row01 (by omega) ?_) wf (by omega)
  simp only [decodeMajor01, f7_0, v0, v1, v2]; rfl

theorem encodes.mulhz (d : BitVec 6) (a : BitVec 6) (b : BitVec 6) : encodes.Statement (.mulhz d a b) := by
  intro w h wf
  have b0 := d.isLt; have b1 := a.isLt; have b2 := b.isLt
  have e : w = 0x0400000b + d.toNat * 0x100000 + a.toNat * 0x4000 + b.toNat * 0x100 := (Option.some.inj h).symm
  have f7_0 : field w 7 0 = 0xb := by unfold field; omega
  have v0 : bits 6 w 20 = d := bits_eq _ (by omega)
  have v1 : bits 6 w 14 = a := bits_eq _ (by omega)
  have v2 : bits 6 w 8 = b := bits_eq _ (by omega)
  refine row_ok (r := .instr (.mulhz d a b)) (row01 (by omega) ?_) wf (by omega)
  simp only [decodeMajor01, f7_0, v0, v1, v2]; rfl

theorem encodes.div (d : BitVec 6) (a : BitVec 6) (b : BitVec 6) : encodes.Statement (.div d a b) := by
  intro w h wf
  have b0 := d.isLt; have b1 := a.isLt; have b2 := b.isLt
  have e : w = 0x0400000c + d.toNat * 0x100000 + a.toNat * 0x4000 + b.toNat * 0x100 := (Option.some.inj h).symm
  have f7_0 : field w 7 0 = 0xc := by unfold field; omega
  have v0 : bits 6 w 20 = d := bits_eq _ (by omega)
  have v1 : bits 6 w 14 = a := bits_eq _ (by omega)
  have v2 : bits 6 w 8 = b := bits_eq _ (by omega)
  refine row_ok (r := .instr (.div d a b)) (row01 (by omega) ?_) wf (by omega)
  simp only [decodeMajor01, f7_0, v0, v1, v2]; rfl

theorem encodes.divz (d : BitVec 6) (a : BitVec 6) (b : BitVec 6) : encodes.Statement (.divz d a b) := by
  intro w h wf
  have b0 := d.isLt; have b1 := a.isLt; have b2 := b.isLt
  have e : w = 0x0400000d + d.toNat * 0x100000 + a.toNat * 0x4000 + b.toNat * 0x100 := (Option.some.inj h).symm
  have f7_0 : field w 7 0 = 0xd := by unfold field; omega
  have v0 : bits 6 w 20 = d := bits_eq _ (by omega)
  have v1 : bits 6 w 14 = a := bits_eq _ (by omega)
  have v2 : bits 6 w 8 = b := bits_eq _ (by omega)
  refine row_ok (r := .instr (.divz d a b)) (row01 (by omega) ?_) wf (by omega)
  simp only [decodeMajor01, f7_0, v0, v1, v2]; rfl

theorem encodes.rem (d : BitVec 6) (a : BitVec 6) (b : BitVec 6) : encodes.Statement (.rem d a b) := by
  intro w h wf
  have b0 := d.isLt; have b1 := a.isLt; have b2 := b.isLt
  have e : w = 0x0400000e + d.toNat * 0x100000 + a.toNat * 0x4000 + b.toNat * 0x100 := (Option.some.inj h).symm
  have f7_0 : field w 7 0 = 0xe := by unfold field; omega
  have v0 : bits 6 w 20 = d := bits_eq _ (by omega)
  have v1 : bits 6 w 14 = a := bits_eq _ (by omega)
  have v2 : bits 6 w 8 = b := bits_eq _ (by omega)
  refine row_ok (r := .instr (.rem d a b)) (row01 (by omega) ?_) wf (by omega)
  simp only [decodeMajor01, f7_0, v0, v1, v2]; rfl

theorem encodes.remz (d : BitVec 6) (a : BitVec 6) (b : BitVec 6) : encodes.Statement (.remz d a b) := by
  intro w h wf
  have b0 := d.isLt; have b1 := a.isLt; have b2 := b.isLt
  have e : w = 0x0400000f + d.toNat * 0x100000 + a.toNat * 0x4000 + b.toNat * 0x100 := (Option.some.inj h).symm
  have f7_0 : field w 7 0 = 0xf := by unfold field; omega
  have v0 : bits 6 w 20 = d := bits_eq _ (by omega)
  have v1 : bits 6 w 14 = a := bits_eq _ (by omega)
  have v2 : bits 6 w 8 = b := bits_eq _ (by omega)
  refine row_ok (r := .instr (.remz d a b)) (row01 (by omega) ?_) wf (by omega)
  simp only [decodeMajor01, f7_0, v0, v1, v2]; rfl

theorem encodes.min (d : BitVec 6) (a : BitVec 6) (b : BitVec 6) : encodes.Statement (.min d a b) := by
  intro w h wf
  have b0 := d.isLt; have b1 := a.isLt; have b2 := b.isLt
  have e : w = 0x04000010 + d.toNat * 0x100000 + a.toNat * 0x4000 + b.toNat * 0x100 := (Option.some.inj h).symm
  have f7_0 : field w 7 0 = 0x10 := by unfold field; omega
  have v0 : bits 6 w 20 = d := bits_eq _ (by omega)
  have v1 : bits 6 w 14 = a := bits_eq _ (by omega)
  have v2 : bits 6 w 8 = b := bits_eq _ (by omega)
  refine row_ok (r := .instr (.min d a b)) (row01 (by omega) ?_) wf (by omega)
  simp only [decodeMajor01, f7_0, v0, v1, v2]; rfl

theorem encodes.max (d : BitVec 6) (a : BitVec 6) (b : BitVec 6) : encodes.Statement (.max d a b) := by
  intro w h wf
  have b0 := d.isLt; have b1 := a.isLt; have b2 := b.isLt
  have e : w = 0x04000011 + d.toNat * 0x100000 + a.toNat * 0x4000 + b.toNat * 0x100 := (Option.some.inj h).symm
  have f7_0 : field w 7 0 = 0x11 := by unfold field; omega
  have v0 : bits 6 w 20 = d := bits_eq _ (by omega)
  have v1 : bits 6 w 14 = a := bits_eq _ (by omega)
  have v2 : bits 6 w 8 = b := bits_eq _ (by omega)
  refine row_ok (r := .instr (.max d a b)) (row01 (by omega) ?_) wf (by omega)
  simp only [decodeMajor01, f7_0, v0, v1, v2]; rfl

theorem encodes.minz (d : BitVec 6) (a : BitVec 6) (b : BitVec 6) : encodes.Statement (.minz d a b) := by
  intro w h wf
  have b0 := d.isLt; have b1 := a.isLt; have b2 := b.isLt
  have e : w = 0x04000012 + d.toNat * 0x100000 + a.toNat * 0x4000 + b.toNat * 0x100 := (Option.some.inj h).symm
  have f7_0 : field w 7 0 = 0x12 := by unfold field; omega
  have v0 : bits 6 w 20 = d := bits_eq _ (by omega)
  have v1 : bits 6 w 14 = a := bits_eq _ (by omega)
  have v2 : bits 6 w 8 = b := bits_eq _ (by omega)
  refine row_ok (r := .instr (.minz d a b)) (row01 (by omega) ?_) wf (by omega)
  simp only [decodeMajor01, f7_0, v0, v1, v2]; rfl

theorem encodes.maxz (d : BitVec 6) (a : BitVec 6) (b : BitVec 6) : encodes.Statement (.maxz d a b) := by
  intro w h wf
  have b0 := d.isLt; have b1 := a.isLt; have b2 := b.isLt
  have e : w = 0x04000013 + d.toNat * 0x100000 + a.toNat * 0x4000 + b.toNat * 0x100 := (Option.some.inj h).symm
  have f7_0 : field w 7 0 = 0x13 := by unfold field; omega
  have v0 : bits 6 w 20 = d := bits_eq _ (by omega)
  have v1 : bits 6 w 14 = a := bits_eq _ (by omega)
  have v2 : bits 6 w 8 = b := bits_eq _ (by omega)
  refine row_ok (r := .instr (.maxz d a b)) (row01 (by omega) ?_) wf (by omega)
  simp only [decodeMajor01, f7_0, v0, v1, v2]; rfl

theorem encodes.addsh (d : BitVec 6) (a : BitVec 6) (b : BitVec 6) (n : BitVec 2) : encodes.Statement (.addsh d a b n) := by
  intro w h wf
  have b0 := d.isLt; have b1 := a.isLt; have b2 := b.isLt; have b3 := n.isLt
  have e : w = 0x04000014 + d.toNat * 0x100000 + a.toNat * 0x4000 + b.toNat * 0x100 + n.toNat := (Option.some.inj h).symm
  have f7_2 : field w 7 2 = 0x5 := by unfold field; omega
  have n1 : (field w 7 0 = 0) = False := eq_false (by unfold field; omega)
  have n2 : (field w 7 0 = 1) = False := eq_false (by unfold field; omega)
  have n3 : (field w 7 0 = 2) = False := eq_false (by unfold field; omega)
  have n4 : (field w 7 0 = 3) = False := eq_false (by unfold field; omega)
  have n5 : (field w 7 0 = 4) = False := eq_false (by unfold field; omega)
  have n6 : (field w 7 0 = 5) = False := eq_false (by unfold field; omega)
  have n7 : (field w 7 0 = 6) = False := eq_false (by unfold field; omega)
  have n8 : (field w 7 0 = 7) = False := eq_false (by unfold field; omega)
  have n9 : (field w 7 0 = 8) = False := eq_false (by unfold field; omega)
  have n10 : (field w 7 0 = 9) = False := eq_false (by unfold field; omega)
  have n11 : (field w 7 0 = 0xa) = False := eq_false (by unfold field; omega)
  have n12 : (field w 7 0 = 0xb) = False := eq_false (by unfold field; omega)
  have n13 : (field w 7 0 = 0xc) = False := eq_false (by unfold field; omega)
  have n14 : (field w 7 0 = 0xd) = False := eq_false (by unfold field; omega)
  have n15 : (field w 7 0 = 0xe) = False := eq_false (by unfold field; omega)
  have n16 : (field w 7 0 = 0xf) = False := eq_false (by unfold field; omega)
  have n17 : (field w 7 0 = 0x10) = False := eq_false (by unfold field; omega)
  have n18 : (field w 7 0 = 0x11) = False := eq_false (by unfold field; omega)
  have n19 : (field w 7 0 = 0x12) = False := eq_false (by unfold field; omega)
  have n20 : (field w 7 0 = 0x13) = False := eq_false (by unfold field; omega)
  have v0 : bits 6 w 20 = d := bits_eq _ (by omega)
  have v1 : bits 6 w 14 = a := bits_eq _ (by omega)
  have v2 : bits 6 w 8 = b := bits_eq _ (by omega)
  have v3 : bits 2 w 0 = n := bits_eq _ (by omega)
  refine row_ok (r := .instr (.addsh d a b n)) (row01 (by omega) ?_) wf (by omega)
  simp only [decodeMajor01, n20, n19, n18, n17, n16, n15, n14, n13, n12, n11, n10, n9, n8, n7, n6, n5, n4, n3, n2, n1, f7_2, v0, v1, v2, v3]; rfl

theorem encodes.sel (d : BitVec 6) (a : BitVec 6) (b : BitVec 6) : encodes.Statement (.sel d a b) := by
  intro w h wf
  have b0 := d.isLt; have b1 := a.isLt; have b2 := b.isLt
  have e : w = 0x04000018 + d.toNat * 0x100000 + a.toNat * 0x4000 + b.toNat * 0x100 := (Option.some.inj h).symm
  have f7_0 : field w 7 0 = 0x18 := by unfold field; omega
  have f7_2 : field w 7 2 = 0x6 := by unfold field; omega
  have v0 : bits 6 w 20 = d := bits_eq _ (by omega)
  have v1 : bits 6 w 14 = a := bits_eq _ (by omega)
  have v2 : bits 6 w 8 = b := bits_eq _ (by omega)
  refine row_ok (r := .instr (.sel d a b)) (row01 (by omega) ?_) wf (by omega)
  simp only [decodeMajor01, f7_0, f7_2, v0, v1, v2]; rfl

theorem encodes.cmpeq (d : BitVec 6) (a : BitVec 6) (b : BitVec 6) : encodes.Statement (.cmpeq d a b) := by
  intro w h wf
  have b0 := d.isLt; have b1 := a.isLt; have b2 := b.isLt
  have e : w = 0x04000019 + d.toNat * 0x100000 + a.toNat * 0x4000 + b.toNat * 0x100 := (Option.some.inj h).symm
  have f7_0 : field w 7 0 = 0x19 := by unfold field; omega
  have f7_2 : field w 7 2 = 0x6 := by unfold field; omega
  have v0 : bits 6 w 20 = d := bits_eq _ (by omega)
  have v1 : bits 6 w 14 = a := bits_eq _ (by omega)
  have v2 : bits 6 w 8 = b := bits_eq _ (by omega)
  refine row_ok (r := .instr (.cmpeq d a b)) (row01 (by omega) ?_) wf (by omega)
  simp only [decodeMajor01, f7_0, f7_2, v0, v1, v2]; rfl

theorem encodes.cmplt (d : BitVec 6) (a : BitVec 6) (b : BitVec 6) : encodes.Statement (.cmplt d a b) := by
  intro w h wf
  have b0 := d.isLt; have b1 := a.isLt; have b2 := b.isLt
  have e : w = 0x0400001a + d.toNat * 0x100000 + a.toNat * 0x4000 + b.toNat * 0x100 := (Option.some.inj h).symm
  have f7_0 : field w 7 0 = 0x1a := by unfold field; omega
  have f7_2 : field w 7 2 = 0x6 := by unfold field; omega
  have v0 : bits 6 w 20 = d := bits_eq _ (by omega)
  have v1 : bits 6 w 14 = a := bits_eq _ (by omega)
  have v2 : bits 6 w 8 = b := bits_eq _ (by omega)
  refine row_ok (r := .instr (.cmplt d a b)) (row01 (by omega) ?_) wf (by omega)
  simp only [decodeMajor01, f7_0, f7_2, v0, v1, v2]; rfl

theorem encodes.cmpltz (d : BitVec 6) (a : BitVec 6) (b : BitVec 6) : encodes.Statement (.cmpltz d a b) := by
  intro w h wf
  have b0 := d.isLt; have b1 := a.isLt; have b2 := b.isLt
  have e : w = 0x0400001b + d.toNat * 0x100000 + a.toNat * 0x4000 + b.toNat * 0x100 := (Option.some.inj h).symm
  have f7_0 : field w 7 0 = 0x1b := by unfold field; omega
  have f7_2 : field w 7 2 = 0x6 := by unfold field; omega
  have v0 : bits 6 w 20 = d := bits_eq _ (by omega)
  have v1 : bits 6 w 14 = a := bits_eq _ (by omega)
  have v2 : bits 6 w 8 = b := bits_eq _ (by omega)
  refine row_ok (r := .instr (.cmpltz d a b)) (row01 (by omega) ?_) wf (by omega)
  simp only [decodeMajor01, f7_0, f7_2, v0, v1, v2]; rfl

theorem encodes.clz (d : BitVec 6) (a : BitVec 6) : encodes.Statement (.clz d a) := by
  intro w h wf
  have b0 := d.isLt; have b1 := a.isLt
  have e : w = 0x0400001c + d.toNat * 0x100000 + a.toNat * 0x4000 := (Option.some.inj h).symm
  have f7_0 : field w 7 0 = 0x1c := by unfold field; omega
  have f7_2 : field w 7 2 = 0x7 := by unfold field; omega
  have f13_0 : field w 13 0 = 0x1c := by unfold field; omega
  have v0 : bits 6 w 20 = d := bits_eq _ (by omega)
  have v1 : bits 6 w 14 = a := bits_eq _ (by omega)
  refine row_ok (r := .instr (.clz d a)) (row01 (by omega) ?_) wf (by omega)
  simp only [decodeMajor01, f7_0, f7_2, f13_0, v0, v1]; rfl

theorem encodes.ctz (d : BitVec 6) (a : BitVec 6) : encodes.Statement (.ctz d a) := by
  intro w h wf
  have b0 := d.isLt; have b1 := a.isLt
  have e : w = 0x0400001d + d.toNat * 0x100000 + a.toNat * 0x4000 := (Option.some.inj h).symm
  have f7_0 : field w 7 0 = 0x1d := by unfold field; omega
  have f7_2 : field w 7 2 = 0x7 := by unfold field; omega
  have f13_0 : field w 13 0 = 0x1d := by unfold field; omega
  have v0 : bits 6 w 20 = d := bits_eq _ (by omega)
  have v1 : bits 6 w 14 = a := bits_eq _ (by omega)
  refine row_ok (r := .instr (.ctz d a)) (row01 (by omega) ?_) wf (by omega)
  simp only [decodeMajor01, f7_0, f7_2, f13_0, v0, v1]; rfl

theorem encodes.popc (d : BitVec 6) (a : BitVec 6) : encodes.Statement (.popc d a) := by
  intro w h wf
  have b0 := d.isLt; have b1 := a.isLt
  have e : w = 0x0400001e + d.toNat * 0x100000 + a.toNat * 0x4000 := (Option.some.inj h).symm
  have f7_0 : field w 7 0 = 0x1e := by unfold field; omega
  have f7_2 : field w 7 2 = 0x7 := by unfold field; omega
  have f13_0 : field w 13 0 = 0x1e := by unfold field; omega
  have v0 : bits 6 w 20 = d := bits_eq _ (by omega)
  have v1 : bits 6 w 14 = a := bits_eq _ (by omega)
  refine row_ok (r := .instr (.popc d a)) (row01 (by omega) ?_) wf (by omega)
  simp only [decodeMajor01, f7_0, f7_2, f13_0, v0, v1]; rfl

theorem encodes.bswap (d : BitVec 6) (a : BitVec 6) : encodes.Statement (.bswap d a) := by
  intro w h wf
  have b0 := d.isLt; have b1 := a.isLt
  have e : w = 0x0400001f + d.toNat * 0x100000 + a.toNat * 0x4000 := (Option.some.inj h).symm
  have f7_0 : field w 7 0 = 0x1f := by unfold field; omega
  have f7_2 : field w 7 2 = 0x7 := by unfold field; omega
  have f13_0 : field w 13 0 = 0x1f := by unfold field; omega
  have v0 : bits 6 w 20 = d := bits_eq _ (by omega)
  have v1 : bits 6 w 14 = a := bits_eq _ (by omega)
  refine row_ok (r := .instr (.bswap d a)) (row01 (by omega) ?_) wf (by omega)
  simp only [decodeMajor01, f7_0, f7_2, f13_0, v0, v1]; rfl

theorem encodes.fadd (d : BitVec 6) (a : BitVec 6) (b : BitVec 6) (p : BitVec 1) : encodes.Statement (.fadd d a b p) := by
  intro w h wf
  have b0 := d.isLt; have b1 := a.isLt; have b2 := b.isLt; have b3 := p.isLt
  have e : w = 0x08000000 + d.toNat * 0x100000 + a.toNat * 0x4000 + b.toNat * 0x100 + p.toNat := (Option.some.inj h).symm
  have f7_1 : field w 7 1 = 0x0 := by unfold field; omega
  have v0 : bits 6 w 20 = d := bits_eq _ (by omega)
  have v1 : bits 6 w 14 = a := bits_eq _ (by omega)
  have v2 : bits 6 w 8 = b := bits_eq _ (by omega)
  have v3 : bits 1 w 0 = p := bits_eq _ (by omega)
  refine row_ok (r := .instr (.fadd d a b p)) (row02 (by omega) ?_) wf (by omega)
  simp only [decodeMajor02, f7_1, v0, v1, v2, v3]; rfl

theorem encodes.fsub (d : BitVec 6) (a : BitVec 6) (b : BitVec 6) (p : BitVec 1) : encodes.Statement (.fsub d a b p) := by
  intro w h wf
  have b0 := d.isLt; have b1 := a.isLt; have b2 := b.isLt; have b3 := p.isLt
  have e : w = 0x08000002 + d.toNat * 0x100000 + a.toNat * 0x4000 + b.toNat * 0x100 + p.toNat := (Option.some.inj h).symm
  have f7_1 : field w 7 1 = 0x1 := by unfold field; omega
  have v0 : bits 6 w 20 = d := bits_eq _ (by omega)
  have v1 : bits 6 w 14 = a := bits_eq _ (by omega)
  have v2 : bits 6 w 8 = b := bits_eq _ (by omega)
  have v3 : bits 1 w 0 = p := bits_eq _ (by omega)
  refine row_ok (r := .instr (.fsub d a b p)) (row02 (by omega) ?_) wf (by omega)
  simp only [decodeMajor02, f7_1, v0, v1, v2, v3]; rfl

theorem encodes.fmul (d : BitVec 6) (a : BitVec 6) (b : BitVec 6) (p : BitVec 1) : encodes.Statement (.fmul d a b p) := by
  intro w h wf
  have b0 := d.isLt; have b1 := a.isLt; have b2 := b.isLt; have b3 := p.isLt
  have e : w = 0x08000004 + d.toNat * 0x100000 + a.toNat * 0x4000 + b.toNat * 0x100 + p.toNat := (Option.some.inj h).symm
  have f7_1 : field w 7 1 = 0x2 := by unfold field; omega
  have v0 : bits 6 w 20 = d := bits_eq _ (by omega)
  have v1 : bits 6 w 14 = a := bits_eq _ (by omega)
  have v2 : bits 6 w 8 = b := bits_eq _ (by omega)
  have v3 : bits 1 w 0 = p := bits_eq _ (by omega)
  refine row_ok (r := .instr (.fmul d a b p)) (row02 (by omega) ?_) wf (by omega)
  simp only [decodeMajor02, f7_1, v0, v1, v2, v3]; rfl

theorem encodes.fdiv (d : BitVec 6) (a : BitVec 6) (b : BitVec 6) (p : BitVec 1) : encodes.Statement (.fdiv d a b p) := by
  intro w h wf
  have b0 := d.isLt; have b1 := a.isLt; have b2 := b.isLt; have b3 := p.isLt
  have e : w = 0x08000006 + d.toNat * 0x100000 + a.toNat * 0x4000 + b.toNat * 0x100 + p.toNat := (Option.some.inj h).symm
  have f7_1 : field w 7 1 = 0x3 := by unfold field; omega
  have v0 : bits 6 w 20 = d := bits_eq _ (by omega)
  have v1 : bits 6 w 14 = a := bits_eq _ (by omega)
  have v2 : bits 6 w 8 = b := bits_eq _ (by omega)
  have v3 : bits 1 w 0 = p := bits_eq _ (by omega)
  refine row_ok (r := .instr (.fdiv d a b p)) (row02 (by omega) ?_) wf (by omega)
  simp only [decodeMajor02, f7_1, v0, v1, v2, v3]; rfl

theorem encodes.fsqrt (d : BitVec 6) (a : BitVec 6) (p : BitVec 1) : encodes.Statement (.fsqrt d a p) := by
  intro w h wf
  have b0 := d.isLt; have b1 := a.isLt; have b2 := p.isLt
  have e : w = 0x08000008 + d.toNat * 0x100000 + a.toNat * 0x4000 + p.toNat := (Option.some.inj h).symm
  have f7_1 : field w 7 1 = 0x4 := by unfold field; omega
  have f13_1 : field w 13 1 = 0x4 := by unfold field; omega
  have v0 : bits 6 w 20 = d := bits_eq _ (by omega)
  have v1 : bits 6 w 14 = a := bits_eq _ (by omega)
  have v2 : bits 1 w 0 = p := bits_eq _ (by omega)
  refine row_ok (r := .instr (.fsqrt d a p)) (row02 (by omega) ?_) wf (by omega)
  simp only [decodeMajor02, f7_1, f13_1, v0, v1, v2]; rfl

theorem encodes.fma (d : BitVec 6) (a : BitVec 6) (b : BitVec 6) (p : BitVec 1) : encodes.Statement (.fma d a b p) := by
  intro w h wf
  have b0 := d.isLt; have b1 := a.isLt; have b2 := b.isLt; have b3 := p.isLt
  have e : w = 0x0800000a + d.toNat * 0x100000 + a.toNat * 0x4000 + b.toNat * 0x100 + p.toNat := (Option.some.inj h).symm
  have f7_1 : field w 7 1 = 0x5 := by unfold field; omega
  have n1 : (field w 13 1 = 4) = False := eq_false (by unfold field; omega)
  have v0 : bits 6 w 20 = d := bits_eq _ (by omega)
  have v1 : bits 6 w 14 = a := bits_eq _ (by omega)
  have v2 : bits 6 w 8 = b := bits_eq _ (by omega)
  have v3 : bits 1 w 0 = p := bits_eq _ (by omega)
  refine row_ok (r := .instr (.fma d a b p)) (row02 (by omega) ?_) wf (by omega)
  simp only [decodeMajor02, n1, f7_1, v0, v1, v2, v3]; rfl

theorem encodes.fmin (d : BitVec 6) (a : BitVec 6) (b : BitVec 6) (p : BitVec 1) : encodes.Statement (.fmin d a b p) := by
  intro w h wf
  have b0 := d.isLt; have b1 := a.isLt; have b2 := b.isLt; have b3 := p.isLt
  have e : w = 0x0800000c + d.toNat * 0x100000 + a.toNat * 0x4000 + b.toNat * 0x100 + p.toNat := (Option.some.inj h).symm
  have f7_1 : field w 7 1 = 0x6 := by unfold field; omega
  have n1 : (field w 13 1 = 4) = False := eq_false (by unfold field; omega)
  have v0 : bits 6 w 20 = d := bits_eq _ (by omega)
  have v1 : bits 6 w 14 = a := bits_eq _ (by omega)
  have v2 : bits 6 w 8 = b := bits_eq _ (by omega)
  have v3 : bits 1 w 0 = p := bits_eq _ (by omega)
  refine row_ok (r := .instr (.fmin d a b p)) (row02 (by omega) ?_) wf (by omega)
  simp only [decodeMajor02, n1, f7_1, v0, v1, v2, v3]; rfl

theorem encodes.fmax (d : BitVec 6) (a : BitVec 6) (b : BitVec 6) (p : BitVec 1) : encodes.Statement (.fmax d a b p) := by
  intro w h wf
  have b0 := d.isLt; have b1 := a.isLt; have b2 := b.isLt; have b3 := p.isLt
  have e : w = 0x0800000e + d.toNat * 0x100000 + a.toNat * 0x4000 + b.toNat * 0x100 + p.toNat := (Option.some.inj h).symm
  have f7_1 : field w 7 1 = 0x7 := by unfold field; omega
  have n1 : (field w 13 1 = 4) = False := eq_false (by unfold field; omega)
  have v0 : bits 6 w 20 = d := bits_eq _ (by omega)
  have v1 : bits 6 w 14 = a := bits_eq _ (by omega)
  have v2 : bits 6 w 8 = b := bits_eq _ (by omega)
  have v3 : bits 1 w 0 = p := bits_eq _ (by omega)
  refine row_ok (r := .instr (.fmax d a b p)) (row02 (by omega) ?_) wf (by omega)
  simp only [decodeMajor02, n1, f7_1, v0, v1, v2, v3]; rfl

theorem encodes.fcmp (d : BitVec 6) (a : BitVec 6) (b : BitVec 6) (c : BitVec 2) (p : BitVec 1) : encodes.Statement (.fcmp d a b c p) := by
  intro w h wf
  have b0 := d.isLt; have b1 := a.isLt; have b2 := b.isLt; have b3 := c.isLt; have b4 := p.isLt
  have e : w = 0x08000010 + d.toNat * 0x100000 + a.toNat * 0x4000 + b.toNat * 0x100 + c.toNat * 0x2 + p.toNat := (Option.some.inj h).symm
  have f7_3 : field w 7 3 = 0x2 := by unfold field; omega
  have n1 : (field w 7 1 = 0) = False := eq_false (by unfold field; omega)
  have n2 : (field w 7 1 = 1) = False := eq_false (by unfold field; omega)
  have n3 : (field w 7 1 = 2) = False := eq_false (by unfold field; omega)
  have n4 : (field w 7 1 = 3) = False := eq_false (by unfold field; omega)
  have n5 : (field w 13 1 = 4) = False := eq_false (by unfold field; omega)
  have n6 : (field w 7 1 = 5) = False := eq_false (by unfold field; omega)
  have n7 : (field w 7 1 = 6) = False := eq_false (by unfold field; omega)
  have n8 : (field w 7 1 = 7) = False := eq_false (by unfold field; omega)
  have v0 : bits 6 w 20 = d := bits_eq _ (by omega)
  have v1 : bits 6 w 14 = a := bits_eq _ (by omega)
  have v2 : bits 6 w 8 = b := bits_eq _ (by omega)
  have v3 : bits 2 w 1 = c := bits_eq _ (by omega)
  have v4 : bits 1 w 0 = p := bits_eq _ (by omega)
  refine row_ok (r := .instr (.fcmp d a b c p)) (row02 (by omega) ?_) wf (by omega)
  simp only [decodeMajor02, n8, n7, n6, n5, n4, n3, n2, n1, f7_3, v0, v1, v2, v3, v4]; rfl

theorem encodes.fcvtDS (d : BitVec 6) (a : BitVec 6) : encodes.Statement (.fcvtDS d a) := by
  intro w h wf
  have b0 := d.isLt; have b1 := a.isLt
  have e : w = 0x08000020 + d.toNat * 0x100000 + a.toNat * 0x4000 := (Option.some.inj h).symm
  have f7_1 : field w 7 1 = 0x10 := by unfold field; omega
  have f7_3 : field w 7 3 = 0x4 := by unfold field; omega
  have f13_0 : field w 13 0 = 0x20 := by unfold field; omega
  have f13_1 : field w 13 1 = 0x10 := by unfold field; omega
  have v0 : bits 6 w 20 = d := bits_eq _ (by omega)
  have v1 : bits 6 w 14 = a := bits_eq _ (by omega)
  refine row_ok (r := .instr (.fcvtDS d a)) (row02 (by omega) ?_) wf (by omega)
  simp only [decodeMajor02, f7_1, f7_3, f13_0, f13_1, v0, v1]; rfl

theorem encodes.fcvtSD (d : BitVec 6) (a : BitVec 6) : encodes.Statement (.fcvtSD d a) := by
  intro w h wf
  have b0 := d.isLt; have b1 := a.isLt
  have e : w = 0x08000021 + d.toNat * 0x100000 + a.toNat * 0x4000 := (Option.some.inj h).symm
  have f7_1 : field w 7 1 = 0x10 := by unfold field; omega
  have f7_3 : field w 7 3 = 0x4 := by unfold field; omega
  have f13_0 : field w 13 0 = 0x21 := by unfold field; omega
  have f13_1 : field w 13 1 = 0x10 := by unfold field; omega
  have v0 : bits 6 w 20 = d := bits_eq _ (by omega)
  have v1 : bits 6 w 14 = a := bits_eq _ (by omega)
  refine row_ok (r := .instr (.fcvtSD d a)) (row02 (by omega) ?_) wf (by omega)
  simp only [decodeMajor02, f7_1, f7_3, f13_0, f13_1, v0, v1]; rfl

theorem encodes.fcvtDI64 (d : BitVec 6) (a : BitVec 6) : encodes.Statement (.fcvtDI64 d a) := by
  intro w h wf
  have b0 := d.isLt; have b1 := a.isLt
  have e : w = 0x08000022 + d.toNat * 0x100000 + a.toNat * 0x4000 := (Option.some.inj h).symm
  have f7_1 : field w 7 1 = 0x11 := by unfold field; omega
  have f7_3 : field w 7 3 = 0x4 := by unfold field; omega
  have f13_0 : field w 13 0 = 0x22 := by unfold field; omega
  have f13_1 : field w 13 1 = 0x11 := by unfold field; omega
  have v0 : bits 6 w 20 = d := bits_eq _ (by omega)
  have v1 : bits 6 w 14 = a := bits_eq _ (by omega)
  refine row_ok (r := .instr (.fcvtDI64 d a)) (row02 (by omega) ?_) wf (by omega)
  simp only [decodeMajor02, f7_1, f7_3, f13_0, f13_1, v0, v1]; rfl

theorem encodes.fcvtSI64 (d : BitVec 6) (a : BitVec 6) : encodes.Statement (.fcvtSI64 d a) := by
  intro w h wf
  have b0 := d.isLt; have b1 := a.isLt
  have e : w = 0x08000023 + d.toNat * 0x100000 + a.toNat * 0x4000 := (Option.some.inj h).symm
  have f7_1 : field w 7 1 = 0x11 := by unfold field; omega
  have f7_3 : field w 7 3 = 0x4 := by unfold field; omega
  have f13_0 : field w 13 0 = 0x23 := by unfold field; omega
  have f13_1 : field w 13 1 = 0x11 := by unfold field; omega
  have v0 : bits 6 w 20 = d := bits_eq _ (by omega)
  have v1 : bits 6 w 14 = a := bits_eq _ (by omega)
  refine row_ok (r := .instr (.fcvtSI64 d a)) (row02 (by omega) ?_) wf (by omega)
  simp only [decodeMajor02, f7_1, f7_3, f13_0, f13_1, v0, v1]; rfl

theorem encodes.fcvtDZ64 (d : BitVec 6) (a : BitVec 6) : encodes.Statement (.fcvtDZ64 d a) := by
  intro w h wf
  have b0 := d.isLt; have b1 := a.isLt
  have e : w = 0x08000024 + d.toNat * 0x100000 + a.toNat * 0x4000 := (Option.some.inj h).symm
  have f7_1 : field w 7 1 = 0x12 := by unfold field; omega
  have f7_3 : field w 7 3 = 0x4 := by unfold field; omega
  have f13_0 : field w 13 0 = 0x24 := by unfold field; omega
  have f13_1 : field w 13 1 = 0x12 := by unfold field; omega
  have v0 : bits 6 w 20 = d := bits_eq _ (by omega)
  have v1 : bits 6 w 14 = a := bits_eq _ (by omega)
  refine row_ok (r := .instr (.fcvtDZ64 d a)) (row02 (by omega) ?_) wf (by omega)
  simp only [decodeMajor02, f7_1, f7_3, f13_0, f13_1, v0, v1]; rfl

theorem encodes.fcvtSZ64 (d : BitVec 6) (a : BitVec 6) : encodes.Statement (.fcvtSZ64 d a) := by
  intro w h wf
  have b0 := d.isLt; have b1 := a.isLt
  have e : w = 0x08000025 + d.toNat * 0x100000 + a.toNat * 0x4000 := (Option.some.inj h).symm
  have f7_1 : field w 7 1 = 0x12 := by unfold field; omega
  have f7_3 : field w 7 3 = 0x4 := by unfold field; omega
  have f13_0 : field w 13 0 = 0x25 := by unfold field; omega
  have f13_1 : field w 13 1 = 0x12 := by unfold field; omega
  have v0 : bits 6 w 20 = d := bits_eq _ (by omega)
  have v1 : bits 6 w 14 = a := bits_eq _ (by omega)
  refine row_ok (r := .instr (.fcvtSZ64 d a)) (row02 (by omega) ?_) wf (by omega)
  simp only [decodeMajor02, f7_1, f7_3, f13_0, f13_1, v0, v1]; rfl

theorem encodes.fcvtI64D (d : BitVec 6) (a : BitVec 6) : encodes.Statement (.fcvtI64D d a) := by
  intro w h wf
  have b0 := d.isLt; have b1 := a.isLt
  have e : w = 0x08000026 + d.toNat * 0x100000 + a.toNat * 0x4000 := (Option.some.inj h).symm
  have f7_1 : field w 7 1 = 0x13 := by unfold field; omega
  have f7_3 : field w 7 3 = 0x4 := by unfold field; omega
  have f13_0 : field w 13 0 = 0x26 := by unfold field; omega
  have f13_1 : field w 13 1 = 0x13 := by unfold field; omega
  have v0 : bits 6 w 20 = d := bits_eq _ (by omega)
  have v1 : bits 6 w 14 = a := bits_eq _ (by omega)
  refine row_ok (r := .instr (.fcvtI64D d a)) (row02 (by omega) ?_) wf (by omega)
  simp only [decodeMajor02, f7_1, f7_3, f13_0, f13_1, v0, v1]; rfl

theorem encodes.fcvtI64S (d : BitVec 6) (a : BitVec 6) : encodes.Statement (.fcvtI64S d a) := by
  intro w h wf
  have b0 := d.isLt; have b1 := a.isLt
  have e : w = 0x08000027 + d.toNat * 0x100000 + a.toNat * 0x4000 := (Option.some.inj h).symm
  have f7_1 : field w 7 1 = 0x13 := by unfold field; omega
  have f7_3 : field w 7 3 = 0x4 := by unfold field; omega
  have f13_0 : field w 13 0 = 0x27 := by unfold field; omega
  have f13_1 : field w 13 1 = 0x13 := by unfold field; omega
  have v0 : bits 6 w 20 = d := bits_eq _ (by omega)
  have v1 : bits 6 w 14 = a := bits_eq _ (by omega)
  refine row_ok (r := .instr (.fcvtI64S d a)) (row02 (by omega) ?_) wf (by omega)
  simp only [decodeMajor02, f7_1, f7_3, f13_0, f13_1, v0, v1]; rfl

theorem encodes.fcvtZ64D (d : BitVec 6) (a : BitVec 6) : encodes.Statement (.fcvtZ64D d a) := by
  intro w h wf
  have b0 := d.isLt; have b1 := a.isLt
  have e : w = 0x08000028 + d.toNat * 0x100000 + a.toNat * 0x4000 := (Option.some.inj h).symm
  have f7_1 : field w 7 1 = 0x14 := by unfold field; omega
  have f7_3 : field w 7 3 = 0x5 := by unfold field; omega
  have f13_0 : field w 13 0 = 0x28 := by unfold field; omega
  have f13_1 : field w 13 1 = 0x14 := by unfold field; omega
  have v0 : bits 6 w 20 = d := bits_eq _ (by omega)
  have v1 : bits 6 w 14 = a := bits_eq _ (by omega)
  refine row_ok (r := .instr (.fcvtZ64D d a)) (row02 (by omega) ?_) wf (by omega)
  simp only [decodeMajor02, f7_1, f7_3, f13_0, f13_1, v0, v1]; rfl

theorem encodes.fcvtZ64S (d : BitVec 6) (a : BitVec 6) : encodes.Statement (.fcvtZ64S d a) := by
  intro w h wf
  have b0 := d.isLt; have b1 := a.isLt
  have e : w = 0x08000029 + d.toNat * 0x100000 + a.toNat * 0x4000 := (Option.some.inj h).symm
  have f7_1 : field w 7 1 = 0x14 := by unfold field; omega
  have f7_3 : field w 7 3 = 0x5 := by unfold field; omega
  have f13_0 : field w 13 0 = 0x29 := by unfold field; omega
  have f13_1 : field w 13 1 = 0x14 := by unfold field; omega
  have v0 : bits 6 w 20 = d := bits_eq _ (by omega)
  have v1 : bits 6 w 14 = a := bits_eq _ (by omega)
  refine row_ok (r := .instr (.fcvtZ64S d a)) (row02 (by omega) ?_) wf (by omega)
  simp only [decodeMajor02, f7_1, f7_3, f13_0, f13_1, v0, v1]; rfl

theorem encodes.addi (d : BitVec 6) (a : BitVec 6) (im : BitVec 14) : encodes.Statement (.addi d a im) := by
  intro w h wf
  have b0 := d.isLt; have b1 := a.isLt; have b2 := im.isLt
  have e : w = 0x0c000000 + d.toNat * 0x100000 + a.toNat * 0x4000 + im.toNat := (Option.some.inj h).symm
  have v0 : bits 6 w 20 = d := bits_eq _ (by omega)
  have v1 : bits 6 w 14 = a := bits_eq _ (by omega)
  have v2 : bits 14 w 0 = im := bits_eq _ (by omega)
  refine row_ok (r := .instr (.addi d a im)) (row03 (by omega) ?_) wf (by omega)
  simp only [decodeMajor03, v0, v1, v2]

theorem encodes.andi (d : BitVec 6) (a : BitVec 6) (im : BitVec 14) : encodes.Statement (.andi d a im) := by
  intro w h wf
  have b0 := d.isLt; have b1 := a.isLt; have b2 := im.isLt
  have e : w = 0x10000000 + d.toNat * 0x100000 + a.toNat * 0x4000 + im.toNat := (Option.some.inj h).symm
  have v0 : bits 6 w 20 = d := bits_eq _ (by omega)
  have v1 : bits 6 w 14 = a := bits_eq _ (by omega)
  have v2 : bits 14 w 0 = im := bits_eq _ (by omega)
  refine row_ok (r := .instr (.andi d a im)) (row04 (by omega) ?_) wf (by omega)
  simp only [decodeMajor04, v0, v1, v2]

theorem encodes.ori (d : BitVec 6) (a : BitVec 6) (im : BitVec 14) : encodes.Statement (.ori d a im) := by
  intro w h wf
  have b0 := d.isLt; have b1 := a.isLt; have b2 := im.isLt
  have e : w = 0x14000000 + d.toNat * 0x100000 + a.toNat * 0x4000 + im.toNat := (Option.some.inj h).symm
  have v0 : bits 6 w 20 = d := bits_eq _ (by omega)
  have v1 : bits 6 w 14 = a := bits_eq _ (by omega)
  have v2 : bits 14 w 0 = im := bits_eq _ (by omega)
  refine row_ok (r := .instr (.ori d a im)) (row05 (by omega) ?_) wf (by omega)
  simp only [decodeMajor05, v0, v1, v2]

theorem encodes.xori (d : BitVec 6) (a : BitVec 6) (im : BitVec 14) : encodes.Statement (.xori d a im) := by
  intro w h wf
  have b0 := d.isLt; have b1 := a.isLt; have b2 := im.isLt
  have e : w = 0x18000000 + d.toNat * 0x100000 + a.toNat * 0x4000 + im.toNat := (Option.some.inj h).symm
  have v0 : bits 6 w 20 = d := bits_eq _ (by omega)
  have v1 : bits 6 w 14 = a := bits_eq _ (by omega)
  have v2 : bits 14 w 0 = im := bits_eq _ (by omega)
  refine row_ok (r := .instr (.xori d a im)) (row06 (by omega) ?_) wf (by omega)
  simp only [decodeMajor06, v0, v1, v2]

theorem encodes.shli (d : BitVec 6) (a : BitVec 6) (xh : BitVec 6) : encodes.Statement (.shli d a xh) := by
  intro w h wf
  have b0 := d.isLt; have b1 := a.isLt; have b2 := xh.isLt
  have e : w = 0x1c000000 + d.toNat * 0x100000 + a.toNat * 0x4000 + xh.toNat := (Option.some.inj h).symm
  have f13_6 : field w 13 6 = 0x0 := by unfold field; omega
  have v0 : bits 6 w 20 = d := bits_eq _ (by omega)
  have v1 : bits 6 w 14 = a := bits_eq _ (by omega)
  have v2 : bits 6 w 0 = xh := bits_eq _ (by omega)
  refine row_ok (r := .instr (.shli d a xh)) (row07 (by omega) ?_) wf (by omega)
  simp only [decodeMajor07, f13_6, v0, v1, v2]; rfl

theorem encodes.shri (d : BitVec 6) (a : BitVec 6) (xh : BitVec 6) : encodes.Statement (.shri d a xh) := by
  intro w h wf
  have b0 := d.isLt; have b1 := a.isLt; have b2 := xh.isLt
  have e : w = 0x1c001000 + d.toNat * 0x100000 + a.toNat * 0x4000 + xh.toNat := (Option.some.inj h).symm
  have f13_6 : field w 13 6 = 0x40 := by unfold field; omega
  have v0 : bits 6 w 20 = d := bits_eq _ (by omega)
  have v1 : bits 6 w 14 = a := bits_eq _ (by omega)
  have v2 : bits 6 w 0 = xh := bits_eq _ (by omega)
  refine row_ok (r := .instr (.shri d a xh)) (row07 (by omega) ?_) wf (by omega)
  simp only [decodeMajor07, f13_6, v0, v1, v2]; rfl

theorem encodes.sari (d : BitVec 6) (a : BitVec 6) (xh : BitVec 6) : encodes.Statement (.sari d a xh) := by
  intro w h wf
  have b0 := d.isLt; have b1 := a.isLt; have b2 := xh.isLt
  have e : w = 0x1c002000 + d.toNat * 0x100000 + a.toNat * 0x4000 + xh.toNat := (Option.some.inj h).symm
  have f13_6 : field w 13 6 = 0x80 := by unfold field; omega
  have v0 : bits 6 w 20 = d := bits_eq _ (by omega)
  have v1 : bits 6 w 14 = a := bits_eq _ (by omega)
  have v2 : bits 6 w 0 = xh := bits_eq _ (by omega)
  refine row_ok (r := .instr (.sari d a xh)) (row07 (by omega) ?_) wf (by omega)
  simp only [decodeMajor07, f13_6, v0, v1, v2]; rfl

theorem encodes.cmplti (d : BitVec 6) (a : BitVec 6) (im : BitVec 14) : encodes.Statement (.cmplti d a im) := by
  intro w h wf
  have b0 := d.isLt; have b1 := a.isLt; have b2 := im.isLt
  have e : w = 0x20000000 + d.toNat * 0x100000 + a.toNat * 0x4000 + im.toNat := (Option.some.inj h).symm
  have v0 : bits 6 w 20 = d := bits_eq _ (by omega)
  have v1 : bits 6 w 14 = a := bits_eq _ (by omega)
  have v2 : bits 14 w 0 = im := bits_eq _ (by omega)
  refine row_ok (r := .instr (.cmplti d a im)) (row08 (by omega) ?_) wf (by omega)
  simp only [decodeMajor08, v0, v1, v2]

theorem encodes.lih (d : BitVec 6) (im : BitVec 20) : encodes.Statement (.lih d im) := by
  intro w h wf
  have b0 := d.isLt; have b1 := im.isLt
  have e : w = 0x24000000 + d.toNat * 0x100000 + im.toNat := (Option.some.inj h).symm
  have v0 : bits 6 w 20 = d := bits_eq _ (by omega)
  have v1 : bits 20 w 0 = im := bits_eq _ (by omega)
  refine row_ok (r := .instr (.lih d im)) (row09 (by omega) ?_) wf (by omega)
  simp only [decodeMajor09, v0, v1]

theorem encodes.addpc (d : BitVec 6) (im : BitVec 20) : encodes.Statement (.addpc d im) := by
  intro w h wf
  have b0 := d.isLt; have b1 := im.isLt
  have e : w = 0x28000000 + d.toNat * 0x100000 + im.toNat := (Option.some.inj h).symm
  have v0 : bits 6 w 20 = d := bits_eq _ (by omega)
  have v1 : bits 20 w 0 = im := bits_eq _ (by omega)
  refine row_ok (r := .instr (.addpc d im)) (row0A (by omega) ?_) wf (by omega)
  simp only [decodeMajor0A, v0, v1]

theorem encodes.ld (d : BitVec 6) (a : BitVec 6) (t : BitVec 3) (o : BitVec 11) : encodes.Statement (.ld d a t o) := by
  intro w h wf
  have b0 := d.isLt; have b1 := a.isLt; have b2 := t.isLt; have b3 := o.isLt
  have e : w = 0x2c000000 + d.toNat * 0x100000 + a.toNat * 0x4000 + t.toNat * 0x800 + o.toNat := (Option.some.inj h).symm
  have v0 : bits 6 w 20 = d := bits_eq _ (by omega)
  have v1 : bits 6 w 14 = a := bits_eq _ (by omega)
  have v2 : bits 3 w 11 = t := bits_eq _ (by omega)
  have v3 : bits 11 w 0 = o := bits_eq _ (by omega)
  refine row_ok (r := .instr (.ld d a t o)) (row0B (by omega) ?_) wf (by omega)
  simp only [decodeMajor0B, v0, v1, v2, v3]

theorem encodes.st (d : BitVec 6) (a : BitVec 6) (t : BitVec 2) (o : BitVec 11) : encodes.Statement (.st d a t o) := by
  intro w h wf
  have b0 := d.isLt; have b1 := a.isLt; have b2 := t.isLt; have b3 := o.isLt
  have e : w = 0x30000000 + d.toNat * 0x100000 + a.toNat * 0x4000 + t.toNat * 0x1000 + o.toNat := (Option.some.inj h).symm
  have f11_11 : field w 11 11 = 0x0 := by unfold field; omega
  have v0 : bits 6 w 20 = d := bits_eq _ (by omega)
  have v1 : bits 6 w 14 = a := bits_eq _ (by omega)
  have v2 : bits 2 w 12 = t := bits_eq _ (by omega)
  have v3 : bits 11 w 0 = o := bits_eq _ (by omega)
  refine row_ok (r := .instr (.st d a t o)) (row0C (by omega) ?_) wf (by omega)
  simp only [decodeMajor0C, f11_11, v0, v1, v2, v3]; rfl

theorem encodes.ldacq (d : BitVec 6) (a : BitVec 6) (q : BitVec 2) (xs : BitVec 3) : encodes.Statement (.ldacq d a q xs) := by
  intro w h wf
  have b0 := d.isLt; have b1 := a.isLt; have b2 := q.isLt; have b3 := xs.isLt
  have e : w = 0x34000010 + d.toNat * 0x100000 + a.toNat * 0x4000 + q.toNat * 0x20 + xs.toNat := (Option.some.inj h).symm
  have f4_3 : field w 4 3 = 0x2 := by unfold field; omega
  have f13_7 : field w 13 7 = 0x0 := by unfold field; omega
  have v0 : bits 6 w 20 = d := bits_eq _ (by omega)
  have v1 : bits 6 w 14 = a := bits_eq _ (by omega)
  have v2 : bits 2 w 5 = q := bits_eq _ (by omega)
  have v3 : bits 3 w 0 = xs := bits_eq _ (by omega)
  refine row_ok (r := .instr (.ldacq d a q xs)) (row0D (by omega) ?_) wf (by omega)
  simp only [decodeMajor0D, f4_3, f13_7, v0, v1, v2, v3]; rfl

theorem encodes.strel (d : BitVec 6) (a : BitVec 6) (q : BitVec 2) (xs : BitVec 3) : encodes.Statement (.strel d a q xs) := by
  intro w h wf
  have b0 := d.isLt; have b1 := a.isLt; have b2 := q.isLt; have b3 := xs.isLt
  have e : w = 0x34000108 + d.toNat * 0x100000 + a.toNat * 0x4000 + q.toNat * 0x20 + xs.toNat := (Option.some.inj h).symm
  have f4_3 : field w 4 3 = 0x1 := by unfold field; omega
  have f13_7 : field w 13 7 = 0x2 := by unfold field; omega
  have v0 : bits 6 w 20 = d := bits_eq _ (by omega)
  have v1 : bits 6 w 14 = a := bits_eq _ (by omega)
  have v2 : bits 2 w 5 = q := bits_eq _ (by omega)
  have v3 : bits 3 w 0 = xs := bits_eq _ (by omega)
  refine row_ok (r := .instr (.strel d a q xs)) (row0D (by omega) ?_) wf (by omega)
  simp only [decodeMajor0D, f4_3, f13_7, v0, v1, v2, v3]; rfl

theorem encodes.acq (a : BitVec 6) (xs : BitVec 3) : encodes.Statement (.acq a xs) := by
  intro w h wf
  have b0 := a.isLt; have b1 := xs.isLt
  have e : w = 0x34000270 + a.toNat * 0x4000 + xs.toNat := (Option.some.inj h).symm
  have f4_3 : field w 4 3 = 0x2 := by unfold field; omega
  have f13_3 : field w 13 3 = 0x4e := by unfold field; omega
  have f13_7 : field w 13 7 = 0x4 := by unfold field; omega
  have f25_20 : field w 25 20 = 0x0 := by unfold field; omega
  have v0 : bits 6 w 14 = a := bits_eq _ (by omega)
  have v1 : bits 3 w 0 = xs := bits_eq _ (by omega)
  refine row_ok (r := .instr (.acq a xs)) (row0D (by omega) ?_) wf (by omega)
  simp only [decodeMajor0D, f4_3, f13_3, f13_7, f25_20, v0, v1]; rfl

theorem encodes.rel (a : BitVec 6) (xs : BitVec 3) : encodes.Statement (.rel a xs) := by
  intro w h wf
  have b0 := a.isLt; have b1 := xs.isLt
  have e : w = 0x34000368 + a.toNat * 0x4000 + xs.toNat := (Option.some.inj h).symm
  have f4_3 : field w 4 3 = 0x1 := by unfold field; omega
  have f13_3 : field w 13 3 = 0x6d := by unfold field; omega
  have f13_7 : field w 13 7 = 0x6 := by unfold field; omega
  have f25_20 : field w 25 20 = 0x0 := by unfold field; omega
  have v0 : bits 6 w 14 = a := bits_eq _ (by omega)
  have v1 : bits 3 w 0 = xs := bits_eq _ (by omega)
  refine row_ok (r := .instr (.rel a xs)) (row0D (by omega) ?_) wf (by omega)
  simp only [decodeMajor0D, f4_3, f13_3, f13_7, f25_20, v0, v1]; rfl

theorem encodes.gbind (d : BitVec 6) (a : BitVec 6) : encodes.Statement (.gbind d a) := by
  intro w h wf
  have b0 := d.isLt; have b1 := a.isLt
  have e : w = 0x34000400 + d.toNat * 0x100000 + a.toNat * 0x4000 := (Option.some.inj h).symm
  have f4_3 : field w 4 3 = 0x0 := by unfold field; omega
  have f13_0 : field w 13 0 = 0x400 := by unfold field; omega
  have f13_3 : field w 13 3 = 0x80 := by unfold field; omega
  have f13_7 : field w 13 7 = 0x8 := by unfold field; omega
  have v0 : bits 6 w 20 = d := bits_eq _ (by omega)
  have v1 : bits 6 w 14 = a := bits_eq _ (by omega)
  refine row_ok (r := .instr (.gbind d a)) (row0D (by omega) ?_) wf (by omega)
  simp only [decodeMajor0D, f4_3, f13_0, f13_3, f13_7, v0, v1]; rfl

theorem encodes.gunbind (a : BitVec 6) : encodes.Statement (.gunbind a) := by
  intro w h wf
  have b0 := a.isLt
  have e : w = 0x34000500 + a.toNat * 0x4000 := (Option.some.inj h).symm
  have f4_3 : field w 4 3 = 0x0 := by unfold field; omega
  have f13_0 : field w 13 0 = 0x500 := by unfold field; omega
  have f13_3 : field w 13 3 = 0xa0 := by unfold field; omega
  have f13_7 : field w 13 7 = 0xa := by unfold field; omega
  have f25_20 : field w 25 20 = 0x0 := by unfold field; omega
  have v0 : bits 6 w 14 = a := bits_eq _ (by omega)
  refine row_ok (r := .instr (.gunbind a)) (row0D (by omega) ?_) wf (by omega)
  simp only [decodeMajor0D, f4_3, f13_0, f13_3, f13_7, f25_20, v0]; rfl

theorem encodes.gfence (xs : BitVec 3) : encodes.Statement (.gfence xs) := by
  intro w h wf
  have b0 := xs.isLt
  have e : w = 0x34000618 + xs.toNat := (Option.some.inj h).symm
  have f4_3 : field w 4 3 = 0x3 := by unfold field; omega
  have f13_3 : field w 13 3 = 0xc3 := by unfold field; omega
  have f13_7 : field w 13 7 = 0xc := by unfold field; omega
  have f25_3 : field w 25 3 = 0xc3 := by unfold field; omega
  have f25_20 : field w 25 20 = 0x0 := by unfold field; omega
  have n1 : (field w 13 0 = 0x400) = False := eq_false (by unfold field; omega)
  have n2 : (field w 13 0 = 0x500) = False := eq_false (by unfold field; omega)
  have v0 : bits 3 w 0 = xs := bits_eq _ (by omega)
  refine row_ok (r := .instr (.gfence xs)) (row0D (by omega) ?_) wf (by omega)
  simp only [decodeMajor0D, n2, n1, f4_3, f13_3, f13_7, f25_3, f25_20, v0]; rfl

theorem encodes.amoadd (d : BitVec 6) (a : BitVec 6) (q : BitVec 1) (c : BitVec 1) (l : BitVec 1) (xs : BitVec 3) : encodes.Statement (.amoadd d a q c l xs) := by
  intro w h wf
  have b0 := d.isLt; have b1 := a.isLt; have b2 := q.isLt; have b3 := c.isLt; have b4 := l.isLt; have b5 := xs.isLt
  have e : w = 0x38000040 + d.toNat * 0x100000 + a.toNat * 0x4000 + q.toNat * 0x20 + c.toNat * 0x10 + l.toNat * 0x8 + xs.toNat := (Option.some.inj h).symm
  have f13_6 : field w 13 6 = 0x1 := by unfold field; omega
  have v0 : bits 6 w 20 = d := bits_eq _ (by omega)
  have v1 : bits 6 w 14 = a := bits_eq _ (by omega)
  have v2 : bits 1 w 5 = q := bits_eq _ (by omega)
  have v3 : bits 1 w 4 = c := bits_eq _ (by omega)
  have v4 : bits 1 w 3 = l := bits_eq _ (by omega)
  have v5 : bits 3 w 0 = xs := bits_eq _ (by omega)
  refine row_ok (r := .instr (.amoadd d a q c l xs)) (row0E (by omega) ?_) wf (by omega)
  simp only [decodeMajor0E, f13_6, v0, v1, v2, v3, v4, v5]; rfl

theorem encodes.amoswap (d : BitVec 6) (a : BitVec 6) (q : BitVec 1) (c : BitVec 1) (l : BitVec 1) (xs : BitVec 3) : encodes.Statement (.amoswap d a q c l xs) := by
  intro w h wf
  have b0 := d.isLt; have b1 := a.isLt; have b2 := q.isLt; have b3 := c.isLt; have b4 := l.isLt; have b5 := xs.isLt
  have e : w = 0x38000140 + d.toNat * 0x100000 + a.toNat * 0x4000 + q.toNat * 0x20 + c.toNat * 0x10 + l.toNat * 0x8 + xs.toNat := (Option.some.inj h).symm
  have f13_6 : field w 13 6 = 0x5 := by unfold field; omega
  have v0 : bits 6 w 20 = d := bits_eq _ (by omega)
  have v1 : bits 6 w 14 = a := bits_eq _ (by omega)
  have v2 : bits 1 w 5 = q := bits_eq _ (by omega)
  have v3 : bits 1 w 4 = c := bits_eq _ (by omega)
  have v4 : bits 1 w 3 = l := bits_eq _ (by omega)
  have v5 : bits 3 w 0 = xs := bits_eq _ (by omega)
  refine row_ok (r := .instr (.amoswap d a q c l xs)) (row0E (by omega) ?_) wf (by omega)
  simp only [decodeMajor0E, f13_6, v0, v1, v2, v3, v4, v5]; rfl

theorem encodes.amocas (d : BitVec 6) (a : BitVec 6) (q : BitVec 1) (c : BitVec 1) (l : BitVec 1) (xs : BitVec 3) : encodes.Statement (.amocas d a q c l xs) := by
  intro w h wf
  have b0 := d.isLt; have b1 := a.isLt; have b2 := q.isLt; have b3 := c.isLt; have b4 := l.isLt; have b5 := xs.isLt
  have e : w = 0x38000240 + d.toNat * 0x100000 + a.toNat * 0x4000 + q.toNat * 0x20 + c.toNat * 0x10 + l.toNat * 0x8 + xs.toNat := (Option.some.inj h).symm
  have f13_6 : field w 13 6 = 0x9 := by unfold field; omega
  have v0 : bits 6 w 20 = d := bits_eq _ (by omega)
  have v1 : bits 6 w 14 = a := bits_eq _ (by omega)
  have v2 : bits 1 w 5 = q := bits_eq _ (by omega)
  have v3 : bits 1 w 4 = c := bits_eq _ (by omega)
  have v4 : bits 1 w 3 = l := bits_eq _ (by omega)
  have v5 : bits 3 w 0 = xs := bits_eq _ (by omega)
  refine row_ok (r := .instr (.amocas d a q c l xs)) (row0E (by omega) ?_) wf (by omega)
  simp only [decodeMajor0E, f13_6, v0, v1, v2, v3, v4, v5]; rfl

theorem encodes.amomin (d : BitVec 6) (a : BitVec 6) (q : BitVec 1) (c : BitVec 1) (l : BitVec 1) (xs : BitVec 3) : encodes.Statement (.amomin d a q c l xs) := by
  intro w h wf
  have b0 := d.isLt; have b1 := a.isLt; have b2 := q.isLt; have b3 := c.isLt; have b4 := l.isLt; have b5 := xs.isLt
  have e : w = 0x38000340 + d.toNat * 0x100000 + a.toNat * 0x4000 + q.toNat * 0x20 + c.toNat * 0x10 + l.toNat * 0x8 + xs.toNat := (Option.some.inj h).symm
  have f13_6 : field w 13 6 = 0xd := by unfold field; omega
  have v0 : bits 6 w 20 = d := bits_eq _ (by omega)
  have v1 : bits 6 w 14 = a := bits_eq _ (by omega)
  have v2 : bits 1 w 5 = q := bits_eq _ (by omega)
  have v3 : bits 1 w 4 = c := bits_eq _ (by omega)
  have v4 : bits 1 w 3 = l := bits_eq _ (by omega)
  have v5 : bits 3 w 0 = xs := bits_eq _ (by omega)
  refine row_ok (r := .instr (.amomin d a q c l xs)) (row0E (by omega) ?_) wf (by omega)
  simp only [decodeMajor0E, f13_6, v0, v1, v2, v3, v4, v5]; rfl

theorem encodes.amomax (d : BitVec 6) (a : BitVec 6) (q : BitVec 1) (c : BitVec 1) (l : BitVec 1) (xs : BitVec 3) : encodes.Statement (.amomax d a q c l xs) := by
  intro w h wf
  have b0 := d.isLt; have b1 := a.isLt; have b2 := q.isLt; have b3 := c.isLt; have b4 := l.isLt; have b5 := xs.isLt
  have e : w = 0x38000440 + d.toNat * 0x100000 + a.toNat * 0x4000 + q.toNat * 0x20 + c.toNat * 0x10 + l.toNat * 0x8 + xs.toNat := (Option.some.inj h).symm
  have f13_6 : field w 13 6 = 0x11 := by unfold field; omega
  have v0 : bits 6 w 20 = d := bits_eq _ (by omega)
  have v1 : bits 6 w 14 = a := bits_eq _ (by omega)
  have v2 : bits 1 w 5 = q := bits_eq _ (by omega)
  have v3 : bits 1 w 4 = c := bits_eq _ (by omega)
  have v4 : bits 1 w 3 = l := bits_eq _ (by omega)
  have v5 : bits 3 w 0 = xs := bits_eq _ (by omega)
  refine row_ok (r := .instr (.amomax d a q c l xs)) (row0E (by omega) ?_) wf (by omega)
  simp only [decodeMajor0E, f13_6, v0, v1, v2, v3, v4, v5]; rfl

theorem encodes.amominz (d : BitVec 6) (a : BitVec 6) (q : BitVec 1) (c : BitVec 1) (l : BitVec 1) (xs : BitVec 3) : encodes.Statement (.amominz d a q c l xs) := by
  intro w h wf
  have b0 := d.isLt; have b1 := a.isLt; have b2 := q.isLt; have b3 := c.isLt; have b4 := l.isLt; have b5 := xs.isLt
  have e : w = 0x38000540 + d.toNat * 0x100000 + a.toNat * 0x4000 + q.toNat * 0x20 + c.toNat * 0x10 + l.toNat * 0x8 + xs.toNat := (Option.some.inj h).symm
  have f13_6 : field w 13 6 = 0x15 := by unfold field; omega
  have v0 : bits 6 w 20 = d := bits_eq _ (by omega)
  have v1 : bits 6 w 14 = a := bits_eq _ (by omega)
  have v2 : bits 1 w 5 = q := bits_eq _ (by omega)
  have v3 : bits 1 w 4 = c := bits_eq _ (by omega)
  have v4 : bits 1 w 3 = l := bits_eq _ (by omega)
  have v5 : bits 3 w 0 = xs := bits_eq _ (by omega)
  refine row_ok (r := .instr (.amominz d a q c l xs)) (row0E (by omega) ?_) wf (by omega)
  simp only [decodeMajor0E, f13_6, v0, v1, v2, v3, v4, v5]; rfl

theorem encodes.amomaxz (d : BitVec 6) (a : BitVec 6) (q : BitVec 1) (c : BitVec 1) (l : BitVec 1) (xs : BitVec 3) : encodes.Statement (.amomaxz d a q c l xs) := by
  intro w h wf
  have b0 := d.isLt; have b1 := a.isLt; have b2 := q.isLt; have b3 := c.isLt; have b4 := l.isLt; have b5 := xs.isLt
  have e : w = 0x38000640 + d.toNat * 0x100000 + a.toNat * 0x4000 + q.toNat * 0x20 + c.toNat * 0x10 + l.toNat * 0x8 + xs.toNat := (Option.some.inj h).symm
  have f13_6 : field w 13 6 = 0x19 := by unfold field; omega
  have v0 : bits 6 w 20 = d := bits_eq _ (by omega)
  have v1 : bits 6 w 14 = a := bits_eq _ (by omega)
  have v2 : bits 1 w 5 = q := bits_eq _ (by omega)
  have v3 : bits 1 w 4 = c := bits_eq _ (by omega)
  have v4 : bits 1 w 3 = l := bits_eq _ (by omega)
  have v5 : bits 3 w 0 = xs := bits_eq _ (by omega)
  refine row_ok (r := .instr (.amomaxz d a q c l xs)) (row0E (by omega) ?_) wf (by omega)
  simp only [decodeMajor0E, f13_6, v0, v1, v2, v3, v4, v5]; rfl

theorem encodes.amoand (d : BitVec 6) (a : BitVec 6) (q : BitVec 1) (c : BitVec 1) (l : BitVec 1) (xs : BitVec 3) : encodes.Statement (.amoand d a q c l xs) := by
  intro w h wf
  have b0 := d.isLt; have b1 := a.isLt; have b2 := q.isLt; have b3 := c.isLt; have b4 := l.isLt; have b5 := xs.isLt
  have e : w = 0x38000740 + d.toNat * 0x100000 + a.toNat * 0x4000 + q.toNat * 0x20 + c.toNat * 0x10 + l.toNat * 0x8 + xs.toNat := (Option.some.inj h).symm
  have f13_6 : field w 13 6 = 0x1d := by unfold field; omega
  have v0 : bits 6 w 20 = d := bits_eq _ (by omega)
  have v1 : bits 6 w 14 = a := bits_eq _ (by omega)
  have v2 : bits 1 w 5 = q := bits_eq _ (by omega)
  have v3 : bits 1 w 4 = c := bits_eq _ (by omega)
  have v4 : bits 1 w 3 = l := bits_eq _ (by omega)
  have v5 : bits 3 w 0 = xs := bits_eq _ (by omega)
  refine row_ok (r := .instr (.amoand d a q c l xs)) (row0E (by omega) ?_) wf (by omega)
  simp only [decodeMajor0E, f13_6, v0, v1, v2, v3, v4, v5]; rfl

theorem encodes.amoor (d : BitVec 6) (a : BitVec 6) (q : BitVec 1) (c : BitVec 1) (l : BitVec 1) (xs : BitVec 3) : encodes.Statement (.amoor d a q c l xs) := by
  intro w h wf
  have b0 := d.isLt; have b1 := a.isLt; have b2 := q.isLt; have b3 := c.isLt; have b4 := l.isLt; have b5 := xs.isLt
  have e : w = 0x38000840 + d.toNat * 0x100000 + a.toNat * 0x4000 + q.toNat * 0x20 + c.toNat * 0x10 + l.toNat * 0x8 + xs.toNat := (Option.some.inj h).symm
  have f13_6 : field w 13 6 = 0x21 := by unfold field; omega
  have v0 : bits 6 w 20 = d := bits_eq _ (by omega)
  have v1 : bits 6 w 14 = a := bits_eq _ (by omega)
  have v2 : bits 1 w 5 = q := bits_eq _ (by omega)
  have v3 : bits 1 w 4 = c := bits_eq _ (by omega)
  have v4 : bits 1 w 3 = l := bits_eq _ (by omega)
  have v5 : bits 3 w 0 = xs := bits_eq _ (by omega)
  refine row_ok (r := .instr (.amoor d a q c l xs)) (row0E (by omega) ?_) wf (by omega)
  simp only [decodeMajor0E, f13_6, v0, v1, v2, v3, v4, v5]; rfl

theorem encodes.amoxor (d : BitVec 6) (a : BitVec 6) (q : BitVec 1) (c : BitVec 1) (l : BitVec 1) (xs : BitVec 3) : encodes.Statement (.amoxor d a q c l xs) := by
  intro w h wf
  have b0 := d.isLt; have b1 := a.isLt; have b2 := q.isLt; have b3 := c.isLt; have b4 := l.isLt; have b5 := xs.isLt
  have e : w = 0x38000940 + d.toNat * 0x100000 + a.toNat * 0x4000 + q.toNat * 0x20 + c.toNat * 0x10 + l.toNat * 0x8 + xs.toNat := (Option.some.inj h).symm
  have f13_6 : field w 13 6 = 0x25 := by unfold field; omega
  have v0 : bits 6 w 20 = d := bits_eq _ (by omega)
  have v1 : bits 6 w 14 = a := bits_eq _ (by omega)
  have v2 : bits 1 w 5 = q := bits_eq _ (by omega)
  have v3 : bits 1 w 4 = c := bits_eq _ (by omega)
  have v4 : bits 1 w 3 = l := bits_eq _ (by omega)
  have v5 : bits 3 w 0 = xs := bits_eq _ (by omega)
  refine row_ok (r := .instr (.amoxor d a q c l xs)) (row0E (by omega) ?_) wf (by omega)
  simp only [decodeMajor0E, f13_6, v0, v1, v2, v3, v4, v5]; rfl

theorem encodes.beq (a : BitVec 6) (b : BitVec 6) (o : BitVec 14) : encodes.Statement (.beq a b o) := by
  intro w h wf
  have b0 := a.isLt; have b1 := b.isLt; have b2 := o.isLt
  have e : w = 0x40000000 + a.toNat * 0x100000 + b.toNat * 0x4000 + o.toNat := (Option.some.inj h).symm
  have v0 : bits 6 w 20 = a := bits_eq _ (by omega)
  have v1 : bits 6 w 14 = b := bits_eq _ (by omega)
  have v2 : bits 14 w 0 = o := bits_eq _ (by omega)
  refine row_ok (r := .instr (.beq a b o)) (row10 (by omega) ?_) wf (by omega)
  simp only [decodeMajor10, v0, v1, v2]

theorem encodes.bne (a : BitVec 6) (b : BitVec 6) (o : BitVec 14) : encodes.Statement (.bne a b o) := by
  intro w h wf
  have b0 := a.isLt; have b1 := b.isLt; have b2 := o.isLt
  have e : w = 0x44000000 + a.toNat * 0x100000 + b.toNat * 0x4000 + o.toNat := (Option.some.inj h).symm
  have v0 : bits 6 w 20 = a := bits_eq _ (by omega)
  have v1 : bits 6 w 14 = b := bits_eq _ (by omega)
  have v2 : bits 14 w 0 = o := bits_eq _ (by omega)
  refine row_ok (r := .instr (.bne a b o)) (row11 (by omega) ?_) wf (by omega)
  simp only [decodeMajor11, v0, v1, v2]

theorem encodes.blt (a : BitVec 6) (b : BitVec 6) (o : BitVec 14) : encodes.Statement (.blt a b o) := by
  intro w h wf
  have b0 := a.isLt; have b1 := b.isLt; have b2 := o.isLt
  have e : w = 0x48000000 + a.toNat * 0x100000 + b.toNat * 0x4000 + o.toNat := (Option.some.inj h).symm
  have v0 : bits 6 w 20 = a := bits_eq _ (by omega)
  have v1 : bits 6 w 14 = b := bits_eq _ (by omega)
  have v2 : bits 14 w 0 = o := bits_eq _ (by omega)
  refine row_ok (r := .instr (.blt a b o)) (row12 (by omega) ?_) wf (by omega)
  simp only [decodeMajor12, v0, v1, v2]

theorem encodes.bge (a : BitVec 6) (b : BitVec 6) (o : BitVec 14) : encodes.Statement (.bge a b o) := by
  intro w h wf
  have b0 := a.isLt; have b1 := b.isLt; have b2 := o.isLt
  have e : w = 0x4c000000 + a.toNat * 0x100000 + b.toNat * 0x4000 + o.toNat := (Option.some.inj h).symm
  have v0 : bits 6 w 20 = a := bits_eq _ (by omega)
  have v1 : bits 6 w 14 = b := bits_eq _ (by omega)
  have v2 : bits 14 w 0 = o := bits_eq _ (by omega)
  refine row_ok (r := .instr (.bge a b o)) (row13 (by omega) ?_) wf (by omega)
  simp only [decodeMajor13, v0, v1, v2]

theorem encodes.bltz (a : BitVec 6) (b : BitVec 6) (o : BitVec 14) : encodes.Statement (.bltz a b o) := by
  intro w h wf
  have b0 := a.isLt; have b1 := b.isLt; have b2 := o.isLt
  have e : w = 0x50000000 + a.toNat * 0x100000 + b.toNat * 0x4000 + o.toNat := (Option.some.inj h).symm
  have v0 : bits 6 w 20 = a := bits_eq _ (by omega)
  have v1 : bits 6 w 14 = b := bits_eq _ (by omega)
  have v2 : bits 14 w 0 = o := bits_eq _ (by omega)
  refine row_ok (r := .instr (.bltz a b o)) (row14 (by omega) ?_) wf (by omega)
  simp only [decodeMajor14, v0, v1, v2]

theorem encodes.bgez (a : BitVec 6) (b : BitVec 6) (o : BitVec 14) : encodes.Statement (.bgez a b o) := by
  intro w h wf
  have b0 := a.isLt; have b1 := b.isLt; have b2 := o.isLt
  have e : w = 0x54000000 + a.toNat * 0x100000 + b.toNat * 0x4000 + o.toNat := (Option.some.inj h).symm
  have v0 : bits 6 w 20 = a := bits_eq _ (by omega)
  have v1 : bits 6 w 14 = b := bits_eq _ (by omega)
  have v2 : bits 14 w 0 = o := bits_eq _ (by omega)
  refine row_ok (r := .instr (.bgez a b o)) (row15 (by omega) ?_) wf (by omega)
  simp only [decodeMajor15, v0, v1, v2]

theorem encodes.j (o : BitVec 26) : encodes.Statement (.j o) := by
  intro w h wf
  have b0 := o.isLt
  have e : w = 0x58000000 + o.toNat := (Option.some.inj h).symm
  have v0 : bits 26 w 0 = o := bits_eq _ (by omega)
  refine row_ok (r := .instr (.j o)) (row16 (by omega) ?_) wf (by omega)
  simp only [decodeMajor16, v0]

theorem encodes.call (o : BitVec 26) : encodes.Statement (.call o) := by
  intro w h wf
  have b0 := o.isLt
  have e : w = 0x5c000000 + o.toNat := (Option.some.inj h).symm
  have v0 : bits 26 w 0 = o := bits_eq _ (by omega)
  refine row_ok (r := .instr (.call o)) (row17 (by omega) ?_) wf (by omega)
  simp only [decodeMajor17, v0]

theorem encodes.jr (a : BitVec 6) : encodes.Statement (.jr a) := by
  intro w h wf
  have b0 := a.isLt
  have e : w = 0x60000000 + a.toNat * 0x4000 := (Option.some.inj h).symm
  have f13_0 : field w 13 0 = 0x0 := by unfold field; omega
  have f25_20 : field w 25 20 = 0x0 := by unfold field; omega
  have v0 : bits 6 w 14 = a := bits_eq _ (by omega)
  refine row_ok (r := .instr (.jr a)) (row18 (by omega) ?_) wf (by omega)
  simp only [decodeMajor18, f13_0, f25_20, v0]; rfl

theorem encodes.callr (a : BitVec 6) : encodes.Statement (.callr a) := by
  intro w h wf
  have b0 := a.isLt
  have e : w = 0x60000001 + a.toNat * 0x4000 := (Option.some.inj h).symm
  have f13_0 : field w 13 0 = 0x1 := by unfold field; omega
  have f25_20 : field w 25 20 = 0x0 := by unfold field; omega
  have v0 : bits 6 w 14 = a := bits_eq _ (by omega)
  refine row_ok (r := .instr (.callr a)) (row18 (by omega) ?_) wf (by omega)
  simp only [decodeMajor18, f13_0, f25_20, v0]; rfl

theorem encodes.ret : encodes.Statement (.ret) := by
  intro w h wf
  have e : w = 0x60000002 := (Option.some.inj h).symm
  have f13_0 : field w 13 0 = 0x2 := by unfold field; omega
  have f25_0 : field w 25 0 = 0x2 := by unfold field; omega
  have f25_20 : field w 25 20 = 0x0 := by unfold field; omega
  refine row_ok (r := .instr (.ret)) (row18 (by omega) ?_) wf (by omega)
  simp only [decodeMajor18, f13_0, f25_0, f25_20]; rfl

theorem encodes.loop (l : BitVec 10) (c : BitVec 16) : encodes.Statement (.loop l c) := by
  intro w h wf
  have b0 := l.isLt; have b1 := c.isLt
  have e : w = 0x64000000 + l.toNat * 0x10000 + c.toNat := (Option.some.inj h).symm
  have v0 : bits 10 w 16 = l := bits_eq _ (by omega)
  have v1 : bits 16 w 0 = c := bits_eq _ (by omega)
  refine row_ok (r := .instr (.loop l c)) (row19 (by omega) ?_) wf (by omega)
  simp only [decodeMajor19, v0, v1]

theorem encodes.loopr (l : BitVec 10) (a : BitVec 6) : encodes.Statement (.loopr l a) := by
  intro w h wf
  have b0 := l.isLt; have b1 := a.isLt
  have e : w = 0x68000000 + l.toNat * 0x10000 + a.toNat * 0x400 := (Option.some.inj h).symm
  have f9_0 : field w 9 0 = 0x0 := by unfold field; omega
  have v0 : bits 10 w 16 = l := bits_eq _ (by omega)
  have v1 : bits 6 w 10 = a := bits_eq _ (by omega)
  refine row_ok (r := .instr (.loopr l a)) (row1A (by omega) ?_) wf (by omega)
  simp only [decodeMajor1A, f9_0, v0, v1]; rfl

theorem encodes.lbrk (a : BitVec 6) : encodes.Statement (.lbrk a) := by
  intro w h wf
  have b0 := a.isLt
  have e : w = 0x68000001 + a.toNat * 0x400 := (Option.some.inj h).symm
  have f9_0 : field w 9 0 = 0x1 := by unfold field; omega
  have f25_16 : field w 25 16 = 0x0 := by unfold field; omega
  have v0 : bits 6 w 10 = a := bits_eq _ (by omega)
  refine row_ok (r := .instr (.lbrk a)) (row1A (by omega) ?_) wf (by omega)
  simp only [decodeMajor1A, f9_0, f25_16, v0]; rfl

theorem encodes.rep (n : BitVec 4) (t : BitVec 8) (v : BitVec 4) (xs : BitVec 6) : encodes.Statement (.rep n t v xs) := by
  intro w h wf
  have b0 := n.isLt; have b1 := t.isLt; have b2 := v.isLt; have b3 := xs.isLt
  have e : w = 0x6c000000 + n.toNat * 0x400000 + t.toNat * 0x4000 + v.toNat * 0x400 + xs.toNat * 0x10 := (Option.some.inj h).symm
  have f3_0 : field w 3 0 = 0x0 := by unfold field; omega
  have v0 : bits 4 w 22 = n := bits_eq _ (by omega)
  have v1 : bits 8 w 14 = t := bits_eq _ (by omega)
  have v2 : bits 4 w 10 = v := bits_eq _ (by omega)
  have v3 : bits 6 w 4 = xs := bits_eq _ (by omega)
  refine row_ok (r := .instr (.rep n t v xs)) (row1B (by omega) ?_) wf (by omega)
  simp only [decodeMajor1B, f3_0, v0, v1, v2, v3]; rfl

theorem encodes.wait (l : BitVec 6) (xs : BitVec 6) (c : BitVec 6) (t : BitVec 6) : encodes.Statement (.wait l xs c t) := by
  intro w h wf
  have b0 := l.isLt; have b1 := xs.isLt; have b2 := c.isLt; have b3 := t.isLt
  have e : w = 0x70000000 + l.toNat * 0x100000 + xs.toNat * 0x4000 + c.toNat * 0x100 + t.toNat * 0x4 := (Option.some.inj h).symm
  have f1_0 : field w 1 0 = 0x0 := by unfold field; omega
  have v0 : bits 6 w 20 = l := bits_eq _ (by omega)
  have v1 : bits 6 w 14 = xs := bits_eq _ (by omega)
  have v2 : bits 6 w 8 = c := bits_eq _ (by omega)
  have v3 : bits 6 w 2 = t := bits_eq _ (by omega)
  refine row_ok (r := .instr (.wait l xs c t)) (row1C (by omega) ?_) wf (by omega)
  simp only [decodeMajor1C, f1_0, v0, v1, v2, v3]; rfl

theorem encodes.fenceSv : encodes.Statement (.fenceSv) := by
  intro w h wf
  have e : w = 0x74000000 := (Option.some.inj h).symm
  have f25_0 : field w 25 0 = 0x0 := by unfold field; omega
  refine row_ok (r := .instr (.fenceSv)) (row1D (by omega) ?_) wf (by omega)
  simp only [decodeMajor1D, f25_0]; rfl

theorem encodes.fenceVs : encodes.Statement (.fenceVs) := by
  intro w h wf
  have e : w = 0x74000100 := (Option.some.inj h).symm
  have f25_0 : field w 25 0 = 0x100 := by unfold field; omega
  refine row_ok (r := .instr (.fenceVs)) (row1D (by omega) ?_) wf (by omega)
  simp only [decodeMajor1D, f25_0]; rfl

theorem encodes.fenceVv : encodes.Statement (.fenceVv) := by
  intro w h wf
  have e : w = 0x74000200 := (Option.some.inj h).symm
  have f25_0 : field w 25 0 = 0x200 := by unfold field; omega
  refine row_ok (r := .instr (.fenceVv)) (row1D (by omega) ?_) wf (by omega)
  simp only [decodeMajor1D, f25_0]; rfl

theorem encodes.bari (d : BitVec 6) (a : BitVec 6) : encodes.Statement (.bari d a) := by
  intro w h wf
  have b0 := d.isLt; have b1 := a.isLt
  have e : w = 0x74000800 + d.toNat * 0x100000 + a.toNat * 0x4000 := (Option.some.inj h).symm
  have f13_0 : field w 13 0 = 0x800 := by unfold field; omega
  have n1 : (field w 25 0 = 0) = False := eq_false (by unfold field; omega)
  have n2 : (field w 25 0 = 0x100) = False := eq_false (by unfold field; omega)
  have n3 : (field w 25 0 = 0x200) = False := eq_false (by unfold field; omega)
  have v0 : bits 6 w 20 = d := bits_eq _ (by omega)
  have v1 : bits 6 w 14 = a := bits_eq _ (by omega)
  refine row_ok (r := .instr (.bari d a)) (row1D (by omega) ?_) wf (by omega)
  simp only [decodeMajor1D, n3, n2, n1, f13_0, v0, v1]; rfl

theorem encodes.bara (a : BitVec 6) (xs : BitVec 3) : encodes.Statement (.bara a xs) := by
  intro w h wf
  have b0 := a.isLt; have b1 := xs.isLt
  have e : w = 0x74000908 + a.toNat * 0x4000 + xs.toNat := (Option.some.inj h).symm
  have f13_3 : field w 13 3 = 0x121 := by unfold field; omega
  have f25_20 : field w 25 20 = 0x0 := by unfold field; omega
  have n1 : (field w 25 0 = 0) = False := eq_false (by unfold field; omega)
  have n2 : (field w 25 0 = 0x100) = False := eq_false (by unfold field; omega)
  have n3 : (field w 25 0 = 0x200) = False := eq_false (by unfold field; omega)
  have n4 : (field w 13 0 = 0x800) = False := eq_false (by unfold field; omega)
  have v0 : bits 6 w 14 = a := bits_eq _ (by omega)
  have v1 : bits 3 w 0 = xs := bits_eq _ (by omega)
  refine row_ok (r := .instr (.bara a xs)) (row1D (by omega) ?_) wf (by omega)
  simp only [decodeMajor1D, n4, n3, n2, n1, f13_3, f25_20, v0, v1]; rfl

theorem encodes.barw (a : BitVec 6) (xs : BitVec 3) : encodes.Statement (.barw a xs) := by
  intro w h wf
  have b0 := a.isLt; have b1 := xs.isLt
  have e : w = 0x74000a10 + a.toNat * 0x4000 + xs.toNat := (Option.some.inj h).symm
  have f13_3 : field w 13 3 = 0x142 := by unfold field; omega
  have f25_20 : field w 25 20 = 0x0 := by unfold field; omega
  have n1 : (field w 25 0 = 0) = False := eq_false (by unfold field; omega)
  have n2 : (field w 25 0 = 0x100) = False := eq_false (by unfold field; omega)
  have n3 : (field w 25 0 = 0x200) = False := eq_false (by unfold field; omega)
  have n4 : (field w 13 0 = 0x800) = False := eq_false (by unfold field; omega)
  have v0 : bits 6 w 14 = a := bits_eq _ (by omega)
  have v1 : bits 3 w 0 = xs := bits_eq _ (by omega)
  refine row_ok (r := .instr (.barw a xs)) (row1D (by omega) ?_) wf (by omega)
  simp only [decodeMajor1D, n4, n3, n2, n1, f13_3, f25_20, v0, v1]; rfl

theorem encodes.fwait (d : BitVec 6) (a : BitVec 6) (xs : BitVec 3) : encodes.Statement (.fwait d a xs) := by
  intro w h wf
  have b0 := d.isLt; have b1 := a.isLt; have b2 := xs.isLt
  have e : w = 0x74001010 + d.toNat * 0x100000 + a.toNat * 0x4000 + xs.toNat := (Option.some.inj h).symm
  have f13_3 : field w 13 3 = 0x202 := by unfold field; omega
  have n1 : (field w 25 0 = 0) = False := eq_false (by unfold field; omega)
  have n2 : (field w 25 0 = 0x100) = False := eq_false (by unfold field; omega)
  have n3 : (field w 25 0 = 0x200) = False := eq_false (by unfold field; omega)
  have n4 : (field w 13 0 = 0x800) = False := eq_false (by unfold field; omega)
  have v0 : bits 6 w 20 = d := bits_eq _ (by omega)
  have v1 : bits 6 w 14 = a := bits_eq _ (by omega)
  have v2 : bits 3 w 0 = xs := bits_eq _ (by omega)
  refine row_ok (r := .instr (.fwait d a xs)) (row1D (by omega) ?_) wf (by omega)
  simp only [decodeMajor1D, n4, n3, n2, n1, f13_3, v0, v1, v2]; rfl

theorem encodes.ffill (d : BitVec 6) (a : BitVec 6) (xs : BitVec 3) : encodes.Statement (.ffill d a xs) := by
  intro w h wf
  have b0 := d.isLt; have b1 := a.isLt; have b2 := xs.isLt
  have e : w = 0x74001108 + d.toNat * 0x100000 + a.toNat * 0x4000 + xs.toNat := (Option.some.inj h).symm
  have f13_3 : field w 13 3 = 0x221 := by unfold field; omega
  have n1 : (field w 25 0 = 0) = False := eq_false (by unfold field; omega)
  have n2 : (field w 25 0 = 0x100) = False := eq_false (by unfold field; omega)
  have n3 : (field w 25 0 = 0x200) = False := eq_false (by unfold field; omega)
  have n4 : (field w 13 0 = 0x800) = False := eq_false (by unfold field; omega)
  have v0 : bits 6 w 20 = d := bits_eq _ (by omega)
  have v1 : bits 6 w 14 = a := bits_eq _ (by omega)
  have v2 : bits 3 w 0 = xs := bits_eq _ (by omega)
  refine row_ok (r := .instr (.ffill d a xs)) (row1D (by omega) ?_) wf (by omega)
  simp only [decodeMajor1D, n4, n3, n2, n1, f13_3, v0, v1, v2]; rfl

theorem encodes.freset (a : BitVec 6) : encodes.Statement (.freset a) := by
  intro w h wf
  have b0 := a.isLt
  have e : w = 0x74001200 + a.toNat * 0x4000 := (Option.some.inj h).symm
  have f13_0 : field w 13 0 = 0x1200 := by unfold field; omega
  have f13_3 : field w 13 3 = 0x240 := by unfold field; omega
  have f25_20 : field w 25 20 = 0x0 := by unfold field; omega
  have n1 : (field w 25 0 = 0) = False := eq_false (by unfold field; omega)
  have n2 : (field w 25 0 = 0x100) = False := eq_false (by unfold field; omega)
  have n3 : (field w 25 0 = 0x200) = False := eq_false (by unfold field; omega)
  have v0 : bits 6 w 14 = a := bits_eq _ (by omega)
  refine row_ok (r := .instr (.freset a)) (row1D (by omega) ?_) wf (by omega)
  simp only [decodeMajor1D, n3, n2, n1, f13_0, f13_3, f25_20, v0]; rfl

theorem encodes.vadd (d : BitVec 5) (a : BitVec 5) (b : BitVec 5) (m : BitVec 3) : encodes.Statement (.vadd d a b m) := by
  intro w h wf
  have b0 := d.isLt; have b1 := a.isLt; have b2 := b.isLt; have b3 := m.isLt
  have e : w = 0x80000000 + d.toNat * 0x200000 + a.toNat * 0x10000 + b.toNat * 0x800 + m.toNat * 0x100 := (Option.some.inj h).symm
  have f7_0 : field w 7 0 = 0x0 := by unfold field; omega
  have v0 : bits 5 w 21 = d := bits_eq _ (by omega)
  have v1 : bits 5 w 16 = a := bits_eq _ (by omega)
  have v2 : bits 5 w 11 = b := bits_eq _ (by omega)
  have v3 : bits 3 w 8 = m := bits_eq _ (by omega)
  refine row_ok (r := .arith (.vadd d a b m)) (row20 (by omega) ?_) wf (by omega)
  simp only [decodeMajor20, f7_0, v0, v1, v2, v3]; rfl

theorem encodes.vsub (d : BitVec 5) (a : BitVec 5) (b : BitVec 5) (m : BitVec 3) : encodes.Statement (.vsub d a b m) := by
  intro w h wf
  have b0 := d.isLt; have b1 := a.isLt; have b2 := b.isLt; have b3 := m.isLt
  have e : w = 0x80000001 + d.toNat * 0x200000 + a.toNat * 0x10000 + b.toNat * 0x800 + m.toNat * 0x100 := (Option.some.inj h).symm
  have f7_0 : field w 7 0 = 0x1 := by unfold field; omega
  have v0 : bits 5 w 21 = d := bits_eq _ (by omega)
  have v1 : bits 5 w 16 = a := bits_eq _ (by omega)
  have v2 : bits 5 w 11 = b := bits_eq _ (by omega)
  have v3 : bits 3 w 8 = m := bits_eq _ (by omega)
  refine row_ok (r := .arith (.vsub d a b m)) (row20 (by omega) ?_) wf (by omega)
  simp only [decodeMajor20, f7_0, v0, v1, v2, v3]; rfl

theorem encodes.vmul (d : BitVec 5) (a : BitVec 5) (b : BitVec 5) (m : BitVec 3) : encodes.Statement (.vmul d a b m) := by
  intro w h wf
  have b0 := d.isLt; have b1 := a.isLt; have b2 := b.isLt; have b3 := m.isLt
  have e : w = 0x80000002 + d.toNat * 0x200000 + a.toNat * 0x10000 + b.toNat * 0x800 + m.toNat * 0x100 := (Option.some.inj h).symm
  have f7_0 : field w 7 0 = 0x2 := by unfold field; omega
  have v0 : bits 5 w 21 = d := bits_eq _ (by omega)
  have v1 : bits 5 w 16 = a := bits_eq _ (by omega)
  have v2 : bits 5 w 11 = b := bits_eq _ (by omega)
  have v3 : bits 3 w 8 = m := bits_eq _ (by omega)
  refine row_ok (r := .arith (.vmul d a b m)) (row20 (by omega) ?_) wf (by omega)
  simp only [decodeMajor20, f7_0, v0, v1, v2, v3]; rfl

theorem encodes.vmulh (d : BitVec 5) (a : BitVec 5) (b : BitVec 5) (m : BitVec 3) : encodes.Statement (.vmulh d a b m) := by
  intro w h wf
  have b0 := d.isLt; have b1 := a.isLt; have b2 := b.isLt; have b3 := m.isLt
  have e : w = 0x80000003 + d.toNat * 0x200000 + a.toNat * 0x10000 + b.toNat * 0x800 + m.toNat * 0x100 := (Option.some.inj h).symm
  have f7_0 : field w 7 0 = 0x3 := by unfold field; omega
  have v0 : bits 5 w 21 = d := bits_eq _ (by omega)
  have v1 : bits 5 w 16 = a := bits_eq _ (by omega)
  have v2 : bits 5 w 11 = b := bits_eq _ (by omega)
  have v3 : bits 3 w 8 = m := bits_eq _ (by omega)
  refine row_ok (r := .arith (.vmulh d a b m)) (row20 (by omega) ?_) wf (by omega)
  simp only [decodeMajor20, f7_0, v0, v1, v2, v3]; rfl

theorem encodes.vmulhz (d : BitVec 5) (a : BitVec 5) (b : BitVec 5) (m : BitVec 3) : encodes.Statement (.vmulhz d a b m) := by
  intro w h wf
  have b0 := d.isLt; have b1 := a.isLt; have b2 := b.isLt; have b3 := m.isLt
  have e : w = 0x80000004 + d.toNat * 0x200000 + a.toNat * 0x10000 + b.toNat * 0x800 + m.toNat * 0x100 := (Option.some.inj h).symm
  have f7_0 : field w 7 0 = 0x4 := by unfold field; omega
  have v0 : bits 5 w 21 = d := bits_eq _ (by omega)
  have v1 : bits 5 w 16 = a := bits_eq _ (by omega)
  have v2 : bits 5 w 11 = b := bits_eq _ (by omega)
  have v3 : bits 3 w 8 = m := bits_eq _ (by omega)
  refine row_ok (r := .arith (.vmulhz d a b m)) (row20 (by omega) ?_) wf (by omega)
  simp only [decodeMajor20, f7_0, v0, v1, v2, v3]; rfl

theorem encodes.vdiv (d : BitVec 5) (a : BitVec 5) (b : BitVec 5) (m : BitVec 3) : encodes.Statement (.vdiv d a b m) := by
  intro w h wf
  have b0 := d.isLt; have b1 := a.isLt; have b2 := b.isLt; have b3 := m.isLt
  have e : w = 0x80000005 + d.toNat * 0x200000 + a.toNat * 0x10000 + b.toNat * 0x800 + m.toNat * 0x100 := (Option.some.inj h).symm
  have f7_0 : field w 7 0 = 0x5 := by unfold field; omega
  have v0 : bits 5 w 21 = d := bits_eq _ (by omega)
  have v1 : bits 5 w 16 = a := bits_eq _ (by omega)
  have v2 : bits 5 w 11 = b := bits_eq _ (by omega)
  have v3 : bits 3 w 8 = m := bits_eq _ (by omega)
  refine row_ok (r := .arith (.vdiv d a b m)) (row20 (by omega) ?_) wf (by omega)
  simp only [decodeMajor20, f7_0, v0, v1, v2, v3]; rfl

theorem encodes.vmin (d : BitVec 5) (a : BitVec 5) (b : BitVec 5) (m : BitVec 3) : encodes.Statement (.vmin d a b m) := by
  intro w h wf
  have b0 := d.isLt; have b1 := a.isLt; have b2 := b.isLt; have b3 := m.isLt
  have e : w = 0x80000006 + d.toNat * 0x200000 + a.toNat * 0x10000 + b.toNat * 0x800 + m.toNat * 0x100 := (Option.some.inj h).symm
  have f7_0 : field w 7 0 = 0x6 := by unfold field; omega
  have v0 : bits 5 w 21 = d := bits_eq _ (by omega)
  have v1 : bits 5 w 16 = a := bits_eq _ (by omega)
  have v2 : bits 5 w 11 = b := bits_eq _ (by omega)
  have v3 : bits 3 w 8 = m := bits_eq _ (by omega)
  refine row_ok (r := .arith (.vmin d a b m)) (row20 (by omega) ?_) wf (by omega)
  simp only [decodeMajor20, f7_0, v0, v1, v2, v3]; rfl

theorem encodes.vmax (d : BitVec 5) (a : BitVec 5) (b : BitVec 5) (m : BitVec 3) : encodes.Statement (.vmax d a b m) := by
  intro w h wf
  have b0 := d.isLt; have b1 := a.isLt; have b2 := b.isLt; have b3 := m.isLt
  have e : w = 0x80000007 + d.toNat * 0x200000 + a.toNat * 0x10000 + b.toNat * 0x800 + m.toNat * 0x100 := (Option.some.inj h).symm
  have f7_0 : field w 7 0 = 0x7 := by unfold field; omega
  have v0 : bits 5 w 21 = d := bits_eq _ (by omega)
  have v1 : bits 5 w 16 = a := bits_eq _ (by omega)
  have v2 : bits 5 w 11 = b := bits_eq _ (by omega)
  have v3 : bits 3 w 8 = m := bits_eq _ (by omega)
  refine row_ok (r := .arith (.vmax d a b m)) (row20 (by omega) ?_) wf (by omega)
  simp only [decodeMajor20, f7_0, v0, v1, v2, v3]; rfl

theorem encodes.vminz (d : BitVec 5) (a : BitVec 5) (b : BitVec 5) (m : BitVec 3) : encodes.Statement (.vminz d a b m) := by
  intro w h wf
  have b0 := d.isLt; have b1 := a.isLt; have b2 := b.isLt; have b3 := m.isLt
  have e : w = 0x80000008 + d.toNat * 0x200000 + a.toNat * 0x10000 + b.toNat * 0x800 + m.toNat * 0x100 := (Option.some.inj h).symm
  have f7_0 : field w 7 0 = 0x8 := by unfold field; omega
  have v0 : bits 5 w 21 = d := bits_eq _ (by omega)
  have v1 : bits 5 w 16 = a := bits_eq _ (by omega)
  have v2 : bits 5 w 11 = b := bits_eq _ (by omega)
  have v3 : bits 3 w 8 = m := bits_eq _ (by omega)
  refine row_ok (r := .arith (.vminz d a b m)) (row20 (by omega) ?_) wf (by omega)
  simp only [decodeMajor20, f7_0, v0, v1, v2, v3]; rfl

theorem encodes.vmaxz (d : BitVec 5) (a : BitVec 5) (b : BitVec 5) (m : BitVec 3) : encodes.Statement (.vmaxz d a b m) := by
  intro w h wf
  have b0 := d.isLt; have b1 := a.isLt; have b2 := b.isLt; have b3 := m.isLt
  have e : w = 0x80000009 + d.toNat * 0x200000 + a.toNat * 0x10000 + b.toNat * 0x800 + m.toNat * 0x100 := (Option.some.inj h).symm
  have f7_0 : field w 7 0 = 0x9 := by unfold field; omega
  have v0 : bits 5 w 21 = d := bits_eq _ (by omega)
  have v1 : bits 5 w 16 = a := bits_eq _ (by omega)
  have v2 : bits 5 w 11 = b := bits_eq _ (by omega)
  have v3 : bits 3 w 8 = m := bits_eq _ (by omega)
  refine row_ok (r := .arith (.vmaxz d a b m)) (row20 (by omega) ?_) wf (by omega)
  simp only [decodeMajor20, f7_0, v0, v1, v2, v3]; rfl

theorem encodes.vand (d : BitVec 5) (a : BitVec 5) (b : BitVec 5) (m : BitVec 3) : encodes.Statement (.vand d a b m) := by
  intro w h wf
  have b0 := d.isLt; have b1 := a.isLt; have b2 := b.isLt; have b3 := m.isLt
  have e : w = 0x8000000a + d.toNat * 0x200000 + a.toNat * 0x10000 + b.toNat * 0x800 + m.toNat * 0x100 := (Option.some.inj h).symm
  have f7_0 : field w 7 0 = 0xa := by unfold field; omega
  have v0 : bits 5 w 21 = d := bits_eq _ (by omega)
  have v1 : bits 5 w 16 = a := bits_eq _ (by omega)
  have v2 : bits 5 w 11 = b := bits_eq _ (by omega)
  have v3 : bits 3 w 8 = m := bits_eq _ (by omega)
  refine row_ok (r := .arith (.vand d a b m)) (row20 (by omega) ?_) wf (by omega)
  simp only [decodeMajor20, f7_0, v0, v1, v2, v3]; rfl

theorem encodes.vor (d : BitVec 5) (a : BitVec 5) (b : BitVec 5) (m : BitVec 3) : encodes.Statement (.vor d a b m) := by
  intro w h wf
  have b0 := d.isLt; have b1 := a.isLt; have b2 := b.isLt; have b3 := m.isLt
  have e : w = 0x8000000b + d.toNat * 0x200000 + a.toNat * 0x10000 + b.toNat * 0x800 + m.toNat * 0x100 := (Option.some.inj h).symm
  have f7_0 : field w 7 0 = 0xb := by unfold field; omega
  have v0 : bits 5 w 21 = d := bits_eq _ (by omega)
  have v1 : bits 5 w 16 = a := bits_eq _ (by omega)
  have v2 : bits 5 w 11 = b := bits_eq _ (by omega)
  have v3 : bits 3 w 8 = m := bits_eq _ (by omega)
  refine row_ok (r := .arith (.vor d a b m)) (row20 (by omega) ?_) wf (by omega)
  simp only [decodeMajor20, f7_0, v0, v1, v2, v3]; rfl

theorem encodes.vxor (d : BitVec 5) (a : BitVec 5) (b : BitVec 5) (m : BitVec 3) : encodes.Statement (.vxor d a b m) := by
  intro w h wf
  have b0 := d.isLt; have b1 := a.isLt; have b2 := b.isLt; have b3 := m.isLt
  have e : w = 0x8000000c + d.toNat * 0x200000 + a.toNat * 0x10000 + b.toNat * 0x800 + m.toNat * 0x100 := (Option.some.inj h).symm
  have f7_0 : field w 7 0 = 0xc := by unfold field; omega
  have v0 : bits 5 w 21 = d := bits_eq _ (by omega)
  have v1 : bits 5 w 16 = a := bits_eq _ (by omega)
  have v2 : bits 5 w 11 = b := bits_eq _ (by omega)
  have v3 : bits 3 w 8 = m := bits_eq _ (by omega)
  refine row_ok (r := .arith (.vxor d a b m)) (row20 (by omega) ?_) wf (by omega)
  simp only [decodeMajor20, f7_0, v0, v1, v2, v3]; rfl

theorem encodes.vshl (d : BitVec 5) (a : BitVec 5) (b : BitVec 5) (m : BitVec 3) : encodes.Statement (.vshl d a b m) := by
  intro w h wf
  have b0 := d.isLt; have b1 := a.isLt; have b2 := b.isLt; have b3 := m.isLt
  have e : w = 0x8000000d + d.toNat * 0x200000 + a.toNat * 0x10000 + b.toNat * 0x800 + m.toNat * 0x100 := (Option.some.inj h).symm
  have f7_0 : field w 7 0 = 0xd := by unfold field; omega
  have v0 : bits 5 w 21 = d := bits_eq _ (by omega)
  have v1 : bits 5 w 16 = a := bits_eq _ (by omega)
  have v2 : bits 5 w 11 = b := bits_eq _ (by omega)
  have v3 : bits 3 w 8 = m := bits_eq _ (by omega)
  refine row_ok (r := .arith (.vshl d a b m)) (row20 (by omega) ?_) wf (by omega)
  simp only [decodeMajor20, f7_0, v0, v1, v2, v3]; rfl

theorem encodes.vshr (d : BitVec 5) (a : BitVec 5) (b : BitVec 5) (m : BitVec 3) : encodes.Statement (.vshr d a b m) := by
  intro w h wf
  have b0 := d.isLt; have b1 := a.isLt; have b2 := b.isLt; have b3 := m.isLt
  have e : w = 0x8000000e + d.toNat * 0x200000 + a.toNat * 0x10000 + b.toNat * 0x800 + m.toNat * 0x100 := (Option.some.inj h).symm
  have f7_0 : field w 7 0 = 0xe := by unfold field; omega
  have v0 : bits 5 w 21 = d := bits_eq _ (by omega)
  have v1 : bits 5 w 16 = a := bits_eq _ (by omega)
  have v2 : bits 5 w 11 = b := bits_eq _ (by omega)
  have v3 : bits 3 w 8 = m := bits_eq _ (by omega)
  refine row_ok (r := .arith (.vshr d a b m)) (row20 (by omega) ?_) wf (by omega)
  simp only [decodeMajor20, f7_0, v0, v1, v2, v3]; rfl

theorem encodes.vsar (d : BitVec 5) (a : BitVec 5) (b : BitVec 5) (m : BitVec 3) : encodes.Statement (.vsar d a b m) := by
  intro w h wf
  have b0 := d.isLt; have b1 := a.isLt; have b2 := b.isLt; have b3 := m.isLt
  have e : w = 0x8000000f + d.toNat * 0x200000 + a.toNat * 0x10000 + b.toNat * 0x800 + m.toNat * 0x100 := (Option.some.inj h).symm
  have f7_0 : field w 7 0 = 0xf := by unfold field; omega
  have v0 : bits 5 w 21 = d := bits_eq _ (by omega)
  have v1 : bits 5 w 16 = a := bits_eq _ (by omega)
  have v2 : bits 5 w 11 = b := bits_eq _ (by omega)
  have v3 : bits 3 w 8 = m := bits_eq _ (by omega)
  refine row_ok (r := .arith (.vsar d a b m)) (row20 (by omega) ?_) wf (by omega)
  simp only [decodeMajor20, f7_0, v0, v1, v2, v3]; rfl

theorem encodes.vadds (d : BitVec 5) (a : BitVec 5) (b : BitVec 5) (m : BitVec 3) : encodes.Statement (.vadds d a b m) := by
  intro w h wf
  have b0 := d.isLt; have b1 := a.isLt; have b2 := b.isLt; have b3 := m.isLt
  have e : w = 0x80000010 + d.toNat * 0x200000 + a.toNat * 0x10000 + b.toNat * 0x800 + m.toNat * 0x100 := (Option.some.inj h).symm
  have f7_0 : field w 7 0 = 0x10 := by unfold field; omega
  have v0 : bits 5 w 21 = d := bits_eq _ (by omega)
  have v1 : bits 5 w 16 = a := bits_eq _ (by omega)
  have v2 : bits 5 w 11 = b := bits_eq _ (by omega)
  have v3 : bits 3 w 8 = m := bits_eq _ (by omega)
  refine row_ok (r := .arith (.vadds d a b m)) (row20 (by omega) ?_) wf (by omega)
  simp only [decodeMajor20, f7_0, v0, v1, v2, v3]; rfl

theorem encodes.vsubs (d : BitVec 5) (a : BitVec 5) (b : BitVec 5) (m : BitVec 3) : encodes.Statement (.vsubs d a b m) := by
  intro w h wf
  have b0 := d.isLt; have b1 := a.isLt; have b2 := b.isLt; have b3 := m.isLt
  have e : w = 0x80000011 + d.toNat * 0x200000 + a.toNat * 0x10000 + b.toNat * 0x800 + m.toNat * 0x100 := (Option.some.inj h).symm
  have f7_0 : field w 7 0 = 0x11 := by unfold field; omega
  have v0 : bits 5 w 21 = d := bits_eq _ (by omega)
  have v1 : bits 5 w 16 = a := bits_eq _ (by omega)
  have v2 : bits 5 w 11 = b := bits_eq _ (by omega)
  have v3 : bits 3 w 8 = m := bits_eq _ (by omega)
  refine row_ok (r := .arith (.vsubs d a b m)) (row20 (by omega) ?_) wf (by omega)
  simp only [decodeMajor20, f7_0, v0, v1, v2, v3]; rfl

theorem encodes.vabs (d : BitVec 5) (a : BitVec 5) (m : BitVec 3) : encodes.Statement (.vabs d a m) := by
  intro w h wf
  have b0 := d.isLt; have b1 := a.isLt; have b2 := m.isLt
  have e : w = 0x80000012 + d.toNat * 0x200000 + a.toNat * 0x10000 + m.toNat * 0x100 := (Option.some.inj h).symm
  have f7_0 : field w 7 0 = 0x12 := by unfold field; omega
  have f15_11 : field w 15 11 = 0x0 := by unfold field; omega
  have v0 : bits 5 w 21 = d := bits_eq _ (by omega)
  have v1 : bits 5 w 16 = a := bits_eq _ (by omega)
  have v2 : bits 3 w 8 = m := bits_eq _ (by omega)
  refine row_ok (r := .arith (.vabs d a m)) (row20 (by omega) ?_) wf (by omega)
  simp only [decodeMajor20, f7_0, f15_11, v0, v1, v2]; rfl

theorem encodes.vwadd (d : BitVec 5) (a : BitVec 5) (b : BitVec 5) (m : BitVec 3) : encodes.Statement (.vwadd d a b m) := by
  intro w h wf
  have b0 := d.isLt; have b1 := a.isLt; have b2 := b.isLt; have b3 := m.isLt
  have e : w = 0x80000013 + d.toNat * 0x200000 + a.toNat * 0x10000 + b.toNat * 0x800 + m.toNat * 0x100 := (Option.some.inj h).symm
  have f7_0 : field w 7 0 = 0x13 := by unfold field; omega
  have v0 : bits 5 w 21 = d := bits_eq _ (by omega)
  have v1 : bits 5 w 16 = a := bits_eq _ (by omega)
  have v2 : bits 5 w 11 = b := bits_eq _ (by omega)
  have v3 : bits 3 w 8 = m := bits_eq _ (by omega)
  refine row_ok (r := .arith (.vwadd d a b m)) (row20 (by omega) ?_) wf (by omega)
  simp only [decodeMajor20, f7_0, v0, v1, v2, v3]; rfl

theorem encodes.vwmul (d : BitVec 5) (a : BitVec 5) (b : BitVec 5) (m : BitVec 3) : encodes.Statement (.vwmul d a b m) := by
  intro w h wf
  have b0 := d.isLt; have b1 := a.isLt; have b2 := b.isLt; have b3 := m.isLt
  have e : w = 0x80000014 + d.toNat * 0x200000 + a.toNat * 0x10000 + b.toNat * 0x800 + m.toNat * 0x100 := (Option.some.inj h).symm
  have f7_0 : field w 7 0 = 0x14 := by unfold field; omega
  have v0 : bits 5 w 21 = d := bits_eq _ (by omega)
  have v1 : bits 5 w 16 = a := bits_eq _ (by omega)
  have v2 : bits 5 w 11 = b := bits_eq _ (by omega)
  have v3 : bits 3 w 8 = m := bits_eq _ (by omega)
  refine row_ok (r := .arith (.vwmul d a b m)) (row20 (by omega) ?_) wf (by omega)
  simp only [decodeMajor20, f7_0, v0, v1, v2, v3]; rfl

theorem encodes.vnshr (d : BitVec 5) (a : BitVec 5) (b : BitVec 5) (m : BitVec 3) : encodes.Statement (.vnshr d a b m) := by
  intro w h wf
  have b0 := d.isLt; have b1 := a.isLt; have b2 := b.isLt; have b3 := m.isLt
  have e : w = 0x80000015 + d.toNat * 0x200000 + a.toNat * 0x10000 + b.toNat * 0x800 + m.toNat * 0x100 := (Option.some.inj h).symm
  have f7_0 : field w 7 0 = 0x15 := by unfold field; omega
  have v0 : bits 5 w 21 = d := bits_eq _ (by omega)
  have v1 : bits 5 w 16 = a := bits_eq _ (by omega)
  have v2 : bits 5 w 11 = b := bits_eq _ (by omega)
  have v3 : bits 3 w 8 = m := bits_eq _ (by omega)
  refine row_ok (r := .arith (.vnshr d a b m)) (row20 (by omega) ?_) wf (by omega)
  simp only [decodeMajor20, f7_0, v0, v1, v2, v3]; rfl

theorem encodes.vdot4 (d : BitVec 5) (a : BitVec 5) (b : BitVec 5) (m : BitVec 3) : encodes.Statement (.vdot4 d a b m) := by
  intro w h wf
  have b0 := d.isLt; have b1 := a.isLt; have b2 := b.isLt; have b3 := m.isLt
  have e : w = 0x80000016 + d.toNat * 0x200000 + a.toNat * 0x10000 + b.toNat * 0x800 + m.toNat * 0x100 := (Option.some.inj h).symm
  have f7_0 : field w 7 0 = 0x16 := by unfold field; omega
  have v0 : bits 5 w 21 = d := bits_eq _ (by omega)
  have v1 : bits 5 w 16 = a := bits_eq _ (by omega)
  have v2 : bits 5 w 11 = b := bits_eq _ (by omega)
  have v3 : bits 3 w 8 = m := bits_eq _ (by omega)
  refine row_ok (r := .arith (.vdot4 d a b m)) (row20 (by omega) ?_) wf (by omega)
  simp only [decodeMajor20, f7_0, v0, v1, v2, v3]; rfl

theorem encodes.vaddVs (d : BitVec 5) (a : BitVec 5) (b : BitVec 6) (m : BitVec 3) : encodes.Statement (.vaddVs d a b m) := by
  intro w h wf
  have b0 := d.isLt; have b1 := a.isLt; have b2 := b.isLt; have b3 := m.isLt
  have e : w = 0x84000000 + d.toNat * 0x200000 + a.toNat * 0x10000 + b.toNat * 0x400 + m.toNat * 0x80 := (Option.some.inj h).symm
  have f6_0 : field w 6 0 = 0x0 := by unfold field; omega
  have v0 : bits 5 w 21 = d := bits_eq _ (by omega)
  have v1 : bits 5 w 16 = a := bits_eq _ (by omega)
  have v2 : bits 6 w 10 = b := bits_eq _ (by omega)
  have v3 : bits 3 w 7 = m := bits_eq _ (by omega)
  refine row_ok (r := .arith (.vaddVs d a b m)) (row21 (by omega) ?_) wf (by omega)
  simp only [decodeMajor21, f6_0, v0, v1, v2, v3]; rfl

theorem encodes.vsubVs (d : BitVec 5) (a : BitVec 5) (b : BitVec 6) (m : BitVec 3) : encodes.Statement (.vsubVs d a b m) := by
  intro w h wf
  have b0 := d.isLt; have b1 := a.isLt; have b2 := b.isLt; have b3 := m.isLt
  have e : w = 0x84000001 + d.toNat * 0x200000 + a.toNat * 0x10000 + b.toNat * 0x400 + m.toNat * 0x80 := (Option.some.inj h).symm
  have f6_0 : field w 6 0 = 0x1 := by unfold field; omega
  have v0 : bits 5 w 21 = d := bits_eq _ (by omega)
  have v1 : bits 5 w 16 = a := bits_eq _ (by omega)
  have v2 : bits 6 w 10 = b := bits_eq _ (by omega)
  have v3 : bits 3 w 7 = m := bits_eq _ (by omega)
  refine row_ok (r := .arith (.vsubVs d a b m)) (row21 (by omega) ?_) wf (by omega)
  simp only [decodeMajor21, f6_0, v0, v1, v2, v3]; rfl

theorem encodes.vmulVs (d : BitVec 5) (a : BitVec 5) (b : BitVec 6) (m : BitVec 3) : encodes.Statement (.vmulVs d a b m) := by
  intro w h wf
  have b0 := d.isLt; have b1 := a.isLt; have b2 := b.isLt; have b3 := m.isLt
  have e : w = 0x84000002 + d.toNat * 0x200000 + a.toNat * 0x10000 + b.toNat * 0x400 + m.toNat * 0x80 := (Option.some.inj h).symm
  have f6_0 : field w 6 0 = 0x2 := by unfold field; omega
  have v0 : bits 5 w 21 = d := bits_eq _ (by omega)
  have v1 : bits 5 w 16 = a := bits_eq _ (by omega)
  have v2 : bits 6 w 10 = b := bits_eq _ (by omega)
  have v3 : bits 3 w 7 = m := bits_eq _ (by omega)
  refine row_ok (r := .arith (.vmulVs d a b m)) (row21 (by omega) ?_) wf (by omega)
  simp only [decodeMajor21, f6_0, v0, v1, v2, v3]; rfl

theorem encodes.vmulhVs (d : BitVec 5) (a : BitVec 5) (b : BitVec 6) (m : BitVec 3) : encodes.Statement (.vmulhVs d a b m) := by
  intro w h wf
  have b0 := d.isLt; have b1 := a.isLt; have b2 := b.isLt; have b3 := m.isLt
  have e : w = 0x84000003 + d.toNat * 0x200000 + a.toNat * 0x10000 + b.toNat * 0x400 + m.toNat * 0x80 := (Option.some.inj h).symm
  have f6_0 : field w 6 0 = 0x3 := by unfold field; omega
  have v0 : bits 5 w 21 = d := bits_eq _ (by omega)
  have v1 : bits 5 w 16 = a := bits_eq _ (by omega)
  have v2 : bits 6 w 10 = b := bits_eq _ (by omega)
  have v3 : bits 3 w 7 = m := bits_eq _ (by omega)
  refine row_ok (r := .arith (.vmulhVs d a b m)) (row21 (by omega) ?_) wf (by omega)
  simp only [decodeMajor21, f6_0, v0, v1, v2, v3]; rfl

theorem encodes.vmulhzVs (d : BitVec 5) (a : BitVec 5) (b : BitVec 6) (m : BitVec 3) : encodes.Statement (.vmulhzVs d a b m) := by
  intro w h wf
  have b0 := d.isLt; have b1 := a.isLt; have b2 := b.isLt; have b3 := m.isLt
  have e : w = 0x84000004 + d.toNat * 0x200000 + a.toNat * 0x10000 + b.toNat * 0x400 + m.toNat * 0x80 := (Option.some.inj h).symm
  have f6_0 : field w 6 0 = 0x4 := by unfold field; omega
  have v0 : bits 5 w 21 = d := bits_eq _ (by omega)
  have v1 : bits 5 w 16 = a := bits_eq _ (by omega)
  have v2 : bits 6 w 10 = b := bits_eq _ (by omega)
  have v3 : bits 3 w 7 = m := bits_eq _ (by omega)
  refine row_ok (r := .arith (.vmulhzVs d a b m)) (row21 (by omega) ?_) wf (by omega)
  simp only [decodeMajor21, f6_0, v0, v1, v2, v3]; rfl

theorem encodes.vdivVs (d : BitVec 5) (a : BitVec 5) (b : BitVec 6) (m : BitVec 3) : encodes.Statement (.vdivVs d a b m) := by
  intro w h wf
  have b0 := d.isLt; have b1 := a.isLt; have b2 := b.isLt; have b3 := m.isLt
  have e : w = 0x84000005 + d.toNat * 0x200000 + a.toNat * 0x10000 + b.toNat * 0x400 + m.toNat * 0x80 := (Option.some.inj h).symm
  have f6_0 : field w 6 0 = 0x5 := by unfold field; omega
  have v0 : bits 5 w 21 = d := bits_eq _ (by omega)
  have v1 : bits 5 w 16 = a := bits_eq _ (by omega)
  have v2 : bits 6 w 10 = b := bits_eq _ (by omega)
  have v3 : bits 3 w 7 = m := bits_eq _ (by omega)
  refine row_ok (r := .arith (.vdivVs d a b m)) (row21 (by omega) ?_) wf (by omega)
  simp only [decodeMajor21, f6_0, v0, v1, v2, v3]; rfl

theorem encodes.vminVs (d : BitVec 5) (a : BitVec 5) (b : BitVec 6) (m : BitVec 3) : encodes.Statement (.vminVs d a b m) := by
  intro w h wf
  have b0 := d.isLt; have b1 := a.isLt; have b2 := b.isLt; have b3 := m.isLt
  have e : w = 0x84000006 + d.toNat * 0x200000 + a.toNat * 0x10000 + b.toNat * 0x400 + m.toNat * 0x80 := (Option.some.inj h).symm
  have f6_0 : field w 6 0 = 0x6 := by unfold field; omega
  have v0 : bits 5 w 21 = d := bits_eq _ (by omega)
  have v1 : bits 5 w 16 = a := bits_eq _ (by omega)
  have v2 : bits 6 w 10 = b := bits_eq _ (by omega)
  have v3 : bits 3 w 7 = m := bits_eq _ (by omega)
  refine row_ok (r := .arith (.vminVs d a b m)) (row21 (by omega) ?_) wf (by omega)
  simp only [decodeMajor21, f6_0, v0, v1, v2, v3]; rfl

theorem encodes.vmaxVs (d : BitVec 5) (a : BitVec 5) (b : BitVec 6) (m : BitVec 3) : encodes.Statement (.vmaxVs d a b m) := by
  intro w h wf
  have b0 := d.isLt; have b1 := a.isLt; have b2 := b.isLt; have b3 := m.isLt
  have e : w = 0x84000007 + d.toNat * 0x200000 + a.toNat * 0x10000 + b.toNat * 0x400 + m.toNat * 0x80 := (Option.some.inj h).symm
  have f6_0 : field w 6 0 = 0x7 := by unfold field; omega
  have v0 : bits 5 w 21 = d := bits_eq _ (by omega)
  have v1 : bits 5 w 16 = a := bits_eq _ (by omega)
  have v2 : bits 6 w 10 = b := bits_eq _ (by omega)
  have v3 : bits 3 w 7 = m := bits_eq _ (by omega)
  refine row_ok (r := .arith (.vmaxVs d a b m)) (row21 (by omega) ?_) wf (by omega)
  simp only [decodeMajor21, f6_0, v0, v1, v2, v3]; rfl

theorem encodes.vminzVs (d : BitVec 5) (a : BitVec 5) (b : BitVec 6) (m : BitVec 3) : encodes.Statement (.vminzVs d a b m) := by
  intro w h wf
  have b0 := d.isLt; have b1 := a.isLt; have b2 := b.isLt; have b3 := m.isLt
  have e : w = 0x84000008 + d.toNat * 0x200000 + a.toNat * 0x10000 + b.toNat * 0x400 + m.toNat * 0x80 := (Option.some.inj h).symm
  have f6_0 : field w 6 0 = 0x8 := by unfold field; omega
  have v0 : bits 5 w 21 = d := bits_eq _ (by omega)
  have v1 : bits 5 w 16 = a := bits_eq _ (by omega)
  have v2 : bits 6 w 10 = b := bits_eq _ (by omega)
  have v3 : bits 3 w 7 = m := bits_eq _ (by omega)
  refine row_ok (r := .arith (.vminzVs d a b m)) (row21 (by omega) ?_) wf (by omega)
  simp only [decodeMajor21, f6_0, v0, v1, v2, v3]; rfl

theorem encodes.vmaxzVs (d : BitVec 5) (a : BitVec 5) (b : BitVec 6) (m : BitVec 3) : encodes.Statement (.vmaxzVs d a b m) := by
  intro w h wf
  have b0 := d.isLt; have b1 := a.isLt; have b2 := b.isLt; have b3 := m.isLt
  have e : w = 0x84000009 + d.toNat * 0x200000 + a.toNat * 0x10000 + b.toNat * 0x400 + m.toNat * 0x80 := (Option.some.inj h).symm
  have f6_0 : field w 6 0 = 0x9 := by unfold field; omega
  have v0 : bits 5 w 21 = d := bits_eq _ (by omega)
  have v1 : bits 5 w 16 = a := bits_eq _ (by omega)
  have v2 : bits 6 w 10 = b := bits_eq _ (by omega)
  have v3 : bits 3 w 7 = m := bits_eq _ (by omega)
  refine row_ok (r := .arith (.vmaxzVs d a b m)) (row21 (by omega) ?_) wf (by omega)
  simp only [decodeMajor21, f6_0, v0, v1, v2, v3]; rfl

theorem encodes.vandVs (d : BitVec 5) (a : BitVec 5) (b : BitVec 6) (m : BitVec 3) : encodes.Statement (.vandVs d a b m) := by
  intro w h wf
  have b0 := d.isLt; have b1 := a.isLt; have b2 := b.isLt; have b3 := m.isLt
  have e : w = 0x8400000a + d.toNat * 0x200000 + a.toNat * 0x10000 + b.toNat * 0x400 + m.toNat * 0x80 := (Option.some.inj h).symm
  have f6_0 : field w 6 0 = 0xa := by unfold field; omega
  have v0 : bits 5 w 21 = d := bits_eq _ (by omega)
  have v1 : bits 5 w 16 = a := bits_eq _ (by omega)
  have v2 : bits 6 w 10 = b := bits_eq _ (by omega)
  have v3 : bits 3 w 7 = m := bits_eq _ (by omega)
  refine row_ok (r := .arith (.vandVs d a b m)) (row21 (by omega) ?_) wf (by omega)
  simp only [decodeMajor21, f6_0, v0, v1, v2, v3]; rfl

theorem encodes.vorVs (d : BitVec 5) (a : BitVec 5) (b : BitVec 6) (m : BitVec 3) : encodes.Statement (.vorVs d a b m) := by
  intro w h wf
  have b0 := d.isLt; have b1 := a.isLt; have b2 := b.isLt; have b3 := m.isLt
  have e : w = 0x8400000b + d.toNat * 0x200000 + a.toNat * 0x10000 + b.toNat * 0x400 + m.toNat * 0x80 := (Option.some.inj h).symm
  have f6_0 : field w 6 0 = 0xb := by unfold field; omega
  have v0 : bits 5 w 21 = d := bits_eq _ (by omega)
  have v1 : bits 5 w 16 = a := bits_eq _ (by omega)
  have v2 : bits 6 w 10 = b := bits_eq _ (by omega)
  have v3 : bits 3 w 7 = m := bits_eq _ (by omega)
  refine row_ok (r := .arith (.vorVs d a b m)) (row21 (by omega) ?_) wf (by omega)
  simp only [decodeMajor21, f6_0, v0, v1, v2, v3]; rfl

theorem encodes.vxorVs (d : BitVec 5) (a : BitVec 5) (b : BitVec 6) (m : BitVec 3) : encodes.Statement (.vxorVs d a b m) := by
  intro w h wf
  have b0 := d.isLt; have b1 := a.isLt; have b2 := b.isLt; have b3 := m.isLt
  have e : w = 0x8400000c + d.toNat * 0x200000 + a.toNat * 0x10000 + b.toNat * 0x400 + m.toNat * 0x80 := (Option.some.inj h).symm
  have f6_0 : field w 6 0 = 0xc := by unfold field; omega
  have v0 : bits 5 w 21 = d := bits_eq _ (by omega)
  have v1 : bits 5 w 16 = a := bits_eq _ (by omega)
  have v2 : bits 6 w 10 = b := bits_eq _ (by omega)
  have v3 : bits 3 w 7 = m := bits_eq _ (by omega)
  refine row_ok (r := .arith (.vxorVs d a b m)) (row21 (by omega) ?_) wf (by omega)
  simp only [decodeMajor21, f6_0, v0, v1, v2, v3]; rfl

theorem encodes.vshlVs (d : BitVec 5) (a : BitVec 5) (b : BitVec 6) (m : BitVec 3) : encodes.Statement (.vshlVs d a b m) := by
  intro w h wf
  have b0 := d.isLt; have b1 := a.isLt; have b2 := b.isLt; have b3 := m.isLt
  have e : w = 0x8400000d + d.toNat * 0x200000 + a.toNat * 0x10000 + b.toNat * 0x400 + m.toNat * 0x80 := (Option.some.inj h).symm
  have f6_0 : field w 6 0 = 0xd := by unfold field; omega
  have v0 : bits 5 w 21 = d := bits_eq _ (by omega)
  have v1 : bits 5 w 16 = a := bits_eq _ (by omega)
  have v2 : bits 6 w 10 = b := bits_eq _ (by omega)
  have v3 : bits 3 w 7 = m := bits_eq _ (by omega)
  refine row_ok (r := .arith (.vshlVs d a b m)) (row21 (by omega) ?_) wf (by omega)
  simp only [decodeMajor21, f6_0, v0, v1, v2, v3]; rfl

theorem encodes.vshrVs (d : BitVec 5) (a : BitVec 5) (b : BitVec 6) (m : BitVec 3) : encodes.Statement (.vshrVs d a b m) := by
  intro w h wf
  have b0 := d.isLt; have b1 := a.isLt; have b2 := b.isLt; have b3 := m.isLt
  have e : w = 0x8400000e + d.toNat * 0x200000 + a.toNat * 0x10000 + b.toNat * 0x400 + m.toNat * 0x80 := (Option.some.inj h).symm
  have f6_0 : field w 6 0 = 0xe := by unfold field; omega
  have v0 : bits 5 w 21 = d := bits_eq _ (by omega)
  have v1 : bits 5 w 16 = a := bits_eq _ (by omega)
  have v2 : bits 6 w 10 = b := bits_eq _ (by omega)
  have v3 : bits 3 w 7 = m := bits_eq _ (by omega)
  refine row_ok (r := .arith (.vshrVs d a b m)) (row21 (by omega) ?_) wf (by omega)
  simp only [decodeMajor21, f6_0, v0, v1, v2, v3]; rfl

theorem encodes.vsarVs (d : BitVec 5) (a : BitVec 5) (b : BitVec 6) (m : BitVec 3) : encodes.Statement (.vsarVs d a b m) := by
  intro w h wf
  have b0 := d.isLt; have b1 := a.isLt; have b2 := b.isLt; have b3 := m.isLt
  have e : w = 0x8400000f + d.toNat * 0x200000 + a.toNat * 0x10000 + b.toNat * 0x400 + m.toNat * 0x80 := (Option.some.inj h).symm
  have f6_0 : field w 6 0 = 0xf := by unfold field; omega
  have v0 : bits 5 w 21 = d := bits_eq _ (by omega)
  have v1 : bits 5 w 16 = a := bits_eq _ (by omega)
  have v2 : bits 6 w 10 = b := bits_eq _ (by omega)
  have v3 : bits 3 w 7 = m := bits_eq _ (by omega)
  refine row_ok (r := .arith (.vsarVs d a b m)) (row21 (by omega) ?_) wf (by omega)
  simp only [decodeMajor21, f6_0, v0, v1, v2, v3]; rfl

theorem encodes.vaddsVs (d : BitVec 5) (a : BitVec 5) (b : BitVec 6) (m : BitVec 3) : encodes.Statement (.vaddsVs d a b m) := by
  intro w h wf
  have b0 := d.isLt; have b1 := a.isLt; have b2 := b.isLt; have b3 := m.isLt
  have e : w = 0x84000010 + d.toNat * 0x200000 + a.toNat * 0x10000 + b.toNat * 0x400 + m.toNat * 0x80 := (Option.some.inj h).symm
  have f6_0 : field w 6 0 = 0x10 := by unfold field; omega
  have v0 : bits 5 w 21 = d := bits_eq _ (by omega)
  have v1 : bits 5 w 16 = a := bits_eq _ (by omega)
  have v2 : bits 6 w 10 = b := bits_eq _ (by omega)
  have v3 : bits 3 w 7 = m := bits_eq _ (by omega)
  refine row_ok (r := .arith (.vaddsVs d a b m)) (row21 (by omega) ?_) wf (by omega)
  simp only [decodeMajor21, f6_0, v0, v1, v2, v3]; rfl

theorem encodes.vsubsVs (d : BitVec 5) (a : BitVec 5) (b : BitVec 6) (m : BitVec 3) : encodes.Statement (.vsubsVs d a b m) := by
  intro w h wf
  have b0 := d.isLt; have b1 := a.isLt; have b2 := b.isLt; have b3 := m.isLt
  have e : w = 0x84000011 + d.toNat * 0x200000 + a.toNat * 0x10000 + b.toNat * 0x400 + m.toNat * 0x80 := (Option.some.inj h).symm
  have f6_0 : field w 6 0 = 0x11 := by unfold field; omega
  have v0 : bits 5 w 21 = d := bits_eq _ (by omega)
  have v1 : bits 5 w 16 = a := bits_eq _ (by omega)
  have v2 : bits 6 w 10 = b := bits_eq _ (by omega)
  have v3 : bits 3 w 7 = m := bits_eq _ (by omega)
  refine row_ok (r := .arith (.vsubsVs d a b m)) (row21 (by omega) ?_) wf (by omega)
  simp only [decodeMajor21, f6_0, v0, v1, v2, v3]; rfl

theorem encodes.vwaddVs (d : BitVec 5) (a : BitVec 5) (b : BitVec 6) (m : BitVec 3) : encodes.Statement (.vwaddVs d a b m) := by
  intro w h wf
  have b0 := d.isLt; have b1 := a.isLt; have b2 := b.isLt; have b3 := m.isLt
  have e : w = 0x84000013 + d.toNat * 0x200000 + a.toNat * 0x10000 + b.toNat * 0x400 + m.toNat * 0x80 := (Option.some.inj h).symm
  have f6_0 : field w 6 0 = 0x13 := by unfold field; omega
  have v0 : bits 5 w 21 = d := bits_eq _ (by omega)
  have v1 : bits 5 w 16 = a := bits_eq _ (by omega)
  have v2 : bits 6 w 10 = b := bits_eq _ (by omega)
  have v3 : bits 3 w 7 = m := bits_eq _ (by omega)
  refine row_ok (r := .arith (.vwaddVs d a b m)) (row21 (by omega) ?_) wf (by omega)
  simp only [decodeMajor21, f6_0, v0, v1, v2, v3]; rfl

theorem encodes.vwmulVs (d : BitVec 5) (a : BitVec 5) (b : BitVec 6) (m : BitVec 3) : encodes.Statement (.vwmulVs d a b m) := by
  intro w h wf
  have b0 := d.isLt; have b1 := a.isLt; have b2 := b.isLt; have b3 := m.isLt
  have e : w = 0x84000014 + d.toNat * 0x200000 + a.toNat * 0x10000 + b.toNat * 0x400 + m.toNat * 0x80 := (Option.some.inj h).symm
  have f6_0 : field w 6 0 = 0x14 := by unfold field; omega
  have v0 : bits 5 w 21 = d := bits_eq _ (by omega)
  have v1 : bits 5 w 16 = a := bits_eq _ (by omega)
  have v2 : bits 6 w 10 = b := bits_eq _ (by omega)
  have v3 : bits 3 w 7 = m := bits_eq _ (by omega)
  refine row_ok (r := .arith (.vwmulVs d a b m)) (row21 (by omega) ?_) wf (by omega)
  simp only [decodeMajor21, f6_0, v0, v1, v2, v3]; rfl

theorem encodes.vnshrVs (d : BitVec 5) (a : BitVec 5) (b : BitVec 6) (m : BitVec 3) : encodes.Statement (.vnshrVs d a b m) := by
  intro w h wf
  have b0 := d.isLt; have b1 := a.isLt; have b2 := b.isLt; have b3 := m.isLt
  have e : w = 0x84000015 + d.toNat * 0x200000 + a.toNat * 0x10000 + b.toNat * 0x400 + m.toNat * 0x80 := (Option.some.inj h).symm
  have f6_0 : field w 6 0 = 0x15 := by unfold field; omega
  have v0 : bits 5 w 21 = d := bits_eq _ (by omega)
  have v1 : bits 5 w 16 = a := bits_eq _ (by omega)
  have v2 : bits 6 w 10 = b := bits_eq _ (by omega)
  have v3 : bits 3 w 7 = m := bits_eq _ (by omega)
  refine row_ok (r := .arith (.vnshrVs d a b m)) (row21 (by omega) ?_) wf (by omega)
  simp only [decodeMajor21, f6_0, v0, v1, v2, v3]; rfl

theorem encodes.vdot4Vs (d : BitVec 5) (a : BitVec 5) (b : BitVec 6) (m : BitVec 3) : encodes.Statement (.vdot4Vs d a b m) := by
  intro w h wf
  have b0 := d.isLt; have b1 := a.isLt; have b2 := b.isLt; have b3 := m.isLt
  have e : w = 0x84000016 + d.toNat * 0x200000 + a.toNat * 0x10000 + b.toNat * 0x400 + m.toNat * 0x80 := (Option.some.inj h).symm
  have f6_0 : field w 6 0 = 0x16 := by unfold field; omega
  have v0 : bits 5 w 21 = d := bits_eq _ (by omega)
  have v1 : bits 5 w 16 = a := bits_eq _ (by omega)
  have v2 : bits 6 w 10 = b := bits_eq _ (by omega)
  have v3 : bits 3 w 7 = m := bits_eq _ (by omega)
  refine row_ok (r := .arith (.vdot4Vs d a b m)) (row21 (by omega) ?_) wf (by omega)
  simp only [decodeMajor21, f6_0, v0, v1, v2, v3]; rfl

theorem encodes.vfadd (d : BitVec 5) (a : BitVec 5) (b : BitVec 5) (m : BitVec 3) : encodes.Statement (.vfadd d a b m) := by
  intro w h wf
  have b0 := d.isLt; have b1 := a.isLt; have b2 := b.isLt; have b3 := m.isLt
  have e : w = 0x88000000 + d.toNat * 0x200000 + a.toNat * 0x10000 + b.toNat * 0x800 + m.toNat * 0x100 := (Option.some.inj h).symm
  have f7_0 : field w 7 0 = 0x0 := by unfold field; omega
  have v0 : bits 5 w 21 = d := bits_eq _ (by omega)
  have v1 : bits 5 w 16 = a := bits_eq _ (by omega)
  have v2 : bits 5 w 11 = b := bits_eq _ (by omega)
  have v3 : bits 3 w 8 = m := bits_eq _ (by omega)
  refine row_ok (r := .arith (.vfadd d a b m)) (row22 (by omega) ?_) wf (by omega)
  simp only [decodeMajor22, f7_0, v0, v1, v2, v3]; rfl

theorem encodes.vfsub (d : BitVec 5) (a : BitVec 5) (b : BitVec 5) (m : BitVec 3) : encodes.Statement (.vfsub d a b m) := by
  intro w h wf
  have b0 := d.isLt; have b1 := a.isLt; have b2 := b.isLt; have b3 := m.isLt
  have e : w = 0x88000001 + d.toNat * 0x200000 + a.toNat * 0x10000 + b.toNat * 0x800 + m.toNat * 0x100 := (Option.some.inj h).symm
  have f7_0 : field w 7 0 = 0x1 := by unfold field; omega
  have v0 : bits 5 w 21 = d := bits_eq _ (by omega)
  have v1 : bits 5 w 16 = a := bits_eq _ (by omega)
  have v2 : bits 5 w 11 = b := bits_eq _ (by omega)
  have v3 : bits 3 w 8 = m := bits_eq _ (by omega)
  refine row_ok (r := .arith (.vfsub d a b m)) (row22 (by omega) ?_) wf (by omega)
  simp only [decodeMajor22, f7_0, v0, v1, v2, v3]; rfl

theorem encodes.vfmul (d : BitVec 5) (a : BitVec 5) (b : BitVec 5) (m : BitVec 3) : encodes.Statement (.vfmul d a b m) := by
  intro w h wf
  have b0 := d.isLt; have b1 := a.isLt; have b2 := b.isLt; have b3 := m.isLt
  have e : w = 0x88000002 + d.toNat * 0x200000 + a.toNat * 0x10000 + b.toNat * 0x800 + m.toNat * 0x100 := (Option.some.inj h).symm
  have f7_0 : field w 7 0 = 0x2 := by unfold field; omega
  have v0 : bits 5 w 21 = d := bits_eq _ (by omega)
  have v1 : bits 5 w 16 = a := bits_eq _ (by omega)
  have v2 : bits 5 w 11 = b := bits_eq _ (by omega)
  have v3 : bits 3 w 8 = m := bits_eq _ (by omega)
  refine row_ok (r := .arith (.vfmul d a b m)) (row22 (by omega) ?_) wf (by omega)
  simp only [decodeMajor22, f7_0, v0, v1, v2, v3]; rfl

theorem encodes.vfdiv (d : BitVec 5) (a : BitVec 5) (b : BitVec 5) (m : BitVec 3) : encodes.Statement (.vfdiv d a b m) := by
  intro w h wf
  have b0 := d.isLt; have b1 := a.isLt; have b2 := b.isLt; have b3 := m.isLt
  have e : w = 0x88000003 + d.toNat * 0x200000 + a.toNat * 0x10000 + b.toNat * 0x800 + m.toNat * 0x100 := (Option.some.inj h).symm
  have f7_0 : field w 7 0 = 0x3 := by unfold field; omega
  have v0 : bits 5 w 21 = d := bits_eq _ (by omega)
  have v1 : bits 5 w 16 = a := bits_eq _ (by omega)
  have v2 : bits 5 w 11 = b := bits_eq _ (by omega)
  have v3 : bits 3 w 8 = m := bits_eq _ (by omega)
  refine row_ok (r := .arith (.vfdiv d a b m)) (row22 (by omega) ?_) wf (by omega)
  simp only [decodeMajor22, f7_0, v0, v1, v2, v3]; rfl

theorem encodes.vfsqrt (d : BitVec 5) (a : BitVec 5) (m : BitVec 3) : encodes.Statement (.vfsqrt d a m) := by
  intro w h wf
  have b0 := d.isLt; have b1 := a.isLt; have b2 := m.isLt
  have e : w = 0x88000004 + d.toNat * 0x200000 + a.toNat * 0x10000 + m.toNat * 0x100 := (Option.some.inj h).symm
  have f7_0 : field w 7 0 = 0x4 := by unfold field; omega
  have f15_11 : field w 15 11 = 0x0 := by unfold field; omega
  have v0 : bits 5 w 21 = d := bits_eq _ (by omega)
  have v1 : bits 5 w 16 = a := bits_eq _ (by omega)
  have v2 : bits 3 w 8 = m := bits_eq _ (by omega)
  refine row_ok (r := .arith (.vfsqrt d a m)) (row22 (by omega) ?_) wf (by omega)
  simp only [decodeMajor22, f7_0, f15_11, v0, v1, v2]; rfl

theorem encodes.vfma (d : BitVec 5) (a : BitVec 5) (b : BitVec 5) (m : BitVec 3) : encodes.Statement (.vfma d a b m) := by
  intro w h wf
  have b0 := d.isLt; have b1 := a.isLt; have b2 := b.isLt; have b3 := m.isLt
  have e : w = 0x88000005 + d.toNat * 0x200000 + a.toNat * 0x10000 + b.toNat * 0x800 + m.toNat * 0x100 := (Option.some.inj h).symm
  have f7_0 : field w 7 0 = 0x5 := by unfold field; omega
  have v0 : bits 5 w 21 = d := bits_eq _ (by omega)
  have v1 : bits 5 w 16 = a := bits_eq _ (by omega)
  have v2 : bits 5 w 11 = b := bits_eq _ (by omega)
  have v3 : bits 3 w 8 = m := bits_eq _ (by omega)
  refine row_ok (r := .arith (.vfma d a b m)) (row22 (by omega) ?_) wf (by omega)
  simp only [decodeMajor22, f7_0, v0, v1, v2, v3]; rfl

theorem encodes.vfnms (d : BitVec 5) (a : BitVec 5) (b : BitVec 5) (m : BitVec 3) : encodes.Statement (.vfnms d a b m) := by
  intro w h wf
  have b0 := d.isLt; have b1 := a.isLt; have b2 := b.isLt; have b3 := m.isLt
  have e : w = 0x88000006 + d.toNat * 0x200000 + a.toNat * 0x10000 + b.toNat * 0x800 + m.toNat * 0x100 := (Option.some.inj h).symm
  have f7_0 : field w 7 0 = 0x6 := by unfold field; omega
  have v0 : bits 5 w 21 = d := bits_eq _ (by omega)
  have v1 : bits 5 w 16 = a := bits_eq _ (by omega)
  have v2 : bits 5 w 11 = b := bits_eq _ (by omega)
  have v3 : bits 3 w 8 = m := bits_eq _ (by omega)
  refine row_ok (r := .arith (.vfnms d a b m)) (row22 (by omega) ?_) wf (by omega)
  simp only [decodeMajor22, f7_0, v0, v1, v2, v3]; rfl

theorem encodes.vfmin (d : BitVec 5) (a : BitVec 5) (b : BitVec 5) (m : BitVec 3) : encodes.Statement (.vfmin d a b m) := by
  intro w h wf
  have b0 := d.isLt; have b1 := a.isLt; have b2 := b.isLt; have b3 := m.isLt
  have e : w = 0x88000007 + d.toNat * 0x200000 + a.toNat * 0x10000 + b.toNat * 0x800 + m.toNat * 0x100 := (Option.some.inj h).symm
  have f7_0 : field w 7 0 = 0x7 := by unfold field; omega
  have v0 : bits 5 w 21 = d := bits_eq _ (by omega)
  have v1 : bits 5 w 16 = a := bits_eq _ (by omega)
  have v2 : bits 5 w 11 = b := bits_eq _ (by omega)
  have v3 : bits 3 w 8 = m := bits_eq _ (by omega)
  refine row_ok (r := .arith (.vfmin d a b m)) (row22 (by omega) ?_) wf (by omega)
  simp only [decodeMajor22, f7_0, v0, v1, v2, v3]; rfl

theorem encodes.vfmax (d : BitVec 5) (a : BitVec 5) (b : BitVec 5) (m : BitVec 3) : encodes.Statement (.vfmax d a b m) := by
  intro w h wf
  have b0 := d.isLt; have b1 := a.isLt; have b2 := b.isLt; have b3 := m.isLt
  have e : w = 0x88000008 + d.toNat * 0x200000 + a.toNat * 0x10000 + b.toNat * 0x800 + m.toNat * 0x100 := (Option.some.inj h).symm
  have f7_0 : field w 7 0 = 0x8 := by unfold field; omega
  have v0 : bits 5 w 21 = d := bits_eq _ (by omega)
  have v1 : bits 5 w 16 = a := bits_eq _ (by omega)
  have v2 : bits 5 w 11 = b := bits_eq _ (by omega)
  have v3 : bits 3 w 8 = m := bits_eq _ (by omega)
  refine row_ok (r := .arith (.vfmax d a b m)) (row22 (by omega) ?_) wf (by omega)
  simp only [decodeMajor22, f7_0, v0, v1, v2, v3]; rfl

theorem encodes.vfcvt (d : BitVec 5) (a : BitVec 5) (t : BitVec 5) (m : BitVec 3) : encodes.Statement (.vfcvt d a t m) := by
  intro w h wf
  have b0 := d.isLt; have b1 := a.isLt; have b2 := t.isLt; have b3 := m.isLt
  have e : w = 0x88000009 + d.toNat * 0x200000 + a.toNat * 0x10000 + t.toNat * 0x800 + m.toNat * 0x100 := (Option.some.inj h).symm
  have f7_0 : field w 7 0 = 0x9 := by unfold field; omega
  have v0 : bits 5 w 21 = d := bits_eq _ (by omega)
  have v1 : bits 5 w 16 = a := bits_eq _ (by omega)
  have v2 : bits 5 w 11 = t := bits_eq _ (by omega)
  have v3 : bits 3 w 8 = m := bits_eq _ (by omega)
  refine row_ok (r := .arith (.vfcvt d a t m)) (row22 (by omega) ?_) wf (by omega)
  simp only [decodeMajor22, f7_0, v0, v1, v2, v3]; rfl

theorem encodes.vfcvtSat (d : BitVec 5) (a : BitVec 5) (t : BitVec 5) (m : BitVec 3) : encodes.Statement (.vfcvtSat d a t m) := by
  intro w h wf
  have b0 := d.isLt; have b1 := a.isLt; have b2 := t.isLt; have b3 := m.isLt
  have e : w = 0x8800000a + d.toNat * 0x200000 + a.toNat * 0x10000 + t.toNat * 0x800 + m.toNat * 0x100 := (Option.some.inj h).symm
  have f7_0 : field w 7 0 = 0xa := by unfold field; omega
  have v0 : bits 5 w 21 = d := bits_eq _ (by omega)
  have v1 : bits 5 w 16 = a := bits_eq _ (by omega)
  have v2 : bits 5 w 11 = t := bits_eq _ (by omega)
  have v3 : bits 3 w 8 = m := bits_eq _ (by omega)
  refine row_ok (r := .arith (.vfcvtSat d a t m)) (row22 (by omega) ?_) wf (by omega)
  simp only [decodeMajor22, f7_0, v0, v1, v2, v3]; rfl

theorem encodes.vfrec (d : BitVec 5) (a : BitVec 5) (m : BitVec 3) : encodes.Statement (.vfrec d a m) := by
  intro w h wf
  have b0 := d.isLt; have b1 := a.isLt; have b2 := m.isLt
  have e : w = 0x8800000b + d.toNat * 0x200000 + a.toNat * 0x10000 + m.toNat * 0x100 := (Option.some.inj h).symm
  have f7_0 : field w 7 0 = 0xb := by unfold field; omega
  have f15_11 : field w 15 11 = 0x0 := by unfold field; omega
  have v0 : bits 5 w 21 = d := bits_eq _ (by omega)
  have v1 : bits 5 w 16 = a := bits_eq _ (by omega)
  have v2 : bits 3 w 8 = m := bits_eq _ (by omega)
  refine row_ok (r := .arith (.vfrec d a m)) (row22 (by omega) ?_) wf (by omega)
  simp only [decodeMajor22, f7_0, f15_11, v0, v1, v2]; rfl

theorem encodes.vfrsq (d : BitVec 5) (a : BitVec 5) (m : BitVec 3) : encodes.Statement (.vfrsq d a m) := by
  intro w h wf
  have b0 := d.isLt; have b1 := a.isLt; have b2 := m.isLt
  have e : w = 0x8800000c + d.toNat * 0x200000 + a.toNat * 0x10000 + m.toNat * 0x100 := (Option.some.inj h).symm
  have f7_0 : field w 7 0 = 0xc := by unfold field; omega
  have f15_11 : field w 15 11 = 0x0 := by unfold field; omega
  have v0 : bits 5 w 21 = d := bits_eq _ (by omega)
  have v1 : bits 5 w 16 = a := bits_eq _ (by omega)
  have v2 : bits 3 w 8 = m := bits_eq _ (by omega)
  refine row_ok (r := .arith (.vfrsq d a m)) (row22 (by omega) ?_) wf (by omega)
  simp only [decodeMajor22, f7_0, f15_11, v0, v1, v2]; rfl

theorem encodes.vfexp2 (d : BitVec 5) (a : BitVec 5) (m : BitVec 3) : encodes.Statement (.vfexp2 d a m) := by
  intro w h wf
  have b0 := d.isLt; have b1 := a.isLt; have b2 := m.isLt
  have e : w = 0x8800000d + d.toNat * 0x200000 + a.toNat * 0x10000 + m.toNat * 0x100 := (Option.some.inj h).symm
  have f7_0 : field w 7 0 = 0xd := by unfold field; omega
  have f15_11 : field w 15 11 = 0x0 := by unfold field; omega
  have v0 : bits 5 w 21 = d := bits_eq _ (by omega)
  have v1 : bits 5 w 16 = a := bits_eq _ (by omega)
  have v2 : bits 3 w 8 = m := bits_eq _ (by omega)
  refine row_ok (r := .arith (.vfexp2 d a m)) (row22 (by omega) ?_) wf (by omega)
  simp only [decodeMajor22, f7_0, f15_11, v0, v1, v2]; rfl

theorem encodes.vfclass (d : BitVec 5) (a : BitVec 5) (m : BitVec 3) : encodes.Statement (.vfclass d a m) := by
  intro w h wf
  have b0 := d.isLt; have b1 := a.isLt; have b2 := m.isLt
  have e : w = 0x8800000e + d.toNat * 0x200000 + a.toNat * 0x10000 + m.toNat * 0x100 := (Option.some.inj h).symm
  have f7_0 : field w 7 0 = 0xe := by unfold field; omega
  have f15_11 : field w 15 11 = 0x0 := by unfold field; omega
  have v0 : bits 5 w 21 = d := bits_eq _ (by omega)
  have v1 : bits 5 w 16 = a := bits_eq _ (by omega)
  have v2 : bits 3 w 8 = m := bits_eq _ (by omega)
  refine row_ok (r := .arith (.vfclass d a m)) (row22 (by omega) ?_) wf (by omega)
  simp only [decodeMajor22, f7_0, f15_11, v0, v1, v2]; rfl

theorem encodes.vfaddVs (d : BitVec 5) (a : BitVec 5) (b : BitVec 6) (m : BitVec 3) : encodes.Statement (.vfaddVs d a b m) := by
  intro w h wf
  have b0 := d.isLt; have b1 := a.isLt; have b2 := b.isLt; have b3 := m.isLt
  have e : w = 0x8c000000 + d.toNat * 0x200000 + a.toNat * 0x10000 + b.toNat * 0x400 + m.toNat * 0x80 := (Option.some.inj h).symm
  have f6_0 : field w 6 0 = 0x0 := by unfold field; omega
  have v0 : bits 5 w 21 = d := bits_eq _ (by omega)
  have v1 : bits 5 w 16 = a := bits_eq _ (by omega)
  have v2 : bits 6 w 10 = b := bits_eq _ (by omega)
  have v3 : bits 3 w 7 = m := bits_eq _ (by omega)
  refine row_ok (r := .arith (.vfaddVs d a b m)) (row23 (by omega) ?_) wf (by omega)
  simp only [decodeMajor23, f6_0, v0, v1, v2, v3]; rfl

theorem encodes.vfsubVs (d : BitVec 5) (a : BitVec 5) (b : BitVec 6) (m : BitVec 3) : encodes.Statement (.vfsubVs d a b m) := by
  intro w h wf
  have b0 := d.isLt; have b1 := a.isLt; have b2 := b.isLt; have b3 := m.isLt
  have e : w = 0x8c000001 + d.toNat * 0x200000 + a.toNat * 0x10000 + b.toNat * 0x400 + m.toNat * 0x80 := (Option.some.inj h).symm
  have f6_0 : field w 6 0 = 0x1 := by unfold field; omega
  have v0 : bits 5 w 21 = d := bits_eq _ (by omega)
  have v1 : bits 5 w 16 = a := bits_eq _ (by omega)
  have v2 : bits 6 w 10 = b := bits_eq _ (by omega)
  have v3 : bits 3 w 7 = m := bits_eq _ (by omega)
  refine row_ok (r := .arith (.vfsubVs d a b m)) (row23 (by omega) ?_) wf (by omega)
  simp only [decodeMajor23, f6_0, v0, v1, v2, v3]; rfl

theorem encodes.vfmulVs (d : BitVec 5) (a : BitVec 5) (b : BitVec 6) (m : BitVec 3) : encodes.Statement (.vfmulVs d a b m) := by
  intro w h wf
  have b0 := d.isLt; have b1 := a.isLt; have b2 := b.isLt; have b3 := m.isLt
  have e : w = 0x8c000002 + d.toNat * 0x200000 + a.toNat * 0x10000 + b.toNat * 0x400 + m.toNat * 0x80 := (Option.some.inj h).symm
  have f6_0 : field w 6 0 = 0x2 := by unfold field; omega
  have v0 : bits 5 w 21 = d := bits_eq _ (by omega)
  have v1 : bits 5 w 16 = a := bits_eq _ (by omega)
  have v2 : bits 6 w 10 = b := bits_eq _ (by omega)
  have v3 : bits 3 w 7 = m := bits_eq _ (by omega)
  refine row_ok (r := .arith (.vfmulVs d a b m)) (row23 (by omega) ?_) wf (by omega)
  simp only [decodeMajor23, f6_0, v0, v1, v2, v3]; rfl

theorem encodes.vfdivVs (d : BitVec 5) (a : BitVec 5) (b : BitVec 6) (m : BitVec 3) : encodes.Statement (.vfdivVs d a b m) := by
  intro w h wf
  have b0 := d.isLt; have b1 := a.isLt; have b2 := b.isLt; have b3 := m.isLt
  have e : w = 0x8c000003 + d.toNat * 0x200000 + a.toNat * 0x10000 + b.toNat * 0x400 + m.toNat * 0x80 := (Option.some.inj h).symm
  have f6_0 : field w 6 0 = 0x3 := by unfold field; omega
  have v0 : bits 5 w 21 = d := bits_eq _ (by omega)
  have v1 : bits 5 w 16 = a := bits_eq _ (by omega)
  have v2 : bits 6 w 10 = b := bits_eq _ (by omega)
  have v3 : bits 3 w 7 = m := bits_eq _ (by omega)
  refine row_ok (r := .arith (.vfdivVs d a b m)) (row23 (by omega) ?_) wf (by omega)
  simp only [decodeMajor23, f6_0, v0, v1, v2, v3]; rfl

theorem encodes.vfmaVs (d : BitVec 5) (a : BitVec 5) (b : BitVec 6) (m : BitVec 3) : encodes.Statement (.vfmaVs d a b m) := by
  intro w h wf
  have b0 := d.isLt; have b1 := a.isLt; have b2 := b.isLt; have b3 := m.isLt
  have e : w = 0x8c000005 + d.toNat * 0x200000 + a.toNat * 0x10000 + b.toNat * 0x400 + m.toNat * 0x80 := (Option.some.inj h).symm
  have f6_0 : field w 6 0 = 0x5 := by unfold field; omega
  have v0 : bits 5 w 21 = d := bits_eq _ (by omega)
  have v1 : bits 5 w 16 = a := bits_eq _ (by omega)
  have v2 : bits 6 w 10 = b := bits_eq _ (by omega)
  have v3 : bits 3 w 7 = m := bits_eq _ (by omega)
  refine row_ok (r := .arith (.vfmaVs d a b m)) (row23 (by omega) ?_) wf (by omega)
  simp only [decodeMajor23, f6_0, v0, v1, v2, v3]; rfl

theorem encodes.vfnmsVs (d : BitVec 5) (a : BitVec 5) (b : BitVec 6) (m : BitVec 3) : encodes.Statement (.vfnmsVs d a b m) := by
  intro w h wf
  have b0 := d.isLt; have b1 := a.isLt; have b2 := b.isLt; have b3 := m.isLt
  have e : w = 0x8c000006 + d.toNat * 0x200000 + a.toNat * 0x10000 + b.toNat * 0x400 + m.toNat * 0x80 := (Option.some.inj h).symm
  have f6_0 : field w 6 0 = 0x6 := by unfold field; omega
  have v0 : bits 5 w 21 = d := bits_eq _ (by omega)
  have v1 : bits 5 w 16 = a := bits_eq _ (by omega)
  have v2 : bits 6 w 10 = b := bits_eq _ (by omega)
  have v3 : bits 3 w 7 = m := bits_eq _ (by omega)
  refine row_ok (r := .arith (.vfnmsVs d a b m)) (row23 (by omega) ?_) wf (by omega)
  simp only [decodeMajor23, f6_0, v0, v1, v2, v3]; rfl

theorem encodes.vfminVs (d : BitVec 5) (a : BitVec 5) (b : BitVec 6) (m : BitVec 3) : encodes.Statement (.vfminVs d a b m) := by
  intro w h wf
  have b0 := d.isLt; have b1 := a.isLt; have b2 := b.isLt; have b3 := m.isLt
  have e : w = 0x8c000007 + d.toNat * 0x200000 + a.toNat * 0x10000 + b.toNat * 0x400 + m.toNat * 0x80 := (Option.some.inj h).symm
  have f6_0 : field w 6 0 = 0x7 := by unfold field; omega
  have v0 : bits 5 w 21 = d := bits_eq _ (by omega)
  have v1 : bits 5 w 16 = a := bits_eq _ (by omega)
  have v2 : bits 6 w 10 = b := bits_eq _ (by omega)
  have v3 : bits 3 w 7 = m := bits_eq _ (by omega)
  refine row_ok (r := .arith (.vfminVs d a b m)) (row23 (by omega) ?_) wf (by omega)
  simp only [decodeMajor23, f6_0, v0, v1, v2, v3]; rfl

theorem encodes.vfmaxVs (d : BitVec 5) (a : BitVec 5) (b : BitVec 6) (m : BitVec 3) : encodes.Statement (.vfmaxVs d a b m) := by
  intro w h wf
  have b0 := d.isLt; have b1 := a.isLt; have b2 := b.isLt; have b3 := m.isLt
  have e : w = 0x8c000008 + d.toNat * 0x200000 + a.toNat * 0x10000 + b.toNat * 0x400 + m.toNat * 0x80 := (Option.some.inj h).symm
  have f6_0 : field w 6 0 = 0x8 := by unfold field; omega
  have v0 : bits 5 w 21 = d := bits_eq _ (by omega)
  have v1 : bits 5 w 16 = a := bits_eq _ (by omega)
  have v2 : bits 6 w 10 = b := bits_eq _ (by omega)
  have v3 : bits 3 w 7 = m := bits_eq _ (by omega)
  refine row_ok (r := .arith (.vfmaxVs d a b m)) (row23 (by omega) ?_) wf (by omega)
  simp only [decodeMajor23, f6_0, v0, v1, v2, v3]; rfl

theorem encodes.mand (d : BitVec 3) (a : BitVec 3) (b : BitVec 3) : encodes.Statement (.mand d a b) := by
  intro w h wf
  have b0 := d.isLt; have b1 := a.isLt; have b2 := b.isLt
  have e : w = 0x90000000 + d.toNat * 0x200000 + a.toNat * 0x10000 + b.toNat * 0x800 := (Option.some.inj h).symm
  have f10_0 : field w 10 0 = 0x0 := by unfold field; omega
  have f15_14 : field w 15 14 = 0x0 := by unfold field; omega
  have f20_19 : field w 20 19 = 0x0 := by unfold field; omega
  have f25_24 : field w 25 24 = 0x0 := by unfold field; omega
  have v0 : bits 3 w 21 = d := bits_eq _ (by omega)
  have v1 : bits 3 w 16 = a := bits_eq _ (by omega)
  have v2 : bits 3 w 11 = b := bits_eq _ (by omega)
  refine row_ok (r := .arith (.mand d a b)) (row24 (by omega) ?_) wf (by omega)
  simp only [decodeMajor24, f10_0, f15_14, f20_19, f25_24, v0, v1, v2]; rfl

theorem encodes.mor (d : BitVec 3) (a : BitVec 3) (b : BitVec 3) : encodes.Statement (.mor d a b) := by
  intro w h wf
  have b0 := d.isLt; have b1 := a.isLt; have b2 := b.isLt
  have e : w = 0x90000001 + d.toNat * 0x200000 + a.toNat * 0x10000 + b.toNat * 0x800 := (Option.some.inj h).symm
  have f10_0 : field w 10 0 = 0x1 := by unfold field; omega
  have f15_14 : field w 15 14 = 0x0 := by unfold field; omega
  have f20_19 : field w 20 19 = 0x0 := by unfold field; omega
  have f25_24 : field w 25 24 = 0x0 := by unfold field; omega
  have v0 : bits 3 w 21 = d := bits_eq _ (by omega)
  have v1 : bits 3 w 16 = a := bits_eq _ (by omega)
  have v2 : bits 3 w 11 = b := bits_eq _ (by omega)
  refine row_ok (r := .arith (.mor d a b)) (row24 (by omega) ?_) wf (by omega)
  simp only [decodeMajor24, f10_0, f15_14, f20_19, f25_24, v0, v1, v2]; rfl

theorem encodes.mxor (d : BitVec 3) (a : BitVec 3) (b : BitVec 3) : encodes.Statement (.mxor d a b) := by
  intro w h wf
  have b0 := d.isLt; have b1 := a.isLt; have b2 := b.isLt
  have e : w = 0x90000002 + d.toNat * 0x200000 + a.toNat * 0x10000 + b.toNat * 0x800 := (Option.some.inj h).symm
  have f10_0 : field w 10 0 = 0x2 := by unfold field; omega
  have f15_14 : field w 15 14 = 0x0 := by unfold field; omega
  have f20_19 : field w 20 19 = 0x0 := by unfold field; omega
  have f25_24 : field w 25 24 = 0x0 := by unfold field; omega
  have v0 : bits 3 w 21 = d := bits_eq _ (by omega)
  have v1 : bits 3 w 16 = a := bits_eq _ (by omega)
  have v2 : bits 3 w 11 = b := bits_eq _ (by omega)
  refine row_ok (r := .arith (.mxor d a b)) (row24 (by omega) ?_) wf (by omega)
  simp only [decodeMajor24, f10_0, f15_14, f20_19, f25_24, v0, v1, v2]; rfl

theorem encodes.mandn (d : BitVec 3) (a : BitVec 3) (b : BitVec 3) : encodes.Statement (.mandn d a b) := by
  intro w h wf
  have b0 := d.isLt; have b1 := a.isLt; have b2 := b.isLt
  have e : w = 0x90000003 + d.toNat * 0x200000 + a.toNat * 0x10000 + b.toNat * 0x800 := (Option.some.inj h).symm
  have f10_0 : field w 10 0 = 0x3 := by unfold field; omega
  have f15_14 : field w 15 14 = 0x0 := by unfold field; omega
  have f20_19 : field w 20 19 = 0x0 := by unfold field; omega
  have f25_24 : field w 25 24 = 0x0 := by unfold field; omega
  have v0 : bits 3 w 21 = d := bits_eq _ (by omega)
  have v1 : bits 3 w 16 = a := bits_eq _ (by omega)
  have v2 : bits 3 w 11 = b := bits_eq _ (by omega)
  refine row_ok (r := .arith (.mandn d a b)) (row24 (by omega) ?_) wf (by omega)
  simp only [decodeMajor24, f10_0, f15_14, f20_19, f25_24, v0, v1, v2]; rfl

theorem encodes.mpopc (d : BitVec 5) (a : BitVec 3) (m : BitVec 3) : encodes.Statement (.mpopc d a m) := by
  intro w h wf
  have b0 := d.isLt; have b1 := a.isLt; have b2 := m.isLt
  have e : w = 0x90000004 + d.toNat * 0x200000 + a.toNat * 0x10000 + m.toNat * 0x100 := (Option.some.inj h).symm
  have f7_0 : field w 7 0 = 0x4 := by unfold field; omega
  have f15_11 : field w 15 11 = 0x0 := by unfold field; omega
  have f15_14 : field w 15 14 = 0x0 := by unfold field; omega
  have f20_19 : field w 20 19 = 0x0 := by unfold field; omega
  have n1 : (field w 10 0 = 0) = False := eq_false (by unfold field; omega)
  have n2 : (field w 10 0 = 1) = False := eq_false (by unfold field; omega)
  have n3 : (field w 10 0 = 2) = False := eq_false (by unfold field; omega)
  have n4 : (field w 10 0 = 3) = False := eq_false (by unfold field; omega)
  have v0 : bits 5 w 21 = d := bits_eq _ (by omega)
  have v1 : bits 3 w 16 = a := bits_eq _ (by omega)
  have v2 : bits 3 w 8 = m := bits_eq _ (by omega)
  refine row_ok (r := .arith (.mpopc d a m)) (row24 (by omega) ?_) wf (by omega)
  simp only [decodeMajor24, n4, n3, n2, n1, f7_0, f15_11, f15_14, f20_19, v0, v1, v2]; rfl

theorem encodes.mffs (d : BitVec 5) (a : BitVec 3) (m : BitVec 3) : encodes.Statement (.mffs d a m) := by
  intro w h wf
  have b0 := d.isLt; have b1 := a.isLt; have b2 := m.isLt
  have e : w = 0x90000005 + d.toNat * 0x200000 + a.toNat * 0x10000 + m.toNat * 0x100 := (Option.some.inj h).symm
  have f7_0 : field w 7 0 = 0x5 := by unfold field; omega
  have f15_11 : field w 15 11 = 0x0 := by unfold field; omega
  have f15_14 : field w 15 14 = 0x0 := by unfold field; omega
  have f20_19 : field w 20 19 = 0x0 := by unfold field; omega
  have n1 : (field w 10 0 = 0) = False := eq_false (by unfold field; omega)
  have n2 : (field w 10 0 = 1) = False := eq_false (by unfold field; omega)
  have n3 : (field w 10 0 = 2) = False := eq_false (by unfold field; omega)
  have n4 : (field w 10 0 = 3) = False := eq_false (by unfold field; omega)
  have v0 : bits 5 w 21 = d := bits_eq _ (by omega)
  have v1 : bits 3 w 16 = a := bits_eq _ (by omega)
  have v2 : bits 3 w 8 = m := bits_eq _ (by omega)
  refine row_ok (r := .arith (.mffs d a m)) (row24 (by omega) ?_) wf (by omega)
  simp only [decodeMajor24, n4, n3, n2, n1, f7_0, f15_11, f15_14, f20_19, v0, v1, v2]; rfl

theorem encodes.msbf (d : BitVec 3) (a : BitVec 3) (m : BitVec 3) : encodes.Statement (.msbf d a m) := by
  intro w h wf
  have b0 := d.isLt; have b1 := a.isLt; have b2 := m.isLt
  have e : w = 0x90000006 + d.toNat * 0x200000 + a.toNat * 0x10000 + m.toNat * 0x100 := (Option.some.inj h).symm
  have f7_0 : field w 7 0 = 0x6 := by unfold field; omega
  have f15_11 : field w 15 11 = 0x0 := by unfold field; omega
  have f15_14 : field w 15 14 = 0x0 := by unfold field; omega
  have f20_19 : field w 20 19 = 0x0 := by unfold field; omega
  have f25_24 : field w 25 24 = 0x0 := by unfold field; omega
  have n1 : (field w 10 0 = 0) = False := eq_false (by unfold field; omega)
  have n2 : (field w 10 0 = 1) = False := eq_false (by unfold field; omega)
  have n3 : (field w 10 0 = 2) = False := eq_false (by unfold field; omega)
  have n4 : (field w 10 0 = 3) = False := eq_false (by unfold field; omega)
  have v0 : bits 3 w 21 = d := bits_eq _ (by omega)
  have v1 : bits 3 w 16 = a := bits_eq _ (by omega)
  have v2 : bits 3 w 8 = m := bits_eq _ (by omega)
  refine row_ok (r := .arith (.msbf d a m)) (row24 (by omega) ?_) wf (by omega)
  simp only [decodeMajor24, n4, n3, n2, n1, f7_0, f15_11, f15_14, f20_19, f25_24, v0, v1, v2]; rfl

theorem encodes.mset (d : BitVec 3) : encodes.Statement (.mset d) := by
  intro w h wf
  have b0 := d.isLt
  have e : w = 0x90000007 + d.toNat * 0x200000 := (Option.some.inj h).symm
  have f7_0 : field w 7 0 = 0x7 := by unfold field; omega
  have f10_0 : field w 10 0 = 0x7 := by unfold field; omega
  have f15_11 : field w 15 11 = 0x0 := by unfold field; omega
  have f15_14 : field w 15 14 = 0x0 := by unfold field; omega
  have f20_0 : field w 20 0 = 0x7 := by unfold field; omega
  have f20_19 : field w 20 19 = 0x0 := by unfold field; omega
  have f25_24 : field w 25 24 = 0x0 := by unfold field; omega
  have v0 : bits 3 w 21 = d := bits_eq _ (by omega)
  refine row_ok (r := .arith (.mset d)) (row24 (by omega) ?_) wf (by omega)
  simp only [decodeMajor24, f7_0, f10_0, f15_11, f15_14, f20_0, f20_19, f25_24, v0]; rfl

theorem encodes.mfromv (d : BitVec 3) (a : BitVec 5) (m : BitVec 3) : encodes.Statement (.mfromv d a m) := by
  intro w h wf
  have b0 := d.isLt; have b1 := a.isLt; have b2 := m.isLt
  have e : w = 0x90000008 + d.toNat * 0x200000 + a.toNat * 0x10000 + m.toNat * 0x100 := (Option.some.inj h).symm
  have f7_0 : field w 7 0 = 0x8 := by unfold field; omega
  have f15_11 : field w 15 11 = 0x0 := by unfold field; omega
  have f15_14 : field w 15 14 = 0x0 := by unfold field; omega
  have f25_24 : field w 25 24 = 0x0 := by unfold field; omega
  have n1 : (field w 10 0 = 0) = False := eq_false (by unfold field; omega)
  have n2 : (field w 10 0 = 1) = False := eq_false (by unfold field; omega)
  have n3 : (field w 10 0 = 2) = False := eq_false (by unfold field; omega)
  have n4 : (field w 10 0 = 3) = False := eq_false (by unfold field; omega)
  have n5 : (field w 20 0 = 7) = False := eq_false (by unfold field; omega)
  have v0 : bits 3 w 21 = d := bits_eq _ (by omega)
  have v1 : bits 5 w 16 = a := bits_eq _ (by omega)
  have v2 : bits 3 w 8 = m := bits_eq _ (by omega)
  refine row_ok (r := .arith (.mfromv d a m)) (row24 (by omega) ?_) wf (by omega)
  simp only [decodeMajor24, n5, n4, n3, n2, n1, f7_0, f15_11, f15_14, f25_24, v0, v1, v2]; rfl

theorem encodes.mtov (d : BitVec 5) (a : BitVec 3) (m : BitVec 3) : encodes.Statement (.mtov d a m) := by
  intro w h wf
  have b0 := d.isLt; have b1 := a.isLt; have b2 := m.isLt
  have e : w = 0x90000009 + d.toNat * 0x200000 + a.toNat * 0x10000 + m.toNat * 0x100 := (Option.some.inj h).symm
  have f7_0 : field w 7 0 = 0x9 := by unfold field; omega
  have f15_11 : field w 15 11 = 0x0 := by unfold field; omega
  have f15_14 : field w 15 14 = 0x0 := by unfold field; omega
  have f20_19 : field w 20 19 = 0x0 := by unfold field; omega
  have n1 : (field w 10 0 = 0) = False := eq_false (by unfold field; omega)
  have n2 : (field w 10 0 = 1) = False := eq_false (by unfold field; omega)
  have n3 : (field w 10 0 = 2) = False := eq_false (by unfold field; omega)
  have n4 : (field w 10 0 = 3) = False := eq_false (by unfold field; omega)
  have n5 : (field w 20 0 = 7) = False := eq_false (by unfold field; omega)
  have v0 : bits 5 w 21 = d := bits_eq _ (by omega)
  have v1 : bits 3 w 16 = a := bits_eq _ (by omega)
  have v2 : bits 3 w 8 = m := bits_eq _ (by omega)
  refine row_ok (r := .arith (.mtov d a m)) (row24 (by omega) ?_) wf (by omega)
  simp only [decodeMajor24, n5, n4, n3, n2, n1, f7_0, f15_11, f15_14, f20_19, v0, v1, v2]; rfl

theorem encodes.viota (d : BitVec 5) (a : BitVec 3) (m : BitVec 3) : encodes.Statement (.viota d a m) := by
  intro w h wf
  have b0 := d.isLt; have b1 := a.isLt; have b2 := m.isLt
  have e : w = 0x9000000a + d.toNat * 0x200000 + a.toNat * 0x10000 + m.toNat * 0x100 := (Option.some.inj h).symm
  have f7_0 : field w 7 0 = 0xa := by unfold field; omega
  have f15_11 : field w 15 11 = 0x0 := by unfold field; omega
  have f15_14 : field w 15 14 = 0x0 := by unfold field; omega
  have f20_19 : field w 20 19 = 0x0 := by unfold field; omega
  have n1 : (field w 10 0 = 0) = False := eq_false (by unfold field; omega)
  have n2 : (field w 10 0 = 1) = False := eq_false (by unfold field; omega)
  have n3 : (field w 10 0 = 2) = False := eq_false (by unfold field; omega)
  have n4 : (field w 10 0 = 3) = False := eq_false (by unfold field; omega)
  have n5 : (field w 20 0 = 7) = False := eq_false (by unfold field; omega)
  have v0 : bits 5 w 21 = d := bits_eq _ (by omega)
  have v1 : bits 3 w 16 = a := bits_eq _ (by omega)
  have v2 : bits 3 w 8 = m := bits_eq _ (by omega)
  refine row_ok (r := .arith (.viota d a m)) (row24 (by omega) ?_) wf (by omega)
  simp only [decodeMajor24, n5, n4, n3, n2, n1, f7_0, f15_11, f15_14, f20_19, v0, v1, v2]; rfl

theorem encodes.vslup (d : BitVec 5) (a : BitVec 5) (b : BitVec 5) (m : BitVec 3) : encodes.Statement (.vslup d a b m) := by
  intro w h wf
  have b0 := d.isLt; have b1 := a.isLt; have b2 := b.isLt; have b3 := m.isLt
  have e : w = 0x90000010 + d.toNat * 0x200000 + a.toNat * 0x10000 + b.toNat * 0x800 + m.toNat * 0x100 := (Option.some.inj h).symm
  have f7_0 : field w 7 0 = 0x10 := by unfold field; omega
  have n1 : (field w 10 0 = 0) = False := eq_false (by unfold field; omega)
  have n2 : (field w 10 0 = 1) = False := eq_false (by unfold field; omega)
  have n3 : (field w 10 0 = 2) = False := eq_false (by unfold field; omega)
  have n4 : (field w 10 0 = 3) = False := eq_false (by unfold field; omega)
  have n5 : (field w 20 0 = 7) = False := eq_false (by unfold field; omega)
  have v0 : bits 5 w 21 = d := bits_eq _ (by omega)
  have v1 : bits 5 w 16 = a := bits_eq _ (by omega)
  have v2 : bits 5 w 11 = b := bits_eq _ (by omega)
  have v3 : bits 3 w 8 = m := bits_eq _ (by omega)
  refine row_ok (r := .arith (.vslup d a b m)) (row24 (by omega) ?_) wf (by omega)
  simp only [decodeMajor24, n5, n4, n3, n2, n1, f7_0, v0, v1, v2, v3]; rfl

theorem encodes.vsldn (d : BitVec 5) (a : BitVec 5) (b : BitVec 5) (m : BitVec 3) : encodes.Statement (.vsldn d a b m) := by
  intro w h wf
  have b0 := d.isLt; have b1 := a.isLt; have b2 := b.isLt; have b3 := m.isLt
  have e : w = 0x90000011 + d.toNat * 0x200000 + a.toNat * 0x10000 + b.toNat * 0x800 + m.toNat * 0x100 := (Option.some.inj h).symm
  have f7_0 : field w 7 0 = 0x11 := by unfold field; omega
  have n1 : (field w 10 0 = 0) = False := eq_false (by unfold field; omega)
  have n2 : (field w 10 0 = 1) = False := eq_false (by unfold field; omega)
  have n3 : (field w 10 0 = 2) = False := eq_false (by unfold field; omega)
  have n4 : (field w 10 0 = 3) = False := eq_false (by unfold field; omega)
  have n5 : (field w 20 0 = 7) = False := eq_false (by unfold field; omega)
  have v0 : bits 5 w 21 = d := bits_eq _ (by omega)
  have v1 : bits 5 w 16 = a := bits_eq _ (by omega)
  have v2 : bits 5 w 11 = b := bits_eq _ (by omega)
  have v3 : bits 3 w 8 = m := bits_eq _ (by omega)
  refine row_ok (r := .arith (.vsldn d a b m)) (row24 (by omega) ?_) wf (by omega)
  simp only [decodeMajor24, n5, n4, n3, n2, n1, f7_0, v0, v1, v2, v3]; rfl

theorem encodes.vperm (d : BitVec 5) (a : BitVec 5) (b : BitVec 5) (m : BitVec 3) : encodes.Statement (.vperm d a b m) := by
  intro w h wf
  have b0 := d.isLt; have b1 := a.isLt; have b2 := b.isLt; have b3 := m.isLt
  have e : w = 0x90000012 + d.toNat * 0x200000 + a.toNat * 0x10000 + b.toNat * 0x800 + m.toNat * 0x100 := (Option.some.inj h).symm
  have f7_0 : field w 7 0 = 0x12 := by unfold field; omega
  have n1 : (field w 10 0 = 0) = False := eq_false (by unfold field; omega)
  have n2 : (field w 10 0 = 1) = False := eq_false (by unfold field; omega)
  have n3 : (field w 10 0 = 2) = False := eq_false (by unfold field; omega)
  have n4 : (field w 10 0 = 3) = False := eq_false (by unfold field; omega)
  have n5 : (field w 20 0 = 7) = False := eq_false (by unfold field; omega)
  have v0 : bits 5 w 21 = d := bits_eq _ (by omega)
  have v1 : bits 5 w 16 = a := bits_eq _ (by omega)
  have v2 : bits 5 w 11 = b := bits_eq _ (by omega)
  have v3 : bits 3 w 8 = m := bits_eq _ (by omega)
  refine row_ok (r := .arith (.vperm d a b m)) (row24 (by omega) ?_) wf (by omega)
  simp only [decodeMajor24, n5, n4, n3, n2, n1, f7_0, v0, v1, v2, v3]; rfl

theorem encodes.vcomp (d : BitVec 5) (a : BitVec 5) (m : BitVec 3) : encodes.Statement (.vcomp d a m) := by
  intro w h wf
  have b0 := d.isLt; have b1 := a.isLt; have b2 := m.isLt
  have e : w = 0x90000013 + d.toNat * 0x200000 + a.toNat * 0x10000 + m.toNat * 0x100 := (Option.some.inj h).symm
  have f7_0 : field w 7 0 = 0x13 := by unfold field; omega
  have f15_11 : field w 15 11 = 0x0 := by unfold field; omega
  have f15_14 : field w 15 14 = 0x0 := by unfold field; omega
  have n1 : (field w 10 0 = 0) = False := eq_false (by unfold field; omega)
  have n2 : (field w 10 0 = 1) = False := eq_false (by unfold field; omega)
  have n3 : (field w 10 0 = 2) = False := eq_false (by unfold field; omega)
  have n4 : (field w 10 0 = 3) = False := eq_false (by unfold field; omega)
  have n5 : (field w 20 0 = 7) = False := eq_false (by unfold field; omega)
  have v0 : bits 5 w 21 = d := bits_eq _ (by omega)
  have v1 : bits 5 w 16 = a := bits_eq _ (by omega)
  have v2 : bits 3 w 8 = m := bits_eq _ (by omega)
  refine row_ok (r := .arith (.vcomp d a m)) (row24 (by omega) ?_) wf (by omega)
  simp only [decodeMajor24, n5, n4, n3, n2, n1, f7_0, f15_11, f15_14, v0, v1, v2]; rfl

theorem encodes.vexpd (d : BitVec 5) (a : BitVec 5) (m : BitVec 3) : encodes.Statement (.vexpd d a m) := by
  intro w h wf
  have b0 := d.isLt; have b1 := a.isLt; have b2 := m.isLt
  have e : w = 0x90000014 + d.toNat * 0x200000 + a.toNat * 0x10000 + m.toNat * 0x100 := (Option.some.inj h).symm
  have f7_0 : field w 7 0 = 0x14 := by unfold field; omega
  have f15_11 : field w 15 11 = 0x0 := by unfold field; omega
  have f15_14 : field w 15 14 = 0x0 := by unfold field; omega
  have n1 : (field w 10 0 = 0) = False := eq_false (by unfold field; omega)
  have n2 : (field w 10 0 = 1) = False := eq_false (by unfold field; omega)
  have n3 : (field w 10 0 = 2) = False := eq_false (by unfold field; omega)
  have n4 : (field w 10 0 = 3) = False := eq_false (by unfold field; omega)
  have n5 : (field w 20 0 = 7) = False := eq_false (by unfold field; omega)
  have v0 : bits 5 w 21 = d := bits_eq _ (by omega)
  have v1 : bits 5 w 16 = a := bits_eq _ (by omega)
  have v2 : bits 3 w 8 = m := bits_eq _ (by omega)
  refine row_ok (r := .arith (.vexpd d a m)) (row24 (by omega) ?_) wf (by omega)
  simp only [decodeMajor24, n5, n4, n3, n2, n1, f7_0, f15_11, f15_14, v0, v1, v2]; rfl

theorem encodes.vmerge (d : BitVec 5) (a : BitVec 5) (b : BitVec 5) (m : BitVec 3) : encodes.Statement (.vmerge d a b m) := by
  intro w h wf
  have b0 := d.isLt; have b1 := a.isLt; have b2 := b.isLt; have b3 := m.isLt
  have e : w = 0x90000015 + d.toNat * 0x200000 + a.toNat * 0x10000 + b.toNat * 0x800 + m.toNat * 0x100 := (Option.some.inj h).symm
  have f7_0 : field w 7 0 = 0x15 := by unfold field; omega
  have n1 : (field w 10 0 = 0) = False := eq_false (by unfold field; omega)
  have n2 : (field w 10 0 = 1) = False := eq_false (by unfold field; omega)
  have n3 : (field w 10 0 = 2) = False := eq_false (by unfold field; omega)
  have n4 : (field w 10 0 = 3) = False := eq_false (by unfold field; omega)
  have n5 : (field w 20 0 = 7) = False := eq_false (by unfold field; omega)
  have v0 : bits 5 w 21 = d := bits_eq _ (by omega)
  have v1 : bits 5 w 16 = a := bits_eq _ (by omega)
  have v2 : bits 5 w 11 = b := bits_eq _ (by omega)
  have v3 : bits 3 w 8 = m := bits_eq _ (by omega)
  refine row_ok (r := .arith (.vmerge d a b m)) (row24 (by omega) ?_) wf (by omega)
  simp only [decodeMajor24, n5, n4, n3, n2, n1, f7_0, v0, v1, v2, v3]; rfl

theorem encodes.vbcast (d : BitVec 5) (a : BitVec 5) (m : BitVec 3) : encodes.Statement (.vbcast d a m) := by
  intro w h wf
  have b0 := d.isLt; have b1 := a.isLt; have b2 := m.isLt
  have e : w = 0x90000016 + d.toNat * 0x200000 + a.toNat * 0x10000 + m.toNat * 0x100 := (Option.some.inj h).symm
  have f7_0 : field w 7 0 = 0x16 := by unfold field; omega
  have f15_11 : field w 15 11 = 0x0 := by unfold field; omega
  have f15_14 : field w 15 14 = 0x0 := by unfold field; omega
  have n1 : (field w 10 0 = 0) = False := eq_false (by unfold field; omega)
  have n2 : (field w 10 0 = 1) = False := eq_false (by unfold field; omega)
  have n3 : (field w 10 0 = 2) = False := eq_false (by unfold field; omega)
  have n4 : (field w 10 0 = 3) = False := eq_false (by unfold field; omega)
  have n5 : (field w 20 0 = 7) = False := eq_false (by unfold field; omega)
  have v0 : bits 5 w 21 = d := bits_eq _ (by omega)
  have v1 : bits 5 w 16 = a := bits_eq _ (by omega)
  have v2 : bits 3 w 8 = m := bits_eq _ (by omega)
  refine row_ok (r := .arith (.vbcast d a m)) (row24 (by omega) ?_) wf (by omega)
  simp only [decodeMajor24, n5, n4, n3, n2, n1, f7_0, f15_11, f15_14, v0, v1, v2]; rfl

theorem encodes.vextr (d : BitVec 5) (a : BitVec 5) (b : BitVec 5) : encodes.Statement (.vextr d a b) := by
  intro w h wf
  have b0 := d.isLt; have b1 := a.isLt; have b2 := b.isLt
  have e : w = 0x90000017 + d.toNat * 0x200000 + a.toNat * 0x10000 + b.toNat * 0x800 := (Option.some.inj h).symm
  have f7_0 : field w 7 0 = 0x17 := by unfold field; omega
  have f10_0 : field w 10 0 = 0x17 := by unfold field; omega
  have n1 : (field w 20 0 = 7) = False := eq_false (by unfold field; omega)
  have v0 : bits 5 w 21 = d := bits_eq _ (by omega)
  have v1 : bits 5 w 16 = a := bits_eq _ (by omega)
  have v2 : bits 5 w 11 = b := bits_eq _ (by omega)
  refine row_ok (r := .arith (.vextr d a b)) (row24 (by omega) ?_) wf (by omega)
  simp only [decodeMajor24, n1, f7_0, f10_0, v0, v1, v2]; rfl

theorem encodes.vins (d : BitVec 5) (a : BitVec 5) (b : BitVec 5) : encodes.Statement (.vins d a b) := by
  intro w h wf
  have b0 := d.isLt; have b1 := a.isLt; have b2 := b.isLt
  have e : w = 0x90000018 + d.toNat * 0x200000 + a.toNat * 0x10000 + b.toNat * 0x800 := (Option.some.inj h).symm
  have f7_0 : field w 7 0 = 0x18 := by unfold field; omega
  have f10_0 : field w 10 0 = 0x18 := by unfold field; omega
  have n1 : (field w 20 0 = 7) = False := eq_false (by unfold field; omega)
  have v0 : bits 5 w 21 = d := bits_eq _ (by omega)
  have v1 : bits 5 w 16 = a := bits_eq _ (by omega)
  have v2 : bits 5 w 11 = b := bits_eq _ (by omega)
  refine row_ok (r := .arith (.vins d a b)) (row24 (by omega) ?_) wf (by omega)
  simp only [decodeMajor24, n1, f7_0, f10_0, v0, v1, v2]; rfl

theorem encodes.vredsum (d : BitVec 5) (a : BitVec 5) (b : BitVec 5) (m : BitVec 3) : encodes.Statement (.vredsum d a b m) := by
  intro w h wf
  have b0 := d.isLt; have b1 := a.isLt; have b2 := b.isLt; have b3 := m.isLt
  have e : w = 0x90000020 + d.toNat * 0x200000 + a.toNat * 0x10000 + b.toNat * 0x800 + m.toNat * 0x100 := (Option.some.inj h).symm
  have f7_0 : field w 7 0 = 0x20 := by unfold field; omega
  have n1 : (field w 10 0 = 0) = False := eq_false (by unfold field; omega)
  have n2 : (field w 10 0 = 1) = False := eq_false (by unfold field; omega)
  have n3 : (field w 10 0 = 2) = False := eq_false (by unfold field; omega)
  have n4 : (field w 10 0 = 3) = False := eq_false (by unfold field; omega)
  have n5 : (field w 20 0 = 7) = False := eq_false (by unfold field; omega)
  have n6 : (field w 10 0 = 0x17) = False := eq_false (by unfold field; omega)
  have n7 : (field w 10 0 = 0x18) = False := eq_false (by unfold field; omega)
  have v0 : bits 5 w 21 = d := bits_eq _ (by omega)
  have v1 : bits 5 w 16 = a := bits_eq _ (by omega)
  have v2 : bits 5 w 11 = b := bits_eq _ (by omega)
  have v3 : bits 3 w 8 = m := bits_eq _ (by omega)
  refine row_ok (r := .arith (.vredsum d a b m)) (row24 (by omega) ?_) wf (by omega)
  simp only [decodeMajor24, n7, n6, n5, n4, n3, n2, n1, f7_0, v0, v1, v2, v3]; rfl

theorem encodes.vredmax (d : BitVec 5) (a : BitVec 5) (b : BitVec 5) (m : BitVec 3) : encodes.Statement (.vredmax d a b m) := by
  intro w h wf
  have b0 := d.isLt; have b1 := a.isLt; have b2 := b.isLt; have b3 := m.isLt
  have e : w = 0x90000021 + d.toNat * 0x200000 + a.toNat * 0x10000 + b.toNat * 0x800 + m.toNat * 0x100 := (Option.some.inj h).symm
  have f7_0 : field w 7 0 = 0x21 := by unfold field; omega
  have n1 : (field w 10 0 = 0) = False := eq_false (by unfold field; omega)
  have n2 : (field w 10 0 = 1) = False := eq_false (by unfold field; omega)
  have n3 : (field w 10 0 = 2) = False := eq_false (by unfold field; omega)
  have n4 : (field w 10 0 = 3) = False := eq_false (by unfold field; omega)
  have n5 : (field w 20 0 = 7) = False := eq_false (by unfold field; omega)
  have n6 : (field w 10 0 = 0x17) = False := eq_false (by unfold field; omega)
  have n7 : (field w 10 0 = 0x18) = False := eq_false (by unfold field; omega)
  have v0 : bits 5 w 21 = d := bits_eq _ (by omega)
  have v1 : bits 5 w 16 = a := bits_eq _ (by omega)
  have v2 : bits 5 w 11 = b := bits_eq _ (by omega)
  have v3 : bits 3 w 8 = m := bits_eq _ (by omega)
  refine row_ok (r := .arith (.vredmax d a b m)) (row24 (by omega) ?_) wf (by omega)
  simp only [decodeMajor24, n7, n6, n5, n4, n3, n2, n1, f7_0, v0, v1, v2, v3]; rfl

theorem encodes.vredmin (d : BitVec 5) (a : BitVec 5) (b : BitVec 5) (m : BitVec 3) : encodes.Statement (.vredmin d a b m) := by
  intro w h wf
  have b0 := d.isLt; have b1 := a.isLt; have b2 := b.isLt; have b3 := m.isLt
  have e : w = 0x90000022 + d.toNat * 0x200000 + a.toNat * 0x10000 + b.toNat * 0x800 + m.toNat * 0x100 := (Option.some.inj h).symm
  have f7_0 : field w 7 0 = 0x22 := by unfold field; omega
  have n1 : (field w 10 0 = 0) = False := eq_false (by unfold field; omega)
  have n2 : (field w 10 0 = 1) = False := eq_false (by unfold field; omega)
  have n3 : (field w 10 0 = 2) = False := eq_false (by unfold field; omega)
  have n4 : (field w 10 0 = 3) = False := eq_false (by unfold field; omega)
  have n5 : (field w 20 0 = 7) = False := eq_false (by unfold field; omega)
  have n6 : (field w 10 0 = 0x17) = False := eq_false (by unfold field; omega)
  have n7 : (field w 10 0 = 0x18) = False := eq_false (by unfold field; omega)
  have v0 : bits 5 w 21 = d := bits_eq _ (by omega)
  have v1 : bits 5 w 16 = a := bits_eq _ (by omega)
  have v2 : bits 5 w 11 = b := bits_eq _ (by omega)
  have v3 : bits 3 w 8 = m := bits_eq _ (by omega)
  refine row_ok (r := .arith (.vredmin d a b m)) (row24 (by omega) ?_) wf (by omega)
  simp only [decodeMajor24, n7, n6, n5, n4, n3, n2, n1, f7_0, v0, v1, v2, v3]; rfl

theorem encodes.vfredo (d : BitVec 5) (a : BitVec 5) (b : BitVec 5) (m : BitVec 3) : encodes.Statement (.vfredo d a b m) := by
  intro w h wf
  have b0 := d.isLt; have b1 := a.isLt; have b2 := b.isLt; have b3 := m.isLt
  have e : w = 0x90000023 + d.toNat * 0x200000 + a.toNat * 0x10000 + b.toNat * 0x800 + m.toNat * 0x100 := (Option.some.inj h).symm
  have f7_0 : field w 7 0 = 0x23 := by unfold field; omega
  have n1 : (field w 10 0 = 0) = False := eq_false (by unfold field; omega)
  have n2 : (field w 10 0 = 1) = False := eq_false (by unfold field; omega)
  have n3 : (field w 10 0 = 2) = False := eq_false (by unfold field; omega)
  have n4 : (field w 10 0 = 3) = False := eq_false (by unfold field; omega)
  have n5 : (field w 20 0 = 7) = False := eq_false (by unfold field; omega)
  have n6 : (field w 10 0 = 0x17) = False := eq_false (by unfold field; omega)
  have n7 : (field w 10 0 = 0x18) = False := eq_false (by unfold field; omega)
  have v0 : bits 5 w 21 = d := bits_eq _ (by omega)
  have v1 : bits 5 w 16 = a := bits_eq _ (by omega)
  have v2 : bits 5 w 11 = b := bits_eq _ (by omega)
  have v3 : bits 3 w 8 = m := bits_eq _ (by omega)
  refine row_ok (r := .arith (.vfredo d a b m)) (row24 (by omega) ?_) wf (by omega)
  simp only [decodeMajor24, n7, n6, n5, n4, n3, n2, n1, f7_0, v0, v1, v2, v3]; rfl

theorem encodes.vfredu (d : BitVec 5) (a : BitVec 5) (b : BitVec 5) (m : BitVec 3) : encodes.Statement (.vfredu d a b m) := by
  intro w h wf
  have b0 := d.isLt; have b1 := a.isLt; have b2 := b.isLt; have b3 := m.isLt
  have e : w = 0x90000024 + d.toNat * 0x200000 + a.toNat * 0x10000 + b.toNat * 0x800 + m.toNat * 0x100 := (Option.some.inj h).symm
  have f7_0 : field w 7 0 = 0x24 := by unfold field; omega
  have n1 : (field w 10 0 = 0) = False := eq_false (by unfold field; omega)
  have n2 : (field w 10 0 = 1) = False := eq_false (by unfold field; omega)
  have n3 : (field w 10 0 = 2) = False := eq_false (by unfold field; omega)
  have n4 : (field w 10 0 = 3) = False := eq_false (by unfold field; omega)
  have n5 : (field w 20 0 = 7) = False := eq_false (by unfold field; omega)
  have n6 : (field w 10 0 = 0x17) = False := eq_false (by unfold field; omega)
  have n7 : (field w 10 0 = 0x18) = False := eq_false (by unfold field; omega)
  have v0 : bits 5 w 21 = d := bits_eq _ (by omega)
  have v1 : bits 5 w 16 = a := bits_eq _ (by omega)
  have v2 : bits 5 w 11 = b := bits_eq _ (by omega)
  have v3 : bits 3 w 8 = m := bits_eq _ (by omega)
  refine row_ok (r := .arith (.vfredu d a b m)) (row24 (by omega) ?_) wf (by omega)
  simp only [decodeMajor24, n7, n6, n5, n4, n3, n2, n1, f7_0, v0, v1, v2, v3]; rfl

theorem encodes.vfredmax (d : BitVec 5) (a : BitVec 5) (b : BitVec 5) (m : BitVec 3) : encodes.Statement (.vfredmax d a b m) := by
  intro w h wf
  have b0 := d.isLt; have b1 := a.isLt; have b2 := b.isLt; have b3 := m.isLt
  have e : w = 0x90000025 + d.toNat * 0x200000 + a.toNat * 0x10000 + b.toNat * 0x800 + m.toNat * 0x100 := (Option.some.inj h).symm
  have f7_0 : field w 7 0 = 0x25 := by unfold field; omega
  have n1 : (field w 10 0 = 0) = False := eq_false (by unfold field; omega)
  have n2 : (field w 10 0 = 1) = False := eq_false (by unfold field; omega)
  have n3 : (field w 10 0 = 2) = False := eq_false (by unfold field; omega)
  have n4 : (field w 10 0 = 3) = False := eq_false (by unfold field; omega)
  have n5 : (field w 20 0 = 7) = False := eq_false (by unfold field; omega)
  have n6 : (field w 10 0 = 0x17) = False := eq_false (by unfold field; omega)
  have n7 : (field w 10 0 = 0x18) = False := eq_false (by unfold field; omega)
  have v0 : bits 5 w 21 = d := bits_eq _ (by omega)
  have v1 : bits 5 w 16 = a := bits_eq _ (by omega)
  have v2 : bits 5 w 11 = b := bits_eq _ (by omega)
  have v3 : bits 3 w 8 = m := bits_eq _ (by omega)
  refine row_ok (r := .arith (.vfredmax d a b m)) (row24 (by omega) ?_) wf (by omega)
  simp only [decodeMajor24, n7, n6, n5, n4, n3, n2, n1, f7_0, v0, v1, v2, v3]; rfl

theorem encodes.vscan (d : BitVec 5) (a : BitVec 5) (m : BitVec 3) : encodes.Statement (.vscan d a m) := by
  intro w h wf
  have b0 := d.isLt; have b1 := a.isLt; have b2 := m.isLt
  have e : w = 0x90000026 + d.toNat * 0x200000 + a.toNat * 0x10000 + m.toNat * 0x100 := (Option.some.inj h).symm
  have f7_0 : field w 7 0 = 0x26 := by unfold field; omega
  have f15_11 : field w 15 11 = 0x0 := by unfold field; omega
  have f15_14 : field w 15 14 = 0x0 := by unfold field; omega
  have n1 : (field w 10 0 = 0) = False := eq_false (by unfold field; omega)
  have n2 : (field w 10 0 = 1) = False := eq_false (by unfold field; omega)
  have n3 : (field w 10 0 = 2) = False := eq_false (by unfold field; omega)
  have n4 : (field w 10 0 = 3) = False := eq_false (by unfold field; omega)
  have n5 : (field w 20 0 = 7) = False := eq_false (by unfold field; omega)
  have n6 : (field w 10 0 = 0x17) = False := eq_false (by unfold field; omega)
  have n7 : (field w 10 0 = 0x18) = False := eq_false (by unfold field; omega)
  have v0 : bits 5 w 21 = d := bits_eq _ (by omega)
  have v1 : bits 5 w 16 = a := bits_eq _ (by omega)
  have v2 : bits 3 w 8 = m := bits_eq _ (by omega)
  refine row_ok (r := .arith (.vscan d a m)) (row24 (by omega) ?_) wf (by omega)
  simp only [decodeMajor24, n7, n6, n5, n4, n3, n2, n1, f7_0, f15_11, f15_14, v0, v1, v2]; rfl

theorem encodes.vprune48 (d : BitVec 5) (a : BitVec 5) : encodes.Statement (.vprune48 d a) := by
  intro w h wf
  have b0 := d.isLt; have b1 := a.isLt
  have e : w = 0x90000028 + d.toNat * 0x200000 + a.toNat * 0x10000 := (Option.some.inj h).symm
  have f7_0 : field w 7 0 = 0x28 := by unfold field; omega
  have f10_0 : field w 10 0 = 0x28 := by unfold field; omega
  have f15_0 : field w 15 0 = 0x28 := by unfold field; omega
  have f15_11 : field w 15 11 = 0x0 := by unfold field; omega
  have f15_14 : field w 15 14 = 0x0 := by unfold field; omega
  have n1 : (field w 20 0 = 7) = False := eq_false (by unfold field; omega)
  have v0 : bits 5 w 21 = d := bits_eq _ (by omega)
  have v1 : bits 5 w 16 = a := bits_eq _ (by omega)
  refine row_ok (r := .arith (.vprune48 d a)) (row24 (by omega) ?_) wf (by omega)
  simp only [decodeMajor24, n1, f7_0, f10_0, f15_0, f15_11, f15_14, v0, v1]; rfl

theorem encodes.vsetvl (d : BitVec 6) (a : BitVec 6) (b : BitVec 6) : encodes.Statement (.vsetvl d a b) := by
  intro w h wf
  have b0 := d.isLt; have b1 := a.isLt; have b2 := b.isLt
  have e : w = 0x94000000 + d.toNat * 0x100000 + a.toNat * 0x4000 + b.toNat * 0x40 := (Option.some.inj h).symm
  have f5_0 : field w 5 0 = 0x0 := by unfold field; omega
  have f13_12 : field w 13 12 = 0x0 := by unfold field; omega
  have v0 : bits 6 w 20 = d := bits_eq _ (by omega)
  have v1 : bits 6 w 14 = a := bits_eq _ (by omega)
  have v2 : bits 6 w 6 = b := bits_eq _ (by omega)
  refine row_ok (r := .instr (.vsetvl d a b)) (row25 (by omega) ?_) wf (by omega)
  simp only [decodeMajor25, f5_0, f13_12, v0, v1, v2]; rfl

theorem encodes.vsetvli (d : BitVec 6) (a : BitVec 6) (c : BitVec 12) : encodes.Statement (.vsetvli d a c) := by
  intro w h wf
  have b0 := d.isLt; have b1 := a.isLt; have b2 := c.isLt
  have e : w = 0x94001000 + d.toNat * 0x100000 + a.toNat * 0x4000 + c.toNat := (Option.some.inj h).symm
  have f13_12 : field w 13 12 = 0x1 := by unfold field; omega
  have v0 : bits 6 w 20 = d := bits_eq _ (by omega)
  have v1 : bits 6 w 14 = a := bits_eq _ (by omega)
  have v2 : bits 12 w 0 = c := bits_eq _ (by omega)
  refine row_ok (r := .instr (.vsetvli d a c)) (row25 (by omega) ?_) wf (by omega)
  simp only [decodeMajor25, f13_12, v0, v1, v2]; simp

theorem encodes.vgrant (d : BitVec 6) (a : BitVec 6) : encodes.Statement (.vgrant d a) := by
  intro w h wf
  have b0 := d.isLt; have b1 := a.isLt
  have e : w = 0x94002000 + d.toNat * 0x100000 + a.toNat * 0x4000 := (Option.some.inj h).symm
  have f5_0 : field w 5 0 = 0x0 := by unfold field; omega
  have f13_0 : field w 13 0 = 0x2000 := by unfold field; omega
  have f13_12 : field w 13 12 = 0x2 := by unfold field; omega
  have v0 : bits 6 w 20 = d := bits_eq _ (by omega)
  have v1 : bits 6 w 14 = a := bits_eq _ (by omega)
  refine row_ok (r := .instr (.vgrant d a)) (row25 (by omega) ?_) wf (by omega)
  simp only [decodeMajor25, f5_0, f13_0, f13_12, v0, v1]; rfl

theorem encodes.vcmp (d : BitVec 3) (a : BitVec 5) (b : BitVec 5) (m : BitVec 3) (c : BitVec 4) : encodes.Statement (.vcmp d a b m c) := by
  intro w h wf
  have b0 := d.isLt; have b1 := a.isLt; have b2 := b.isLt; have b3 := m.isLt; have b4 := c.isLt
  have e : w = 0x98000000 + d.toNat * 0x200000 + a.toNat * 0x10000 + b.toNat * 0x800 + m.toNat * 0x100 + c.toNat := (Option.some.inj h).symm
  have f7_4 : field w 7 4 = 0x0 := by unfold field; omega
  have f25_24 : field w 25 24 = 0x0 := by unfold field; omega
  have v0 : bits 3 w 21 = d := bits_eq _ (by omega)
  have v1 : bits 5 w 16 = a := bits_eq _ (by omega)
  have v2 : bits 5 w 11 = b := bits_eq _ (by omega)
  have v3 : bits 3 w 8 = m := bits_eq _ (by omega)
  have v4 : bits 4 w 0 = c := bits_eq _ (by omega)
  refine row_ok (r := .instr (.vcmp d a b m c)) (row26 (by omega) ?_) wf (by omega)
  simp only [decodeMajor26, f7_4, f25_24, v0, v1, v2, v3, v4]; rfl

theorem encodes.vcmpVs (d : BitVec 3) (a : BitVec 5) (b : BitVec 5) (m : BitVec 3) (c : BitVec 4) : encodes.Statement (.vcmpVs d a b m c) := by
  intro w h wf
  have b0 := d.isLt; have b1 := a.isLt; have b2 := b.isLt; have b3 := m.isLt; have b4 := c.isLt
  have e : w = 0x98000040 + d.toNat * 0x200000 + a.toNat * 0x10000 + b.toNat * 0x800 + m.toNat * 0x100 + c.toNat := (Option.some.inj h).symm
  have f7_4 : field w 7 4 = 0x4 := by unfold field; omega
  have f25_24 : field w 25 24 = 0x0 := by unfold field; omega
  have v0 : bits 3 w 21 = d := bits_eq _ (by omega)
  have v1 : bits 5 w 16 = a := bits_eq _ (by omega)
  have v2 : bits 5 w 11 = b := bits_eq _ (by omega)
  have v3 : bits 3 w 8 = m := bits_eq _ (by omega)
  have v4 : bits 4 w 0 = c := bits_eq _ (by omega)
  refine row_ok (r := .instr (.vcmpVs d a b m c)) (row26 (by omega) ?_) wf (by omega)
  simp only [decodeMajor26, f7_4, f25_24, v0, v1, v2, v3, v4]; rfl

theorem encodes.vfcmp (d : BitVec 3) (a : BitVec 5) (b : BitVec 5) (m : BitVec 3) (c : BitVec 4) : encodes.Statement (.vfcmp d a b m c) := by
  intro w h wf
  have b0 := d.isLt; have b1 := a.isLt; have b2 := b.isLt; have b3 := m.isLt; have b4 := c.isLt
  have e : w = 0x98000080 + d.toNat * 0x200000 + a.toNat * 0x10000 + b.toNat * 0x800 + m.toNat * 0x100 + c.toNat := (Option.some.inj h).symm
  have f7_4 : field w 7 4 = 0x8 := by unfold field; omega
  have f25_24 : field w 25 24 = 0x0 := by unfold field; omega
  have v0 : bits 3 w 21 = d := bits_eq _ (by omega)
  have v1 : bits 5 w 16 = a := bits_eq _ (by omega)
  have v2 : bits 5 w 11 = b := bits_eq _ (by omega)
  have v3 : bits 3 w 8 = m := bits_eq _ (by omega)
  have v4 : bits 4 w 0 = c := bits_eq _ (by omega)
  refine row_ok (r := .instr (.vfcmp d a b m c)) (row26 (by omega) ?_) wf (by omega)
  simp only [decodeMajor26, f7_4, f25_24, v0, v1, v2, v3, v4]; rfl

theorem encodes.vfcmpVs (d : BitVec 3) (a : BitVec 5) (b : BitVec 5) (m : BitVec 3) (c : BitVec 4) : encodes.Statement (.vfcmpVs d a b m c) := by
  intro w h wf
  have b0 := d.isLt; have b1 := a.isLt; have b2 := b.isLt; have b3 := m.isLt; have b4 := c.isLt
  have e : w = 0x980000c0 + d.toNat * 0x200000 + a.toNat * 0x10000 + b.toNat * 0x800 + m.toNat * 0x100 + c.toNat := (Option.some.inj h).symm
  have f7_4 : field w 7 4 = 0xc := by unfold field; omega
  have f25_24 : field w 25 24 = 0x0 := by unfold field; omega
  have v0 : bits 3 w 21 = d := bits_eq _ (by omega)
  have v1 : bits 5 w 16 = a := bits_eq _ (by omega)
  have v2 : bits 5 w 11 = b := bits_eq _ (by omega)
  have v3 : bits 3 w 8 = m := bits_eq _ (by omega)
  have v4 : bits 4 w 0 = c := bits_eq _ (by omega)
  refine row_ok (r := .instr (.vfcmpVs d a b m c)) (row26 (by omega) ?_) wf (by omega)
  simp only [decodeMajor26, f7_4, f25_24, v0, v1, v2, v3, v4]; rfl

theorem encodes.vld (d : BitVec 5) (a : BitVec 6) (m : BitVec 3) : encodes.Statement (.vld d a m) := by
  intro w h wf
  have b0 := d.isLt; have b1 := a.isLt; have b2 := m.isLt
  have e : w = 0xa0000000 + d.toNat * 0x200000 + a.toNat * 0x8000 + m.toNat * 0x40 := (Option.some.inj h).symm
  have f5_0 : field w 5 0 = 0x0 := by unfold field; omega
  have f14_9 : field w 14 9 = 0x0 := by unfold field; omega
  have v0 : bits 5 w 21 = d := bits_eq _ (by omega)
  have v1 : bits 6 w 15 = a := bits_eq _ (by omega)
  have v2 : bits 3 w 6 = m := bits_eq _ (by omega)
  refine row_ok (r := .instr (.vld d a m)) (row28 (by omega) ?_) wf (by omega)
  simp only [decodeMajor28, f5_0, f14_9, v0, v1, v2]; rfl

theorem encodes.vlds (d : BitVec 5) (a : BitVec 6) (b : BitVec 6) (m : BitVec 3) : encodes.Statement (.vlds d a b m) := by
  intro w h wf
  have b0 := d.isLt; have b1 := a.isLt; have b2 := b.isLt; have b3 := m.isLt
  have e : w = 0xa0000001 + d.toNat * 0x200000 + a.toNat * 0x8000 + b.toNat * 0x200 + m.toNat * 0x40 := (Option.some.inj h).symm
  have f5_0 : field w 5 0 = 0x1 := by unfold field; omega
  have v0 : bits 5 w 21 = d := bits_eq _ (by omega)
  have v1 : bits 6 w 15 = a := bits_eq _ (by omega)
  have v2 : bits 6 w 9 = b := bits_eq _ (by omega)
  have v3 : bits 3 w 6 = m := bits_eq _ (by omega)
  refine row_ok (r := .instr (.vlds d a b m)) (row28 (by omega) ?_) wf (by omega)
  simp only [decodeMajor28, f5_0, v0, v1, v2, v3]; rfl

theorem encodes.vldx (d : BitVec 5) (a : BitVec 6) (b : BitVec 5) (m : BitVec 3) : encodes.Statement (.vldx d a b m) := by
  intro w h wf
  have b0 := d.isLt; have b1 := a.isLt; have b2 := b.isLt; have b3 := m.isLt
  have e : w = 0xa0000002 + d.toNat * 0x200000 + a.toNat * 0x8000 + b.toNat * 0x400 + m.toNat * 0x40 := (Option.some.inj h).symm
  have f5_0 : field w 5 0 = 0x2 := by unfold field; omega
  have f9_9 : field w 9 9 = 0x0 := by unfold field; omega
  have v0 : bits 5 w 21 = d := bits_eq _ (by omega)
  have v1 : bits 6 w 15 = a := bits_eq _ (by omega)
  have v2 : bits 5 w 10 = b := bits_eq _ (by omega)
  have v3 : bits 3 w 6 = m := bits_eq _ (by omega)
  refine row_ok (r := .instr (.vldx d a b m)) (row28 (by omega) ?_) wf (by omega)
  simp only [decodeMajor28, f5_0, f9_9, v0, v1, v2, v3]; rfl

theorem encodes.vldxo (d : BitVec 5) (a : BitVec 6) (b : BitVec 5) (m : BitVec 3) : encodes.Statement (.vldxo d a b m) := by
  intro w h wf
  have b0 := d.isLt; have b1 := a.isLt; have b2 := b.isLt; have b3 := m.isLt
  have e : w = 0xa0000003 + d.toNat * 0x200000 + a.toNat * 0x8000 + b.toNat * 0x400 + m.toNat * 0x40 := (Option.some.inj h).symm
  have f5_0 : field w 5 0 = 0x3 := by unfold field; omega
  have f9_9 : field w 9 9 = 0x0 := by unfold field; omega
  have v0 : bits 5 w 21 = d := bits_eq _ (by omega)
  have v1 : bits 6 w 15 = a := bits_eq _ (by omega)
  have v2 : bits 5 w 10 = b := bits_eq _ (by omega)
  have v3 : bits 3 w 6 = m := bits_eq _ (by omega)
  refine row_ok (r := .instr (.vldxo d a b m)) (row28 (by omega) ?_) wf (by omega)
  simp only [decodeMajor28, f5_0, f9_9, v0, v1, v2, v3]; rfl

theorem encodes.vldff (d : BitVec 5) (a : BitVec 6) (m : BitVec 3) : encodes.Statement (.vldff d a m) := by
  intro w h wf
  have b0 := d.isLt; have b1 := a.isLt; have b2 := m.isLt
  have e : w = 0xa0000004 + d.toNat * 0x200000 + a.toNat * 0x8000 + m.toNat * 0x40 := (Option.some.inj h).symm
  have f5_0 : field w 5 0 = 0x4 := by unfold field; omega
  have f9_9 : field w 9 9 = 0x0 := by unfold field; omega
  have f14_9 : field w 14 9 = 0x0 := by unfold field; omega
  have v0 : bits 5 w 21 = d := bits_eq _ (by omega)
  have v1 : bits 6 w 15 = a := bits_eq _ (by omega)
  have v2 : bits 3 w 6 = m := bits_eq _ (by omega)
  refine row_ok (r := .instr (.vldff d a m)) (row28 (by omega) ?_) wf (by omega)
  simp only [decodeMajor28, f5_0, f9_9, f14_9, v0, v1, v2]; rfl

theorem encodes.vst (d : BitVec 5) (a : BitVec 6) (m : BitVec 3) : encodes.Statement (.vst d a m) := by
  intro w h wf
  have b0 := d.isLt; have b1 := a.isLt; have b2 := m.isLt
  have e : w = 0xa4000000 + d.toNat * 0x200000 + a.toNat * 0x8000 + m.toNat * 0x40 := (Option.some.inj h).symm
  have f5_0 : field w 5 0 = 0x0 := by unfold field; omega
  have f14_9 : field w 14 9 = 0x0 := by unfold field; omega
  have v0 : bits 5 w 21 = d := bits_eq _ (by omega)
  have v1 : bits 6 w 15 = a := bits_eq _ (by omega)
  have v2 : bits 3 w 6 = m := bits_eq _ (by omega)
  refine row_ok (r := .instr (.vst d a m)) (row29 (by omega) ?_) wf (by omega)
  simp only [decodeMajor29, f5_0, f14_9, v0, v1, v2]; rfl

theorem encodes.vsts (d : BitVec 5) (a : BitVec 6) (b : BitVec 6) (m : BitVec 3) : encodes.Statement (.vsts d a b m) := by
  intro w h wf
  have b0 := d.isLt; have b1 := a.isLt; have b2 := b.isLt; have b3 := m.isLt
  have e : w = 0xa4000001 + d.toNat * 0x200000 + a.toNat * 0x8000 + b.toNat * 0x200 + m.toNat * 0x40 := (Option.some.inj h).symm
  have f5_0 : field w 5 0 = 0x1 := by unfold field; omega
  have v0 : bits 5 w 21 = d := bits_eq _ (by omega)
  have v1 : bits 6 w 15 = a := bits_eq _ (by omega)
  have v2 : bits 6 w 9 = b := bits_eq _ (by omega)
  have v3 : bits 3 w 6 = m := bits_eq _ (by omega)
  refine row_ok (r := .instr (.vsts d a b m)) (row29 (by omega) ?_) wf (by omega)
  simp only [decodeMajor29, f5_0, v0, v1, v2, v3]; rfl

theorem encodes.vstx (d : BitVec 5) (a : BitVec 6) (b : BitVec 5) (m : BitVec 3) : encodes.Statement (.vstx d a b m) := by
  intro w h wf
  have b0 := d.isLt; have b1 := a.isLt; have b2 := b.isLt; have b3 := m.isLt
  have e : w = 0xa4000002 + d.toNat * 0x200000 + a.toNat * 0x8000 + b.toNat * 0x400 + m.toNat * 0x40 := (Option.some.inj h).symm
  have f5_0 : field w 5 0 = 0x2 := by unfold field; omega
  have f9_9 : field w 9 9 = 0x0 := by unfold field; omega
  have v0 : bits 5 w 21 = d := bits_eq _ (by omega)
  have v1 : bits 6 w 15 = a := bits_eq _ (by omega)
  have v2 : bits 5 w 10 = b := bits_eq _ (by omega)
  have v3 : bits 3 w 6 = m := bits_eq _ (by omega)
  refine row_ok (r := .instr (.vstx d a b m)) (row29 (by omega) ?_) wf (by omega)
  simp only [decodeMajor29, f5_0, f9_9, v0, v1, v2, v3]; rfl

theorem encodes.vstxo (d : BitVec 5) (a : BitVec 6) (b : BitVec 5) (m : BitVec 3) : encodes.Statement (.vstxo d a b m) := by
  intro w h wf
  have b0 := d.isLt; have b1 := a.isLt; have b2 := b.isLt; have b3 := m.isLt
  have e : w = 0xa4000003 + d.toNat * 0x200000 + a.toNat * 0x8000 + b.toNat * 0x400 + m.toNat * 0x40 := (Option.some.inj h).symm
  have f5_0 : field w 5 0 = 0x3 := by unfold field; omega
  have f9_9 : field w 9 9 = 0x0 := by unfold field; omega
  have v0 : bits 5 w 21 = d := bits_eq _ (by omega)
  have v1 : bits 6 w 15 = a := bits_eq _ (by omega)
  have v2 : bits 5 w 10 = b := bits_eq _ (by omega)
  have v3 : bits 3 w 6 = m := bits_eq _ (by omega)
  refine row_ok (r := .instr (.vstxo d a b m)) (row29 (by omega) ?_) wf (by omega)
  simp only [decodeMajor29, f5_0, f9_9, v0, v1, v2, v3]; rfl

theorem encodes.vstxadd (d : BitVec 5) (a : BitVec 6) (b : BitVec 5) (m : BitVec 3) : encodes.Statement (.vstxadd d a b m) := by
  intro w h wf
  have b0 := d.isLt; have b1 := a.isLt; have b2 := b.isLt; have b3 := m.isLt
  have e : w = 0xa4000004 + d.toNat * 0x200000 + a.toNat * 0x8000 + b.toNat * 0x400 + m.toNat * 0x40 := (Option.some.inj h).symm
  have f5_0 : field w 5 0 = 0x4 := by unfold field; omega
  have f9_9 : field w 9 9 = 0x0 := by unfold field; omega
  have v0 : bits 5 w 21 = d := bits_eq _ (by omega)
  have v1 : bits 6 w 15 = a := bits_eq _ (by omega)
  have v2 : bits 5 w 10 = b := bits_eq _ (by omega)
  have v3 : bits 3 w 6 = m := bits_eq _ (by omega)
  refine row_ok (r := .instr (.vstxadd d a b m)) (row29 (by omega) ?_) wf (by omega)
  simp only [decodeMajor29, f5_0, f9_9, v0, v1, v2, v3]; rfl

theorem encodes.vldn (d : BitVec 5) (a : BitVec 6) (z : BitVec 1) (xs : BitVec 5) (m : BitVec 3) (t : BitVec 1) (f : BitVec 4) : encodes.Statement (.vldn d a z xs m t f) := by
  intro w h wf
  have b0 := d.isLt; have b1 := a.isLt; have b2 := z.isLt; have b3 := xs.isLt; have b4 := m.isLt; have b5 := t.isLt; have b6 := f.isLt
  have e : w = 0xa8000000 + d.toNat * 0x200000 + a.toNat * 0x8000 + z.toNat * 0x4000 + xs.toNat * 0x200 + m.toNat * 0x40 + t.toNat * 0x10 + f.toNat := (Option.some.inj h).symm
  have f5_5 : field w 5 5 = 0x0 := by unfold field; omega
  have v0 : bits 5 w 21 = d := bits_eq _ (by omega)
  have v1 : bits 6 w 15 = a := bits_eq _ (by omega)
  have v2 : bits 1 w 14 = z := bits_eq _ (by omega)
  have v3 : bits 5 w 9 = xs := bits_eq _ (by omega)
  have v4 : bits 3 w 6 = m := bits_eq _ (by omega)
  have v5 : bits 1 w 4 = t := bits_eq _ (by omega)
  have v6 : bits 4 w 0 = f := bits_eq _ (by omega)
  refine row_ok (r := .instr (.vldn d a z xs m t f)) (row2A (by omega) ?_) wf (by omega)
  simp only [decodeMajor2A, f5_5, v0, v1, v2, v3, v4, v5, v6]; rfl

theorem encodes.vstn (d : BitVec 5) (a : BitVec 6) (z : BitVec 1) (xs : BitVec 5) (m : BitVec 3) (t : BitVec 1) (f : BitVec 4) : encodes.Statement (.vstn d a z xs m t f) := by
  intro w h wf
  have b0 := d.isLt; have b1 := a.isLt; have b2 := z.isLt; have b3 := xs.isLt; have b4 := m.isLt; have b5 := t.isLt; have b6 := f.isLt
  have e : w = 0xa8000020 + d.toNat * 0x200000 + a.toNat * 0x8000 + z.toNat * 0x4000 + xs.toNat * 0x200 + m.toNat * 0x40 + t.toNat * 0x10 + f.toNat := (Option.some.inj h).symm
  have f5_5 : field w 5 5 = 0x1 := by unfold field; omega
  have v0 : bits 5 w 21 = d := bits_eq _ (by omega)
  have v1 : bits 6 w 15 = a := bits_eq _ (by omega)
  have v2 : bits 1 w 14 = z := bits_eq _ (by omega)
  have v3 : bits 5 w 9 = xs := bits_eq _ (by omega)
  have v4 : bits 3 w 6 = m := bits_eq _ (by omega)
  have v5 : bits 1 w 4 = t := bits_eq _ (by omega)
  have v6 : bits 4 w 0 = f := bits_eq _ (by omega)
  refine row_ok (r := .instr (.vstn d a z xs m t f)) (row2A (by omega) ?_) wf (by omega)
  simp only [decodeMajor2A, f5_5, v0, v1, v2, v3, v4, v5, v6]; rfl

theorem encodes.kst (d : BitVec 5) (a : BitVec 5) (b : BitVec 6) : encodes.Statement (.kst d a b) := by
  intro w h wf
  have b0 := d.isLt; have b1 := a.isLt; have b2 := b.isLt
  have e : w = 0xac000000 + d.toNat * 0x200000 + a.toNat * 0x10000 + b.toNat * 0x400 := (Option.some.inj h).symm
  have f9_0 : field w 9 0 = 0x0 := by unfold field; omega
  have v0 : bits 5 w 21 = d := bits_eq _ (by omega)
  have v1 : bits 5 w 16 = a := bits_eq _ (by omega)
  have v2 : bits 6 w 10 = b := bits_eq _ (by omega)
  refine row_ok (r := .instr (.kst d a b)) (row2B (by omega) ?_) wf (by omega)
  simp only [decodeMajor2B, f9_0, v0, v1, v2]; rfl

theorem encodes.ksig (d : BitVec 5) (a : BitVec 5) (b : BitVec 6) : encodes.Statement (.ksig d a b) := by
  intro w h wf
  have b0 := d.isLt; have b1 := a.isLt; have b2 := b.isLt
  have e : w = 0xac000001 + d.toNat * 0x200000 + a.toNat * 0x10000 + b.toNat * 0x400 := (Option.some.inj h).symm
  have f9_0 : field w 9 0 = 0x1 := by unfold field; omega
  have v0 : bits 5 w 21 = d := bits_eq _ (by omega)
  have v1 : bits 5 w 16 = a := bits_eq _ (by omega)
  have v2 : bits 6 w 10 = b := bits_eq _ (by omega)
  refine row_ok (r := .instr (.ksig d a b)) (row2B (by omega) ?_) wf (by omega)
  simp only [decodeMajor2B, f9_0, v0, v1, v2]; rfl

theorem encodes.tzero (t : BitVec 6) : encodes.Statement (.tzero t) := by
  intro w h wf
  have b0 := t.isLt
  have e : w = 0xc0000000 + t.toNat * 0x100000 := (Option.some.inj h).symm
  have f19_0 : field w 19 0 = 0x0 := by unfold field; omega
  have v0 : bits 6 w 20 = t := bits_eq _ (by omega)
  refine row_ok (r := .instr (.tzero t)) (row30 (by omega) ?_) wf (by omega)
  simp only [decodeMajor30, f19_0, v0]; rfl

theorem encodes.tmma (t : BitVec 6) (a : BitVec 3) (b : BitVec 3) (k : BitVec 6) : encodes.Statement (.tmma t a b k) := by
  intro w h wf
  have b0 := t.isLt; have b1 := a.isLt; have b2 := b.isLt; have b3 := k.isLt
  have e : w = 0xc0000001 + t.toNat * 0x100000 + a.toNat * 0x20000 + b.toNat * 0x4000 + k.toNat * 0x100 := (Option.some.inj h).symm
  have f7_0 : field w 7 0 = 0x1 := by unfold field; omega
  have n1 : (field w 19 0 = 0) = False := eq_false (by unfold field; omega)
  have v0 : bits 6 w 20 = t := bits_eq _ (by omega)
  have v1 : bits 3 w 17 = a := bits_eq _ (by omega)
  have v2 : bits 3 w 14 = b := bits_eq _ (by omega)
  have v3 : bits 6 w 8 = k := bits_eq _ (by omega)
  refine row_ok (r := .instr (.tmma t a b k)) (row30 (by omega) ?_) wf (by omega)
  simp only [decodeMajor30, n1, f7_0, v0, v1, v2, v3]; rfl

theorem encodes.tmmaf (t : BitVec 6) (a : BitVec 3) (b : BitVec 3) (k : BitVec 6) : encodes.Statement (.tmmaf t a b k) := by
  intro w h wf
  have b0 := t.isLt; have b1 := a.isLt; have b2 := b.isLt; have b3 := k.isLt
  have e : w = 0xc0000002 + t.toNat * 0x100000 + a.toNat * 0x20000 + b.toNat * 0x4000 + k.toNat * 0x100 := (Option.some.inj h).symm
  have f7_0 : field w 7 0 = 0x2 := by unfold field; omega
  have n1 : (field w 19 0 = 0) = False := eq_false (by unfold field; omega)
  have v0 : bits 6 w 20 = t := bits_eq _ (by omega)
  have v1 : bits 3 w 17 = a := bits_eq _ (by omega)
  have v2 : bits 3 w 14 = b := bits_eq _ (by omega)
  have v3 : bits 6 w 8 = k := bits_eq _ (by omega)
  refine row_ok (r := .instr (.tmmaf t a b k)) (row30 (by omega) ?_) wf (by omega)
  simp only [decodeMajor30, n1, f7_0, v0, v1, v2, v3]; rfl

theorem encodes.tmmag (t : BitVec 6) (a : BitVec 3) (b : BitVec 3) (k : BitVec 6) : encodes.Statement (.tmmag t a b k) := by
  intro w h wf
  have b0 := t.isLt; have b1 := a.isLt; have b2 := b.isLt; have b3 := k.isLt
  have e : w = 0xc0000003 + t.toNat * 0x100000 + a.toNat * 0x20000 + b.toNat * 0x4000 + k.toNat * 0x100 := (Option.some.inj h).symm
  have f7_0 : field w 7 0 = 0x3 := by unfold field; omega
  have n1 : (field w 19 0 = 0) = False := eq_false (by unfold field; omega)
  have v0 : bits 6 w 20 = t := bits_eq _ (by omega)
  have v1 : bits 3 w 17 = a := bits_eq _ (by omega)
  have v2 : bits 3 w 14 = b := bits_eq _ (by omega)
  have v3 : bits 6 w 8 = k := bits_eq _ (by omega)
  refine row_ok (r := .instr (.tmmag t a b k)) (row30 (by omega) ?_) wf (by omega)
  simp only [decodeMajor30, n1, f7_0, v0, v1, v2, v3]; rfl

theorem encodes.tmmas (t : BitVec 6) (a : BitVec 3) (b : BitVec 3) (k : BitVec 6) (v : BitVec 5) : encodes.Statement (.tmmas t a b k v) := by
  intro w h wf
  have b0 := t.isLt; have b1 := a.isLt; have b2 := b.isLt; have b3 := k.isLt; have b4 := v.isLt
  have e : w = 0xc0000020 + t.toNat * 0x100000 + a.toNat * 0x20000 + b.toNat * 0x4000 + k.toNat * 0x100 + v.toNat := (Option.some.inj h).symm
  have f7_5 : field w 7 5 = 0x1 := by unfold field; omega
  have n1 : (field w 19 0 = 0) = False := eq_false (by unfold field; omega)
  have n2 : (field w 7 0 = 1) = False := eq_false (by unfold field; omega)
  have n3 : (field w 7 0 = 2) = False := eq_false (by unfold field; omega)
  have n4 : (field w 7 0 = 3) = False := eq_false (by unfold field; omega)
  have v0 : bits 6 w 20 = t := bits_eq _ (by omega)
  have v1 : bits 3 w 17 = a := bits_eq _ (by omega)
  have v2 : bits 3 w 14 = b := bits_eq _ (by omega)
  have v3 : bits 6 w 8 = k := bits_eq _ (by omega)
  have v4 : bits 5 w 0 = v := bits_eq _ (by omega)
  refine row_ok (r := .instr (.tmmas t a b k v)) (row30 (by omega) ?_) wf (by omega)
  simp only [decodeMajor30, n4, n3, n2, n1, f7_5, v0, v1, v2, v3, v4]; rfl

theorem encodes.tld (t : BitVec 6) (k : BitVec 6) : encodes.Statement (.tld t k) := by
  intro w h wf
  have b0 := t.isLt; have b1 := k.isLt
  have e : w = 0xc0000008 + t.toNat * 0x100000 + k.toNat * 0x100 := (Option.some.inj h).symm
  have f7_0 : field w 7 0 = 0x8 := by unfold field; omega
  have f7_5 : field w 7 5 = 0x0 := by unfold field; omega
  have f19_14 : field w 19 14 = 0x0 := by unfold field; omega
  have n1 : (field w 19 0 = 0) = False := eq_false (by unfold field; omega)
  have v0 : bits 6 w 20 = t := bits_eq _ (by omega)
  have v1 : bits 6 w 8 = k := bits_eq _ (by omega)
  refine row_ok (r := .instr (.tld t k)) (row30 (by omega) ?_) wf (by omega)
  simp only [decodeMajor30, n1, f7_0, f7_5, f19_14, v0, v1]; rfl

theorem encodes.tst (t : BitVec 6) (u : BitVec 1) (f : BitVec 1) (k : BitVec 6) : encodes.Statement (.tst t u f k) := by
  intro w h wf
  have b0 := t.isLt; have b1 := u.isLt; have b2 := f.isLt; have b3 := k.isLt
  have e : w = 0xc0000009 + t.toNat * 0x100000 + u.toNat * 0x8000 + f.toNat * 0x4000 + k.toNat * 0x100 := (Option.some.inj h).symm
  have f7_0 : field w 7 0 = 0x9 := by unfold field; omega
  have f7_5 : field w 7 5 = 0x0 := by unfold field; omega
  have f19_16 : field w 19 16 = 0x0 := by unfold field; omega
  have n1 : (field w 19 0 = 0) = False := eq_false (by unfold field; omega)
  have v0 : bits 6 w 20 = t := bits_eq _ (by omega)
  have v1 : bits 1 w 15 = u := bits_eq _ (by omega)
  have v2 : bits 1 w 14 = f := bits_eq _ (by omega)
  have v3 : bits 6 w 8 = k := bits_eq _ (by omega)
  refine row_ok (r := .instr (.tst t u f k)) (row30 (by omega) ?_) wf (by omega)
  simp only [decodeMajor30, n1, f7_0, f7_5, f19_16, v0, v1, v2, v3]; rfl

theorem encodes.tmovr (t : BitVec 6) (v : BitVec 5) : encodes.Statement (.tmovr t v) := by
  intro w h wf
  have b0 := t.isLt; have b1 := v.isLt
  have e : w = 0xc000000a + t.toNat * 0x100000 + v.toNat * 0x4000 := (Option.some.inj h).symm
  have f7_0 : field w 7 0 = 0xa := by unfold field; omega
  have f7_5 : field w 7 5 = 0x0 := by unfold field; omega
  have f13_0 : field w 13 0 = 0xa := by unfold field; omega
  have f19_19 : field w 19 19 = 0x0 := by unfold field; omega
  have n1 : (field w 19 0 = 0) = False := eq_false (by unfold field; omega)
  have v0 : bits 6 w 20 = t := bits_eq _ (by omega)
  have v1 : bits 5 w 14 = v := bits_eq _ (by omega)
  refine row_ok (r := .instr (.tmovr t v)) (row30 (by omega) ?_) wf (by omega)
  simp only [decodeMajor30, n1, f7_0, f7_5, f13_0, f19_19, v0, v1]; rfl

theorem encodes.tmovw (t : BitVec 6) (v : BitVec 5) : encodes.Statement (.tmovw t v) := by
  intro w h wf
  have b0 := t.isLt; have b1 := v.isLt
  have e : w = 0xc000000b + t.toNat * 0x100000 + v.toNat * 0x4000 := (Option.some.inj h).symm
  have f7_0 : field w 7 0 = 0xb := by unfold field; omega
  have f7_5 : field w 7 5 = 0x0 := by unfold field; omega
  have f13_0 : field w 13 0 = 0xb := by unfold field; omega
  have f19_19 : field w 19 19 = 0x0 := by unfold field; omega
  have n1 : (field w 19 0 = 0) = False := eq_false (by unfold field; omega)
  have v0 : bits 6 w 20 = t := bits_eq _ (by omega)
  have v1 : bits 5 w 14 = v := bits_eq _ (by omega)
  refine row_ok (r := .instr (.tmovw t v)) (row30 (by omega) ?_) wf (by omega)
  simp only [decodeMajor30, n1, f7_0, f7_5, f13_0, f19_19, v0, v1]; rfl

theorem encodes.treef (t : BitVec 6) (k : BitVec 6) : encodes.Statement (.treef t k) := by
  intro w h wf
  have b0 := t.isLt; have b1 := k.isLt
  have e : w = 0xc000000c + t.toNat * 0x100000 + k.toNat * 0x100 := (Option.some.inj h).symm
  have f7_0 : field w 7 0 = 0xc := by unfold field; omega
  have f7_5 : field w 7 5 = 0x0 := by unfold field; omega
  have f19_14 : field w 19 14 = 0x0 := by unfold field; omega
  have f19_16 : field w 19 16 = 0x0 := by unfold field; omega
  have f19_19 : field w 19 19 = 0x0 := by unfold field; omega
  have n1 : (field w 19 0 = 0) = False := eq_false (by unfold field; omega)
  have n2 : (field w 13 0 = 0xa) = False := eq_false (by unfold field; omega)
  have n3 : (field w 13 0 = 0xb) = False := eq_false (by unfold field; omega)
  have v0 : bits 6 w 20 = t := bits_eq _ (by omega)
  have v1 : bits 6 w 8 = k := bits_eq _ (by omega)
  refine row_ok (r := .instr (.treef t k)) (row30 (by omega) ?_) wf (by omega)
  simp only [decodeMajor30, n3, n2, n1, f7_0, f7_5, f19_14, f19_16, f19_19, v0, v1]; rfl

theorem encodes.tstat (t : BitVec 6) (d : BitVec 6) : encodes.Statement (.tstat t d) := by
  intro w h wf
  have b0 := t.isLt; have b1 := d.isLt
  have e : w = 0xc000000d + t.toNat * 0x100000 + d.toNat * 0x4000 := (Option.some.inj h).symm
  have f7_0 : field w 7 0 = 0xd := by unfold field; omega
  have f7_5 : field w 7 5 = 0x0 := by unfold field; omega
  have f13_0 : field w 13 0 = 0xd := by unfold field; omega
  have n1 : (field w 19 0 = 0) = False := eq_false (by unfold field; omega)
  have v0 : bits 6 w 20 = t := bits_eq _ (by omega)
  have v1 : bits 6 w 14 = d := bits_eq _ (by omega)
  refine row_ok (r := .instr (.tstat t d)) (row30 (by omega) ?_) wf (by omega)
  simp only [decodeMajor30, n1, f7_0, f7_5, f13_0, v0, v1]; rfl

theorem encodes.tsetx (t : BitVec 6) (k : BitVec 6) : encodes.Statement (.tsetx t k) := by
  intro w h wf
  have b0 := t.isLt; have b1 := k.isLt
  have e : w = 0xc000000e + t.toNat * 0x100000 + k.toNat * 0x100 := (Option.some.inj h).symm
  have f7_0 : field w 7 0 = 0xe := by unfold field; omega
  have f7_5 : field w 7 5 = 0x0 := by unfold field; omega
  have f19_14 : field w 19 14 = 0x0 := by unfold field; omega
  have f19_16 : field w 19 16 = 0x0 := by unfold field; omega
  have f19_19 : field w 19 19 = 0x0 := by unfold field; omega
  have n1 : (field w 19 0 = 0) = False := eq_false (by unfold field; omega)
  have n2 : (field w 13 0 = 0xa) = False := eq_false (by unfold field; omega)
  have n3 : (field w 13 0 = 0xb) = False := eq_false (by unfold field; omega)
  have n4 : (field w 13 0 = 0xd) = False := eq_false (by unfold field; omega)
  have v0 : bits 6 w 20 = t := bits_eq _ (by omega)
  have v1 : bits 6 w 8 = k := bits_eq _ (by omega)
  refine row_ok (r := .instr (.tsetx t k)) (row30 (by omega) ?_) wf (by omega)
  simp only [decodeMajor30, n4, n3, n2, n1, f7_0, f7_5, f19_14, f19_16, f19_19, v0, v1]; rfl

theorem encodes.taddx (t : BitVec 6) (k : BitVec 6) : encodes.Statement (.taddx t k) := by
  intro w h wf
  have b0 := t.isLt; have b1 := k.isLt
  have e : w = 0xc000000f + t.toNat * 0x100000 + k.toNat * 0x100 := (Option.some.inj h).symm
  have f7_0 : field w 7 0 = 0xf := by unfold field; omega
  have f7_5 : field w 7 5 = 0x0 := by unfold field; omega
  have f19_14 : field w 19 14 = 0x0 := by unfold field; omega
  have f19_16 : field w 19 16 = 0x0 := by unfold field; omega
  have f19_19 : field w 19 19 = 0x0 := by unfold field; omega
  have n1 : (field w 19 0 = 0) = False := eq_false (by unfold field; omega)
  have n2 : (field w 13 0 = 0xa) = False := eq_false (by unfold field; omega)
  have n3 : (field w 13 0 = 0xb) = False := eq_false (by unfold field; omega)
  have n4 : (field w 13 0 = 0xd) = False := eq_false (by unfold field; omega)
  have v0 : bits 6 w 20 = t := bits_eq _ (by omega)
  have v1 : bits 6 w 8 = k := bits_eq _ (by omega)
  refine row_ok (r := .instr (.taddx t k)) (row30 (by omega) ?_) wf (by omega)
  simp only [decodeMajor30, n4, n3, n2, n1, f7_0, f7_5, f19_14, f19_16, f19_19, v0, v1]; rfl

theorem encodes.sopen (a : BitVec 6) (p : BitVec 3) (c : BitVec 1) (xs : BitVec 3) : encodes.Statement (.sopen a p c xs) := by
  intro w h wf
  have b0 := a.isLt; have b1 := p.isLt; have b2 := c.isLt; have b3 := xs.isLt
  have e : w = 0xc4000000 + a.toNat * 0x4000 + p.toNat * 0x20 + c.toNat * 0x10 + xs.toNat := (Option.some.inj h).symm
  have f3_3 : field w 3 3 = 0x0 := by unfold field; omega
  have f13_8 : field w 13 8 = 0x0 := by unfold field; omega
  have f25_20 : field w 25 20 = 0x0 := by unfold field; omega
  have v0 : bits 6 w 14 = a := bits_eq _ (by omega)
  have v1 : bits 3 w 5 = p := bits_eq _ (by omega)
  have v2 : bits 1 w 4 = c := bits_eq _ (by omega)
  have v3 : bits 3 w 0 = xs := bits_eq _ (by omega)
  refine row_ok (r := .instr (.sopen a p c xs)) (row31 (by omega) ?_) wf (by omega)
  simp only [decodeMajor31, f3_3, f13_8, f25_20, v0, v1, v2, v3]; rfl

theorem encodes.sclose (p : BitVec 3) : encodes.Statement (.sclose p) := by
  intro w h wf
  have b0 := p.isLt
  have e : w = 0xc4000100 + p.toNat * 0x20 := (Option.some.inj h).symm
  have f3_3 : field w 3 3 = 0x0 := by unfold field; omega
  have f4_0 : field w 4 0 = 0x0 := by unfold field; omega
  have f13_8 : field w 13 8 = 0x1 := by unfold field; omega
  have f25_8 : field w 25 8 = 0x1 := by unfold field; omega
  have f25_20 : field w 25 20 = 0x0 := by unfold field; omega
  have v0 : bits 3 w 5 = p := bits_eq _ (by omega)
  refine row_ok (r := .instr (.sclose p)) (row31 (by omega) ?_) wf (by omega)
  simp only [decodeMajor31, f3_3, f4_0, f13_8, f25_8, f25_20, v0]; rfl

theorem encodes.sbind (v : BitVec 5) (p : BitVec 3) : encodes.Statement (.sbind v p) := by
  intro w h wf
  have b0 := v.isLt; have b1 := p.isLt
  have e : w = 0xc4000200 + v.toNat * 0x100000 + p.toNat * 0x20 := (Option.some.inj h).symm
  have f3_3 : field w 3 3 = 0x0 := by unfold field; omega
  have f4_0 : field w 4 0 = 0x0 := by unfold field; omega
  have f13_8 : field w 13 8 = 0x2 := by unfold field; omega
  have f19_8 : field w 19 8 = 0x2 := by unfold field; omega
  have f25_25 : field w 25 25 = 0x0 := by unfold field; omega
  have n1 : (field w 25 8 = 1) = False := eq_false (by unfold field; omega)
  have v0 : bits 5 w 20 = v := bits_eq _ (by omega)
  have v1 : bits 3 w 5 = p := bits_eq _ (by omega)
  refine row_ok (r := .instr (.sbind v p)) (row31 (by omega) ?_) wf (by omega)
  simp only [decodeMajor31, n1, f3_3, f4_0, f13_8, f19_8, f25_25, v0, v1]; rfl

theorem encodes.sunbind (p : BitVec 3) : encodes.Statement (.sunbind p) := by
  intro w h wf
  have b0 := p.isLt
  have e : w = 0xc4000300 + p.toNat * 0x20 := (Option.some.inj h).symm
  have f3_3 : field w 3 3 = 0x0 := by unfold field; omega
  have f4_0 : field w 4 0 = 0x0 := by unfold field; omega
  have f13_8 : field w 13 8 = 0x3 := by unfold field; omega
  have f19_8 : field w 19 8 = 0x3 := by unfold field; omega
  have f25_8 : field w 25 8 = 0x3 := by unfold field; omega
  have f25_20 : field w 25 20 = 0x0 := by unfold field; omega
  have f25_25 : field w 25 25 = 0x0 := by unfold field; omega
  have v0 : bits 3 w 5 = p := bits_eq _ (by omega)
  refine row_ok (r := .instr (.sunbind p)) (row31 (by omega) ?_) wf (by omega)
  simp only [decodeMajor31, f3_3, f4_0, f13_8, f19_8, f25_8, f25_20, f25_25, v0]; rfl

theorem encodes.sstat (d : BitVec 6) (p : BitVec 3) : encodes.Statement (.sstat d p) := by
  intro w h wf
  have b0 := d.isLt; have b1 := p.isLt
  have e : w = 0xc4000400 + d.toNat * 0x100000 + p.toNat * 0x20 := (Option.some.inj h).symm
  have f3_3 : field w 3 3 = 0x0 := by unfold field; omega
  have f4_0 : field w 4 0 = 0x0 := by unfold field; omega
  have f13_8 : field w 13 8 = 0x4 := by unfold field; omega
  have f19_8 : field w 19 8 = 0x4 := by unfold field; omega
  have n1 : (field w 25 8 = 1) = False := eq_false (by unfold field; omega)
  have n2 : (field w 25 8 = 3) = False := eq_false (by unfold field; omega)
  have v0 : bits 6 w 20 = d := bits_eq _ (by omega)
  have v1 : bits 3 w 5 = p := bits_eq _ (by omega)
  refine row_ok (r := .instr (.sstat d p)) (row31 (by omega) ?_) wf (by omega)
  simp only [decodeMajor31, n2, n1, f3_3, f4_0, f13_8, f19_8, v0, v1]; rfl

theorem encodes.sbar (p : BitVec 3) : encodes.Statement (.sbar p) := by
  intro w h wf
  have b0 := p.isLt
  have e : w = 0xc4000500 + p.toNat * 0x20 := (Option.some.inj h).symm
  have f3_3 : field w 3 3 = 0x0 := by unfold field; omega
  have f4_0 : field w 4 0 = 0x0 := by unfold field; omega
  have f13_8 : field w 13 8 = 0x5 := by unfold field; omega
  have f19_8 : field w 19 8 = 0x5 := by unfold field; omega
  have f25_8 : field w 25 8 = 0x5 := by unfold field; omega
  have f25_20 : field w 25 20 = 0x0 := by unfold field; omega
  have f25_25 : field w 25 25 = 0x0 := by unfold field; omega
  have v0 : bits 3 w 5 = p := bits_eq _ (by omega)
  refine row_ok (r := .instr (.sbar p)) (row31 (by omega) ?_) wf (by omega)
  simp only [decodeMajor31, f3_3, f4_0, f13_8, f19_8, f25_8, f25_20, f25_25, v0]; rfl

theorem encodes.cpy (d : BitVec 6) (a : BitVec 6) (c : BitVec 1) (l : BitVec 1) (xs : BitVec 3) : encodes.Statement (.cpy d a c l xs) := by
  intro w h wf
  have b0 := d.isLt; have b1 := a.isLt; have b2 := c.isLt; have b3 := l.isLt; have b4 := xs.isLt
  have e : w = 0xc4001000 + d.toNat * 0x100000 + a.toNat * 0x4000 + c.toNat * 0x10 + l.toNat * 0x8 + xs.toNat := (Option.some.inj h).symm
  have f13_5 : field w 13 5 = 0x80 := by unfold field; omega
  have f13_8 : field w 13 8 = 0x10 := by unfold field; omega
  have n1 : (field w 25 8 = 1) = False := eq_false (by unfold field; omega)
  have n2 : (field w 19 8 = 2) = False := eq_false (by unfold field; omega)
  have n3 : (field w 25 8 = 3) = False := eq_false (by unfold field; omega)
  have n4 : (field w 19 8 = 4) = False := eq_false (by unfold field; omega)
  have n5 : (field w 25 8 = 5) = False := eq_false (by unfold field; omega)
  have v0 : bits 6 w 20 = d := bits_eq _ (by omega)
  have v1 : bits 6 w 14 = a := bits_eq _ (by omega)
  have v2 : bits 1 w 4 = c := bits_eq _ (by omega)
  have v3 : bits 1 w 3 = l := bits_eq _ (by omega)
  have v4 : bits 3 w 0 = xs := bits_eq _ (by omega)
  refine row_ok (r := .instr (.cpy d a c l xs)) (row31 (by omega) ?_) wf (by omega)
  simp only [decodeMajor31, n5, n4, n3, n2, n1, f13_5, f13_8, v0, v1, v2, v3, v4]; simp

theorem encodes.cpys (d : BitVec 6) (a : BitVec 6) (c : BitVec 1) (l : BitVec 1) (xs : BitVec 3) : encodes.Statement (.cpys d a c l xs) := by
  intro w h wf
  have b0 := d.isLt; have b1 := a.isLt; have b2 := c.isLt; have b3 := l.isLt; have b4 := xs.isLt
  have e : w = 0xc4001100 + d.toNat * 0x100000 + a.toNat * 0x4000 + c.toNat * 0x10 + l.toNat * 0x8 + xs.toNat := (Option.some.inj h).symm
  have f13_5 : field w 13 5 = 0x88 := by unfold field; omega
  have f13_8 : field w 13 8 = 0x11 := by unfold field; omega
  have n1 : (field w 25 8 = 1) = False := eq_false (by unfold field; omega)
  have n2 : (field w 19 8 = 2) = False := eq_false (by unfold field; omega)
  have n3 : (field w 25 8 = 3) = False := eq_false (by unfold field; omega)
  have n4 : (field w 19 8 = 4) = False := eq_false (by unfold field; omega)
  have n5 : (field w 25 8 = 5) = False := eq_false (by unfold field; omega)
  have v0 : bits 6 w 20 = d := bits_eq _ (by omega)
  have v1 : bits 6 w 14 = a := bits_eq _ (by omega)
  have v2 : bits 1 w 4 = c := bits_eq _ (by omega)
  have v3 : bits 1 w 3 = l := bits_eq _ (by omega)
  have v4 : bits 3 w 0 = xs := bits_eq _ (by omega)
  refine row_ok (r := .instr (.cpys d a c l xs)) (row31 (by omega) ?_) wf (by omega)
  simp only [decodeMajor31, n5, n4, n3, n2, n1, f13_5, f13_8, v0, v1, v2, v3, v4]; simp

theorem encodes.cpypf (d : BitVec 6) (a : BitVec 6) : encodes.Statement (.cpypf d a) := by
  intro w h wf
  have b0 := d.isLt; have b1 := a.isLt
  have e : w = 0xc4001200 + d.toNat * 0x100000 + a.toNat * 0x4000 := (Option.some.inj h).symm
  have f3_3 : field w 3 3 = 0x0 := by unfold field; omega
  have f4_0 : field w 4 0 = 0x0 := by unfold field; omega
  have f13_0 : field w 13 0 = 0x1200 := by unfold field; omega
  have f13_5 : field w 13 5 = 0x90 := by unfold field; omega
  have f13_8 : field w 13 8 = 0x12 := by unfold field; omega
  have n1 : (field w 25 8 = 1) = False := eq_false (by unfold field; omega)
  have n2 : (field w 19 8 = 2) = False := eq_false (by unfold field; omega)
  have n3 : (field w 25 8 = 3) = False := eq_false (by unfold field; omega)
  have n4 : (field w 19 8 = 4) = False := eq_false (by unfold field; omega)
  have n5 : (field w 25 8 = 5) = False := eq_false (by unfold field; omega)
  have v0 : bits 6 w 20 = d := bits_eq _ (by omega)
  have v1 : bits 6 w 14 = a := bits_eq _ (by omega)
  refine row_ok (r := .instr (.cpypf d a)) (row31 (by omega) ?_) wf (by omega)
  simp only [decodeMajor31, n5, n4, n3, n2, n1, f3_3, f4_0, f13_0, f13_5, f13_8, v0, v1]; rfl

theorem encodes.klaunch (d : BitVec 6) (a : BitVec 6) : encodes.Statement (.klaunch d a) := by
  intro w h wf
  have b0 := d.isLt; have b1 := a.isLt
  have e : w = 0xc8000000 + d.toNat * 0x100000 + a.toNat * 0x4000 := (Option.some.inj h).symm
  have f13_0 : field w 13 0 = 0x0 := by unfold field; omega
  have v0 : bits 6 w 20 = d := bits_eq _ (by omega)
  have v1 : bits 6 w 14 = a := bits_eq _ (by omega)
  refine row_ok (r := .instr (.klaunch d a)) (row32 (by omega) ?_) wf (by omega)
  simp only [decodeMajor32, f13_0, v0, v1]; rfl

theorem encodes.vfork (d : BitVec 6) (a : BitVec 6) : encodes.Statement (.vfork d a) := by
  intro w h wf
  have b0 := d.isLt; have b1 := a.isLt
  have e : w = 0xc8000008 + d.toNat * 0x100000 + a.toNat * 0x4000 := (Option.some.inj h).symm
  have f13_0 : field w 13 0 = 0x8 := by unfold field; omega
  have v0 : bits 6 w 20 = d := bits_eq _ (by omega)
  have v1 : bits 6 w 14 = a := bits_eq _ (by omega)
  refine row_ok (r := .instr (.vfork d a)) (row32 (by omega) ?_) wf (by omega)
  simp only [decodeMajor32, f13_0, v0, v1]; rfl

theorem encodes.vjoin (a : BitVec 6) : encodes.Statement (.vjoin a) := by
  intro w h wf
  have b0 := a.isLt
  have e : w = 0xc8000009 + a.toNat * 0x4000 := (Option.some.inj h).symm
  have f13_0 : field w 13 0 = 0x9 := by unfold field; omega
  have f25_20 : field w 25 20 = 0x0 := by unfold field; omega
  have v0 : bits 6 w 14 = a := bits_eq _ (by omega)
  refine row_ok (r := .instr (.vjoin a)) (row32 (by omega) ?_) wf (by omega)
  simp only [decodeMajor32, f13_0, f25_20, v0]; rfl

theorem encodes.efork (a : BitVec 6) (c : BitVec 6) : encodes.Statement (.efork a c) := by
  intro w h wf
  have b0 := a.isLt; have b1 := c.isLt
  have e : w = 0xc800000a + a.toNat * 0x4000 + c.toNat * 0x100 := (Option.some.inj h).symm
  have f7_0 : field w 7 0 = 0xa := by unfold field; omega
  have f25_20 : field w 25 20 = 0x0 := by unfold field; omega
  have n1 : (field w 13 0 = 0) = False := eq_false (by unfold field; omega)
  have n2 : (field w 13 0 = 8) = False := eq_false (by unfold field; omega)
  have n3 : (field w 13 0 = 9) = False := eq_false (by unfold field; omega)
  have v0 : bits 6 w 14 = a := bits_eq _ (by omega)
  have v1 : bits 6 w 8 = c := bits_eq _ (by omega)
  refine row_ok (r := .instr (.efork a c)) (row32 (by omega) ?_) wf (by omega)
  simp only [decodeMajor32, n3, n2, n1, f7_0, f25_20, v0, v1]; rfl

theorem encodes.erdv : encodes.Statement (.erdv) := by
  intro w h wf
  have e : w = 0xc800000b := (Option.some.inj h).symm
  have f7_0 : field w 7 0 = 0xb := by unfold field; omega
  have f13_0 : field w 13 0 = 0xb := by unfold field; omega
  have f25_0 : field w 25 0 = 0xb := by unfold field; omega
  have f25_20 : field w 25 20 = 0x0 := by unfold field; omega
  refine row_ok (r := .instr (.erdv)) (row32 (by omega) ?_) wf (by omega)
  simp only [decodeMajor32, f7_0, f13_0, f25_0, f25_20]; rfl

theorem encodes.gexit : encodes.Statement (.gexit) := by
  intro w h wf
  have e : w = 0xc800000c := (Option.some.inj h).symm
  have f7_0 : field w 7 0 = 0xc := by unfold field; omega
  have f13_0 : field w 13 0 = 0xc := by unfold field; omega
  have f25_0 : field w 25 0 = 0xc := by unfold field; omega
  have f25_20 : field w 25 20 = 0x0 := by unfold field; omega
  refine row_ok (r := .instr (.gexit)) (row32 (by omega) ?_) wf (by omega)
  simp only [decodeMajor32, f7_0, f13_0, f25_0, f25_20]; rfl

theorem encodes.gid (d : BitVec 6) (n : BitVec 6) : encodes.Statement (.gid d n) := by
  intro w h wf
  have b0 := d.isLt; have b1 := n.isLt
  have e : w = 0xc800000d + d.toNat * 0x100000 + n.toNat * 0x100 := (Option.some.inj h).symm
  have f7_0 : field w 7 0 = 0xd := by unfold field; omega
  have f19_14 : field w 19 14 = 0x0 := by unfold field; omega
  have n1 : (field w 13 0 = 0) = False := eq_false (by unfold field; omega)
  have n2 : (field w 13 0 = 8) = False := eq_false (by unfold field; omega)
  have n3 : (field w 13 0 = 9) = False := eq_false (by unfold field; omega)
  have n4 : (field w 25 0 = 0xb) = False := eq_false (by unfold field; omega)
  have n5 : (field w 25 0 = 0xc) = False := eq_false (by unfold field; omega)
  have v0 : bits 6 w 20 = d := bits_eq _ (by omega)
  have v1 : bits 6 w 8 = n := bits_eq _ (by omega)
  refine row_ok (r := .instr (.gid d n)) (row32 (by omega) ?_) wf (by omega)
  simp only [decodeMajor32, n5, n4, n3, n2, n1, f7_0, f19_14, v0, v1]; rfl

theorem encodes.tqpush (a : BitVec 6) (b : BitVec 6) : encodes.Statement (.tqpush a b) := by
  intro w h wf
  have b0 := a.isLt; have b1 := b.isLt
  have e : w = 0xc8000010 + a.toNat * 0x4000 + b.toNat * 0x100 := (Option.some.inj h).symm
  have f7_0 : field w 7 0 = 0x10 := by unfold field; omega
  have f25_20 : field w 25 20 = 0x0 := by unfold field; omega
  have n1 : (field w 13 0 = 0) = False := eq_false (by unfold field; omega)
  have n2 : (field w 13 0 = 8) = False := eq_false (by unfold field; omega)
  have n3 : (field w 13 0 = 9) = False := eq_false (by unfold field; omega)
  have n4 : (field w 25 0 = 0xb) = False := eq_false (by unfold field; omega)
  have n5 : (field w 25 0 = 0xc) = False := eq_false (by unfold field; omega)
  have v0 : bits 6 w 14 = a := bits_eq _ (by omega)
  have v1 : bits 6 w 8 = b := bits_eq _ (by omega)
  refine row_ok (r := .instr (.tqpush a b)) (row32 (by omega) ?_) wf (by omega)
  simp only [decodeMajor32, n5, n4, n3, n2, n1, f7_0, f25_20, v0, v1]; rfl

theorem encodes.tqpushn (d : BitVec 6) (a : BitVec 6) (b : BitVec 6) : encodes.Statement (.tqpushn d a b) := by
  intro w h wf
  have b0 := d.isLt; have b1 := a.isLt; have b2 := b.isLt
  have e : w = 0xc8000011 + d.toNat * 0x100000 + a.toNat * 0x4000 + b.toNat * 0x100 := (Option.some.inj h).symm
  have f7_0 : field w 7 0 = 0x11 := by unfold field; omega
  have n1 : (field w 13 0 = 0) = False := eq_false (by unfold field; omega)
  have n2 : (field w 13 0 = 8) = False := eq_false (by unfold field; omega)
  have n3 : (field w 13 0 = 9) = False := eq_false (by unfold field; omega)
  have n4 : (field w 25 0 = 0xb) = False := eq_false (by unfold field; omega)
  have n5 : (field w 25 0 = 0xc) = False := eq_false (by unfold field; omega)
  have v0 : bits 6 w 20 = d := bits_eq _ (by omega)
  have v1 : bits 6 w 14 = a := bits_eq _ (by omega)
  have v2 : bits 6 w 8 = b := bits_eq _ (by omega)
  refine row_ok (r := .instr (.tqpushn d a b)) (row32 (by omega) ?_) wf (by omega)
  simp only [decodeMajor32, n5, n4, n3, n2, n1, f7_0, v0, v1, v2]; rfl

theorem encodes.tdone (a : BitVec 6) : encodes.Statement (.tdone a) := by
  intro w h wf
  have b0 := a.isLt
  have e : w = 0xc8000012 + a.toNat * 0x4000 := (Option.some.inj h).symm
  have f7_0 : field w 7 0 = 0x12 := by unfold field; omega
  have f13_0 : field w 13 0 = 0x12 := by unfold field; omega
  have f25_20 : field w 25 20 = 0x0 := by unfold field; omega
  have n1 : (field w 25 0 = 0xb) = False := eq_false (by unfold field; omega)
  have n2 : (field w 25 0 = 0xc) = False := eq_false (by unfold field; omega)
  have v0 : bits 6 w 14 = a := bits_eq _ (by omega)
  refine row_ok (r := .instr (.tdone a)) (row32 (by omega) ?_) wf (by omega)
  simp only [decodeMajor32, n2, n1, f7_0, f13_0, f25_20, v0]; rfl

theorem encodes.tqstat (d : BitVec 6) (a : BitVec 6) : encodes.Statement (.tqstat d a) := by
  intro w h wf
  have b0 := d.isLt; have b1 := a.isLt
  have e : w = 0xc8000013 + d.toNat * 0x100000 + a.toNat * 0x4000 := (Option.some.inj h).symm
  have f7_0 : field w 7 0 = 0x13 := by unfold field; omega
  have f13_0 : field w 13 0 = 0x13 := by unfold field; omega
  have n1 : (field w 25 0 = 0xb) = False := eq_false (by unfold field; omega)
  have n2 : (field w 25 0 = 0xc) = False := eq_false (by unfold field; omega)
  have v0 : bits 6 w 20 = d := bits_eq _ (by omega)
  have v1 : bits 6 w 14 = a := bits_eq _ (by omega)
  refine row_ok (r := .instr (.tqstat d a)) (row32 (by omega) ?_) wf (by omega)
  simp only [decodeMajor32, n2, n1, f7_0, f13_0, v0, v1]; rfl

theorem encodes.mimport (d : BitVec 6) (a : BitVec 6) (c : BitVec 1) (l : BitVec 1) (xs : BitVec 3) : encodes.Statement (.mimport d a c l xs) := by
  intro w h wf
  have b0 := d.isLt; have b1 := a.isLt; have b2 := c.isLt; have b3 := l.isLt; have b4 := xs.isLt
  have e : w = 0xcc000000 + d.toNat * 0x100000 + a.toNat * 0x4000 + c.toNat * 0x10 + l.toNat * 0x8 + xs.toNat := (Option.some.inj h).symm
  have f13_5 : field w 13 5 = 0x0 := by unfold field; omega
  have v0 : bits 6 w 20 = d := bits_eq _ (by omega)
  have v1 : bits 6 w 14 = a := bits_eq _ (by omega)
  have v2 : bits 1 w 4 = c := bits_eq _ (by omega)
  have v3 : bits 1 w 3 = l := bits_eq _ (by omega)
  have v4 : bits 3 w 0 = xs := bits_eq _ (by omega)
  refine row_ok (r := .instr (.mimport d a c l xs)) (row33 (by omega) ?_) wf (by omega)
  simp only [decodeMajor33, f13_5, v0, v1, v2, v3, v4]; rfl

theorem encodes.mexport (d : BitVec 6) (a : BitVec 6) (c : BitVec 1) (l : BitVec 1) (xs : BitVec 3) : encodes.Statement (.mexport d a c l xs) := by
  intro w h wf
  have b0 := d.isLt; have b1 := a.isLt; have b2 := c.isLt; have b3 := l.isLt; have b4 := xs.isLt
  have e : w = 0xcc000100 + d.toNat * 0x100000 + a.toNat * 0x4000 + c.toNat * 0x10 + l.toNat * 0x8 + xs.toNat := (Option.some.inj h).symm
  have f13_5 : field w 13 5 = 0x8 := by unfold field; omega
  have v0 : bits 6 w 20 = d := bits_eq _ (by omega)
  have v1 : bits 6 w 14 = a := bits_eq _ (by omega)
  have v2 : bits 1 w 4 = c := bits_eq _ (by omega)
  have v3 : bits 1 w 3 = l := bits_eq _ (by omega)
  have v4 : bits 3 w 0 = xs := bits_eq _ (by omega)
  refine row_ok (r := .instr (.mexport d a c l xs)) (row33 (by omega) ?_) wf (by omega)
  simp only [decodeMajor33, f13_5, v0, v1, v2, v3, v4]; rfl

theorem encodes.mrefine (d : BitVec 6) (a : BitVec 6) (c : BitVec 1) (l : BitVec 1) (xs : BitVec 3) : encodes.Statement (.mrefine d a c l xs) := by
  intro w h wf
  have b0 := d.isLt; have b1 := a.isLt; have b2 := c.isLt; have b3 := l.isLt; have b4 := xs.isLt
  have e : w = 0xcc000200 + d.toNat * 0x100000 + a.toNat * 0x4000 + c.toNat * 0x10 + l.toNat * 0x8 + xs.toNat := (Option.some.inj h).symm
  have f13_5 : field w 13 5 = 0x10 := by unfold field; omega
  have v0 : bits 6 w 20 = d := bits_eq _ (by omega)
  have v1 : bits 6 w 14 = a := bits_eq _ (by omega)
  have v2 : bits 1 w 4 = c := bits_eq _ (by omega)
  have v3 : bits 1 w 3 = l := bits_eq _ (by omega)
  have v4 : bits 3 w 0 = xs := bits_eq _ (by omega)
  refine row_ok (r := .instr (.mrefine d a c l xs)) (row33 (by omega) ?_) wf (by omega)
  simp only [decodeMajor33, f13_5, v0, v1, v2, v3, v4]; rfl

theorem encodes.mcoarsen (d : BitVec 6) (a : BitVec 6) (c : BitVec 1) (l : BitVec 1) (xs : BitVec 3) : encodes.Statement (.mcoarsen d a c l xs) := by
  intro w h wf
  have b0 := d.isLt; have b1 := a.isLt; have b2 := c.isLt; have b3 := l.isLt; have b4 := xs.isLt
  have e : w = 0xcc000300 + d.toNat * 0x100000 + a.toNat * 0x4000 + c.toNat * 0x10 + l.toNat * 0x8 + xs.toNat := (Option.some.inj h).symm
  have f13_5 : field w 13 5 = 0x18 := by unfold field; omega
  have v0 : bits 6 w 20 = d := bits_eq _ (by omega)
  have v1 : bits 6 w 14 = a := bits_eq _ (by omega)
  have v2 : bits 1 w 4 = c := bits_eq _ (by omega)
  have v3 : bits 1 w 3 = l := bits_eq _ (by omega)
  have v4 : bits 3 w 0 = xs := bits_eq _ (by omega)
  refine row_ok (r := .instr (.mcoarsen d a c l xs)) (row33 (by omega) ?_) wf (by omega)
  simp only [decodeMajor33, f13_5, v0, v1, v2, v3, v4]; rfl

theorem encodes.mrenum (d : BitVec 6) (a : BitVec 6) (c : BitVec 1) (l : BitVec 1) (xs : BitVec 3) : encodes.Statement (.mrenum d a c l xs) := by
  intro w h wf
  have b0 := d.isLt; have b1 := a.isLt; have b2 := c.isLt; have b3 := l.isLt; have b4 := xs.isLt
  have e : w = 0xcc000400 + d.toNat * 0x100000 + a.toNat * 0x4000 + c.toNat * 0x10 + l.toNat * 0x8 + xs.toNat := (Option.some.inj h).symm
  have f13_5 : field w 13 5 = 0x20 := by unfold field; omega
  have v0 : bits 6 w 20 = d := bits_eq _ (by omega)
  have v1 : bits 6 w 14 = a := bits_eq _ (by omega)
  have v2 : bits 1 w 4 = c := bits_eq _ (by omega)
  have v3 : bits 1 w 3 = l := bits_eq _ (by omega)
  have v4 : bits 3 w 0 = xs := bits_eq _ (by omega)
  refine row_ok (r := .instr (.mrenum d a c l xs)) (row33 (by omega) ?_) wf (by omega)
  simp only [decodeMajor33, f13_5, v0, v1, v2, v3, v4]; rfl

theorem encodes.mstat (d : BitVec 6) (a : BitVec 6) (c : BitVec 1) (l : BitVec 1) (xs : BitVec 3) : encodes.Statement (.mstat d a c l xs) := by
  intro w h wf
  have b0 := d.isLt; have b1 := a.isLt; have b2 := c.isLt; have b3 := l.isLt; have b4 := xs.isLt
  have e : w = 0xcc000500 + d.toNat * 0x100000 + a.toNat * 0x4000 + c.toNat * 0x10 + l.toNat * 0x8 + xs.toNat := (Option.some.inj h).symm
  have f13_5 : field w 13 5 = 0x28 := by unfold field; omega
  have v0 : bits 6 w 20 = d := bits_eq _ (by omega)
  have v1 : bits 6 w 14 = a := bits_eq _ (by omega)
  have v2 : bits 1 w 4 = c := bits_eq _ (by omega)
  have v3 : bits 1 w 3 = l := bits_eq _ (by omega)
  have v4 : bits 3 w 0 = xs := bits_eq _ (by omega)
  refine row_ok (r := .instr (.mstat d a c l xs)) (row33 (by omega) ?_) wf (by omega)
  simp only [decodeMajor33, f13_5, v0, v1, v2, v3, v4]; rfl

theorem encodes.mcolour (d : BitVec 6) (a : BitVec 6) (c : BitVec 1) (l : BitVec 1) (xs : BitVec 3) : encodes.Statement (.mcolour d a c l xs) := by
  intro w h wf
  have b0 := d.isLt; have b1 := a.isLt; have b2 := c.isLt; have b3 := l.isLt; have b4 := xs.isLt
  have e : w = 0xcc001000 + d.toNat * 0x100000 + a.toNat * 0x4000 + c.toNat * 0x10 + l.toNat * 0x8 + xs.toNat := (Option.some.inj h).symm
  have f13_5 : field w 13 5 = 0x80 := by unfold field; omega
  have v0 : bits 6 w 20 = d := bits_eq _ (by omega)
  have v1 : bits 6 w 14 = a := bits_eq _ (by omega)
  have v2 : bits 1 w 4 = c := bits_eq _ (by omega)
  have v3 : bits 1 w 3 = l := bits_eq _ (by omega)
  have v4 : bits 3 w 0 = xs := bits_eq _ (by omega)
  refine row_ok (r := .instr (.mcolour d a c l xs)) (row33 (by omega) ?_) wf (by omega)
  simp only [decodeMajor33, f13_5, v0, v1, v2, v3, v4]; rfl

theorem encodes.mtrim (d : BitVec 6) (a : BitVec 6) (c : BitVec 1) (l : BitVec 1) (xs : BitVec 3) : encodes.Statement (.mtrim d a c l xs) := by
  intro w h wf
  have b0 := d.isLt; have b1 := a.isLt; have b2 := c.isLt; have b3 := l.isLt; have b4 := xs.isLt
  have e : w = 0xcc001100 + d.toNat * 0x100000 + a.toNat * 0x4000 + c.toNat * 0x10 + l.toNat * 0x8 + xs.toNat := (Option.some.inj h).symm
  have f13_5 : field w 13 5 = 0x88 := by unfold field; omega
  have v0 : bits 6 w 20 = d := bits_eq _ (by omega)
  have v1 : bits 6 w 14 = a := bits_eq _ (by omega)
  have v2 : bits 1 w 4 = c := bits_eq _ (by omega)
  have v3 : bits 1 w 3 = l := bits_eq _ (by omega)
  have v4 : bits 3 w 0 = xs := bits_eq _ (by omega)
  refine row_ok (r := .instr (.mtrim d a c l xs)) (row33 (by omega) ?_) wf (by omega)
  simp only [decodeMajor33, f13_5, v0, v1, v2, v3, v4]; rfl

theorem encodes.mmigr (d : BitVec 6) (a : BitVec 6) (c : BitVec 1) (l : BitVec 1) (xs : BitVec 3) : encodes.Statement (.mmigr d a c l xs) := by
  intro w h wf
  have b0 := d.isLt; have b1 := a.isLt; have b2 := c.isLt; have b3 := l.isLt; have b4 := xs.isLt
  have e : w = 0xcc001200 + d.toNat * 0x100000 + a.toNat * 0x4000 + c.toNat * 0x10 + l.toNat * 0x8 + xs.toNat := (Option.some.inj h).symm
  have f13_5 : field w 13 5 = 0x90 := by unfold field; omega
  have v0 : bits 6 w 20 = d := bits_eq _ (by omega)
  have v1 : bits 6 w 14 = a := bits_eq _ (by omega)
  have v2 : bits 1 w 4 = c := bits_eq _ (by omega)
  have v3 : bits 1 w 3 = l := bits_eq _ (by omega)
  have v4 : bits 3 w 0 = xs := bits_eq _ (by omega)
  refine row_ok (r := .instr (.mmigr d a c l xs)) (row33 (by omega) ?_) wf (by omega)
  simp only [decodeMajor33, f13_5, v0, v1, v2, v3, v4]; rfl

theorem encodes.mghost (d : BitVec 6) (a : BitVec 6) (c : BitVec 1) (l : BitVec 1) (xs : BitVec 3) : encodes.Statement (.mghost d a c l xs) := by
  intro w h wf
  have b0 := d.isLt; have b1 := a.isLt; have b2 := c.isLt; have b3 := l.isLt; have b4 := xs.isLt
  have e : w = 0xcc001300 + d.toNat * 0x100000 + a.toNat * 0x4000 + c.toNat * 0x10 + l.toNat * 0x8 + xs.toNat := (Option.some.inj h).symm
  have f13_5 : field w 13 5 = 0x98 := by unfold field; omega
  have v0 : bits 6 w 20 = d := bits_eq _ (by omega)
  have v1 : bits 6 w 14 = a := bits_eq _ (by omega)
  have v2 : bits 1 w 4 = c := bits_eq _ (by omega)
  have v3 : bits 1 w 3 = l := bits_eq _ (by omega)
  have v4 : bits 3 w 0 = xs := bits_eq _ (by omega)
  refine row_ok (r := .instr (.mghost d a c l xs)) (row33 (by omega) ?_) wf (by omega)
  simp only [decodeMajor33, f13_5, v0, v1, v2, v3, v4]; rfl

theorem encodes.kproj (d : BitVec 6) (a : BitVec 6) (c : BitVec 1) (l : BitVec 1) (xs : BitVec 3) : encodes.Statement (.kproj d a c l xs) := by
  intro w h wf
  have b0 := d.isLt; have b1 := a.isLt; have b2 := c.isLt; have b3 := l.isLt; have b4 := xs.isLt
  have e : w = 0xcc002000 + d.toNat * 0x100000 + a.toNat * 0x4000 + c.toNat * 0x10 + l.toNat * 0x8 + xs.toNat := (Option.some.inj h).symm
  have f13_5 : field w 13 5 = 0x100 := by unfold field; omega
  have v0 : bits 6 w 20 = d := bits_eq _ (by omega)
  have v1 : bits 6 w 14 = a := bits_eq _ (by omega)
  have v2 : bits 1 w 4 = c := bits_eq _ (by omega)
  have v3 : bits 1 w 3 = l := bits_eq _ (by omega)
  have v4 : bits 3 w 0 = xs := bits_eq _ (by omega)
  refine row_ok (r := .instr (.kproj d a c l xs)) (row33 (by omega) ?_) wf (by omega)
  simp only [decodeMajor33, f13_5, v0, v1, v2, v3, v4]; rfl

theorem encodes.kreset (d : BitVec 6) (a : BitVec 6) (c : BitVec 1) (l : BitVec 1) (xs : BitVec 3) : encodes.Statement (.kreset d a c l xs) := by
  intro w h wf
  have b0 := d.isLt; have b1 := a.isLt; have b2 := c.isLt; have b3 := l.isLt; have b4 := xs.isLt
  have e : w = 0xcc002100 + d.toNat * 0x100000 + a.toNat * 0x4000 + c.toNat * 0x10 + l.toNat * 0x8 + xs.toNat := (Option.some.inj h).symm
  have f13_5 : field w 13 5 = 0x108 := by unfold field; omega
  have v0 : bits 6 w 20 = d := bits_eq _ (by omega)
  have v1 : bits 6 w 14 = a := bits_eq _ (by omega)
  have v2 : bits 1 w 4 = c := bits_eq _ (by omega)
  have v3 : bits 1 w 3 = l := bits_eq _ (by omega)
  have v4 : bits 3 w 0 = xs := bits_eq _ (by omega)
  refine row_ok (r := .instr (.kreset d a c l xs)) (row33 (by omega) ?_) wf (by omega)
  simp only [decodeMajor33, f13_5, v0, v1, v2, v3, v4]; rfl

theorem encodes.kstat (d : BitVec 6) (a : BitVec 6) (c : BitVec 1) (l : BitVec 1) (xs : BitVec 3) : encodes.Statement (.kstat d a c l xs) := by
  intro w h wf
  have b0 := d.isLt; have b1 := a.isLt; have b2 := c.isLt; have b3 := l.isLt; have b4 := xs.isLt
  have e : w = 0xcc002200 + d.toNat * 0x100000 + a.toNat * 0x4000 + c.toNat * 0x10 + l.toNat * 0x8 + xs.toNat := (Option.some.inj h).symm
  have f13_5 : field w 13 5 = 0x110 := by unfold field; omega
  have v0 : bits 6 w 20 = d := bits_eq _ (by omega)
  have v1 : bits 6 w 14 = a := bits_eq _ (by omega)
  have v2 : bits 1 w 4 = c := bits_eq _ (by omega)
  have v3 : bits 1 w 3 = l := bits_eq _ (by omega)
  have v4 : bits 3 w 0 = xs := bits_eq _ (by omega)
  refine row_ok (r := .instr (.kstat d a c l xs)) (row33 (by omega) ?_) wf (by omega)
  simp only [decodeMajor33, f13_5, v0, v1, v2, v3, v4]; rfl

theorem encodes.swr (a : BitVec 6) (n : BitVec 12) : encodes.Statement (.swr a n) := by
  intro w h wf
  have b0 := a.isLt; have b1 := n.isLt
  have e : w = 0xe0001000 + a.toNat * 0x4000 + n.toNat := (Option.some.inj h).symm
  have f13_12 : field w 13 12 = 0x1 := by unfold field; omega
  have f25_20 : field w 25 20 = 0x0 := by unfold field; omega
  have v0 : bits 6 w 14 = a := bits_eq _ (by omega)
  have v1 : bits 12 w 0 = n := bits_eq _ (by omega)
  refine row_ok (r := .instr (.swr a n)) (row38 (by omega) ?_) wf (by omega)
  simp only [decodeMajor38, f13_12, f25_20, v0, v1]; rfl

theorem encodes.srset (a : BitVec 6) (n : BitVec 12) : encodes.Statement (.srset a n) := by
  intro w h wf
  have b0 := a.isLt; have b1 := n.isLt
  have e : w = 0xe0002000 + a.toNat * 0x4000 + n.toNat := (Option.some.inj h).symm
  have f13_12 : field w 13 12 = 0x2 := by unfold field; omega
  have f25_20 : field w 25 20 = 0x0 := by unfold field; omega
  have v0 : bits 6 w 14 = a := bits_eq _ (by omega)
  have v1 : bits 12 w 0 = n := bits_eq _ (by omega)
  refine row_ok (r := .instr (.srset a n)) (row38 (by omega) ?_) wf (by omega)
  simp only [decodeMajor38, f13_12, f25_20, v0, v1]; rfl

theorem encodes.srclr (a : BitVec 6) (n : BitVec 12) : encodes.Statement (.srclr a n) := by
  intro w h wf
  have b0 := a.isLt; have b1 := n.isLt
  have e : w = 0xe0003000 + a.toNat * 0x4000 + n.toNat := (Option.some.inj h).symm
  have f13_12 : field w 13 12 = 0x3 := by unfold field; omega
  have f25_20 : field w 25 20 = 0x0 := by unfold field; omega
  have v0 : bits 6 w 14 = a := bits_eq _ (by omega)
  have v1 : bits 12 w 0 = n := bits_eq _ (by omega)
  refine row_ok (r := .instr (.srclr a n)) (row38 (by omega) ?_) wf (by omega)
  simp only [decodeMajor38, f13_12, f25_20, v0, v1]; rfl

theorem encodes.ctxsv (d : BitVec 6) (a : BitVec 6) : encodes.Statement (.ctxsv d a) := by
  intro w h wf
  have b0 := d.isLt; have b1 := a.isLt
  have e : w = 0xe0000f00 + d.toNat * 0x100000 + a.toNat * 0x4000 := (Option.some.inj h).symm
  have f13_0 : field w 13 0 = 0xf00 := by unfold field; omega
  have f13_12 : field w 13 12 = 0x0 := by unfold field; omega
  have v0 : bits 6 w 20 = d := bits_eq _ (by omega)
  have v1 : bits 6 w 14 = a := bits_eq _ (by omega)
  refine row_ok (r := .instr (.ctxsv d a)) (row38 (by omega) ?_) wf (by omega)
  simp only [decodeMajor38, f13_0, f13_12, v0, v1]; rfl

theorem encodes.ctxld (d : BitVec 6) (a : BitVec 6) : encodes.Statement (.ctxld d a) := by
  intro w h wf
  have b0 := d.isLt; have b1 := a.isLt
  have e : w = 0xe0000f01 + d.toNat * 0x100000 + a.toNat * 0x4000 := (Option.some.inj h).symm
  have f13_0 : field w 13 0 = 0xf01 := by unfold field; omega
  have f13_12 : field w 13 12 = 0x0 := by unfold field; omega
  have v0 : bits 6 w 20 = d := bits_eq _ (by omega)
  have v1 : bits 6 w 14 = a := bits_eq _ (by omega)
  refine row_ok (r := .instr (.ctxld d a)) (row38 (by omega) ?_) wf (by omega)
  simp only [decodeMajor38, f13_0, f13_12, v0, v1]; rfl

theorem encodes.tlbinv (d : BitVec 6) (a : BitVec 6) : encodes.Statement (.tlbinv d a) := by
  intro w h wf
  have b0 := d.isLt; have b1 := a.isLt
  have e : w = 0xe0000f02 + d.toNat * 0x100000 + a.toNat * 0x4000 := (Option.some.inj h).symm
  have f13_0 : field w 13 0 = 0xf02 := by unfold field; omega
  have f13_12 : field w 13 12 = 0x0 := by unfold field; omega
  have v0 : bits 6 w 20 = d := bits_eq _ (by omega)
  have v1 : bits 6 w 14 = a := bits_eq _ (by omega)
  refine row_ok (r := .instr (.tlbinv d a)) (row38 (by omega) ?_) wf (by omega)
  simp only [decodeMajor38, f13_0, f13_12, v0, v1]; rfl

theorem encodes.probe (d : BitVec 6) (a : BitVec 6) : encodes.Statement (.probe d a) := by
  intro w h wf
  have b0 := d.isLt; have b1 := a.isLt
  have e : w = 0xe0000f03 + d.toNat * 0x100000 + a.toNat * 0x4000 := (Option.some.inj h).symm
  have f13_0 : field w 13 0 = 0xf03 := by unfold field; omega
  have f13_12 : field w 13 12 = 0x0 := by unfold field; omega
  have v0 : bits 6 w 20 = d := bits_eq _ (by omega)
  have v1 : bits 6 w 14 = a := bits_eq _ (by omega)
  refine row_ok (r := .instr (.probe d a)) (row38 (by omega) ?_) wf (by omega)
  simp only [decodeMajor38, f13_0, f13_12, v0, v1]; rfl

theorem encodes.pgmig (d : BitVec 6) (a : BitVec 6) : encodes.Statement (.pgmig d a) := by
  intro w h wf
  have b0 := d.isLt; have b1 := a.isLt
  have e : w = 0xe0000f04 + d.toNat * 0x100000 + a.toNat * 0x4000 := (Option.some.inj h).symm
  have f13_0 : field w 13 0 = 0xf04 := by unfold field; omega
  have f13_12 : field w 13 12 = 0x0 := by unfold field; omega
  have v0 : bits 6 w 20 = d := bits_eq _ (by omega)
  have v1 : bits 6 w 14 = a := bits_eq _ (by omega)
  refine row_ok (r := .instr (.pgmig d a)) (row38 (by omega) ?_) wf (by omega)
  simp only [decodeMajor38, f13_0, f13_12, v0, v1]; rfl

theorem encodes.shkill (a : BitVec 6) : encodes.Statement (.shkill a) := by
  intro w h wf
  have b0 := a.isLt
  have e : w = 0xe0000f05 + a.toNat * 0x4000 := (Option.some.inj h).symm
  have f13_0 : field w 13 0 = 0xf05 := by unfold field; omega
  have f13_12 : field w 13 12 = 0x0 := by unfold field; omega
  have f25_20 : field w 25 20 = 0x0 := by unfold field; omega
  have v0 : bits 6 w 14 = a := bits_eq _ (by omega)
  refine row_ok (r := .instr (.shkill a)) (row38 (by omega) ?_) wf (by omega)
  simp only [decodeMajor38, f13_0, f13_12, f25_20, v0]; rfl

theorem encodes.srd (d : BitVec 6) (n : BitVec 12) : encodes.Statement (.srd d n) := by
  intro w h wf
  have b0 := d.isLt; have b1 := n.isLt
  have e : w = 0xe0000000 + d.toNat * 0x100000 + n.toNat := (Option.some.inj h).symm
  have b9 : n.toNat < 0xF00 := of_decide_eq_true wf
  have f13_12 : field w 13 12 = 0x0 := by unfold field; omega
  have f19_12 : field w 19 12 = 0x0 := by unfold field; omega
  have n1 : (field w 13 0 = 0xf00) = False := eq_false (by unfold field; omega)
  have n2 : (field w 13 0 = 0xf01) = False := eq_false (by unfold field; omega)
  have n3 : (field w 13 0 = 0xf02) = False := eq_false (by unfold field; omega)
  have n4 : (field w 13 0 = 0xf03) = False := eq_false (by unfold field; omega)
  have n5 : (field w 13 0 = 0xf04) = False := eq_false (by unfold field; omega)
  have n6 : (field w 13 0 = 0xf05) = False := eq_false (by unfold field; omega)
  have v0 : bits 6 w 20 = d := bits_eq _ (by omega)
  have v1 : bits 12 w 0 = n := bits_eq _ (by omega)
  refine row_ok (r := .instr (.srd d n)) (row38 (by omega) ?_) wf (by omega)
  simp only [decodeMajor38, n6, n5, n4, n3, n2, n1, f13_12, f19_12, v0, v1]; rfl

theorem encodes.trap (n : BitVec 18) : encodes.Statement (.trap n) := by
  intro w h wf
  have b0 := n.isLt
  have e : w = 0xe4000000 + n.toNat * 0x100 := (Option.some.inj h).symm
  have f7_0 : field w 7 0 = 0x0 := by unfold field; omega
  have v0 : bits 18 w 8 = n := bits_eq _ (by omega)
  refine row_ok (r := .instr (.trap n)) (row39 (by omega) ?_) wf (by omega)
  simp only [decodeMajor39, f7_0, v0]; rfl

theorem encodes.brk (n : BitVec 18) : encodes.Statement (.brk n) := by
  intro w h wf
  have b0 := n.isLt
  have e : w = 0xe4000003 + n.toNat * 0x100 := (Option.some.inj h).symm
  have f7_0 : field w 7 0 = 0x3 := by unfold field; omega
  have v0 : bits 18 w 8 = n := bits_eq _ (by omega)
  refine row_ok (r := .instr (.brk n)) (row39 (by omega) ?_) wf (by omega)
  simp only [decodeMajor39, f7_0, v0]; rfl

theorem encodes.eret : encodes.Statement (.eret) := by
  intro w h wf
  have e : w = 0xe4000001 := (Option.some.inj h).symm
  have f7_0 : field w 7 0 = 0x1 := by unfold field; omega
  have f25_0 : field w 25 0 = 0x1 := by unfold field; omega
  refine row_ok (r := .instr (.eret)) (row39 (by omega) ?_) wf (by omega)
  simp only [decodeMajor39, f7_0, f25_0]; rfl

theorem encodes.uiret : encodes.Statement (.uiret) := by
  intro w h wf
  have e : w = 0xe4000002 := (Option.some.inj h).symm
  have f7_0 : field w 7 0 = 0x2 := by unfold field; omega
  have f25_0 : field w 25 0 = 0x2 := by unfold field; omega
  refine row_ok (r := .instr (.uiret)) (row39 (by omega) ?_) wf (by omega)
  simp only [decodeMajor39, f7_0, f25_0]; rfl

theorem encodes.idle : encodes.Statement (.idle) := by
  intro w h wf
  have e : w = 0xe4000004 := (Option.some.inj h).symm
  have f7_0 : field w 7 0 = 0x4 := by unfold field; omega
  have f25_0 : field w 25 0 = 0x4 := by unfold field; omega
  refine row_ok (r := .instr (.idle)) (row39 (by omega) ?_) wf (by omega)
  simp only [decodeMajor39, f7_0, f25_0]; rfl
theorem encodes.slotStallRelease (q : Nat) : encodes.Statement (.slotStallRelease q) := nofun

theorem encodes.ulInterruptEntry (q : Nat) : encodes.Statement (.ulInterruptEntry q) := nofun

theorem encodes.vectorIssue (core : Nat) (k : VectorBeat) : encodes.Statement (.vectorIssue core k) := nofun

theorem encodes.recheckExecution (core : Nat) (vote : RecheckVote) : encodes.Statement (.recheckExecution core vote) := nofun

theorem encodes.recheckAgeExpiry (core : Nat) : encodes.Statement (.recheckAgeExpiry core) := nofun

theorem encodes.suspectScoreDecay : encodes.Statement (.suspectScoreDecay) := nofun

theorem encodes.laneGroupRemap (core : Nat) : encodes.Statement (.laneGroupRemap core) := nofun

theorem encodes.matrixStep (core : Nat) : encodes.Statement (.matrixStep core) := nofun

theorem encodes.copyEngineTransfer (isPort : Bool) (n : Nat) : encodes.Statement (.copyEngineTransfer isPort n) := nofun

theorem encodes.copyCompletion (n : Nat) : encodes.Statement (.copyCompletion n) := nofun

theorem encodes.scratchpadBankArbitration (core : Nat) : encodes.Statement (.scratchpadBankArbitration core) := nofun

theorem encodes.firstStageSave (q : Nat) : encodes.Statement (.firstStageSave q) := nofun

theorem encodes.preemptionLanding (q : Nat) : encodes.Statement (.preemptionLanding q) := nofun

theorem encodes.pageWalk (slice : Nat) (asid : Nat) (va : BitVec 64) (wr : Bool) : encodes.Statement (.pageWalk slice asid va wr) := nofun

theorem encodes.migrationCommit (n : Nat) (ok : Bool) : encodes.Statement (.migrationCommit n ok) := nofun

theorem encodes.frameUnreadableReport (pa : Nat) : encodes.Statement (.frameUnreadableReport pa) := nofun

theorem encodes.doorbell (queue : Nat) (off : Nat) (size : Nat) (v : BitVec 64) (outside : Bool) : encodes.Statement (.doorbell queue off size v outside) := nofun

theorem encodes.taskTake (queue : Nat) : encodes.Statement (.taskTake queue) := nofun

theorem encodes.readyPoolDispatch (die : Nat) : encodes.Statement (.readyPoolDispatch die) := nofun

theorem encodes.aging (die : Nat) (n : Nat) : encodes.Statement (.aging die n) := nofun

theorem encodes.leafGroupCreate (kernel : Nat) : encodes.Statement (.leafGroupCreate kernel) := nofun

theorem encodes.leafGroupEnded (kernel : Nat) (leaf : Nat) : encodes.Statement (.leafGroupEnded kernel leaf) := nofun

theorem encodes.kernelComplete (kernel : Nat) : encodes.Statement (.kernelComplete kernel) := nofun

theorem encodes.kernelAborted (kernel : Nat) : encodes.Statement (.kernelAborted kernel) := nofun

theorem encodes.barrierMarkerFire (q : Nat) (k : Nat) : encodes.Statement (.barrierMarkerFire q k) := nofun

theorem encodes.continuationWalk (n : Nat) : encodes.Statement (.continuationWalk n) := nofun

theorem encodes.engineCommandCompletion (n : Nat) : encodes.Statement (.engineCommandCompletion n) := nofun

theorem encodes.remapPush (n : Nat) : encodes.Statement (.remapPush n) := nofun

theorem encodes.kstLinkPublish (n : Nat) : encodes.Statement (.kstLinkPublish n) := nofun

theorem encodes.shroudKill (tag : Nat) : encodes.Statement (.shroudKill tag) := nofun

theorem encodes.uncorrectableError (cls : Nat) (n : Nat) (sub : Nat) : encodes.Statement (.uncorrectableError cls n sub) := nofun

theorem encodes.hostInboundAccess (port : Nat) (bar : Nat) (off : Nat) (size : Nat) (wr : Bool) (v : List (BitVec 8)) (ep : Bool) : encodes.Statement (.hostInboundAccess port bar off size wr v ep) := nofun

theorem encodes.hostLinkDown (port : Nat) : encodes.Statement (.hostLinkDown port) := nofun

theorem encodes.cxlPortFailure (port : Nat) : encodes.Statement (.cxlPortFailure port) := nofun

theorem encodes.cxlPoisonReceived (pa : Nat) : encodes.Statement (.cxlPoisonReceived pa) := nofun

theorem encodes.flitReceive (link : Nat) (head : BitVec 64) (rsv : BitVec 64) (data : List (BitVec 64)) (req : List (BitVec 64)) (tail : BitVec 128) :
    encodes.Statement (.flitReceive link head rsv data req tail) := nofun

theorem encodes.nakReceive (link : Nat) (ack : BitVec 12) : encodes.Statement (.nakReceive link ack) := nofun

theorem encodes.linkTrainingResult (link : Nat) (lanes : Nat) : encodes.Statement (.linkTrainingResult link lanes) := nofun

theorem encodes.linkTrainingTimeout (link : Nat) : encodes.Statement (.linkTrainingTimeout link) := nofun

theorem encodes.laneLost (link : Nat) : encodes.Statement (.laneLost link) := nofun

theorem encodes.errorResponseReceived (link : Nat) (pa : Nat) (wr : Bool) (tag : Nat) : encodes.Statement (.errorResponseReceived link pa wr tag) := nofun

theorem encodes.powerOn : encodes.Statement (.powerOn) := nofun

theorem encodes.perst : encodes.Statement (.perst) := nofun

theorem encodes.clocksStable (bad : List (Nat × Nat)) : encodes.Statement (.clocksStable bad) := nofun

theorem encodes.selftestEnd : encodes.Statement (.selftestEnd) := nofun

theorem encodes.memtrainEnd (badStacks : BitVec 12) (cxlBytes : Nat) (found : Trained) : encodes.Statement (.memtrainEnd badStacks cxlBytes found) := nofun

theorem encodes.mctlReset : encodes.Statement (.mctlReset) := nofun

theorem encodes.mctlBoot : encodes.Statement (.mctlBoot) := nofun

theorem encodes.mctlHint : encodes.Statement (.mctlHint) := nofun

theorem encodes.mctlFreeze (on : Bool) : encodes.Statement (.mctlFreeze on) := nofun

theorem encodes.freezeHold : encodes.Statement (.freezeHold) := nofun

theorem encodes.mctlCapt (on : Bool) : encodes.Statement (.mctlCapt on) := nofun

theorem encodes.mctlRerun (on : Bool) : encodes.Statement (.mctlRerun on) := nofun

theorem encodes.fwlaunch (csa : BitVec 64) : encodes.Statement (.fwlaunch csa) := nofun

theorem encodes.pbudgetWrite (v : BitVec 64) : encodes.Statement (.pbudgetWrite v) := nofun

theorem encodes.powerArbitration (gates : List Nat) : encodes.Statement (.powerArbitration gates) := nofun

theorem encodes.linken (v : BitVec 64) : encodes.Statement (.linken v) := nofun

theorem encodes.errorRecordFree (n : Nat) : encodes.Statement (.errorRecordFree n) := nofun

theorem encodes.mgmtRegisterWrite (off : Nat) (v : BitVec 64) : encodes.Statement (.mgmtRegisterWrite off v) := nofun

theorem encodes.spbaseWrite (q : Nat) (v : BitVec 64) : encodes.Statement (.spbaseWrite q v) := nofun

theorem encodes.vlWrite (q : Nat) (v : BitVec 64) : encodes.Statement (.vlWrite q v) := nofun

theorem encodes.vcfgWrite (q : Nat) (v : BitVec 64) : encodes.Statement (.vcfgWrite q v) := nofun

theorem encodes.vlcapWrite (q : Nat) (v : BitVec 64) : encodes.Statement (.vlcapWrite q v) := nofun

theorem encodes.accrangeWrite (q : Nat) (lim : Bool) (v : BitVec 64) : encodes.Statement (.accrangeWrite q lim v) := nofun

theorem encodes.reefctlClr (q : Nat) : encodes.Statement (.reefctlClr q) := nofun

theorem encodes.agelimitWrite (q : Nat) (v : BitVec 64) : encodes.Statement (.agelimitWrite q v) := nofun

theorem encodes.contextIdWrite (q : Nat) (n : BitVec 12) (v : BitVec 64) : encodes.Statement (.contextIdWrite q n v) := nofun

theorem encodes.accessPerformed (q : Nat) (k : Nat) : encodes.Statement (.accessPerformed q k) := nofun

theorem encodes.neighBucketStreamFetch (core : Nat) (p : Nat) : encodes.Statement (.neighBucketStreamFetch core p) := nofun

end Sys2Proof.Laws
end

