-- ==== Sys2Proof/Tests/Slice0.lean ====
section
/-! SUPPORT. Tests: words written out from the formats and code tables of 03_encoding, operands that each check refuses, for each statement a state
and operands that meet its hypotheses, and a few single steps with results worked out from the spec. -/

namespace Sys2Proof.Tests

open Sys2Proof.Machine

set_option Elab.async false

/-- The word w is decoded to the instruction i. -/
abbrev Reads (w : Nat) (i : Instr) : Prop := decodeTableWord 32 w = some i

/-! Every word instruction once, its word packed from the match value and the field places that the opcode table gives (03_encoding R58 to R71). -/

theorem test_decode_major_01_a :
    Reads 0x06DCE500 (.add 0x2d 0x33 0x25) ∧ Reads 0x06DCE501 (.sub 0x2d 0x33 0x25) ∧ Reads 0x06DCE502 (.and 0x2d 0x33 0x25) ∧
    Reads 0x06DCE503 (.or 0x2d 0x33 0x25) ∧ Reads 0x06DCE504 (.xor 0x2d 0x33 0x25) ∧ Reads 0x06DCE505 (.andn 0x2d 0x33 0x25) ∧
    Reads 0x06DCE506 (.shl 0x2d 0x33 0x25) ∧ Reads 0x06DCE507 (.shr 0x2d 0x33 0x25) ∧ Reads 0x06DCE508 (.sar 0x2d 0x33 0x25) ∧
    Reads 0x06DCE509 (.mul 0x2d 0x33 0x25) ∧ Reads 0x06DCE50A (.mulh 0x2d 0x33 0x25) ∧ Reads 0x06DCE50B (.mulhz 0x2d 0x33 0x25) ∧
    Reads 0x06DCE50C (.div 0x2d 0x33 0x25) ∧ Reads 0x06DCE50D (.divz 0x2d 0x33 0x25) ∧ Reads 0x06DCE50E (.rem 0x2d 0x33 0x25) ∧
    Reads 0x06DCE50F (.remz 0x2d 0x33 0x25) ∧ Reads 0x06DCE510 (.min 0x2d 0x33 0x25) ∧ Reads 0x06DCE511 (.max 0x2d 0x33 0x25) ∧
    Reads 0x06DCE512 (.minz 0x2d 0x33 0x25) ∧ Reads 0x06DCE513 (.maxz 0x2d 0x33 0x25) ∧ Reads 0x06DCE517 (.addsh 0x2d 0x33 0x25 3) ∧
    Reads 0x06DCE518 (.sel 0x2d 0x33 0x25) ∧ Reads 0x06DCE519 (.cmpeq 0x2d 0x33 0x25) ∧ Reads 0x06DCE51A (.cmplt 0x2d 0x33 0x25) :=
  by decide +kernel

theorem test_decode_major_01_b :
    Reads 0x06DCE51B (.cmpltz 0x2d 0x33 0x25) ∧ Reads 0x06DCC01C (.clz 0x2d 0x33) ∧ Reads 0x06DCC01D (.ctz 0x2d 0x33) ∧
    Reads 0x06DCC01E (.popc 0x2d 0x33) ∧ Reads 0x06DCC01F (.bswap 0x2d 0x33) :=
  by decide +kernel

theorem test_decode_major_02 :
    Reads 0x0ADCE501 (.fadd 0x2d 0x33 0x25 1) ∧ Reads 0x0ADCE503 (.fsub 0x2d 0x33 0x25 1) ∧ Reads 0x0ADCE505 (.fmul 0x2d 0x33 0x25 1) ∧
    Reads 0x0ADCE507 (.fdiv 0x2d 0x33 0x25 1) ∧ Reads 0x0ADCC009 (.fsqrt 0x2d 0x33 1) ∧ Reads 0x0ADCE50B (.fma 0x2d 0x33 0x25 1) ∧
    Reads 0x0ADCE50D (.fmin 0x2d 0x33 0x25 1) ∧ Reads 0x0ADCE50F (.fmax 0x2d 0x33 0x25 1) ∧ Reads 0x0ADCE517 (.fcmp 0x2d 0x33 0x25 3 1) ∧
    Reads 0x0ADCC020 (.fcvtDS 0x2d 0x33) ∧ Reads 0x0ADCC021 (.fcvtSD 0x2d 0x33) ∧ Reads 0x0ADCC022 (.fcvtDI64 0x2d 0x33) ∧
    Reads 0x0ADCC023 (.fcvtSI64 0x2d 0x33) ∧ Reads 0x0ADCC024 (.fcvtDZ64 0x2d 0x33) ∧ Reads 0x0ADCC025 (.fcvtSZ64 0x2d 0x33) ∧
    Reads 0x0ADCC026 (.fcvtI64D 0x2d 0x33) ∧ Reads 0x0ADCC027 (.fcvtI64S 0x2d 0x33) ∧ Reads 0x0ADCC028 (.fcvtZ64D 0x2d 0x33) ∧
    Reads 0x0ADCC029 (.fcvtZ64S 0x2d 0x33) :=
  by decide +kernel

theorem test_decode_major_03 :
    Reads 0x0EDCE54A (.addi 0x2d 0x33 0x254a) :=
  by decide +kernel

theorem test_decode_major_04 :
    Reads 0x12DCE54A (.andi 0x2d 0x33 0x254a) :=
  by decide +kernel

theorem test_decode_major_05 :
    Reads 0x16DCE54A (.ori 0x2d 0x33 0x254a) :=
  by decide +kernel

theorem test_decode_major_06 :
    Reads 0x1ADCE54A (.xori 0x2d 0x33 0x254a) :=
  by decide +kernel

theorem test_decode_major_07 :
    Reads 0x1EDCC025 (.shli 0x2d 0x33 0x25) ∧ Reads 0x1EDCD025 (.shri 0x2d 0x33 0x25) ∧ Reads 0x1EDCE025 (.sari 0x2d 0x33 0x25) :=
  by decide +kernel

theorem test_decode_major_08 :
    Reads 0x22DCE54A (.cmplti 0x2d 0x33 0x254a) :=
  by decide +kernel

theorem test_decode_major_09 :
    Reads 0x26DCCCCC (.lih 0x2d 0xccccc) :=
  by decide +kernel

theorem test_decode_major_0a :
    Reads 0x2ADCCCCC (.addpc 0x2d 0xccccc) :=
  by decide +kernel

theorem test_decode_major_0b :
    Reads 0x2EDCEF1C (.ld 0x2d 0x33 5 0x71c) :=
  by decide +kernel

theorem test_decode_major_0c :
    Reads 0x32DCE71C (.st 0x2d 0x33 2 0x71c) :=
  by decide +kernel

theorem test_decode_major_0d :
    Reads 0x36DCC055 (.ldacq 0x2d 0x33 2 5) ∧ Reads 0x36DCC14D (.strel 0x2d 0x33 2 5) ∧ Reads 0x340B4276 (.acq 0x2d 6) ∧
    Reads 0x340B436E (.rel 0x2d 6) ∧ Reads 0x36DCC400 (.gbind 0x2d 0x33) ∧ Reads 0x340B4500 (.gunbind 0x2d) ∧
    Reads 0x3400061D (.gfence 5) :=
  by decide +kernel

theorem test_decode_major_0e :
    Reads 0x3ADCC07C (.amoadd 0x2d 0x33 1 1 1 4) ∧ Reads 0x3ADCC17C (.amoswap 0x2d 0x33 1 1 1 4) ∧
    Reads 0x3ACCC27C (.amocas 0x2c 0x33 1 1 1 4) ∧ Reads 0x3ADCC37C (.amomin 0x2d 0x33 1 1 1 4) ∧
    Reads 0x3ADCC47C (.amomax 0x2d 0x33 1 1 1 4) ∧ Reads 0x3ADCC57C (.amominz 0x2d 0x33 1 1 1 4) ∧
    Reads 0x3ADCC67C (.amomaxz 0x2d 0x33 1 1 1 4) ∧ Reads 0x3ADCC77C (.amoand 0x2d 0x33 1 1 1 4) ∧
    Reads 0x3ADCC87C (.amoor 0x2d 0x33 1 1 1 4) ∧ Reads 0x3ADCC97C (.amoxor 0x2d 0x33 1 1 1 4) :=
  by decide +kernel

theorem test_decode_major_10 :
    Reads 0x42DCE54A (.beq 0x2d 0x33 0x254a) :=
  by decide +kernel

theorem test_decode_major_11 :
    Reads 0x46DCE54A (.bne 0x2d 0x33 0x254a) :=
  by decide +kernel

theorem test_decode_major_12 :
    Reads 0x4ADCE54A (.blt 0x2d 0x33 0x254a) :=
  by decide +kernel

theorem test_decode_major_13 :
    Reads 0x4EDCE54A (.bge 0x2d 0x33 0x254a) :=
  by decide +kernel

theorem test_decode_major_14 :
    Reads 0x52DCE54A (.bltz 0x2d 0x33 0x254a) :=
  by decide +kernel

theorem test_decode_major_15 :
    Reads 0x56DCE54A (.bgez 0x2d 0x33 0x254a) :=
  by decide +kernel

theorem test_decode_major_16 :
    Reads 0x5ADB6DB6 (.j 0x2db6db6) :=
  by decide +kernel

theorem test_decode_major_17 :
    Reads 0x5EDB6DB6 (.call 0x2db6db6) :=
  by decide +kernel

theorem test_decode_major_18 :
    Reads 0x600B4000 (.jr 0x2d) ∧ Reads 0x600B4001 (.callr 0x2d) ∧ Reads 0x60000002 .ret :=
  by decide +kernel

theorem test_decode_major_19 :
    Reads 0x66DBCCCC (.loop 0x2db 0xcccc) :=
  by decide +kernel

theorem test_decode_major_1a :
    Reads 0x6ADBCC00 (.loopr 0x2db 0x33) ∧ Reads 0x6800B401 (.lbrk 0x2d) :=
  by decide +kernel

theorem test_decode_major_1b :
    Reads 0x6EF32780 (.rep 0xb 0xcc 9 0x38) :=
  by decide +kernel

theorem test_decode_major_1c :
    Reads 0x72DCE5E0 (.wait 0x2d 0x33 0x25 0x38) :=
  by decide +kernel

theorem test_decode_major_1d :
    Reads 0x74000000 .fenceSv ∧ Reads 0x74000100 .fenceVs ∧ Reads 0x74000200 .fenceVv ∧ Reads 0x76DCC800 (.bari 0x2d 0x33) ∧
    Reads 0x740B490E (.bara 0x2d 6) ∧ Reads 0x740B4A16 (.barw 0x2d 6) ∧ Reads 0x76DCD014 (.fwait 0x2d 0x33 4) ∧
    Reads 0x76DCD10C (.ffill 0x2d 0x33 4) ∧ Reads 0x740B5200 (.freset 0x2d) :=
  by decide +kernel

theorem test_decode_major_20 :
    Reads 0x82D99700 (.vadd 0x16 0x19 0x12 7) ∧ Reads 0x82D99701 (.vsub 0x16 0x19 0x12 7) ∧ Reads 0x82D99702 (.vmul 0x16 0x19 0x12 7) ∧
    Reads 0x82D99703 (.vmulh 0x16 0x19 0x12 7) ∧ Reads 0x82D99704 (.vmulhz 0x16 0x19 0x12 7) ∧ Reads 0x82D99705 (.vdiv 0x16 0x19 0x12 7) ∧
    Reads 0x82D99706 (.vmin 0x16 0x19 0x12 7) ∧ Reads 0x82D99707 (.vmax 0x16 0x19 0x12 7) ∧ Reads 0x82D99708 (.vminz 0x16 0x19 0x12 7) ∧
    Reads 0x82D99709 (.vmaxz 0x16 0x19 0x12 7) ∧ Reads 0x82D9970A (.vand 0x16 0x19 0x12 7) ∧ Reads 0x82D9970B (.vor 0x16 0x19 0x12 7) ∧
    Reads 0x82D9970C (.vxor 0x16 0x19 0x12 7) ∧ Reads 0x82D9970D (.vshl 0x16 0x19 0x12 7) ∧ Reads 0x82D9970E (.vshr 0x16 0x19 0x12 7) ∧
    Reads 0x82D9970F (.vsar 0x16 0x19 0x12 7) ∧ Reads 0x82D99710 (.vadds 0x16 0x19 0x12 7) ∧ Reads 0x82D99711 (.vsubs 0x16 0x19 0x12 7) ∧
    Reads 0x82D90412 (.vabs 0x16 0x19 4) ∧ Reads 0x82D99713 (.vwadd 0x16 0x19 0x12 7) ∧ Reads 0x82D99714 (.vwmul 0x16 0x19 0x12 7) ∧
    Reads 0x82D99715 (.vnshr 0x16 0x19 0x12 7) ∧ Reads 0x82D99716 (.vdot4 0x16 0x19 0x12 7) :=
  by decide +kernel

theorem test_decode_major_21 :
    Reads 0x86D99780 (.vaddVs 0x16 0x19 0x25 7) ∧ Reads 0x86D99781 (.vsubVs 0x16 0x19 0x25 7) ∧
    Reads 0x86D99782 (.vmulVs 0x16 0x19 0x25 7) ∧ Reads 0x86D99783 (.vmulhVs 0x16 0x19 0x25 7) ∧
    Reads 0x86D99784 (.vmulhzVs 0x16 0x19 0x25 7) ∧ Reads 0x86D99785 (.vdivVs 0x16 0x19 0x25 7) ∧
    Reads 0x86D99786 (.vminVs 0x16 0x19 0x25 7) ∧ Reads 0x86D99787 (.vmaxVs 0x16 0x19 0x25 7) ∧
    Reads 0x86D99788 (.vminzVs 0x16 0x19 0x25 7) ∧ Reads 0x86D99789 (.vmaxzVs 0x16 0x19 0x25 7) ∧
    Reads 0x86D9978A (.vandVs 0x16 0x19 0x25 7) ∧ Reads 0x86D9978B (.vorVs 0x16 0x19 0x25 7) ∧
    Reads 0x86D9978C (.vxorVs 0x16 0x19 0x25 7) ∧ Reads 0x86D9978D (.vshlVs 0x16 0x19 0x25 7) ∧
    Reads 0x86D9978E (.vshrVs 0x16 0x19 0x25 7) ∧ Reads 0x86D9978F (.vsarVs 0x16 0x19 0x25 7) ∧
    Reads 0x86D99790 (.vaddsVs 0x16 0x19 0x25 7) ∧ Reads 0x86D99791 (.vsubsVs 0x16 0x19 0x25 7) ∧
    Reads 0x86D99793 (.vwaddVs 0x16 0x19 0x25 7) ∧ Reads 0x86D99794 (.vwmulVs 0x16 0x19 0x25 7) ∧
    Reads 0x86D99795 (.vnshrVs 0x16 0x19 0x25 7) ∧ Reads 0x86D99796 (.vdot4Vs 0x16 0x19 0x25 7) :=
  by decide +kernel

theorem test_decode_major_22 :
    Reads 0x8AD99700 (.vfadd 0x16 0x19 0x12 7) ∧ Reads 0x8AD99701 (.vfsub 0x16 0x19 0x12 7) ∧ Reads 0x8AD99702 (.vfmul 0x16 0x19 0x12 7) ∧
    Reads 0x8AD99703 (.vfdiv 0x16 0x19 0x12 7) ∧ Reads 0x8AD90404 (.vfsqrt 0x16 0x19 4) ∧ Reads 0x8AD99705 (.vfma 0x16 0x19 0x12 7) ∧
    Reads 0x8AD99706 (.vfnms 0x16 0x19 0x12 7) ∧ Reads 0x8AD99707 (.vfmin 0x16 0x19 0x12 7) ∧ Reads 0x8AD99708 (.vfmax 0x16 0x19 0x12 7) ∧
    Reads 0x8AD96F09 (.vfcvt 0x16 0x19 0xd 7) ∧ Reads 0x8AD96F0A (.vfcvtSat 0x16 0x19 0xd 7) ∧ Reads 0x8AD9040B (.vfrec 0x16 0x19 4) ∧
    Reads 0x8AD9040C (.vfrsq 0x16 0x19 4) ∧ Reads 0x8AD9040D (.vfexp2 0x16 0x19 4) ∧ Reads 0x8AD9040E (.vfclass 0x16 0x19 4) :=
  by decide +kernel

theorem test_decode_major_23 :
    Reads 0x8ED99780 (.vfaddVs 0x16 0x19 0x25 7) ∧ Reads 0x8ED99781 (.vfsubVs 0x16 0x19 0x25 7) ∧
    Reads 0x8ED99782 (.vfmulVs 0x16 0x19 0x25 7) ∧ Reads 0x8ED99783 (.vfdivVs 0x16 0x19 0x25 7) ∧
    Reads 0x8ED99785 (.vfmaVs 0x16 0x19 0x25 7) ∧ Reads 0x8ED99786 (.vfnmsVs 0x16 0x19 0x25 7) ∧
    Reads 0x8ED99787 (.vfminVs 0x16 0x19 0x25 7) ∧ Reads 0x8ED99788 (.vfmaxVs 0x16 0x19 0x25 7) :=
  by decide +kernel

theorem test_decode_major_24_a :
    Reads 0x90A62000 (.mand 5 6 4) ∧ Reads 0x90A62001 (.mor 5 6 4) ∧ Reads 0x90A62002 (.mxor 5 6 4) ∧ Reads 0x90A62003 (.mandn 5 6 4) ∧
    Reads 0x92C60404 (.mpopc 0x16 6 4) ∧ Reads 0x92C60405 (.mffs 0x16 6 4) ∧ Reads 0x90A60406 (.msbf 5 6 4) ∧ Reads 0x90A00007 (.mset 5) ∧
    Reads 0x90B90408 (.mfromv 5 0x19 4) ∧ Reads 0x92C60409 (.mtov 0x16 6 4) ∧ Reads 0x92C6040A (.viota 0x16 6 4) ∧
    Reads 0x92D99710 (.vslup 0x16 0x19 0x12 7) ∧ Reads 0x92D99711 (.vsldn 0x16 0x19 0x12 7) ∧ Reads 0x92D99712 (.vperm 0x16 0x19 0x12 7) ∧
    Reads 0x92D90413 (.vcomp 0x16 0x19 4) ∧ Reads 0x92D90414 (.vexpd 0x16 0x19 4) ∧ Reads 0x92D99715 (.vmerge 0x16 0x19 0x12 7) ∧
    Reads 0x92D90416 (.vbcast 0x16 0x19 4) ∧ Reads 0x92D99017 (.vextr 0x16 0x19 0x12) ∧ Reads 0x92D99018 (.vins 0x16 0x19 0x12) ∧
    Reads 0x92D99720 (.vredsum 0x16 0x19 0x12 7) ∧ Reads 0x92D99721 (.vredmax 0x16 0x19 0x12 7) ∧
    Reads 0x92D99722 (.vredmin 0x16 0x19 0x12 7) ∧ Reads 0x92D99723 (.vfredo 0x16 0x19 0x12 7) :=
  by decide +kernel

theorem test_decode_major_24_b :
    Reads 0x92D99724 (.vfredu 0x16 0x19 0x12 7) ∧ Reads 0x92D99725 (.vfredmax 0x16 0x19 0x12 7) ∧ Reads 0x92D90426 (.vscan 0x16 0x19 4) ∧
    Reads 0x92D90028 (.vprune48 0x16 0x19) :=
  by decide +kernel

theorem test_decode_major_25 :
    Reads 0x96DCC940 (.vsetvl 0x2d 0x33 0x25) ∧ Reads 0x96DCD952 (.vsetvli 0x2d 0x33 0x952) ∧ Reads 0x96DCE000 (.vgrant 0x2d 0x33) :=
  by decide +kernel

theorem test_decode_major_26 :
    Reads 0x98B99705 (.vcmp 5 0x19 0x12 7 5) ∧ Reads 0x98B99745 (.vcmpVs 5 0x19 0x12 7 5) ∧ Reads 0x98B99784 (.vfcmp 5 0x19 0x12 7 4) ∧
    Reads 0x98B997C4 (.vfcmpVs 5 0x19 0x12 7 4) :=
  by decide +kernel

theorem test_decode_major_28 :
    Reads 0xA2D98100 (.vld 0x16 0x33 4) ∧ Reads 0xA2D9CBC1 (.vlds 0x16 0x33 0x25 7) ∧ Reads 0xA2D9C9C2 (.vldx 0x16 0x33 0x12 7) ∧
    Reads 0xA2D9C9C3 (.vldxo 0x16 0x33 0x12 7) ∧ Reads 0xA2D98104 (.vldff 0x16 0x33 4) :=
  by decide +kernel

theorem test_decode_major_29 :
    Reads 0xA6D98100 (.vst 0x16 0x33 4) ∧ Reads 0xA6D9CBC1 (.vsts 0x16 0x33 0x25 7) ∧ Reads 0xA6D9C9C2 (.vstx 0x16 0x33 0x12 7) ∧
    Reads 0xA6D9C9C3 (.vstxo 0x16 0x33 0x12 7) ∧ Reads 0xA6D9C9C4 (.vstxadd 0x16 0x33 0x12 7) :=
  by decide +kernel

theorem test_decode_major_2a :
    Reads 0xAAD9F955 (.vldn 0x16 0x33 1 0x1c 5 1 5) ∧ Reads 0xAAD9F975 (.vstn 0x16 0x33 1 0x1c 5 1 5) :=
  by decide +kernel

theorem test_decode_major_2b :
    Reads 0xAED99400 (.kst 0x16 0x19 0x25) ∧ Reads 0xAED99401 (.ksig 0x16 0x19 0x25) :=
  by decide +kernel

theorem test_decode_major_30 :
    Reads 0xC2D00000 (.tzero 0x2d) ∧ Reads 0xC2DD3801 (.tmma 0x2d 6 4 0x38) ∧ Reads 0xC2DD3802 (.tmmaf 0x2d 6 4 0x38) ∧
    Reads 0xC2DD3803 (.tmmag 0x2d 6 4 0x38) ∧ Reads 0xC2DD3837 (.tmmas 0x2d 6 4 0x38 0x17) ∧ Reads 0xC2D03308 (.tld 0x2d 0x33) ∧
    Reads 0xC2D0F809 (.tst 0x2d 1 1 0x38) ∧ Reads 0xC2D6400A (.tmovr 0x2d 0x19) ∧ Reads 0xC2D6400B (.tmovw 0x2d 0x19) ∧
    Reads 0xC2D0330C (.treef 0x2d 0x33) ∧ Reads 0xC2DCC00D (.tstat 0x2d 0x33) ∧ Reads 0xC2D0330E (.tsetx 0x2d 0x33) ∧
    Reads 0xC2D0330F (.taddx 0x2d 0x33) :=
  by decide +kernel

theorem test_decode_major_31 :
    Reads 0xC40B40D5 (.sopen 0x2d 6 1 5) ∧ Reads 0xC40001A0 (.sclose 5) ∧ Reads 0xC56002C0 (.sbind 0x16 6) ∧
    Reads 0xC40003A0 (.sunbind 5) ∧ Reads 0xC6D004C0 (.sstat 0x2d 6) ∧ Reads 0xC40005A0 (.sbar 5) ∧
    Reads 0xC6DCD01D (.cpy 0x2d 0x33 1 1 5) ∧ Reads 0xC6DCD11D (.cpys 0x2d 0x33 1 1 5) ∧ Reads 0xC6DCD200 (.cpypf 0x2d 0x33) :=
  by decide +kernel

theorem test_decode_major_32 :
    Reads 0xCADCC000 (.klaunch 0x2d 0x33) ∧ Reads 0xCADCC008 (.vfork 0x2d 0x33) ∧ Reads 0xC80B4009 (.vjoin 0x2d) ∧
    Reads 0xC80B730A (.efork 0x2d 0x33) ∧ Reads 0xC800000B .erdv ∧ Reads 0xC800000C .gexit ∧ Reads 0xCAD0330D (.gid 0x2d 0x33) ∧
    Reads 0xC80B7310 (.tqpush 0x2d 0x33) ∧ Reads 0xCADCE511 (.tqpushn 0x2d 0x33 0x25) ∧ Reads 0xC80B4012 (.tdone 0x2d) ∧
    Reads 0xCADCC013 (.tqstat 0x2d 0x33) :=
  by decide +kernel

theorem test_decode_major_33 :
    Reads 0xCEDCC01D (.mimport 0x2d 0x33 1 1 5) ∧ Reads 0xCEDCC11D (.mexport 0x2d 0x33 1 1 5) ∧
    Reads 0xCEDCC21D (.mrefine 0x2d 0x33 1 1 5) ∧ Reads 0xCEDCC31D (.mcoarsen 0x2d 0x33 1 1 5) ∧
    Reads 0xCEDCC41D (.mrenum 0x2d 0x33 1 1 5) ∧ Reads 0xCEDCC51D (.mstat 0x2d 0x33 1 1 5) ∧ Reads 0xCEDCD01D (.mcolour 0x2d 0x33 1 1 5) ∧
    Reads 0xCEDCD11D (.mtrim 0x2d 0x33 1 1 5) ∧ Reads 0xCEDCD21D (.mmigr 0x2d 0x33 1 1 5) ∧ Reads 0xCEDCD31D (.mghost 0x2d 0x33 1 1 5) ∧
    Reads 0xCEDCE01D (.kproj 0x2d 0x33 1 1 5) ∧ Reads 0xCEDCE11D (.kreset 0x2d 0x33 1 1 5) ∧ Reads 0xCEDCE21D (.kstat 0x2d 0x33 1 1 5) :=
  by decide +kernel

theorem test_decode_major_38 :
    Reads 0xE2D00CCC (.srd 0x2d 0xccc) ∧ Reads 0xE00B5CCC (.swr 0x2d 0xccc) ∧ Reads 0xE00B6CCC (.srset 0x2d 0xccc) ∧
    Reads 0xE00B7CCC (.srclr 0x2d 0xccc) ∧ Reads 0xE2DCCF00 (.ctxsv 0x2d 0x33) ∧ Reads 0xE2DCCF01 (.ctxld 0x2d 0x33) ∧
    Reads 0xE2DCCF02 (.tlbinv 0x2d 0x33) ∧ Reads 0xE2DCCF03 (.probe 0x2d 0x33) ∧ Reads 0xE2DCCF04 (.pgmig 0x2d 0x33) ∧
    Reads 0xE00B4F05 (.shkill 0x2d) :=
  by decide +kernel

theorem test_decode_major_39 :
    Reads 0xE6DB6D00 (.trap 0x2db6d) ∧ Reads 0xE6DB6D03 (.brk 0x2db6d) ∧ Reads 0xE4000001 .eret ∧ Reads 0xE4000002 .uiret ∧
    Reads 0xE4000004 .idle :=
  by decide +kernel

/-- 03_encoding R61, R62: words that are no instruction: all zeros, all ones, reserved majors, unassigned functions, a register in a field marked zero,
scope 7, an odd AMOCAS register, and an A or R bit clear with a scope. -/
theorem test_decode_refuses : ∀ w ∈ [0x00000000, 0xFFFFFFFF, 0x3C000000, 0x9C000000, 0x04000020, 0x0400011C, 0x3400000F, 0x38100200, 0x38000001],
    decodeTableWord 32 w = none := by decide +kernel

/-- 03_encoding R60, R63 to R71: for each operand check a term that it refuses. -/
theorem test_ill_formed_words :
    ∀ i ∈ [Instr.ld 0 0 7 0, .ldacq 0 0 0 7, .strel 0 0 0 7, .acq 0 7, .rel 0 7, .gfence 7, .bara 0 7, .barw 0 7, .fwait 0 0 7, .ffill 0 0 7,
      .amoadd 0 0 0 0 0 1, .amoswap 0 0 0 1 0 7, .amomin 0 0 0 0 0 2, .amomax 0 0 0 0 0 3, .amominz 0 0 0 0 0 4, .amomaxz 0 0 0 0 0 5,
      .amoand 0 0 0 0 0 6, .amoor 0 0 0 0 1 7, .amoxor 0 0 0 1 1 7, .amocas 1 0 0 0 0 0, .amocas 0 0 0 0 0 1, .vfcvt 0 0 10 0, .vfcvt 0 0 11 0,
      .vfcvtSat 0 0 16 0, .vsetvli 0 0 6, .vsetvli 0 0 7, .vgrant 0 0, .vgrant 63 0, .vcmp 0 0 0 0 6, .vcmpVs 0 0 0 0 6, .vfcmp 0 0 0 0 5,
      .vfcmpVs 0 0 0 0 5, .vldn 0 0 0 0 0 0 12, .vldn 0 0 1 0 0 0 1, .vstn 0 0 0 1 0 0 8, .kst 0 0 63, .tmma 0 1 1 0, .tmmaf 0 2 2 0, .tmmag 0 3 3 0,
      .tmmas 0 4 4 0 0, .sopen 0 0 0 1, .cpy 0 0 0 0 1, .cpys 0 0 1 0 7, .mimport 0 0 0 0 1, .mexport 0 0 0 0 1, .mrefine 0 0 0 0 1,
      .mcoarsen 0 0 0 0 1, .mrenum 0 0 0 0 1, .mstat 0 0 0 0 1, .mcolour 0 0 0 0 1, .mtrim 0 0 0 0 1, .mmigr 0 0 0 0 1, .mghost 0 0 0 0 1,
      .kproj 0 0 0 0 1, .kreset 0 0 0 0 1, .kstat 0 0 0 0 1, .srd 0 0xF00, .swr 0 0xF01, .srset 0 0xFFF, .srclr 0 0xF00],
      wellFormed i = false := by decide +kernel

/-- 01_anatomy R20: units that do not exist. -/
theorem test_ill_formed_events :
    ∀ i ∈ [Instr.slotStallRelease 8192, .ulInterruptEntry 8192, .firstStageSave 8192, .preemptionLanding 8192, .barrierMarkerFire 8192 0,
      .accessPerformed 8192 0, .spbaseWrite 8192 0, .vlWrite 8192 0, .vcfgWrite 8192 0, .vlcapWrite 8192 0, .accrangeWrite 8192 true 0,
      .reefctlClr 8192, .agelimitWrite 8192 0, .contextIdWrite 8192 0x110 0, .vectorIssue 1024 ⟨0, []⟩, .recheckExecution 1024 ⟨0, [], []⟩, .recheckAgeExpiry 1024,
      .laneGroupRemap 1024, .matrixStep 1024, .scratchpadBankArbitration 1024, .neighBucketStreamFetch 1024 0, .neighBucketStreamFetch 0 8,
      .readyPoolDispatch 8, .aging 8 0, .flitReceive 18 0 0 [] [] 0, .nakReceive 18 0, .linkTrainingResult 18 16, .linkTrainingTimeout 18, .laneLost 18,
      .errorResponseReceived 18 0 true 0, .hostInboundAccess 6 0 0 8 true [] false, .hostLinkDown 2, .cxlPortFailure 3],
      wellFormed i = false := by decide +kernel

/-! The hypotheses of the statements can be met. The witnesses below keep their data in the scratchpad window of cluster 0, which reset leaves at the top
64 MiB (08_stream R221), so that no page table is needed; where a page is needed, a TLB entry names it. -/

/-- The address of byte off of the window. -/
abbrev win (off : Nat) : Nat := 0x00FFFFFFFC000000 + off

/-- The same as a word. -/
abbrev winW (off : Nat) : Word := BitVec.ofNat 64 (win off)

/-- The key of byte off of the window of cluster 0. -/
abbrev pad (off : Nat) : Nat := Config.padKey + off

/-- A state as after reset, but for what the window does not meet. -/
structure Plain (s : State) : Prop where
  cur : s.cur = 0
  spbase : s.spbase = []
  poison : s.poison = []
  dead : s.deadStacks = [] ∧ s.deadPorts = []
  cxl : s.cxlBytes = 0
  notify : s.notify = 0
  stores : s.stores = []
  sent : s.sent = []
  tag : s.me.shtag = 0
  behind : ∀ r, vectorWaits s s.cur r = false

theorem window_hit {s : State} {ag : Agent} {off : Nat} {k : Access} (h : s.spbase = []) (hc : ag.cluster = 0) (ht : ag.tag = 0 ∨ s.sectors = [])
    (ho : off < 2 ^ 26) : checkAddr s ag (win off) k = .ok ⟨pad off, 0, none, win off / 4096 * 4096, 0⟩ := by
  have hb : spBase s 0 = 0x00FFFFFFFC000000#64 := by simp [spBase, h, tabGet, tabFind]
  have hw : inWindow s 0 (win off) = true := by
    simp only [inWindow, hb, win, Config.windowBytes, Bool.and_eq_true, decide_eq_true_eq]
    norm_num
    omega
  have hk : windowKey s 0 (win off) = pad off := by
    simp only [windowKey, hb, win, pad, Config.padKey, Config.windowBytes]
    norm_num
  rcases ht with ht | ht <;> simp [checkAddr, hc, hw, hk, ht, tabGet, tabFind]

theorem window_check {s : State} {ag : Agent} {off : Nat} {k : Access} (h : s.spbase = []) (hc : ag.cluster = 0) (ht : ag.tag = 0)
    (ho : off < 2 ^ 26) : checkAddr s ag (win off) k = .ok ⟨pad off, 0, none, win off / 4096 * 4096, 0⟩ := window_hit h hc (.inl ht) ho

theorem window_touch {s : State} {ag : Agent} {off : Nat} {k : Access} (h : s.spbase = []) (hc : ag.cluster = 0) (ho : off < 2 ^ 26) :
    touch s ag (win off) k = s := by
  have hb : spBase s 0 = 0x00FFFFFFFC000000#64 := by simp [spBase, h, tabGet, tabFind]
  have hw : inWindow s 0 (win off) = true := by
    simp only [inWindow, hb, win, Config.windowBytes, Bool.and_eq_true, decide_eq_true_eq]
    norm_num
    omega
  simp [touch, hc, hw]

theorem window_clean {s : State} (hc : s.cxlBytes = 0) (hp : s.poison = []) (off n : Nat) : rangePoison s (pad off) n = none := by
  have hg : ∀ (c g : Nat), pad off / 64 ≤ g → granulesPoison s g c = none := by
    intro c
    induction c with
    | zero => intro g _; rfl
    | succ c ih =>
      intro g hg
      have h1 : 2 ^ 52 ≤ g * 64 + 63 := by
        have h2 : Config.padKey + off = 2 ^ 52 + off := rfl
        have h3 : (2 ^ 52 + off) / 64 ≤ g := h2 ▸ hg
        omega
      have hh : isHbm (g * 64) = false := decide_eq_false (by simp only [Config.hbmBytes]; omega)
      have hx : isCxl s (g * 64) = false := by
        simp only [isCxl, Config.hbmBytes, hc, Bool.and_eq_false_iff, decide_eq_false_iff_not]
        omega
      have h0 : granulePoison s (g * 64) = none := by
        simp [granulePoison, deadTag, hh, hx, hp, tabFind, lowerTag]
      rw [granulesPoison, h0, ih (g + 1) (by omega)]
      rfl
  exact hg _ _ (Nat.le_refl _)

theorem window_still {s : State} {ag : Agent} (h : s.spbase = []) (hc : ag.cluster = 0) (ht : ag.tag = 0) {off n : Nat} (hn : 0 < n)
    (hi : win off % 4096 + n ≤ 4096) (ho : off < 2 ^ 26) : migratingAt s ag (win off) n = false := by
  simp [migratingAt, granuleAddrs_aligned hn hi, window_check h hc ht ho]

theorem pad_memory {s : State} (h : s.cxlBytes = 0) (off : Nat) :
    isPad (pad off) = true ∧ isHbm (pad off) = false ∧ isCxl s (pad off) = false := by
  have hp : Config.padKey + off = 2 ^ 52 + off := rfl
  refine ⟨decide_eq_true (Nat.le_add_right _ _), decide_eq_false ?_, ?_⟩
  · simp only [pad, hp, Config.hbmBytes]
    omega
  · simp only [isCxl, pad, hp, Config.hbmBytes, h, Bool.and_eq_false_iff, decide_eq_false_iff_not]
    omega

theorem window_ordinary {s : State} (h : s.notify = 0) (hx : s.cxlBytes = 0) (off n : Nat) : Ordinary s (pad off) n :=
  ⟨.inl (pad_memory hx off).1, ⟨by simp [deadTag, (pad_memory hx off).2.1, (pad_memory hx off).2.2],
    fun hc => by rw [(pad_memory hx off).2.2] at hc; cases hc⟩, fun _ _ => by simp [isNotify, h]⟩

theorem window_place {s : State} (hc : s.cur = 0) (hb : s.spbase = []) (ht : s.me.shtag = 0) (hs : s.sent = []) (hx : s.cxlBytes = 0)
    (hv : ∀ r, vectorWaits s s.cur r = false) {off n : Nat} (ha : win off % n = 0) (ho : off < 2 ^ 26) : ReadPlace s (win off) n (pad off) where
  aligned := ha
  passes := ⟨_, window_check hb (by rw [hc]; rfl) ht ho, rfl, rfl⟩
  plain := .inl (pad_memory hx off).1
  cached := window_touch hb (by rw [hc]; rfl) ho
  held := by simp [readHolds, hs]
  unseen := fun h => by rw [(pad_memory hx off).2.2] at h; cases h
  behind := hv _

theorem plain_read {s : State} (h : Plain s) {off n : Nat} (ha : win off % n = 0) (ho : off < 2 ^ 26) : PlainRead s (win off) n (pad off) where
  toReadPlace := window_place h.cur h.spbase h.tag h.sent h.cxl h.behind ha ho
  own := by rw [h.stores]; intro a ha; cases ha
  clean := window_clean h.cxl h.poison off n

theorem plain_write {s : State} (h : Plain s) (k : Access) {off n m : Nat} (hn : 0 < n) (ha : win off % n = 0) (hi : win off % 4096 + n ≤ 4096)
    (ho : off < 2 ^ 26) (hr : s.me.cnt.stores + m ≤ 255) : PlainWrite s k (win off) n m (pad off) where
  aligned := ha
  passes := ⟨_, window_check h.spbase (by rw [h.cur]; rfl) h.tag ho, rfl⟩
  cached := window_touch h.spbase (by rw [h.cur]; rfl) ho
  still := window_still h.spbase (by rw [h.cur]; rfl) h.tag hn hi ho
  unblocked := by rw [h.stores]; intro a ha; cases ha
  behind := h.behind _
  held := .inr (by simp [readHolds, h.sent])
  room := hr

theorem plain_block {s : State} (h : Plain s) {off n : Nat} (hn : 0 < n) (ha : win off % n = 0) (hi : win off % 4096 + n ≤ 4096)
    (ho : off < 2 ^ 26) (hr : s.me.cnt.stores ≤ 255) : PlainBlock s (win off) n (pad off) :=
  ⟨plain_read h ha ho, plain_write h .write hn ha hi ho hr, plain_write h .update hn ha hi ho hr, window_ordinary h.notify h.cxl off n⟩

/-- A state in which the window's bytes are plain memory to every agent. -/
structure Calm (s : State) : Prop where
  spbase : s.spbase = []
  poison : s.poison = []
  cxl : s.cxlBytes = 0
  notify : s.notify = 0
  sent : s.sent = []

theorem Plain.calm {s : State} (h : Plain s) : Calm s := ⟨h.spbase, h.poison, h.cxl, h.notify, h.sent⟩

theorem calm_read {s : State} (h : Calm s) {ag : Agent} (hc : ag.cluster = 0) (ht : ag.tag = 0 ∨ s.sectors = []) {off n : Nat} (hn : 0 < n)
    (hi : win off % 4096 + n ≤ 4096) (ho : off < 2 ^ 26) : AgentRead s ag (win off) n (pad off) where
  inside := ⟨hn, hi⟩
  passes := ⟨_, window_hit h.spbase hc ht ho, rfl, rfl⟩
  memory := window_ordinary h.notify h.cxl off n
  cached := window_touch h.spbase hc ho
  held := by simp [readHolds, h.sent]
  clean := window_clean h.cxl h.poison off n

theorem calm_write {s : State} (h : Calm s) {ag : Agent} (hc : ag.cluster = 0) (ht : ag.tag = 0) {off n : Nat} (hn : 0 < n)
    (hi : win off % 4096 + n ≤ 4096) (ho : off < 2 ^ 26) : AgentWrite s ag (win off) n (pad off) where
  inside := ⟨hn, hi⟩
  passes := ⟨_, window_check h.spbase hc ht ho, rfl⟩
  memory := window_ordinary h.notify h.cxl off n
  cached := window_touch h.spbase hc ho
  still := window_still h.spbase hc ht hn hi ho

theorem agent_read {s : State} (h : Plain s) {ag : Agent} (hc : ag.cluster = 0) (ht : ag.tag = 0) {off n : Nat} (hn : 0 < n)
    (hi : win off % 4096 + n ≤ 4096) (ho : off < 2 ^ 26) : AgentRead s ag (win off) n (pad off) := calm_read h.calm hc (.inl ht) hn hi ho

theorem agent_write {s : State} (h : Plain s) {ag : Agent} (hc : ag.cluster = 0) (ht : ag.tag = 0) {off n : Nat} (hn : 0 < n)
    (hi : win off % 4096 + n ≤ 4096) (ho : off < 2 ^ 26) : AgentWrite s ag (win off) n (pad off) := calm_write h.calm hc ht hn hi ho

theorem own_read {s : State} (h : Plain s) {off n : Nat} (hn : 0 < n) (hi : win off % 4096 + n ≤ 4096) (ho : off < 2 ^ 26) :
    OwnRead s (win off) n (pad off) :=
  ⟨agent_read h (by rw [h.cur]; rfl) h.tag hn hi ho, (fun a ha => by rw [h.stores] at ha; cases ha), h.behind _⟩

/-- A slot in RUN in a firmware-level context with eight lane groups and no vector state of another. -/
def runSlot : Slot := { Slot.reset with st := .run, level := .firmware, pc := 0x1000, laneCount := 8 }

/-- A slot with some scalar registers set. -/
def withRegs (x : Slot) (rs : List (Nat × Word)) : Slot := { x with regs := rs.map fun r => (r.1, ⟨r.2, none, .ready⟩) }

/-- The device with slot 0 as given, and some words in the window of cluster 0. -/
def device (x : Slot) (ws : List (Nat × Word)) : State :=
  { State.reset with slots := [(0, x)], mem := ws.foldl (fun m w => writeLE m (pad w.1) 8 w.2.toNat) [] }

/-- Slot 0 with s1 zero, s2 a multiple of 64 at the start of the window, s3 one byte beyond it, s4 = 0x2000, s5 = 0x2002, s6 = 1. -/
def base : State := device (withRegs runSlot [(2, winW 0), (3, winW 1), (4, 0x2000), (5, 0x2002), (6, 1)]) []

theorem base_plain : Plain base := ⟨rfl, rfl, rfl, ⟨rfl, rfl⟩, rfl, rfl, rfl, rfl, rfl, fun _ => rfl⟩
theorem base_clean : base.me.Clean (List.range 64) := by unfold Slot.Clean; decide +kernel

/-- IntegerResults, and the arithmetic and the conversions of FloatResults: clean sources and a destination that is not pending, s0 among both. -/
theorem witness_IntegerResults : (base.me.Clean [2, 6] ∧ (base.me.sreg 1).pend = .ready) ∧ base.me.Clean [0, 0] ∧ (base.me.sreg 0).pend = .ready := by
  unfold Slot.Clean; decide +kernel

/-- The comparisons of FloatResults: 1.0 and 0.0 in binary64, in both precisions the infinities, both zeros, a quiet NaN and a signalling one. -/
theorem witness_FloatResults :
    fmtF64.StandsFor 0x3FF0000000000000 1 ∧ fmtF64.StandsFor 0 0 ∧
    (fmtF64.valueOf 0xFFF0000000000000 = some ⊥ ∧ fmtF64.valueOf 0 = fmtF64.valueOf 0x8000000000000000 ∧ (fmtF64.valueOf 0).isSome = true ∧
      fmtF64.valueOf 0x7FF8000000000000 = none ∧ fmtF64.decode 0x7FF0000000000001 = .nan true) ∧
    fmtF32.valueOf 0x7F800000 = some ((⊤ : WithTop ℚ) : WithBot (WithTop ℚ)) ∧ fmtF32.valueOf 0 = fmtF32.valueOf 0x80000000 ∧
      fmtF32.valueOf 0x7FC00000 = none ∧ fmtF32.decode 0x7F800001 = .nan true := by
  have d1 : fmtF64.decode 0 = .fin false 0 (-1074) false := by decide +kernel
  have d2 : fmtF64.decode 0x8000000000000000 = .fin true 0 (-1074) false := by decide +kernel
  have d3 : fmtF32.decode 0 = .fin false 0 (-149) false := by decide +kernel
  have d4 : fmtF32.decode 0x80000000 = .fin true 0 (-149) false := by decide +kernel
  have i1 : fmtF64.decode 0xFFF0000000000000 = .inf true := by decide +kernel
  have i2 : fmtF32.decode 0x7F800000 = .inf false := by decide +kernel
  have n1 : fmtF64.decode 0x7FF8000000000000 = .nan false := by decide +kernel
  have n2 : fmtF32.decode 0x7FC00000 = .nan false := by decide +kernel
  refine ⟨⟨by decide, false, 2 ^ 52, -52, by decide +kernel, ?_⟩, ⟨by decide, false, 0, -1074, d1, ?_⟩, ⟨?_, ?_, ?_, ?_, by decide +kernel⟩, ?_, ?_, ?_,
    by decide +kernel⟩ <;> norm_num [realOfFin, Fmt.valueOf, FVal.extended, d1, d2, d3, d4, i1, i2, n1, n2]

/-- RoundSelectsByMode: one third, in binary64, to each of the modes, does not overflow. -/
theorem witness_RoundSelectsByMode : ∀ mode ∈ [RMode.rne, .rtz, .rup, .rdn],
    (fmtF64.round mode false (.fin true 0x15555555555555555 (-64) false)).2 &&& flagOF = 0 := by decide +kernel

/-- The tie of RoundSelectsByMode: 2^53 + 1, as near to 2^53, whose code is even, as to 2^53 + 2. -/
theorem witness_RoundSelectsByMode_tie :
    let a : FVal := .fin false (2 ^ 53 + 1) 0 false
    a.Denotes ((2 ^ 53 + 1 : ℚ) : ℝ) ∧ (fmtF64.round .rne false a).2 &&& flagOF = 0 ∧
    fmtF64.StandsFor 0x4340000000000000 (2 ^ 53) ∧ fmtF64.StandsFor 0x4340000000000001 (2 ^ 53 + 2) ∧
    (fmtF64.round .rne false a).1 = 0x4340000000000000 ∧ 0x4340000000000000 % 2 = 0 :=
  ⟨by norm_num [FVal.Denotes, realOfFin], by decide +kernel,
    ⟨by decide, false, 2 ^ 52, 1, by decide +kernel, by norm_num [realOfFin]⟩,
    ⟨by decide, false, 2 ^ 52 + 1, 1, by decide +kernel, by norm_num [realOfFin]⟩, by decide +kernel, by decide⟩

/-- FiniteArithmeticIsExact: a divisor and a radicand that are not zero, a width; and numbers below, above and within the bounds of i8. -/
theorem witness_FiniteArithmeticIsExact :
    (3 : Nat) ≠ 0 ∧ 1 ≤ (8 : Nat) ∧ (∀ mode ∈ [RMode.rne, .rtz, .rup, .rdn], mode.Selects (realOfFin true 300 0) (-300) ∧
      (-300 : ℤ) < -2 ^ (8 - 1) ∧ mode.Selects (realOfFin false 300 0) 300 ∧ (2 : ℤ) ^ (8 - 1) - 1 < 300) ∧
    RMode.rne.Selects (realOfFin false 5 (-1)) 2 ∧ ¬ RMode.rne.Selects (realOfFin false 5 (-1)) 3 := by
  refine ⟨by decide, by decide, ?_, ?_, ?_⟩
  · simp [RMode.Selects, realOfFin, abs_of_nonneg]
    norm_num
  · norm_num [RMode.Selects, realOfFin]
  · norm_num [RMode.Selects, realOfFin]

/-- PoisonedSourcePoisonsResult: s2 and s3 poisoned with tags 7 and 5. -/
theorem witness_PoisonedSourcePoisonsResult :
    let s := device { runSlot with regs := [(2, ⟨0, some 7, .ready⟩), (3, ⟨0, some 5, .ready⟩)] } []
    (∀ r ∈ [1, 2, 3], (s.me.sreg r).pend = .ready) ∧ (s.me.sreg 2).poison = some 7 ∧ (s.me.sreg 3).poison = some 5 ∧ (s.me.sreg 4).poison = none := by
  decide +kernel

theorem base_outside : base.me.OutsideRep := fun _ _ h => by cases h

/-- PendingRegisterStalls: s3 is pending, outside a REP frame, in a firmware-level slot with lane groups of its own, in a handler, and in a leaf group
that may fork; the levels of every register with fields. -/
theorem witness_PendingRegisterStalls :
    (let s := device { runSlot with regs := [(3, ⟨0, none, .queue⟩)] } []
     (∃ r ∈ [1, 2, 3], (s.me.sreg r).pend ≠ .ready) ∧ s.me.OutsideRep ∧ s.me.level ≠ .user ∧ s.me.laneCount ≠ 0 ∧ s.me.vuse = false ∧
       ∀ g ∈ systemRegisters, levelCode g.readLevel ≤ levelCode s.me.level ∧ levelCode g.writeLevel ≤ levelCode s.me.level) ∧
    (let s := device { runSlot with regs := [(3, ⟨0, none, .queue⟩)], mode := .handler } []
     (s.me.sreg 3).pend ≠ .ready ∧ s.me.level ≠ .user ∧ s.me.mode = .handler) ∧
    let s := device { runSlot with regs := [(3, ⟨0, none, .queue⟩)], ctx := { Ctx.none with work := .leaf 3 0 } } []
    (∃ r ∈ List.range 64, (s.me.sreg r).pend ≠ .ready) ∧ s.me.mode = .context ∧ (∃ k i, s.me.ctx.work = .leaf k i) ∧ s.me.ctx.sibling = false ∧
      s.me.ctx.siblings + 3 ≤ 3 :=
  ⟨⟨by decide +kernel, (fun _ _ h => by cases h), by decide, by decide, rfl, by decide +kernel⟩, by decide +kernel,
    by decide +kernel, rfl, ⟨3, 0, rfl⟩, rfl, by decide⟩

/-- ControlTransfers: outside a REP frame, with a taken and a not taken branch of each order, targets that are and are not multiples of 4, and LBRK with a
frame and with its register zero. -/
theorem witness_ControlTransfers :
    base.me.OutsideRep ∧ base.me.Clean [1, 2, 4, 5, 6] ∧ base.me.val 1 ≠ base.me.val 6 ∧ (base.me.val 1).toInt < (base.me.val 6).toInt ∧
    (base.me.val 4).toNat % 4 = 0 ∧ (base.me.val 5).toNat % 4 ≠ 0 ∧ base.me.val 1 = 0 ∧
    (device { runSlot with loops := [⟨0x4010000000000000, 0x1000, 2⟩] } []).me.OutsideRep := by
  refine ⟨base_outside, ?_, by decide +kernel, by decide +kernel, by decide +kernel, by decide +kernel, by decide +kernel, ?_⟩
  · exact fun r hr => base_clean r (by revert r; decide)
  · intro e rest h
    cases h
    decide

/-- A store of one word that slot 0 has passed on, and a REL. -/
def oneStore (inc : Bool) : PendAcc :=
  { slot := 0, home := .slot 0, va := winW 0, key := pad 0, waiting := false, bytes := leBytes 8 5, poison := none, increment := inc, release := inc,
    asid := 0, level := .firmware, tag := 0, ord := 0, pc := 0x1000 }

/-- LoadResults: reads of each size at the last place of a granule that holds it. -/
theorem witness_LoadResults :
    base.me.Clean [2] ∧ (base.me.sreg 1).pend = .ready ∧ PlainRead base (base.me.val 2).toNat 8 (pad 0) ∧
    PlainRead base (win 0xFFF) 1 (pad 0xFFF) ∧ PlainRead base (win 0xFFE) 2 (pad 0xFFE) ∧ PlainRead base (win 0xFFC) 4 (pad 0xFFC) :=
  ⟨fun r hr => base_clean r (by revert r; decide), by decide +kernel, plain_read (off := 0) base_plain (by decide) (by decide),
    plain_read base_plain (by decide) (by decide), plain_read base_plain (by decide) (by decide), plain_read base_plain (by decide) (by decide)⟩

/-- The other two loads of LoadResults: a store of the slot's own to the same bytes, and a granule with a poison tag. -/
theorem witness_LoadResults_held :
    (∀ b ∈ [oneStore false], let s := { base with stores := [b] }
      ReadPlace s (base.me.val 2).toNat 8 (pad 0) ∧ OwnStore s b ∧ rangePoison s (pad 0) 8 = none ∧
        ∃ h, checkAddr (ownView s s.cur) (scalarAgent s s.cur) (base.me.val 2).toNat .read = .ok h ∧ h.key = pad 0 ∧ h.poison = none) ∧
    let s := { base with poison := [(pad 0 / 64, 7)] }
    ReadPlace s (base.me.val 2).toNat 8 (pad 0) ∧ (∀ b ∈ s.stores, b.home ≠ .slot s.cur) ∧ rangePoison s (pad 0) 8 = some 7 :=
  ⟨fun b hb => by
    simp only [List.mem_singleton] at hb
    subst hb
    exact ⟨window_place (s := { base with stores := [oneStore false] }) (off := 0) rfl rfl rfl rfl rfl (fun _ => rfl) (by decide) (by decide),
      ⟨⟨[], [], rfl, by simp⟩, rfl, ⟨.inl (by decide +kernel), rfl⟩, rfl, rfl, rfl⟩, by decide +kernel,
      ⟨_, window_check (off := 0) (k := .read) (ag := scalarAgent base 0) (s := ownView { base with stores := [oneStore false] } 0) rfl rfl rfl (by decide), rfl, rfl⟩⟩,
    window_place (s := { base with poison := [(pad 0 / 64, 7)] }) (off := 0) rfl rfl rfl rfl rfl (fun _ => rfl) (by decide) (by decide),
    (fun b hb => by cases hb), by decide +kernel⟩

/-- StoresArePassedOn: writes of each size, and the read-modify-write of REL; and an odd address. -/
theorem witness_StoresArePassedOn :
    base.me.Clean [2, 3] ∧ (base.me.sreg 1).pend = .ready ∧ PlainWrite base .write (base.me.val 2).toNat 8 1 (pad 0) ∧
    PlainWrite base .write (win 0xFFF) 1 1 (pad 0xFFF) ∧ PlainWrite base .update (base.me.val 2).toNat 8 1 (pad 0) ∧
    (base.me.val 3).toNat % 2 ^ 1 ≠ 0 ∧ (base.me.val 3).toNat % 8 ≠ 0 :=
  ⟨fun r hr => base_clean r (by revert r; decide), by decide +kernel, plain_write (off := 0) (n := 8) (m := 1) base_plain _ (by decide) (by decide) (by decide) (by decide) (by decide),
    plain_write (n := 1) (m := 1) base_plain _ (by decide) (by decide) (by decide) (by decide) (by decide),
    plain_write (off := 0) (n := 8) (m := 1) base_plain _ (by decide) (by decide) (by decide) (by decide) (by decide), by decide +kernel, by decide +kernel⟩

/-- PerformedStoreWritesItsBytes: a store and a REL, oldest in the list. -/
theorem witness_PerformedStoreWritesItsBytes : ∀ inc : Bool,
    let s := { base with stores := [oneStore inc] }
    s.stores = [oneStore inc] ∧ (oneStore inc).slot = 0 ∧ (oneStore inc).home = .slot 0 ∧ (oneStore inc).waiting = false ∧
    0 < (oneStore inc).bytes.length ∧ Ordinary s (oneStore inc).key (oneStore inc).bytes.length ∧ (oneStore inc).poison = none ∧
    rangePoison s (oneStore inc).key 8 = none ∧ vectorBefore s 0 (oneStore inc).ord = false ∧ unacked s (.slot 0) = false ∧
    unacked { s with sent := [⟨0, 1, .slot 0, 0, 2 ^ 44, [], none⟩] } (.slot 0) = true := fun inc =>
  ⟨rfl, rfl, rfl, rfl, Nat.succ_pos 7, window_ordinary (s := { base with stores := [oneStore inc] }) rfl rfl 0 8, rfl, by
    cases inc <;> decide +kernel, by cases inc <;> decide +kernel, rfl, rfl⟩

/-- AtomicResults: a word and a half-word in the scratchpad, and, for AMOCAS, memory that does and does not hold what sd names. -/
theorem witness_AtomicResults :
    base.me.st ≠ .free ∧ base.me.Clean [6, 7, 2] ∧ PlainBlock base (base.me.val 2).toNat 8 (pad 0) ∧ PlainBlock base (base.me.val 2).toNat 4 (pad 0) ∧
    accessPending base base.cur = false ∧ readLE base.mem (pad 0) 8 ≠ (base.me.val 6).toNat % 2 ^ 64 ∧
    readLE base.mem (pad 0) 8 = (base.me.val 8).toNat % 2 ^ 64 :=
  ⟨by decide +kernel, fun r hr => base_clean r (by revert r; decide), plain_block (off := 0) (n := 8) base_plain (by decide) (by decide) (by decide) (by decide) (by decide),
    plain_block (off := 0) (n := 4) base_plain (by decide) (by decide) (by decide) (by decide) (by decide), by decide +kernel, by decide +kernel, by decide +kernel⟩

/-- LoopStack: an empty loop stack, a full one, the END of a LOOP entry and a place within a REP entry, with a register that is zero and one that is not. -/
theorem witness_LoopStack :
    (base.me.OutsideRep ∧ base.me.loops.length ≠ 6 ∧ base.me.Clean [1, 6] ∧ base.me.val 6 ≠ 0 ∧ base.me.val 1 = 0) ∧
    let s := device { runSlot with loops := List.replicate 6 ⟨0x4010000000000000, 0x2000, 2⟩ } []
    (s.me.OutsideRep ∧ s.me.loops.length = 6 ∧ ∀ e rest, s.me.loops = e :: rest → s.me.pc ≠ e.start + BitVec.ofNat 64 (4 * e.len)) ∧
    let e : LoopEntry := ⟨0x4010000000000000, 0xFFC, 2⟩
    let r : LoopEntry := ⟨0x8010000000000000, 0xFFC, 0⟩
    ({ runSlot with loops := [e] }.OutsideRep ∧ runSlot.pc = e.start + BitVec.ofNat 64 (4 * e.len)) ∧
      r.kind = 2 ∧ r.start.toNat ≤ runSlot.pc.toNat ∧ runSlot.pc.toNat ≤ (r.start + BitVec.ofNat 64 (4 * r.len)).toNat := by
  refine ⟨⟨base_outside, by decide +kernel, fun r hr => base_clean r (by revert r; decide), by decide +kernel, by decide +kernel⟩, ⟨?_, by decide +kernel, ?_⟩,
    ⟨?_, by decide⟩, by decide, by decide, by decide⟩
  · intro e rest h
    cases h
    decide
  · intro e rest h
    cases h
    decide
  · intro e rest h
    cases h
    decide

/-- The frame-end step of LoopStack: a LOOP and a REP entry that end at 0x1004, with an iteration left and without. -/
theorem witness_LoopStack_end :
    let loop := fun (n : Nat) => (⟨0x4010000000000000, 0x1000, BitVec.ofNat 64 n⟩ : LoopEntry)
    let rep := fun (j : Nat) => (⟨BitVec.ofNat 64 (2 ^ 63 + 2 ^ 52 + 3 * 2 ^ 34 + j * 2 ^ 26), 0x1000, 0⟩ : LoopEntry)
    (loop 2).kind = 1 ∧ (loop 2).count ≠ 1 ∧ (loop 1).count = 1 ∧ (0x1004 : Word) = (loop 2).start + BitVec.ofNat 64 (4 * (loop 2).len) ∧
    (rep 2).kind = 2 ∧ (rep 2).j < (rep 2).times ∧ (rep 3).times ≤ (rep 3).j ∧ (0x1004 : Word) = (rep 2).start + BitVec.ofNat 64 (4 * (rep 2).len) := by
  decide +kernel

theorem clean_of {x : Slot} {rs : List Nat} (h : x.Clean (List.range 64)) (hr : ∀ r ∈ rs, r < 64) : x.Clean rs := fun r hm =>
  h r (List.mem_range.mpr (hr r hm))

/-- The device with slot 0 as given, whose context save area is the supervisor's page at 0x10000, mapped to itself in the TLB slice of core 0, with words
at physical addresses. -/
def saver (x : Slot) (ws : List (Nat × Word)) : State :=
  { State.reset with
    slots := [(0, { x with csaBase := 0x10000 })], tlb := [⟨0, 0, 0, 2, 0xCE6, 0, 0⟩], asidUse := [0],
    mem := ws.foldl (fun m w => writeLE m w.1 8 w.2.toNat) [] }

/-- An area with SVPC, SVSP and HPRIV set. -/
def areaWords (hpriv : Nat) : List (Nat × Word) := [(0x10000, 0x5000), (0x10008, 0x6000), (0x10018, BitVec.ofNat 64 (hpriv * 2 ^ 60))]

theorem ok_of {α : Type} {e : Except Miss α} {a : α} (h : e.toOption = some a) : e = .ok a := by
  cases e with
  | error m => cases h
  | ok b => simpa [Except.toOption] using h

theorem error_of {α : Type} {e : Except Miss α} (h : e.toOption = none) : ∃ m, e = .error m := by
  cases e with
  | error m => exact ⟨m, rfl⟩
  | ok b => cases h

/-- A save area, of parts that can be computed. -/
theorem area_of {s : State} {q key : Nat} (h : Hit)
    (t : (checkAddr s { scalarAgent s q with level := .supervisor } (s.slot q).csaBase.toNat .write).toOption = some h ∧ h.key = key ∧ h.state ≠ 3 ∧
      key % 4096 = 0 ∧ (checkAddr s { scalarAgent s q with level := .user, tag := 0 } (s.slot q).csaBase.toNat .write).toOption = none ∧
      touch s { scalarAgent s q with level := .supervisor } (s.slot q).csaBase.toNat .write = s ∧
      (wbits (readWord s.mem (key + 0x18)) 61 60 = 1 ∨ wbits (readWord s.mem (key + 0x18)) 61 60 = 2) ∧ rangePoison s key 32 = none ∧
      unitsPending s q = false ∧ (s.slot q).ctx.ending = false ∧ (s.slot q).loops.length ≤ 6 ∧ (s.slot q).vq.length ≤ 32 ∧ (tilesOf s q).length ≤ 16) : SaveArea s q key :=
  { aligned := t.2.2.2.1, passes := ⟨h, ok_of t.1, t.2.1, t.2.2.1⟩, guarded := error_of t.2.2.2.2.1, cached := t.2.2.2.2.2.1,
    level := t.2.2.2.2.2.2.1, clean := t.2.2.2.2.2.2.2.1, idle := t.2.2.2.2.2.2.2.2.1, going := t.2.2.2.2.2.2.2.2.2.1, sizes := t.2.2.2.2.2.2.2.2.2.2 }

/-- The hit of that page. -/
def areaHit : Hit := ⟨0x10000, 1, none, 0, 2⟩

/-- CallAndReturn: a push below s63 at the start of a granule, and a frame to return to. -/
theorem witness_CallAndReturn :
    (let s := device (withRegs runSlot [(63, winW 0x1000), (4, 0x2000)]) []
     s.me.OutsideRep ∧ s.me.Clean [63] ∧ s.me.Clean [4] ∧ vlPending s s.cur = false ∧ PlainWrite s .write (s.me.val 63 - 16).toNat 16 2 (pad 0xFF0) ∧
     (s.me.val 63).toNat % 16 = 0 ∧ (spBase s (clusterOf s.cur)).toNat % Config.windowBytes = 0 ∧ s.me.vl < 2 ^ 14 ∧ (s.me.val 4).toNat % 4 = 0) ∧
    let s := device (withRegs runSlot [(63, winW 0xFF0)]) [(0xFF0, 0x2004), (0xFF8, 0x14003)]
    PlainRead s (s.me.val 63).toNat 16 (pad 0xFF0) ∧
      let w1 : Word := BitVec.ofNat 64 (readLE s.mem (pad 0xFF8) 8)
      wbits w1 63 25 = 0 ∧ wbits w1 16 14 = 5 ∧ wbits w1 13 0 ≤ s.me.vlmax (vcfgOfVsw s.me.vcfg w1) ∧ readLE s.mem (pad 0xFF0) 8 % 4 = 0 := by
  refine ⟨⟨(fun _ _ h => by cases h), ?_, ?_, by decide +kernel,
    plain_write (off := 0xFF0) (n := 16) (m := 2) ⟨rfl, rfl, rfl, ⟨rfl, rfl⟩, rfl, rfl, rfl, rfl, rfl, fun _ => rfl⟩ _ (by decide) (by decide) (by decide) (by decide) (by decide),
    by decide +kernel, by decide +kernel, by decide +kernel, by decide +kernel⟩,
    plain_read (off := 0xFF0) (n := 16) ⟨rfl, rfl, rfl, ⟨rfl, rfl⟩, rfl, rfl, rfl, rfl, rfl, fun _ => rfl⟩ (by decide) (by decide), by decide +kernel⟩ <;>
  · unfold Slot.Clean
    decide +kernel

/-- An entry of the vector queue, at the reset configuration. -/
def entry (w vl : Nat) : VEntry :=
  { pc := 0x1000, word := w, p := 0, vl := vl, vcfg := 0b101, kind := .instr, op0 := 0, op1 := 0, poison0 := none, poison1 := none, probed := none,
    joined := none, restored := false, ord := 0, began := 0 }

/-- WaitsAndFences, and the release of PerformedStoreWritesItsBytes that must wait: with nothing outstanding, with one load more than asked for, with a store not performed, with a vector access in the queue, with a
full queue. -/
theorem witness_WaitsAndFences :
    (base.me.cnt.loads ≤ 0 ∧ base.me.cnt.tiles ≤ 0 ∧ accessPending base 0 = false ∧ vectorAccessPending base 0 = false ∧ base.me.vq.length < 32 ∧
      ∀ e ∈ tilesOf base 0, wordIsTileAccess e.word = false) ∧
    ¬ (device { runSlot with cnt := ⟨1, 0, 0, 0⟩ } []).me.cnt.loads ≤ 0 ∧ accessPending { base with stores := [oneStore false] } 0 = true ∧
    (∃ a ∈ [oneStore false], a.home = .slot base.cur) ∧ vectorAccessPending (device { runSlot with vq := [entry 0xA0000000 4] } []) 0 = true ∧
    32 ≤ (device { runSlot with vq := List.replicate 32 (entry 0x80000000 4) } []).me.vq.length ∧
    vectorBefore (device { runSlot with vq := [entry 0xA0000000 4] } []) 0 1 = true := by
  decide +kernel

/-- TrapEntry: a context whose handler is the supervisor's, one whose handler is firmware's, and a handler not yet nested. -/
theorem witness_TrapEntry :
    ((saver runSlot (areaWords 1)).slot 0).mode = .context ∧ SaveArea (saver runSlot (areaWords 1)) 0 0x10000 ∧
    SaveArea (saver runSlot (areaWords 2)) 0 0x10000 ∧
    let s := saver { runSlot with mode := .handler, level := .supervisor } (areaWords 1)
    (s.slot 0).mode = .handler ∧ (s.slot 0).trapNested = false ∧ csaKey s 0 = some 0x10000 :=
  ⟨rfl, area_of areaHit (by decide +kernel), area_of areaHit (by decide +kernel), by decide +kernel⟩

/-- SavedImage: a context with a loop, an entry in each queue and a port of its own. -/
theorem witness_SavedImage :
    let e : TEntry :=
      { slot := 0, pc := 0, word := 0xC0000000, seq := 0, kp := 0, frm := 0, reefTh := 4, reefTrap := false, accRow := 0, desc := 0, opk := 0,
        poison := none, tag := 0, gangOf := none, reefed := false, ord := 0, dest := 0, waits := [] }
    let s := { saver { runSlot with loops := [⟨0x4010000000000000, 0x1000, 2⟩], vq := [entry 0x80000000 4] } (areaWords 1) with
      cores := [(0, { Core.reset with tq := [e], ports := [(3, { Port.reset with st := .opened })] })] }
    (s.slot 0).mode = .context ∧ SaveArea s 0 0x10000 ∧ ((settleStats s 0).slot 0).laneCount ≤ 8 ∧ ((settleStats s 0).slot 0).vlen < 2 ^ 15 ∧
    ((settleStats s 0).slot 0).loops.length = 1 ∧ ((settleStats s 0).slot 0).vq.length = 1 ∧ (tilesOf (settleStats s 0) 0).length = 1 ∧
    (((settleStats s 0).core 0).port 3).st ≠ .closed ∧ (((settleStats s 0).core 0).port 3).owner = 0 ∧ (((settleStats s 0).core 0).port 4).st = .closed :=
  ⟨rfl, area_of areaHit (by decide +kernel), by decide +kernel, by decide +kernel, by decide +kernel, by decide +kernel, by decide +kernel, by decide +kernel,
    by decide +kernel, by decide +kernel⟩

/-- SoftwareTraps: the same context after its frame-end step. -/
theorem witness_SoftwareTraps :
    (saver runSlot (areaWords 1)).me.mode = .context ∧ (saver runSlot (areaWords 1)).me.OutsideRep ∧
    SaveArea ((saver runSlot (areaWords 1)).complete 0) 0 0x10000 :=
  ⟨rfl, (fun _ _ h => by cases h), area_of areaHit (by decide +kernel)⟩

/-- UserInterrupts: both interrupts pending, only a copy's, and a handler that is and one that is not active. -/
theorem witness_UserInterrupts :
    (∀ reef : Bool, let x := (device { runSlot with uistat := ⟨true, reef, 0, false, true⟩ } []).slot 0
      x.st ≠ .free ∧ x.mode = .context ∧ x.uistat.en = true ∧ x.uistat.act = false ∧ (x.uistat.preef = true ∨ x.uistat.pcopy = true) ∧ x.due = none) ∧
    (device { runSlot with uistat := ⟨false, false, 0, true, true⟩ } []).me.uistat.act = true ∧ base.me.uistat.act = false := by
  decide +kernel

/-- An image of a user-level context that is VALID, with nothing queued. -/
def imageWords : List (Nat × Word) := [(0x10000, 0x5000), (0x10008, 0x6000), (0x10010, 0x2000), (0x10018, 0x1800000000000000)]

/-- An image that can be loaded, of parts that can be computed. -/
theorem loadable_of {s : State} {q : Nat} {ag : Agent} {c : Word} {key : Nat} (h : Hit)
    (t : (checkAddr s ag c.toNat .read).toOption = some h ∧ h.key = key ∧ wbits c 11 0 = 0 ∧ touch s ag c.toNat .read = s ∧ imageOk s key = true ∧
      wbits (readWord s.mem (key + 0x18)) 63 62 ≤ levelCode ag.level ∧ wbits (readWord s.mem (key + 0x18)) 33 15 = 0 ∧
      wbits (readWord s.mem (key + 0x18)) 51 37 ≤ (s.slot q).vlen ∧ tileRoom s (coreOf q) [] = true) : Loadable s q ag c key :=
  { aligned := t.2.2.1, passes := ⟨h, ok_of t.1, t.2.1⟩, cached := t.2.2.2.1, image := t.2.2.2.2.1, level := t.2.2.2.2.2.1,
    empty := t.2.2.2.2.2.2.1, vlen := t.2.2.2.2.2.2.2.1, room := t.2.2.2.2.2.2.2.2 }

/-- ReturnFromHandler: a supervisor's handler with an image to return to. -/
theorem witness_ReturnFromHandler :
    let x : Slot := { runSlot with mode := .handler, level := .supervisor }
    let s := saver x imageWords
    1 ≤ levelCode s.me.level ∧ s.me.OutsideRep ∧ s.me.mode = .handler ∧ storePending s s.cur = false ∧ vectorIdle s s.cur = true ∧ tilesIdle s s.cur = true ∧
    csaKey s s.cur = some 0x10000 ∧ s.me.ctx.ending = false ∧ s.me.trapCause ≠ 0x21 ∧ s.me.request = none ∧
    Loadable s s.cur (scalarAgent s s.cur) s.me.csaBase 0x10000 :=
  ⟨by decide, (fun _ _ h => by cases h), rfl, rfl, rfl, by decide +kernel, by decide +kernel, rfl, by decide, rfl, loadable_of areaHit (by decide +kernel)⟩

/-- SystemRegisters: a level that suffices and one that does not, the modes, and for each register a value of sa that may stand (zero) where it asks for
one; REEFTH takes 1 and VCFG a width code up to 5. -/
theorem witness_SystemRegisters :
    (∀ g ∈ systemRegisters, levelCode g.writeLevel ≤ levelCode base.me.level ∧ sysWaits base base.cur g.num.toNat false = false ∧
      sysWaits base base.cur g.num.toNat true = false) ∧
    base.me.Clean [1] ∧ base.me.mode = .context ∧ (∃ g ∈ systemRegisters, g.num = 0x113) ∧
    (∃ g ∈ systemRegisters, levelCode (device { runSlot with level := .user } []).me.level < levelCode g.readLevel) ∧
    (device { runSlot with mode := .handler } []).me.mode = .handler := by
  refine ⟨by decide +kernel, clean_of base_clean (by decide), rfl, by decide +kernel, by decide +kernel, rfl⟩

/-- SystemRegisterWaits: a vector instruction in the queue, a tile operation, a VLDFF that will trim VL, a store to the window, and numbers between,
below and above those of registers. -/
theorem witness_SystemRegisterWaits :
    base.me.Clean [1] ∧ base.me.level = .firmware ∧
    (let s := device { runSlot with vq := [entry 0x80000000 4] } []
     vectorIdle s s.cur = false ∧ vlPending s s.cur = false) ∧
    (let e : TEntry :=
      { slot := 0, pc := 0, word := 0xC0000000, seq := 0, kp := 0, frm := 0, reefTh := 4, reefTrap := false, accRow := 0, desc := 0, opk := 0,
        poison := none, tag := 0, gangOf := none, reefed := false, ord := 0, dest := 0, waits := [] }
     let s := { base with cores := [(0, { Core.reset with tq := [e] })] }
     vectorIdle s s.cur = true ∧ tilesIdle s s.cur = false ∧ vlPending s s.cur = false) ∧
    vlPending (device { runSlot with vq := [entry 0xA0000004 4] } []) 0 = true ∧
    (let s := { base with stores := [oneStore false] }
     vectorIdle s s.cur = true ∧ tilesIdle s s.cur = true ∧ windowBusy s (clusterOf s.cur) = true) ∧
    (∀ n ∈ ([0x003, 0x030, 0xFFF] : List (BitVec 12)), ∀ g ∈ systemRegisters, g.num ≠ n) ∧ (0x003 : BitVec 12) ≠ 0x030 := by
  refine ⟨clean_of base_clean (by decide), rfl, by decide +kernel, by decide +kernel, by decide +kernel, by decide +kernel, by decide +kernel, by decide⟩

theorem plain_device (x : Slot) (ws : List (Nat × Word)) (h : x.shtag = 0)
    (hv : ∀ r, vectorWaits (device x ws) 0 r = false := by exact fun _ => rfl) : Plain (device x ws) := ⟨rfl, rfl, rfl, ⟨rfl, rfl⟩, rfl, rfl, rfl, rfl, h, hv⟩

/-- A region record at the start of the window: base 0x10000, length 64, guard word 0x20000. -/
def regionWords : List (Nat × Word) := [(0, 0x10000), (8, 64), (16, 0x20000), (24, 0)]

/-- RegionBinding: an empty table, one with entry 63 alone free, a full one, and one whose entry 5 meets the record; GUNBIND of 64, of an entry of
the issuer's tag and of another tag's. -/
theorem witness_RegionBinding :
    let x := withRegs runSlot [(2, winW 0), (3, 64), (4, 5)]
    let s := device x regionWords
    let full := fun n => (List.range n).map fun e => (e, (⟨BitVec.ofNat 64 (0x100000 + 64 * e), 64, 0x20000, 0⟩ : Region))
    s.me.Clean [2] ∧ (s.me.sreg 1).pend = .ready ∧ (s.me.val 2).toNat % 8 = 0 ∧ OwnRead s (s.me.val 2).toNat 32 (pad 0) ∧
    ((readWord s.mem (pad 0)).toNat % 64 = 0 ∧ (readWord s.mem (pad 8)).toNat = 64 ∧ (readWord s.mem (pad 16)).toNat % 8 = 0 ∧
      readWord s.mem (pad 24) = 0) ∧
    (tabFind { s with regions := full 63 }.regions 63 = none ∧ (∀ j < 63, tabFind { s with regions := full 63 }.regions j ≠ none) ∧
      ∀ e < 64, tabFind { s with regions := full 64 }.regions e ≠ none) ∧
    tabFind { s with regions := [(5, ⟨0x10020, 64, 0x20000, 3⟩)] }.regions 5 = some ⟨0x10020, 64, 0x20000, 3⟩ ∧
    63 < (s.me.val 3).toNat ∧ (s.me.val 4).toNat ≤ 63 := by
  refine ⟨?_, by decide +kernel, by decide +kernel, own_read (off := 0) (n := 32) (plain_device _ _ rfl) (by decide) (by decide) (by decide), by decide +kernel, by decide +kernel,
    by decide +kernel, by decide +kernel, by decide +kernel⟩
  unfold Slot.Clean
  decide +kernel

/-- A marker for the barrier word at the start of the window. -/
def marker (joined : Option Word) : VEntry := { entry 0x74008908 0 with kind := .marker, op0 := winW 0, joined := joined }

/-- BarrierInstructions: counts that may and may not stand, addresses that are and are not multiples of 8, a queue with a marker that has not fired, one
that has joined the present phase and one that has joined an earlier one; words with the first and the last arrival to come, and one of no
participants. -/
theorem witness_BarrierInstructions :
    (let x := withRegs runSlot [(2, winW 0), (3, winW 1), (6, 1), (7, 0x100000), (8, 0xFFFFF)]
     let s := device x [(0, 0x0000070000000002)]
     s.me.Clean [1, 2, 3, 6, 7, 8] ∧ PlainWrite s .write (s.me.val 2).toNat 8 1 (pad 0) ∧ PlainRead s (s.me.val 2).toNat 8 (pad 0) ∧
     (s.me.val 6 ≠ 0 ∧ (s.me.val 8).toNat < 2 ^ 20 ∧ 2 ^ 20 ≤ (s.me.val 7).toNat ∧ s.me.val 1 = 0 ∧ (s.me.val 3).toNat % 8 ≠ 0 ∧
       (s.me.val 2).toNat % 8 = 0 ∧ s.me.vq.length < 32) ∧
     (7 : Word).toNat = wbits (readWord s.mem (pad 0)) 63 40 ∧ (6 : Word).toNat ≠ wbits (readWord s.mem (pad 0)) 63 40) ∧
    ∀ w ∈ [0x0000070000000002, 0x0000070000100002, 0x0000070000000000],
      let s := device { runSlot with vq := [marker none] } [(0, BitVec.ofNat 64 w)]
      s.me.vq[0]? = some (marker none) ∧ (marker none).unfired = true ∧ s.me.due = none ∧ s.me.st ≠ .free ∧ mayFire s s.cur (marker none) = true ∧
      (∃ r, decodeToRow (marker none).word = .ok r) ∧ PlainBlock s (marker none).op0.toNat 8 (pad 0) := by
  refine ⟨⟨?_, plain_write (off := 0) (n := 8) (m := 1) (plain_device _ _ rfl) _ (by decide) (by decide) (by decide) (by decide) (by decide),
    plain_read (off := 0) (n := 8) (plain_device _ _ rfl) (by decide) (by decide), by decide +kernel, by decide +kernel, by decide +kernel⟩, ?_⟩
  · unfold Slot.Clean
    decide +kernel
  · intro w _
    exact ⟨rfl, rfl, rfl, (fun h => by cases h), rfl, ⟨.instr (.bara 2 0), by rfl⟩,
      plain_block (off := 0) (n := 8) (plain_device _ _ rfl) (by decide) (by decide) (by decide) (by decide) (Nat.zero_le 255)⟩

/-- FutureResults: a FULL future, an EMPTY one without and with a waiter, and a task's context with a continuation record to link. -/
theorem witness_FutureResults :
    (∀ w ∈ [0x4000000000000000, 0, 0x10000],
      let s := device (withRegs runSlot [(2, winW 0)]) [(0, BitVec.ofNat 64 w), (8, 9)]
      s.me.st ≠ .free ∧ (s.me.sreg 1).pend = .ready ∧ (s.me.sreg 1).poison = none ∧ (s.me.sreg 2).pend = .ready ∧ (s.me.sreg 2).poison = none ∧
      PlainBlock s (s.me.val 2).toNat 16 (pad 0) ∧ wbits (readWord s.mem (pad 0)) 61 56 = 0 ∧ wbits (readWord s.mem (pad 0)) 5 0 = 0 ∧
      accessPending s s.cur = false ∧ wbits (readWord s.mem (pad 0)) 63 62 ≤ 1) ∧
    let x : Slot := { withRegs runSlot [(2, winW 0), (1, winW 0x40)] with ctx := { Ctx.none with work := .task 3 5 } }
    let s := device x [(0x40, 1), (0x48, 0x2000)]
    s.me.mode = .context ∧ s.me.ctx.work = .task 3 5 ∧ s.me.ctx.children = [] ∧ s.me.ctx.siblings = 0 ∧ s.me.Clean [1] ∧
    PlainBlock s (s.me.val 1).toNat 64 (pad 0x40) ∧ PlainWrite s .write ((s.me.val 1).toNat + 0x30) 16 0 (pad 0x70) ∧
    contBadField ((List.range 8).map fun i => readWord s.mem (pad 0x40 + 8 * i)) = none ∧ slotDrained s s.cur = true := by
  refine ⟨?_, rfl, rfl, rfl, rfl, ?_, plain_block (off := 0x40) (n := 64) (plain_device _ _ rfl) (by decide) (by decide) (by decide) (by decide) (by decide),
    plain_write (off := 0x70) (n := 16) (m := 0) (plain_device _ _ rfl) _ (by decide) (by decide) (by decide) (by decide) (by decide), by decide +kernel,
    by decide +kernel⟩
  · intro w hw
    refine ⟨(fun h => by cases h), by rfl, by rfl, by rfl, by rfl,
      plain_block (off := 0) (n := 16) (plain_device _ _ rfl) (by decide) (by decide) (by decide) (by decide) (Nat.zero_le 255), ?_, ?_, by rfl, ?_⟩ <;>
    revert w <;> decide +kernel
  · unfold Slot.Clean
    decide +kernel

theorem base_open : VectorOpen base := ⟨by decide, by decide +kernel, by decide +kernel⟩

/-- VectorLengthResults: a VCFG that may stand and one that may not, and a strip record. -/
theorem witness_VectorLengthResults :
    VectorOpen base ∧ base.me.Clean [6, 4, 2] ∧ (wbits (base.me.val 6) 63 14 = 0 ∧ wbits (base.me.val 6) 2 0 ≤ 5 ∧ wbits (base.me.val 6) 13 12 ≠ 3) ∧
    5 < wbits ((device (withRegs runSlot [(4, 6)]) []).me.val 4) 2 0 ∧
    base.me.st ≠ .free ∧ (base.me.sreg 10).pend = .ready ∧ (base.me.sreg 11).pend = .ready ∧ PlainBlock base (base.me.val 2).toNat 64 (pad 0) ∧
    PlainWrite base .write ((base.me.val 2).toNat + 8) 8 0 (pad 8) :=
  ⟨base_open, clean_of base_clean (by decide), by decide +kernel, by decide +kernel, by decide +kernel, by decide +kernel, by decide +kernel,
    plain_block (off := 0) (n := 64) base_plain (by decide) (by decide) (by decide) (by decide) (by decide),
    plain_write (off := 8) (n := 8) (m := 0) base_plain _ (by decide) (by decide) (by decide) (by decide) (by decide)⟩

/-- VectorQueueEntries: an instruction that may enter, and slots without lane groups, with the vector state of another, with a full queue, with a group
that R125 forbids and with one that a port is bound to. -/
theorem witness_VectorQueueEntries :
    let r : Row := .arith (.vadd 1 2 3 0)
    let fits := fun (s : State) (ok bound : Bool) => ((rowShape s.me.vcfg s.me.vl s.me.vstart r).map fun h => (h.check, boundBreach s s.cur s.me.vcfg h)) = some (ok, bound)
    VectorOpen base ∧ (∀ x ∈ wordScalars r ++ (queueDest (encodeRow r)).toList, (base.me.sreg x).pend = .ready) ∧ base.me.vq.length < 32 ∧
    base.me.cnt.loads < 255 ∧ fits base true false ∧ fits (device { runSlot with vcfg := 0b01101 } []) false false ∧
    fits { base with cores := [(0, { Core.reset with ports := [(2, { Port.reset with st := .bound, bindReg := 1 })] })] } true true ∧
    (device { runSlot with laneCount := 0 } []).me.laneCount = 0 ∧
    (let s := device { runSlot with vuse := true, vowner := 0x10000 } []
     s.me.mode = .context ∧ s.me.vuse = true ∧ s.me.vowner ≠ s.me.csaBase) ∧
    32 ≤ (device { runSlot with vq := List.replicate 32 (entry 0x80000000 4) } []).me.vq.length :=
  ⟨base_open, by decide +kernel, by decide +kernel, by decide +kernel, by decide +kernel, by decide +kernel, by decide +kernel, by decide +kernel,
    by decide +kernel, by decide +kernel⟩

theorem slot_device {x : Slot} {ws : List (Nat × Word)} {j : Nat} (h : j ≠ 0) : (device x ws).slot j = Slot.reset := by
  simp [device, State.slot, tabGet, tabFind, Ne.symm h]

/-- An entry of the word of a row under a configuration. -/
def rowEntry (r : Row) (vl : Nat) (c : BitVec 14) : VEntry := { entry (encodeRow r) vl with vcfg := c }

/-- The device with that entry at the head of slot 0's queue. -/
def beatState (r : Row) (vl : Nat) (c : BitVec 14) : State := device { runSlot with vq := [rowEntry r vl c] } []

theorem beat_ready {r : Row} {vl : Nat} {c : BitVec 14} (hr : wellFormedRow r = true) (hv : 0 < vl) (hm : vl ≤ runSlot.vlmax c)
    (hw : wbits (c.setWidth 64) 2 0 ≤ 5) : BeatReady (beatState r vl c) 0 0 (rowEntry r vl c) r where
  core := rfl
  head := rfl
  alone := fun j _ hj => by rw [beatState, slot_device hj]; rfl
  word := ⟨rfl, hr, rfl, rfl⟩
  captured := ⟨rfl, rfl, hv, hm⟩
  slot := ⟨(fun h => by cases h), rfl, rfl, rfl⟩
  vlen := by simp only [beatState]; exact List.mem_cons_of_mem _ (List.mem_cons_of_mem _ (List.mem_cons_of_mem _ (List.mem_cons_self ..)))
  idle := ⟨rfl, rfl, rfl, fun _ => rfl⟩
  clean := fun _ => rfl
  width := hw

/-- VectorIntegerElements: forty elements of 64 bits, more than one beat; VDOT4 at 32 bits; a widening and a narrowing instruction at 32 bits. -/
theorem witness_VectorIntegerElements :
    (BeatReady (beatState (.arith (.vadd 1 2 3 0)) 40 0b101) 0 0 (rowEntry (.arith (.vadd 1 2 3 0)) 40 0b101) (.arith (.vadd 1 2 3 0)) ∧
      ∀ x ∈ [1, 2, 3], Placed 0b101 x) ∧
    (BeatReady (beatState (.arith (.vdot4 1 2 3 0)) 4 0b100) 0 0 (rowEntry (.arith (.vdot4 1 2 3 0)) 4 0b100) (.arith (.vdot4 1 2 3 0)) ∧
      8 ≤ vWidth 0b100) ∧
    (BeatReady (beatState (.arith (.vwadd 4 2 3 0)) 40 0b100) 0 0 (rowEntry (.arith (.vwadd 4 2 3 0)) 40 0b100) (.arith (.vwadd 4 2 3 0)) ∧
      vWidth 0b100 ≤ 32 ∧ vGroup 0b100 ≤ 2 ∧ 4 % (2 * 2 ^ vGroup 0b100) = 0 ∧ 2 + 2 ^ vGroup 0b100 ≤ 4) ∧
    BeatReady (beatState (.arith (.vnshr 1 4 3 0)) 40 0b100) 0 0 (rowEntry (.arith (.vnshr 1 4 3 0)) 40 0b100) (.arith (.vnshr 1 4 3 0)) ∧
      4 % (2 * 2 ^ vGroup 0b100) = 0 ∧ 1 + 2 ^ vGroup 0b100 ≤ 4 := by
  refine ⟨⟨beat_ready rfl (by decide) (by decide) (by decide), ?_⟩, ⟨beat_ready rfl (by decide) (by decide) (by decide), by decide⟩,
    ⟨beat_ready rfl (by decide) (by decide) (by decide), by decide⟩, beat_ready rfl (by decide) (by decide) (by decide), by decide⟩
  unfold Placed
  decide

/-- VectorFloatElements: binary64 elements, an ordering of two numbers, and classes; conversions that narrow, widen and keep the width. -/
theorem witness_VectorFloatElements :
    BeatReady (beatState (.arith (.vfadd 1 2 3 0)) 40 0b101) 0 0 (rowEntry (.arith (.vfadd 1 2 3 0)) 40 0b101) (.arith (.vfadd 1 2 3 0)) ∧
    (floatType 0b101).isSome = true ∧ (∀ x ∈ [1, 2, 3], Placed 0b101 x) ∧ fmtF64.StandsFor 0x3FF0000000000000 1 ∧ fmtF64.StandsFor 0 0 ∧
    BeatReady (beatState (.arith (.vfclass 1 2 0)) 40 0b101) 0 0 (rowEntry (.arith (.vfclass 1 2 0)) 40 0b101) (.arith (.vfclass 1 2 0)) := by
  refine ⟨beat_ready rfl (by decide) (by decide) (by decide), by decide, ?_, witness_FloatResults.1, witness_FloatResults.2.1,
    beat_ready rfl (by decide) (by decide) (by decide)⟩
  unfold Placed
  decide

theorem witness_VectorFloatElements_convert :
    (∀ t ∈ [((2, Sum.inl (true, 8)) : BitVec 5 × (Bool × Nat ⊕ Fmt)), (15, .inr fmtF64), (8, .inl (false, 32))], t ∈ convertTypes ∧
      let c : BitVec 14 := 0x1004
      let g := max 1 (2 ^ vGroup c * convertWidth t.2 / vWidth c)
      BeatReady (beatState (.arith (.vfcvtSat 4 2 t.1 0)) 40 c) 0 0 (rowEntry (.arith (.vfcvtSat 4 2 t.1 0)) 40 c) (.arith (.vfcvtSat 4 2 t.1 0)) ∧
      wbits (c.setWidth 64) 13 12 = 1 ∧ Placed c 2 ∧ g ≤ 8 ∧ 4 % g = 0 ∧ 4 + g ≤ 32 ∧ 2 + 2 ^ vGroup c ≤ 4) ∧
    BeatReady (beatState (.arith (.vfcvt 4 2 5 0)) 40 0b100) 0 0 (rowEntry (.arith (.vfcvt 4 2 5 0)) 40 0b100) (.arith (.vfcvt 4 2 5 0)) ∧
    (floatType 0b100).isSome = true := by
  refine ⟨fun t ht => ?_, beat_ready rfl (by decide) (by decide) (by decide), by decide⟩
  simp only [List.mem_cons, List.not_mem_nil, or_false] at ht
  obtain rfl | rfl | rfl := ht <;>
    exact ⟨by simp [convertTypes], beat_ready rfl (by decide) (by decide) (by decide), by decide, by unfold Placed; decide, by decide, by decide, by decide, by decide⟩

/-- VectorMaskResults: a compare, a mask operation and a count, at 8 bits; a floating-point compare at 32 and MFROMV. -/
theorem witness_VectorMaskResults :
    BeatReady (beatState (.instr (.vcmp 1 2 3 0 5)) 40 0b010) 0 0 (rowEntry (.instr (.vcmp 1 2 3 0 5)) 40 0b010) (.instr (.vcmp 1 2 3 0 5)) ∧
    BeatReady (beatState (.arith (.mand 7 0 1)) 40 0b010) 0 0 (rowEntry (.arith (.mand 7 0 1)) 40 0b010) (.arith (.mand 7 0 1)) ∧
    BeatReady (beatState (.arith (.mpopc 31 7 0)) 40 0b010) 0 0 (rowEntry (.arith (.mpopc 31 7 0)) 40 0b010) (.arith (.mpopc 31 7 0)) ∧
    BeatReady (beatState (.instr (.vfcmp 1 2 3 0 4)) 40 0b100) 0 0 (rowEntry (.instr (.vfcmp 1 2 3 0 4)) 40 0b100) (.instr (.vfcmp 1 2 3 0 4)) ∧
    BeatReady (beatState (.arith (.mfromv 1 2 0)) 40 0b010) 0 0 (rowEntry (.arith (.mfromv 1 2 0)) 40 0b010) (.arith (.mfromv 1 2 0)) ∧
    (floatType 0b100).isSome = true ∧ (∀ x ∈ [2, 3], Placed 0b100 x) ∧ ∀ x ∈ [2, 3], Placed 0b010 x := by
  refine ⟨beat_ready rfl (by decide) (by decide) (by decide), beat_ready rfl (by decide) (by decide) (by decide),
    beat_ready rfl (by decide) (by decide) (by decide), beat_ready rfl (by decide) (by decide) (by decide),
    beat_ready rfl (by decide) (by decide) (by decide), by decide, ?_⟩
  unfold Placed
  decide

/-- VectorPermutationResults: a permutation, VINS, VMERGE and a reduction in groups of two registers, up to the last group; a reduction of binary64
numbers, and VPRUNE48 of a group of eight and a part of one. -/
theorem witness_VectorPermutationResults :
    BeatReady (beatState (.arith (.vperm 30 2 4 0)) 40 0b01010) 0 0 (rowEntry (.arith (.vperm 30 2 4 0)) 40 0b01010) (.arith (.vperm 30 2 4 0)) ∧
    BeatReady (beatState (.arith (.vins 30 2 4)) 40 0b01010) 0 0 (rowEntry (.arith (.vins 30 2 4)) 40 0b01010) (.arith (.vins 30 2 4)) ∧
    BeatReady (beatState (.arith (.vmerge 30 2 4 1)) 40 0b01010) 0 0 (rowEntry (.arith (.vmerge 30 2 4 1)) 40 0b01010) (.arith (.vmerge 30 2 4 1)) ∧
    BeatReady (beatState (.arith (.vredsum 30 2 4 1)) 40 0b01010) 0 0 (rowEntry (.arith (.vredsum 30 2 4 1)) 40 0b01010) (.arith (.vredsum 30 2 4 1)) ∧
    (∀ x ∈ [30, 2, 4], Placed 0b01010 x) ∧
    (BeatReady (beatState (.arith (.vfredu 1 2 3 0)) 5 0b101) 0 0 (rowEntry (.arith (.vfredu 1 2 3 0)) 5 0b101) (.arith (.vfredu 1 2 3 0)) ∧
      (floatType 0b101).isSome = true ∧ ∀ x ∈ [1, 2, 3], Placed 0b101 x) ∧
    BeatReady (beatState (.arith (.vprune48 4 2)) 13 0b010) 0 0 (rowEntry (.arith (.vprune48 4 2)) 13 0b010) (.arith (.vprune48 4 2)) ∧
      vWidth 0b010 = 8 ∧ Placed 0b010 4 ∧ Placed 0b010 2 ∧ 4 + 2 * 2 ^ vGroup 0b010 ≤ 32 ∧ 2 + 2 ^ vGroup 0b010 ≤ 4 := by
  refine ⟨beat_ready rfl (by decide) (by decide) (by decide), beat_ready rfl (by decide) (by decide) (by decide),
    beat_ready rfl (by decide) (by decide) (by decide), beat_ready rfl (by decide) (by decide) (by decide), ?_,
    ⟨beat_ready rfl (by decide) (by decide) (by decide), by decide, ?_⟩, beat_ready rfl (by decide) (by decide) (by decide), by decide, ?_, ?_,
    by decide, by decide⟩ <;>
  · unfold Placed
    decide

/-- An entry of an access or of a word of another unit under a configuration, with its operands and what its Probe has found. -/
def unitEntry (i : Instr) (vl : Nat) (c : BitVec 14) (a b : Word) (p : Option Probed) : VEntry :=
  { rowEntry (.instr i) vl c with op0 := a, op1 := b, probed := p }

/-- The device with it at the head of slot 0's queue, and words in the window. -/
def unitState (e : VEntry) (ws : List (Nat × Word)) : State := device { runSlot with vq := [e], accLim := 128 } ws

theorem unit_ready {i : Instr} {vl : Nat} {c : BitVec 14} (a b : Word) (p : Option Probed) (ws : List (Nat × Word)) (hr : wellFormedRow (.instr i) = true)
    (hv : 0 < vl) (hm : vl ≤ runSlot.vlmax c) (hw : wbits (c.setWidth 64) 2 0 ≤ 5) :
    BeatReady (unitState (unitEntry i vl c a b p) ws) 0 0 (unitEntry i vl c a b p) (.instr i) where
  core := rfl
  head := rfl
  alone := fun j _ hj => by rw [unitState, slot_device hj]; rfl
  word := ⟨rfl, hr, rfl, rfl⟩
  captured := ⟨rfl, rfl, hv, hm⟩
  slot := ⟨(fun h => by cases h), rfl, rfl, rfl⟩
  vlen := by simp only [unitState]; exact List.mem_cons_of_mem _ (List.mem_cons_of_mem _ (List.mem_cons_of_mem _ (List.mem_cons_self ..)))
  idle := ⟨rfl, rfl, rfl, fun _ => rfl⟩
  clean := fun _ => rfl
  width := hw

/-- Two translated pages of the window, at its start and 4 KiB further. -/
def twoPages : Probed := { pages := [⟨laneSlice 0 0, win 0, 4096, pad 0, none⟩, ⟨laneSlice 0 0, win 0x1000, 4096, pad 0x1000, none⟩], waits := [] }

/-- A place within one of the first 256 bytes of the window, whose page an access has found. -/
theorem lane_place {e : VEntry} {ws : List (Nat × Word)} (k : Access) {pages : List HeldPage} {off n : Nat} (hn : 0 < n) (hi : win off % 4096 + n ≤ 4096)
    (ho : off < 2 ^ 26)
    (hf : e.probed = none → rangeWaits (unitState e ws) 0 e.ord (win off, n) = false)
    (hp : ∃ h, heldAt pages (laneAgent (unitState e ws) 0 (win off)).slice (win off) = some h ∧ h.key + (win off - h.va) = pad off ∧ h.poison = none) :
    LanePlace (unitState e ws) 0 e k pages (win off) n (pad off) where
  inside := ⟨hn, hi⟩
  fresh := fun h => ⟨⟨_, window_check rfl rfl rfl ho, rfl⟩, window_touch rfl rfl ho, hf h⟩
  page := hp
  memory := window_ordinary rfl rfl off n
  held := .inr (by simp [readHolds, unitState, device, State.reset])
  clean := .inr (window_clean rfl rfl off n)
  still := .inr (window_still rfl rfl rfl hn hi ho)

/-- VectorAccessResults: the accesses of bytes and words, with a Probe still to be made and with one that has passed, and the place of an element; VLDFF
whose third element lies past the window; and a whole block of a microscaling store. -/
theorem witness_VectorAccessResults :
    (∀ i ∈ [Instr.vld 4 1 0, .vlds 4 1 2 0, .vldx 4 1 2 0, .vldxo 4 1 2 0, .vst 4 1 0, .vsts 4 1 2 0, .vstx 4 1 2 0, .vstxo 4 1 2 0, .vstxadd 4 1 2 0,
        .vldn 4 1 0 0 0 0 0, .vstn 4 1 0 0 0 0 0],
      BeatReady (unitState (unitEntry i 2 0b101 (winW 0) 8 (some twoPages)) []) 0 0 (unitEntry i 2 0b101 (winW 0) 8 (some twoPages)) (.instr i) ∧
      AccessPages (unitState (unitEntry i 2 0b101 (winW 0) 8 (some twoPages)) []) 0 (unitEntry i 2 0b101 (winW 0) 8 (some twoPages)) twoPages ∧
      ∀ k, ∀ j < 2, LanePlace (unitState (unitEntry i 2 0b101 (winW 0) 8 (some twoPages)) []) 0 (unitEntry i 2 0b101 (winW 0) 8 (some twoPages)) k
        twoPages.pages (win (8 * j)) 8 (pad (8 * j))) ∧
    (let e := unitEntry (.vld 4 1 0) 2 0b101 (winW 0) 0 none
     let s := unitState e []
     e.probed = none ∧ activeFrom (s.core 0) (VView.of (s.slot 0) e) 0 e.p e.vl = [0, 1] ∧ placeUnit vWidth (s.core 0) (VView.of (s.slot 0) e) e 1 = (win 8, 0) ∧
       (∃ (a : VAcc) (b : Probed), rowAcc e = some a ∧ b = { pages := a.pages s 0 (s.core 0) (VView.of (s.slot 0) e) [0, 1], waits := [] } ∧
         LanePlace s 0 e .read b.pages (win 8) 8 (pad 8))) ∧
    (∀ x ∈ [4, 2], Placed 0b101 x) ∧ (floatType 0b101).isSome = true := by
  refine ⟨fun i hi => ⟨unit_ready _ _ _ _ (by revert i; decide) (by decide) (by decide) (by decide), .inr ⟨rfl, rfl⟩, fun k j hj => ?_⟩,
    ⟨rfl, by decide +kernel, by decide +kernel, _, _, rfl, rfl,
      lane_place (off := 8) (n := 8) .read (by decide) (by decide) (by decide) (fun _ => by decide +kernel) ⟨⟨laneSlice 0 0, win 0, 4096, pad 0, none⟩, by decide +kernel, rfl, rfl⟩⟩, ?_, by decide⟩
  · refine lane_place k (by decide) ?_ (by omega) (fun h => by cases h) ⟨⟨laneSlice 0 0, win 0, 4096, pad 0, none⟩, ?_, ?_, rfl⟩
    · interval_cases j <;> decide
    · interval_cases j <;> (show heldAt twoPages.pages (laneSlice 0 0) _ = _; decide +kernel)
    · interval_cases j <;> rfl
  · unfold Placed
    decide

theorem witness_VectorAccessResults_first :
    let e := unitEntry (.vldff 4 1 0) 4 0b101 (winW (2 ^ 26 - 16)) 0 none
    let s := unitState e []
    BeatReady s 0 0 e (.instr (.vldff 4 1 0)) ∧ e.probed = none ∧ e.p < 2 ∧ 2 ≤ e.vl ∧
    (∃ (a : VAcc) (b : Probed), rowAcc { e with vl := 2 } = some a ∧
      b = { pages := a.pages s 0 (s.core 0) (VView.of (s.slot 0) { e with vl := 2 }) [0, 1], waits := [] } ∧
      LanePlace s 0 e .read b.pages (win (2 ^ 26 - 8)) 8 (pad (2 ^ 26 - 8))) ∧
    activeFrom (s.core 0) (VView.of (s.slot 0) e) 0 e.p 2 = [0, 1] ∧ (s.core 0).active (VView.of (s.slot 0) e) 0 2 = true ∧
    ∃ x, checkAddr s (laneAgent s 0 (2 ^ 56)) (placeUnit vWidth (s.core 0) (VView.of (s.slot 0) e) e 2).1 .read = .error x :=
  ⟨unit_ready _ _ _ _ rfl (by decide) (by decide) (by decide), rfl, by decide, by decide, ⟨_, _, rfl, rfl,
      lane_place (off := 2 ^ 26 - 8) (n := 8) .read (by decide) (by decide) (by decide) (fun _ => by decide +kernel)
        ⟨⟨laneSlice 0 7, win (2 ^ 26 - 4096), 4096, pad (2 ^ 26 - 4096), none⟩, by decide +kernel, rfl, rfl⟩⟩,
    by decide +kernel, by decide +kernel, error_of (by decide +kernel)⟩

theorem witness_VectorAccessResults_block :
    let e := unitEntry (.vstn 4 1 0 2 0 0 2) 32 0b101 (winW 0) (winW 0x1000) (some twoPages)
    let s := unitState e []
    (narrowFmt 2).isMx = true ∧ BeatReady s 0 0 e (.instr (.vstn 4 1 0 2 0 0 2)) ∧ e.vl % 32 = 0 ∧ e.p % 32 = 0 ∧ AccessPages s 0 e twoPages ∧
    (∀ j < 32, (placeUnit (fun _ => (narrowFmt 2).width) (s.core 0) (VView.of (s.slot 0) e) e j).1 = win j ∧
      LanePlace s 0 e .write twoPages.pages (win j) 1 (pad j)) ∧
    LanePlace s 0 e .write twoPages.pages (win 0x1000) 1 (pad 0x1000) := by
  refine ⟨rfl, unit_ready _ _ _ _ rfl (by decide) (by decide) (by decide), rfl, rfl, .inr ⟨rfl, rfl⟩, fun j hj => ⟨by interval_cases j <;> decide +kernel, ?_⟩,
    lane_place .write (by decide) (by decide) (by decide) (fun h => by cases h) ⟨⟨laneSlice 0 0, win 0x1000, 4096, pad 0x1000, none⟩, by decide +kernel, rfl, rfl⟩⟩
  refine lane_place .write (by decide) ?_ (by omega) (fun h => by cases h) ⟨⟨laneSlice 0 0, win 0, 4096, pad 0, none⟩, ?_, ?_, rfl⟩
  · interval_cases j <;> decide
  · interval_cases j <;> decide +kernel
  · interval_cases j <;> rfl

/-- A table of buckets at 0x2000 of the window: B 4, one head, INT8 rows of sixteen bytes, one block in the free list at
0x9000, and a page table at 0xE000 whose one entry names 0xF000. -/
def tableWords : List (Nat × Word) :=
  [(0x2000, BitVec.ofNat 64 (1 + 2 ^ 16 + 4 * 2 ^ 24 + 2 ^ 32 + 0x18 * 2 ^ 56)), (0x2008, 16), (0x2010, winW 0xE000), (0x2018, 0), (0x2020, winW 0xA000), (0x2028, winW 0xB000),
   (0x2030, winW 0x9000), (0x2038, 0x100000001), (0x2040, winW 0x9000), (0x2048, winW 0xC000), (0x2050, 64), (0xE000, 1), (0xE008, 12), (0xE040, BitVec.ofNat 64 (2 ^ 63 + win 0xF000))]

/-- The signs of that table's keys. -/
def oneProj : Proj := ⟨16, 4, 0x18, [], 0⟩

/-- The device with a KST of a token at the head of slot 0's queue, a slot of a tag, and that table in a state and with an owner. -/
def kstState (vl : Nat) (c : BitVec 14) (token : Word) (tag : STag) (state owner : Nat) : State :=
  { device { runSlot with vq := [unitEntry (.kst 1 2 3) vl c token (winW 0x2000) none], shtag := tag }
      ([(0x2000, BitVec.ofNat 64 (1 + state * 2 ^ 16 + 4 * 2 ^ 24 + 2 ^ 32 + 0x18 * 2 ^ 56)), (0x2008, BitVec.ofNat 64 (16 + owner * 2 ^ 32))] ++ tableWords.drop 2) with
    proj := [(0, oneProj)] }

theorem kst_ready (vl : Nat) (c : BitVec 14) (token : Word) (tag : STag) (state owner : Nat) (hv : 0 < vl) (hm : vl ≤ runSlot.vlmax c)
    (hw : wbits (c.setWidth 64) 2 0 ≤ 5) :
    BeatReady (kstState vl c token tag state owner) 0 0 (unitEntry (.kst 1 2 3) vl c token (winW 0x2000) none) (.instr (.kst 1 2 3)) ∧
    AgentRead (kstState vl c token tag state owner) (kbuAgent (kstState vl c token tag state owner) 0) (win 0x2000) 128 (pad 0x2000) :=
  ⟨{ core := rfl
     head := rfl
     alone := fun j _ hj => by
       have h : (kstState vl c token tag state owner).slot j = Slot.reset := by
         simp [kstState, device, State.slot, tabGet, tabFind, Ne.symm hj]
       rw [h]
       rfl
     word := ⟨rfl, rfl, rfl, rfl⟩
     captured := ⟨rfl, rfl, hv, hm⟩
     slot := ⟨(fun h => by cases h), rfl, rfl, rfl⟩
     vlen := List.mem_cons_of_mem _ (List.mem_cons_of_mem _ (List.mem_cons_of_mem _ (List.mem_cons_self ..)))
     idle := ⟨rfl, rfl, rfl, fun _ => rfl⟩
     clean := fun _ => rfl
     width := hw },
    calm_read ⟨rfl, rfl, rfl, rfl, rfl⟩ rfl (.inr rfl) (by decide) (by decide) (by decide)⟩

/-- VectorUnitResults: KSIG with a slot of signs; KST with a table that is broken, EMPTY, another's, of another type, of another length, too short, and
with one that takes the token; TMOVR and TMOVW of eight cells of each mode. -/
theorem witness_VectorUnitResults :
    (let s := { unitState (unitEntry (.ksig 1 2 3) 16 0b011 0 0 none) [] with proj := [(0, oneProj)] }
     BeatReady s 0 0 (unitEntry (.ksig 1 2 3) 16 0b011 0 0 none) (.instr (.ksig 1 2 3)) ∧ projSlot s (clusterOf 0) 0 = some oneProj ∧ oneProj.tag = 0 ∧ oneProj.d = 16 ∧
       floatType 0b011 = some (keyFmt oneProj.ktype) ∧ Placed 0b011 2) ∧
    (∀ x ∈ [((3, 0, 0, 16, 0b011, 5) : Nat × Nat × STag × Nat × BitVec 14 × Word), (0, 0, 0, 16, 0b011, 5), (1, 7, 5, 16, 0b011, 5), (1, 0, 0, 16, 0b100, 5),
        (1, 0, 0, 15, 0b011, 5), (1, 0, 0, 16, 0b011, 64), (1, 0, 0, 16, 0b011, 5)],
      let s := kstState x.2.2.2.1 x.2.2.2.2.1 x.2.2.2.2.2 x.2.2.1 x.1 x.2.1
      BeatReady s 0 0 (unitEntry (.kst 1 2 3) x.2.2.2.1 x.2.2.2.2.1 x.2.2.2.2.2 (winW 0x2000) none) (.instr (.kst 1 2 3)) ∧
        AgentRead s (kbuAgent s 0) (win 0x2000) 128 (pad 0x2000)) ∧
    (let d := fun (s : State) => readBytes s.mem (pad 0x2000) 128
     tState (d (kstState 16 0b011 5 0 3 0)) = 3 ∧ tState (d (kstState 16 0b011 5 0 0 0)) = 0 ∧
     (tState (d (kstState 16 0b011 5 5 1 7)) = 1 ∧ tOwner (d (kstState 16 0b011 5 5 1 7)) = 7) ∧ floatType 0b100 ≠ some (keyFmt (tKtype (d (kstState 16 0b011 5 0 1 0)))) ∧
     floatType 0b011 = some (keyFmt (tKtype (d (kstState 16 0b011 5 0 1 0)))) ∧ tD (d (kstState 16 0b011 5 0 1 0)) = 16 ∧
     tTcap (d (kstState 16 0b011 5 0 1 0)) = 64 ∧ wbits (winW 0x2000) 55 6 * 64 = win 0x2000) ∧
    (let s := kstState 16 0b011 5 0 1 0
     let e := unitEntry (.kst 1 2 3) 16 0b011 5 (winW 0x2000) none
     ∃ l u, kstIssue s 0 1 2 e (s.core 0) (VView.of (s.slot 0) e) = .claim l u ∧ storeWaits s 0 e.ord (l.row, l.bytes.length) = false) ∧
    (∀ i ∈ [Instr.tmovr 1 2, .tmovw 1 2], ∀ d ∈ [(0x400000 : Word), 0],
      let e := unitEntry i 8 0x1005 d 0 none
      BeatReady (unitState e []) 0 0 e (.instr i) ∧ descBad d false false 128 = none ∧ e.vl ≤ tdRows d * tdCols d ∧ (((unitState e []).core 0).tq = []) ∧
        ∀ n, cellClass (((unitState e []).core 0).cell n).bits ≠ 3 ∧ (((unitState e []).core 0).cell n).side = none) ∧
    wbits ((0x1005 : BitVec 14).setWidth 64) 13 12 = 1 ∧ vWidth 0x1005 = 64 ∧ Placed 0x1005 2 := by
  have claims : ∀ r : KstRes, (match r with | .claim l _ => !storeWaits (kstState 16 0b011 5 0 1 0) 0 0 (l.row, l.bytes.length) | _ => false) = true →
      ∃ l u, r = .claim l u ∧ storeWaits (kstState 16 0b011 5 0 1 0) 0 0 (l.row, l.bytes.length) = false := by
    intro r h
    cases r <;> simp_all
  refine ⟨⟨?_, rfl, rfl, rfl, by decide, by unfold Placed; decide⟩, fun x hx => kst_ready _ _ _ _ _ _ ?_ ?_ ?_, by decide +kernel, claims _ (by decide +kernel), fun i hi d hd => ?_,
    by decide, by decide, by unfold Placed; decide⟩
  · have h := unit_ready (i := .ksig 1 2 3) (vl := 16) (c := 0b011) 0 0 none [] rfl (by decide) (by decide) (by decide)
    exact { h with }
  · revert x; decide
  · revert x; decide
  · revert x; decide
  · simp only [List.mem_cons, List.not_mem_nil, or_false] at hi hd
    obtain rfl | rfl := hi <;> obtain rfl | rfl := hd <;>
      exact ⟨unit_ready _ _ _ _ rfl (by decide) (by decide) (by decide), by decide, by decide, rfl, fun n => ⟨by show cellClass 0 ≠ 3; decide, rfl⟩⟩

/-- A port of slot 0 that streams INT8 bytes. -/
def bytePort : Port := { Port.reset with st := .opened, spec := [0x1000, winW 0, 0, 4, 0, 0, 0, 0], bindReg := 32 }

/-- A descriptor of the integer operands INT8 by INT8, one row, the first segment, in an accumulator range of 128 rows. -/
def tileDesc : Word := 0x11000000

/-- TileQueueEntries: TZERO and TMMA with two ports that feed it, and a descriptor past the accumulator range. -/
theorem witness_TileQueueEntries :
    let x := withRegs { runSlot with accLim := 128 } [(1, tileDesc), (2, 0x7F00)]
    let s := { device x [] with cores := [(0, { Core.reset with ports := [(0, bytePort), (1, bytePort)] })] }
    s.me.Clean [1, 0] ∧ s.me.vuse = false ∧ tileRoom s (coreOf s.cur) [(encode (.tmma 1 0 1 0)).getD 0] = true ∧ s.me.cnt.tiles < 255 ∧
    descBad (s.me.val 1) false true s.me.accLim.toNat = none ∧ opkOk s.me 0 (s.me.val 1) (s.me.val 0) (.tmma 1 0 1 0) = true ∧
    (∀ p ∈ (portsRead (.tmma 1 0 1 0)).zip [tdAt (s.me.val 1), tdBt (s.me.val 1)], portFeeds s s.cur p.1 p.2 = true) ∧
    tileRoom s (coreOf s.cur) [(encode (.tmmag 1 0 1 0)).getD 0] = true ∧ (∀ r ∈ some 5, (s.me.sreg r).pend = .ready) ∧
    vectorIdle s s.cur = true ∧ fenceWaiting s s.cur = false ∧ descBad (s.me.val 2) false false 1 = some (0x0A, 0) := by
  refine ⟨?_, rfl, by decide +kernel, by decide +kernel, by decide +kernel, by decide +kernel, by decide +kernel, by decide +kernel, ?_, by decide +kernel,
    by decide +kernel, by decide +kernel⟩
  · unfold Slot.Clean
    decide +kernel
  · intro r hr
    cases hr
    rfl

/-- The entry of a tile instruction of slot 0. -/
def tileEntry (i : Instr) (opk : Word) : TEntry :=
  { slot := 0, pc := 0x1000, word := (encode i).getD 0, seq := 0, kp := 0, frm := 0, reefTh := 4, reefTrap := false, accRow := 0, desc := 0, opk := opk,
    poison := none, tag := 0, gangOf := none, reefed := false, ord := 0, dest := if isTstat i then 2 else 0, waits := [] }

theorem tile_ready (i : Instr) (opk : Word) (hw : (encode i).isSome = true ∧ wellFormed i = true)
    (hd : descBad 0 (isTstat i) (readsPorts i) 128 = none) (ho : opkOk { runSlot with accLim := 128 } 0 0 opk i = true) :
    TileReady { device { runSlot with accLim := 128 } [] with cores := [(0, { Core.reset with tq := [tileEntry i opk] })] } 0 (tileEntry i opk) i where
  head := rfl
  word := ⟨by
    have h := hw.1
    simp only [tileEntry]
    cases he : encode i with
    | none => simp [he] at h
    | some w => rfl, hw.2, rfl, rfl⟩
  slot := ⟨by simp [tileEntry, coreOf], rfl, rfl⟩
  desc := hd
  opk := ho
  idle := fun _ => rfl

/-- A TMMA of one row by one segment with one value of k, and the device with it, its ports holding na and nb elements or over, and finite cells with
headroom in its segment. -/
def stepEntry : TEntry := { tileEntry (.tmma 1 0 1 2) 1 with desc := tileDesc }
def stepState (na nb : Nat) (ended : Bool) : State :=
  let port := fun (n : Nat) =>
    { bytePort with fifo := List.replicate n ⟨3, none, 127⟩, stop := if ended then some (0, false) else none }
  { device { runSlot with accLim := 128 } [] with
    cores := [(0, { Core.reset with tq := [stepEntry], ports := [(0, port na), (1, port nb)], seg := [(0, ⟨0, false, 61, 0⟩)] })] }

theorem step_ready (na nb : Nat) (ended : Bool) : StepReady (stepState na nb ended) 0 stepEntry 1 2 0 1 1 1 where
  ready := .inl ⟨rfl, {
    head := rfl, word := ⟨rfl, rfl, rfl, rfl⟩, slot := ⟨by simp [stepEntry, tileEntry, coreOf], rfl, rfl⟩, desc := rfl
    opk := rfl
    idle := fun p => match p with
      | 0 => rfl
      | 1 => rfl
      | _ + 2 => rfl }⟩
  left := by decide
  takes := by decide

/-- TileResults, a step of the matrix unit: with all its operands, with none yet, and with none to come. -/
theorem witness_TileResults_step :
    (let s := stepState 1 32 false
     StepReady s 0 stepEntry 1 2 0 1 1 1 ∧ ((s.core 0).port 0).holds (1 * tdRows tileDesc) ∧ ((s.core 0).port 1).holds (1 * tdCols tileDesc) ∧
       tdMode stepEntry.desc = 0 ∧ (∀ n < 1, ((s.core 0).port 0).operand n = some (realOfFin false 3 0)) ∧
       (∀ n < 32, ((s.core 0).port 1).operand n = some (realOfFin false 3 0)) ∧ ((s.core 0).segment 0).empty = false ∧
       ((s.core 0).segment 0).hr = 61 ∧ (∀ i < 32, cellClass ((s.core 0).cell i).bits = 0) ∧
       |realOfFin false 3 0 * realOfFin false 3 0| * 2 ^ ceilLog2 1 < (2 : ℚ) ^ (60 + ((s.core 0).segment 0).exp)) ∧
    (let s := stepState 0 0 false
     StepReady s 0 stepEntry 1 2 0 1 1 1 ∧ ¬ ((s.core 0).port 0).holds 1 ∧ ¬ ((s.core 0).port 0).over ∧ ¬ ((s.core 0).port 1).over) ∧
    let s := stepState 0 32 true
    StepReady s 0 stepEntry 1 2 0 1 1 1 ∧ ¬ ((s.core 0).port 0).holds 1 ∧ ((s.core 0).port 0).over := by
  refine ⟨⟨step_ready _ _ _, ?_, ?_, by decide, ?_, ?_, rfl, rfl, by decide +kernel, ?_⟩, ⟨step_ready _ _ _, ?_, ?_, ?_⟩, step_ready _ _ _, ?_, .inl rfl⟩
  · unfold Port.holds
    decide +kernel
  · unfold Port.holds
    decide +kernel
  · intro n hn
    have : n = 0 := by omega
    subst this
    rfl
  · intro n hn
    interval_cases n <;> rfl
  · have h : ((stepState 1 32 false).core 0).segment 0 = ⟨0, false, 61, 0⟩ := rfl
    rw [h]
    norm_num [realOfFin, ceilLog2]
  all_goals
    first | unfold Port.holds | unfold Port.over
    decide +kernel

/-- TileResults: each of the three instructions, alone in the queue. -/
theorem witness_TileResults :
    TileReady { device { runSlot with accLim := 128 } [] with cores := [(0, { Core.reset with tq := [tileEntry (.tzero 1) 0] })] } 0
      (tileEntry (.tzero 1) 0) (.tzero 1) ∧
    TileReady { device { runSlot with accLim := 128 } [] with cores := [(0, { Core.reset with tq := [tileEntry (.tsetx 1 2) (-3)] })] } 0
      (tileEntry (.tsetx 1 2) (-3)) (.tsetx 1 2) ∧
    TileReady { device { runSlot with accLim := 128 } [] with cores := [(0, { Core.reset with tq := [tileEntry (.tstat 1 2) 0] })] } 0
      (tileEntry (.tstat 1 2) 0) (.tstat 1 2) ∧ tdMode (tileEntry (.tstat 1 2) 0).desc ≠ 3 ∧ (tileEntry (.tstat 1 2) 0).dest = 2 :=
  ⟨tile_ready _ _ (by decide) (by decide +kernel) (by decide +kernel), tile_ready _ _ (by decide) (by decide +kernel) (by decide +kernel),
    tile_ready _ _ (by decide) (by decide +kernel) (by decide +kernel), by decide +kernel⟩

/-- The device with a tile entry of slot 0 at the head of core 0's tile queue and what else stands in core 0, with other cores. -/
def unitTile (i : Instr) (opk d : Word) : TEntry := { tileEntry i opk with desc := d }
def tileState (e : TEntry) (c : Core) (cs : List (Nat × Core)) : State :=
  { device { runSlot with accLim := 128 } [] with cores := (0, { c with tq := [e] }) :: cs }

theorem tile_alone {i : Instr} {opk d : Word} {c : Core} (cs : List (Nat × Core)) (hs : c.ports = [])
    (hw : (encode i).isSome = true ∧ wellFormed i = true ∧ isTstat i = false) (hd : descBad d (isTstat i) (readsPorts i) 128 = none)
    (ho : opkOk { runSlot with accLim := 128 } 0 d opk i = true) : TileReady (tileState (unitTile i opk d) c cs) 0 (unitTile i opk d) i where
  head := rfl
  word := ⟨by
    have h := hw.1
    simp only [unitTile, tileEntry]
    cases he : encode i with
    | none => simp [he] at h
    | some w => rfl, hw.2.1, rfl, rfl⟩
  slot := ⟨by simp [unitTile, tileEntry, coreOf], rfl, rfl⟩
  desc := hd
  opk := ho
  idle := fun p => by
    show (tabGet c.ports Port.reset p).stats = []
    rw [hs]
    rfl

/-- A segment that is not EMPTY, with an exponent. -/
def fullSeg (hr : Nat) (exp : Int) : SegStatus := ⟨0, false, hr, exp⟩

/-- TileUnitResults: TREEF by zero, of a full and an EMPTY segment, and past the greatest exponent; TADDX of a tile of another context, of binary64 cells,
of an EMPTY segment and of one with the same exponent. -/
theorem witness_TileUnitResults :
    (∀ x ∈ [((0, 0) : Word × Int), (3, 0), (3, 32767)],
      let s := tileState (unitTile (.treef 1 2) x.1 0x100000) { Core.reset with seg := [(0, fullSeg 61 x.2)] } []
      TileReady s 0 (unitTile (.treef 1 2) x.1 0x100000) (.treef 1 2) ∧ tdMode (0x100000 : Word) = 0 ∧ tdSegs (0x100000 : Word) = 2 ∧
        ((s.core 0).segment 0).empty = false ∧ ((s.core 0).segment 1).empty = true ∧ ((s.core 0).segment 0).exp = x.2 ∧ cellClass ((s.core 0).cell 0).bits = 0) ∧
    (∀ x ∈ [((5, 0x400000, SegStatus.reset) : STag × Word × SegStatus), (0, 0x400000, SegStatus.reset), (0, 0, SegStatus.reset), (0, 0, fullSeg 61 0)],
      let s := tileState (unitTile (.taddx 1 2) 0x20000 x.2.1) { Core.reset with seg := [(0, fullSeg 61 0)] } [(1, { Core.reset with seg := [(0, x.2.2)], rowTag := [(0, x.1)] })]
      TileReady s 0 (unitTile (.taddx 1 2) 0x20000 x.2.1) (.taddx 1 2) ∧ (∀ i < 16, (0x20000 : Word).getLsbD (16 + i) = decide (i = 1)) ∧
        tabGet (s.core (0 / 16 * 16 + 1)).rowTag 0 (wbits (0x20000 : Word) 6 0) = x.1 ∧ tdRows x.2.1 = 1 ∧
        ((s.core (0 / 16 * 16 + 1)).segment 0).empty = x.2.2.empty ∧ ((s.core 0).segment 0).empty = false ∧
        cellM ((s.core 0).cell 0).bits + cellM ((s.core 1).cell 0).bits ≤ 2 ^ 61 - 1) := by
  refine ⟨fun x hx => ⟨tile_alone _ rfl (by decide) (by decide) (by revert x; decide), by decide, by decide, rfl, rfl, rfl, by show cellClass 0 = 0; decide⟩,
    fun x hx => ⟨tile_alone _ rfl (by decide) (by revert x; decide) (by revert x; decide), by decide, rfl, by revert x; decide, rfl, rfl, ?_⟩⟩
  show cellM 0 + cellM 0 ≤ 2 ^ 61 - 1
  decide

theorem witness_TileUnitResults_memory :
    (let e := unitTile (.tld 1 2) (winW 0) 0
     let s := tileState e Core.reset []
     TileReady s 0 e (.tld 1 2) ∧ e.opk.toNat = win 0 ∧ win 0 % 8 = 0 ∧ tileWaits s e (win 0, 264) = false ∧
       (∀ p ∈ tilePieces (win 0) 264, readHolds s (tileAgent s e p.1) p.1 p.2 = []) ∧
       ∀ n < 33, AgentRead s (tileAgent s e (win (8 * n))) (win (8 * n)) 8 (pad (8 * n))) ∧
    ∀ x ∈ [(0, (0 : Word), 4), (1, 0x400000, 2)],
      let e := unitTile (.tst 1 0 (BitVec.ofNat 1 x.1) 2) (winW 0) x.2.1
      let s := tileState e Core.reset []
      TileReady s 0 e (.tst 1 0 (BitVec.ofNat 1 x.1) 2) ∧ slotAlive s e.slot = true ∧ win 0 % x.2.2 = 0 ∧ tileWaits s e (win 0, 32 * x.2.2) = false ∧
        (∀ n, cellClass ((s.core 0).cell n).bits ≠ 3 ∧ ((s.core 0).cell n).side = none) ∧
        ∀ i < granuleCount (win 0) (32 * x.2.2), AgentWrite s (tileAgent s e (win (64 * i))) (win (64 * i)) 64 (pad (64 * i)) := by
  refine ⟨⟨tile_alone _ rfl (by decide) (by decide) (by decide), by decide, by decide, by decide +kernel, fun p _ => by simp [readHolds, tileState, device, State.reset],
    fun n hn => calm_read ⟨rfl, rfl, rfl, rfl, rfl⟩ rfl (.inl rfl) (by decide) ?_ (by omega)⟩, fun x hx => ?_⟩
  · interval_cases n <;> decide
  · simp only [List.mem_cons, List.not_mem_nil, or_false] at hx
    obtain rfl | rfl := hx
    all_goals
      refine ⟨tile_alone _ rfl (by decide) (by decide) (by decide), by decide, by decide, by decide +kernel, fun n => ⟨by show cellClass 0 ≠ 3; decide, rfl⟩, fun i hi => ?_⟩
      have h : i < 2 := Nat.lt_of_lt_of_le hi (by decide)
      refine calm_write ⟨rfl, rfl, rfl, rfl, rfl⟩ rfl rfl (by decide) ?_ (by omega)
      interval_cases i <;> decide

/-- TMMAS of one group with its metadata, and TMMAG of a gang whose members wait for it. -/
theorem witness_TileUnitResults_gang :
    (let e := { unitTile (.tmmas 1 0 1 2 4) 8 tileDesc with kp := 7 }
     let port := fun n => { bytePort with fifo := List.replicate n ⟨3, none, 127⟩ }
     let c := { Core.reset with ports := [(0, port 4), (1, port 32)], vec := [(vecKey 0 4 0, ⟨1672, none⟩)], seg := [(0, fullSeg 61 0)] }
     let s := tileState e c []
     (s.core 0).tq = [e] ∧ encode (.tmmas 1 0 1 2 4) = some e.word ∧ wellFormed (.tmmas 1 0 1 2 4) = true ∧ descBad e.desc false true 128 = none ∧
       opkOk (s.slot 0) 0 e.desc e.opk (.tmmas 1 0 1 2 4) = true ∧ (∀ p ∈ [0, 1, 2], ((s.core 0).port p).stats = []) ∧ e.kp < e.opk.toNat ∧
       (let m := (s.core 0).elem (metaView (s.slot 0)) 4 16 0
        m.poison = none ∧ metaOk m.bits = true ∧ keptOf m.bits = [0, 1, 2, 3]) ∧
       ((s.core 0).port 0).fifo.length = 4 * tdRows e.desc ∧ ((s.core 0).port 1).fifo.length = tdCols e.desc) ∧
    (let e := unitTile (.tmmag 1 0 1 2) 1 tileDesc
     let port := fun n => { bytePort with fifo := List.replicate n ⟨3, none, 127⟩ }
     let c := { Core.reset with ports := [(0, port 4), (1, port 128)] }
     let s := tileState e c ((List.range 15).map fun m => (m + 1, { Core.reset with tq := [{ e with gangOf := some 0 }] }))
     (s.core 0).tq = [e] ∧ encode (.tmmag 1 0 1 2) = some e.word ∧ wellFormed (.tmmag 1 0 1 2) = true ∧ opkOk (s.slot 0) 0 e.desc e.opk (.tmmag 1 0 1 2) = true ∧
       gangReady s 0 e = true ∧ gangTagsOk s 0 e = true ∧ 8 * e.kp < e.opk.toNat ∧
       ((s.core 0).port 0).fifo.length = 1 * (4 * tdRows e.desc) ∧ ((s.core 0).port 1).fifo.length = 1 * (4 * tdCols e.desc)) := by
  refine ⟨by decide +kernel, by decide +kernel⟩

/-- The products of a step whose segment is EMPTY, has no headroom, or is far below them: 9, of at most four bits. -/
theorem witness_TileUnitResults_reef :
    tdMode tileDesc = 0 ∧ |realOfFin false 3 0 * realOfFin false 3 0| < (2 : ℚ) ^ (4 : Int) ∧
    (2 : ℚ) ^ (4 - 1 : Int) ≤ |realOfFin false 3 0 * realOfFin false 3 0| ∧ SegStatus.reset.empty = true ∧
    ((fullSeg 0 0).empty = false ∧ (fullSeg 0 0).hr = 0) ∧ (60 < 4 + (ceilLog2 1 : Int) - (fullSeg 61 (-100)).exp) ∧
    (fullSeg 61 (-100)).exp + (max (1 - ((fullSeg 61 (-100)).hr : Int)) (4 + ceilLog2 1 - (fullSeg 61 (-100)).exp - 60)).toNat ≤ 32767 := by
  refine ⟨by decide, by norm_num [realOfFin], by norm_num [realOfFin], rfl, ⟨rfl, rfl⟩, by decide, by decide⟩

/-- A computation that gives some state gives it. -/
theorem exists_ok {ε α : Type} {e : Except ε α} (h : e.toOption.isSome = true) : ∃ a, e = .ok a := by
  cases e with
  | error m => cases h
  | ok a => exact ⟨a, rfl⟩

/-- StreamInstructions: SOPEN of a specification that may stand and of one whose HDR may not, a port that its slot has open, one that is bound with a
store before it, a port of another slot, and one that an earlier instruction is still to read. -/
theorem witness_StreamInstructions :
    (let s := device (withRegs runSlot [(2, winW 0)]) [(0, 0x1000), (8, winW 0x100), (24, 4)]
     ((s.core 0).port 0).st = .closed ∧ s.me.Clean [2] ∧ (s.me.val 2).toNat % 64 = 0 ∧ OwnRead s (s.me.val 2).toNat 64 (pad 0) ∧
       specBadField (wordsAt s (pad 0) 8) false = none ∧ specKind (wordsAt s (pad 0) 8) ≠ 6) ∧
    (let s := device (withRegs runSlot [(2, winW 0)]) [(0, 0x8000000000001000)]
     specBadField (wordsAt s (pad 0) 8) false = some 0 ∧ sCw (wordsAt s (pad 0) 8) = false) ∧
    (let s := { base with cores := [(0, { Core.reset with ports := [(7, bytePort), (6, { bytePort with owner := 9 })] })] }
     ((s.core 0).port 7).st = .opened ∧ ((s.core 0).port 7).owner = s.cur ∧ portAwaited s s.cur 7 s.nextOp = false ∧ writesPending s s.cur = false ∧
       Placed s.me.vcfg 31 ∧ groupInUse s s.cur ⟨31, 2 ^ vGroup s.me.vcfg, 0⟩ = false ∧ ((s.core 0).port 7).status < 128 ∧
       ((s.core 0).port 7).pos < 2 ^ 48 ∧ ((s.core 0).port 6).owner ≠ s.cur ∧ ((s.core 0).port 5).st = .closed) ∧
    writesPending { base with stores := [oneStore false] } 0 = true ∧
    portAwaited { device { runSlot with vq := [entry (encodeRow (.arith (.vadd 1 2 3 0))) 4] } [] with
      cores := [(0, { Core.reset with ports := [(7, { bytePort with st := .bound, bindReg := 2 })] })] } 0 7 1 = true := by
  refine ⟨⟨rfl, ?_, by decide +kernel, own_read (off := 0) (plain_device _ _ rfl) (by decide) (by decide) (by decide), by decide +kernel, by decide +kernel⟩,
    by decide +kernel, ⟨by decide +kernel, by decide +kernel, by decide +kernel, by decide +kernel, ?_, by decide +kernel, by decide +kernel, by decide +kernel,
    by decide +kernel, by decide +kernel⟩, by decide +kernel, by decide +kernel⟩
  · unfold Slot.Clean
    decide +kernel
  · unfold Placed
    decide

/-- A mesh of one root and one leaf that a topology engine holds under the key of the descriptor at 0x1000 of the window. -/
def oneCell : Mesh := ⟨2, List.replicate 8 0, [[0, 1, 2, 3]], [⟨0, []⟩], 0, []⟩

/-- A mesh descriptor at 0x1000 of the window, in a state: DIM 2, four cells at most, NFLD fields, its store at 0x10000. -/
def meshWords (state nfld : Nat) : List (Nat × Word) :=
  [(0x1000, BitVec.ofNat 64 (1 + state * 2 ^ 16 + 2 * 2 ^ 24 + nfld * 2 ^ 32)), (0x1008, winW 0x10000), (0x1010, 4096), (0x1018, 0x100000004),
   (0x1030, winW 0x8000)] ++ (List.range nfld).map fun f => (0x1048 + 12 * f, 0x1B)

/-- A port of slot 0 with a NEIGH stream of that mesh, and one with a BUCKET stream whose tokens have been read. -/
def neighPort (gen : Nat) : Port := { bytePort with spec := [0x1705, 0, 0, 1, 0, winW 0x1000, 0, 0], gen := gen }
def bucketPort : Port := { bytePort with spec := [0x1606, 0, 0, 0, 0, winW 0x2000, 0, 0], gen := 1, toks := [4, 9] }

/-- StreamTransfers: a LINEAR stream before its first element and one after its last; a NEIGH stream that has not read the generation and one that has; a
BUCKET stream with two tokens to come. -/
theorem witness_StreamTransfers :
    let s := { device runSlot (meshWords 1 0 ++ [(0x2000, 0x10001)]) with
      cores := [(0, { Core.reset with ports := [(0, bytePort), (1, { bytePort with cur := { StreamCur.start with n := 4 } }), (2, neighPort 0), (3, neighPort 1),
        (4, bucketPort)] })]
      meshes := [(pad 0x1000, oneCell)] }
    (∀ p ∈ [0, 1, 2, 3, 4], let x := (s.core 0).port p
      x.st = .opened ∧ x.stop = none ∧ portWaits s x = false ∧ x.acquire = false ∧ x.skip = 0 ∧ x.fifo.length < fetchAhead) ∧
    (frozenUnit s 6 (healthyEngine s (engineOf 0)) = false ∧ ByteStream bytePort.spec 1 ∧ bytePort.cur.n < sCount bytePort.spec ∧
      AgentRead s (portAgent s 0 bytePort) (sSrc bytePort.spec + BitVec.ofNat 64 (0 * 1)).toNat 1 (pad 0) ∧ sCount bytePort.spec ≤ 4) ∧
    (specKind (neighPort 0).spec = 5 ∧ AgentRead s (neighAgent s 0 (neighPort 0)) (sP28 (neighPort 0).spec).toNat 256 (pad 0x1000) ∧
      tabFind s.meshes (pad 0x1000) = some oneCell ∧ (s.slot 0).shtag = 0 ∧ mState (readBytes s.mem (pad 0x1000) 256) = 1 ∧
      serverFrozen s 0 (neighPort 0) = false ∧ s.quarUnits = [] ∧
      (neighPort 1).gen = mGen (readBytes s.mem (pad 0x1000) 256) + 1 ∧ s.poison = [] ∧ 0 < sCount (neighPort 1).spec ∧
      (sP30 (neighPort 1).spec).toNat + 0 < oneCell.leaves.length ∧ ((neighRecords oneCell (neighPort 1).spec 0)[0]?).isSome = true) ∧
    specKind bucketPort.spec = 6 ∧ AgentRead s (kbuAgent s 0) (kTable bucketPort.spec) 128 (pad 0x2000) ∧
      tState (readBytes s.mem (pad 0x2000) 128) ≠ 3 ∧ serverFrozen s 0 bucketPort = false ∧ bucketPort.gen ≠ 0 ∧ bucketPort.toks = [4, 9] ∧ kForm bucketPort.spec = 0 := by
  have hp : Plain { device runSlot (meshWords 1 0 ++ [(0x2000, 0x10001)]) with
      cores := [(0, { Core.reset with ports := [(0, bytePort), (1, { bytePort with cur := { StreamCur.start with n := 4 } }), (2, neighPort 0), (3, neighPort 1),
        (4, bucketPort)] })]
      meshes := [(pad 0x1000, oneCell)] } := ⟨rfl, rfl, rfl, ⟨rfl, rfl⟩, rfl, rfl, rfl, rfl, rfl, fun _ => rfl⟩
  exact ⟨by decide +kernel, ⟨by decide +kernel, ⟨by decide +kernel, by decide +kernel, by decide +kernel⟩, by decide +kernel,
    agent_read (off := 0) hp rfl rfl (by decide) (by decide) (by decide), by decide +kernel⟩,
    ⟨by decide +kernel, agent_read (off := 0x1000) hp rfl rfl (by decide) (by decide) (by decide), rfl, rfl, by decide +kernel, rfl, rfl, by decide +kernel, rfl,
      by decide +kernel, by decide +kernel, by decide +kernel⟩,
    by decide +kernel, agent_read (off := 0x2000) hp rfl rfl (by decide) (by decide) (by decide), by decide +kernel, rfl, by decide, rfl, by decide +kernel⟩

/-- A copy of four bytes within the window, by the engine 0 for slot 0. -/
def oneCopy (kind : CopyKind) (phase : CopyPhase) (hdr : Word) : Copy :=
  { kind := kind, phase := phase, spec := [hdr, winW 0x100, winW 0x200, 4, 0, 0, 0, 0], specAddr := winW 0, home := .slot 0, slot := 0, dest := 1,
    task := none, core := 0, engine := 0, asid := 0, level := .firmware, tag := 0, pc := 0x1000, a := false, r := false, scope := 0, frm := 0, count := 0,
    cur := StreamCur.start, fflags := 0 }

/-- CopyResults: a specification that may stand; a copy with two elements to move up to the end of a unit; a copy that has ended, of each kind, with and without CW. -/
theorem witness_CopyResults :
    (let s := device (withRegs runSlot [(2, winW 0), (6, 1), (7, 0x0100000000000000)]) [(0, 0x101000), (8, winW 0x100), (16, winW 0x200), (24, 4)]
     (s.me.sreg 1).pend = .ready ∧ s.me.Clean [1, 2, 6, 7] ∧ s.me.cnt.copies < 255 ∧ copiesOfCore s (coreOf s.cur) < 128 ∧ (s.me.val 2).toNat % 64 = 0 ∧
       OwnRead s (s.me.val 2).toNat 64 (pad 0) ∧ sCw (wordsAt s (pad 0) 8) = false ∧ specBadField (wordsAt s (pad 0) 8) true = none ∧
       (s.me.val 6 ≠ 0 ∧ (s.me.val 2).toNat + (s.me.val 6).toNat ≤ 2 ^ 56) ∧ s.me.val 1 = 0 ∧ 2 ^ 56 < (s.me.val 7).toNat + (s.me.val 6).toNat) ∧
    (let c : Copy := { oneCopy .cpy .moving 0x101000 with spec := [0x101000, winW 0x100, winW 0x206, 4, 0, 0, 0, 0] }
     let s := { base with copies := [(3, c)] }
     let out := (sDst c.spec + BitVec.ofNat 64 (c.count * 1)).toNat
     tabFind s.copies 3 = some c ∧ frozenUnit s 6 c.engine = false ∧ c.engine < 256 ∧ c.kind ≠ .cpypf ∧ ByteStream c.spec 1 ∧
       dstFmt c.spec = srcFmt c.spec ∧ c.cur.n + 2 ≤ sCount c.spec ∧ (out + 1 * 1) % 8 ≠ 0 ∧ (out + 2 * 1) % 8 = 0 ∧
       AgentRead s c.agent (sSrc c.spec + BitVec.ofNat 64 (c.cur.n * 1)).toNat 2 (pad 0x100) ∧ AgentWrite s c.agent out 2 (pad 0x206) ∧
       pad 0x100 + 2 * 1 ≤ pad 0x206) ∧
    ∀ cw : Bool, let c := oneCopy (if cw then .cpy else .cpypf) (.done 127) (if cw then 0x101010 else 0x101000)
      let s := { base with copies := [(3, c)] }
      tabFind s.copies 3 = some c ∧ c.phase = .done 127 ∧ c.home = .slot 0 ∧ c.task = none ∧ c.r = false ∧ frozenUnit s 6 c.engine = false ∧
        c.engine < 256 ∧ c.count < 2 ^ 48 ∧ sCw c.spec = cw ∧ AgentWrite s c.agent c.specAddr.toNat 8 (pad 0) := by
  have hp : ∀ l, Plain { base with copies := l } := fun _ => ⟨rfl, rfl, rfl, ⟨rfl, rfl⟩, rfl, rfl, rfl, rfl, rfl, fun _ => rfl⟩
  refine ⟨⟨by decide +kernel, ?_, by decide +kernel, by decide +kernel, by decide +kernel,
    own_read (off := 0) (plain_device _ _ rfl) (by decide) (by decide) (by decide), by decide +kernel, by decide +kernel, by decide +kernel, by decide +kernel,
    by decide +kernel⟩,
    ⟨rfl, by decide +kernel, by decide, by decide, ⟨by decide +kernel, by decide +kernel, by decide +kernel⟩, by decide +kernel, by decide +kernel,
      by decide +kernel, by decide +kernel, agent_read (off := 0x100) (hp _) rfl rfl (by decide) (by decide) (by decide),
      agent_write (off := 0x206) (hp _) rfl rfl (by decide) (by decide) (by decide), by decide⟩,
    ?_⟩
  · unfold Slot.Clean
    decide +kernel
  · intro cw
    cases cw <;>
    exact ⟨rfl, rfl, rfl, rfl, rfl, by decide +kernel, by decide +kernel, by decide +kernel, by decide +kernel,
      agent_write (off := 0) (hp _) (by decide) rfl (by decide) (by decide) (by decide)⟩

/-- The descriptor of a command at the start of the window: its object at 0x1000, and its third word. -/
def cmdWords (w2 : Word) : List (Nat × Word) := [(0, winW 0x1000), (16, w2)]

/-- An exchange header at 0x2000 of the window, with so many cells. -/
def headerWords (cells : Nat) : List (Nat × Word) := [(0x2000, 0x20001), (0x2008, 0x100000004), (0x2010, BitVec.ofNat 64 cells)]

/-- CommandIssue: MIMPORT of a mesh that fits its descriptor exactly and of one that does not, a reserved word that is not zero, and KPROJ. -/
theorem witness_CommandIssue :
    (∀ cells ∈ [4, 5],
      let s := device (withRegs runSlot [(2, winW 0)]) (cmdWords (winW 0x2000) ++ meshWords 0 1 ++ headerWords cells)
      let obj := readBytes s.mem (pad 0x1000) (objectBytes 0)
      let hdr := readBytes s.mem (pad 0x2000) 64
      (s.me.sreg 1).pend = .ready ∧ (s.me.sreg 2).pend = .ready ∧ (s.me.sreg 2).poison = none ∧ (s.me.val 2).toNat % 64 = 0 ∧
        OwnRead s (s.me.val 2).toNat 64 (pad 0) ∧ OwnRead s (wordAt (wordsAt s (pad 0) 8) 0).toNat (objectBytes 0) (pad 0x1000) ∧
        OwnRead s (wordAt (wordsAt s (pad 0) 8) 2).toNat 64 (pad 0x2000) ∧ issueBreach 0 (wordsAt s (pad 0) 8) obj hdr = none ∧
        (mCcap obj < fld hdr 0x10 4 ↔ cells = 5) ∧ s.me.cnt.copies < 255) ∧
    (let s := device (withRegs runSlot [(2, winW 0)]) (cmdWords 0 ++ meshWords 1 0 ++ [(0x38, 1)])
     issueBreach 5 (wordsAt s (pad 0) 8) (readBytes s.mem (pad 0x1000) (objectBytes 5)) [] = some 0x30) ∧
    issueBreach 0x20 (wordsAt (device runSlot (cmdWords 0x8000000000000000)) (pad 0) 8) [] [] = none := by
  refine ⟨?_, by decide +kernel, by decide +kernel⟩
  intro cells hc
  refine ⟨by rfl, by rfl, by rfl, ?_, own_read (off := 0) (plain_device _ _ rfl) (by decide) (by decide) (by decide), ?_, ?_, ?_, ?_, ?_⟩
  · revert cells
    decide +kernel
  · have h : (wordAt (wordsAt (device (withRegs runSlot [(2, winW 0)]) (cmdWords (winW 0x2000) ++ meshWords 0 1 ++ headerWords cells)) (pad 0) 8) 0).toNat =
        win 0x1000 := by revert cells; decide +kernel
    rw [h]
    exact own_read (plain_device _ _ rfl) (by decide) (by decide) (by decide)
  · have h : (wordAt (wordsAt (device (withRegs runSlot [(2, winW 0)]) (cmdWords (winW 0x2000) ++ meshWords 0 1 ++ headerWords cells)) (pad 0) 8) 2).toNat =
        win 0x2000 := by revert cells; decide +kernel
    rw [h]
    exact own_read (plain_device _ _ rfl) (by decide) (by decide) (by decide)
  all_goals
    revert cells
    decide +kernel

/-- A command of slot 0 whose descriptor stands at the start of the window. -/
def oneCmd (kind : CmdKind) (desc : List Word) : Cmd :=
  { kind := kind, descAddr := winW 0, desc := desc, home := .slot 0, slot := 0, dest := 1, task := none, die := 0, cluster := 0, asid := 0,
    level := .firmware, tag := 0, pc := 0x1000, a := false, r := false, scope := 0, running := false, claim := none, gen := 0, engine := 0, ended := none }

/-- The device with that command, and pages for ASID 0 as withFetchWord places them: the first 64 GiB, one page. -/
def commanded (c : Cmd) (ws : List (Nat × Word)) : State := { device runSlot ws with cmds := [(3, c)] }

theorem command_ready (c : Cmd) (ws : List (Nat × Word)) (h : c.a = false ∧ c.r = false ∧ c.task = none ∧ c.claim = none ∧ c.running = false ∧ c.ended = none)
    (h1 : c.home = .slot 0) (h2 : c.engine = 0) (h3 : frozenUnit (commanded c ws) (cmdClass c.kind) 0 = false) : CommandReady (commanded c ws) 3 0 c :=
  { held := ⟨rfl, rfl⟩, plain := ⟨h.1, h.2.1, h.2.2.1, h.2.2.2.1, h.2.2.2.2.1⟩, home := h1, first := rfl, thawed := by rw [h2]; exact h3,
    small := by rw [h2]; decide, ended := h.2.2.2.2.2 }

/-- The tables that map the first 64 GiB to themselves. -/
def mapped : State := State.reset.withFetchWord 32 0

/-- CommandCompletion: KPROJ that empties and that loads a slot, a command of a quarantined unit, and PGMIG of a page that may move and of none. -/
theorem witness_CommandCompletion :
    (let c := oneCmd (.unit 0x20) []
     let s := commanded c (cmdWords 0x8000000000000000)
     CommandReady s 3 0 c ∧ (7, c.engine) ∉ s.quarUnits ∧ AgentRead s c.agent c.descAddr.toNat 64 (pad 0) ∧
       leastBreach (cmdChecks 0x20 (wordsAt s (pad 0) 8)) = none ∧ s.proj = [] ∧ (wordAt (wordsAt s (pad 0) 8) 2).getLsbD 63 = true) ∧
    (let c := oneCmd (.unit 0x20) []
     let s := commanded c (cmdWords 0x1804001000)
     let w := wordAt (wordsAt s (pad 0) 8) 2
     leastBreach (cmdChecks 0x20 (wordsAt s (pad 0) 8)) = none ∧ w.getLsbD 63 = false ∧ wbits w 28 24 * wbits w 20 8 / 8 = 8 ∧
       AgentRead s c.agent (win 0x1000) 8 (pad 0x1000)) ∧
    (let c := oneCmd (.unit 5) []
     let s := { commanded c [] with quarUnits := [(cmdClass (.unit 5), 0)] }
     tabFind s.cmds 3 = some c ∧ frozenUnit s (cmdClass c.kind) c.engine = false ∧ (cmdClass (.unit 5), c.engine) ∈ s.quarUnits) ∧
    (∃ u, beginMigration { mapped with mem := writeLE mapped.mem placeTable 8 (2 + 4 + 0x1E0 + 0x400), nextOp := 4 } 0 0x1000 0x1000000000 3 false = .ok u) ∧
    ∃ st, beginMigration base 0 0x1000 0x1000000000 3 false = .error st := by
  refine ⟨⟨command_ready _ _ ⟨rfl, rfl, rfl, rfl, rfl, rfl⟩ rfl rfl (by decide +kernel), by decide,
    agent_read (off := 0) ⟨rfl, rfl, rfl, ⟨rfl, rfl⟩, rfl, rfl, rfl, rfl, rfl, fun _ => rfl⟩ rfl rfl (by decide) (by decide) (by decide), by decide +kernel, rfl, by decide +kernel⟩,
    ⟨by decide +kernel, by decide +kernel, by decide +kernel,
    agent_read (off := 0x1000) ⟨rfl, rfl, rfl, ⟨rfl, rfl⟩, rfl, rfl, rfl, rfl, rfl, fun _ => rfl⟩ rfl rfl (by decide) (by decide) (by decide)⟩, by decide +kernel,
    exists_ok (by decide +kernel), ?_⟩
  cases h : beginMigration base 0 0x1000 0x1000000000 3 false with
  | error m => exact ⟨m, rfl⟩
  | ok a =>
    have : (beginMigration base 0 0x1000 0x1000000000 3 false).toOption.isSome = false := by decide +kernel
    rw [h] at this
    cases this

/-- A computation that gives a result with a property. -/
theorem ok_with {ε α : Type} {p : α → Bool} {e : Except ε α} (h : (match e with | .ok a => p a | .error _ => false) = true) : ∃ a, e = .ok a ∧ p a = true := by
  cases e with
  | error m => cases h
  | ok a => exact ⟨a, rfl, h⟩

theorem Calm.onTheWay {s t : State} (h : Calm s) (ht : OnTheWay s t) : Calm t := by
  rw [OnTheWay] at ht
  rw [ht]
  exact ⟨h.spbase, h.poison, h.cxl, h.notify, h.sent⟩

theorem steady_read {s : State} (h : Calm s) {ag : Agent} (hc : ag.cluster = 0) (ht : ag.tag = 0) {off n : Nat} (hn : 0 < n)
    (hi : win off % 4096 + n ≤ 4096) (ho : off < 2 ^ 26) : SteadyRead s ag (win off) n (pad off) := fun _ hw =>
  calm_read (h.onTheWay hw) hc (.inl ht) hn hi ho

theorem steady_write {s : State} (h : Calm s) {ag : Agent} (hc : ag.cluster = 0) (ht : ag.tag = 0) {off n : Nat}
    (hi : win off % 4096 + n ≤ 4096) (ho : off + n ≤ 2 ^ 26) : SteadyWrite s ag (win off) n (pad off) := by
  intro t hw i hn
  have ha : win off + i = win (off + i) := by simp only [win]; omega
  have hk : pad off + i = pad (off + i) := by simp only [pad]; omega
  rw [ha, hk]
  refine calm_write (h.onTheWay hw) hc ht (by omega) ?_ (by omega)
  rw [← ha]
  omega

/-- The device with a command that is to begin, and with one that has claimed the object at an offset of the window; and a mesh under the descriptor there. -/
def served (op off : Nat) (ws : List (Nat × Word)) : State := { commanded (oneCmd (.unit op) []) ws with meshes := [(pad off, oneCell)] }
def claimedCmd (op off former : Nat) : Cmd := { oneCmd (.unit op) [] with running := true, claim := some (pad off, former) }
def claimed (op off former moff : Nat) (ws : List (Nat × Word)) : State := { commanded (claimedCmd op off former) ws with meshes := [(pad moff, oneCell)] }

theorem served_ready (op off : Nat) (ws : List (Nat × Word)) (hf : frozenUnit (commanded (oneCmd (.unit op) []) ws) (cmdClass (.unit op)) 0 = false) :
    CommandServed (served op off ws) 3 0 (oneCmd (.unit op) []) op :=
  ⟨{ command_ready (oneCmd (.unit op) []) ws ⟨rfl, rfl, rfl, rfl, rfl, rfl⟩ rfl rfl hf with }, rfl, by simp [served, commanded, device, State.reset]⟩

theorem claimed_ready (op off former moff : Nat) (ws : List (Nat × Word))
    (hf : frozenUnit (claimed op off former moff ws) (cmdClass (.unit op)) 0 = false) (hb : readByte (claimed op off former moff ws).mem (pad off + 2) = 2) :
    CommandClaimed (claimed op off former moff ws) 3 0 (claimedCmd op off former) op (pad off) former :=
  { held := ⟨rfl, rfl⟩, plain := ⟨rfl, rfl, rfl, rfl, rfl⟩, claim := rfl, home := rfl, serves := ⟨by simp [claimed, commanded, device, State.reset], hf⟩,
    small := Nat.zero_lt_succ 255, busy := hb }

/-- A partition at 0x1000 of the window, of one part, of the mesh whose descriptor stands at 0x4000. -/
def partWords (state : Nat) : List (Nat × Word) :=
  [(0x1000, BitVec.ofNat 64 (1 + state * 2 ^ 16 + 2 ^ 24)), (0x1008, winW 0x4000), (0x1010, winW 0x6000), (0x1018, 128), (0x1020, 1)] ++
    (meshWords 1 0).map fun x => (x.1 + 0x3000, x.2)

/-- UnitCommandResults: each command that is to begin, its reads done and its target writable. -/
theorem witness_UnitCommandResults_begin :
    (∀ x ∈ [((0, 0, cmdWords (winW 0x2000)) : Nat × Nat × List (Nat × Word)), (2, 1, cmdWords 0), (3, 1, cmdWords 0), (4, 1, cmdWords 0), (5, 1, cmdWords (winW 0x3000)),
        (1, 1, cmdWords (winW 0x3000) ++ [(24, 4096)]), (1, 1, cmdWords (winW 0x3000)), (0x10, 1, cmdWords (BitVec.ofNat 64 (1 + 2 ^ 32 + 64 * 2 ^ 40)) ++ [(40, winW 0x3000)])],
      let s := served x.1 0x1000 (x.2.2 ++ meshWords x.2.1 0 ++ [(0x1020, BitVec.ofNat 64 x.2.1)] ++ headerWords 4)
      CommandServed s 3 0 (oneCmd (.unit x.1) []) x.1 ∧ AgentWrite s (oneCmd (.unit x.1) []).agent (win 0x1000) 256 (pad 0x1000) ∧
      AgentWrite s (oneCmd (.unit x.1) []).agent (win 0x3000) 128 (pad 0x3000) ∧
      ∃ r, meshRead s (oneCmd (.unit x.1) []) = .ok r ∧ (r.2 == s && r.1.va == win 0x1000 && r.1.key == pad 0x1000 && mState r.1.obj == x.2.1 &&
        r.1.mesh == some oneCell && remapQueueOk s (oneCmd (.unit x.1) []) r.1.obj && !rangeHoldsPoison s (oneCmd (.unit x.1) []).agent (mStore r.1.obj) (mStoreLen r.1.obj) &&
        decide (wbits (wordAt r.1.d 2) 30 0 + wbits (wordAt r.1.d 3) 31 0 ≤ mNcell r.1.obj ∨ x.1 ≠ 0x10)) = true) ∧
    oneCell.pending = [] ∧ (exportImage oneCell).length ≤ 4096 ∧ 0 < (exportImage oneCell).length ∧
    (let s := { served 0x11 0x4000 (cmdWords 0 ++ [(24, winW 0x7000)] ++ partWords 0) with parts := [] }
     CommandServed s 3 0 (oneCmd (.unit 0x11) []) 0x11 ∧ AgentWrite s (oneCmd (.unit 0x11) []).agent (win 0x1000) 512 (pad 0x1000) ∧ trimBusy s 3 = false ∧
       ∃ r, partRead s (oneCmd (.unit 0x11) []) = .ok r ∧ (r.2 == s && r.1.va == win 0x1000 && r.1.key == pad 0x1000 && fld r.1.obj 2 1 == 0) = true) ∧
    (∀ x ∈ [((0x21, []) : Nat × List (Nat × Word)), (0x22, [(16, winW 0x3000)]), (0x22, [(16, winW 0x3000), (24, 1)])],
      let s := served x.1 0x1000 ([(0, winW 0x2000)] ++ x.2 ++ tableWords)
      CommandServed s 3 0 (oneCmd (.unit x.1) []) x.1 ∧ AgentWrite s (oneCmd (.unit x.1) []).agent (win 0x2000) 128 (pad 0x2000) ∧
      AgentWrite s (oneCmd (.unit x.1) []).agent (win 0x3000) 64 (pad 0x3000) ∧ AgentRead s (oneCmd (.unit x.1) []).agent (win 0xA000) (16 * 17) (pad 0xA000) ∧
      (∀ i ≤ 16, readLE s.mem (pad 0xA000 + 16 * i) 8 = 0) ∧
      ∃ r, runDescs s (oneCmd (.unit x.1) []) = .ok r ∧ (r.2.2.2 == s && r.2.2.1 == pad 0x2000 && tState r.2.1 == 1 && tNhead r.2.1 == 1 && tBuck r.2.1 == win 0xA000) = true) := by
  have calm : ∀ op off ws, Calm (served op off ws) := fun _ _ _ => ⟨rfl, rfl, rfl, rfl, rfl⟩
  refine ⟨fun x hx => ⟨served_ready _ _ _ (by revert x; decide +kernel), calm_write (calm _ _ _) rfl rfl (by decide) (by decide) (by decide),
      calm_write (calm _ _ _) rfl rfl (by decide) (by decide) (by decide), ok_with (by revert x; decide +kernel)⟩, rfl, by decide +kernel, by decide +kernel,
    ⟨served_ready _ _ _ (by decide +kernel), calm_write (calm _ _ _) rfl rfl (by decide) (by decide) (by decide), rfl, ok_with (by decide +kernel)⟩,
    fun x hx => ⟨served_ready _ _ _ (by revert x; decide +kernel), calm_write (calm _ _ _) rfl rfl (by decide) (by decide) (by decide),
      calm_write (calm _ _ _) rfl rfl (by decide) (by decide) (by decide), calm_read (calm _ _ _) rfl (.inl rfl) (by decide) (by decide) (by decide),
      by revert x; decide +kernel, ok_with (by revert x; decide +kernel)⟩⟩

/-- UnitCommandResults: a renumbering to commit, a refinement with nothing to commit, a MTRIM and a KRESET that have claimed their objects; and a copy of the trim unit. -/
theorem witness_UnitCommandResults_end :
    (let c := claimedCmd 4 0x1000 1
     let s := claimed 4 0x1000 1 0x1000 (cmdWords 0 ++ meshWords 2 0 ++ [(32, winW 0x3000)])
     CommandClaimed s 3 0 c 4 (pad 0x1000) 1 ∧ SteadyWrite s c.agent (win 0x1000) 256 (pad 0x1000) ∧ SteadyWrite s c.agent (win 0x8000 + 0x400) 8 (pad 0x8400) ∧
       SteadyWrite s c.agent (win 0x10000) 4096 (pad 0x10000) ∧ RangesApart [(pad 0x1000, 256), (pad 0x8400, 8), (pad 0x10000, 4096)] ∧
       ∃ r, meshRead s c = .ok r ∧ (r.2 == s && r.1.va == win 0x1000 && r.1.key == pad 0x1000 && mRmap r.1.obj == win 0x8000 && mStore r.1.obj == win 0x10000 &&
         (128 * mCcap r.1.obj + 32 * mFcap r.1.obj + 4095) / 4096 * 4096 == 4096 &&
         match meshBuild s c r.1 with
         | .ok (.mesh _ list _ _, t) => t == s && list.length == 1 && !(commitRanges c r.1 list).any (fun x => migratingAt s c.agent x.1 x.2) &&
           probe s c.agent .write (commitRanges c r.1 list) == []
         | _ => false) = true) ∧
    (let c := claimedCmd 2 0x1000 1
     let s := claimed 2 0x1000 1 0x1000 (cmdWords (winW 0x3000) ++ meshWords 2 0)
     CommandClaimed s 3 0 c 2 (pad 0x1000) 1 ∧ ∃ r, meshRead s c = .ok r ∧ (r.2 == s && r.1.key == pad 0x1000 &&
         match meshBuild s c r.1 with
         | .ok (.nothing _ _, t) => t == s
         | _ => false) = true) ∧
    (∀ former ∈ [0, 1], let c := claimedCmd 0x11 0x1000 former
     let s := claimed 0x11 0x1000 former 0x4000 (cmdWords 0 ++ [(24, winW 0x7000)] ++ partWords 2)
     CommandClaimed s 3 0 c 0x11 (pad 0x1000) former ∧ SteadyWrite s c.agent (win 0x1000) 512 (pad 0x1000) ∧ AgentRead s c.agent (win 0x7000) 4 (pad 0x7000) ∧
       trimBusy s 3 = false ∧ partMigrates s c = false ∧ oneCell.leaves.length = 1 ∧
       ∃ r, partRead s c = .ok r ∧ (r.2 == s && r.1.va == win 0x1000 && r.1.key == pad 0x1000 && mGen r.1.mobj == c.gen && layoutOk r.1 &&
         pGen r.1.obj == c.gen && (wordAt r.1.d 3).toNat == win 0x7000) = true) ∧
    (let c := claimedCmd 0x21 0x2000 1
     let s := claimed 0x21 0x2000 1 0x1000 ([(0, winW 0x2000)] ++ tableWords ++ [(0x2000, BitVec.ofNat 64 (1 + 2 * 2 ^ 16 + 4 * 2 ^ 24 + 2 ^ 32 + 0x18 * 2 ^ 56))])
     CommandClaimed s 3 0 c 0x21 (pad 0x2000) 1 ∧ SteadyWrite s c.agent (win 0x2000) 128 (pad 0x2000) ∧ SteadyWrite s c.agent (win 0xA000) (16 * 17) (pad 0xA000) ∧
       SteadyWrite s c.agent (win 0xB000) 8 (pad 0xB000) ∧ SteadyWrite s c.agent (win 0x9000) 64 (pad 0x9000) ∧ SteadyWrite s c.agent (win 0xC000) 8 (pad 0xC000) ∧
       RangesApart [(pad 0x2000, 128), (pad 0xA000, 16 * 17), (pad 0xB000, 8), (pad 0x9000, 64), (pad 0xC000, 8)] ∧
       ∃ r, runDescs s c = .ok r ∧ (r.2.2.2 == s && r.2.2.1 == pad 0x2000 && (wordAt r.1 0).toNat == win 0x2000 && tBuck r.2.1 == win 0xA000 && tPres r.2.1 == win 0xB000 &&
         tPool r.2.1 == win 0x9000 && tTguard r.2.1 == win 0xC000 && tNblk r.2.1 == 1 && 16 * tNhead r.2.1 * (2 ^ tB r.2.1 + 1) == 16 * 17 &&
         tNhead r.2.1 * tTcap r.2.1 / 8 == 8) = true) ∧
    (let c := claimedCmd 0x12 0x1000 1
     let s := claimed 0x12 0x1000 1 0x4000 []
     s.poison = [] ∧ c.live s = true ∧ SteadyRead s c.agent (win 0x100) 64 (pad 0x100) ∧ SteadyWrite s c.agent (win 0x200) 64 (pad 0x200) ∧
       pad 0x100 + 64 ≤ pad 0x200) := by
  have calm : ∀ op off former moff ws, Calm (claimed op off former moff ws) := fun _ _ _ _ _ => ⟨rfl, rfl, rfl, rfl, rfl⟩
  have w : ∀ op off former moff ws o n, win o % 4096 + n ≤ 4096 → o + n ≤ 2 ^ 26 →
      SteadyWrite (claimed op off former moff ws) (claimedCmd op off former).agent (win o) n (pad o) := fun _ _ _ _ _ _ _ hi ho => steady_write (calm _ _ _ _ _) rfl rfl hi ho
  refine ⟨⟨claimed_ready _ _ _ _ _ (by decide +kernel) (by decide +kernel), w _ _ _ _ _ _ _ (by decide) (by decide), w _ _ _ _ _ 0x8400 _ (by decide) (by decide),
      w _ _ _ _ _ _ _ (by decide) (by decide), by unfold RangesApart; decide, ok_with (by decide +kernel)⟩,
    ⟨claimed_ready _ _ _ _ _ (by decide +kernel) (by decide +kernel), ok_with (by decide +kernel)⟩,
    fun f hf => ⟨claimed_ready _ _ _ _ _ (by revert f; decide +kernel) (by revert f; decide +kernel), w _ _ _ _ _ _ _ (by decide) (by decide),
      calm_read (calm _ _ _ _ _) rfl (.inl rfl) (by decide) (by decide) (by decide), rfl, by revert f; decide +kernel, by decide +kernel, ok_with (by revert f; decide +kernel)⟩,
    ⟨claimed_ready _ _ _ _ _ (by decide +kernel) (by decide +kernel), w _ _ _ _ _ _ _ (by decide) (by decide), w _ _ _ _ _ _ _ (by decide) (by decide),
      w _ _ _ _ _ _ _ (by decide) (by decide), w _ _ _ _ _ _ _ (by decide) (by decide), w _ _ _ _ _ _ _ (by decide) (by decide), by unfold RangesApart; decide,
      ok_with (by decide +kernel)⟩,
    rfl, by decide +kernel, steady_read (calm _ _ _ _ _) rfl rfl (by decide) (by decide) (by decide), w _ _ _ _ _ _ _ (by decide) (by decide), by decide⟩

/-- A queue descriptor at 0x3000 of the window: ring at 0x4000, spill area at 0x5000, sixteen entries each. -/
def queueWords (dev : Bool) (tail stail : Nat) : List (Nat × Word) :=
  [(0x3000, winW 0x4000), (0x3008, BitVec.ofNat 64 (16 + 2 ^ 40 + 2 ^ 56 + dev.toNat * 2 ^ 57)), (0x3018, BitVec.ofNat 64 tail), (0x3020, winW 0x5000),
   (0x3028, 16), (0x3038, BitVec.ofNat 64 stail), (0x3040, winW 0x6000), (0x3048, 0x500000001), (0x3058, 16)]

/-- The device with that queue as number 0. -/
def queued (x : Slot) (ws : List (Nat × Word)) (dev : Bool) (tail stail : Nat) : State :=
  let s := device x (ws ++ queueWords dev tail stail)
  { s with qtab := 0x200000, mem := writeLE s.mem 0x200000 8 (2 ^ 63 + win 0x3000) }

/-- A claimed link of a token of bucket 2 of that table, with its row at 0xD000. -/
def oneLink : KLink :=
  { table := winW 0x2000, agent := ⟨0, 0, .firmware, 0, 0, none⟩, key := pad 0x2000, head := 0, token := 5, bucket := 2, slot := 0, dest := 1, ord := 0, row := win 0xD000,
    bytes := List.replicate 16 7, poison := List.replicate 16 none,
    pages := [⟨topologySlice 0, win 0xD000, 4096, pad 0xD000, none⟩], waiting := false, bits := 3, published := false }

/-- UnitProgress: a refinement that has one of two fields to push, a link of an empty bucket and one that is published, and a walk with one record of a
task. -/
theorem witness_UnitProgress :
    (let c := oneCmd (.unit 2) []
     let s := { queued runSlot (cmdWords 0 ++ meshWords 1 2) true 0 0 with cmds := [(3, c)], remaps := [(3, ⟨pad 0x1000, 0, 0, 1⟩)], meshes := [(pad 0x1000, oneCell)] }
     tabFind s.remaps 3 = some ⟨pad 0x1000, 0, 0, 1⟩ ∧ tabFind s.cmds 3 = some c ∧
       (match runDescs s c with
        | .error _ => false
        | .ok (d, obj, _, u) => match cmdWrite u c (mRmap obj) (bytesOfWords (remapDesc (wordAt d 0).toNat obj 0)) with
          | .error _ => false
          | .ok v => match readDesc v (mQueue obj) with
            | .error _ => false
            | .ok dq => decide (0 + 1 < mNfld obj) && decide ((pushWith v (mQueue obj) dq (bytesOfWords (remapRecord obj 0))).1 < 2)) = true) ∧
    (let k := oneLink
     let s := { device runSlot tableWords with klinks := [(3, k)] }
     tabFind s.klinks 3 = some k ∧ k.published = false ∧ ({ k with published := true } : KLink).published = true ∧ oldestLink s 3 k = true ∧ k.bytes ≠ [] ∧
       (match tabRead s k.agent k.table.toNat 128 with
        | .error _ => false
        | .ok (b, u) => match linkChecked u k b with
          | .error _ => false
          | .ok (plan, next, bits, v) => tState b == 1 && !plan.full b && !linkMigrates s k b plan && (readHolds s k.agent (tTguard b) 8).isEmpty && decide (tScope b < 5) && (tabFind (writeRow v k).klinks 3).isSome &&
            (publishLink (insertLink (writeRow v k) k b plan next bits) k b).1) = true) ∧
    (let w : Walker := ⟨winW 0, 0, .firmware, 0, 0, 9, none, winW 0x100, false, none⟩
     let x : Task := ⟨0, 5, [], 0, .active 0 1, 0, 0, 0, 1, 0⟩
     let s := { device runSlot [(0, 1), (8, 0x2000), (0x30, BitVec.ofNat 64 (5 * 2 ^ 32)), (0x38, 0)] with walkers := [(3, w)], tasks := [x] }
     let ag : Agent := { slice := noSlice, asid := 0, level := .firmware, tag := 0, cluster := 0 }
     tabFind s.walkers 3 = some w ∧ w.fills = false ∧ w.next.toNat % 4096 + 64 ≤ 4096 ∧ (∃ h, checkAddr s ag w.next.toNat .read = .ok h ∧ h.key = pad 0 ∧ h.poison = none) ∧
       (∃ h, checkAddr s ag w.next.toNat .update = .ok h) ∧ rangePoison s (pad 0) 64 = none ∧
       (Machine.linkOk (wordAt (wordsAt s (pad 0) 8) 6) (wordAt (wordsAt s (pad 0) 8) 7) = true) ∧ (wordAt (wordsAt s (pad 0) 8) 6).getLsbD 12 = false ∧
       (s.tasks.find? fun t => t.queue == 0 && t.pos % 2 ^ 32 == wbits (wordAt (wordsAt s (pad 0) 8) 6) 63 32) = some x ∧
       x.tag = BitVec.ofNat 10 (wordAt (wordsAt s (pad 0) 8) 6).toNat ∧ poolCount s x.die < 4096) := by
  refine ⟨by decide +kernel, by decide +kernel, rfl, rfl, by decide, ⟨_, window_check (off := 0) rfl rfl rfl (by decide), rfl, rfl⟩,
    ⟨_, window_check (off := 0) rfl rfl rfl (by decide)⟩, window_clean rfl rfl 0 64, by decide +kernel, by decide +kernel,
    by decide +kernel⟩

/-- A migration of a 4 KiB page whose leaf stands at the first entry of the placed table, from 0x10000 to 0x20000. -/
def oneMigration : Migration := ⟨0, 0x1000, 0x20000, placeTable, 0x10DE6, 0x10DEE, 0, 7, false⟩

/-- PageInstructions: each level, TLBINV of one page and of a reserved bit, PROBE within the window, past the last address, of no translation, of a
malformed leaf and of a page, PGMIG with each of its reserved fields set and with none. -/
theorem witness_PageInstructions :
    (device { runSlot with level := .user } []).me.level = .user ∧ base.me.level ≠ .user ∧
    (let s := device (withRegs runSlot [(2, winW 0), (6, 0x4000), (7, 0x0100000000000000), (8, 0x1000)]) []
     (∀ r ∈ [1, 2, 6, 7, 8], (s.me.sreg r).pend = .ready ∧ (s.me.sreg r).poison = none) ∧ wbits (s.me.val 1) 63 14 = 0 ∧ wbits (s.me.val 6) 63 14 ≠ 0 ∧
       accessPending s s.cur = false ∧ invalidationWaits s (fun _ => true) = false ∧
       inWindow s (clusterOf s.cur) (s.me.val 2).toNat = true ∧ inWindow s (clusterOf s.cur) (s.me.val 7).toNat = false ∧ 2 ^ 56 ≤ (s.me.val 7).toNat ∧
       inWindow s (clusterOf s.cur) (s.me.val 8).toNat = false ∧ walk s s.me.asid (s.me.val 8).toNat = .unmapped false) ∧
    walk { mapped with mem := writeLE mapped.mem placeTable 8 3 } 0 0x1000 = .unmapped true ∧ walk mapped 0 0x1000 = .leaf 1 placeTable 0xDE6 ∧
    ∀ w ∈ [((0x1000, 0) : Nat × Nat), (0, 1), (0, 0)],
      let s := device (withRegs runSlot [(2, winW 0)]) [(0, 0x1000), (8, BitVec.ofNat 64 w.1), (24, BitVec.ofNat 64 w.2)]
      OwnRead s (win 0) 32 (pad 0) ∧ s.me.cnt.copies < 255 := by
  refine ⟨rfl, by decide, by decide +kernel, by decide +kernel, by decide +kernel, ?_⟩
  intro w _
  exact ⟨own_read (plain_device _ _ rfl) (by decide) (by decide) (by decide), Nat.zero_lt_succ 254⟩

/-- PageEvents: a walk of a mapped page for a write, a migration of a 4 KiB page, a physical address of HBM. -/
theorem witness_PageEvents :
    (let ag : Agent := { slice := 0, asid := 0, level := .firmware, tag := 0, cluster := 0 }
     0 < noSlice ∧ ((sliceUsers mapped 0).find? fun u => u.asid == 0) = some ag ∧ inWindow mapped 0 0x1000 = false ∧ tlbFind mapped 0 0 0x1000 = none ∧
       walk mapped 0 0x1000 = .leaf 1 placeTable 0xDE6 ∧ (tlbForAsid mapped 0 0).isSome = true ∧
       ∃ h, checkLeaf mapped ag 0x1000 .write (sizeCode 1) 0xDE6 = .ok h) ∧
    (let s := { mapped with mem := writeLE mapped.mem placeTable 8 0x10DEE, migrations := [(3, oneMigration)] }
     Memory.wf s.mem ∧ tabFind s.migrations 3 = some oneMigration ∧ frameBusy s oneMigration = false ∧ oneMigration.prefetch = false ∧
       oneMigration.dest % 4096 = 0 ∧ oneMigration.dest < 2 ^ 52 ∧ deadTag s (keyOfPa s oneMigration.dest) = none ∧
       poisonUnheld s (keyOfPa s (leafPa oneMigration.leaf0)) (keyOfPa s oneMigration.dest) (pageBytes oneMigration.size) = none ∧ tabFind s.cmds oneMigration.owner = none ∧
       readWord s.mem oneMigration.leafAt = oneMigration.leaf1 ∧ isHbm (keyOfPa s (leafPa oneMigration.leaf0)) = true ∧
       isHbm (keyOfPa s oneMigration.dest) = true ∧ oneMigration.leafAt + 8 ≤ keyOfPa s (leafPa oneMigration.leaf0) ∧
       keyOfPa s (leafPa oneMigration.leaf0) + pageBytes oneMigration.size ≤ keyOfPa s oneMigration.dest ∧
       oneMigration.leafAt + 8 ≤ keyOfPa s oneMigration.dest) ∧
    isHbm (keyOfPa State.reset 0x12345) = true := by
  refine ⟨⟨by decide, by decide +kernel, by decide +kernel, by decide +kernel, by decide +kernel, by decide +kernel, exists_ok (by decide +kernel)⟩, by decide +kernel,
    by decide +kernel⟩

/-- A launch record of one level of four leaf groups, at the start of the window, and the same words as a list. -/
def kernelWords (prio : Nat) : List (Nat × Word) :=
  [(0, BitVec.ofNat 64 (0x10001 + prio * 2 ^ 24)), (8, 0x2000), (0x20, winW 0x8000), (0x28, 4), (0x38, 16), (0x40, 5), (0x80, 0x100000004)]
def kernelList : List Word := wordsAt (device runSlot (kernelWords 0)) (pad 0) 32

/-- A kernel of it with one leaf group that runs. -/
def oneKernel (st : KernelState) (leaf : LeafState) : Kernel :=
  { recAddr := winW 0, words := kernelList, st := st, cursor := 1, parent := none, orphaned := false, depth := 1, cores := (0, 1024), asid := 0, tag := 0,
    leaves := [⟨0, 0, leaf, [0], false, []⟩], bindings := [(0, 0, 0)] }

/-- A slot of that leaf group. -/
def leafSlot : Slot := { runSlot with ctx := { Ctx.none with work := .leaf 3 0, csa := some 0 } }

/-- A child of VFORK in slot 1, ended or not. -/
def oneChild (ended : Bool) (base : Nat := 4) : Child := ⟨1, ended, false, 1, base, 4, 1, 64, 0, 16384, 8192, 8192⟩

/-- GroupInstructions, KLAUNCH: a record that may stand, one that may not, one above the launcher's priority, a refusal, and an identifier free. -/
theorem witness_GroupInstructions_launch :
    (∀ prio ∈ [0, 1],
      let s := device (withRegs runSlot [(2, winW 0)]) (kernelWords prio)
      (s.me.sreg 1).pend = .ready ∧ (s.me.sreg 2).pend = .ready ∧ (s.me.sreg 2).poison = none ∧ (s.me.val 2).toNat % 64 = 0 ∧
        OwnRead s (s.me.val 2).toNat 256 (pad 0) ∧ accessPending s s.cur = false ∧ kernelBadField (wordsAt s (pad 0) 32) = none ∧
        (s.me.prio.toNat < kPrio (wordsAt s (pad 0) 32) ↔ prio = 1) ∧ launchRefusal s (wordsAt s (pad 0) 32) s.me.own.work = none ∧
        freeKernelId s = some 0) ∧
    kernelBadField [] = some 0 ∧
    launchRefusal { base with kernels := [(3, { oneKernel .running .running with depth := 8 })] } (kernelList.set 16 4) (.leaf 3 0) = some (-2) := by
  refine ⟨?_, by decide +kernel, by decide +kernel⟩
  intro prio hp
  refine ⟨by rfl, by rfl, by rfl, ?_, own_read (off := 0) (plain_device _ _ rfl) (by decide) (by decide) (by decide), ?_, ?_, ?_, ?_, ?_⟩ <;>
  revert prio <;> decide +kernel

/-- GroupInstructions, VFORK and VJOIN: an issuer with one lane group, one that is no leaf group, one with and one without a free CSA, with and without a
free slot; a child that has ended and one that has not, and no child; a child's own join, drained and not. -/
theorem witness_GroupInstructions_fork :
    (base.me.st = .run ∧ base.me.mode = .context ∧ base.me.Clean [4] ∧ (∀ r < 64, (base.me.sreg r).pend = .ready) ∧ (base.me.val 4).toNat % 4 = 0 ∧
      vectorIdle base base.cur = true ∧ accessPending base base.cur = false ∧ 2 ≤ base.me.laneCount ∧ base.me.ctx.work = .none) ∧
    (device { runSlot with laneCount := 1 } []).me.laneCount < 2 ∧
    (let s := { device leafSlot [] with kernels := [(3, oneKernel .running .running)] }
     s.me.ctx.work = .leaf 3 0 ∧ freeKernelCsa s 3 = some 1 ∧ freeSlotAmong s (slotsOfCore (coreOf s.cur)) = some 1 ∧
       freeKernelCsa { s with kernels := [(3, { oneKernel .running .running with leaves := [⟨0, 0, .running, [0, 1, 2, 3], false, []⟩] })] } 3 = none ∧
       freeSlotAmong { s with slots := (List.range 8).map fun q => (q, leafSlot) } (slotsOfCore 0) = none) ∧
    (∀ ended ∈ [true, false],
      let s := device { withRegs { runSlot with laneCount := 4 } [(2, 1), (3, 9)] with ctx := { Ctx.none with children := [oneChild ended] } } []
      s.me.mode = .context ∧ s.me.Clean [2, 3] ∧ (∀ r ∈ s.me.ctx.children, BitVec.ofNat 64 r.slot ≠ s.me.val 3) ∧
        (s.me.ctx.children.find? fun r => BitVec.ofNat 64 r.slot == s.me.val 2 && !r.joined) = some (oneChild ended) ∧ vectorIdle s s.cur = true ∧
        (∀ c ∈ s.me.ctx.children, c.joined = false ∧ (c.laneBase = (oneChild ended).laneBase → c = oneChild ended)) ∧
        (oneChild ended).laneBase = s.me.laneBase + s.me.laneCount ∧ (oneChild ended 6).laneBase ≠ s.me.laneBase + s.me.laneCount) ∧
    (let x : Slot := { runSlot with ctx := { Ctx.none with parent := some 1, csa := some 1 } }
     (device x []).me.ctx.sibling = false ∧ (device x []).me.ctx.parent.isSome = true ∧ slotDrained (device x []) 0 = true ∧
       slotDrained (device { x with cnt := ⟨1, 0, 0, 0⟩ } []) 0 = false) ∧ base.me.ctx.parent = none := by
  refine ⟨⟨rfl, rfl, clean_of base_clean (by decide), by decide +kernel, by decide +kernel, rfl, rfl, by decide, rfl⟩, by decide +kernel, by decide +kernel, ?_,
    by decide +kernel, rfl⟩
  unfold Slot.Clean
  decide +kernel

/-- GroupInstructions, EFORK to GID: three entries that may stand and one that may not; a sibling drained and not, an issuer with and without siblings; a
leaf group and none, and a kernel to name. -/
theorem witness_GroupInstructions_end :
    (∀ e ∈ [0x2000, 0x2001],
      let s := device { withRegs leafSlot [(2, winW 0)] with ctx := leafSlot.ctx } [(0, 0x2000), (8, 0x2000), (16, BitVec.ofNat 64 e)]
      s.me.mode = .context ∧ s.me.ctx.work = .leaf 3 0 ∧ s.me.ctx.sibling = false ∧ s.me.ctx.siblings + 3 ≤ 3 ∧
        (∀ r < 64, (s.me.sreg r).pend = .ready) ∧ (s.me.sreg 2).poison = none ∧ (s.me.val 2).toNat % 8 = 0 ∧ OwnRead s (s.me.val 2).toNat (8 * 3) (pad 0) ∧
        accessPending s s.cur = false ∧ ((wordsAt s (pad 0) 3).findIdx? fun e => decide (e.toNat % 4 ≠ 0)) = (if e = 0x2001 then some 2 else none)) ∧
    (∀ n ∈ [0, 1], let s := device { runSlot with cnt := ⟨n, 0, 0, 0⟩, ctx := { Ctx.none with sibling := true } } []
      s.me.mode = .context ∧ s.me.ctx.sibling = true ∧ slotDrained s s.cur = (n == 0)) ∧
    (∀ n ∈ [0, 1], let s := device { runSlot with ctx := { Ctx.none with siblings := n } } []
      s.me.ctx.sibling = false ∧ s.me.ctx.siblings = n) ∧
    (base.me.mode = .context ∧ ∀ k i, base.me.ctx.work ≠ .leaf k i) ∧
    let s := { device leafSlot [] with kernels := [(3, oneKernel .running .running)] }
    s.me.ctx.work = .leaf 3 0 ∧ unitsPending s s.cur = false ∧ countedQueued s s.cur = false ∧ (s.me.sreg 1).pend = .ready ∧
      tabFind s.kernels 3 = some (oneKernel .running .running) ∧
      countedQueued (device { leafSlot with vq := [entry 0xA0000000 4] } []) 0 = true := by
  refine ⟨?_, by decide +kernel, by decide +kernel, ⟨rfl, fun k i h => by cases h⟩, by decide +kernel⟩
  intro e he
  refine ⟨by rfl, by rfl, by rfl, ?_, ?_, by rfl, ?_, own_read (off := 0) (plain_device _ _ rfl) (by decide) (by decide) (by decide), by rfl, ?_⟩ <;>
  revert e <;> decide +kernel

/-- TaskInstructions: a record that may stand and one that may not; queues with room in the ring, in the spill area alone, and in neither; a worker drained
and not, and a context of no task; TQSTAT of queue 0 and of 4096; doorbells of a ring that the host writes and of one that the device does; a record to take. -/
theorem witness_TaskInstructions :
    (∀ e ∈ [1, 9],
      let s := queued (withRegs runSlot [(3, winW 0), (4, 4096)]) [(0, BitVec.ofNat 64 e), (8, 0x2000)] true 0 0
      (∀ r ∈ [1, 2, 3, 4], (s.me.sreg r).pend = .ready ∧ (s.me.sreg r).poison = none) ∧ (s.me.val 3).toNat % 64 = 0 ∧ OwnRead s (s.me.val 3).toNat 64 (pad 0) ∧
        accessPending s s.cur = false ∧ recordBadField (wordsAt s (pad 0) 8) = (if e = 9 then some 0 else none) ∧ (s.me.val 1).toNat ≤ 4095 ∧
        4095 < (s.me.val 4).toNat) ∧
    (∀ t ∈ [(0, 0), (15, 0), (16, 0), (3, 15)],
      let s := queued runSlot [] true t.1 t.2
      (match readDesc s 0 with
        | .error _ => false
        | .ok dq => dDev dq && dEn dq && (probeRange s (qAgent s 0) .write (if t.1 < 16 ∧ t.2 = 0 then dBase dq + 64 * (dTail dq % 16) else
            dSpill dq + 64 * (dStail dq % 16)) 64).isEmpty && (descLocked s 0 0x18).isNone && (descLocked s 0 0x38).isNone && decide (dStail dq < dShead dq + dSnent dq)) = true) ∧
    (∀ n ∈ [0, 1], let s := device { runSlot with cnt := ⟨n, 0, 0, 0⟩, ctx := { Ctx.none with work := .task 0 5 } } []
      s.me.mode = .context ∧ s.me.ctx.work = .task 0 5 ∧ s.me.ctx.children = [] ∧ s.me.ctx.siblings = 0 ∧ slotDrained s s.cur = (n == 0)) ∧
    base.me.ctx.work = .none ∧
    (∀ dev : Bool, (readDesc (queued runSlot [] dev 1 0) 0).toOption.map (fun dq => (dDev dq, decide (((1 : Word) - BitVec.ofNat 64 (dHead dq)).toNat ≤ dNent dq),
      dEn dq, (nextRecord (queued runSlot [] dev 1 0) 0 dq).isSome)) = some (dev, true, true, true)) ∧
    let s := { queued runSlot [] true 1 0 with mgmt := { Mgmt.reset with phase := 4 } }
    s.mgmt.capt = false ∧ s.mgmt.rerun = false ∧ (s.queue 0).waits = false ∧ started s = true ∧ frozenUnit s 16 0 = false ∧ (16, 0) ∉ s.quarUnits ∧ s.tasks = [] ∧ poolCount s 0 < 3072 := by
  refine ⟨?_, by decide +kernel, by decide +kernel, rfl, by decide +kernel, by decide +kernel⟩
  intro e he
  refine ⟨?_, ?_, own_read (off := 0) ⟨rfl, rfl, rfl, ⟨rfl, rfl⟩, rfl, rfl, rfl, rfl, rfl, fun _ => rfl⟩ (by decide) (by decide) (by decide), by rfl, ?_, ?_, ?_⟩ <;>
  revert e <;> decide +kernel

/-- ContextInstructions: the user level; CTXSV of a slot that does not exist, of a FREE one, of one without and with a request; SHKILL of zero and of a
tag, of which a frozen slot is one or not; a handler whose image can be loaded, and one that holds an image of another address, which rests in the
device or not, and which another slot keeps or not. -/
theorem witness_ContextInstructions :
    (device { runSlot with level := .user } []).me.level = .user ∧ (base.me.level ≠ .user ∧ base.me.mode = .context) ∧
    (let s := device (withRegs { runSlot with prio := 3, request := some ⟨2, true, 0⟩ } [(2, 8192), (3, 1)]) []
     s.me.level ≠ .user ∧ (∀ r ∈ [1, 2, 3], (s.me.sreg r).pend = .ready ∧ (s.me.sreg r).poison = none) ∧ 8191 < (s.me.val 2).toNat ∧
       slotQuarantined s 1 = false ∧ (s.slot (s.me.val 3).toNat).st = .free ∧ (s.slot (s.me.val 1).toNat).st ≠ .free ∧
       (s.slot 0).request = some ⟨2, true, 0⟩ ∧ (2 : BitVec 4).toNat < s.me.prio.toNat ∧ s.me.val 1 = 0 ∧ s.me.val 3 ≠ 0 ∧ wbits (s.me.val 3) 63 10 = 0 ∧
       killFrozen s ((s.me.val 3).setWidth 10) = false ∧
       killFrozen { s with slots := [(0, { s.me with shtag := 1 })], mgmt := { s.mgmt with frozen := true, rbsel := 1 } } ((s.me.val 3).setWidth 10) = true) ∧
    (device { runSlot with request := some ⟨0, true, 0⟩ } []).me.prio.toNat ≤ (0 : BitVec 4).toNat ∧ base.me.request = none ∧
    (let x : Slot := { withRegs runSlot [(2, 0x10000)] with mode := .handler, level := .supervisor }
     let s := saver x imageWords
     s.me.OutsideRep ∧ s.me.mode = .handler ∧ storePending s s.cur = false ∧ vectorIdle s s.cur = true ∧ tilesIdle s s.cur = true ∧
       csaKey s s.cur = some 0x10000 ∧ Loadable s s.cur (scalarAgent s s.cur) (s.me.val 2) 0x10000) ∧
    (let x : Slot := { withRegs runSlot [(2, 0x11000)] with mode := .handler, level := .supervisor }
     let s := saver x (imageWords ++ [(0x11018, 0x1800000000000000)])
     let im : Image := {
                        csa := 0, asid := 0, key := 0x11000, tag := 0, parked := false, ctx := { Ctx.none with children := [oneChild false] }, slot := 5
                        laneBase := 0, laneCount := 8, held := true, accBase := 0, accLim := 0 }
     let at_ := fun u : State => u.setSlot 0 { u.slot 0 with laneBase := 0, laneCount := 8 }
     s.images = [] ∧ csaKey s s.cur ≠ some (keyOfVa s (scalarAgent s s.cur) (s.me.val 2).toNat .read) ∧
       imageAdmits im 0 = false ∧ imageAdmits { im with ctx := Ctx.none, held := false } 0 = true ∧
       ∀ ims ∈ [[], [im], [{ im with ctx := Ctx.none, held := false }]],
         ctxldLanes { s with images := ims } 0 ims.head? = (0, 8) ∧
         keyOfVa { s with images := ims } (scalarAgent s s.cur) (s.me.val 2).toNat .read = 0x11000 ∧
         (load (at_ { s with images := ims }) s.cur (scalarAgent s s.cur) (s.me.val 2)).toOption.isSome = true ∧
         (load (at_ (leaveServed { s with images := ims } s.cur)) s.cur (scalarAgent s s.cur) (s.me.val 2)).toOption.isSome = true) ∧
    (match load (saver { runSlot with level := .supervisor } []) 0 ⟨0, 0, .supervisor, 0, 0, none⟩ 0x10000 with
      | .error (some (c, aux)) => c == 0x01 && aux == 0
      | _ => false) = true := by
  refine ⟨rfl, by decide, by decide +kernel, by decide +kernel, rfl, ⟨(fun _ _ h => by cases h), rfl, rfl, rfl, by decide +kernel, by decide +kernel, loadable_of areaHit (by decide +kernel)⟩,
    by decide +kernel, by decide +kernel⟩

/-- SlotEvents: stalls that have and have not cleared; a report due, with and without older entries and in an ending context; a request at a landing
point; an ending context, with and without what its units have left; a slot within a loop. -/
theorem witness_SlotEvents :
    (let x : Slot := { runSlot with st := .stall (.register 3), regs := [(3, ⟨0, none, .queue⟩)] }
     x.st = .stall (.register 3) ∧ (x.sreg 3).pend ≠ .ready ∧ ({ x with regs := [] } : Slot).st = .stall (.register 3) ∧ ({ x with regs := [] } : Slot).sreg 3 = SReg.zero) ∧
    (let x : Slot := { runSlot with due := some ⟨0x09, 0x1000, 0, 0, true, false⟩ }
     x.st ≠ .free ∧ x.mode = .context ∧ x.ctx.ending = false ∧ x.due = some ⟨0x09, 0x1000, 0, 0, true, false⟩ ∧ olderLeft (saver x (areaWords 1)) 0 x.dueOrd = false ∧
       SaveArea (saver x (areaWords 1)) 0 0x10000 ∧
       olderLeft (device { x with vq := [entry 0xA0000000 4], dueOrd := 5 } []) 0 5 = true ∧ ({ x.ctx with ending := true } : Ctx).ending = true) ∧
    (let x : Slot := { runSlot with request := some ⟨2, true, 9⟩ }
     let s := saver x (areaWords 2)
     x.st ≠ .stall .draining ∧ x.due = none ∧ x.loops = [] ∧ x.ctx.ending = false ∧ x.request = some ⟨2, true, 9⟩ ∧ SaveArea (s.setSlot 0 { s.slot 0 with request := none }) 0 0x10000) ∧
    (let s := device { runSlot with ctx := { Ctx.none with ending := true } } []
     (s.slot 0).ctx.ending = true ∧ (s.slot 0).loops = [] ∧ unitsPending s 0 = false ∧ unitsPending { s with klinks := [(3, oneLink)] } 0 = true) ∧
    ({ runSlot with loops := [⟨0x4010000000000000, 0x1000, 2⟩] } : Slot).loops ≠ [] ∧ runSlot.land = false := by
  refine ⟨by decide +kernel, ⟨by decide, rfl, rfl, rfl, by decide +kernel, area_of areaHit (by decide +kernel), by decide +kernel, rfl⟩, ⟨by decide, rfl, rfl, rfl, rfl, area_of areaHit (by decide +kernel)⟩, by decide +kernel,
    by decide +kernel, rfl⟩

/-- CoreEvents: a recheck that may run now, and three healthy groups to vote, or two; a core that is to be remapped. -/
theorem witness_CoreEvents :
    (let r : Recheck := ⟨0, 0, 0x1000, 0, 8, 1, some (5, ⟨7, none, .ready⟩), [], false⟩
     [5, 6, 7].Nodup ∧
     let s := { device runSlot [] with cores := [(0, { Core.reset with rechecks := [r] })] }
     (s.core 0).rechecks = [r] ∧ (issueWinner s 0 0).isNone = true ∧ (∀ g ∈ [5, 6, 7], g ∈ healthyGroups (s.core 0)) ∧ (s.core 0).scoreOf 5 + 32 < 128 ∧
       (s.core 0).scoreOf 6 + 32 < 128 ∧ [5, 6].length < 3) ∧
    let s := { State.reset with cores := [(1023, { Core.reset with remapDue := true, quarantined := [3] })] }
    (s.core 1023).remapDue = true ∧ (s.core 1023).remapWait = [] := by decide +kernel

/-- PoolEvents: kernels whose next leaf group can be made, singly and in a gang, one whose leaf group can end, one that is complete and one that is
aborted; the one entry of a die's pool, for a task; entries to age. -/
theorem witness_PoolEvents :
    (let s := { device runSlot [] with kernels := [(3, oneKernel .running .running)] }
     (oneKernel .running .running).st = .running ∧ gangLevel (oneKernel .running .running).words = none ∧ (createLeaf s 3 false none).isSome = true ∧
       poolCount s 0 < 3072) ∧
    (let k := { oneKernel .pending .running with words := kernelList.set 16 0x0001000100000004, cores := (0, 16), cursor := 0, leaves := [], bindings := [] }
     gangLevel k.words = some 0 ∧ (gangCreate { device runSlot [] with kernels := [(3, k)] } 3 k 0).isSome = true) ∧
    (let s := { State.reset with kernels := [(3, oneKernel .draining .ending)] }
     ((oneKernel .draining .ending).leaves.find? fun l => l.index == 0) = some ⟨0, 0, .ending, [0], false, []⟩ ∧ leafEmpty s 3 0 = true) ∧
    (∀ st ∈ [KernelState.draining, .aborting],
      let k := { oneKernel st .running with leaves := [] }
      k.leaves = [] ∧ childKernels { State.reset with kernels := [(3, k)] } 3 = [] ∧ endWaits { State.reset with kernels := [(3, k)] } k = false ∧ k.st = st ∧ kernelOps { State.reset with kernels := [(3, k)] } 3 = false) ∧
    (let x : Task := ⟨0, 5, [1, 0x2000], 0, .active 1 1, 0, 0, 0, 1, 0⟩
     let e : PoolEntry := ⟨0, .task 0 5, 14, .queue 0, 1, 0, none, none, [], false⟩
     let s := { queued Slot.reset [] true 0 0 with mgmt := { Mgmt.reset with phase := 4 }, pool := [e], tasks := [x] }
     started s = true ∧ frozenUnit s 10 e.die = false ∧ e.die < 8 ∧ e.blocked = false ∧ s.mgmt.capt = false ∧ s.mgmt.rerun = false ∧
       s.mgmt.launches = [] ∧ (replayEntry s).isSome = false ∧ s.shares = [] ∧ findTask s 0 5 = some x ∧ recType x.words = 1 ∧ entryPlace s none e = .slot 0 ∧
       (entriesOf s 0)[0]? = some (0, e) ∧ ageLimitOf s 0 ≠ 0 ∧ e.prio < 15 ∧ ageLimitOf { s with ageLimit := [(0, 0)] } 0 = 0) := by
  refine ⟨?_, ?_, ?_, ?_, ?_⟩
  · decide +kernel
  · decide +kernel
  · decide +kernel
  · decide +kernel
  · decide +kernel

/-- ErrorEvents: the state after reset takes each report; a kill that strikes a frozen unit and one that does not; a slot in RUN, a CXL address, and
stores to the port that fails and none; a remote address. -/
theorem witness_ErrorEvents :
    (1 : STag) ≠ 0 ∧ killFrozen State.reset 1 = false ∧
    killFrozen { base with slots := [(0, { runSlot with shtag := 1 })], mgmt := { Mgmt.reset with frozen := true, rbsel := 1 } } 1 = true ∧
    (base.slot 0).st ≠ .free ∧ 3 ≤ ({ Mgmt.reset with phase := 3 } : Mgmt).phase ∧
    (∀ st ∈ [[], [{ oneStore false with key := Config.hbmBytes, tag := 1 }]],
      let s := { State.reset with cxlBytes := 2 ^ 32, stores := st }
      s.mgmt.rerun = false ∧ s.mgmt.capt = false ∧ keyOfPa s Config.hbmBytes = Config.hbmBytes ∧ isCxl s Config.hbmBytes = true ∧
        cxlHolds s 1 Config.hbmBytes = true ∧ tabFind s.deadPorts (cxlIndex 1) = none ∧
        (let r := recorded s 0x01 13 1 0 0 true
         (poisonPages { r.2 with deadPorts := [(cxlIndex 1, 1)] } (fun _ _ => true) 1).stores = st ∧
         cxlHolds { r.2 with deadPorts := [(cxlIndex 1, 1)] } 1 Config.hbmBytes = true)) ∧
    isRemote (keyOfPa State.reset (3 * 2 ^ 44)) = true ∧ 5 % 1024 ≠ 0 ∧ killFrozen State.reset (BitVec.ofNat 10 5) = false := by decide +kernel

/-- ErrorEvents, accesses of the host: one that a window of port 0 allows, one that none allows and one past the grant, of clean and of poisoned memory;
the notify area, rerun mode and a CXL port. -/
theorem witness_ErrorEvents_host :
    let s := { State.reset with mgmt := { Mgmt.reset with phase := 3, windows := [(0, (0, 0x2003))] }, notify := 0x1000000 }
    3 ≤ s.mgmt.phase ∧ 0 ∉ s.hostDown ∧ s.mgmt.rerun = false ∧ s.mgmt.capt = false ∧ s.notify ≠ 0 ∧ s.notify.toNat + 2 ^ 24 ≤ windowBase ∧
      0x1000 + 8 ≤ tabGet s.bar4 (2 ^ 44) 0 ∧ localOk s 0x1000 8 = true ∧ windowPasses s 0 0x1000 8 false true = true ∧
      windowPasses s 0 0x1000 8 true false = true ∧ isPad 0x1000 = false ∧ holdsPoison s 0x1000 = true ∧
      windowPasses s 0 0x2000 8 false true = false ∧ tabGet (tabSet s.bar4 0 0x1000) (2 ^ 44) 0 < 0x1000 + 8 ∧ Ordinary s 0x1000 8 ∧
      ({ s.mgmt with rerun := true } : Mgmt).rerun = true ∧ (1 : Nat) ≠ 0 ∧ (1 : Nat) ≠ 3 ∧ (List.replicate 8 (5 : Byte)) ≠ [] := by
  refine ⟨by decide, by decide, rfl, rfl, by decide, by decide +kernel, by decide +kernel, by decide +kernel, by decide +kernel, by decide +kernel, by decide, by decide +kernel,
    by decide +kernel, by decide +kernel, ⟨by decide, ⟨by decide +kernel, fun h => absurd h (by decide +kernel)⟩, ?_⟩, rfl, by decide, by decide, by decide⟩
  decide +kernel

/-- A slot of tag 1, and what it has in the units. -/
def tagged : State :=
  { device { runSlot with shtag := 1 } [(0x40, 9)] with
    sectors := [(0, 1), (5, 2)], stores := [{ oneStore false with home := .gone, tag := 2 }, { oneStore false with tag := 1 }]
    cores := [(0, { Core.reset with rowTag := [(2, 1), (3, 2)], ports := [(0, { Port.reset with st := .opened })] })]
    regions := [(4, ⟨winW 0, 64, 0, 1⟩)] }

/-- KilledTag: a slot of the tag with a port, rows and stores, and stores, rows and sectors of another tag; nothing of the tag is in flight that writes. -/
theorem witness_KilledTag :
    (1 : STag) ≠ 0 ∧ (tagged.slot 0).st ≠ .free ∧ (tagged.slot 0).shtag = 1 ∧ slotsOfTag tagged 1 = [0] ∧ ((tagged.core 0).port 0).st ≠ .closed ∧
    ((tagged.core 0).port 0).owner = 0 ∧ (2, 1) ∈ (tagged.core 0).rowTag ∧ (3, 1) ∉ (tagged.core 0).rowTag ∧
    (∃ a ∈ tagged.stores, a.tag ≠ 1 ∧ a.home = .gone) ∧ (∃ c ∈ ({ tagged with copies := [(3, { oneCopy .cpy .moving 0 with tag := 2, home := .gone })] } : State).copies, c.2.tag ≠ 1 ∧ c.2.home = .gone) ∧
    Memory.wf tagged.mem ∧ tagged.tasks = [] ∧ tagged.cmds = [] ∧ tagged.images = [] ∧ tagged.kernels = [] ∧ tagged.tables = [] ∧
    (tagged.slot 0).mode = .context ∧ (0, 1) ∈ tagged.sectors ∧ (5, 1) ∉ tagged.sectors := by decide +kernel

/-- LinkEvents: a link in each state, the fails before and at the third, writes of one tag that it holds, and none. -/
theorem witness_LinkEvents :
    (∀ st ∈ [LinkState.training, .retraining, .up, .degraded, .down], ({ State.reset with muaris := [(2, { MLink.reset with st := st })] }.link 2).st = st) ∧
    (∀ n ∈ [2, 3], ({ State.reset with muaris := [(2, { MLink.reset with st := .training, fails := n })] }.link 2).fails = n) ∧
    (let s := { State.reset with mgmt := { Mgmt.reset with phase := 3 }, sent := [⟨2, 1, .gone, 1, 2 ^ 44, [], none⟩], muaris := [(2, { MLink.reset with st := .training, fails := 3 })] }
     s.sent ≠ [] ∧ s.heldReads = [] ∧ s.mgmt.frozen = false ∧ (∀ e ∈ s.sent, e.link = 2 ∧ e.tag = 1) ∧ 3 ≤ s.mgmt.phase ∧ (0x3FFFB : Word).getLsbD 2 = false ∧
       (∀ m < 18, m ≠ 2 → (0x3FFFB : Word).getLsbD m = true) ∧ (s.link 2).st = .training ∧ 3 ≤ (s.link 2).fails ∧ s.sent.length ≤ 1024) ∧
    State.reset.sent = [] ∧ State.reset.heldReads = [] := by decide +kernel

/-- The last 16 bytes of a flit: its CRC above 8 bytes of zeros. -/
def flitTail (head rsv : Word) (data req : List Word) : BitVec 128 := Config.flitCrc (flitBytes head rsv data req 0) ++ (0 : Word)

theorem append_low (a b : Word) : (a ++ b : BitVec (64 + 64)).setWidth 64 = b := BitVec.setWidth_append_eq_right
theorem append_high (a b : Word) : ((a ++ b : BitVec (64 + 64)) >>> 64).setWidth 64 = a := by
  ext i hi
  rw [← BitVec.getLsbD_eq_getElem, BitVec.getLsbD_setWidth, BitVec.getLsbD_ushiftRight, BitVec.getLsbD_append]
  simp [hi]

theorem flit_intact (head rsv : Word) (data req : List Word) :
    Config.flitCrc (flitBytes head rsv data req ((flitTail head rsv data req).setWidth 64)) = (flitTail head rsv data req >>> 64).setWidth 64 := by
  rw [show (flitTail head rsv data req).setWidth 64 = (0 : Word) from append_low _ _]
  exact (append_high _ _).symm

/-- LinkEvents, flits: one that its CRC fits and one that it does not; the next in order, one that leaves a gap and one delivered before; an ACK that
covers and one that does not; the eighth NAK; a write and a read that a window of the link allows; and rerun mode. -/
theorem witness_LinkEvents_flits :
    (∀ head rsv data req, Config.flitCrc (flitBytes head rsv data req ((flitTail head rsv data req).setWidth 64)) = (flitTail head rsv data req >>> 64).setWidth 64) ∧
    (∀ head rsv data req, ∃ tail : BitVec 128, Config.flitCrc (flitBytes head rsv data req (tail.setWidth 64)) ≠ (tail >>> 64).setWidth 64) ∧
    (∀ st ∈ [LinkState.up, .degraded], ∀ n ∈ [0, 7], ∀ nak : Bool,
      let s := { State.reset with muaris := [(2, { MLink.reset with st := st, replays := n, nak := nak, rx := 4 })], mgmt := { Mgmt.reset with phase := 3, windows := [(4 * 16 + 15, (0x1000, 0x1003))] } }
      (s.link 2).st = st ∧ (s.link 2).replays = n ∧ (s.link 2).nak = nak ∧ (5 : BitVec 12) = (s.link 2).rx + 1 ∧
        (7 : BitVec 12) ≠ (s.link 2).rx + 1 ∧ 1024 ≤ ((s.link 2).rx - 7).toNat ∧ (3 : BitVec 12) ≠ (s.link 2).rx + 1 ∧ ((s.link 2).rx - 3).toNat < 1024 ∧
        s.mgmt.rerun = false ∧ s.mgmt.capt = false ∧ localOk s 0x1FF8 8 = true ∧ windowPasses s (2 + 2) 0x1FF8 8 false true = true ∧
        windowPasses s (2 + 2) 0x1FF8 8 true false = true ∧ isPad 0x1FF8 = false ∧ s.sent = [] ∧ ({ s.mgmt with rerun := true } : Mgmt).rerun = true) ∧
    (∀ op ∈ [0, 1, 2], let r := linkReq (List.replicate 24 7) (BitVec.ofNat 64 (op * 2 ^ 60 + 8 * 2 ^ 52 + 0x1FF8)) 0
      r.op = op ∧ r.pa = 0x1FF8 ∧ r.bytes.length = 8 ∧ r.fits = true) ∧
    (∀ ty ∈ [0, 1, 2, 3, 4], wbits (BitVec.ofNat 64 (5 + ty * 2 ^ 12)) 15 12 = ty) ∧ wbits (wordAt [0, 0, 0] 2) 63 60 = 0 ∧
    (∀ ack ∈ [(1 : BitVec 12), 2000], (ack - MLink.reset.acked).toNat ≤ 1024 ∧ 1 ≤ (ack - MLink.reset.acked).toNat ↔ ack = 1) ∧
    Ordinary { State.reset with muaris := [(2, { MLink.reset with st := .up })] } 0x1FF8 8 := by
  refine ⟨flit_intact, fun head rsv data req => ?_, by decide +kernel, by decide +kernel, by decide +kernel, by decide +kernel, by decide +kernel,
    ⟨by decide, ⟨by decide +kernel, fun h => absurd h (by decide +kernel)⟩, fun i _ => by simp [isNotify, State.reset]⟩⟩
  refine ⟨(~~~ Config.flitCrc (flitBytes head rsv data req 0)) ++ (0 : Word), fun h => ?_⟩
  rw [show ((~~~ Config.flitCrc (flitBytes head rsv data req 0)) ++ (0 : Word) : BitVec 128).setWidth 64 = (0 : Word) from append_low _ _] at h
  have h1 := h.trans (append_high _ _)
  generalize Config.flitCrc _ = c at h1
  have h2 := congrArg (fun v : Word => v.getLsbD 0) h1
  simp at h2

/-- The device with every slot of die 0 out of service. -/
def fullDie : State := { State.reset with quarUnits := (slotsOfDie 0).map fun q => (1, q) }

theorem witness_DeviceEvents_full : Memory.wf State.reset.mem ∧ freeSlotAmong fullDie (slotsOfDie 0) = none :=
  ⟨by decide +kernel, List.find?_eq_none.mpr fun q hq => by simp [slotOpen, slotQuarantined, fullDie, hq]⟩

/-- DeviceEvents: every phase, capture and rerun, an image that FWLAUNCH can load, and a freeze by each kind of record. -/
theorem witness_DeviceEvents :
    (∀ n ∈ [0, 1, 2, 3], ({ Mgmt.reset with phase := n } : Mgmt).phase = n) ∧
    (let m := { Mgmt.reset with phase := 4, boot := true, freeze := true, rerun := true }
     m.freeze = true ∧ wbits m.rbsel 7 0 ∉ [1, 4] ∧ wbits ({ m with rbsel := 4 } : Mgmt).rbsel 7 0 = 4 ∧ m.boot = true ∧ m.rerun = true ∧
       ({ m with rerun := false, capt := true } : Mgmt).capt = true ∧ Mgmt.reset.rerun = false ∧ Mgmt.reset.capt = false ∧ Mgmt.reset.boot = false ∧
       Mgmt.reset.freeze = false) ∧
    (⟨[], [1], 2, 256, [(0, 2 ^ 40)]⟩ : Trained).badPorts = [] ∧
    (let s := { device Slot.reset [(0x10, 0x2000), (0x18, 0x1800000000000000)] with mgmt := { Mgmt.reset with phase := 3 } }
     freeSlotAmong s (slotsOfDie 0) = some 0 ∧
       Loadable (s.setSlot 0 (s.slot 0).blank) 0 { slice := noSlice, asid := 0, level := .firmware, tag := 0, cluster := clusterOf 0 } (winW 0) (pad 0)) ∧
    List.length (List.replicate 8 15) = 8 ∧ ∀ g ∈ List.replicate 8 15, g ≤ 15 := by
  refine ⟨by decide, by decide +kernel, rfl, ⟨by decide +kernel, ?_⟩, rfl, by simp⟩
  exact { aligned := by decide +kernel, passes := ⟨_, window_check (off := 0) rfl rfl rfl (by decide), rfl⟩,
          cached := window_touch (off := 0) rfl rfl (by decide), image := by decide +kernel, level := by decide +kernel, empty := by decide +kernel,
          vlen := by decide +kernel, room := by decide +kernel }

/-- RegisterWriteEvents: a slot that is FREE and one that is not, in both modes, one that must wait for its queues or for accesses to the window, and
values on both sides of each bound. -/
theorem witness_RegisterWriteEvents :
    (State.reset.slot 5).st = .free ∧ (base.slot 0).st ≠ .free ∧ (base.slot 0).mode = .context ∧
    (device { runSlot with mode := .handler } []).me.mode = .handler ∧
    (∀ n ∈ [0x010, 0x011, 0x013, 0x040, 0x041, 0x114, 0x043], sysWaits base 0 n true = false) ∧
    (∀ n ∈ [0x010, 0x011, 0x013], sysWaits (device { runSlot with vq := [entry 0x74008908 0] } []) 0 n true = true) ∧
    (∀ n ∈ [0x040, 0x041, 0x043], sysWaits (tileState (unitTile (.tzero 1) 1 tileDesc) Core.reset []) 0 n true = true) ∧
    sysWaits { base with stores := [oneStore false] } 0 0x114 true = true ∧
    (∀ n ∈ [2048, 16384], n ∈ [2048, 4096, 8192, 16384] ∧ n ≤ 2048 * (base.core (coreOf 0)).laneMap.length) ∧ 2047 ∉ [2048, 4096, 8192, 16384] ∧
    ¬16384 ≤ 2048 * ({ Core.reset with laneMap := [0, 1, 2, 3] } : Core).laneMap.length ∧
    (let v : Word := 0x2E5
     wbits v 2 0 ≤ 5 ∧ wbits v 13 12 ≠ 3) ∧ 5 < wbits (6 : Word) 2 0 ∧ wbits (0x3000 : Word) 13 12 = 3 ∧
    ((127 : Word) &&& 0x7F).toNat + base.me.accLim.toNat ≤ 128 ∧ 128 < ((127 : Word) &&& 0x7F).toNat + (2 : BitVec 8).toNat ∧
    base.me.accBase.toNat + ((128 : Word) &&& 0xFF).toNat ≤ 128 ∧ 128 < base.me.accBase.toNat + ((129 : Word) &&& 0xFF).toNat ∧
    1024 ≤ ((1024 : Word) &&& 0xFFFFFFFFFF).toNat ∧ (0 : Word) &&& 0xFFFFFFFFFF = 0 ∧ (1023 : Word) &&& 0xFFFFFFFFFF ≠ 0 ∧
    ((1023 : Word) &&& 0xFFFFFFFFFF).toNat < 1024 := by decide +kernel

/-- DecodeEncodeAgree: an instruction of each of three formats, and its word. -/
theorem witness_DecodeEncodeAgree :
    (∃ w, encode (.addsh 1 2 3 2) = some w) ∧ wellFormed (.addsh 1 2 3 2) = true ∧ encode (.lih 5 0x80000) = some 0x24580000 ∧ wellFormed (.lih 5 0x80000) = true ∧
      encode (.call 0x3FFFFFF) = some 0x5FFFFFFF ∧ wellFormed (.call 0x3FFFFFF) = true := by
  refine ⟨⟨0x04108316, ?_⟩, ?_, ?_, ?_, ?_, ?_⟩ <;> decide +kernel

/-- A slot whose program counter names a word in the window. -/
def fetcher (loops : List LoopEntry) (w : Nat) : State :=
  { device { runSlot with pc := winW 0, loops := loops } [(0, BitVec.ofNat 64 w)] with agenda := [] }

theorem fetches (loops : List LoopEntry) (w : Nat) (h : uiDue { runSlot with pc := winW 0, loops := loops } = false)
    (hl : landingDue (fetcher loops w) 0 = false) (hr : readLE (fetcher loops w).mem (pad 0) 4 = w) : FetchesWord (fetcher loops w) 0 w (pad 0) where
  busy := by show SlotState.run ≠ SlotState.free; decide
  leaving := by show SlotState.run ≠ SlotState.stall Stall.draining; decide
  noTrap := rfl
  noLanding := hl
  noInterrupt := h
  thawed := rfl
  inside := by show (winW 0).toNat % 4096 + 4 ≤ 4096; decide
  passes := ⟨_, window_check (off := 0) rfl rfl rfl (by decide), rfl, rfl⟩
  cached := window_touch (off := 0) rfl rfl (by decide)
  held := rfl
  memory := window_ordinary rfl rfl 0 4
  clean := window_clean rfl rfl 0 4
  word := hr

/-- StepRunsDecoded: a word that decodes and one that does not, outside a frame and within one, and an event with operands in range. -/
theorem witness_StepRunsDecoded :
    (∀ w ∈ [0x04108316, 0xFFFFFFFF], FetchesWord (fetcher [] w) 0 w (pad 0) ∧ ((fetcher [] w).slot 0).OutsideRep ∧ (decodeWord w).toOption.isSome = (w == 0x04108316)) ∧
    (let e : LoopEntry := ⟨0x8010000000000000, winW 0, 2⟩
     FetchesWord (fetcher [e] 0x0C10BFFF) 0 0x0C10BFFF (pad 0) ∧ ((fetcher [e] 0).slot 0).loops = [e] ∧ e.kind = 2 ∧
       e.start.toNat ≤ ((fetcher [e] 0).slot 0).pc.toNat ∧ ((fetcher [e] 0).slot 0).pc.toNat ≤ e.endAddr.toNat ∧
       (decodeOffset 0x0C10BFFF e.j e.vstr e.sstr).2.toOption.isSome = true) ∧
    encode (.vectorIssue 0 ⟨0, []⟩) = none ∧ wellFormed (.vectorIssue 0 ⟨0, []⟩) = true ∧ wellFormed (.vectorIssue 1024 ⟨0, []⟩) = false := by
  refine ⟨?_, ⟨fetches _ _ (by decide +kernel) (by decide +kernel) (by decide +kernel), by decide +kernel, by decide +kernel, by decide +kernel, by decide +kernel,
    by decide +kernel⟩, by decide +kernel, by decide +kernel, by decide +kernel⟩
  intro w hw
  simp only [List.mem_cons, List.not_mem_nil, or_false] at hw
  rcases hw with rfl | rfl
  · exact ⟨fetches _ _ (by decide +kernel) (by decide +kernel) (by decide +kernel), (fun _ _ h => by cases h), by decide +kernel⟩
  · exact ⟨fetches _ _ (by decide +kernel) (by decide +kernel) (by decide +kernel), (fun _ _ h => by cases h), by decide +kernel⟩

/-- StepKeepsCanonical: memory after reset, and memory with words written to it, is canonical. -/
theorem witness_StepKeepsCanonical : State.reset.Canonical ∧ (fetcher [] 0x04108316).Canonical := by
  refine ⟨by unfold State.Canonical; decide +kernel, by unfold State.Canonical; decide +kernel⟩

/-! Single steps, with results worked out from the rules. -/

/-- The values that some registers hold after an instruction of slot 0. -/
def after (i : Instr) (s : State) (rs : List Nat) : List Word :=
  match exec i s with
  | .next t => rs.map fun r => (t.me.sreg r).val
  | .fault _ => []
  | .refused _ => []

/-- Slot 0 with some registers set. -/
abbrev having (rs : List (Nat × Word)) : State := device (withRegs runSlot rs) []

/-- The program counter after a step from reset with a word placed. -/
def pcAfter (w : Nat) : Word :=
  match step (State.reset.withFetchWord 32 w) with
  | .next t => t.me.pc - (State.reset.withFetchWord 32 w).me.pc
  | .fault _ => 0
  | .refused _ => 0

/-- 04_sequencer R95, R96, R99: a register operation goes to the next word, JMP of offset −2 words goes back eight bytes. -/
theorem test_step_advances : pcAfter 0x04108301 = 4 ∧ pcAfter (0x58000000 + 0x3FFFFFE) = BitVec.ofInt 64 (-8) := by decide +kernel

/-- R83: addition wraps; s0 keeps reading as zero. -/
theorem test_add : after (.add 1 2 3) (having [(2, -1), (3, 1)]) [1] = [0] ∧ after (.add 0 2 3) (having [(2, 5), (3, 6)]) [0] = [0] := by decide +kernel

/-- R83: a source that is also the destination is read first. -/
theorem test_sub_own_source : after (.sub 2 2 3) (having [(2, 7), (3, 9)]) [2, 3] = [BitVec.ofInt 64 (-2), 9] := by decide +kernel

/-- R84: the table of division corners. -/
theorem test_division : after (.div 1 2 3) (having [(2, 9)]) [1] = [-1] ∧ after (.remz 1 2 3) (having [(2, 9)]) [1] = [9] ∧
    after (.div 1 2 3) (having [(2, BitVec.ofInt 64 (-2 ^ 63)), (3, -1)]) [1] = [BitVec.ofInt 64 (-2 ^ 63)] ∧
    after (.rem 1 2 3) (having [(2, BitVec.ofInt 64 (-2 ^ 63)), (3, -1)]) [1] = [0] := by decide +kernel

/-- R86: the worked constant 147,200, in its two steps. -/
theorem test_constant : after (.lih 5 9) base [5] = [147456] ∧ after (.addi 5 5 (BitVec.ofInt 14 (-256))) (having [(5, 147456)]) [5] = [147200] := by decide +kernel

/-- R93: FCMP.lt.d of a NaN writes 0 and sets NV; −0 equals +0 and is not below it. -/
theorem test_fcmp : after (.fcmp 10 11 12 1 0) (having [(10, 9), (11, 0x7FF8000000000000), (12, 0)]) [10] = [0] ∧
    (match exec (.fcmp 10 11 12 1 0) (having [(11, 0x7FF8000000000000)]) with | .next t => t.me.fflags | _ => 0) = 0b10000 ∧
    after (.fcmp 10 11 12 0 0) (having [(11, 0x8000000000000000)]) [10] = [1] := by decide +kernel

/-- R94: FCVT.z64.d of −0.4 gives 0 with NX alone. -/
theorem test_fcvt : after (.fcvtZ64D 1 2) (having [(1, 5), (2, 0xBFD999999999999A)]) [1] = [0] ∧
    (match exec (.fcvtZ64D 1 2) (having [(2, 0xBFD999999999999A)]) with | .next t => t.me.fflags | _ => 0) = 1 := by decide +kernel

/-- R28: x + (−x) is +0, and −0 when FRM is RDN (R31). -/
theorem test_fadd_zero : after (.fadd 1 2 3 0) (having [(2, 0x3FF0000000000000), (3, 0xBFF0000000000000)]) [1] = [0] ∧
    after (.fadd 1 2 3 0) (device { withRegs runSlot [(2, 0x3FF0000000000000), (3, 0xBFF0000000000000)] with frm := 2 } []) [1] = [0x8000000000000000] := by
  decide +kernel

/-- R88: a load of the window, signed and not, little-endian. -/
theorem test_load : after (.ld 1 2 2 0) (device (withRegs runSlot [(2, winW 0)]) [(0, 0x00000000FFFF8180)]) [1] = [BitVec.ofInt 64 (-32384)] ∧
    after (.ld 1 2 1 1) (device (withRegs runSlot [(2, winW 0)]) [(0, 0x00000000FFFF8180)]) [1] = [0x81] := by decide +kernel

/-- R97, R262, R263: a CALL whose s63 is not a multiple of 16 enters the handler with cause 0x0B and TRAPADDR s63; pc and s63 come from the area. -/
theorem test_call_misaligned :
    (match exec (.call 4) (saver (withRegs runSlot [(63, 0x7008)]) (areaWords 1)) with
      | .next t => some (t.me.mode, t.me.trapCause, t.me.trapAddr, t.me.trapPc, t.me.pc, (t.me.sreg 63).val)
      | .fault _ => none
      | .refused _ => none) = some (.handler, 0x0B, 0x7008, 0x1000, 0x5000, 0x6000) := by decide +kernel

/-- 07_tile R177, R178: one step of INT8 by INT8, 3 × 3 into a zero cell of weight 1; the entry is done. -/
theorem test_matrix_step :
    (match exec (.matrixStep 0) (stepState 1 32 false) with
      | .next t => some (((t.core 0).cell 0).bits, ((t.core 0).cell 31).bits, ((t.core 0).cell 32).bits, (t.core 0).tq.length)
      | .fault _ => none
      | .refused _ => none) = some (9, 9, 0, 0) := by decide +kernel

end Sys2Proof.Tests
end

/-! Decode of encode (03_encoding R58 to R71): the bytes of a word, and every instruction. -/

namespace Sys2Proof.Proofs

open Sys2Proof.Machine Sys2Proof.Laws

/-- The round trip of every instruction and event: the laws' lemma of each constructor, in the order of the constructors. -/
theorem encodes_every (i : Instr) : encodes.Statement i :=
  @Instr.casesOn encodes.Statement i
    encodes.add encodes.sub encodes.and encodes.or encodes.xor encodes.andn encodes.shl encodes.shr encodes.sar encodes.mul encodes.mulh
    encodes.mulhz encodes.div encodes.divz encodes.rem encodes.remz encodes.min encodes.max encodes.minz encodes.maxz encodes.addsh encodes.sel
    encodes.cmpeq encodes.cmplt encodes.cmpltz encodes.clz encodes.ctz encodes.popc encodes.bswap encodes.fadd encodes.fsub encodes.fmul
    encodes.fdiv encodes.fsqrt encodes.fma encodes.fmin encodes.fmax encodes.fcmp encodes.fcvtDS encodes.fcvtSD encodes.fcvtDI64 encodes.fcvtSI64
    encodes.fcvtDZ64 encodes.fcvtSZ64 encodes.fcvtI64D encodes.fcvtI64S encodes.fcvtZ64D encodes.fcvtZ64S encodes.addi encodes.andi encodes.ori
    encodes.xori encodes.shli encodes.shri encodes.sari encodes.cmplti encodes.lih encodes.addpc encodes.ld encodes.st encodes.ldacq
    encodes.strel encodes.acq encodes.rel encodes.gbind encodes.gunbind encodes.gfence encodes.amoadd encodes.amoswap encodes.amocas
    encodes.amomin encodes.amomax encodes.amominz encodes.amomaxz encodes.amoand encodes.amoor encodes.amoxor encodes.beq encodes.bne encodes.blt
    encodes.bge encodes.bltz encodes.bgez encodes.j encodes.call encodes.jr encodes.callr encodes.loop encodes.loopr encodes.lbrk encodes.rep
    encodes.wait encodes.bari encodes.bara encodes.barw encodes.fwait encodes.ffill encodes.freset encodes.vsetvl encodes.vsetvli encodes.vgrant
    encodes.vcmp encodes.vcmpVs encodes.vfcmp encodes.vfcmpVs encodes.vld encodes.vlds encodes.vldx encodes.vldxo encodes.vldff encodes.vst
    encodes.vsts encodes.vstx encodes.vstxo encodes.vstxadd encodes.vldn encodes.vstn encodes.kst encodes.ksig encodes.tzero encodes.tmma
    encodes.tmmaf encodes.tmmag encodes.tmmas encodes.tld encodes.tst encodes.tmovr encodes.tmovw encodes.treef encodes.tstat encodes.tsetx
    encodes.taddx encodes.sopen encodes.sclose encodes.sbind encodes.sunbind encodes.sstat encodes.sbar encodes.cpy encodes.cpys encodes.cpypf
    encodes.klaunch encodes.vfork encodes.vjoin encodes.efork encodes.gid encodes.tqpush encodes.tqpushn encodes.tdone encodes.tqstat
    encodes.mimport encodes.mexport encodes.mrefine encodes.mcoarsen encodes.mrenum encodes.mstat encodes.mcolour encodes.mtrim encodes.mmigr
    encodes.mghost encodes.kproj encodes.kreset encodes.kstat encodes.srd encodes.swr encodes.srset encodes.srclr encodes.ctxsv encodes.ctxld
    encodes.tlbinv encodes.probe encodes.pgmig encodes.shkill encodes.trap encodes.brk encodes.slotStallRelease encodes.ulInterruptEntry
    encodes.vectorIssue encodes.recheckExecution encodes.recheckAgeExpiry encodes.laneGroupRemap encodes.matrixStep encodes.copyEngineTransfer
    encodes.copyCompletion encodes.scratchpadBankArbitration encodes.firstStageSave encodes.preemptionLanding encodes.pageWalk
    encodes.migrationCommit encodes.frameUnreadableReport encodes.doorbell encodes.taskTake encodes.readyPoolDispatch encodes.aging
    encodes.leafGroupCreate encodes.leafGroupEnded encodes.kernelComplete encodes.kernelAborted encodes.barrierMarkerFire
    encodes.continuationWalk encodes.engineCommandCompletion encodes.remapPush encodes.kstLinkPublish encodes.shroudKill
    encodes.uncorrectableError encodes.hostInboundAccess encodes.hostLinkDown encodes.cxlPortFailure encodes.cxlPoisonReceived
    encodes.flitReceive encodes.nakReceive encodes.linkTrainingResult encodes.linkTrainingTimeout encodes.laneLost encodes.errorResponseReceived
    encodes.clocksStable encodes.memtrainEnd encodes.mctlFreeze encodes.mctlCapt encodes.mctlRerun encodes.fwlaunch encodes.pbudgetWrite
    encodes.powerArbitration encodes.linken encodes.errorRecordFree encodes.mgmtRegisterWrite encodes.spbaseWrite encodes.vlWrite
    encodes.vcfgWrite encodes.vlcapWrite encodes.accrangeWrite encodes.reefctlClr encodes.agelimitWrite encodes.contextIdWrite
    encodes.accessPerformed encodes.neighBucketStreamFetch encodes.ret encodes.fenceSv encodes.fenceVs encodes.fenceVv encodes.erdv encodes.gexit
    encodes.eret encodes.uiret encodes.idle encodes.suspectScoreDecay encodes.powerOn encodes.perst encodes.selftestEnd encodes.mctlReset
    encodes.mctlBoot encodes.mctlHint encodes.freezeHold encodes.vadd encodes.vsub encodes.vmul encodes.vmulh encodes.vmulhz encodes.vdiv
    encodes.vmin encodes.vmax encodes.vminz encodes.vmaxz encodes.vand encodes.vor encodes.vxor encodes.vshl encodes.vshr encodes.vsar
    encodes.vadds encodes.vsubs encodes.vabs encodes.vwadd encodes.vwmul encodes.vnshr encodes.vdot4 encodes.vaddVs encodes.vsubVs encodes.vmulVs
    encodes.vmulhVs encodes.vmulhzVs encodes.vdivVs encodes.vminVs encodes.vmaxVs encodes.vminzVs encodes.vmaxzVs encodes.vandVs encodes.vorVs
    encodes.vxorVs encodes.vshlVs encodes.vshrVs encodes.vsarVs encodes.vaddsVs encodes.vsubsVs encodes.vwaddVs encodes.vwmulVs encodes.vnshrVs
    encodes.vdot4Vs encodes.vfadd encodes.vfsub encodes.vfmul encodes.vfdiv encodes.vfsqrt encodes.vfma encodes.vfnms encodes.vfmin encodes.vfmax
    encodes.vfcvt encodes.vfcvtSat encodes.vfrec encodes.vfrsq encodes.vfexp2 encodes.vfclass encodes.vfaddVs encodes.vfsubVs encodes.vfmulVs
    encodes.vfdivVs encodes.vfmaVs encodes.vfnmsVs encodes.vfminVs encodes.vfmaxVs encodes.mand encodes.mor encodes.mxor encodes.mandn
    encodes.mpopc encodes.mffs encodes.msbf encodes.mset encodes.mfromv encodes.mtov encodes.viota encodes.vslup encodes.vsldn encodes.vperm
    encodes.vcomp encodes.vexpd encodes.vmerge encodes.vbcast encodes.vextr encodes.vins encodes.vredsum encodes.vredmax encodes.vredmin
    encodes.vfredo encodes.vfredu encodes.vfredmax encodes.vscan encodes.vprune48

/-- The four bytes of a word, lowest first, make the word again (00_scope R3). -/
theorem wordOfBytes_bytesOfWord {w : Nat} (h : w < 2 ^ 32) :
    wordOfBytes (BitVec.ofNat 8 w) (BitVec.ofNat 8 (w / 0x100)) (BitVec.ofNat 8 (w / 0x10000)) (BitVec.ofNat 8 (w / 0x1000000)) = w := by
  simp only [wordOfBytes, BitVec.toNat_ofNat]
  omega

/-- Four bytes whose number decodes are decoded to its instruction, and the bytes behind them are left. The cases are those of decode: its equation for four
bytes has the kernel evaluate a symbolic word. -/
theorem decode_ok {b0 b1 b2 b3 : Byte} {i : Instr} (rest : List Byte) (h : decodeWord (wordOfBytes b0 b1 b2 b3) = .ok i) :
    decode (b0 :: b1 :: b2 :: b3 :: rest) = .ok (i, rest) := by
  generalize hl : b0 :: b1 :: b2 :: b3 :: rest = l
  fun_cases decode l with
  | case1 _ _ _ _ _ j hj =>
    cases hl
    have same : j = i := Except.ok.inj (hj.symm.trans h)
    rw [same]
  | case2 _ _ _ _ _ e he =>
    cases hl
    exact absurd (he.symm.trans h) nofun
  | case3 _ short => exact (short _ _ _ _ _ hl.symm).elim

/-- So are the bytes of a word that decodes. -/
theorem decode_bytesOfWord {w : Nat} {i : Instr} (rest : List Byte) (h : w < 2 ^ 32) (hw : decodeWord w = .ok i) :
    decode (bytesOfWord w ++ rest) = .ok (i, rest) := by
  have word := wordOfBytes_bytesOfWord h
  exact decode_ok rest (by rw [word]; exact hw)

end Sys2Proof.Proofs

namespace Sys2Proof.Settled

open Sys2Proof.Machine Sys2Proof.Proofs

/-- Settles O57: each constructor's word decodes to it, and its bytes give the word back. -/
theorem decodeEncodeAgree : Obligations.DecodeEncodeAgree := by
  intro i w rest henc wf
  obtain ⟨hdec, hlt⟩ := encodes_every i w henc wf
  exact ⟨hlt, decode_bytesOfWord rest hlt hdec⟩

end Sys2Proof.Settled

/-! System registers (03_encoding R57; 10_context R271): the list of registers beside the tables over their numbers, and what SRD, SWR, SRSET and
SRCLR do with a register that is as the tables say. -/

namespace Sys2Proof.Proofs

open Sys2Proof.Machine Sys2Proof.Laws

/-- What a register of the list says of itself is what the model's tables over register numbers say of its number, in every state: levels, RW bits,
value, admitted values, write, and W1C and WO fields. For most registers each part is so by definition. -/
structure Tabled (g : SysReg) : Prop where
  readLevel : sysReadLevel g.num.toNat = some g.readLevel := by rfl
  writeLevel : sysWriteLevel g.num.toNat = some g.writeLevel := by rfl
  rw : sysRwMask g.num.toNat = g.rw := by rfl
  get : ∀ s : State, sysRead s s.cur g.num.toNat = g.get s := by exact fun _ => rfl
  ok : ∀ (s : State) (v : Word), sysValueOk s s.cur g.num.toNat v = true ↔ g.ok s v := by exact fun _ _ => iff_of_true rfl trivial
  set : ∀ (s : State) (v : Word), sysSet s s.cur g.num.toNat v = g.set s v := by exact fun _ _ => rfl
  act : ∀ (s : State) (a : Word), sysAct s s.cur g.num.toNat a = g.act s a := by exact fun _ _ => rfl
  actCur : ∀ (s : State) (a : Word), (g.act s a).cur = s.cur := by exact fun _ _ => rfl

/-- VCFG takes a width code up to 5 and a source kind that is not reserved (05_vector R119). -/
theorem sysValueOk_vcfg (s : State) (q : Nat) (v : Word) : sysValueOk s q 0x011 v = true ↔ wbits v 2 0 ≤ 5 ∧ wbits v 13 12 ≠ 3 := by
  simp [sysValueOk, wbits]

/-- VLCAP takes four lengths, as far as the core's lane groups go (05_vector R121). -/
theorem sysValueOk_vlcap (s : State) (q : Nat) (v : Word) : sysValueOk s q 0x013 v = true ↔
    (v = 2048 ∨ v = 4096 ∨ v = 8192 ∨ v = 16384) ∧ v.toNat ≤ capLimit (s.core (coreOf q)) := by
  simp [sysValueOk, or_assoc]

/-- ACCBASE takes a row from which the range stays within the 128 rows (07_tile R167). -/
theorem sysValueOk_accBase (s : State) (q : Nat) (v : Word) : sysValueOk s q 0x040 v = true ↔ v.toNat + (s.slot q).accLim.toNat ≤ 128 := by
  simp [sysValueOk]

/-- ACCLIM takes a number of rows that stays within them too. -/
theorem sysValueOk_accLim (s : State) (q : Nat) (v : Word) : sysValueOk s q 0x041 v = true ↔ (s.slot q).accBase.toNat + v.toNat ≤ 128 := by
  simp [sysValueOk]

/-- REEFTH takes 1 to 60 (07_tile R167). -/
theorem sysValueOk_reefTh (s : State) (q : Nat) (v : Word) : sysValueOk s q 0x042 v = true ↔ 1 ≤ v.toNat ∧ v.toNat ≤ 60 := by
  simp [sysValueOk]

/-- AGELIMIT takes zero, or 1,024 and above (14_queue R336). -/
theorem sysValueOk_ageLimit (s : State) (q : Nat) (v : Word) : sysValueOk s q 0x200 v = true ↔ v = 0 ∨ 1024 ≤ v.toNat := by
  simp [sysValueOk]

/-- UISTAT's fields in the order of their bits (04_sequencer R112). -/
theorem uistat_word_eq (u : UiStat) :
    u.word = BitVec.ofNat 64 (u.en.toNat + u.act.toNat * 2 + u.cause.toNat * 2 ^ 8 + u.preef.toNat * 2 ^ 16 + u.pcopy.toNat * 2 ^ 17) := by
  rw [UiStat.word]
  congr 1
  ring

/-- REEFCTL's fields in the order of their bits (07_tile R168). -/
theorem reefctlWord_eq (s : State) (q : Nat) : reefctlWord s q =
    BitVec.ofNat 64 ((s.slot q).reefTrap.toNat + (decide ((s.slot q).shtag ∈ (s.core (coreOf q)).reefOvf)).toNat * 2 +
      (s.core (coreOf q)).reefs % 64 * 2 ^ 8 + ((s.core (coreOf q)).reefLog.filter fun e => e.2.tag == (s.slot q).shtag).length * 2 ^ 16) := by
  simp only [reefctlWord, List.contains_eq_mem]
  congr 1
  ring

/-- TRAPCAUSE's fields in the order of their bits (10_context R270). -/
theorem trapCauseWord_eq (x : Slot) : trapCauseWord x =
    BitVec.ofNat 64 (x.trapCause.toNat + x.trapNested.toNat * 2 ^ 8 + x.trapQueue.toNat * 2 ^ 9 +
      (if x.mode = .handler ∧ x.request.isSome then 2 ^ 10 else 0) + x.trapFrlost.toNat * 2 ^ 11) := by
  have pending : (x.mode == .handler && x.request.isSome).toNat * 2 ^ 10 = if x.mode = .handler ∧ x.request.isSome then 2 ^ 10 else 0 := by
    split <;> simp_all
  rw [trapCauseWord, pending]
  exact congrArg _ (by ring)

/-- REEFCTL's CLR empties the log of the context's tag and clears OVF, and OVF alone only clears OVF; after CLR it changes nothing (07_tile R168). -/
theorem sysAct_reefctl (s : State) (q : Nat) (a : Word) : sysAct s q 0x043 a =
    if a.getLsbD 2 then s.setCore (coreOf q) ((s.core (coreOf q)).reefsBut (s.slot q).shtag true)
    else if a.getLsbD 1 then s.setCore (coreOf q) ((s.core (coreOf q)).reefsBut (s.slot q).shtag false) else s := by
  simp only [sysAct, reefClear, Core.reefsBut]
  split
  · split
    · simp [State.setCore, State.core]
    · rfl
  · rfl

/-- Every system register with RW fields is as the tables say. -/
theorem tabled_of_mem {g : SysReg} (hg : g ∈ systemRegisters) : Tabled g := by
  revert g
  simp only [systemRegisters, List.forall_mem_cons]
  refine ⟨{}, {}, {}, { ok := fun s => sysValueOk_vcfg s _ }, {}, { ok := fun s => sysValueOk_vlcap s _ }, {}, {}, {}, {}, {},
    { get := fun _ => uistat_word_eq _ }, { ok := fun s => sysValueOk_accBase s _ }, { ok := fun s => sysValueOk_accLim s _ },
    { ok := fun s => sysValueOk_reefTh s _ }, { get := fun s => reefctlWord_eq s _, act := fun s => sysAct_reefctl s _, actCur := ?reefctl },
    { get := fun _ => trapCauseWord_eq _ }, {}, {}, {}, {}, {}, {}, {}, {}, {}, {}, { ok := fun s => sysValueOk_ageLimit s _ }, nofun⟩
  case reefctl =>
    intro s a
    dsimp only
    split
    · rfl
    · split <;> rfl

/-- The numbers that context mode keeps from being written (10_context R271). -/
theorem contextOnly_iff (n : BitVec 12) : contextOnly n.toNat = true ↔ n ∈ [0x110, 0x111, 0x113] := by
  simp [contextOnly, BitVec.toNat_eq, or_assoc]

/-- The three writes are one operation with a function of old field and source, W1C and WO fields acting under SWR alone. -/
theorem exec_writes {i : Instr} {a : BitVec 6} {n : BitVec 12} (hi : i ∈ [Instr.swr a n, .srset a n, .srclr a n]) (s : State) :
    ∃ f swr, exec i s = .next (sysWriteWith s (encode i) n.toNat a f swr) := by
  simp only [List.mem_cons, List.not_mem_nil, or_false] at hi
  rcases hi with rfl | rfl | rfl <;> exact ⟨_, _, rfl⟩

/-- An instruction that completes in a state u passes into it. -/
theorem passesInto_of_complete {i : Instr} {s u : State} (h : exec i s = .next (u.complete s.cur)) : PassesInto i s u := by
  refine ⟨_, h, onlySlot_complete u _, ?_, ?_, ?_⟩ <;> rw [State.slot_complete]
  · rfl
  · exact fun _ _ => rfl
  · exact ⟨rfl, rfl, rfl⟩

section access

variable {g : SysReg} (hg : Tabled g) {s : State} {a : BitVec 6} {w : Option Nat} {f : Word → Word → Word} {swr : Bool}
include hg

/-- A write below the register's level traps with cause 0x02. -/
theorem sysWriteWith_level (h : levelCode s.me.level < levelCode g.writeLevel) : sysWriteWith s w g.num.toNat a f swr = trapWord s s.cur 0x02 w := by
  simp only [sysWriteWith, hg.writeLevel]
  exact needLevel_trap _ _ h

/-- At its level, with a clean source, a write comes to the checks of mode, waits and value. -/
theorem sysWriteWith_clean (h : levelCode g.writeLevel ≤ levelCode s.me.level) (hs : s.me.Clean [a.toNat]) :
    sysWriteWith s w g.num.toNat a f swr =
      if contextOnly g.num.toNat && s.me.mode == .context then trapWord s s.cur 0x01 w
      else if sysWaits s s.cur g.num.toNat true then sysStall s s.cur g.num.toNat
      else
        let v := f (g.get s) (s.me.val a.toNat) &&& g.rw
        if sysValueOk s s.cur g.num.toNat v then (g.set (if swr then g.act s (s.me.val a.toNat) else s) v).complete s.cur
        else trapWord s s.cur 0x01 w := by
  have effect (v : Word) : sysSet (if swr then g.act s (s.me.val a.toNat) else s) s.cur g.num.toNat v =
      g.set (if swr then g.act s (s.me.val a.toNat) else s) v := by
    rw [← hg.set]
    split
    · rw [hg.actCur]
    · rfl
  rw [← funext effect]
  simp only [sysWriteWith, hg.writeLevel, ← hg.act, ← hg.get, ← hg.rw]
  rw [needLevel_of _ _ h, whenReady_clean _ hs, unlessPoisoned_of_clean _ hs]
  rfl

/-- In context mode a write of a register that it may not write traps with cause 0x01 (10_context R271). -/
theorem sysWriteWith_context (h : levelCode g.writeLevel ≤ levelCode s.me.level) (hs : s.me.Clean [a.toNat])
    (hn : g.num ∈ [0x110, 0x111, 0x113]) (hm : s.me.mode = .context) : sysWriteWith s w g.num.toNat a f swr = trapWord s s.cur 0x01 w := by
  have forbidden : (contextOnly g.num.toNat && s.me.mode == .context) = true := by simp [(contextOnly_iff _).mpr hn, hm]
  rw [sysWriteWith_clean hg h hs, if_pos forbidden]

/-- Where neither the mode nor a wait is against it, a write puts a value that may stand and completes, and traps with cause 0x01 on any other. -/
theorem writesSys_of_open {i : Instr} (hi : exec i s = .next (sysWriteWith s (encode i) g.num.toNat a f swr))
    (h : levelCode g.writeLevel ≤ levelCode s.me.level) (hs : s.me.Clean [a.toNat])
    (hn : g.num ∉ [0x110, 0x111, 0x113] ∨ s.me.mode = .handler) (hw : sysWaits s s.cur g.num.toNat true = false)
    {u : State} (hu : (if swr then g.act s (s.me.val a.toNat) else s) = u) :
    WritesSys i s g (f (g.get s) (s.me.val a.toNat) &&& g.rw) (g.set u (f (g.get s) (s.me.val a.toNat) &&& g.rw)) := by
  have allowed : (contextOnly g.num.toNat && s.me.mode == .context) = false := by
    rcases hn with hn | hm
    · simp [Bool.eq_false_iff.mpr (mt (contextOnly_iff g.num).mp hn)]
    · simp [hm]
  rw [sysWriteWith_clean hg h hs, allowed, hw, hu] at hi
  simp only [Bool.false_eq_true, if_false] at hi
  constructor
  · intro hok
    rw [if_pos ((hg.ok _ _).mpr hok)] at hi
    exact passesInto_of_complete hi
  · intro hok
    rw [if_neg (mt (hg.ok _ _).mp hok)] at hi
    exact hi

/-- A read below the register's level traps with cause 0x02. -/
theorem srd_level (h : levelCode s.me.level < levelCode g.readLevel) :
    exec (.srd a g.num) s = .next (trapWord s s.cur 0x02 (encode (.srd a g.num))) := by
  show execSrd a g.num s = _
  simp only [execSrd, hg.readLevel]
  exact congrArg _ (needLevel_trap _ _ h)

/-- A read at its level that need not wait puts the register's value into sd. -/
theorem srd_loads (h : levelCode g.readLevel ≤ levelCode s.me.level) (hd : (s.me.sreg a.toNat).pend = .ready)
    (hw : sysWaits s s.cur g.num.toNat false = false) : Loads (.srd a g.num) s a.toNat (g.get s) none := by
  refine ⟨s.finish s.cur a.toNat (g.get s) none, ?_, finish_spec _ _ _ _⟩
  show execSrd a g.num s = _
  simp only [execSrd, hg.readLevel, hg.get, hw]
  rw [needLevel_of _ _ h, whenReady_ready _ (pendingAmong_cons hd (List.forall_mem_nil _))]
  rfl

end access

end Sys2Proof.Proofs

namespace Sys2Proof.Settled

open Sys2Proof.Machine Sys2Proof.Proofs

/-- Settles O20: each register of the list is as the model's tables say, and of such a register the clauses hold one by one. -/
theorem systemRegisters : Obligations.SystemRegisters := by
  intro g hmem s a
  have hg := tabled_of_mem hmem
  refine ⟨srd_loads hg, srd_level hg, ?_, fun hlevel hs => ⟨?_, ?_⟩⟩
  · intro hlevel i hi
    obtain ⟨f, swr, he⟩ := exec_writes hi s
    rw [he, sysWriteWith_level hg hlevel]
  · rintro ⟨hn, hm⟩ i hi
    obtain ⟨f, swr, he⟩ := exec_writes hi s
    rw [he, sysWriteWith_context hg hlevel hs hn hm]
  · intro hn hw
    exact ⟨writesSys_of_open hg (f := fun _ v => v) (swr := true) rfl hlevel hs hn hw rfl,
      writesSys_of_open hg (f := fun o v => o ||| v) (swr := false) rfl hlevel hs hn hw rfl,
      writesSys_of_open hg (f := fun o v => o &&& ~~~v) (swr := false) rfl hlevel hs hn hw rfl⟩

end Sys2Proof.Settled

/-! Decode of given words (03_encoding R61 to R63). -/

namespace Sys2Proof.Proofs

open Sys2Proof.Machine Sys2Proof.Laws

/-- The word w decodes to the instruction i, as a question that evaluation answers. -/
theorem decodeWord_ok_iff {w : Nat} {i : Instr} : decodeWord w = .ok i ↔ (decodeWord w).toOption = some i := by
  cases decodeWord w with
  | error e => simp [Except.toOption]
  | ok j => simp [Except.toOption]

/-- The word w is rejected, as a question that evaluation answers. -/
theorem decodeWord_error_iff {w : Nat} : (∃ e, decodeWord w = .error e) ↔ (decodeWord w).toOption = none := by
  cases decodeWord w with
  | error e => simp [Except.toOption]
  | ok j => simp [Except.toOption]

end Sys2Proof.Proofs

namespace Sys2Proof.Settled

open Sys2Proof.Machine Sys2Proof.Proofs

/-- Settles O56, by running the decoder on each of the words. -/
theorem decodedWords : Obligations.DecodedWords := by
  unfold Obligations.DecodedWords
  simp only [decodeWord_ok_iff, decodeWord_error_iff]
  decide +kernel

end Sys2Proof.Settled

/-! What a step runs (03_encoding R62; 04_sequencer R99, R106): the fetch of a word in plain memory, the meanings, which all go on, and the events. -/

namespace Sys2Proof.Proofs

open Sys2Proof.Machine Sys2Proof.Laws

/-- With no capture on, inbound data leave the state alone (21_device R441). -/
theorem captureInbound_off {s : State} (h : s.mgmt.capt = false) (source pa : Nat) (wr : Bool) (data : List Byte) :
    captureInbound s source pa wr data = s :=
  List.foldl_fixed' (fun _ => by simp [capture, h]) _

/-- With no replay run on, the record has no next entry (21_device R442). -/
theorem replayEntry_off {s : State} (h : s.mgmt.rerun = false) : replayEntry s = none := by
  simp [replayEntry, h]

/-- With no replay run on, the record answers no read of one byte or more (21_device R442). -/
theorem replayInbound_off {s : State} (h : s.mgmt.rerun = false) (source pa : Nat) {n : Nat} (hn : 0 < n) : replayInbound s source pa n = none := by
  obtain ⟨m, hm⟩ : ∃ m, (n + 31) / 32 = m + 1 := ⟨(n + 31) / 32 - 1, by omega⟩
  rw [replayInbound, hm, List.range_succ_eq_map, List.foldl_cons, Option.bind_some, replayEntry_off h]
  exact List.foldl_fixed' (fun _ => rfl) _

/-- A read that no capture and no replay run records leaves the state alone. -/
theorem cxlAnswer_unrecorded {s : State} {key n : Nat} (hn : 0 < n) (h : s.unrecorded key) : cxlAnswer s key n = s := by
  unfold cxlAnswer
  split
  · next hc =>
    obtain ⟨hcapt, hrerun⟩ := h hc.1
    simp [replayInbound_off hrerun _ _ hn, captureInbound_off hcapt]
  · rfl

/-- A read of ordinary memory gives its bytes and their poison, and leaves the state alone. -/
theorem readKey_ordinary {s : State} {key n : Nat} (hn : 0 < n) (h : Ordinary s key n) :
    readKey s key n = ⟨physRead s key n, rangePoison s key n, s⟩ := by
  obtain ⟨hplace, ⟨-, hrec⟩, hnotify⟩ := h
  have remote : isRemote key = false ∧ isWindow key = false := by
    rcases hplace with hp | ⟨-, hw, hr⟩
    · have hk : 2 ^ 52 ≤ key := of_decide_eq_true hp
      have hpad : Config.padKey = 2 ^ 52 := rfl
      constructor <;> simp [isRemote, isWindow, hpad] <;> omega
    · exact ⟨hr, hw⟩
  have notify : isNotify s key = false := hnotify 0 hn
  simp [readKey, remote, notify, cxlAnswer_unrecorded hn hrec]

/-- An access that stays in one granule is one piece. -/
theorem spans_inside {va n : Nat} (hn : 0 < n) (h : va % 4096 + n ≤ 4096) : spans va n = [(va, n)] := by
  have piece : min (va / 4096 * 4096 + 4096) (va + n) - va = n := by omega
  simp [spans, granuleAddrs_aligned hn h, piece]

/-- A slot that is to run a word has nothing before it (10_context R264). -/
theorem boundary_of_fetchesWord {u : State} {q w key : Nat} (h : FetchesWord u q w key) : boundary u q = none := by
  simp [boundary, frozenUnit, h.busy, h.thawed, h.noTrap, h.noLanding, h.leaving, h.noInterrupt]

/-- It fetches the four bytes of the word, unpoisoned, and its fetch leaves the state alone (04_sequencer R99). -/
theorem fetchBytes_of_fetchesWord {u : State} {q w key : Nat} (h : FetchesWord u q w key) :
    fetchBytes u q = .ok ⟨physRead u key 4, none, u⟩ := by
  obtain ⟨hit, hcheck, rfl, hpage⟩ := h.passes
  have page : hit.poisonIn u 4 = none := by simp [Hit.poisonIn, hpage, h.clean]
  simp [fetchBytes, probeRange_one (by decide) h.inside hcheck, spans_inside (by decide) h.inside, hcheck, h.cached,
    readKey_ordinary (by decide) h.memory, page, lowerTag]

/-- Its move runs those bytes. -/
theorem slotMove_of_fetchesWord {u : State} {q w key : Nat} (h : FetchesWord u q w key) : slotMove u q = runBytes u q (physRead u key 4) := by
  simp [slotMove, boundary_of_fetchesWord h, fetchRun, fetchBytes_of_fetchesWord h, h.held]

/-- The bytes run as the slot's decoder reads their number. -/
theorem leNat_of_fetchesWord {u : State} {q w key : Nat} (h : FetchesWord u q w key) : leNat (physRead u key 4) = w := h.word

/-- A step whose agenda names a slot that is to run a word runs what the slot's decoder reads from it; where that is nothing, it traps with cause
0x01 (03_encoding R62). -/
theorem step_of_fetchesWord {s u : State} {q w key : Nat} {rest : List Move} (ha : s.agenda = .slot q :: rest) (hu : u = { s with agenda := rest })
    (h : FetchesWord u q w key) :
    (∀ r, (decodeAt (u.slot q) w).2 = .ok r → step s = afterMove s (exec r.toInstr { u with cur := q })) ∧
    ∀ e, (decodeAt (u.slot q) w).2 = .error e → step s = afterMove s (.next (trapWord u q 0x01 (some (decodeAt (u.slot q) w).1))) := by
  have move : step s = afterMove s (runBytes u q (physRead u key 4)) := by
    rw [← slotMove_of_fetchesWord h, hu]
    simp only [step, stepMove, ha, runMove]
  rw [move]
  constructor
  · intro r hr
    simp only [runBytes, leNat_of_fetchesWord h, hr, runRow]
  · intro e he
    simp only [runBytes, leNat_of_fetchesWord h, he]

/-- Outside a REP frame the decoder reads the word itself (04_sequencer R107). -/
theorem decodeAt_outside {x : Slot} (h : x.OutsideRep) (w : Nat) : decodeAt x w = (w, decodeToRow w) := by
  unfold decodeAt
  split
  · next e es he => exact if_neg (h e es he)
  · rfl

/-- Inside a REP frame it reads the offset word (04_sequencer R106). -/
theorem decodeAt_inside {x : Slot} {e : LoopEntry} {es : List LoopEntry} (he : x.loops = e :: es)
    (h : e.kind = 2 ∧ e.start.toNat ≤ x.pc.toNat ∧ x.pc.toNat ≤ e.endAddr.toNat) (w : Nat) : decodeAt x w = decodeOffset w e.j e.vstr e.sstr := by
  simp only [decodeAt, he]
  exact if_pos h

/-- A word that decodes has the row of its instruction. -/
theorem decodeToRow_of_ok {w : Nat} {i : Instr} (h : decodeWord w = .ok i) : ∃ r, decodeToRow w = .ok r ∧ r.toInstr = i := by
  unfold decodeWord at h
  split at h
  · next r hr => exact ⟨r, hr, Except.ok.inj h⟩
  · cases h

/-- A word that does not decode has no row. -/
theorem decodeToRow_of_error {w : Nat} {e : DecodeError} (h : decodeWord w = .error e) : decodeToRow w = .error e := by
  unfold decodeWord at h
  split at h
  · cases h
  · next e' he => rw [he, Except.error.inj h]

/-- What holds of O58 for slots, outside a REP frame: the step runs what the word decodes to, or traps. -/
theorem step_runs_word {s u : State} {q w key : Nat} {rest : List Move} (ha : s.agenda = .slot q :: rest) (hu : u = { s with agenda := rest })
    (h : FetchesWord u q w key) (out : (u.slot q).OutsideRep) :
    (∀ i, decodeWord w = .ok i → step s = afterMove s (exec i { u with cur := q })) ∧
    ∀ e, decodeWord w = .error e → step s = afterMove s (.next (trapWord u q 0x01 (some w))) := by
  obtain ⟨runs, traps⟩ := step_of_fetchesWord ha hu h
  rw [decodeAt_outside out] at runs traps
  constructor
  · intro i hi
    obtain ⟨r, hr, rfl⟩ := decodeToRow_of_ok hi
    exact runs r hr
  · intro e he
    exact traps e (decodeToRow_of_error he)

/-- What holds of O58 for slots, inside a REP frame: the same of the offset word. -/
theorem step_runs_offset_word {s u : State} {q w key : Nat} {rest : List Move} (ha : s.agenda = .slot q :: rest) (hu : u = { s with agenda := rest })
    (h : FetchesWord u q w key) {e : LoopEntry} {es : List LoopEntry} (he : (u.slot q).loops = e :: es)
    (inside : e.kind = 2 ∧ e.start.toNat ≤ (u.slot q).pc.toNat ∧ (u.slot q).pc.toNat ≤ e.endAddr.toNat) :
    (∀ r, (decodeOffset w e.j e.vstr e.sstr).2 = .ok r → step s = afterMove s (exec r.toInstr { u with cur := q })) ∧
    ∀ x, (decodeOffset w e.j e.vstr e.sstr).2 = .error x →
      step s = afterMove s (.next (trapWord u q 0x01 (some (decodeOffset w e.j e.vstr e.sstr).1))) := by
  have both := step_of_fetchesWord ha hu h
  rwa [decodeAt_inside he inside] at both

/-- Every meaning goes on: no instruction and no event stops the device or is refused (00_scope R1). -/
theorem exec_next (i : Instr) (s : State) : ∃ t, exec i s = .next t := by
  cases i with
  | wait l xs c t =>
    show ∃ t', execWait l xs c t s = .next t'
    unfold execWait
    dsimp only
    split <;> exact ⟨_, rfl⟩
  | fenceVv =>
    show ∃ t, execFenceVv s = .next t
    unfold execFenceVv
    dsimp only
    split
    · exact ⟨_, rfl⟩
    · split <;> exact ⟨_, rfl⟩
  | _ => exact ⟨_, rfl⟩

/-- What a step makes of an event: the event when its operands are in range and nothing otherwise, and in either case what follows a move. -/
theorem step_of_event {s : State} {i : Instr} {rest : List Move} (ha : s.agenda = .unit i :: rest) (he : encode i = none) :
    step s = afterMove s (if wellFormed i then exec i { s with agenda := rest } else .next { s with agenda := rest }) := by
  simp only [step, stepMove, ha, runMove, unitMove, he]

/-- Outside a replay run nothing follows a move that leaves the ready pools alone. -/
theorem afterMove_next {s t : State} (hp : t.pool = s.pool) (hr : t.mgmt.rerun = false) : afterMove s (.next t) = .next t := by
  simp [afterMove, hp, hr]

/-- In a replay run the next recorded input follows it (21_device R442). -/
theorem afterMove_replay {s t : State} (hp : t.pool = s.pool) (hr : t.mgmt.rerun = true) : afterMove s (.next t) = .next (replayInput t) := by
  simp [afterMove, hp, hr]

/-- What holds of O58 for events: outside a replay run the step makes the event, or goes past it where its operands are out of range. -/
theorem step_makes_event {s : State} {i : Instr} {rest : List Move} (ha : s.agenda = .unit i :: rest) (he : encode i = none)
    (hr : s.mgmt.rerun = false) :
    step s = if wellFormed i then afterMove s (exec i { s with agenda := rest }) else .next { s with agenda := rest } := by
  rw [step_of_event ha he]
  split
  · rfl
  · exact afterMove_next rfl hr

/-- A replay run at the start of a record of one entry: poison from a CXL expander within a granule, which the run follows by going past it. The agenda
names a tile step of a core that there is not. -/
def replaying : State :=
  { State.reset with
    agenda := [.unit (.matrixStep 1024)], mem := writeLE (writeLE [] 8 1 3) 9 7 (2 ^ 17 + 2 ^ 24)
    mgmt := { Mgmt.reset with rerun := true, rplen := 64 } }

/-- Its run goes past the 64 bytes of the entry. -/
theorem replaying_follows : (replayInput { replaying with agenda := [] }).mgmt.rcur = 64 := by decide +kernel

end Sys2Proof.Proofs

namespace Sys2Proof.Settled

open Sys2Proof.Machine Sys2Proof.Proofs

/-- Refutes O58: a step also delivers the next recorded input of a replay run, and it does so after an event whose operands are out of range, where the
statement has it change the agenda alone. -/
theorem not_stepRunsDecoded : ¬ Obligations.StepRunsDecoded := by
  rintro ⟨-, event, -⟩
  have claimed : step replaying = .next { replaying with agenda := [] } := event replaying (.matrixStep 1024) [] rfl rfl
  have made : step replaying = .next (replayInput { replaying with agenda := [] }) :=
    (step_of_event rfl rfl).trans (afterMove_replay rfl rfl)
  have same : replayInput { replaying with agenda := [] } = { replaying with agenda := [] } := Host.Outcome.next.inj (made.symm.trans claimed)
  have moved := replaying_follows
  rw [same] at moved
  exact absurd moved (by decide)

end Sys2Proof.Settled

/-! The values of the integer instructions (04_sequencer R83 to R86; 03_encoding R58 to R61): the model's operations against the statement's. -/

namespace Sys2Proof.Proofs

open Sys2Proof.Machine

/-- An instruction that is a two-operand operation of the model gives what the operation does. -/
theorem binaryOp_of_alu2 {i : BitVec 6 → BitVec 6 → BitVec 6 → Instr} {f g : Word → Word → Word}
    (h : ∀ d a b s, exec (i d a b) s = next (alu2 s d a b f)) (hv : ∀ x y, f x y = g x y) : BinaryOp i g :=
  fun d a b => writesReg_of_alu (h d a b) fun _ => hv _ _

/-- The same of one operand. -/
theorem unaryOp_of_alu1 {i : BitVec 6 → BitVec 6 → Instr} {f g : Word → Word}
    (h : ∀ d a s, exec (i d a) s = next (alu1 s d a f)) (hv : ∀ x, f x = g x) : UnaryOp i g :=
  fun d a => writesReg_of_alu (h d a) fun _ => hv _

/-- The shift amount of a register is its low six bits (04_sequencer R83). -/
theorem shAmount_eq (y : Word) : shAmount y = (y.setWidth 6).toNat := by simp [shAmount]

/-- The full signed product of two words. -/
theorem signExtend_mul_signExtend (x y : Word) : x.signExtend 128 * y.signExtend 128 = BitVec.ofInt 128 (x.toInt * y.toInt) := by
  rw [BitVec.ofInt_mul]
  rfl

/-- The high half of the signed product. -/
theorem ofInt_product_high (x y : Word) :
    BitVec.ofInt 64 (x.toInt * y.toInt / 2 ^ 64) = (x.signExtend 128 * y.signExtend 128).extractLsb' 64 64 := by
  rw [signExtend_mul_signExtend]
  generalize x.toInt * y.toInt = p
  apply BitVec.eq_of_toNat_eq
  simp only [BitVec.toNat_ofInt, BitVec.extractLsb'_toNat, Nat.shiftRight_eq_div_pow]
  omega

/-- The high half of the unsigned product. -/
theorem ofNat_product_high (x y : Word) :
    BitVec.ofNat 64 (x.toNat * y.toNat / 2 ^ 64) = (x.zeroExtend 128 * y.zeroExtend 128).extractLsb' 64 64 := by
  have product : x.zeroExtend 128 * y.zeroExtend 128 = BitVec.ofNat 128 (x.toNat * y.toNat) := by
    rw [BitVec.ofNat_mul, BitVec.ofNat_toNat, BitVec.ofNat_toNat]
  rw [product]
  generalize x.toNat * y.toNat = p
  apply BitVec.eq_of_toNat_eq
  simp only [BitVec.toNat_ofNat, BitVec.extractLsb'_toNat, Nat.shiftRight_eq_div_pow]
  omega

/-- Division of the model is that of two's complement words, with all ones for a zero divisor (04_sequencer R84). -/
theorem divSigned_eq (x y : Word) : divSigned x y = if y = 0 then BitVec.allOnes 64 else x.sdiv y := by
  unfold divSigned
  split
  · rfl
  · apply BitVec.eq_of_toInt_eq
    rw [BitVec.toInt_sdiv, BitVec.toInt_ofInt]

theorem divUnsigned_eq (x y : Word) : divUnsigned x y = if y = 0 then BitVec.allOnes 64 else x.udiv y := by
  unfold divUnsigned
  split
  · rfl
  · rw [← BitVec.toNat_udiv, BitVec.ofNat_toNat, BitVec.setWidth_eq]
    rfl

theorem remSigned_eq (x y : Word) : remSigned x y = if y = 0 then x else x.srem y := by
  unfold remSigned
  split
  · rfl
  · rw [← BitVec.toInt_srem, BitVec.ofInt_toInt]

theorem remUnsigned_eq (x y : Word) : remUnsigned x y = if y = 0 then x else x.umod y := by
  unfold remUnsigned
  split
  · rfl
  · rw [← BitVec.toNat_umod, BitVec.ofNat_toNat, BitVec.setWidth_eq]
    rfl

/-- The model's signed minimum and maximum compare by ≤, the statement's by <. -/
theorem min_signed_eq (x y : Word) : (if x.toInt ≤ y.toInt then x else y) = if x.slt y then x else y := by
  rcases lt_trichotomy x.toInt y.toInt with h | h | h
  · simp [BitVec.slt_iff_toInt_lt, h, h.le]
  · simp [BitVec.eq_of_toInt_eq h]
  · simp [BitVec.slt_iff_toInt_lt, h.not_ge, h.not_gt]

theorem max_signed_eq (x y : Word) : (if x.toInt ≤ y.toInt then y else x) = if x.slt y then y else x := by
  rcases lt_trichotomy x.toInt y.toInt with h | h | h
  · simp [BitVec.slt_iff_toInt_lt, h, h.le]
  · simp [BitVec.eq_of_toInt_eq h]
  · simp [BitVec.slt_iff_toInt_lt, h.not_ge, h.not_gt]

theorem min_unsigned_eq (x y : Word) : (if x.toNat ≤ y.toNat then x else y) = if x.ult y then x else y := by
  rcases lt_trichotomy x.toNat y.toNat with h | h | h
  · simp [BitVec.ult, h, h.le]
  · simp [BitVec.eq_of_toNat_eq h]
  · simp [BitVec.ult, h.not_ge, h.not_gt]

theorem max_unsigned_eq (x y : Word) : (if x.toNat ≤ y.toNat then y else x) = if x.ult y then y else x := by
  rcases lt_trichotomy x.toNat y.toNat with h | h | h
  · simp [BitVec.ult, h, h.le]
  · simp [BitVec.eq_of_toNat_eq h]
  · simp [BitVec.ult, h.not_ge, h.not_gt]

/-- A condition as a word. -/
theorem boolWord_decide (c : Prop) [Decidable c] : boolWord (decide c) = if c then 1 else 0 := by
  by_cases h : c <;> simp [boolWord, h]

theorem boolWord_slt (x y : Word) : boolWord (decide (x.toInt < y.toInt)) = if x.slt y then 1 else 0 := rfl

theorem boolWord_ult (x y : Word) : boolWord (decide (x.toNat < y.toNat)) = if x.ult y then 1 else 0 := rfl

/-- The count of leading zeros from bit n − 1 down, where bit k is the highest set one below n. -/
theorem zerosDown_top {x : Word} {k : Nat} (hk : x.getLsbD k = true) :
    ∀ n, k < n → (∀ j, k < j → j < n → x.getLsbD j = false) → zerosDown x n = n - 1 - k
  | n + 1, hn, h => by
    rcases Nat.lt_succ_iff_lt_or_eq.mp hn with hlt | rfl
    · simp only [zerosDown, h n hlt (Nat.lt_succ_self n)]
      rw [zerosDown_top hk n hlt fun j h1 h2 => h j h1 (by omega)]
      simp only [Bool.false_eq_true, if_false]
      omega
    · simp [zerosDown, hk]

/-- The highest set bit of a word that is not zero. -/
theorem getLsbD_log2 {x : Word} (h : x ≠ 0) : x.getLsbD x.toNat.log2 = true := by
  have hn : x.toNat ≠ 0 := fun e => h (BitVec.eq_of_toNat_eq e)
  exact Nat.testBit_log2 hn

theorem getLsbD_of_log2_lt {x : Word} {j : Nat} (h : x.toNat.log2 < j) : x.getLsbD j = false :=
  Nat.testBit_lt_two_pow (Nat.lt_of_lt_of_le Nat.lt_log2_self (Nat.pow_le_pow_right (by norm_num) h))

theorem clz_eq (x : Word) : BitVec.ofNat 64 (zerosDown x 64) = if x = 0 then 64 else BitVec.ofNat 64 (63 - x.toNat.log2) := by
  split
  next h => subst h; decide
  next h =>
    have top : x.toNat.log2 < 64 := by
      have hn : x.toNat ≠ 0 := fun e => h (BitVec.eq_of_toNat_eq e)
      exact (Nat.log2_lt hn).mpr x.isLt
    rw [zerosDown_top (getLsbD_log2 h) 64 top fun j hj _ => getLsbD_of_log2_lt hj]

/-- What the count of zeros upward from bit i finds: none of the counted bits is set, and the next one is unless all n are counted. -/
theorem zerosFrom_spec (x : Word) : ∀ n i, zerosFrom x i n ≤ n ∧ (∀ j, i ≤ j → j < i + zerosFrom x i n → x.getLsbD j = false) ∧
    (zerosFrom x i n < n → x.getLsbD (i + zerosFrom x i n) = true)
  | 0, i => by simp [zerosFrom]; omega
  | n + 1, i => by
    obtain ⟨hle, hz, ho⟩ := zerosFrom_spec x n (i + 1)
    by_cases hi : x.getLsbD i = true
    · simp [zerosFrom, hi]; omega
    · rw [Bool.not_eq_true] at hi
      simp only [zerosFrom, hi, Bool.false_eq_true, if_false]
      refine ⟨by omega, fun j h1 h2 => ?_, fun h => ?_⟩
      · rcases Nat.eq_or_lt_of_le h1 with rfl | h1
        · exact hi
        · exact hz j h1 (by omega)
      · rw [show i + (zerosFrom x (i + 1) n + 1) = i + 1 + zerosFrom x (i + 1) n by omega]
        exact ho (by omega)

/-- The trailing zeros of a word that is not zero end at its lowest set bit. -/
theorem ctz_spec {x : Word} (h : x ≠ 0) :
    x.getLsbD (BitVec.ofNat 64 (zerosFrom x 0 64)).toNat = true ∧
      ∀ j, j < (BitVec.ofNat 64 (zerosFrom x 0 64)).toNat → x.getLsbD j = false := by
  obtain ⟨hle, hz, ho⟩ := zerosFrom_spec x 64 0
  have hlt : zerosFrom x 0 64 < 64 := by
    refine lt_of_le_of_ne hle fun e => h (BitVec.eq_of_getLsbD_eq fun j hj => ?_)
    simpa using hz j (Nat.zero_le j) (by omega)
  have hn : (BitVec.ofNat 64 (zerosFrom x 0 64)).toNat = zerosFrom x 0 64 := by
    simp only [BitVec.toNat_ofNat]; omega
  rw [hn]
  exact ⟨by simpa using ho hlt, fun j hj => hz j (Nat.zero_le j) (by simpa using hj)⟩

theorem onesBelow_eq (x : Word) : ∀ n, onesBelow x n = (List.range n).countP fun j => x.getLsbD j
  | 0 => rfl
  | n + 1 => by
    rw [onesBelow, onesBelow_eq x n, List.range_succ, List.countP_append, List.countP_singleton]
    cases x.getLsbD n <;> rfl

/-- A byte of a number given by its bytes. -/
theorem leNat_byte : ∀ (bs : List Byte) (j : Nat), j < bs.length → leNat bs / 256 ^ j % 256 = (bs.getD j 0).toNat
  | [], j, h => absurd h (Nat.not_lt_zero j)
  | b :: bs, 0, _ => by have := b.isLt; simp only [leNat, pow_zero, Nat.div_one, List.getD_cons_zero]; omega
  | b :: bs, j + 1, h => by
    have hb : (b.toNat + 256 * leNat bs) / 256 = leNat bs := by have := b.isLt; omega
    rw [leNat, pow_succ, Nat.mul_comm (256 ^ j), ← Nat.div_div_eq_div_mul, hb, List.getD_cons_succ]
    exact leNat_byte bs j (by simpa using h)

/-- A byte of the little-endian bytes of a number. -/
theorem leBytes_getD : ∀ (n x j : Nat), j < n → (leBytes n x).getD j 0 = BitVec.ofNat 8 (x / 256 ^ j)
  | n + 1, x, 0, _ => by simp [leBytes]
  | n + 1, x, j + 1, h => by
    rw [leBytes, List.getD_cons_succ, leBytes_getD n (x / 256) j (by omega), Nat.div_div_eq_div_mul, pow_succ, Nat.mul_comm]

/-- BSWAP puts byte 7 − j at byte j. -/
theorem swapBytes_byte (x : Word) (j : Nat) (h : j < 8) :
    (swapBytes x).extractLsb' (8 * j) 8 = x.extractLsb' (8 * (7 - j)) 8 := by
  have rev : (leBytes 8 x.toNat).reverse.getD j 0 = BitVec.ofNat 8 (x.toNat / 256 ^ (7 - j)) := by
    rw [← leBytes_getD 8 _ _ (by omega : 7 - j < 8), List.getD_eq_getElem?_getD, List.getD_eq_getElem?_getD,
      List.getElem?_reverse (by simpa using h)]
    simp
  have lt : leNat (leBytes 8 x.toNat).reverse < 2 ^ 64 := by
    have := leNat_lt (leBytes 8 x.toNat).reverse
    simpa using this
  apply BitVec.eq_of_toNat_eq
  rw [BitVec.extractLsb'_toNat, BitVec.extractLsb'_toNat, Nat.shiftRight_eq_div_pow, Nat.shiftRight_eq_div_pow, swapBytes,
    BitVec.toNat_ofNat, Nat.mod_eq_of_lt lt, Nat.pow_mul, Nat.pow_mul]
  exact (leNat_byte _ j (by simpa using h)).trans (by rw [rev]; simp)

/-- Clearing the low twelve bits takes away the offset in the page (04_sequencer R86). -/
theorem clear_low_eq (x : Word) : x &&& ~~~0xFFF#64 = x - x % 0x1000 := by
  have shifted : x &&& ~~~0xFFF#64 = x >>> 12 <<< 12 := by
    refine BitVec.eq_of_getLsbD_eq fun i hi => ?_
    rw [BitVec.getLsbD_and, BitVec.getLsbD_not, BitVec.getLsbD_ofNat, BitVec.getLsbD_shiftLeft, BitVec.getLsbD_ushiftRight,
      show (4095 : Nat) = 2 ^ 12 - 1 from rfl, Nat.testBit_two_pow_sub_one]
    by_cases h : i < 12
    · simp [h, hi]
    · simp [h, hi, Nat.add_sub_cancel' (Nat.le_of_not_lt h)]
  rw [shifted]
  apply BitVec.eq_of_toNat_eq
  have page : (0x1000 : Word).toNat = 4096 := rfl
  have := x.isLt
  rw [BitVec.toNat_shiftLeft, BitVec.toNat_ushiftRight, Nat.shiftLeft_eq, Nat.shiftRight_eq_div_pow, BitVec.toNat_sub,
    BitVec.toNat_umod, page]
  omega

/-- A shift left by 14 or 12 is a product (04_sequencer R86). -/
theorem shiftLeft_14 (x : Word) : x <<< 14 = x * 0x4000 := BitVec.shiftLeft_eq_mul_twoPow x 14

theorem shiftLeft_12 (x : Word) : x <<< 12 = x * 0x1000 := BitVec.shiftLeft_eq_mul_twoPow x 12

/-- SEL writes the word that its old destination selects (04_sequencer R83). -/
theorem writesReg_sel (d a b : BitVec 6) : WritesReg (.sel d a b) d.toNat [a.toNat, b.toNat, d.toNat]
    fun x => if x.val d.toNat = 0 then x.val b.toNat else x.val a.toNat := by
  intro s hs hd
  have clean : s.me.Clean [d.toNat, a.toNat, b.toNat] := fun r hr => hs r (by simp at hr ⊢; tauto)
  have poison : ∀ r ∈ [a.toNat, b.toNat, d.toNat], s.me.poisonOf r = none := fun r hr => (hs r hr).2
  refine ⟨s.finish s.cur d.toNat _ none, ?_, finish_spec _ _ _ _⟩
  have run : exec (.sel d a b) s = next (s.finish s.cur d.toNat (s.me.val (if s.me.val d.toNat ≠ 0 then a.toNat else b.toNat)) none) := by
    have hd' : s.me.poisonOf d.toNat = none := poison _ (by simp)
    have hr : s.me.poisonOf (if s.me.val d.toNat ≠ 0 then a.toNat else b.toNat) = none := poison _ (by split <;> simp)
    change next (whenReady s s.cur _ (s.finish s.cur d.toNat (s.me.val _) (match s.me.poisonOf d.toNat with
      | some t => some t
      | none => s.me.poisonOf _))) = _
    rw [whenReady_clean _ clean, hd']
    exact congrArg (fun p => next (s.finish s.cur d.toNat _ p)) hr
  rw [run]
  split <;> simp_all

end Sys2Proof.Proofs

namespace Sys2Proof.Settled

open Sys2Proof.Machine Sys2Proof.Proofs

/-- Settles O1: every one is an operation of the model on its sources, whose value is that of the table. -/
theorem integerResults : Obligations.IntegerResults := by
  have run {i : BitVec 6 → BitVec 6 → BitVec 6 → Instr} {f : Word → Word → Word}
    (h : ∀ d a b s, exec (i d a b) s = next (alu2 s d a b f)) : BinaryOp i f := binaryOp_of_alu2 h fun _ _ => rfl
  refine ⟨⟨run fun _ _ _ _ => rfl, run fun _ _ _ _ => rfl, run fun _ _ _ _ => rfl, run fun _ _ _ _ => rfl, run fun _ _ _ _ => rfl, run fun _ _ _ _ => rfl, 
    binaryOp_of_alu2 (fun _ _ _ _ => rfl) fun x y => by rw [shAmount_eq]; rfl,
    binaryOp_of_alu2 (fun _ _ _ _ => rfl) fun x y => by rw [shAmount_eq]; rfl,
    binaryOp_of_alu2 (fun _ _ _ _ => rfl) fun x y => by rw [shAmount_eq]; rfl,
    run fun _ _ _ _ => rfl,
    binaryOp_of_alu2 (fun _ _ _ _ => rfl) ofInt_product_high, binaryOp_of_alu2 (fun _ _ _ _ => rfl) ofNat_product_high,
    binaryOp_of_alu2 (fun _ _ _ _ => rfl) divSigned_eq, binaryOp_of_alu2 (fun _ _ _ _ => rfl) divUnsigned_eq,
    binaryOp_of_alu2 (fun _ _ _ _ => rfl) remSigned_eq, binaryOp_of_alu2 (fun _ _ _ _ => rfl) remUnsigned_eq,
    binaryOp_of_alu2 (fun _ _ _ _ => rfl) min_signed_eq, binaryOp_of_alu2 (fun _ _ _ _ => rfl) max_signed_eq,
    binaryOp_of_alu2 (fun _ _ _ _ => rfl) min_unsigned_eq, binaryOp_of_alu2 (fun _ _ _ _ => rfl) max_unsigned_eq,
    binaryOp_of_alu2 (fun _ _ _ _ => rfl) fun x y => boolWord_decide _,
    binaryOp_of_alu2 (fun _ _ _ _ => rfl) boolWord_slt, binaryOp_of_alu2 (fun _ _ _ _ => rfl) boolWord_ult,
    fun _ => run fun _ _ _ _ => rfl⟩, ⟨unaryOp_of_alu1 (fun _ _ _ => rfl) clz_eq,
      ⟨_, unaryOp_of_alu1 (fun _ _ _ => rfl) fun _ => rfl, rfl, fun x h => ctz_spec h⟩,
      unaryOp_of_alu1 (fun _ _ _ => rfl) fun x => by rw [onesBelow_eq],
      ⟨_, unaryOp_of_alu1 (fun _ _ _ => rfl) fun _ => rfl, swapBytes_byte⟩, writesReg_sel⟩,
    fun n => ⟨unaryOp_of_alu1 (fun _ _ _ => rfl) fun x => rfl, unaryOp_of_alu1 (fun _ _ _ => rfl) fun x => rfl,
      unaryOp_of_alu1 (fun _ _ _ => rfl) fun x => rfl, unaryOp_of_alu1 (fun _ _ _ => rfl) fun x => rfl,
      unaryOp_of_alu1 (fun _ _ _ => rfl) fun x => boolWord_slt x _⟩,
    fun h => ⟨unaryOp_of_alu1 (fun _ _ _ => rfl) fun x => rfl, unaryOp_of_alu1 (fun _ _ _ => rfl) fun x => rfl,
      unaryOp_of_alu1 (fun _ _ _ => rfl) fun x => rfl⟩,
    fun d n => writesReg_of_alu (fun _ => rfl) fun _ => shiftLeft_14 _,
    fun d n => writesReg_of_alu (fun _ => rfl) fun x => by rw [clear_low_eq, shiftLeft_12]⟩

end Sys2Proof.Settled

/-! Poison and pending registers of scalar instructions (04_sequencer R81, R87): the operations that take the lowest tag of their sources. -/

namespace Sys2Proof.Proofs

open Sys2Proof.Machine

/-- The lower of two tags is one of them. -/
theorem lowerTag_eq_or (a b : Option PTag) : lowerTag a b = a ∨ lowerTag a b = b := by
  rcases a with _ | a <;> rcases b with _ | b <;> simp only [lowerTag, or_true, true_or]
  split
  · exact .inl rfl
  · exact .inr rfl

/-- It is there when one of them is, and not above either. -/
theorem lowerTag_lowest {a b : Option PTag} (h : a ≠ none ∨ b ≠ none) :
    ∃ p, lowerTag a b = some p ∧ (∀ x, a = some x → p.toNat ≤ x.toNat) ∧ ∀ x, b = some x → p.toNat ≤ x.toNat := by
  rcases a with _ | a <;> rcases b with _ | b
  · simp at h
  · exact ⟨b, rfl, by simp, by rintro x ⟨⟩; exact le_rfl⟩
  · exact ⟨a, rfl, by rintro x ⟨⟩; exact le_rfl, by simp⟩
  · refine ⟨_, rfl, ?_, ?_⟩ <;> rintro x ⟨⟩ <;> split <;> omega

/-- A two-operand operation with registers that are not pending: the value, with the lower tag of its sources. -/
theorem alu2_ready {s : State} {d a b : BitVec 6} {f : Word → Word → Word}
    (h : ∀ r ∈ [d.toNat, a.toNat, b.toNat], (s.me.sreg r).pend = .ready) :
    alu2 s d a b f = s.finish s.cur d.toNat (f (s.me.val a.toNat) (s.me.val b.toNat))
      (lowerTag (s.me.sreg a.toNat).poison (s.me.sreg b.toNat).poison) := by
  have none_pending : (s.slot s.cur).pendingAmong [d.toNat, a.toNat, b.toNat] = none := by
    simp only [Slot.pendingAmong, List.find?_eq_none, decide_eq_true_eq, not_not]
    exact h
  unfold alu2 alu
  rw [whenReady_ready _ none_pending]
  rfl

/-- A slot with s63 pending on an engine command and VL pending on a VLDFF in its vector queue. -/
def pendingStackAndVl : State :=
  { State.reset with
    slots := [(0, { Slot.reset with
      st := .run, regs := [(63, ⟨0, none, .engine⟩)]
      vq := [{ pc := 0, word := 0x28 * 2 ^ 26 + 4, p := 0, vl := 0, vcfg := 0, kind := .instr, op0 := 0, op1 := 0, poison0 := none, poison1 := none,
               probed := none, joined := none, restored := false, ord := 0, began := 0 }] })] }

/-- CALL looks at VL before s63, so that it waits for VL there. -/
theorem call_waits_for_vl : exec (.call 0) pendingStackAndVl = next (pendingStackAndVl.stallSlot 0 .vlPending) := rfl

end Sys2Proof.Proofs

namespace Sys2Proof.Settled

open Sys2Proof.Machine Sys2Proof.Proofs

/-- Settles O5: each of the instructions is a two-operand operation of the model, which passes the lower tag on. -/
theorem poisonedSourcePoisonsResult : Obligations.PoisonedSourcePoisonsResult := by
  intro i hi d a b s ta tb hd ready hta htb poisoned
  have operation : ∃ f, ∀ s, exec (i d a b) s = next (alu2 s d a b f) := by
    simp only [List.mem_cons, List.not_mem_nil, or_false] at hi
    rcases hi with rfl | rfl | rfl | rfl | rfl | rfl | rfl | rfl | rfl | rfl | rfl | rfl | rfl | rfl | rfl | rfl | rfl | rfl | rfl | rfl | rfl | rfl | rfl <;>
      exact ⟨_, fun _ => rfl⟩
  obtain ⟨f, hf⟩ := operation
  obtain ⟨p, hp, lea, leb⟩ := lowerTag_lowest poisoned
  have dest : d.toNat ≠ 0 := fun e => hd (BitVec.eq_of_toNat_eq e)
  obtain ⟨device, system, regs, wentOn, written⟩ :=
    finish_spec s d.toNat (f (s.me.val a.toNat) (s.me.val b.toNat)) (lowerTag ta tb)
  refine ⟨_, p, ?_, device, system, regs, wentOn, ?_, ?_, lea, leb⟩
  · rw [hf, alu2_ready ready, hta, htb]
  · rw [written dest, hp]
  · rw [← hp]
    exact lowerTag_eq_or ta tb

/-- Refutes O6: with VL and s63 both pending CALL waits for VL, which the statement's condition for it does not leave out. -/
theorem not_pendingRegisterStalls : ¬ Obligations.PendingRegisterStalls := by
  intro claim
  obtain ⟨-, -, -, -, -, -, transfers, -⟩ := claim 0 0 0
  obtain ⟨-, -, -, call⟩ := transfers 0 0 0
  have outside : pendingStackAndVl.me.OutsideRep := by rintro e rest ⟨⟩
  obtain ⟨r, -, -, stalls⟩ := call (.call 0) (by simp) pendingStackAndVl outside ⟨63, by simp, by decide⟩
  have same := Host.Outcome.next.inj (call_waits_for_vl.symm.trans stalls)
  have states : (pendingStackAndVl.stallSlot 0 .vlPending).me.st = .stall (.register r) := by rw [same]; rfl
  cases states

end Sys2Proof.Settled

/-! Control transfers and the waits of the scalar side (04_sequencer R95 to R116; 09_guard R233, R243): the place of an instruction outside REP frames,
what a taken transfer does, and the instructions made of them. -/

namespace Sys2Proof.Proofs

open Sys2Proof.Machine

/-- Outside a REP frame an instruction goes on. -/
theorem outsideRep_outside {s : State} (h : s.me.OutsideRep) (w : Option Nat) (k : State) : outsideRep s s.cur w k = k := by
  unfold outsideRep
  split
  next e rest he => exact if_neg (h e rest he)
  next => rfl

/-- Within the REP frame on top of the loop stack it traps with cause 0x01 (04_sequencer R107). -/
theorem outsideRep_inside {s : State} {e : LoopEntry} {rest : List LoopEntry} (he : s.me.loops = e :: rest)
    (h : e.kind = 2 ∧ e.start.toNat ≤ s.me.pc.toNat ∧ s.me.pc.toNat ≤ e.endAddr.toNat) (w : Option Nat) (k : State) :
    outsideRep s s.cur w k = trapWord s s.cur 0x01 w := by
  unfold outsideRep
  rw [show (s.slot s.cur).loops = e :: rest from he]
  exact if_pos h

/-- A shift left by two is four times the word (04_sequencer R95, R96). -/
theorem shiftLeft_two (x : Word) : x <<< 2 = 4 * x := by
  rw [BitVec.shiftLeft_eq_mul_twoPow, BitVec.mul_comm]
  rfl

/-- The running slot after it is set. -/
theorem me_setSlot_of {u : State} {q : Nat} {z : Slot} (h : u.cur = q) : (u.setSlot q z).me = z := by
  subst h
  exact State.slot_setSlot _ _ _

/-- An instruction that is a taken transfer goes to its target and changes nothing else. -/
theorem transfers_of_jump {i : Instr} {s : State} {v : Word} (h : exec i s = next (s.jump s.cur v)) : Transfers i s v := by
  have me : (s.jump s.cur v).me = s.me.jump v := State.slot_jump _ _ _
  refine ⟨_, h, onlySlot_setSlot _ _ _, ?_, ?_, ?_⟩ <;> rw [me]
  · rfl
  · exact fun r _ => rfl
  · exact ⟨rfl, rfl, rfl, rfl, rfl⟩

/-- A branch of the model with the statement's condition. -/
theorem branches_of_branch {i : BitVec 6 → BitVec 6 → BitVec 14 → Instr} {c : Word → Word → Bool} {p : Word → Word → Prop}
    (h : ∀ a b o s, exec (i a b o) s = next (branch s (encode (i a b o)) a b o c)) (hc : ∀ x y, c x y = true ↔ p x y) : Branches i p := by
  intro a b o s outside clean
  have run : exec (i a b o) s = next (if c (s.me.val a.toNat) (s.me.val b.toNat) then s.jump s.cur (s.me.pc + o.signExtend 64 <<< 2)
      else s.complete s.cur) := by
    rw [h, branch, outsideRep_outside outside, whenReady_clean _ clean, unlessPoisoned_of_clean _ clean]
    rfl
  refine ⟨fun taken => transfers_of_jump ?_, fun not => passes_of_complete ?_⟩
  · rw [run, if_pos ((hc _ _).mpr taken), shiftLeft_two]
  · rw [run, if_neg (mt (hc _ _).mp not)]

section transfer

variable {s : State} (outside : s.me.OutsideRep)

include outside

theorem j_transfers (o : BitVec 26) : Transfers (.j o) s (s.me.pc + 4 * o.signExtend 64) := by
  apply transfers_of_jump
  rw [← shiftLeft_two]
  exact congrArg next (outsideRep_outside outside _ _)

variable {a : BitVec 6} (clean : s.me.Clean [a.toNat])

include clean

/-- JR from a clean register. -/
theorem exec_jr : exec (.jr a) s = next (if (s.me.val a.toNat).toNat % 4 ≠ 0 then trap s s.cur 0x0B (s.me.val a.toNat) 0
    else s.jump s.cur (s.me.val a.toNat)) := by
  change next (outsideRep s s.cur _ (whenReady s s.cur _ (unlessPoisoned s s.cur _ _))) = _
  rw [outsideRep_outside outside, whenReady_clean _ clean, unlessPoisoned_of_clean _ clean]

/-- LBRK whose register is zero completes. -/
theorem exec_lbrk_not_taken (h : a ≠ 0 ∧ s.me.val a.toNat = 0) : exec (.lbrk a) s = next (s.complete s.cur) := by
  change next (outsideRep s s.cur _ (whenReady s s.cur _ (unlessPoisoned s s.cur _ (if _ then _ else _)))) = _
  rw [outsideRep_outside outside, whenReady_clean _ clean, unlessPoisoned_of_clean _ clean, if_pos h]

/-- LBRK that leaves the frame on top. -/
theorem lbrk_pops {e : LoopEntry} {rest : List LoopEntry} (he : s.me.loops = e :: rest) (taken : a = 0 ∨ s.me.val a.toNat ≠ 0) :
    ∃ t, exec (.lbrk a) s = .next t ∧ OnlySlot s t s.cur ∧ SystemKept s.me t.me ∧ RegsKept s.me t.me [] ∧
      t.me.pc = e.start + BitVec.ofNat 64 (4 * e.len) + 4 ∧ t.me.loops = rest := by
  refine ⟨s.setSlot s.cur { ({ s.me with loops := rest }.jump (e.endAddr + 4)) with land := true }, ?_, onlySlot_setSlot _ _ _, ?_⟩
  · change next (outsideRep s s.cur _ (whenReady s s.cur _ (unlessPoisoned s s.cur _ (if a ≠ 0 ∧ s.me.val a.toNat = 0 then _ else _)))) = _
    rw [outsideRep_outside outside, whenReady_clean _ clean, unlessPoisoned_of_clean _ clean, if_neg (by tauto)]
    simp only [he]
  · rw [me_setSlot_of rfl]
    exact ⟨rfl, fun r _ => rfl, rfl, rfl⟩

end transfer

/-- A slot set and completed is the completed slot set. -/
theorem setSlot_complete (u : State) (q : Nat) (x : Slot) : (u.setSlot q x).complete q = u.setSlot q x.complete := by
  rw [State.complete, State.slot_setSlot, State.setSlot_setSlot]

/-- What completing a changed slot gives. -/
theorem completed_spec (u : State) (q : Nat) (x : Slot) :
    OnlySlot u (u.setSlot q x.complete) q ∧ SystemKept x ((u.setSlot q x.complete).slot q) ∧ RegsKept x ((u.setSlot q x.complete).slot q) [] ∧
      WentOn x ((u.setSlot q x.complete).slot q) := by
  rw [State.slot_setSlot]
  exact ⟨onlySlot_setSlot _ _ _, rfl, fun _ _ => rfl, rfl, rfl, rfl⟩

/-- The slot waits for a store exactly when one of its own is on the list. -/
theorem storePending_iff {s : State} {q : Nat} : storePending s q = true ↔ ∃ a ∈ s.stores, a.home = .slot q := by
  simp [storePending]

/-- FENCE.SV once the scalar stores are performed: it notes its place in program order. -/
theorem fenceSv_done {s : State} (h : ∀ a ∈ s.stores, a.home ≠ .slot s.cur) :
    ∃ t, exec .fenceSv s = .next t ∧ OnlySlot { s with nextOp := s.nextOp + 1 } t s.cur ∧
      SystemKept { s.me with ctx := { s.me.ctx with fence := s.nextOp } } t.me ∧ RegsKept s.me t.me [] ∧ WentOn s.me t.me := by
  have noStore : ¬ storePending s s.cur = true := fun e => by
    obtain ⟨a, ha, hh⟩ := storePending_iff.mp e
    exact h a ha hh
  obtain ⟨only, kept, regs, went⟩ :=
    completed_spec { s with nextOp := s.nextOp + 1 } s.cur { s.me with ctx := { s.me.ctx with fence := s.nextOp } }
  exact ⟨_, congrArg next ((if_neg noStore).trans (setSlot_complete { s with nextOp := s.nextOp + 1 } s.cur _)), only, kept, regs, went⟩

/-- The entry of a FENCE.VV. -/
def fenceVvEntry (s : State) : VEntry :=
  { pc := s.me.pc, word := 0x74000200, p := s.me.vstart, vl := 0, vcfg := 0, kind := .fenceVV, op0 := 0, op1 := 0, poison0 := none,
    poison1 := none, probed := none, joined := none, restored := false, ord := s.nextOp, began := s.me.vstart }

/-- FENCE.VV takes one entry of the vector queue. -/
theorem fenceVv_enqueues {s : State} (room : s.me.vq.length < 32) (idle : ∀ e ∈ tilesOf s s.cur, wordIsTileAccess e.word = false) :
    Enqueues .fenceVv s (fun e => e.kind = .fenceVV ∧ e.word = 0x74000200 ∧ e.pc = s.me.pc ∧ e.p = s.me.vstart) s.me.cnt [] := by
  have noTile : ¬ (tilesOf s s.cur).any (fun e => wordIsTileAccess e.word) = true := by simpa using idle
  let x := fenceVvEntry s
  obtain ⟨only, kept, regs, went⟩ :=
    completed_spec { s with nextOp := s.nextOp + 1 } s.cur { s.me with vq := s.me.vq ++ [x], vstart := 0, charge := beginCharge s s.cur }
  have run : exec .fenceVv s =
      next (bumpOp ((s.setSlot s.cur { s.me with vq := s.me.vq ++ [x], vstart := 0, charge := beginCharge s s.cur }).complete s.cur)) :=
    (if_neg (by omega)).trans (if_neg noTile)
  refine ⟨_, x, beginCharge s s.cur, run.trans (congrArg (fun t => next (bumpOp t)) (setSlot_complete s s.cur _)),
    ⟨rfl, rfl, rfl, rfl⟩, only, kept, regs, went, ?_⟩
  simp

end Sys2Proof.Proofs

namespace Sys2Proof.Settled

open Sys2Proof.Machine Sys2Proof.Proofs

/-- Settles O7: the branches are the model's one branch under six conditions, and the rest are its taken transfers. -/
theorem controlTransfers : Obligations.ControlTransfers := by
  refine ⟨⟨branches_of_branch (fun _ _ _ _ => rfl) fun x y => beq_iff_eq, branches_of_branch (fun _ _ _ _ => rfl) fun x y => bne_iff_ne,
    branches_of_branch (fun _ _ _ _ => rfl) fun x y => decide_eq_true_iff, branches_of_branch (fun _ _ _ _ => rfl) fun x y => decide_eq_true_iff,
    branches_of_branch (fun _ _ _ _ => rfl) fun x y => decide_eq_true_iff, branches_of_branch (fun _ _ _ _ => rfl) fun x y => decide_eq_true_iff⟩,
    fun s outside => ⟨j_transfers outside, fun a clean => ⟨fun aligned => ?_, fun misaligned => ?_, fun ha hz => ?_,
      fun e rest he taken => lbrk_pops outside clean he taken⟩⟩⟩
  · exact transfers_of_jump (by rw [exec_jr outside clean, if_neg (not_not.mpr aligned)])
  · rw [exec_jr outside clean, if_pos misaligned]
  · exact passes_of_complete (exec_lbrk_not_taken outside clean ⟨ha, hz⟩)

/-- Settles O14: each wait is one test before the completion, and the two fences that leave a trace are completions over it. -/
theorem waitsAndFences : Obligations.WaitsAndFences := by
  intro s
  refine ⟨fun l xs c n => ⟨fun met => passes_of_complete (if_pos met), fun pending => if_neg pending⟩,
    fun sc => ⟨fun done => passesInto_of_complete (congrArg next (if_neg (by rw [done]; exact Bool.false_ne_true))),
      fun pending => congrArg next (if_pos pending)⟩,
    fenceSv_done, fun pending => congrArg next (if_pos (storePending_iff.mpr pending)),
    fun done => passes_of_complete (congrArg next (if_neg (by rw [done]; exact Bool.false_ne_true))), fun pending => congrArg next (if_pos pending),
    fenceVv_enqueues, fun full => if_pos full⟩

end Sys2Proof.Settled

/-! User-level interrupts (04_sequencer R112 to R115): which bank s56 to s61 name, the entry to the handler and UIRET. -/

namespace Sys2Proof.Proofs

open Sys2Proof.Machine

/-- A register outside s56 to s61 is in bank 0, whatever ACT is. -/
theorem sreg_of_unbanked (x : Slot) {r : Nat} (hr : r < 56 ∨ 61 < r) : x.sreg r = x.bank0 r := by
  have unbanked : x.banked r = false := by
    simp only [Slot.banked, Bool.and_eq_false_iff, decide_eq_false_iff_not]
    omega
  unfold Slot.sreg Slot.bank0
  rw [unbanked, if_neg Bool.false_ne_true]

/-- So it does not change where bank 0 does not. -/
theorem sreg_eq_of_unbanked {x y : Slot} (h : y.regs = x.regs) {r : Nat} (hr : r < 56 ∨ 61 < r) : y.sreg r = x.sreg r := by
  rw [sreg_of_unbanked _ hr, sreg_of_unbanked _ hr, Slot.bank0, h, Slot.bank0]

/-- In a user-level handler s56 to s61 are those of bank 1 (R112). -/
theorem sreg_of_act {x : Slot} (h : x.uistat.act = true) {r : Nat} (h56 : 56 ≤ r) (h61 : r ≤ 61) : x.sreg r = x.bankOne r := by
  have notZero : r ≠ 0 := by omega
  simp [Slot.sreg, Slot.banked, Slot.bankOne, h, h56, h61, notZero]

/-- Outside one they are those of bank 0. -/
theorem sreg_of_not_act {x : Slot} (h : x.uistat.act = false) {r : Nat} (h56 : 56 ≤ r) : x.sreg r = x.bank0 r := by
  have notZero : r ≠ 0 := by omega
  simp [Slot.sreg, Slot.banked, Slot.bank0, h, notZero]

/-- The status of a slot that enters its handler: active, with the cause of the interrupt it takes, whose pending bit is clear; a reef interrupt goes
first. -/
theorem enterUser_uistat (x : Slot) :
    x.enterUser.uistat = if x.uistat.preef then { x.uistat with preef := false, cause := 0x13, act := true }
      else { x.uistat with pcopy := false, cause := 0x20, act := true } := rfl

/-- The entry to the handler of a slot that is due it. -/
theorem exec_ulInterruptEntry {s : State} {q : Nat} (due : uiDue (s.slot q) = true) (noTrap : (s.slot q).due = none) :
    exec (.ulInterruptEntry q) s = next (s.setSlot q (s.slot q).enterUser) := by
  change next (if _ then _ else _) = _
  rw [if_pos (by rw [due, noTrap]; rfl)]

/-- UIRET outside a REP frame. -/
theorem exec_uiret {s : State} (outside : s.me.OutsideRep) :
    exec .uiret s = next (if s.me.uistat.act then s.setSlot s.cur ({ s.me with uistat := { s.me.uistat with act := false } }.jump s.me.uiepc)
      else trapWord s s.cur 0x01 (encode .uiret)) :=
  congrArg next (outsideRep_outside outside _ _)

end Sys2Proof.Proofs

namespace Sys2Proof.Settled

open Sys2Proof.Machine Sys2Proof.Proofs

/-- Settles O18: the entry is one change of the slot, after which ACT chooses bank 1, and UIRET one change back. -/
theorem userInterrupts : Obligations.UserInterrupts := by
  refine fun s q => ⟨fun live awake context en act pending noTrap => ?_, fun outside act => ?_, fun outside act => ?_⟩
  · have due : uiDue (s.slot q) = true := by
      simpa [uiDue, live, awake, context, en, act] using pending
    refine ⟨_, exec_ulInterruptEntry due noTrap, onlySlot_setSlot _ _ _, ?_⟩
    rw [State.slot_setSlot]
    have acts : (s.slot q).enterUser.uistat.act = true := by
      rw [enterUser_uistat]
      split <;> rfl
    refine ⟨rfl, rfl, acts, ?_, ?_, fun r hr => sreg_eq_of_unbanked (by rfl) hr, fun r h56 h61 => sreg_of_act acts h56 h61⟩
    · rw [enterUser_uistat]
      split <;> exact en
    · rw [enterUser_uistat]
      split
      · exact ⟨rfl, rfl, rfl⟩
      · exact ⟨rfl, rfl⟩
  · refine ⟨_, (exec_uiret outside).trans (congrArg next (if_pos act)), onlySlot_setSlot _ _ _, ?_⟩
    rw [me_setSlot_of rfl]
    exact ⟨rfl, ⟨rfl, rfl, rfl, rfl, rfl⟩, fun r hr => sreg_eq_of_unbanked (by rfl) hr, fun r h56 _ => sreg_of_not_act rfl h56⟩
  · rw [exec_uiret outside, act]
    rfl

end Sys2Proof.Settled

/-! A KST whose second scalar operand is pending (04_sequencer R81; 18_bucket R389). -/

namespace Sys2Proof.Proofs

open Sys2Proof.Machine

/-- A slot with a lane group, VCFG for F64 and s3 pending on an engine command. -/
def pendingSecondOfPair : State :=
  { State.reset with slots := [(0, { Slot.reset with st := .run, laneCount := 1, vcfg := 5, regs := [(3, ⟨0, none, .engine⟩)] })] }

/-- KST names the pair s2, s3, so that it waits for s3 there. -/
theorem kst_waits_for_second : exec (.kst 1 0 2) pendingSecondOfPair = next (pendingSecondOfPair.stallSlot 0 (.register 3)) := rfl

/-- The vector operand of that KST. -/
theorem kst_shape : rowShape pendingSecondOfPair.me.vcfg pendingSecondOfPair.me.vl pendingSecondOfPair.me.vstart (.instr (.kst 1 0 2)) =
    some (plainShape 5 none [0] .float false (hasFloat 5)) := rfl

end Sys2Proof.Proofs

namespace Sys2Proof.Settled

open Sys2Proof.Machine Sys2Proof.Proofs

/-- Refutes O26: KST names the register after sb too, and waits for it, which the statement's list of its scalar operands leaves out. -/
theorem not_vectorQueueEntries : ¬ Obligations.VectorQueueEntries := by
  rintro ⟨⟨-, others⟩, -⟩
  obtain ⟨enters, -⟩ := others (.kst 1 0 2) (by simp)
  obtain ⟨t, x, ch, ran, -, -, -, -, went, -⟩ := enters pendingSecondOfPair _ ⟨by decide, by decide, by decide⟩ (by decide) (by decide) (by decide)
    (by decide) (by decide) kst_shape (by decide) (by decide)
  obtain ⟨running, -⟩ := went
  obtain rfl := Host.Outcome.next.inj (kst_waits_for_second.symm.trans ran)
  cases running

end Sys2Proof.Settled

/-! The loop stack (04_sequencer R100 to R107): the fields of an entry, what LOOP, LOOPR and REP do before they push one, and the frame-end step. -/

namespace Sys2Proof.Proofs

open Sys2Proof.Machine

/-- The field of a word of a number. -/
theorem wbits_ofNat {n : Nat} (h : n < 2 ^ 64) (hi lo : Nat) : wbits (BitVec.ofNat 64 n) hi lo = n / 2 ^ lo % 2 ^ (hi + 1 - lo) := by
  rw [wbits, BitVec.toNat_ofNat, Nat.mod_eq_of_lt h]

/-- The top entry's END is the statement's. -/
theorem atTopEnd_iff {x : Slot} : atTopEnd x = true ↔ ∃ e rest, x.loops = e :: rest ∧ x.pc = e.start + BitVec.ofNat 64 (4 * e.len) := by
  unfold atTopEnd
  split
  next e rest he => simp [he, LoopEntry.endAddr]
  next he => simp [he]

/-- The entry that LOOP and LOOPR push. -/
def loopEntry (len : Nat) (start c : Word) : LoopEntry := ⟨BitVec.ofNat 64 (2 ^ 62 + (len - 1) * 2 ^ 52), start, c⟩

theorem loopEntry_fields {len : Nat} (h0 : 0 < len) (h : len ≤ 1024) (start c : Word) :
    (loopEntry len start c).kind = 1 ∧ (loopEntry len start c).len + 1 = len ∧ (loopEntry len start c).j = 0 := by
  unfold loopEntry LoopEntry.kind LoopEntry.len LoopEntry.j
  simp only [wbits_ofNat (n := 2 ^ 62 + (len - 1) * 2 ^ 52) (by omega)]
  omega

/-- The entry that REP pushes. -/
def repEntry (n : BitVec 4) (t : BitVec 8) (v : BitVec 4) (xs : BitVec 6) (start : Word) : LoopEntry :=
  ⟨BitVec.ofNat 64 (2 ^ 63 + n.toNat * 2 ^ 52 + v.toNat * 2 ^ 48 + xs.toNat * 2 ^ 42 + t.toNat * 2 ^ 34), start, 0⟩

theorem repEntry_fields (n : BitVec 4) (t : BitVec 8) (v : BitVec 4) (xs : BitVec 6) (start : Word) :
    let e := repEntry n t v xs start
    e.kind = 2 ∧ e.len = n.toNat ∧ e.vstr = v.toNat ∧ e.sstr = xs.toNat ∧ e.times = t.toNat ∧ e.j = 0 := by
  have hn := n.isLt
  have ht := t.isLt
  have hv := v.isLt
  have hx := xs.isLt
  unfold repEntry LoopEntry.kind LoopEntry.len LoopEntry.vstr LoopEntry.sstr LoopEntry.times LoopEntry.j
  simp only [wbits_ofNat (n := 2 ^ 63 + n.toNat * 2 ^ 52 + v.toNat * 2 ^ 48 + xs.toNat * 2 ^ 42 + t.toNat * 2 ^ 34) (by omega)]
  omega

/-- Below the last repetition J has room for one more, so that raising it changes no other field. -/
theorem nextJ_fields {e : LoopEntry} (h : e.j < e.times) :
    e.nextJ.j = e.j + 1 ∧ e.nextJ.kind = e.kind ∧ e.nextJ.len = e.len ∧ e.nextJ.times = e.times ∧ e.nextJ.vstr = e.vstr ∧ e.nextJ.sstr = e.sstr := by
  have hp := e.p.isLt
  have raised : e.nextJ.p.toNat = (e.p.toNat + 0x4000000) % 2 ^ 64 := BitVec.toNat_add _ _
  unfold LoopEntry.j LoopEntry.times wbits at h
  unfold LoopEntry.kind LoopEntry.len LoopEntry.vstr LoopEntry.sstr LoopEntry.times LoopEntry.j wbits
  rw [raised]
  omega

@[simp] theorem nextJ_start (e : LoopEntry) : e.nextJ.start = e.start := by
  rw [LoopEntry.nextJ]

/-- What a pushed entry leaves: one more entry, and the program in line. -/
theorem pushLoop_spec {s : State} {w : Option Nat} {e : LoopEntry} :
    (s.me.loops.length ≠ 6 → ∃ t, pushLoop s s.cur w e = t ∧ OnlySlot s t s.cur ∧ SystemKept s.me t.me ∧ RegsKept s.me t.me [] ∧
      t.me.loops = e :: s.me.loops ∧ t.me.pc = s.me.pc + 4) ∧ (s.me.loops.length = 6 → pushLoop s s.cur w e = trapWord s s.cur 0x04 w) := by
  refine ⟨fun room => ⟨_, if_neg room, onlySlot_setSlot _ _ _, ?_⟩, fun full => if_pos full⟩
  rw [me_setSlot_of rfl]
  exact ⟨rfl, fun _ _ => rfl, rfl, rfl⟩

/-- Hence an instruction that pushes an entry does what the statement says of it. -/
theorem pushes_of_pushLoop {i : Instr} {s : State} {x : LoopEntry} {e : LoopEntry → Prop} (h : exec i s = next (pushLoop s s.cur (encode i) x)) (hx : e x) :
    (s.me.loops.length ≠ 6 → ∃ t y, exec i s = .next t ∧ e y ∧ OnlySlot s t s.cur ∧ SystemKept s.me t.me ∧ RegsKept s.me t.me [] ∧
      t.me.loops = y :: s.me.loops ∧ t.me.pc = s.me.pc + 4) ∧ (s.me.loops.length = 6 → exec i s = .next (trapWord s s.cur 0x04 (encode i))) := by
  obtain ⟨push, full⟩ := pushLoop_spec (s := s) (w := encode i) (e := x)
  refine ⟨fun room => ?_, fun h6 => h.trans (congrArg next (full h6))⟩
  obtain ⟨t, ht, rest⟩ := push room
  exact ⟨t, x, h.trans (congrArg next ht), hx, rest⟩

/-- At the END of the top entry or within a REP frame none of the three starts a body. -/
theorem loops_trap {s : State} {e : LoopEntry} {rest : List LoopEntry} (he : s.me.loops = e :: rest)
    (h : (s.me.OutsideRep ∧ s.me.pc = e.start + BitVec.ofNat 64 (4 * e.len)) ∨
      (e.kind = 2 ∧ e.start.toNat ≤ s.me.pc.toNat ∧ s.me.pc.toNat ≤ (e.start + BitVec.ofNat 64 (4 * e.len)).toNat)) (w : Option Nat) (k : State) :
    outsideRep s s.cur w (if atTopEnd s.me then trapWord s s.cur 0x01 w else k) = trapWord s s.cur 0x01 w := by
  rcases h with ⟨outside, atEnd⟩ | inside
  · rw [outsideRep_outside outside, if_pos (atTopEnd_iff.mpr ⟨e, rest, he, atEnd⟩)]
  · exact outsideRep_inside he inside _ _

section start

variable {s : State} (away : ¬ atTopEnd s.me = true)
include away

/-- A body that begins away from the top entry's END: a count of zero passes over it. -/
theorem startLoop_away (w : Option Nat) (len : Nat) (c : Word) :
    startLoop s s.cur w len c = if c = 0 then s.jump s.cur (s.me.pc + BitVec.ofNat 64 (4 * (len + 1)))
      else pushLoop s s.cur w (loopEntry len (s.me.pc + 4) c) :=
  if_neg away

variable (outside : s.me.OutsideRep)
include outside

theorem exec_loop (l : BitVec 10) (c : BitVec 16) :
    exec (.loop l c) s = next (if c.setWidth 64 = 0 then s.jump s.cur (s.me.pc + BitVec.ofNat 64 (4 * (l.toNat + 2)))
      else pushLoop s s.cur (encode (.loop l c)) (loopEntry (l.toNat + 1) (s.me.pc + 4) (c.setWidth 64))) :=
  congrArg next ((outsideRep_outside outside _ _).trans (startLoop_away away _ _ _))

theorem exec_loopr (l : BitVec 10) {a : BitVec 6} (clean : s.me.Clean [a.toNat]) :
    exec (.loopr l a) s = next (if s.me.val a.toNat = 0 then s.jump s.cur (s.me.pc + BitVec.ofNat 64 (4 * (l.toNat + 2)))
      else pushLoop s s.cur (encode (.loopr l a)) (loopEntry (l.toNat + 1) (s.me.pc + 4) (s.me.val a.toNat))) := by
  change next (outsideRep s s.cur _ (whenReady s s.cur _ (if _ then _ else _))) = _
  rw [outsideRep_outside outside, whenReady_clean _ clean, if_neg away, unlessPoisoned_of_clean _ clean, startLoop_away away]

theorem exec_rep (n : BitVec 4) (t : BitVec 8) (v : BitVec 4) (xs : BitVec 6) :
    exec (.rep n t v xs) s = next (pushLoop s s.cur (encode (.rep n t v xs)) (repEntry n t v xs (s.me.pc + 4))) :=
  congrArg next ((outsideRep_outside outside _ _).trans (if_neg away))

end start

/-- The frame-end step away from the top entry's END. -/
theorem frameEnd_away {pc : Word} {e : LoopEntry} (h : pc ≠ e.endAddr) (rest : List LoopEntry) (b : Bool) :
    frameEnd pc (e :: rest) b = (pc + 4, e :: rest, b) :=
  if_neg h

/-- At the END of a LOOP. -/
theorem frameEnd_loop {e : LoopEntry} (h : e.kind = 1) (rest : List LoopEntry) (b : Bool) :
    frameEnd e.endAddr (e :: rest) b =
      if e.count = 1 then frameEnd e.endAddr rest true else (e.start, { e with count := e.count - 1 } :: rest, true) := by
  rw [frameEnd, if_pos rfl, if_pos h]
  by_cases h1 : e.count = 1
  · rw [if_neg (by simp [h1]), if_pos h1]
  · rw [if_pos (fun h0 => h1 (sub_eq_zero.mp h0)), if_neg h1]

/-- At the END of a REP. -/
theorem frameEnd_rep {e : LoopEntry} (h : e.kind = 2) (rest : List LoopEntry) (b : Bool) :
    frameEnd e.endAddr (e :: rest) b = if e.j < e.times then (e.start, e.nextJ :: rest, true) else frameEnd e.endAddr rest true := by
  rw [frameEnd, if_pos rfl, if_neg (by omega)]

end Sys2Proof.Proofs

namespace Sys2Proof.Settled

open Sys2Proof.Machine Sys2Proof.Proofs

/-- Settles O12: LOOP, LOOPR and REP as a check before a push, and the frame-end step entry by entry. -/
theorem loopStack : Obligations.LoopStack := by
  refine ⟨⟨fun s e rest he barred l c a n ts v xs => ?_, fun s outside apart => ?_⟩, fun pc e rest b => ?_⟩
  · have trapped := loops_trap he barred
    refine ⟨congrArg next (trapped _ _), fun ready => ?_, congrArg next (trapped _ _)⟩
    have passes : ∀ k, whenReady s s.cur [a.toNat] k = k := fun k => whenReady_ready k (pendingAmong_cons ready (by simp [Slot.Clean]))
    change next (outsideRep s s.cur _ (whenReady s s.cur _ _)) = _
    rw [passes, trapped]
  · have away : ¬ atTopEnd s.me = true := fun atEnd => by
      obtain ⟨e, rest, he, h⟩ := atTopEnd_iff.mp atEnd
      exact apart e rest he h
    have fields : ∀ (l : BitVec 10) (c : Word), let x := loopEntry (l.toNat + 1) (s.me.pc + 4) c
        x.kind = 1 ∧ x.len + 1 = l.toNat + 1 ∧ x.start = s.me.pc + 4 ∧ x.count = c ∧ x.j = 0 := fun l c => by
      obtain ⟨kind, len, j⟩ := loopEntry_fields (Nat.succ_pos l.toNat) (by omega) (s.me.pc + 4) c
      exact ⟨kind, len, rfl, rfl, j⟩
    refine ⟨fun l c hc => pushes_of_pushLoop ?_ (fields l _), fun l => transfers_of_jump ?_,
      fun l a clean => ⟨fun ha => pushes_of_pushLoop ?_ (fields l _), fun ha => transfers_of_jump ?_⟩,
      fun n ts v xs => pushes_of_pushLoop (exec_rep away outside n ts v xs) ?_⟩
    · have wide : c.setWidth 64 ≠ 0 := fun h0 => hc (by bv_omega)
      rw [exec_loop away outside, if_neg wide]
    · exact exec_loop away outside l 0
    · rw [exec_loopr away outside l clean, if_neg ha]
    · rw [exec_loopr away outside l clean, if_pos ha]
    · obtain ⟨kind, len, vstr, sstr, times, j⟩ := repEntry_fields n ts v xs (s.me.pc + 4)
      exact ⟨kind, len, vstr, sstr, times, j, rfl, rfl⟩
  · refine ⟨rfl, rfl, fun h => ?_, ?_, ?_, ?_, ?_⟩
    · rw [frameEnd_away h]
      exact ⟨rfl, rfl⟩
    all_goals rintro rfl kind h
    · exact ⟨{ e with count := e.count - 1 }, (frameEnd_loop kind rest b).trans (if_neg h), rfl, rfl, rfl⟩
    · exact (frameEnd_loop kind rest b).trans (if_pos h)
    · obtain ⟨j, kinds, len, times, vstr, sstr⟩ := nextJ_fields h
      exact ⟨e.nextJ, (frameEnd_rep kind rest b).trans (if_pos h), j, kinds.trans kind, len, times, vstr, sstr, nextJ_start e⟩
    · exact (frameEnd_rep kind rest b).trans (if_neg (by omega))

end Sys2Proof.Settled

/-! Scalar stores as they are passed on (04_sequencer R88, R90, R108, R109; 09_guard R241). -/

namespace Sys2Proof.Proofs

open Sys2Proof.Machine

section check

variable {s : State} {w : Option Nat} {k : Access} {va n j : Nat} {go : State}

/-- A misaligned scalar access traps. -/
theorem scalarCheck_misaligned (h : va % n ≠ 0) : scalarCheck s s.cur w k va n n go = trap s s.cur 0x0B (BitVec.ofNat 64 va) 0 := if_pos h

/-- An aligned and permitted one that waits for nothing goes on. -/
theorem scalarCheck_passes (hn : n = 2 ^ j) (hj : j ≤ 12) (aligned : va % n = 0) (passes : ∃ h, checkAddr s (scalarAgent s s.cur) va k = .ok h)
    (behind : waitsBehind s s.cur k va n = false) (held : k = .write ∨ readHolds s (scalarAgent s s.cur) va n = []) :
    scalarCheck s s.cur w k va n n go = go := by
  obtain ⟨hit, hc⟩ := passes
  subst hn
  have probed := probeRange_one (k := k) (Nat.two_pow_pos j) (inside_of_aligned hj aligned) hc
  have unheld : (if k == .write then [] else readHolds s (scalarAgent s s.cur) va (2 ^ j)) = [] := by
    rcases held with rfl | held
    · rfl
    · rw [held, ite_self]
  simp only [scalarCheck, aligned, probed, behind, unheld]
  rfl

end check

/-- The key of an access that passes. -/
theorem keyOfVa_of {s : State} {ag : Agent} {va key : Nat} {k : Access} (h : ∃ hit, checkAddr s ag va k = .ok hit ∧ hit.key = key) :
    keyOfVa s ag va k = key := by
  obtain ⟨hit, passes, rfl⟩ := h
  unfold keyOfVa
  rw [passes]

/-- The store that the scalar side of slot q passes on. -/
def storePassed (s : State) (q va : Nat) (bs : List Byte) (p : Option PTag) (inc rel : Bool) : PendAcc :=
  { slot := q, home := .slot q, va := BitVec.ofNat 64 va, key := keyOfVa s (scalarAgent s q) va (if inc then .update else .write)
    waiting := false, bytes := bs, poison := p, increment := inc, release := rel
    asid := (scalarAgent s q).asid, level := (scalarAgent s q).level, tag := (scalarAgent s q).tag, pc := (s.slot q).pc, ord := s.nextOp }

/-- The state with a store of slot q passed on and counted. -/
def withStore (s : State) (q : Nat) (a : PendAcc) : State :=
  ({ s with stores := s.stores ++ [a], nextOp := s.nextOp + 1 } : State).setSlot q ((s.slot q).countStores 1)

/-- A store through a cached translation of a page that is not MIGRATING is passed on as it is. -/
theorem pushStore_eq {s : State} {q va : Nat} {bs : List Byte} {p : Option PTag} {inc rel : Bool}
    (still : migratingAt s (scalarAgent s q) va bs.length = false)
    (cached : touchRange s (scalarAgent s q) (if inc then .update else .write) va bs.length = s) :
    pushStore s q va bs p inc rel = withStore s q (storePassed s q va bs p inc rel) := by
  unfold pushStore
  simp only [still, Bool.false_eq_true, if_false, cached]
  rfl

/-- An instruction that ends with one store passed on. -/
theorem passesStore_of {i : Instr} {s : State} {a : PendAcc} {p : PendAcc → Prop} (h : exec i s = next ((withStore s s.cur a).complete s.cur)) (hp : p a) :
    PassesStore i s p := by
  obtain ⟨only, kept, regs, went⟩ := completed_spec { s with stores := s.stores ++ [a], nextOp := s.nextOp + 1 } s.cur (s.me.countStores 1)
  obtain ⟨others, device, bytes⟩ := only
  exact ⟨_, a, h.trans (congrArg next (setSlot_complete _ _ _)), hp, ⟨others, rfl, device, bytes⟩, kept, regs, went⟩

/-- What a scalar write that may be made does once it is checked. -/
theorem scalarStore_eq {s : State} {w : Option Nat} {k : Access} {va n j m key : Nat} {bs : List Byte} {p : Option PTag} {inc rel : Bool}
    (hn : n = 2 ^ j) (hj : j ≤ 12) (plain : PlainWrite s k va n m key) (hk : k = if inc then .update else .write) (len : bs.length = n) :
    scalarCheck s s.cur w k va n n (whenStoreRoom s s.cur m ((pushStore s s.cur va bs p inc rel).complete s.cur)) =
      (withStore s s.cur (storePassed s s.cur va bs p inc rel)).complete s.cur := by
  obtain ⟨aligned, ⟨hit, passes, -⟩, cached, still, unblocked, behind, held, room⟩ := plain
  have read : k = .read → ∀ a ∈ s.stores, a.home ≠ .slot s.cur := by
    rintro rfl
    cases inc <;> cases hk
  rw [scalarCheck_passes hn hj aligned ⟨hit, passes⟩ (waitsBehind_none unblocked behind read) held, whenStoreRoom_of _ room, pushStore_eq]
  · rw [len]; exact still
  · rw [len, touchRange_one (by rw [hn]; exact Nat.two_pow_pos j) (by rw [hn]; exact inside_of_aligned hj (hn ▸ aligned)), ← hk]
    exact cached

section registers

variable {s : State} {w : Option Nat} {d a n : Nat} {off : Word} (clean : s.me.Clean [a]) (ready : (s.me.sreg d).pend = .ready)
include clean ready

/-- A store from ready registers is checked and passed on. -/
theorem storeReg_clean {release : Bool} : storeReg s w d a off n release =
    scalarCheck s s.cur w .write (s.me.val a + off).toNat n n (whenStoreRoom s s.cur 1
      ((pushStore s s.cur (s.me.val a + off).toNat (leBytes n (s.me.val d).toNat) (s.me.sreg d).poison false release).complete s.cur)) := by
  change whenReady s s.cur [d, a] (unlessPoisoned s s.cur [a] _) = _
  rw [whenReady_ready _ (pendingAmong_cons ready clean), unlessPoisoned_of_clean _ clean]
  rfl

/-- A load into a ready register is checked and made. -/
theorem loadReg_clean {signed : Bool} {after : State → State} : loadReg s w d a off n signed after =
    scalarCheck s s.cur w .read (s.me.val a + off).toNat n n
      (after ((scalarRead s s.cur (s.me.val a + off).toNat n).st.finish s.cur d
        (extendBytes signed (scalarRead s s.cur (s.me.val a + off).toNat n).bytes) (scalarRead s s.cur (s.me.val a + off).toNat n).poison)) := by
  change whenReady s s.cur [d, a] (unlessPoisoned s s.cur [a] _) = _
  rw [whenReady_ready _ (pendingAmong_cons ready clean), unlessPoisoned_of_clean _ clean]
  rfl

/-- A misaligned store from a register traps. -/
theorem storeReg_misaligned {release : Bool} {va : Word} (hva : s.me.val a + off = va) (h : va.toNat % n ≠ 0) :
    storeReg s w d a off n release = trap s s.cur 0x0B va 0 := by
  subst hva
  rw [storeReg_clean clean ready, scalarCheck_misaligned h, BitVec.ofNat_toNat, BitVec.setWidth_eq]

/-- A misaligned load traps. -/
theorem loadReg_misaligned {signed : Bool} {after : State → State} {va : Word} (hva : s.me.val a + off = va) (h : va.toNat % n ≠ 0) :
    loadReg s w d a off n signed after = trap s s.cur 0x0B va 0 := by
  subst hva
  rw [loadReg_clean clean ready, scalarCheck_misaligned h, BitVec.ofNat_toNat, BitVec.setWidth_eq]

/-- An aligned and permitted store of the low n bytes of a register passes on one store of them. -/
theorem passesStore_of_storeReg {i : Instr} {release : Bool} {j key : Nat} {va : Word} (h : exec i s = next (storeReg s w d a off n release))
    (hn : n = 2 ^ j) (hj : j ≤ 12) (hva : s.me.val a + off = va) (plain : PlainWrite s .write va.toNat n 1 key) :
    PassesStore i s (StoreOf s.nextOp s.cur va key (leBytes n (s.me.val d).toNat) (s.me.sreg d).poison release) := by
  subst hva
  refine passesStore_of (h.trans ?_) (a := storePassed s s.cur (s.me.val a + off).toNat (leBytes n (s.me.val d).toNat) (s.me.sreg d).poison false release) ?_
  · rw [storeReg_clean clean ready, scalarStore_eq hn hj plain rfl (length_leBytes _ _)]
  · have address : BitVec.ofNat 64 (s.me.val a + off).toNat = s.me.val a + off := by rw [BitVec.ofNat_toNat, BitVec.setWidth_eq]
    exact ⟨rfl, rfl, address, keyOfVa_of plain.passes, rfl, rfl, rfl, rfl, rfl, rfl⟩

end registers

section release

variable {s : State} {a : BitVec 6} {sc : BitVec 3} (clean : s.me.Clean [a.toNat])
include clean

/-- A misaligned acquire traps. -/
theorem acq_misaligned (h : (s.me.val a.toNat).toNat % 8 ≠ 0) : exec (.acq a sc) s = next (trap s s.cur 0x0B (s.me.val a.toNat) 0) := by
  change next (whenReady s s.cur [a.toNat] (unlessPoisoned s s.cur [a.toNat] (scalarCheck _ _ _ _ _ _ _ _))) = _
  rw [whenReady_clean _ clean, unlessPoisoned_of_clean _ clean, scalarCheck_misaligned h, BitVec.ofNat_toNat, BitVec.setWidth_eq]

theorem exec_rel : exec (.rel a sc) s = next (scalarCheck s s.cur (encode (.rel a sc)) .update (s.me.val a.toNat).toNat 8 8
    (whenStoreRoom s s.cur 1 ((pushStore s s.cur (s.me.val a.toNat).toNat (List.replicate 8 0) none true true).complete s.cur))) := by
  change next (whenReady s s.cur [a.toNat] (unlessPoisoned s s.cur [a.toNat] _)) = _
  rw [whenReady_clean _ clean, unlessPoisoned_of_clean _ clean]

end release

end Sys2Proof.Proofs

namespace Sys2Proof.Settled

open Sys2Proof.Machine Sys2Proof.Proofs

/-- Settles O9: each is a check of its access before one store is passed on, and the check looks at the alignment first. -/
theorem storesArePassedOn : Obligations.StoresArePassedOn := by
  refine ⟨⟨fun d a ty o s key clean ready plain => ?_, fun d a q sc s key clean ready plain => ?_, fun a sc s key clean plain => ?_⟩,
    fun d a o sc s clean ready => ⟨fun ty h => ?_, fun ty h => ?_, fun q h => ⟨?_, ?_⟩, fun h => ⟨?_, ?_⟩⟩⟩
  · exact passesStore_of_storeReg clean ready rfl rfl (by omega) rfl plain
  · exact passesStore_of_storeReg clean ready rfl rfl (by omega) (BitVec.add_zero _) plain
  · exact passesStore_of ((exec_rel clean).trans (congrArg next (scalarStore_eq (j := 3) rfl (by omega) plain rfl rfl)))
      ⟨rfl, keyOfVa_of plain.passes, rfl, rfl, rfl⟩
  · exact congrArg next (loadReg_misaligned clean ready rfl h)
  · exact congrArg next (storeReg_misaligned clean ready rfl h)
  · exact congrArg next (loadReg_misaligned clean ready (BitVec.add_zero _) h)
  · exact congrArg next (storeReg_misaligned clean ready (BitVec.add_zero _) h)
  · exact acq_misaligned clean h
  · rw [exec_rel clean, scalarCheck_misaligned h, BitVec.ofNat_toNat, BitVec.setWidth_eq]

end Sys2Proof.Settled

/-! Scalar reads (04_sequencer R88 to R90; 09_guard R241, R249): the bytes that a slot sees, with those of its own stores, and their poison. -/

namespace Sys2Proof.Proofs

open Sys2Proof.Machine

/-- A word of n bytes read as a signed number. -/
theorem signedOf_eq_toInt (n x : Nat) : signedOf n x = (BitVec.ofNat n x).toInt := by
  have msb : (x % 2 ^ n).testBit (n - 1) = (BitVec.ofNat n x).msb := by
    rw [BitVec.msb_eq_getLsbD_last, ← BitVec.testBit_toNat, BitVec.toNat_ofNat]
  rw [BitVec.toInt_eq_msb_cond, signedOf, msb, BitVec.toNat_ofNat]
  push_cast
  rfl

/-- The extension of bytes is that of the number in them (00_scope R3). -/
theorem extendBytes_readBytes {m : List Host.Cell} {key n : Nat} (hn : n ≤ 8) (signed : Bool) :
    extendBytes signed (readBytes m key n) =
      if signed then (BitVec.ofNat (8 * n) (readLE m key n)).signExtend 64 else (BitVec.ofNat (8 * n) (readLE m key n)).zeroExtend 64 := by
  have fits : readLE m key n < 2 ^ (8 * n) := by
    have := leNat_lt (readBytes m key n)
    rw [length_readBytes] at this
    rwa [Nat.pow_mul]
  unfold extendBytes
  rw [length_readBytes, ← readLE, signedOf_eq_toInt]
  split
  · rfl
  · rw [BitVec.zeroExtend, BitVec.setWidth_ofNat_of_le_of_lt (by omega) fits]

/-- Two tags give none exactly when neither is one. -/
theorem lowerTag_eq_none {a b : Option PTag} : lowerTag a b = none ↔ a = none ∧ b = none := by
  rcases a with _ | a <;> rcases b with _ | b <;> simp [lowerTag]

/-- An unpoisoned write poisons no granule. -/
theorem tabFind_poisonGranules_none {key n x : Nat} : ∀ {c g : Nat} {tab : Tab PTag}, tabFind tab x = none →
    tabFind (poisonGranules none key n tab g c) x = none := by
  intro c
  induction c with
  | zero => exact fun h => h
  | succ c ih =>
    intro g tab h
    refine ih ?_
    change tabFind (if _ then _ else _) x = none
    split
    · by_cases hx : x = g
      · rw [hx, tabFind_tabDel]
      · rw [tabFind_tabDel_ne _ hx, h]
    · exact h

/-- Granules that are clean in one state are clean in another in which no granule is poisoned that was not. -/
theorem granulesPoison_mono {s t : State} (h : ∀ k, granulePoison s k = none → granulePoison t k = none) :
    ∀ {c g : Nat}, granulesPoison s g c = none → granulesPoison t g c = none := by
  intro c
  induction c with
  | zero => exact fun _ => rfl
  | succ c ih =>
    intro g hg
    obtain ⟨first, rest⟩ := lowerTag_eq_none.mp hg
    exact lowerTag_eq_none.mpr ⟨h _ first, ih rest⟩

/-- An unpoisoned store to memory of the package writes its bytes, and a range that is clean stays so. -/
theorem storeKey_plain {s : State} {tag : STag} {key : Nat} {bs : List Byte} (plain : isPad key = true ∨ isHbm key = true ∨ isCxl s key = true) :
    (storeKey s tag key bs none).mem = writeBytes key bs s.mem ∧
      ∀ k n, rangePoison s k n = none → rangePoison (storeKey s tag key bs none) k n = none := by
  have cleaner : ∀ k, granulePoison s k = none → granulePoison (physWrite s key bs none) k = none := fun k hk => by
    obtain ⟨tabled, dead⟩ := lowerTag_eq_none.mp hk
    exact lowerTag_eq_none.mpr ⟨tabFind_poisonGranules_none tabled, dead⟩
  unfold storeKey
  split
  · exact ⟨rfl, fun _ _ => granulesPoison_mono (t := { physWrite s key bs none with sectors := tabSet s.sectors (sectorOf key) tag })
      fun k hk => cleaner k hk⟩
  · next pad =>
    rw [if_pos (by simpa [pad] using plain)]
    exact ⟨rfl, fun _ _ => granulesPoison_mono cleaner⟩

/-- The slot's view of memory with one store of its own. -/
theorem ownView_one {s : State} {b : PendAcc} (own : OwnStore s b) : ownView s s.cur = storeKey s b.tag b.key b.bytes none := by
  obtain ⟨⟨pre, post, split, others⟩, home, ⟨-, inc⟩, clean, -, -⟩ := own
  have drop : ∀ l : List PendAcc, (∀ a ∈ l, a ∈ pre ++ post) → l.filter (fun a => a.home == .slot s.cur && !a.increment) = [] := fun l hl => by
    simp only [List.filter_eq_nil_iff, Bool.and_eq_true, beq_iff_eq, not_and]
    exact fun a ha hh => absurd hh (others a (hl a ha))
  have kept : s.stores.filter (fun a => a.home == .slot s.cur && !a.increment) = [b] := by
    rw [split, List.filter_append, drop pre fun _ => List.mem_append_left _, List.nil_append,
      List.filter_cons_of_pos (by simp [home, inc]), drop post fun _ => List.mem_append_right _]
  rw [ownView, kept, List.foldl_cons, List.foldl_nil, clean]

/-- That store is one that the view shows. -/
theorem ownStore_seen {s : State} {b : PendAcc} (own : OwnStore s b) :
    ∀ a ∈ s.stores, a.home = .slot s.cur → a.waiting = false ∧ a.increment = false ∧ isPlain s a.key = true := by
  obtain ⟨⟨pre, post, split, others⟩, -, ⟨plain, inc⟩, -, -, still⟩ := own
  intro a ha home
  obtain rfl : a = b := by
    by_contra other
    refine others a ?_ home
    rw [split] at ha
    simpa [other] using ha
  exact ⟨still, inc, by simpa [isPlain, or_assoc] using plain⟩

/-- A scalar read in its place gives what the slot sees there, and leaves the state alone. -/
theorem scalarRead_place {s : State} {va n j key : Nat} (hn : n = 2 ^ j) (hj : j ≤ 12) (place : ReadPlace s va n key)
    (seen : ∃ h, checkAddr (ownView s s.cur) (scalarAgent s s.cur) va .read = .ok h ∧ h.key = key ∧ h.poison = none) :
    scalarRead s s.cur va n = ⟨readBytes (ownView s s.cur).mem key n, rangePoison (ownView s s.cur) key n, s⟩ := by
  obtain ⟨aligned, ⟨hit, passes, at_key, unpoisoned⟩, plain, cached, -, -, unseen⟩ := place
  obtain ⟨hit', passes', at_key', unpoisoned'⟩ := seen
  have hn0 : 0 < n := hn ▸ Nat.two_pow_pos j
  have inside : va % 4096 + n ≤ 4096 := by rw [hn]; exact inside_of_aligned hj (hn ▸ aligned)
  have memory : isPlain s hit.key = true := by simpa [isPlain, at_key, or_assoc] using plain
  have bytes : vRead (ownView s s.cur) (scalarAgent s s.cur) va n = readBytes (ownView s s.cur).mem key n := by
    simp [vRead, vReadAs, spans_inside hn0 inside, keyOfVa, passes', at_key', physRead]
  have poison : vPoison (ownView s s.cur) (scalarAgent s s.cur) va n = rangePoison (ownView s s.cur) key n := by
    simp [vPoison, vPoisonAs, spans_inside hn0 inside, passes', at_key', Hit.poisonIn, unpoisoned', lowerTag]
  unfold scalarRead
  simp only [passes, unpoisoned, memory, Option.isNone_none, Bool.and_self, if_true, bytes, poison, spans_inside hn0 inside, List.foldl_cons, List.foldl_nil,
    touchRange_one hn0 inside, cached, keyOfVa_of ⟨hit, passes, at_key⟩, cxlAnswer_unrecorded hn0 unseen]

/-- A read waits for nothing where no store of its own waits or is beyond what the slot sees. -/
theorem waitsBehind_read {s : State} {va n : Nat} (behind : vectorWaits s s.cur (va, n) = false)
    (own : ∀ a ∈ s.stores, a.home = .slot s.cur → a.waiting = false ∧ a.increment = false ∧ isPlain s a.key = true) :
    waitsBehind s s.cur .read va n = false := by
  have still : storeWaits s s.cur s.nextOp (va, n) = false := by
    simp only [storeWaits, List.any_eq_false, Bool.and_eq_true, beq_iff_eq]
    exact fun a ha h => absurd h.1.1.2 (by rw [(own a ha h.1.1.1).1]; exact Bool.false_ne_true)
  have seen : (s.stores.any fun a => a.home == .slot s.cur && (a.increment || !isPlain s a.key) && sameBytes s s.cur a.range (va, n)) = false := by
    simp only [List.any_eq_false, Bool.and_eq_true, beq_iff_eq]
    intro a ha h
    obtain ⟨-, inc, plain⟩ := own a ha h.1.1
    simp [inc, plain] at h
  simp [waitsBehind, still, behind, seen]

section load

variable {s : State} {w : Option Nat} {d a n j key : Nat} {off : Word} {signed : Bool} {after : State → State} (clean : s.me.Clean [a])
  (ready : (s.me.sreg d).pend = .ready) (hn : n = 2 ^ j) (hj : j ≤ 3) (place : ReadPlace s (s.me.val a + off).toNat n key)
include clean ready hn hj place

/-- A load in its place gives what the slot sees there. -/
theorem loadReg_place
    (own : ∀ a ∈ s.stores, a.home = .slot s.cur → a.waiting = false ∧ a.increment = false ∧ isPlain s a.key = true)
    (seen : ∃ h, checkAddr (ownView s s.cur) (scalarAgent s s.cur) (s.me.val a + off).toNat .read = .ok h ∧ h.key = key ∧ h.poison = none) :
    loadReg s w d a off n signed after =
      after (s.finish s.cur d (loadedValue (ownView s s.cur) key n signed) (rangePoison (ownView s s.cur) key n)) := by
  have hn8 : n ≤ 8 := hn ▸ Nat.pow_le_pow_right (by omega) hj
  obtain ⟨hit, passes, -⟩ := place.passes
  rw [loadReg_clean clean ready, scalarCheck_passes hn (by omega) place.aligned ⟨hit, passes⟩ (waitsBehind_read place.behind own) (.inr place.held),
    scalarRead_place hn (by omega) place seen, extendBytes_readBytes hn8]
  rfl

/-- Without a store of its own it sees memory. -/
theorem loadReg_alone (alone : ∀ b ∈ s.stores, b.home ≠ .slot s.cur) :
    loadReg s w d a off n signed after = after (s.finish s.cur d (loadedValue s key n signed) (rangePoison s key n)) := by
  have view := ownView_none alone
  have run := loadReg_place (w := w) (signed := signed) (after := after) clean ready hn hj place (fun b hb hh => absurd hh (alone b hb))
    (view.symm ▸ place.passes)
  rwa [view] at run

end load

/-- An instruction that writes what it has read loads it. -/
theorem loads_of_finish {i : Instr} {s : State} {d : Nat} {v : Word} {p : Option PTag} (h : exec i s = next (s.finish s.cur d v p)) : Loads i s d v p :=
  ⟨_, h, finish_spec s d v p⟩

/-- An acquire in its place. -/
theorem exec_acq {s : State} {a : BitVec 6} {sc : BitVec 3} {key : Nat} (clean : s.me.Clean [a.toNat])
    (plain : PlainRead s (s.me.val a.toNat).toNat 8 key) : exec (.acq a sc) s = next (s.settleLinks.complete s.cur) := by
  obtain ⟨place, own, unpoisoned⟩ := plain
  obtain ⟨hit, passes, -⟩ := place.passes
  have view := ownView_none own
  have got := scalarRead_place (n := 8) (j := 3) rfl (by omega) place (view.symm ▸ place.passes)
  rw [view, unpoisoned] at got
  change next (whenReady s s.cur [a.toNat] (unlessPoisoned s s.cur [a.toNat] (scalarCheck _ _ _ _ _ _ _ _))) = _
  rw [whenReady_clean _ clean, unlessPoisoned_of_clean _ clean, scalarCheck_passes (n := 8) (j := 3) rfl (by omega) place.aligned
    ⟨hit, passes⟩ (waitsBehind_read place.behind fun b hb hh => absurd hh (own b hb)) (.inr place.held)]
  simp only [got]

end Sys2Proof.Proofs

namespace Sys2Proof.Settled

open Sys2Proof.Machine Sys2Proof.Proofs

/-- Settles O8: each is a read of the place under the slot's own view of memory. -/
theorem loadResults : Obligations.LoadResults := by
  refine ⟨fun d a ty o s key clean ready => ⟨fun plain => ?_, fun place => ⟨fun b own unpoisoned seen => ?_, fun t alone poisoned => ?_⟩⟩,
    fun d a q sc s key clean ready plain => ?_, fun a sc s key clean plain => passesInto_of_complete (exec_acq clean plain)⟩
  · obtain ⟨place, own, unpoisoned⟩ := plain
    have run := loadReg_alone (w := encode (.ld d a ty o)) (signed := ty.toNat % 2 == 0) (after := id) clean ready rfl (by omega) place own
    rw [unpoisoned] at run
    exact loads_of_finish (congrArg next run)
  · obtain ⟨written, cleaner⟩ := storeKey_plain (s := s) (tag := b.tag) (bs := b.bytes) own.plain.1
    have run := loadReg_place (w := encode (.ld d a ty o)) (signed := ty.toNat % 2 == 0) (after := id) clean ready rfl (by omega) place
      (ownStore_seen own) seen
    rw [ownView_one own, cleaner _ _ unpoisoned, loadedValue, written] at run
    exact loads_of_finish (congrArg next run)
  · have run := loadReg_alone (w := encode (.ld d a ty o)) (signed := ty.toNat % 2 == 0) (after := id) clean ready rfl (by omega) place alone
    rw [poisoned] at run
    exact ⟨_, loads_of_finish (congrArg next run)⟩
  · obtain ⟨place, own, unpoisoned⟩ := plain
    rw [← BitVec.add_zero (s.me.val a.toNat)] at place
    have run := loadReg_alone (w := encode (.ldacq d a q sc)) (signed := false) (after := State.settleLinks) clean ready rfl (by omega) place own
    rw [unpoisoned] at run
    exact ⟨_, congrArg next run, finish_spec s.settleLinks _ _ _⟩

end Sys2Proof.Settled

/-! The performing of a store (04_sequencer R109; 09_guard R241, R242; 20_link R431). -/

namespace Sys2Proof.Proofs

open Sys2Proof.Machine

/-- A store to ordinary memory is a release exactly when it was passed on as one. -/
theorem isRelease_ordinary {s : State} {a : PendAcc} (h : Ordinary s a.key a.bytes.length) (len : 0 < a.bytes.length) : a.isRelease s = a.release := by
  have notify : isNotify s a.key = false := by simpa using h.2.2 0 len
  rw [PendAcc.isRelease, isDoorbell, notify, Bool.false_and, Bool.or_false]

/-- When the oldest access of its slot may be performed: a release waits for what its slot has queued before it, and for acknowledgements. -/
theorem mayPerform_oldest {s : State} {a : PendAcc} {rest : List PendAcc} {q : Nat} (first : s.stores = a :: rest) (home : a.home = .slot q)
    (still : a.waiting = false) (later : ∀ b ∈ rest, b.home = .slot q → a.ord < b.ord) (ordinary : Ordinary s a.key a.bytes.length)
    (len : 0 < a.bytes.length) : mayPerform s a = true ↔ (a.release = true → vectorBefore s q a.ord = false ∧ unacked s (.slot q) = false) := by
  have none : (s.stores.any fun b => b.home == a.home && decide (b.ord < a.ord) &&
      (a.isRelease s || bytesMeet b.range a.range || bytesMeet (b.key, b.bytes.length) (a.key, a.bytes.length))) = false := by
    simp only [first, List.any_eq_false, Bool.and_eq_true, beq_iff_eq, decide_eq_true_eq, home]
    rintro b hb ⟨⟨own, before⟩, -⟩
    rcases List.mem_cons.mp hb with rfl | hb
    · omega
    · have := later b hb own
      omega
  rw [mayPerform, none, isRelease_ordinary ordinary len, still, home, queuedBefore]
  cases a.release <;> simp

/-- The bytes that a store puts at its key: a REL adds one to its word. -/
def bytesPerformed (s : State) (a : PendAcc) : List Byte :=
  if a.increment then leBytes 8 (BitVec.ofNat 64 (readLE s.mem a.key 8) + 1).toNat else a.bytes

theorem length_bytesPerformed {s : State} {a : PendAcc} (word : a.increment = true → a.bytes.length = 8) :
    (bytesPerformed s a).length = a.bytes.length := by
  unfold bytesPerformed
  split
  · next inc => rw [length_leBytes, word inc]
  · rfl

/-- A store that waits for no page is made at its key. -/
theorem performAcc_still {u : State} {a : PendAcc} (still : a.waiting = false) (ordinary : Ordinary u a.key a.bytes.length) (len : 0 < a.bytes.length)
    (clean : a.poison = none) (word : a.increment = true → a.bytes.length = 8 ∧ rangePoison u a.key 8 = none) :
    performAcc u a = storeDone (storeKey u a.tag a.key (bytesPerformed u a) none) a.home := by
  unfold performAcc bytesPerformed
  simp only [still, Bool.false_eq_true, if_false]
  split
  · next inc =>
    obtain ⟨eight, unpoisoned⟩ := word inc
    have place : Ordinary u a.key 8 := eight ▸ ordinary
    have raised : (readLE u.mem a.key 8 + 1) % 2 ^ 64 = (BitVec.ofNat 64 (readLE u.mem a.key 8) + 1).toNat := by
      simp [BitVec.toNat_add, Nat.add_mod]
    simp only [readKey_ordinary (by omega) place, unpoisoned]
    rw [writeKey_ordinary (by rwa [length_leBytes]) (by simp [length_leBytes]), ← raised]
    rfl
  · rw [clean, writeKey_ordinary ordinary len]
    rfl

/-- A store leaves the slots. -/
theorem storeKey_slots (u : State) (tag : STag) (key : Nat) (bs : List Byte) (p : Option PTag) : (storeKey u tag key bs p).slots = u.slots := by
  unfold storeKey
  split
  · rfl
  · split <;> rfl

/-- A store of a slot that is done is counted there. -/
theorem storeDone_slot {t : State} {q : Nat} {x : Slot} (h : t.slot q = x) :
    storeDone t (.slot q) = t.setSlot q { x with cnt := { x.cnt with stores := x.cnt.stores - 1 } } := by
  subst h
  rfl

/-- Counting a store that is done changes its slot alone. -/
theorem writesBytes_setSlot {u t : State} {key : Nat} {bs : List Byte} (h : WritesBytes u t key bs) (q : Nat) (x : Slot) :
    WritesBytes u (t.setSlot q x) key bs where
  device := by
    rw [h.device]
    rfl
  inside := h.inside
  outside := h.outside

end Sys2Proof.Proofs

namespace Sys2Proof.Settled

open Sys2Proof.Machine Sys2Proof.Proofs

/-- Settles O10: the oldest access of the slot is the one that is taken, and nothing but what a release waits for keeps it from its place. -/
theorem performedStoreWritesItsBytes : Obligations.PerformedStoreWritesItsBytes := by
  intro s a rest q first issuer home still later len ordinary clean word
  have may := mayPerform_oldest first home still later ordinary len
  have taken : takeAcc q 0 [] s.stores = some ([], a, rest) := by rw [first, takeAcc, if_pos issuer]
  have run : exec (.accessPerformed q 0) s = next (if mayPerform s a then performAcc { s with stores := rest } a else s) := by
    change execAccessPerformed q 0 s = _
    unfold execAccessPerformed
    simp only [taken, List.nil_append]
  refine ⟨fun release held => ?_, fun free => ?_⟩
  · rw [run, if_neg fun h => ?_]
    obtain ⟨queue, link⟩ := may.mp h release
    simp [queue, link] at held
  · obtain ⟨u, hu⟩ : ∃ u, u = ({ s with stores := rest } : State) := ⟨_, rfl⟩
    have stored : performAcc u a = storeDone (storeKey u a.tag a.key (bytesPerformed u a) none) (.slot q) := by
      rw [← home]
      subst hu
      exact performAcc_still still ordinary len clean fun inc =>
        ⟨(word inc).1, granulesPoison_mono (s := s) (t := { s with stores := rest }) (fun _ hk => hk) (word inc).2⟩
    have same : ∀ r, (storeKey u a.tag a.key (bytesPerformed u a) none).slot r = s.slot r := fun r => by
      rw [State.slot, storeKey_slots, hu, State.slot]
    refine ⟨_, by rw [run, if_pos (may.mpr free), ← hu, stored, storeDone_slot (same q)], ?_,
      fun r hr => (State.slot_setSlot_ne _ _ hr).trans (same r), State.slot_setSlot _ _ _⟩
    subst hu
    exact writesBytes_setSlot (storeKey_ordinary (by rw [length_bytesPerformed fun inc => (word inc).1]; exact ordinary)) _ _

end Sys2Proof.Settled

/-! Which parts of a state a translation looks at (11_page R279 to R292; 08_stream R221): neither the work of slots and cores nor the stores passed on,
but for the ASIDs that have a context; and that the two words of an aligned 16 bytes translate alike. -/

namespace Sys2Proof.Proofs

open Sys2Proof.Machine

/-- A state with other slots, cores and stores passed on. -/
def withWork (s : State) (slots : Tab Slot) (cores : Tab Core) (stores : List PendAcc) (n : Nat) : State :=
  { s with slots := slots, cores := cores, stores := stores, nextOp := n }

section work

variable {s : State} {slots : Tab Slot} {cores : Tab Core} {stores : List PendAcc} {n : Nat}

theorem granulesPoison_withWork : ∀ {c g : Nat}, granulesPoison (withWork s slots cores stores n) g c = granulesPoison s g c := by
  intro c
  induction c with
  | zero => exact rfl
  | succ c ih => exact congrArg (lowerTag _) ih

theorem rangePoison_withWork (key len : Nat) : rangePoison (withWork s slots cores stores n) key len = rangePoison s key len := granulesPoison_withWork

theorem walkFrom_withWork (va : Nat) : ∀ (levels : List (Nat × Nat)) (level tbl : Nat),
    walkFrom (withWork s slots cores stores n) va levels level tbl = walkFrom s va levels level tbl := by
  intro levels
  induction levels with
  | nil => exact fun _ _ => rfl
  | cons l rest ih =>
    intro level tbl
    simp only [walkFrom, rangePoison_withWork]
    cases rest with
    | nil => rfl
    | cons l' rest =>
      simp only [ih]
      rfl

theorem walk_withWork (asid : BitVec 12) (va : Nat) : walk (withWork s slots cores stores n) asid va = walk s asid va := by
  simp only [walk, asidOk, rangePoison_withWork, walkFrom_withWork]
  rfl

theorem tlbUse_withWork (ag : Agent) (va : Nat) (k : Access) : tlbUse (withWork s slots cores stores n) ag va k = tlbUse s ag va k := by
  simp only [tlbUse, rangePoison_withWork]
  rfl

theorem tlbForAsid_noSlice {s : State} {slice : Nat} (h : slice = noSlice) (asid : BitVec 12) : tlbForAsid s slice asid = some s.tlb := by
  subst h
  rfl

/-- An access that caches no new translation: one in the window, through a cached translation, of a page that is not cached, or of a unit without a
slice (11_page R279, R286, R288). -/
def CachesNothing (s : State) (ag : Agent) (va : Nat) (k : Access) : Prop :=
  inWindow s ag.cluster va = false → tlbUse s ag va k = none →
    ∀ level at_ w, walk s ag.asid va = .leaf level at_ w → leafState w = 5 ∨ ag.slice = noSlice

section access

variable {ag : Agent} {va : Nat} {k : Access} (h : CachesNothing s ag va k)
include h

/-- The check of an address of such an access does not depend on that work. -/
theorem checkAddr_withWork : checkAddr (withWork s slots cores stores n) ag va k = checkAddr s ag va k := by
  unfold checkAddr
  rw [tlbUse_withWork, walk_withWork, show inWindow (withWork s slots cores stores n) ag.cluster va = inWindow s ag.cluster va from rfl]
  by_cases window : inWindow s ag.cluster va = true
  · rw [if_pos window, if_pos window]
    rfl
  · rw [if_neg window, if_neg window]
    cases used : tlbUse s ag va k with
    | some e => rfl
    | none =>
      cases walked : walk s ag.asid va with
      | unmapped bad => rfl
      | leaf level at_ w =>
        rcases h (by simpa using window) used level at_ w walked with retired | slice
        · simp only [retired, ne_eq, not_true_eq_false, false_and, if_false]
          rfl
        · simp only [tlbForAsid_noSlice slice]
          rfl

/-- Nor does what its translation sets. -/
theorem touch_withWork : touch (withWork s slots cores stores n) ag va k = withWork (touch s ag va k) slots cores stores n := by
  unfold touch
  rw [tlbUse_withWork, walk_withWork, show inWindow (withWork s slots cores stores n) ag.cluster va = inWindow s ag.cluster va from rfl]
  by_cases window : inWindow s ag.cluster va = true
  · rw [if_pos window, if_pos window]
  · rw [if_neg window, if_neg window]
    cases used : tlbUse s ag va k with
    | some e =>
      by_cases needs : e.needsD k = true <;> simp only [needs, if_true] <;> rfl
    | none =>
      cases walked : walk s ag.asid va with
      | unmapped bad => rfl
      | leaf level at_ w =>
        rcases h (by simpa using window) used level at_ w walked with retired | slice
        · simp only [retired, if_true]
        · by_cases retired : leafState w = 5
          · simp only [retired, if_true]
          · by_cases same : w ||| (if k.writes then 0xC00#64 else 0x400#64) = w
            · simp only [retired, same, slice, if_true, if_false]
            · simp only [retired, same, slice, if_true, if_false]
              rfl

end access

/-- The page of an address is where the address is. -/
theorem page_bounds (va size : Nat) : va / pageBytes size * pageBytes size ≤ va ∧ va < va / pageBytes size * pageBytes size + pageBytes size := by
  have pos : 0 < pageBytes size := by
    unfold pageBytes
    split <;> decide
  exact ⟨Nat.div_mul_le_self _ _, Nat.lt_div_mul_add pos⟩

/-- A slice that has just been filled with the translation of an address finds that translation (11_page R288). -/
theorem tlbFind_filled {s : State} {t : List TlbEntry} {e : TlbEntry} {va : Nat} (filled : tlbFill t e = s.tlb) (slice : e.slice ≠ noSlice)
    (page : e.page = va / pageBytes e.size * pageBytes e.size) : tlbFind s e.slice e.asid va = some e := by
  rw [tlbFill, if_neg slice] at filled
  unfold tlbFind
  rw [← filled, List.find?_append, List.find?_eq_none.mpr, Option.none_or, List.find?_cons_of_pos (by simp [page])]
  intro x hx translates
  obtain ⟨-, apart⟩ := List.mem_filter.mp hx
  simp only [Bool.and_eq_true, beq_iff_eq] at translates
  obtain ⟨⟨hs, ha⟩, hp⟩ := translates
  have mine := page_bounds va e.size
  have other := page_bounds va x.size
  simp only [hs, ha, beq_self_eq_true, Bool.true_and, Bool.not_eq_true', Bool.and_eq_false_iff, decide_eq_false_iff_not] at apart
  omega

/-- A write that leaves the state caches nothing: a new entry would have been found before, with D set. -/
theorem cachesNothing_of_touch {s : State} {ag : Agent} {va : Nat} (cached : touch s ag va .write = s) : CachesNothing s ag va .write := by
  intro window used level at_ w walked
  by_contra fills
  obtain ⟨live, slice⟩ := not_or.mp fills
  unfold touch at cached
  rw [if_neg (by simp [window]), used, walked] at cached
  simp only [live, slice, if_false] at cached
  have found := tlbFind_filled (va := va) (congrArg State.tlb cached) slice rfl
  simp [tlbUse, found, TlbEntry.needsD, Access.writes] at used

/-- Nor then does a read. -/
theorem cachesNothing_read {s : State} {ag : Agent} {va : Nat} (h : CachesNothing s ag va .write) : CachesNothing s ag va .read := by
  intro window used level at_ w walked
  refine h window ?_ level at_ w walked
  unfold tlbUse at used ⊢
  split at used
  · simp [TlbEntry.needsD, Access.writes] at used
  · rfl

end work

/-- Whether the page of an access that stays in one granule is MIGRATING. -/
theorem migratingAt_one {s : State} {ag : Agent} {va n : Nat} (hn : 0 < n) (inside : va % 4096 + n ≤ 4096) :
    migratingAt s ag va n = false ↔ (checkAddr s ag va .read).toOption.map Hit.state ≠ some 3 ∧
      ((checkAddr s ag va .read).toOption = none → (checkAddr s ag va .write).toOption.map Hit.state ≠ some 3) := by
  unfold migratingAt
  rw [granuleAddrs_aligned hn inside]
  cases read : checkAddr s ag va .read <;> cases write : checkAddr s ag va .write <;> simp [read, write, Except.toOption]

theorem dvd_pageBytes (size : Nat) : 16 ∣ pageBytes size := by
  unfold pageBytes
  split <;> decide

/-- The state of the page of an access that its leaf lets pass. -/
theorem checkLeaf_state (s : State) (ag : Agent) (va : Nat) (k : Access) (size : Nat) (e : Word) :
    (checkLeaf s ag va k size e).toOption.map Hit.state =
      if leafState e = 5 then none
      else if leafPermits e ag.level k = false || (isWindow (keyOfPa s (leafPa e + va % pageBytes size)) && ag.level != .firmware) then none
      else if leafState e = 4 ∧ k.writes = true then none else some (leafState e) := by
  simp only [checkLeaf, apply_ite Except.toOption, apply_ite (Option.map Hit.state)]
  rfl

section pair

variable {s : State} {ag : Agent} {va : Nat} (aligned : va % 16 = 0)
include aligned

/-- The second word of an aligned pair lies in every block of 16 bytes or a multiple where the first one lies. -/
theorem div_second {m : Nat} (h : 16 ∣ m) : (va + 8) / m = va / m := by
  obtain ⟨k, rfl⟩ := h
  rw [← Nat.div_div_eq_div_mul, ← Nat.div_div_eq_div_mul]
  congr 1
  omega

theorem mod_second {m : Nat} (h : 16 ∣ m) : (va + 8) % m = va % m + 8 := by
  have same := div_second aligned h
  have first := Nat.div_add_mod va m
  have second := Nat.div_add_mod (va + 8) m
  rw [same] at second
  omega

theorem walkFrom_second : ∀ (levels : List (Nat × Nat)), (∀ l ∈ levels, 4 ≤ l.1) → ∀ level tbl,
    walkFrom s (va + 8) levels level tbl = walkFrom s va levels level tbl := by
  intro levels
  induction levels with
  | nil => exact fun _ _ _ => rfl
  | cons l rest ih =>
    intro high level tbl
    have index : (va + 8) / 2 ^ l.1 = va / 2 ^ l.1 := div_second aligned (Nat.pow_dvd_pow 2 (high l (by simp)))
    have deeper := ih fun m hm => high m (List.mem_cons_of_mem _ hm)
    simp only [walkFrom, index]
    cases rest with
    | nil => rfl
    | cons l' rest => simp only [deeper]

theorem walk_second (asid : BitVec 12) : walk s asid (va + 8) = walk s asid va := by
  simp only [walk, walkFrom_second aligned walkLevels (by decide)]

theorem tlbUse_second (k : Access) : tlbUse s ag (va + 8) k = tlbUse s ag va k := by
  simp only [tlbUse, tlbFind, div_second aligned (dvd_pageBytes _)]

theorem isWindow_second : isWindow (keyOfPa s (va + 8)) = isWindow (keyOfPa s va) := by
  have base : windowBase = 0x0FFFFC000000 := rfl
  unfold keyOfPa isWindow
  rw [div_second aligned (m := 2 ^ 44) (by decide), mod_second aligned (m := 2 ^ 44) (by decide)]
  split <;> rw [← Bool.decide_and, ← Bool.decide_and, decide_eq_decide] <;> omega

/-- It passes as the first does, in a page of the same state. -/
theorem checkLeaf_second (k : Access) (size : Nat) (e : Word) :
    (checkLeaf s ag (va + 8) k size e).toOption.map Hit.state = (checkLeaf s ag va k size e).toOption.map Hit.state := by
  have place : (leafPa e + va % pageBytes size) % 16 = 0 := by
    obtain ⟨m, hm⟩ := dvd_pageBytes size
    have : va % pageBytes size % 16 = va % 16 := by rw [hm, Nat.mod_mul_right_mod]
    unfold leafPa
    omega
  rw [checkLeaf_state, checkLeaf_state, mod_second aligned (dvd_pageBytes size), ← Nat.add_assoc, isWindow_second place]

variable (base : (spBase s ag.cluster).toNat % 16 = 0)
include base

theorem inWindow_second : inWindow s ag.cluster (va + 8) = inWindow s ag.cluster va := by
  have bytes : Config.windowBytes = 0x4000000 := rfl
  unfold inWindow
  rw [← Bool.decide_and, ← Bool.decide_and, decide_eq_decide]
  omega

/-- The same of the check of an address. -/
theorem checkAddr_second (k : Access) :
    (checkAddr s ag (va + 8) k).toOption.map Hit.state = (checkAddr s ag va k).toOption.map Hit.state := by
  unfold checkAddr
  rw [inWindow_second aligned base, tlbUse_second aligned, walk_second aligned]
  by_cases window : inWindow s ag.cluster va = true
  · have sector : sectorOf (windowKey s ag.cluster (va + 8)) = sectorOf (windowKey s ag.cluster va) := by
      simp only [inWindow, Bool.and_eq_true, decide_eq_true_eq] at window
      simp only [sectorOf, windowKey, Config.windowBytes, Config.padKey]
      omega
    simp only [window, if_true, sector]
    split <;> simp [Except.toOption]
  · have far : (2 ^ 56 ≤ va + 8) = (2 ^ 56 ≤ va) := by
      rw [eq_iff_iff]
      omega
    simp only [window, far]
    by_cases high : 2 ^ 56 ≤ va
    · simp only [high, if_true, Bool.false_eq_true, if_false, Except.toOption, Option.map_none]
    · simp only [high, if_false]
      cases tlbUse s ag va k with
      | some e => exact checkLeaf_second aligned k e.size e.leaf
      | none =>
        cases walk s ag.asid va with
        | unmapped bad => simp [Except.toOption]
        | leaf level at_ e =>
          by_cases full : leafState e ≠ 5 ∧ (tlbForAsid s ag.slice ag.asid).isNone = true
          · simp [full, Except.toOption]
          · simp only [full]
            exact checkLeaf_second aligned k _ e

/-- So no page of the second word is MIGRATING where none of the pair is. -/
theorem migratingAt_second (still : migratingAt s ag va 16 = false) : migratingAt s ag (va + 8) 8 = false := by
  obtain ⟨read, write⟩ := (migratingAt_one (by omega) (by omega)).mp still
  have first := checkAddr_second aligned base (s := s) .read
  refine (migratingAt_one (by omega) (by omega)).mpr ⟨first ▸ read, fun none => ?_⟩
  rw [checkAddr_second aligned base .write]
  refine write ((Option.map_eq_none_iff (f := Hit.state)).mp ?_)
  rw [← first, none, Option.map_none]

/-- A translation of the second word sets what one of the first sets. -/
theorem touch_second (k : Access) : touch s ag (va + 8) k = touch s ag va k := by
  simp only [touch, inWindow_second aligned base, tlbUse_second aligned, walk_second aligned, div_second aligned (dvd_pageBytes _)]

theorem cachesNothing_second {k : Access} (h : CachesNothing s ag va k) : CachesNothing s ag (va + 8) k := by
  unfold CachesNothing
  rwa [inWindow_second aligned base, tlbUse_second aligned, walk_second aligned]

/-- Where an aligned pair of words may be stored through a cached translation, with no page MIGRATING, so may its second word once other work has gone on. -/
theorem second_cached {slots : Tab Slot} {cores : Tab Core} {stores : List PendAcc} {n : Nat} (cached : touch s ag va .write = s)
    (still : migratingAt s ag va 16 = false) :
    touch (withWork s slots cores stores n) ag (va + 8) .write = withWork s slots cores stores n ∧
      migratingAt (withWork s slots cores stores n) ag (va + 8) 8 = false := by
  have write := cachesNothing_second aligned base (cachesNothing_of_touch cached)
  refine ⟨?_, ?_⟩
  · rw [touch_withWork write, touch_second aligned base, cached]
  · have before := migratingAt_second aligned base still
    unfold migratingAt at before ⊢
    rw [granuleAddrs_aligned (by omega) (by omega)] at before ⊢
    simpa only [List.any_cons, List.any_nil, checkAddr_withWork write, checkAddr_withWork (cachesNothing_read write)] using before

end pair

end Sys2Proof.Proofs

/-! CALL and RET (04_sequencer R96 to R98; 03_encoding R79): the two stores of a CALL and the vector-state word. -/

namespace Sys2Proof.Proofs

open Sys2Proof.Machine

/-- A bit of a word as a digit of its number. -/
theorem getLsbD_eq_digit {w : Nat} (x : BitVec w) (i : Nat) : x.getLsbD i = decide (x.toNat / 2 ^ i % 2 = 1) := by
  rw [← BitVec.testBit_toNat, Nat.testBit_eq_decide_div_mod_eq]

theorem toNat_decide_digit (n : Nat) : (decide (n % 2 = 1)).toNat = n % 2 := by
  rcases Nat.mod_two_eq_zero_or_one n with h | h <;> simp [h]

/-- Seven fields laid side by side, as in a vector-state word, are read back. -/
theorem fields_of_sum {n v a b c d e f : Nat} (hn : n = v + a * 2 ^ 14 + b * 2 ^ 17 + c * 2 ^ 19 + d * 2 ^ 22 + e * 2 ^ 23 + f * 2 ^ 24)
    (hv : v < 2 ^ 14) (ha : a < 8) (hb : b < 4) (hc : c < 8) (hd : d < 2) (he : e < 2) (hf : f < 2) :
    n % 2 ^ 14 = v ∧ n / 2 ^ 14 % 2 ^ 3 = a ∧ n / 2 ^ 17 % 2 ^ 2 = b ∧ n / 2 ^ 19 % 2 ^ 3 = c ∧ n / 2 ^ 22 % 2 = d ∧ n / 2 ^ 23 % 2 = e ∧
      n / 2 ^ 24 % 2 = f := by
  omega

/-- The fields of a vector-state word (03_encoding R79). -/
theorem vswWord_fields {x : Slot} (h : x.vl < 2 ^ 14) :
    wbits (vswWord x) 13 0 = x.vl ∧ wbits (vswWord x) 16 14 = wbits (x.vcfg.setWidth 64) 2 0 ∧
      wbits (vswWord x) 18 17 = wbits (x.vcfg.setWidth 64) 4 3 ∧ wbits (vswWord x) 21 19 = wbits (x.vcfg.setWidth 64) 10 8 ∧
      (vswWord x).getLsbD 22 = x.vcfg.getLsbD 11 ∧ (vswWord x).getLsbD 23 = x.vcfg.getLsbD 5 ∧ (vswWord x).getLsbD 24 = x.vcfg.getLsbD 6 := by
  have width : (x.vcfg.setWidth 64).toNat = x.vcfg.toNat := by simp; omega
  have sum : (vswWord x).toNat = x.vl + x.vcfg.toNat % 8 * 2 ^ 14 + x.vcfg.toNat / 8 % 4 * 2 ^ 17 + x.vcfg.toNat / 2 ^ 8 % 8 * 2 ^ 19 +
      x.vcfg.toNat / 2 ^ 11 % 2 * 2 ^ 22 + x.vcfg.toNat / 2 ^ 5 % 2 * 2 ^ 23 + x.vcfg.toNat / 2 ^ 6 % 2 * 2 ^ 24 := by
    simp only [vswWord, getLsbD_eq_digit, toNat_decide_digit, BitVec.toNat_ofNat]
    omega
  obtain ⟨vl, ew, g, cvs, mp, tp, vm⟩ := fields_of_sum sum h (by omega) (by omega) (by omega) (by omega) (by omega) (by omega)
  simp only [wbits, getLsbD_eq_digit, width, decide_eq_decide]
  refine ⟨by simpa using vl, by simpa using ew, by simpa using g, by simpa using cvs, by rw [mp], by rw [tp], by rw [vm]⟩

/-- The same of the eight fields of VCFG. -/
theorem vcfg_of_sum {n a b c d e f g h : Nat}
    (hn : n = a + b * 2 ^ 3 + c * 2 ^ 5 + d * 2 ^ 6 + e * 2 ^ 7 + f * 2 ^ 8 + g * 2 ^ 11 + h * 2 ^ 12) (ha : a < 2 ^ 3) (hb : b < 2 ^ 2)
    (hc : c < 2 ^ 1) (hd : d < 2 ^ 1) (he : e < 2) (hf : f < 2 ^ 3) (hg : g < 2 ^ 1) :
    n % 2 ^ 3 = a ∧ n / 2 ^ 3 % 2 ^ 2 = b ∧ n / 2 ^ 5 % 2 = c ∧ n / 2 ^ 6 % 2 = d ∧ n / 2 ^ 7 % 2 = e ∧ n / 2 ^ 8 % 2 ^ 3 = f ∧
      n / 2 ^ 11 % 2 = g ∧ n / 2 ^ 12 = h := by
  omega

/-- VCFG with the fields of a vector-state word; FT and CVS stay. -/
theorem vcfgOfVsw_fields (c : BitVec 14) (w : Word) :
    wbits ((vcfgOfVsw c w).setWidth 64) 2 0 = wbits w 16 14 ∧ wbits ((vcfgOfVsw c w).setWidth 64) 4 3 = wbits w 18 17 ∧
      (vcfgOfVsw c w).getLsbD 5 = w.getLsbD 23 ∧ (vcfgOfVsw c w).getLsbD 6 = w.getLsbD 24 ∧ (vcfgOfVsw c w).getLsbD 7 = c.getLsbD 7 ∧
      wbits ((vcfgOfVsw c w).setWidth 64) 10 8 = wbits w 21 19 ∧ (vcfgOfVsw c w).getLsbD 11 = w.getLsbD 22 ∧
      wbits ((vcfgOfVsw c w).setWidth 64) 13 12 = wbits (c.setWidth 64) 13 12 := by
  have fits (x : BitVec 14) : (x.setWidth 64).toNat = x.toNat := by simp; omega
  have bound (hi lo : Nat) : wbits w hi lo < 2 ^ (hi + 1 - lo) := Nat.mod_lt _ (Nat.two_pow_pos _)
  have ew := bound 16 14
  have g := bound 18 17
  have mp := bound 23 23
  have tp := bound 24 24
  have ma := bound 21 19
  have va := bound 22 22
  have hc := c.isLt
  have sum : (vcfgOfVsw c w).toNat = wbits w 16 14 + wbits w 18 17 * 2 ^ 3 + wbits w 23 23 * 2 ^ 5 + wbits w 24 24 * 2 ^ 6 +
      c.toNat / 2 ^ 7 % 2 * 2 ^ 7 + wbits w 21 19 * 2 ^ 8 + wbits w 22 22 * 2 ^ 11 + c.toNat / 2 ^ 12 * 2 ^ 12 := by
    simp only [vcfgOfVsw, getLsbD_eq_digit, toNat_decide_digit, BitVec.toNat_ofNat]
    omega
  have digit (i : Nat) : w.toNat / 2 ^ i % 2 = wbits w i i := by simp [wbits]
  obtain ⟨r0, r3, r5, r6, r7, r8, r11, r12⟩ := vcfg_of_sum sum ew g mp tp (by omega) ma va
  simp only [getLsbD_eq_digit, decide_eq_decide, digit]
  simp only [wbits, fits] at *
  exact ⟨by simpa using r0, by simpa using r3, by rw [r5], by rw [r6], by rw [r7], by simpa using r8, by rw [r11], by simpa using congrArg (· % 4) r12⟩

/-- Writing a register and going elsewhere changes nothing else of a slot. -/
theorem putJump_spec (x : Slot) {d : Nat} (hd : d ≠ 0) (v : Word) (p : Option PTag) (target : Word) :
    SystemKept x ((x.put d v p).jump target) ∧ RegsKept x ((x.put d v p).jump target) [d] ∧
      ((x.put d v p).jump target).sreg d = ⟨v, p, .ready⟩ ∧ WentTo x ((x.put d v p).jump target) target := by
  refine ⟨?_, fun r hr => ?_, ?_, rfl, ?_, rfl, ?_, rfl⟩
  · unfold SystemKept Slot.put Slot.jump
    rw [Slot.setReg_eq]
  · exact Slot.sreg_setReg_ne _ _ (by simpa using hr)
  · exact Slot.sreg_setReg _ _ hd
  · exact congrArg some (Slot.setReg_pc _ _ _)
  · exact Slot.setReg_loops _ _ _

/-- Two stores of a slot passed on one after the other. -/
theorem withStore_withStore (s : State) (q : Nat) (x y : PendAcc) :
    withStore (withStore s q x) q y =
      ({ s with stores := s.stores ++ [x, y], nextOp := s.nextOp + 2 } : State).setSlot q ((s.slot q).countStores 2) := by
  have counted : (withStore s q x).slot q = (s.slot q).countStores 1 := State.slot_setSlot _ _ _
  have stores : s.stores ++ [x] ++ [y] = s.stores ++ [x, y] := by simp
  calc withStore (withStore s q x) q y
      = (({ s with stores := s.stores ++ [x] ++ [y], nextOp := s.nextOp + 2 } : State).setSlot q ((s.slot q).countStores 1)).setSlot q
          (((withStore s q x).slot q).countStores 1) := rfl
    _ = _ := by
      rw [counted, State.setSlot_setSlot, stores]
      rfl

/-- The pair of stores of a CALL: with the first passed on, the second one finds its place as the first did. -/
theorem pushStore_pair {s : State} {q va : Nat} {bs bs' : List Byte} (aligned : va % 16 = 0) (base : (spBase s (clusterOf q)).toNat % 16 = 0)
    (len : bs.length = 8) (len' : bs'.length = 8) (cached : touch s (scalarAgent s q) va .write = s) (still : migratingAt s (scalarAgent s q) va 16 = false) :
    pushStore (pushStore s q va bs none false false) q (va + 8) bs' none false false =
      withStore (withStore s q (storePassed s q va bs none false false)) q
        (storePassed (withStore s q (storePassed s q va bs none false false)) q (va + 8) bs' none false false) := by
  have slot : (withStore s q (storePassed s q va bs none false false)).slot q = (s.slot q).countStores 1 := State.slot_setSlot _ _ _
  have agent : scalarAgent (withStore s q (storePassed s q va bs none false false)) q = scalarAgent s q := by
    unfold scalarAgent
    rw [slot]
    rfl
  have first : migratingAt s (scalarAgent s q) va 8 = false := by
    unfold migratingAt at still ⊢
    rwa [granuleAddrs_aligned (by omega) (by omega)] at still ⊢
  obtain ⟨cached', still'⟩ := second_cached (slots := (withStore s q (storePassed s q va bs none false false)).slots) (cores := s.cores)
    (stores := (withStore s q (storePassed s q va bs none false false)).stores) (n := s.nextOp + 1) aligned base cached still
  have earlier : pushStore s q va bs none false false = withStore s q (storePassed s q va bs none false false) :=
    pushStore_eq (by rwa [len]) (by rw [len, touchRange_one (by omega) (by omega)]; exact cached)
  rw [earlier]
  refine pushStore_eq ?_ ?_
  · rw [len', agent]
    exact still'
  · rw [len', agent, touchRange_one (by omega) (by omega)]
    exact cached'

/-- The slot that has made a call: s63 lowered, at the target. -/
def called (u : State) (q : Nat) (sp target : Word) : State := u.setSlot q (((u.slot q).put 63 sp none).jump target)

/-- What CALL and CALLR do once their target is known. -/
theorem callPush_spec {s : State} {i : Instr} {w : Option Nat} {target : Word} {key : Nat} (h : exec i s = next (callPush s w target))
    (clean : s.me.Clean [63]) (plain : PlainWrite s .write (s.me.val 63 - 16).toNat 16 2 key) (aligned : (s.me.val 63).toNat % 16 = 0)
    (base : (spBase s (clusterOf s.cur)).toNat % Config.windowBytes = 0) :
    ∃ t x y, exec i s = .next t ∧ OnlyStores s t s.cur [x, y] ∧ SystemKept (s.me.countStores 2) t.me ∧ RegsKept s.me t.me [63] ∧
      t.me.sreg 63 = ⟨s.me.val 63 - 16, none, .ready⟩ ∧ WentTo s.me t.me target ∧
      StoreOf s.nextOp s.cur (s.me.val 63 - 16) key (leBytes 8 (s.me.pc + 4).toNat) none false x ∧
      y.va = s.me.val 63 - 8 ∧ y.ord = s.nextOp + 1 ∧ y.bytes = leBytes 8 (vswWord s.me).toNat := by
  have base16 : (spBase s (clusterOf s.cur)).toNat % 16 = 0 := by
    rw [show Config.windowBytes = 0x4000000 from rfl] at base
    omega
  obtain ⟨word, passes, cached, still, unblocked, behind, held, room⟩ := plain
  obtain ⟨hit, passed, at_key⟩ := passes
  let x := storePassed s s.cur (s.me.val 63 - 16).toNat (leBytes 8 (s.me.pc + 4).toNat) none false false
  let y := storePassed (withStore s s.cur x) s.cur ((s.me.val 63 - 16).toNat + 8) (leBytes 8 (vswWord s.me).toNat) none false false
  have pair := pushStore_pair (s := s) (q := s.cur) (bs := leBytes 8 (s.me.pc + 4).toNat) (bs' := leBytes 8 (vswWord s.me).toNat) word base16
    (length_leBytes _ _) (length_leBytes _ _) cached still
  have run : callPush s w target = called (withStore (withStore s s.cur x) s.cur y) s.cur (s.me.val 63 - 16) target := by
    change whenReady s s.cur [63] (unlessPoisoned s s.cur [63] (if (s.me.val 63).toNat % 16 ≠ 0 then _ else
      scalarCheck s s.cur w .write (s.me.val 63 - 16).toNat 16 16 (whenStoreRoom s s.cur 2 (called (pushStore (pushStore s s.cur _ _ none false false)
        s.cur ((s.me.val 63 - 16).toNat + 8) _ none false false) s.cur (s.me.val 63 - 16) target)))) = _
    rw [whenReady_clean _ clean, unlessPoisoned_of_clean _ clean, if_neg (not_not.mpr aligned),
      scalarCheck_passes (n := 16) (j := 4) rfl (by omega) word ⟨hit, passed⟩ (waitsBehind_none unblocked behind (by simp)) held, whenStoreRoom_of _ room]
    exact congrArg (fun u => called u s.cur (s.me.val 63 - 16) target) pair
  rw [withStore_withStore, called, State.setSlot_setSlot, State.slot_setSlot] at run
  obtain ⟨kept, regs, stack, went⟩ := putJump_spec (s.me.countStores 2) (d := 63) (by decide) (s.me.val 63 - 16) none target
  refine ⟨_, x, y, h.trans (congrArg next run), ⟨fun r hr => State.slot_setSlot_ne _ _ hr, rfl, rfl, fun _ => rfl⟩, ?_⟩
  rw [me_setSlot_of rfl]
  refine ⟨kept, fun r hr => regs r hr, stack, went, ?_, ?_, rfl, rfl⟩
  · have address : BitVec.ofNat 64 (s.me.val 63 - 16).toNat = s.me.val 63 - 16 := by rw [BitVec.ofNat_toNat, BitVec.setWidth_eq]
    exact ⟨rfl, rfl, address, keyOfVa_of ⟨hit, passed, at_key⟩, rfl, rfl, rfl, rfl, rfl, rfl⟩
  · change BitVec.ofNat 64 ((s.me.val 63 - 16).toNat + 8) = s.me.val 63 - 8
    bv_omega

section jumps

variable {s : State} (outside : s.me.OutsideRep) (known : vlPending s s.cur = false)
include outside known

theorem exec_call (o : BitVec 26) : exec (.call o) s = next (callPush s (encode (.call o)) (s.me.pc + 4 * o.signExtend 64)) := by
  change next (outsideRep s s.cur _ (whenVl s s.cur _)) = _
  rw [outsideRep_outside outside, whenVl, known, if_neg Bool.false_ne_true, jumpTarget, shiftLeft_two]

theorem exec_callr {a : BitVec 6} (clean : s.me.Clean [a.toNat]) (stack : s.me.Clean [63]) (aligned : (s.me.val a.toNat).toNat % 4 = 0) :
    exec (.callr a) s = next (callPush s (encode (.callr a)) (s.me.val a.toNat)) := by
  have ready : (s.slot s.cur).pendingAmong [a.toNat, 63] = none := pendingAmong_cons (clean a.toNat (by simp)).1 stack
  change next (outsideRep s s.cur _ (whenReady s s.cur _ (unlessPoisoned s s.cur _ (if (s.me.val a.toNat).toNat % 4 ≠ 0 then _ else whenVl s s.cur _)))) = _
  rw [outsideRep_outside outside, whenReady_ready _ ready, unlessPoisoned_of_clean _ clean, if_neg (not_not.mpr aligned), whenVl, known,
    if_neg Bool.false_ne_true]

/-- RET reads both words of its frame at once, and returns by them. -/
theorem exec_ret {key : Nat} (stack : s.me.Clean [63]) (plain : PlainRead s (s.me.val 63).toNat 16 key) :
    exec .ret s = next (retFrom s s.cur (BitVec.ofNat 64 (readLE s.mem key 8)) (BitVec.ofNat 64 (readLE s.mem (key + 8) 8))) := by
  obtain ⟨place, own, unpoisoned⟩ := plain
  obtain ⟨hit, passes, -⟩ := place.passes
  have view := ownView_none own
  have got := scalarRead_place (n := 16) (j := 4) rfl (by omega) place (view.symm ▸ place.passes)
  rw [view, unpoisoned] at got
  change next (outsideRep s s.cur _ (whenReady s s.cur _ (unlessPoisoned s s.cur _ (whenVl s s.cur (if (s.me.val 63).toNat % 16 ≠ 0 then _ else
    scalarCheck s s.cur _ .read (s.me.val 63).toNat 16 16 _))))) = _
  rw [outsideRep_outside outside, whenReady_clean _ stack, unlessPoisoned_of_clean _ stack, whenVl, known, if_neg Bool.false_ne_true,
    if_neg (not_not.mpr place.aligned), scalarCheck_passes (n := 16) (j := 4) rfl (by omega) place.aligned ⟨hit, passes⟩
      (waitsBehind_read place.behind fun b hb hh => absurd hh (own b hb)) (.inr place.held)]
  simp only [got]
  rfl

end jumps

/-- A return by two words that pass its checks. -/
theorem retFrom_spec {s : State} {i : Instr} {w0 w1 : Word} (h : exec i s = next (retFrom s s.cur w0 w1)) (reserved : wbits w1 63 25 = 0)
    (width : wbits w1 16 14 ≤ 5) (length : wbits w1 13 0 ≤ s.me.vlmax (vcfgOfVsw s.me.vcfg w1)) (aligned : w0.toNat % 4 = 0) :
    ∃ t, exec i s = .next t ∧ OnlySlot s t s.cur ∧ SystemKept { s.me with vl := wbits w1 13 0, vcfg := vcfgOfVsw s.me.vcfg w1 } t.me ∧
      RegsKept s.me t.me [63] ∧ t.me.sreg 63 = ⟨s.me.val 63 + 16, none, .ready⟩ ∧ WentTo s.me t.me w0 := by
  have checked : retFrom s s.cur w0 w1 = s.setSlot s.cur
      (({ s.me with vcfg := vcfgOfVsw s.me.vcfg w1, vl := wbits w1 13 0 }.put 63 (s.me.val 63 + 16) none).jump w0) :=
    (if_neg (by omega)).trans ((if_neg (not_lt.mpr length)).trans (if_neg (not_not.mpr aligned)))
  obtain ⟨kept, regs, sp, went⟩ :=
    putJump_spec { s.me with vcfg := vcfgOfVsw s.me.vcfg w1, vl := wbits w1 13 0 } (d := 63) (by decide) (s.me.val 63 + 16) none w0
  refine ⟨_, h.trans (congrArg next checked), onlySlot_setSlot _ _ _, ?_⟩
  rw [me_setSlot_of rfl]
  exact ⟨kept, fun r hr => regs r hr, sp, went⟩

end Sys2Proof.Proofs

namespace Sys2Proof.Settled

open Sys2Proof.Machine Sys2Proof.Proofs

/-- Settles O13: CALL and CALLR are one push of two words, RET one read of both. -/
theorem callAndReturn : Obligations.CallAndReturn := by
  refine ⟨fun s key outside stack known plain aligned base vl => ?_, fun s key outside stack known plain reserved width length word => ?_⟩
  · have calls {i : Instr} {w : Option Nat} {target : Word} (h : exec i s = next (callPush s w target)) := callPush_spec h stack plain aligned base
    refine ⟨fun o => ?_, fun a clean word => ?_⟩
    · obtain ⟨t, x, y, ran, only, kept, regs, sp, went, first, va, ord, bytes⟩ := calls (exec_call outside known o)
      exact ⟨t, x, y, ran, only, kept, regs, sp, went, first, va, ord, _, bytes, vswWord_fields vl⟩
    · obtain ⟨t, x, y, ran, only, kept, regs, sp, went, first, va, ord, bytes⟩ := calls (exec_callr outside known clean stack word)
      exact ⟨t, x, y, ran, only, kept, regs, sp, went, first, va, ord, _, bytes, vswWord_fields vl⟩
  · obtain ⟨t, ran, only, kept, regs, sp, went⟩ := retFrom_spec (exec_ret outside known stack plain) reserved width length word
    exact ⟨t, ran, only, kept, regs, sp, went, vcfgOfVsw_fields _ _⟩

end Sys2Proof.Settled

/-! The floating-point instructions (04_sequencer R91 to R94; 02_numbers R30, R34 to R36): what an operation of the FPU does to its slot, and comparison,
minimum and maximum against the order of the extended numbers. -/

namespace Sys2Proof.Proofs

open Sys2Proof.Machine

/-- An operation of the FPU on clean sources writes its code and ORs its flags. -/
theorem writesFloat_of_fpu {i : Instr} {d : Nat} {srcs : List Nat} {v w : Slot → Nat × FFlags} (h : ∀ s, exec i s = next (fpu s d srcs v))
    (hv : ∀ x, v x = w x) : WritesFloat i d srcs w := by
  intro s clean ready
  have run : exec i s = next (s.setSlot s.cur ((s.me.addFlags (w s.me).2).put d (BitVec.ofNat 64 (w s.me).1) none).complete) := by
    have unpoisoned : s.me.poisonAmong srcs = none := poisonAmong_clean clean
    rw [h, ← hv]
    change next (whenReady s s.cur (d :: srcs) (s.setSlot s.cur
      (((if (s.me.poisonAmong srcs).isSome then s.me else s.me.addFlags (v s.me).2).put d (BitVec.ofNat 64 (v s.me).1) (s.me.poisonAmong srcs)).complete))) = _
    rw [whenReady_ready _ (pendingAmong_cons ready clean), unpoisoned]
    rfl
  have old : ∀ r, (s.me.addFlags (w s.me).2).sreg r = s.me.sreg r := fun _ => rfl
  refine ⟨_, run, onlySlot_setSlot _ _ _, ?_⟩
  rw [me_setSlot_of rfl]
  refine ⟨?_, fun r hr => ?_, ⟨rfl, ?_, ?_⟩, fun hd => ?_⟩
  · unfold SystemKept Slot.put Slot.complete
    rw [Slot.setReg_eq]
    rfl
  · rw [Slot.sreg_complete, ← old]
    exact Slot.sreg_setReg_ne _ _ (by simpa using hr)
  · exact congrArg some (Slot.setReg_pc _ _ _)
  · have pc : ((s.me.addFlags (w s.me).2).put d (BitVec.ofNat 64 (w s.me).1) none).pc = s.me.pc := Slot.setReg_pc _ _ _
    have loops : ((s.me.addFlags (w s.me).2).put d (BitVec.ofNat 64 (w s.me).1) none).loops = s.me.loops := Slot.setReg_loops _ _ _
    rw [← pc, ← loops]
    rfl
  · rw [Slot.sreg_complete]
    exact Slot.sreg_setReg _ _ hd

/-- The operand of a precision is the statement's. -/
theorem fpOperand_eq (p : BitVec 1) (w : Word) : fpOperand p w = scalarValue p w := by
  unfold fpOperand scalarValue fpFmt
  split <;> rfl

/-- A finite number in units of a power of two at or below its exponent (00_scope R8). -/
theorem realOfFin_eq_units (neg : Bool) (m : Nat) {e q : Int} (h : q ≤ e) : realOfFin neg m e = (unitsOf neg m e q : ℚ) * (2 : ℚ) ^ q := by
  have exponent : (2 : ℚ) ^ e = 2 ^ (e - q).toNat * 2 ^ q := by
    rw [← zpow_natCast, ← zpow_add₀ (by norm_num), Int.toNat_of_nonneg (by omega), Int.sub_add_cancel]
  unfold realOfFin unitsOf
  rw [exponent]
  cases neg <;> simp <;> ring

/-- A number of units of a power of two, as an extended number. -/
def extendedUnits (q : Int) (n : Int) : WithBot (WithTop ℚ) := (((n * (2 : ℚ) ^ q : ℚ) : WithTop ℚ) : WithBot (WithTop ℚ))

theorem strictMono_extendedUnits (q : Int) : StrictMono (extendedUnits q) := fun m n h => by
  have unit : (0 : ℚ) < 2 ^ q := by positivity
  exact WithBot.coe_lt_coe.mpr (WithTop.coe_lt_coe.mpr (mul_lt_mul_of_pos_right (by exact_mod_cast h) unit))

/-- The model's comparison of values that are no NaN is the order of the extended numbers. -/
theorem fCompare_extended {a b : FVal} {u v : WithBot (WithTop ℚ)} (ha : a.extended = some u) (hb : b.extended = some v) :
    fCompare a b = some (cmp u v) := by
  cases a with
  | nan s => cases ha
  | inf n =>
    cases b with
    | nan s => cases hb
    | inf n' =>
      cases ha
      cases hb
      cases n <;> cases n' <;> simp [fCompare, cmp, cmpUsing]
    | fin n' m' e' i' =>
      cases ha
      cases hb
      cases n <;> simp [fCompare, cmp, cmpUsing]
  | fin n m e i =>
    cases b with
    | nan s => cases hb
    | inf n' =>
      cases ha
      cases hb
      cases n' <;> simp [fCompare, cmp, cmpUsing]
    | fin n' m' e' i' =>
      cases ha
      cases hb
      have left := realOfFin_eq_units n m (min_le_left e e')
      have right := realOfFin_eq_units n' m' (min_le_right e e')
      have monotone := (strictMono_extendedUnits (min e e')).cmp_map_eq (unitsOf n m e (min e e')) (unitsOf n' m' e' (min e e'))
      unfold extendedUnits at monotone
      rw [← left, ← right] at monotone
      rw [monotone, cmp_eq_compare]
      rfl

/-- A value is no number and no infinity exactly when it is a NaN. -/
theorem extended_eq_none {v : FVal} : v.extended = none ↔ ∃ s, v = .nan s := by
  cases v <;> simp [FVal.extended]

/-- A value that is no NaN raises nothing. -/
theorem nv_of_extended {v : FVal} {u : WithBot (WithTop ℚ)} (h : v.extended = some u) : v.nv = 0 := by
  cases v with
  | nan s => cases h
  | inf n => rfl
  | fin n m e i => rfl

/-- NV of two values is set by a signalling NaN. -/
theorem nv_or (a b : FVal) : a.nv ||| b.nv = if a = .nan true ∨ b = .nan true then flagNV else 0 := by
  have single : ∀ v : FVal, v.nv = if v = .nan true then flagNV else 0 := fun v => by
    cases v with
    | nan s => cases s <;> rfl
    | inf n => rfl
    | fin n m e i => rfl
  rw [single, single]
  by_cases ha : a = .nan true <;> by_cases hb : b = .nan true <;> simp [ha, hb]

section pick

variable {f : Fmt} {x y : Nat} (isMax : Bool)

/-- The flags of a minimum or maximum. -/
theorem fMinMax_flags : (fMinMax f isMax x y).2 = (f.decode x).nv ||| (f.decode y).nv := by
  simp only [fMinMax]
  split <;> rfl

theorem fMinMax_nan_nan (hx : f.valueOf x = none) (hy : f.valueOf y = none) : (fMinMax f isMax x y).1 = f.nanCode.getD 0 := by
  obtain ⟨s, hs⟩ := extended_eq_none.mp hx
  obtain ⟨t, ht⟩ := extended_eq_none.mp hy
  simp only [fMinMax, hs, ht]

theorem fMinMax_nan_left (hx : f.valueOf x = none) (hy : f.valueOf y ≠ none) : (fMinMax f isMax x y).1 = y := by
  obtain ⟨s, hs⟩ := extended_eq_none.mp hx
  unfold Fmt.valueOf at hy
  simp only [fMinMax, hs]
  split <;> simp_all [FVal.extended]

theorem fMinMax_nan_right (hx : f.valueOf x ≠ none) (hy : f.valueOf y = none) : (fMinMax f isMax x y).1 = x := by
  obtain ⟨s, hs⟩ := extended_eq_none.mp hy
  unfold Fmt.valueOf at hx
  simp only [fMinMax, hs]
  split <;> simp_all [FVal.extended]

/-- The first value counts as below the second: by the comparison, and of equal ones by its sign. -/
def isBelow (a b : FVal) : Bool :=
  match fCompare a b with
  | some .lt => true
  | some .gt => false
  | _ => a.neg

/-- Of two that are no NaN the comparison picks one; of equal ones the sign of the first. -/
theorem fMinMax_compared (hx : f.valueOf x ≠ none) (hy : f.valueOf y ≠ none) :
    (fCompare (f.decode x) (f.decode y) = some .lt → (fMinMax f isMax x y).1 = if isMax then y else x) ∧
      (fCompare (f.decode x) (f.decode y) = some .gt → (fMinMax f isMax x y).1 = if isMax then x else y) ∧
      (fCompare (f.decode x) (f.decode y) = some .eq → (fMinMax f isMax x y).1 = if (f.decode x).neg != isMax then x else y) := by
  have numberX : ∀ s, f.decode x ≠ .nan s := fun s h => hx (extended_eq_none.mpr ⟨s, h⟩)
  have numberY : ∀ s, f.decode y ≠ .nan s := fun s h => hy (extended_eq_none.mpr ⟨s, h⟩)
  have picked : (fMinMax f isMax x y).1 = if isBelow (f.decode x) (f.decode y) != isMax then x else y := by
    simp only [fMinMax]
    split
    case h_1 h _ => exact absurd h (numberX _)
    case h_2 h _ => exact absurd h (numberX _)
    case h_3 h _ => exact absurd h (numberY _)
    case h_4 => rfl
  rw [picked]
  refine ⟨fun h => ?_, fun h => ?_, fun h => ?_⟩ <;> simp only [isBelow, h]
  · cases isMax <;> rfl
  · cases isMax <;> rfl

end pick

/-- The model's minimum and maximum are those of the statement. -/
theorem picksOf_fMinMax {f : Fmt} (nan : f.nanCode.getD 0 = (2 ^ (f.ebits + 1) - 1) * 2 ^ (f.fbits - 1)) (less : Bool) (x y : Nat) :
    PicksOf f less x y (fMinMax f (!less) x y) := by
  refine ⟨(fMinMax_flags _).trans (nv_or _ _), fun u v hx hy => ?_, fMinMax_nan_left _, fMinMax_nan_right _,
    fun hx hy => (fMinMax_nan_nan _ hx hy).trans nan⟩
  have numberX : f.valueOf x ≠ none := by simp [hx]
  have numberY : f.valueOf y ≠ none := by simp [hy]
  obtain ⟨below, above, equal⟩ := fMinMax_compared (!less) numberX numberY
  have compared := fCompare_extended hx hy
  refine ⟨fun h => ?_, fun h => ?_, fun h => ?_⟩
  · rw [below (compared.trans (congrArg some (cmp_eq_lt_iff _ _ |>.mpr h)))]
    cases less <;> rfl
  · rw [above (compared.trans (congrArg some (cmp_eq_gt_iff _ _ |>.mpr h)))]
    cases less <;> rfl
  · rw [equal (compared.trans (congrArg some (cmp_eq_eq_iff _ _ |>.mpr h)))]
    cases hneg : (f.decode x).neg <;> cases less <;> simp [hneg]

theorem fcmp_codes (c : BitVec 2) : c = 0 ∨ c = 1 ∨ c = 2 ∨ c = 3 := by
  revert c
  decide

/-- FCMP of numbers and infinities (R93). -/
theorem fCondition_numbers {a b : FVal} {u v : WithBot (WithTop ℚ)} (ha : a.extended = some u) (hb : b.extended = some v) (c : BitVec 2) :
    (fCondition c.toNat a b).2 = 0 ∧ ((fCondition c.toNat a b).1 = true ↔ c = 0 ∧ u = v ∨ c = 1 ∧ u < v ∨ c = 2 ∧ u ≤ v) := by
  have compared := fCompare_extended ha hb
  have quiet : a.nv ||| b.nv = 0 := by rw [nv_of_extended ha, nv_of_extended hb]; rfl
  rcases fcmp_codes c with rfl | rfl | rfl | rfl <;> simp [fCondition, le_iff_lt_or_eq, quiet, compared]

/-- FCMP beside a NaN. -/
theorem fCondition_nan {a b : FVal} (h : a.extended = none ∨ b.extended = none) (c : BitVec 2) :
    (fCondition c.toNat a b).1 = decide (c = 3) ∧
      (fCondition c.toNat a b).2 = if c = 1 ∨ c = 2 ∨ a = .nan true ∨ b = .nan true then flagNV else 0 := by
  have unordered : fCompare a b = none := by
    rcases h with h | h <;> obtain ⟨s, rfl⟩ := extended_eq_none.mp h
    · rfl
    · cases a <;> rfl
  have signal := nv_or a b
  rcases fcmp_codes c with rfl | rfl | rfl | rfl <;> simp [fCondition, unordered, signal]

/-- A register is a code of binary64. -/
theorem code64 (w : Word) : w.toNat % 2 ^ (1 + fmtF64.ebits + fmtF64.fbits) = w.toNat := Nat.mod_eq_of_lt w.isLt

theorem toNat_of_iff {b : Bool} {p : Prop} [Decidable p] (h : b = true ↔ p) : b.toNat = if p then 1 else 0 := by
  by_cases hp : p
  · rw [if_pos hp, h.mpr hp]
    rfl
  · rw [if_neg hp, Bool.eq_false_iff.mpr (mt h.mp hp)]
    rfl

/-- Rounding to a precision is the model's. -/
theorem finish_eq_roundedTo (p : BitVec 1) (x : Slot) (r : FVal × FFlags) : (fpFmt p).finish (RMode.ofFrm x.frm) r = roundedTo p x r := rfl

/-- Rounding of an exact number with no flag of its own. -/
theorem round_eq_roundedTo (p : BitVec 1) (x : Slot) (v : FVal) : (fpFmt p).round (RMode.ofFrm x.frm) false v = roundedTo p x (v, 0) :=
  Prod.ext rfl (by simp [roundedTo, fpFmt])

end Sys2Proof.Proofs

namespace Sys2Proof.Settled

open Sys2Proof.Machine Sys2Proof.Proofs

/-- Settles O2: the arithmetic and the conversions are the model's exact operations before one rounding, and comparison, minimum and maximum follow the
order of the extended numbers. -/
theorem floatResults : Obligations.FloatResults := by
  have nan : ∀ p : BitVec 1, (fpFmt p).nanCode.getD 0 = (2 ^ ((fpFmt p).ebits + 1) - 1) * 2 ^ ((fpFmt p).fbits - 1) := by decide
  refine ⟨fun d a b p => ?_, fun d a b p => ⟨⟨_, writesFloat_of_fpu (fun _ => rfl) fun _ => rfl, fun x => ?_⟩,
    ⟨_, writesFloat_of_fpu (fun _ => rfl) fun _ => rfl, fun x => ?_⟩,
    fun c => ⟨_, writesFloat_of_fpu (fun _ => rfl) fun _ => rfl, fun x u v hu hv => ?_, fun x none => ?_⟩⟩, fun d a => ?_⟩
  · refine ⟨writesFloat_of_fpu (fun _ => rfl) ?_, writesFloat_of_fpu (fun _ => rfl) ?_, writesFloat_of_fpu (fun _ => rfl) ?_,
      writesFloat_of_fpu (fun _ => rfl) ?_, writesFloat_of_fpu (fun _ => rfl) ?_, writesFloat_of_fpu (fun _ => rfl) ?_⟩ <;>
      intro x <;> simp only [fpOperand_eq] <;> exact finish_eq_roundedTo p x _
  · exact picksOf_fMinMax (nan p) true _ _
  · exact picksOf_fMinMax (nan p) false _ _
  · obtain ⟨quiet, holds⟩ := fCondition_numbers hu hv c
    refine ⟨quiet, ?_⟩
    rcases fcmp_codes c with rfl | rfl | rfl | rfl
    · exact toNat_of_iff (p := u = v) (holds.trans (by simp))
    · exact toNat_of_iff (p := u < v) (holds.trans (by simp))
    · exact toNat_of_iff (p := u ≤ v) (holds.trans (by simp))
    · exact (toNat_of_iff (p := False) (holds.trans (by simp))).trans (if_neg id)
  · obtain ⟨value, flags⟩ := fCondition_nan none c
    exact ⟨toNat_of_iff (by rw [← decide_eq_true_iff (p := c = 3)]; exact Bool.eq_iff_iff.mp value), flags⟩
  · refine ⟨writesFloat_of_fpu (fun _ => rfl) fun x => rfl, writesFloat_of_fpu (fun _ => rfl) fun x => ?_,
      writesFloat_of_fpu (fun _ => rfl) fun x => round_eq_roundedTo 0 x _, writesFloat_of_fpu (fun _ => rfl) fun x => round_eq_roundedTo 1 x _,
      writesFloat_of_fpu (fun _ => rfl) fun x => round_eq_roundedTo 0 x _, writesFloat_of_fpu (fun _ => rfl) fun x => round_eq_roundedTo 1 x _,
      writesFloat_of_fpu (fun _ => rfl) fun x => ?_, writesFloat_of_fpu (fun _ => rfl) fun x => rfl,
      writesFloat_of_fpu (fun _ => rfl) fun x => ?_, writesFloat_of_fpu (fun _ => rfl) fun x => rfl⟩
    all_goals rw [code64]
    rfl

end Sys2Proof.Settled

/-! The events of a slot (04_sequencer R80; 10_context R256, R261 to R264; 13_group R312): what the results of SSTATs that waited leave, the length of a
saved image, and the entry to the handler after it. -/

namespace Sys2Proof.Proofs

open Sys2Proof.Machine

/-- Nothing but the two banks of registers differs between two states of a slot. -/
def BanksOnly (x y : Slot) : Prop := y = { x with regs := y.regs, bank1 := y.bank1 }

theorem BanksOnly.trans {x y z : Slot} (hxy : BanksOnly x y) (hyz : BanksOnly y z) : BanksOnly x z :=
  calc z = { y with regs := z.regs, bank1 := z.bank1 } := hyz
    _ = _ := by rw [hxy]

/-- A result that lands changes registers alone. -/
theorem banksOnly_landAt (x : Slot) (i : Nat) (v : Word) (p : Option PTag) : BanksOnly x (x.landAt i v p) := by
  unfold BanksOnly Slot.landAt
  split
  · rfl
  · split <;> rfl

/-- So do several. -/
theorem banksOnly_foldl_landAt (v : Word) : ∀ (l : List (Nat × Nat)) (x : Slot), BanksOnly x (l.foldl (fun (y : Slot) d => y.landAt d.1 v none) x) := by
  intro l
  induction l with
  | nil => exact fun _ => rfl
  | cons d l ih => exact fun x => (banksOnly_landAt x d.1 v none).trans (ih _)

/-- What settling the results of the SSTATs of slot q changes: registers of that slot, and ports, but no queue and nothing else. -/
structure Settles (s t : State) (q : Nat) : Prop where
  rest : t = withWork s t.slots t.cores s.stores s.nextOp
  slot : BanksOnly (s.slot q) (t.slot q)
  others : ∀ n, n ≠ q → t.slot n = s.slot n
  queues : ∀ k, (t.core k).tq = (s.core k).tq ∧ (t.core k).rechecks = (s.core k).rechecks

/-- One port's results. -/
theorem Settles.step {s t : State} {q : Nat} (h : Settles s t q) (p : Port) (i : Nat) {x : Slot} (hx : BanksOnly (t.slot q) x) :
    Settles s ((t.setCore (coreOf q) ((t.core (coreOf q)).setPort i p)).setSlot q x) q where
  rest := by
    rw [h.rest]
    rfl
  slot := by
    rw [State.slot_setSlot]
    exact h.slot.trans hx
  others n hn := (State.slot_setSlot_ne _ _ hn).trans (h.others n hn)
  queues k := by
    rw [State.core_setSlot]
    by_cases hk : k = coreOf q
    · rw [hk, State.core_setCore]
      exact h.queues (coreOf q)
    · rw [State.core_setCore_ne _ _ hk]
      exact h.queues k

theorem settles_settleStats (s : State) (q : Nat) : Settles s (settleStats s q) q := by
  have fold : ∀ (l : List Nat) (t : State), Settles s t q → Settles s (l.foldl (fun st p =>
      (st.setCore (coreOf q) ((st.core (coreOf q)).setPort p { (st.core (coreOf q)).port p with stats := [] })).setSlot q
        (((st.core (coreOf q)).port p).stats.foldl (fun (y : Slot) d => y.landAt d.1 ((st.core (coreOf q)).port p).statusWord none) (st.slot q))) t) q := by
    intro l
    induction l with
    | nil => exact fun _ h => h
    | cons p l ih => exact fun t h => ih _ (h.step _ p (banksOnly_foldl_landAt _ _ _))
  exact fold _ s ⟨rfl, rfl, fun _ _ => rfl, fun _ => ⟨rfl, rfl⟩⟩

section length

theorem length_flatMap_const {α β : Type} {f : α → List β} {n : Nat} (l : List α) (h : ∀ x, (f x).length = n) :
    (l.flatMap f).length = l.length * n := by
  rw [List.length_flatMap, List.map_congr_left (g := fun _ => n) fun x _ => h x]
  simp

@[simp] theorem length_bytesOfWords (ws : List Word) : (bytesOfWords ws).length = ws.length * 8 :=
  length_flatMap_const ws fun _ => length_leBytes _ _

theorem length_padTo {n : Nat} {bs : List Byte} (h : bs.length ≤ n) : (padTo n bs).length = n := by
  rw [padTo, List.length_append, List.length_replicate]
  omega

theorem length_vqBytes (e : VEntry) : (vqBytes e).length = 48 := by simp [vqBytes]

theorem length_tqBytes (e : TEntry) : (tqBytes e).length = 48 := by simp [tqBytes]

theorem length_portBytes (p : Port) : (portBytes p).length = 80 := by simp [portBytes]

theorem length_loopWords (l : List LoopEntry) : (loopWords l).length = l.length * 3 :=
  (length_flatMap_const (n := 3) l.reverse fun _ => rfl).trans (by rw [List.length_reverse])

/-- An image within its sizes fills its page from offset 0x10 on (10_context R253 to R256). -/
theorem length_imageBytes {s : State} {q : Nat} (sizes : (s.slot q).loops.length ≤ 6 ∧ (s.slot q).vq.length ≤ 32 ∧ (tilesOf s q).length ≤ 16)
    (hpriv : Nat) (r : Report) (pc : Word) : (imageBytes s q hpriv r pc).length = 0xFF0 := by
  obtain ⟨loops, vq, tq⟩ := sizes
  have stack : (padTo 144 (bytesOfWords (loopWords (s.slot q).loops))).length = 144 := length_padTo (by rw [length_bytesOfWords, length_loopWords]; omega)
  have vector : (padTo 1536 ((s.slot q).vq.flatMap vqBytes)).length = 1536 := length_padTo (by rw [length_flatMap_const _ length_vqBytes]; omega)
  have tile : (padTo 768 ((tilesOf s q).flatMap tqBytes)).length = 768 := length_padTo (by rw [length_flatMap_const _ length_tqBytes]; omega)
  have ports : ((List.range 8).flatMap fun p =>
      if (portsOf s q).contains p then portBytes ((s.core (coreOf q)).port p) else List.replicate 80 0).length = 8 * 80 :=
    length_flatMap_const _ fun p => by
      split
      · exact length_portBytes _
      · exact List.length_replicate
  have psn (n : Nat) (f : Nat → SReg) : ((List.range n).flatMap fun i => leBytes 2 (psnCode (f i))).length = n * 2 := by
    rw [length_flatMap_const _ fun _ => length_leBytes _ _, List.length_range]
  simp only [imageBytes, List.length_append, length_leBytes, length_bytesOfWords, List.length_map, List.length_range, List.length_replicate, stack,
    vector, tile, ports, psn, sysWords, List.length_cons, List.length_nil]

end length

/-- The entry of a key when every value of a table is changed alike. -/
theorem tabFind_mapValues {α : Type} (f : α → α) (t : Tab α) (k : Nat) : tabFind (t.map fun e => (e.1, f e.2)) k = (tabFind t k).map f := by
  induction t with
  | nil => rfl
  | cons e t ih =>
    simp only [List.map_cons, tabFind]
    split
    · rfl
    · exact ih

/-- Settling every pending mark of a bank. -/
theorem tabGet_settleRegs (off : Nat) (t : Tab SReg) (r : Nat) :
    tabGet (settleRegs off (fun _ => true) [] t) SReg.zero r = { tabGet t SReg.zero r with pend := .ready } := by
  have all : settleRegs off (fun _ => true) [] t = t.map fun e => (e.1, { e.2 with pend := .ready }) := by simp [settleRegs]
  rw [tabGet, all, tabFind_mapValues (fun v : SReg => { v with pend := .ready }), tabGet]
  cases tabFind t r <;> rfl

/-- No register of a slot that has been saved away waits any more; nothing else of a register changes. -/
theorem sreg_savedAway (x : Slot) (r : Nat) : x.savedAway.sreg r = { x.sreg r with pend := .ready } := by
  change (if r = 0 then SReg.zero else if x.banked r then tabGet (settleRegs 8 (fun _ => true) [] x.bank1) SReg.zero r
    else tabGet (settleRegs 0 (fun _ => true) [] x.regs) SReg.zero r) = _
  rw [tabGet_settleRegs, tabGet_settleRegs, Slot.sreg]
  split
  · rfl
  · split <;> rfl

/-- The save area is usable by the slot in which the results of SSTATs have been settled. -/
theorem csaUsable_settled {s t : State} {q key : Nat} (settled : Settles s t q) (area : SaveArea s q key) :
    (∃ h, csaUsable t (scalarAgent t q) (t.slot q).csaBase.toNat = some h ∧ h.key = key ∧ h.state ≠ 3) ∧
      touch t { scalarAgent t q with level := .supervisor } (t.slot q).csaBase.toNat .write = t := by
  have agent : scalarAgent t q = scalarAgent s q := by
    unfold scalarAgent
    rw [settled.slot]
  have base : (t.slot q).csaBase = (s.slot q).csaBase := by rw [settled.slot]
  obtain ⟨hit, passes, at_key, still⟩ := area.passes
  obtain ⟨miss, guarded⟩ := area.guarded
  have quiet := cachesNothing_of_touch area.cached
  have quietUser : CachesNothing s { scalarAgent s q with level := .user, tag := 0 } (s.slot q).csaBase.toNat .write := quiet
  rw [agent, base]
  refine ⟨⟨hit, ?_, at_key, still⟩, ?_⟩
  · rw [settled.rest]
    unfold csaUsable
    simp only [checkAddr_withWork quiet, checkAddr_withWork quietUser, passes, guarded, at_key, area.aligned, if_true]
  · rw [settled.rest, touch_withWork quiet, area.cached]

/-- The tiles of slot q leave the queue of one core. -/
def dropTilesAt (q : Nat) (st : State) (k : Nat) : State :=
  if (st.core k).tq.any fun e => e.slot == q then st.setCore k { st.core k with tq := (st.core k).tq.filter fun e => e.slot != q } else st

/-- The work that a save leaves to an image, its ports and tiles: neither slots nor memory. -/
theorem leaveWork_spec (s : State) (q : Nat) (a b : Home) :
    (dropTiles (closePorts (moveHome s a b) q) q).slots = s.slots ∧ (dropTiles (closePorts (moveHome s a b) q) q).mem = s.mem := by
  have fold : ∀ (l : List Nat) (t : State), (l.foldl (dropTilesAt q) t).slots = t.slots ∧ (l.foldl (dropTilesAt q) t).mem = t.mem := by
    intro l
    induction l with
    | nil => exact fun _ => ⟨rfl, rfl⟩
    | cons k l ih =>
      intro t
      rw [List.foldl_cons, dropTilesAt]
      split
      · exact ih _
      · exact ih t
  exact fold _ _

/-- The slot that a first-stage save leaves (10_context R262, R270). -/
def handled (x : Slot) (level : Level) (svpc svsp : Word) (r : Report) : Slot :=
  (x.savedAway.enterHandler level svpc svsp r false).serving x.shtag

/-- A first-stage save to an area that takes it. -/
theorem firstStageSave_eq {s : State} {q key : Nat} (r : Report) (pc : Word) (area : SaveArea s q key) :
    ∃ u : State, u.slots = (settleStats s q).slots ∧ u.mem = writeBytes (key + 0x10)
        (imageBytes (settleStats s q) q (wbits (readWord s.mem (key + 0x18)) 61 60) r pc) s.mem ∧
      firstStageSave s q r pc = u.setSlot q (handled ((settleStats s q).slot q)
        (if wbits (readWord s.mem (key + 0x18)) 61 60 = 2 then .firmware else .supervisor) (readWord s.mem key) (readWord s.mem (key + 8)) r) := by
  have settled := settles_settleStats s q
  obtain ⟨⟨hit, usable, rfl, still⟩, cached⟩ := csaUsable_settled settled area
  unfold firstStageSave
  generalize settleStats s q = t at *
  have mem : t.mem = s.mem := by
    rw [settled.rest]
    rfl
  have idle : unitsPending t q = false := by
    have links : t.klinks = s.klinks := by
      rw [settled.rest]
      rfl
    rw [unitsPending, links, (settled.queues _).2]
    exact area.idle
  have clean : (rangePoison t hit.key 32).isSome = false := by
    rw [settled.rest, rangePoison_withWork, area.clean]
    rfl
  obtain ⟨slots, memory⟩ := leaveWork_spec (physWrite t (hit.key + 0x10) (imageBytes t q (wbits (readWord s.mem (hit.key + 0x18)) 61 60) r pc) none) q
    (.slot q) (.image hit.key)
  generalize left : dropTiles (closePorts (moveHome (physWrite t (hit.key + 0x10)
    (imageBytes t q (wbits (readWord s.mem (hit.key + 0x18)) 61 60) r pc) none) (.slot q) (.image hit.key)) q) q = s3 at slots memory
  refine ⟨{ s3 with saved := tabSet s3.saved hit.key (savedOf t q) }, slots, memory.trans (by rw [← mem]; rfl), ?_⟩
  have word (k : Nat) : physWord t k = readWord s.mem k := by rw [physWord, mem]
  have level := area.level
  have same : s3.slot q = t.slot q := by
    rw [State.slot, slots]
    rfl
  simp only [usable, word]
  rw [if_neg (by simp [still, idle]), if_neg (by rw [clean]; simp; omega), cached, left, same]
  rfl

/-- Entering the handler changes a slot as the statement says. -/
theorem handled_slot (x : Slot) (level : Level) (svpc svsp : Word) (r : Report) :
    handled x level svpc svsp r = { x with
      st := .run, mode := .handler, level := level, pc := svpc, prev := none, land := false, regs := (handled x level svpc svsp r).regs
      bank1 := (handled x level svpc svsp r).bank1, loops := [], vq := [], cnt := ⟨0, 0, 0, 0⟩, trapCause := BitVec.ofNat 8 r.cause, trapNested := false
      trapQueue := r.queue, trapFrlost := r.frlost, trapPc := r.pc, trapAddr := r.addr, trapAux := r.aux, due := none, dueOrd := 0
      servedTag := x.shtag } := by
  unfold handled Slot.enterHandler Slot.put
  rw [Slot.setReg_eq]
  rfl

/-- Its registers: s63 is the handler's stack pointer, and the others wait for nothing. -/
theorem handled_regs (x : Slot) (level : Level) (svpc svsp : Word) (r : Report) :
    (handled x level svpc svsp r).sreg 63 = ⟨svsp, none, .ready⟩ ∧
      ∀ n < 63, (handled x level svpc svsp r).sreg n = { x.sreg n with pend := .ready } := by
  have same (n : Nat) : (handled x level svpc svsp r).sreg n = (x.savedAway.put 63 svsp none).sreg n := rfl
  refine ⟨(same 63).trans (Slot.sreg_setReg _ _ (by decide)), fun n hn => ?_⟩
  rw [same, ← sreg_savedAway]
  exact Slot.sreg_setReg_ne _ _ (by omega)

/-- An image begins with its PC. -/
theorem readWord_image (s : State) (q hpriv : Nat) (r : Report) (pc : Word) (a : Nat) (m : List Host.Cell) :
    readWord (writeBytes a (imageBytes s q hpriv r pc) m) a = pc := by
  obtain ⟨rest, first⟩ : ∃ rest, imageBytes s q hpriv r pc = leBytes 8 pc.toNat ++ rest := by
    simp only [imageBytes, List.append_assoc]
    exact ⟨_, rfl⟩
  have read := readBytes_writeBytes_from (a := a) (bs := imageBytes s q hpriv r pc) (m := m) (n := 8) (i := 0) (by simp [first])
  rw [Nat.add_zero, List.drop_zero, first, List.take_left' (length_leBytes _ _), ← first] at read
  rw [readWord, readLE, read, leNat_leBytes, Nat.mod_eq_of_lt (show pc.toNat < 256 ^ 8 from pc.isLt), BitVec.ofNat_toNat, BitVec.setWidth_eq]

/-- What a first-stage save does. -/
theorem firstStageSave_spec {s : State} {q key : Nat} (r : Report) (pc : Word) (area : SaveArea s q key) :
    ∃ t, firstStageSave s q r pc = t ∧ EntersSaved s t q key r ∧ readWord t.mem (key + 0x10) = pc ∧
      ∀ a, a < key + 0x10 ∨ key + 0x1000 ≤ a → readByte t.mem a = readByte s.mem a := by
  obtain ⟨u, slots, mem, saves⟩ := firstStageSave_eq r pc area
  have settled := settles_settleStats s q
  have sizes : ((settleStats s q).slot q).loops.length ≤ 6 ∧ ((settleStats s q).slot q).vq.length ≤ 32 ∧
      (tilesOf (settleStats s q) q).length ≤ 16 := by
    rw [tilesOf, (settled.queues _).1, settled.slot]
    exact area.sizes
  have length := length_imageBytes sizes (wbits (readWord s.mem (key + 0x18)) 61 60) r pc
  have shtag : ((settleStats s q).slot q).shtag = (s.slot q).shtag := by rw [settled.slot]
  have others (n : Nat) : u.slot n = (settleStats s q).slot n := by rw [State.slot, slots, State.slot]
  refine ⟨_, saves, ⟨?_, ?_, ?_, fun n hn => ?_⟩, ?_, fun a ha => ?_⟩
  · rw [State.slot_setSlot, ← shtag]
    exact handled_slot _ _ _ _ _
  · rw [State.slot_setSlot]
    exact (handled_regs _ _ _ _ _).1
  · rw [State.slot_setSlot]
    exact (handled_regs _ _ _ _ _).2
  · rw [State.slot_setSlot_ne _ _ hn, others, settled.others n hn]
  · rw [State.setSlot_mem, mem]
    exact readWord_image _ _ _ _ _ _ _
  · rw [State.setSlot_mem, mem]
    exact readByte_writeBytes_ne (by omega) _

/-- A context that ends leaves its slot FREE. -/
theorem endMember_free (s : State) (q : Nat) : ((endMember s q).slot q).st = .free := by
  unfold endMember
  rw [State.slot_setSlot]
  rfl

/-- A stall on a register ends exactly when the register no longer waits. -/
theorem exec_slotStallRelease {s : State} {q r : Nat} (stalled : (s.slot q).st = .stall (.register r)) : exec (.slotStallRelease q) s =
    next (if ((s.slot q).sreg r).pend = .ready then s.setSlot q { s.slot q with st := .run } else s) := by
  change execSlotStallRelease q s = _
  simp only [execSlotStallRelease, stalled, stallOver, decide_eq_true_eq]

section due

variable {s : State} {q : Nat} {r : Report} (busy : (s.slot q).st ≠ .free) (context : (s.slot q).mode = .context) (due : (s.slot q).due = some r)
include busy context due

/-- The trap of a queue entry waits for the older entries, and then is a first-stage save. -/
theorem exec_firstStageSave_going (going : (s.slot q).ctx.ending = false) : exec (.firstStageSave q) s =
    next (if (r.queue && olderLeft s q (s.slot q).dueOrd) = true then s else firstStageSave s q r (s.slot q).pc) := by
  change next (if (s.slot q).st = .free then s else takeDue s q) = _
  rw [if_neg busy, takeDue]
  simp only [due, going, Bool.false_and, Bool.false_eq_true, if_false, takeTrapAt, context]

/-- A context of an ending leaf group ends instead, once its units are done. -/
theorem exec_firstStageSave_ending (ending : (s.slot q).ctx.ending = true) : exec (.firstStageSave q) s =
    next (if unitsPending s q = true then s else endMember s q) := by
  change next (if (s.slot q).st = .free then s else takeDue s q) = _
  rw [if_neg busy, takeDue]
  simp only [due, ending, context, beq_self_eq_true, Bool.and_self, if_true]

end due

/-- A slot that is due a landing lands. -/
theorem exec_preemptionLanding {s : State} {q : Nat} (busy : (s.slot q).st ≠ .free) (awake : (s.slot q).st ≠ .stall .draining)
    (context : (s.slot q).mode = .context) (noTrap : (s.slot q).due = none) (at_ : (s.slot q).loops = [] ∨ (s.slot q).land = true)
    (asked : (s.slot q).request.isSome = true ∨ (s.slot q).ctx.ending = true) : exec (.preemptionLanding q) s = next (land s q) := by
  have due : landingDue s q = true := by
    simp only [landingDue, atLanding, context, noTrap, Bool.and_eq_true, decide_eq_true_eq, Bool.or_eq_true, List.isEmpty_iff]
    exact ⟨⟨⟨⟨⟨busy, awake⟩, rfl⟩, rfl⟩, at_⟩, asked⟩
  exact congrArg next (if_pos due)

/-- Away from a landing point it does not. -/
theorem exec_preemptionLanding_away {s : State} {q : Nat} (loops : (s.slot q).loops ≠ []) (land : (s.slot q).land = false) :
    exec (.preemptionLanding q) s = next s := by
  have away : ¬ landingDue s q = true := by simp [landingDue, atLanding, loops, land]
  exact congrArg next (if_neg away)

end Sys2Proof.Proofs

namespace Sys2Proof.Settled

open Sys2Proof.Machine Sys2Proof.Proofs

/-- Settles O48: each event is one test before one change, of which the first-stage save is the large one. -/
theorem slotEvents : Obligations.SlotEvents := by
  refine fun s q => ⟨fun r stalled => ?_, fun key r busy context going due ready area => ?_,
    fun r busy context due => ⟨fun going queue older => ?_, fun ending => ⟨fun idle => ?_, fun pending => ?_⟩⟩,
    fun key o busy awake context noTrap at_ going asked area => ?_, fun busy awake context noTrap at_ ending idle => ?_,
    fun loops land => exec_preemptionLanding_away loops land⟩
  · rw [exec_slotStallRelease stalled]
    exact ⟨fun ready => congrArg next (if_pos ready), fun waits => congrArg next (if_neg waits)⟩
  · obtain ⟨t, saves, entered, pc, frame⟩ := firstStageSave_spec r (s.slot q).pc area
    have now : ¬ (r.queue && olderLeft s q (s.slot q).dueOrd) = true := by
      rcases ready with h | h <;> simp [h]
    exact ⟨t, by rw [exec_firstStageSave_going busy context due going, if_neg now, saves], entered, pc, frame⟩
  · rw [exec_firstStageSave_going busy context due going, if_pos (by rw [queue, older]; rfl)]
  · exact ⟨_, by rw [exec_firstStageSave_ending busy context due ending, if_neg (by simp [idle])], rfl, endMember_free s q⟩
  · rw [exec_firstStageSave_ending busy context due ending, if_pos pending]
  · obtain ⟨t, saves, entered, pc, -⟩ := firstStageSave_spec ⟨0x21, (s.slot q).pc, 0, o.aux, false, false⟩ (s.slot q).pc area
    refine ⟨t, ?_, entered, pc⟩
    rw [exec_preemptionLanding busy awake context noTrap at_ (.inl (by rw [asked]; rfl)), land]
    simp only [going, asked, Bool.false_eq_true, if_false, saves]
  · refine ⟨_, ?_, rfl, endMember_free s q⟩
    rw [exec_preemptionLanding busy awake context noTrap at_ (.inr ending), land]
    simp only [ending, idle, if_true, Bool.false_eq_true, if_false]

end Sys2Proof.Settled

/-! The waits of system registers (05_vector R123; 07_tile R168; 06_vector_access R157; 08_stream R221; 14_queue R336; 03_encoding R57): when an access
waits and on what, and the numbers that name no register. -/

namespace Sys2Proof.Proofs

open Sys2Proof.Machine

section waits

variable {s : State} {a : BitVec 6} {n : BitVec 12}

/-- No level is above firmware. -/
theorem levelCode_le_firmware (firmware : s.me.level = .firmware) (l : Level) : levelCode l ≤ levelCode (s.slot s.cur).level := by
  rw [show (s.slot s.cur).level = .firmware from firmware]
  cases l <;> decide

/-- A read of a register stalls where it must wait. -/
theorem stalls_srd {why : Stall} (readable : (sysReadLevel n.toNat).isSome) (firmware : s.me.level = .firmware) (clean : s.me.Clean [a.toNat])
    (waits : sysWaits s s.cur n.toNat false = true) (hwhy : sysStall s s.cur n.toNat = s.stallSlot s.cur why) : Stalls (.srd a n) s why := by
  obtain ⟨l, hl⟩ := Option.isSome_iff_exists.mp readable
  change execSrd a n s = _
  simp only [execSrd, hl, waits, if_true]
  rw [needLevel_of _ _ (levelCode_le_firmware firmware l), whenReady_clean _ clean, hwhy]
  rfl

/-- Where it need not wait, a read puts the register's value into sd. -/
theorem srd_reads (readable : (sysReadLevel n.toNat).isSome) (firmware : s.me.level = .firmware) (clean : s.me.Clean [a.toNat])
    (waits : sysWaits s s.cur n.toNat false = false) : Loads (.srd a n) s a.toNat (sysRead s s.cur n.toNat) none := by
  obtain ⟨l, hl⟩ := Option.isSome_iff_exists.mp readable
  refine ⟨_, ?_, finish_spec _ _ _ _⟩
  change execSrd a n s = _
  simp only [execSrd, hl, waits, Bool.false_eq_true, if_false]
  rw [needLevel_of _ _ (levelCode_le_firmware firmware l), whenReady_clean _ clean]

/-- Each of the three writes stalls where it must wait and the mode is not against it. -/
theorem stalls_writes {why : Stall} (writable : (sysWriteLevel n.toNat).isSome) (free : contextOnly n.toNat = false)
    (firmware : s.me.level = .firmware) (clean : s.me.Clean [a.toNat]) (waits : sysWaits s s.cur n.toNat true = true)
    (hwhy : sysStall s s.cur n.toNat = s.stallSlot s.cur why) : ∀ i ∈ [Instr.swr a n, .srset a n, .srclr a n], Stalls i s why := by
  intro i hi
  obtain ⟨l, hl⟩ := Option.isSome_iff_exists.mp writable
  obtain ⟨f, swr, he⟩ := exec_writes hi s
  change exec i s = _
  rw [he]
  simp only [sysWriteWith, hl, free, waits, Bool.false_and, Bool.false_eq_true, if_false, if_true]
  rw [needLevel_of _ _ (levelCode_le_firmware firmware l), whenReady_clean _ clean, unlessPoisoned_of_clean _ clean, hwhy]
  rfl

/-- A register that user code and context mode may name: where reads and writes of it wait alike, all four instructions stall. -/
theorem stalls_accesses {why : Stall} (named : (sysReadLevel n.toNat).isSome ∧ (sysWriteLevel n.toNat).isSome ∧ contextOnly n.toNat = false)
    (firmware : s.me.level = .firmware) (clean : s.me.Clean [a.toNat]) (waits : ∀ w, sysWaits s s.cur n.toNat w = true)
    (hwhy : sysStall s s.cur n.toNat = s.stallSlot s.cur why) : ∀ i ∈ [Instr.srd a n, .swr a n, .srset a n, .srclr a n], Stalls i s why := by
  obtain ⟨readable, writable, free⟩ := named
  exact List.forall_mem_cons.mpr ⟨stalls_srd readable firmware clean (waits false) hwhy, stalls_writes writable free firmware clean (waits true) hwhy⟩

/-- FFLAGS, FRM, VSTART and VLCAP wait for the vector queue (05_vector R123). -/
theorem sysWaits_vector (busy : vectorIdle s s.cur = false) : ∀ n ∈ [(0x001 : BitVec 12), 0x002, 0x012, 0x013], ∀ w,
    sysWaits s s.cur n.toNat w = true := by
  unfold sysWaits
  simp [busy]

/-- So do writes of VL and VCFG. -/
theorem sysWaits_vectorWrite (busy : vectorIdle s s.cur = false) : ∀ n ∈ [(0x010 : BitVec 12), 0x011], sysWaits s s.cur n.toNat true = true := by
  unfold sysWaits
  simp [busy]

/-- FFLAGS, REEFTH and REEFCTL wait for tile operations (07_tile R168). -/
theorem sysWaits_tiles (busy : tilesIdle s s.cur = false) : ∀ n ∈ [(0x001 : BitVec 12), 0x042, 0x043], ∀ w, sysWaits s s.cur n.toNat w = true := by
  unfold sysWaits
  simp [busy]

/-- So do writes of ACCBASE and ACCLIM (07_tile R167). -/
theorem sysWaits_tilesWrite (busy : tilesIdle s s.cur = false) : ∀ n ∈ [(0x040 : BitVec 12), 0x041], sysWaits s s.cur n.toNat true = true := by
  unfold sysWaits
  simp [busy]

/-- Where the vector queue is in use and VL is known, what waits waits for the queue (05_vector R123). -/
theorem sysStall_vectorBusy (busy : vectorIdle s s.cur = false) (known : vlPending s s.cur = false) (r : Nat) :
    sysStall s s.cur r = s.stallSlot s.cur .vectorBusy := by simp [sysStall, busy, known]

/-- Where the queue is idle and tile operations are not, it waits for these (07_tile R168). -/
theorem sysStall_tilesBusy (idle : vectorIdle s s.cur = true) (busy : tilesIdle s s.cur = false) (known : vlPending s s.cur = false) (r : Nat) :
    sysStall s s.cur r = s.stallSlot s.cur .tilesBusy := by simp [sysStall, idle, busy, known]

/-- VL waits until it is known (06_vector_access R157). -/
theorem sysStall_vlPending (pending : vlPending s s.cur = true) : sysStall s s.cur 0x010 = s.stallSlot s.cur .vlPending := by simp [sysStall, pending]

/-- Any other wait is tried again (08_stream R221). -/
theorem sysStall_retry (vector : vectorIdle s s.cur = true) (tiles : tilesIdle s s.cur = true) {r : Nat} (hr : r ≠ 0x010) :
    sysStall s s.cur r = s.stallSlot s.cur .retry := by simp [sysStall, vector, tiles, hr]

/-- The numbers of the registers with RW fields (03_encoding R57). -/
theorem systemRegisters_nums : (systemRegisters.map fun g => g.num.toNat) =
    [0x001, 0x002, 0x010, 0x011, 0x012, 0x013, 0x014, 0x015, 0x016, 0x020, 0x021, 0x022, 0x040, 0x041, 0x042, 0x043, 0x100, 0x101, 0x102, 0x103, 0x104,
      0x110, 0x111, 0x112, 0x113, 0x114, 0x120, 0x200] := rfl

/-- A number that may be written is that of a register with RW fields. -/
theorem mem_systemRegisters_of_writable {n : Nat} (h : sysWriteLevel n ≠ none) : ∃ g ∈ systemRegisters, g.num.toNat = n := by
  have named : n ∈ systemRegisters.map fun g => g.num.toNat := by
    rw [systemRegisters_nums]
    unfold sysWriteLevel at h
    split at h
    case h_29 => exact absurd rfl h
    all_goals decide
  exact List.mem_map.mp named

/-- What may be read may be written, WAITCNT apart. -/
theorem writable_of_readable {n : Nat} (h : sysReadLevel n ≠ none) (other : n ≠ 0x030) : sysWriteLevel n ≠ none := by
  unfold sysReadLevel at h
  split at h
  case h_10 => exact absurd rfl other
  case h_30 => exact absurd rfl h
  all_goals exact nofun

/-- A number that no register with RW fields has may not be written, and but for WAITCNT's not read. -/
theorem sysLevels_of_unnamed {n : BitVec 12} (h : ∀ g ∈ systemRegisters, g.num ≠ n) :
    sysWriteLevel n.toNat = none ∧ (n ≠ 0x030 → sysReadLevel n.toNat = none) := by
  have unwritable : sysWriteLevel n.toNat = none := by
    by_contra writable
    obtain ⟨g, hg, hn⟩ := mem_systemRegisters_of_writable writable
    exact h g hg (BitVec.eq_of_toNat_eq hn)
  refine ⟨unwritable, fun other => ?_⟩
  by_contra readable
  exact writable_of_readable readable (fun he => other (BitVec.eq_of_toNat_eq he)) unwritable

/-- A write of what may not be written traps with cause 0x01. -/
theorem writes_unassigned (h : sysWriteLevel n.toNat = none) :
    ∀ i ∈ [Instr.swr a n, .srset a n, .srclr a n], exec i s = .next (trapWord s s.cur 0x01 (encode i)) := by
  intro i hi
  obtain ⟨f, swr, he⟩ := exec_writes hi s
  rw [he]
  simp only [sysWriteWith, h]

/-- So does a read of what may not be read. -/
theorem srd_unassigned (h : sysReadLevel n.toNat = none) : exec (.srd a n) s = .next (trapWord s s.cur 0x01 (encode (.srd a n))) := by
  change execSrd a n s = _
  simp only [execSrd, h]

/-- WAITCNT shows the four counters, to every level and without a wait (04_sequencer R110). -/
theorem srd_waitcnt (hd : (s.me.sreg a.toNat).pend = .ready) : Loads (.srd a 0x030) s a.toNat
    (BitVec.ofNat 64 (s.me.cnt.loads * 2 ^ 24 + s.me.cnt.stores * 2 ^ 16 + s.me.cnt.copies * 2 ^ 8 + s.me.cnt.tiles)) none := by
  refine ⟨_, ?_, finish_spec _ _ _ _⟩
  change execSrd a 0x030 s = _
  have level : sysReadLevel (0x030 : BitVec 12).toNat = some .user := rfl
  have open' : sysWaits s s.cur (0x030 : BitVec 12).toNat false = false := rfl
  simp only [execSrd, level, open']
  rw [needLevel_of _ _ (Nat.zero_le _), whenReady_ready _ (pendingAmong_cons hd (List.forall_mem_nil _))]
  rfl

end waits

end Sys2Proof.Proofs

namespace Sys2Proof.Settled

open Sys2Proof.Machine Sys2Proof.Proofs

/-- Settles O21: the waits one by one, each as the kind of stall that the state of the queues makes it. -/
theorem systemRegisterWaits : Obligations.SystemRegisterWaits := by
  refine ⟨fun s a clean firmware => ⟨?vector, ?tiles, ?pending, ?window, ?spbase, ?agelimit⟩, fun s a n =>
    ⟨srd_waitcnt, fun unnamed =>
      ⟨writes_unassigned (sysLevels_of_unnamed unnamed).1, fun other => srd_unassigned ((sysLevels_of_unnamed unnamed).2 other)⟩⟩⟩
  case vector =>
    intro busy known
    have stall := sysStall_vectorBusy busy known
    refine ⟨fun n hn => ?_, fun n hn => ?_, ?_⟩
    · have named : ∀ n ∈ [(0x001 : BitVec 12), 0x002, 0x012, 0x013],
        (sysReadLevel n.toNat).isSome ∧ (sysWriteLevel n.toNat).isSome ∧ contextOnly n.toNat = false := by simp [sysReadLevel, sysWriteLevel, contextOnly]
      exact stalls_accesses (named n hn) firmware clean (sysWaits_vector busy n hn) (stall _)
    · have named : ∀ n ∈ [(0x010 : BitVec 12), 0x011], (sysWriteLevel n.toNat).isSome ∧ contextOnly n.toNat = false := by simp [sysWriteLevel, contextOnly]
      exact stalls_writes (named n hn).1 (named n hn).2 firmware clean (sysWaits_vectorWrite busy n hn) (stall _)
    · exact srd_reads (n := 0x011) rfl firmware clean rfl
  case tiles =>
    intro idle busy known
    have stall := sysStall_tilesBusy idle busy known
    refine ⟨fun n hn => ?_, fun n hn => ?_⟩
    · have named : ∀ n ∈ [(0x001 : BitVec 12), 0x042, 0x043],
        (sysReadLevel n.toNat).isSome ∧ (sysWriteLevel n.toNat).isSome ∧ contextOnly n.toNat = false := by simp [sysReadLevel, sysWriteLevel, contextOnly]
      exact stalls_accesses (named n hn) firmware clean (sysWaits_tiles busy n hn) (stall _)
    · have named : ∀ n ∈ [(0x040 : BitVec 12), 0x041], (sysWriteLevel n.toNat).isSome ∧ contextOnly n.toNat = false := by simp [sysWriteLevel, contextOnly]
      exact stalls_writes (named n hn).1 (named n hn).2 firmware clean (sysWaits_tilesWrite busy n hn) (stall _)
  case pending =>
    intro pending
    have waits (w : Bool) : sysWaits s s.cur 0x010 w = true := by
      unfold sysWaits
      simp [pending]
    exact stalls_accesses (n := 0x010) ⟨rfl, rfl, rfl⟩ firmware clean waits (sysStall_vlPending pending)
  case window =>
    intro vector tiles busy
    have waits : sysWaits s s.cur 0x114 true = true := by
      unfold sysWaits
      simp [busy]
    exact stalls_writes (n := 0x114) rfl rfl firmware clean waits (sysStall_retry vector tiles (by decide))
  case spbase => exact srd_reads (n := 0x114) rfl firmware clean rfl
  case agelimit => exact srd_reads (n := 0x200) rfl firmware clean rfl

end Sys2Proof.Settled

/-! Writes of system registers as events (05_vector R118 to R123; 07_tile R167, R168; 08_stream R221; 10_context R271; 14_queue R336): the word cut to a
register's field, and the cases of the one operation behind the events. -/

namespace Sys2Proof.Proofs

open Sys2Proof.Machine

/-- A mask of low bits keeps a word modulo its size. -/
theorem toNat_and_low {n : Nat} (h : n ≤ 64) (v : Word) : (v &&& BitVec.ofNat 64 (2 ^ n - 1)).toNat = v.toNat % 2 ^ n := by
  have small : 2 ^ n - 1 < 2 ^ 64 :=
    lt_of_lt_of_le (Nat.sub_lt (Nat.two_pow_pos n) one_pos) (Nat.pow_le_pow_right two_pos h)
  rw [BitVec.toNat_and, BitVec.toNat_ofNat, Nat.mod_eq_of_lt small, Nat.and_two_pow_sub_one_eq_mod]

/-- So it cuts the word to its width. -/
theorem ofNat_toNat_and_low {n : Nat} (h : n ≤ 64) (v : Word) : BitVec.ofNat n (v &&& BitVec.ofNat 64 (2 ^ n - 1)).toNat = v.setWidth n := by
  apply BitVec.eq_of_toNat_eq
  rw [toNat_and_low h, BitVec.toNat_ofNat, Nat.mod_mod, BitVec.toNat_setWidth]

/-- A value of VCFG may stand by its own width code and source kind (05_vector R119). -/
theorem vcfg_may_stand (s : State) (q : Nat) (v : Word) : sysValueOk s q 0x011 (v &&& 0x3FFF) = true ↔ wbits v 2 0 ≤ 5 ∧ wbits v 13 12 ≠ 3 := by
  have cut : (v &&& 0x3FFF).toNat = v.toNat % 2 ^ 14 := toNat_and_low (n := 14) (by decide) v
  rw [sysValueOk_vcfg]
  unfold wbits
  rw [cut]
  omega

/-- The write of VCFG clamps VL (05_vector R119). -/
theorem sysSet_vcfg (s : State) (q : Nat) (v : Word) : sysSet s q 0x011 (v &&& 0x3FFF) =
    s.setSlot q { s.slot q with vcfg := v.setWidth 14, vl := min (s.slot q).vl ((s.slot q).vlmax (v.setWidth 14)) } := by
  rw [← ofNat_toNat_and_low (n := 14) (by decide)]
  rfl

/-- A value of VLCAP may stand where it is one of the four lengths and the core's lane groups go so far (05_vector R121). -/
theorem vlcap_may_stand (s : State) (q : Nat) (v : Word) : sysValueOk s q 0x013 (v &&& 0x7FFF) = true ↔
    (v &&& 0x7FFF).toNat ∈ [2048, 4096, 8192, 16384] ∧ (v &&& 0x7FFF).toNat ≤ 2048 * (s.core (coreOf q)).laneMap.length := by
  rw [sysValueOk_vlcap]
  simp [BitVec.toNat_eq, capLimit]

section event

variable {s : State} {q n : Nat} {v : Word}

/-- A FREE slot is left alone, and one whose register must wait too. -/
theorem sysWriteEvent_idle (h : (s.slot q).st = .free ∨ sysWaits s q n true = true) : sysWriteEvent s q n v = s := if_pos h

variable (busy : (s.slot q).st ≠ .free) (goes : sysWaits s q n true = false)
include busy goes

/-- What the event of a write comes to where nothing waits. -/
theorem sysWriteEvent_goes : sysWriteEvent s q n v =
    if contextOnly n && (s.slot q).mode == .context then trap s q 0x01 0 0
    else if sysValueOk s q n (v &&& sysRwMask n) then sysSet s q n (v &&& sysRwMask n) else trap s q 0x01 0 0 := by
  rw [sysWriteEvent, if_neg (by simp [busy, goes])]

/-- A value that may stand takes effect. -/
theorem sysWriteEvent_sets (free : contextOnly n = false ∨ (s.slot q).mode = .handler) (ok : sysValueOk s q n (v &&& sysRwMask n) = true) :
    sysWriteEvent s q n v = sysSet s q n (v &&& sysRwMask n) := by
  have allowed : (contextOnly n && (s.slot q).mode == .context) = false := by rcases free with h | h <;> simp [h]
  simp [sysWriteEvent_goes busy goes, allowed, ok]

/-- Any other traps with cause 0x01. -/
theorem sysWriteEvent_refuses (free : contextOnly n = false) (bad : ¬ sysValueOk s q n (v &&& sysRwMask n) = true) :
    sysWriteEvent s q n v = trap s q 0x01 0 0 := by
  simp [sysWriteEvent_goes busy goes, free, bad]

end event


end Sys2Proof.Proofs

namespace Sys2Proof.Settled

open Sys2Proof.Machine Sys2Proof.Proofs

/-- Settles O55: each event is the one operation on its register, which leaves the state alone, sets a value that may stand, or traps. -/
theorem registerWriteEvents : Obligations.RegisterWriteEvents := by
  intro s q v
  dsimp only
  refine ⟨?free, ?waits, fun busy => ⟨?vl, ?vcfg, ?vlcap, ?accBase, ?accLim, ?spbase, ?ageLimit, ?handler, ?context, ?reefctl⟩, ?other⟩
  case free =>
    intro free
    simp only [List.forall_mem_cons]
    have idle (n : Nat) : Host.Outcome.next (φ := Fault) (ρ := Refusal) (sysWriteEvent s q n v) = .next s :=
      congrArg _ (sysWriteEvent_idle (.inl free))
    have clr : execReefctlClr q s = .next s := congrArg _ (if_pos (.inl free))
    exact ⟨idle 0x114, idle 0x010, idle 0x011, idle 0x013, idle 0x041, idle 0x040, clr, idle 0x200, idle 0x110, List.forall_mem_nil _⟩
  case waits =>
    simp only [List.forall_mem_cons]
    have idle (n : Nat) (h : sysWaits s q n true = true) : Host.Outcome.next (φ := Fault) (ρ := Refusal) (sysWriteEvent s q n v) = .next s :=
      congrArg _ (sysWriteEvent_idle (.inr h))
    have clr (h : sysWaits s q 0x043 true = true) : execReefctlClr q s = .next s := congrArg _ (if_pos (.inr h))
    exact ⟨idle 0x010, idle 0x011, idle 0x013, idle 0x040, idle 0x041, clr, idle 0x114, List.forall_mem_nil _⟩
  case vl => exact fun goes => congrArg Host.Outcome.next (sysWriteEvent_sets busy goes (.inl rfl) rfl)
  case vcfg =>
    intro goes
    refine ⟨fun width kind => congrArg Host.Outcome.next ?_, fun bad => congrArg Host.Outcome.next ?_⟩
    · rw [sysWriteEvent_sets busy goes (.inl rfl) ((vcfg_may_stand s q v).mpr ⟨width, kind⟩)]
      exact sysSet_vcfg s q v
    · refine sysWriteEvent_refuses busy goes rfl fun ok => ?_
      obtain ⟨width, kind⟩ := (vcfg_may_stand s q v).mp ok
      omega
  case vlcap =>
    intro goes
    exact ⟨fun may => congrArg Host.Outcome.next (sysWriteEvent_sets busy goes (.inl rfl) ((vlcap_may_stand s q v).mpr may)),
      fun not => congrArg Host.Outcome.next (sysWriteEvent_refuses busy goes rfl (mt (vlcap_may_stand s q v).mp not))⟩
  case accBase =>
    intro goes
    refine ⟨fun may => congrArg Host.Outcome.next ?_, fun beyond => congrArg Host.Outcome.next (sysWriteEvent_refuses busy goes rfl
      (mt (sysValueOk_accBase s q _).mp (Nat.not_le.mpr beyond)))⟩
    refine (sysWriteEvent_sets busy goes (.inl rfl) ((sysValueOk_accBase s q _).mpr may)).trans ?_
    rw [← ofNat_toNat_and_low (n := 7) (by decide)]
    rfl
  case accLim =>
    intro goes
    refine ⟨fun may => congrArg Host.Outcome.next ?_, fun beyond => congrArg Host.Outcome.next (sysWriteEvent_refuses busy goes rfl
      (mt (sysValueOk_accLim s q _).mp (Nat.not_le.mpr beyond)))⟩
    refine (sysWriteEvent_sets busy goes (.inl rfl) ((sysValueOk_accLim s q _).mpr may)).trans ?_
    rw [← ofNat_toNat_and_low (n := 8) (by decide)]
    rfl
  case spbase =>
    exact fun goes => ⟨_, congrArg Host.Outcome.next (sysWriteEvent_sets busy goes (.inl rfl) rfl), rfl, tabGet_tabSet _ _ _ _,
      fun _ other => tabGet_tabSet_ne _ _ _ other⟩
  case ageLimit =>
    have goes : sysWaits s q 0x200 true = false := rfl
    refine ⟨fun may => ⟨_, congrArg Host.Outcome.next
      (sysWriteEvent_sets busy goes (.inl rfl) ((sysValueOk_ageLimit s q _).mpr may)), rfl, tabGet_tabSet _ _ _ _,
      fun _ other => tabGet_tabSet_ne _ _ _ other⟩, fun nonzero small => congrArg Host.Outcome.next (sysWriteEvent_refuses busy goes rfl fun ok => ?_)⟩
    exact ((sysValueOk_ageLimit s q _).mp ok).elim nonzero (Nat.not_le.mpr small)
  case handler =>
    intro handler
    have sets (n : Nat) (goes : sysWaits s q n true = false) := sysWriteEvent_sets (v := v) busy goes (.inr handler)
    refine ⟨congrArg Host.Outcome.next ?_, congrArg Host.Outcome.next ?_, congrArg Host.Outcome.next (sets 0x113 rfl rfl)⟩
    · refine (sets 0x110 rfl rfl).trans ?_
      rw [← ofNat_toNat_and_low (n := 12) (by decide)]
      rfl
    · refine (sets 0x111 rfl rfl).trans ?_
      rw [← ofNat_toNat_and_low (n := 10) (by decide)]
      rfl
  case context =>
    intro context
    have traps (n : BitVec 12) (only : contextOnly n.toNat = true) (goes : sysWaits s q n.toNat true = false) :
        exec (.contextIdWrite q n v) s = .next (trap s q 0x01 0 0) := by
      change execContextIdWrite q n v s = _
      simp [execContextIdWrite, only, sysWriteEvent_goes busy goes, context]
    simp only [List.forall_mem_cons]
    exact ⟨traps _ rfl rfl, traps _ rfl rfl, traps _ rfl rfl, nofun⟩
  case reefctl =>
    intro goes
    have idle : ¬ ((s.slot q).st = .free ∨ sysWaits s q 0x043 true = true) := by simp [busy, goes]
    refine ⟨reefClear s q, congrArg Host.Outcome.next (if_neg idle), rfl, fun k other => ?_, fun e => ?_, ?_⟩
    · exact State.core_setCore_ne _ _ other
    · simp [reefClear]
    · simp [reefClear]
  case other =>
    intro n unnamed
    have free : contextOnly n.toNat = false := Bool.eq_false_iff.mpr (mt (contextOnly_iff n).mp unnamed)
    exact congrArg Host.Outcome.next (if_neg (by simp [free]))

end Sys2Proof.Settled

/-! VGRANT at the end of memory (05_vector R132): a state in which the CXL range ends eight bytes into the page that holds the record. -/

namespace Sys2Proof.Proofs

open Sys2Proof.Machine

/-- The leaf of a page that begins where the HBM range ends: valid, readable and writable by user code, with D set. -/
def edgeLeaf : Word := BitVec.ofNat 64 Config.hbmBytes ||| 0x965

/-- A slot with one lane group, at VLMAX 32. -/
def edgeSlot : Slot := { Slot.reset with st := .run, laneCount := 1, vlcap := 2048, vcfg := 5 }

/-- That page's translation, in the slot's slice. -/
def edgeEntry : TlbEntry := ⟨scalarSlice 0, 0, 0, 0, edgeLeaf, 0, 0⟩

/-- The CXL range holds the first eight bytes of the page at address 0, and no memory stands behind them. -/
def edgeState : State := { State.reset with slots := [(0, edgeSlot)], tlb := [edgeEntry], asidUse := [0], cxlBytes := 8 }

/-- The record and its CLAIM are outside the scratchpad window, and the slice translates both. -/
theorem edge_use {k : Access} (hk : k = .read ∨ k = .write ∨ k = .update) {va : Nat} (hva : va = 0 ∨ va = 8) :
    inWindow edgeState 0 va = false ∧ tlbUse edgeState (scalarAgent edgeState 0) va k = some edgeEntry := by
  rcases hk with rfl | rfl | rfl <;> rcases hva with rfl | rfl <;> exact ⟨rfl, rfl⟩

/-- The leaf permits the accesses and gives their keys. -/
theorem edge_leaf {k : Access} (hk : k = .read ∨ k = .write ∨ k = .update) {va : Nat} (hva : va = 0 ∨ va = 8) :
    checkLeaf edgeState (scalarAgent edgeState 0) va k 0 edgeLeaf = .ok ⟨Config.hbmBytes + va, 1, none, 0, 0⟩ := by
  have state : leafState edgeLeaf = 1 := rfl
  have permits : leafPermits edgeLeaf (scalarAgent edgeState 0).level k = true := by rcases hk with rfl | rfl | rfl <;> rfl
  have key : keyOfPa edgeState (leafPa edgeLeaf + va % pageBytes 0) = Config.hbmBytes + va ∧ va / pageBytes 0 * pageBytes 0 = 0 ∧
      isWindow (Config.hbmBytes + va) = false := by
    rcases hva with rfl | rfl <;> decide
  obtain ⟨key, page, inside⟩ := key
  simp [checkLeaf, state, permits, key, page, inside]

/-- So the accesses pass their check. -/
theorem edge_check {k : Access} (hk : k = .read ∨ k = .write ∨ k = .update) {va : Nat} (hva : va = 0 ∨ va = 8) :
    checkAddr edgeState (scalarAgent edgeState 0) va k = .ok ⟨Config.hbmBytes + va, 1, none, 0, 0⟩ := by
  obtain ⟨outside, found⟩ := edge_use hk hva
  have low : ¬ 2 ^ 56 ≤ va := by omega
  have cluster : (scalarAgent edgeState 0).cluster = 0 := rfl
  simp only [checkAddr, cluster, outside, low, found, Bool.false_eq_true, if_false]
  exact edge_leaf hk hva

/-- They find the translation cached. -/
theorem edge_touch {k : Access} (hk : k = .read ∨ k = .write ∨ k = .update) {va : Nat} (hva : va = 0 ∨ va = 8) :
    touch edgeState (scalarAgent edgeState 0) va k = edgeState := by
  rcases hk with rfl | rfl | rfl <;> rcases hva with rfl | rfl <;> rfl

/-- The record's block and its CLAIM may be written. -/
theorem edge_write {k : Access} (hk : k = .read ∨ k = .write ∨ k = .update) {va n : Nat} (hva : va = 0 ∧ n = 64 ∨ va = 8 ∧ n = 8) :
    PlainWrite edgeState k va n 0 (Config.hbmBytes + va) where
  aligned := by obtain ⟨rfl, rfl⟩ | ⟨rfl, rfl⟩ := hva <;> rfl
  passes := ⟨_, edge_check hk (by omega), rfl⟩
  cached := edge_touch hk (by omega)
  still := by obtain ⟨rfl, rfl⟩ | ⟨rfl, rfl⟩ := hva <;> rfl
  unblocked := List.forall_mem_nil _
  behind := rfl
  held := .inr (by obtain ⟨rfl, rfl⟩ | ⟨rfl, rfl⟩ := hva <;> rfl)
  room := by decide

/-- The record's block is what VGRANT asks for. -/
theorem edge_block : PlainBlock edgeState 0 64 Config.hbmBytes where
  read :=
    { aligned := rfl, passes := ⟨_, edge_check (.inl rfl) (.inl rfl), rfl, rfl⟩, plain := .inr (.inr rfl), cached := edge_touch (.inl rfl) (.inl rfl),
      behind := rfl, held := rfl, unseen := fun _ => ⟨rfl, rfl⟩, own := List.forall_mem_nil _, clean := rfl }
  write := edge_write (.inr (.inl rfl)) (.inl ⟨rfl, rfl⟩)
  update := edge_write (.inr (.inr rfl)) (.inl ⟨rfl, rfl⟩)
  memory := ⟨.inr ⟨.inr rfl, rfl, rfl⟩, ⟨rfl, fun _ => ⟨rfl, rfl⟩⟩, by decide⟩

/-- VGRANT leaves CLAIM as it was, since no memory stands there. -/
theorem edge_vgrant : ∃ t, exec (.vgrant 2 0) edgeState = .next t ∧ readByte t.mem (Config.hbmBytes + 8) = 0 :=
  ⟨_, rfl, rfl⟩

end Sys2Proof.Proofs

namespace Sys2Proof.Settled

open Sys2Proof.Machine Sys2Proof.Proofs

/-- Refutes O25: its hypotheses speak of the first byte of the record alone, so that a record may straddle the end of the CXL range; there
CLAIM stands where no memory is and keeps its value. -/
theorem not_vectorLengthResults : ¬ Obligations.VectorLengthResults := by
  intro h
  obtain ⟨-, grants⟩ := h edgeState ⟨by decide, by intro; decide, rfl⟩
  obtain ⟨t, run, -, -, -, -, -, -, written⟩ := grants 2 0 Config.hbmBytes (by decide) (by decide) (by decide)
    (List.forall_mem_singleton.mpr ⟨rfl, rfl⟩) rfl rfl edge_block
    (edge_write (.inr (.inl rfl)) (.inr ⟨rfl, rfl⟩))
  obtain ⟨t', run', kept⟩ := edge_vgrant
  obtain rfl : t' = t := Host.Outcome.next.inj (run'.symm.trans run)
  have claim := written.inside 0 (by decide)
  rw [Nat.add_zero, kept] at claim
  exact absurd claim (by decide)

end Sys2Proof.Settled

/-! Words of vector instructions (03_encoding R58 to R71): the word of a row of majors 0x20 to 0x24 or of a compare decodes to that row, and what the
queue reads from it. -/

namespace Sys2Proof.Proofs

open Sys2Proof.Machine Sys2Proof.Laws

/-- The instructions of majors 0x20 to 0x24 stand in one order in both types, after all others. -/
theorem ctorIdx_toInstr (c : VArith) : c.toInstr.ctorIdx = c.ctorIdx + (VArith.vadd 0 0 0 0).toInstr.ctorIdx := by
  cases c <;> rfl

/-- So an instruction tells the row that it is of. -/
theorem toInstr_injective : Function.Injective VArith.toInstr := by
  intro c c' h
  have same : c.ctorIdx = c'.ctorIdx :=
    Nat.add_right_cancel ((ctorIdx_toInstr c).symm.trans ((congrArg Instr.ctorIdx h).trans (ctorIdx_toInstr c')))
  cases c
  all_goals
    revert h
    refine VArith.ctorElim (motive := fun c' => VArith.toInstr _ = c'.toInstr → _ = c') _ c' same ?_
    refine ⟨?_⟩
    intros
    intro h
    cases h
    rfl

/-- The word of a vector instruction is the same by both encoders. -/
theorem encode_toInstr (c : VArith) : encode c.toInstr = some (encodeArith c) := by cases c <;> rfl

/-- So are the operands that it may have. -/
theorem wellFormed_toInstr (c : VArith) : wellFormed c.toInstr = wellFormedArith c := by cases c <;> rfl

/-- Its major is one of five (03_encoding R61). -/
theorem encodeArith_major (c : VArith) : 0x20 ≤ encodeArith c / 2 ^ 26 ∧ encodeArith c / 2 ^ 26 ≤ 0x24 := by
  cases c <;> simp only [encodeArith] <;> omega

/-- A word of these majors is one of an arithmetic row. -/
theorem decodeRow_arith {w : Nat} {r : Row} (lo : 0x20 ≤ w / 2 ^ 26) (hi : w / 2 ^ 26 ≤ 0x24) (h : decodeRow w = some r) : ∃ c, r = .arith c := by
  unfold decodeRow at h
  have major : w / 2 ^ 26 = 0x20 ∨ w / 2 ^ 26 = 0x21 ∨ w / 2 ^ 26 = 0x22 ∨ w / 2 ^ 26 = 0x23 ∨ w / 2 ^ 26 = 0x24 := by omega
  rcases major with m | m | m | m | m <;> rw [m] at h <;> exact (Option.map_eq_some_iff.mp h).elim fun c hc => ⟨c, hc.2.symm⟩

/-- The word of an arithmetic row decodes to it. -/
theorem decodeToRow_arith {c : VArith} (wf : wellFormedRow (.arith c) = true) : decodeToRow (encodeRow (.arith c)) = .ok (.arith c) := by
  obtain ⟨decoded, -⟩ := encodes_every c.toInstr _ (encode_toInstr c) ((wellFormed_toInstr c).trans wf)
  obtain ⟨r, hr, same⟩ := decodeToRow_of_ok decoded
  obtain ⟨lo, hi⟩ := encodeArith_major c
  have row : decodeRow (encodeArith c) = some r := by
    unfold decodeToRow at hr
    split at hr
    · cases hr
    · split at hr
      · rename_i h _
        rw [h]
        exact congrArg some (Except.ok.inj hr)
      · cases hr
  obtain ⟨c', rfl⟩ := decodeRow_arith lo hi row
  obtain rfl := toInstr_injective same
  exact hr

/-- The word of an instruction that stands before these decodes to its own row. -/
theorem decodeToRow_instr {i : Instr} {w : Nat} (henc : encode i = some w) (wf : wellFormedRow (.instr i) = true)
    (before : i.ctorIdx < (VArith.vadd 0 0 0 0).toInstr.ctorIdx) : decodeToRow (encodeRow (.instr i)) = .ok (.instr i) := by
  obtain ⟨decoded, -⟩ := encodes_every i _ henc wf
  obtain ⟨r, hr, same⟩ := decodeToRow_of_ok decoded
  have word : encodeRow (.instr i) = w := by simp [encodeRow, henc]
  rw [word, hr]
  cases r with
  | instr j => exact congrArg (fun x => Except.ok (Row.instr x)) same
  | arith c =>
    have idx := ctorIdx_toInstr c
    rw [show c.toInstr = i from same] at idx
    omega

/-- The scalar register that a vector instruction writes (04_sequencer R81): MPOPC, MFFS and VEXTR have one. -/
def scalarDest : VArith → Option Nat
  | .mpopc d _ _ | .mffs d _ _ => some d.toNat
  | .vextr d _ _ => some d.toNat
  | _ => none

/-- Of the majors of the vector unit, three words name a scalar register, in their first field. -/
theorem queueDest_some {w : Nat} (major : w / 2 ^ 26 = 0x24) (code : w % 256 = 0x04 ∨ w % 256 = 0x05 ∨ w % 256 = 0x17) :
    queueDest w = some (w / 2 ^ 21 % 32) := by
  unfold queueDest
  exact if_pos ⟨major, code⟩

/-- No other does. -/
theorem queueDest_none {w : Nat} (major : w / 2 ^ 26 ≤ 0x26) (code : ¬ (w / 2 ^ 26 = 0x24 ∧ (w % 256 = 0x04 ∨ w % 256 = 0x05 ∨ w % 256 = 0x17))) :
    queueDest w = none := by
  unfold queueDest
  dsimp only
  rw [if_neg code, if_neg (by omega), if_neg (by omega)]

/-- The queue reads that register from the word. -/
theorem queueDest_arith (c : VArith) : queueDest (encodeArith c) = scalarDest c := by
  cases c
  case mpopc d _ _ | mffs d _ _ | vextr d _ _ =>
    refine (queueDest_some ?_ ?_).trans (congrArg some ?_) <;> simp only [encodeArith] <;> omega
  all_goals
    refine queueDest_none ?_ ?_ <;> simp only [encodeArith] <;> omega

/-- What the vector unit takes from the word of a row: the row, no access to count, the scalar register, and vector operands. -/
structure UnitRow (r : Row) (dest : Option Nat) : Prop where
  decoded : decodeToRow (encodeRow r) = .ok r
  counts : queueCounts (encodeRow r) = (0, 0, 0)
  dest : queueDest (encodeRow r) = dest
  shaped : ∀ c vl p, ∃ h, rowShape c vl p r = some h

/-- A word of the majors of the vector unit counts no access. -/
theorem queueCounts_unit {w : Nat} (lo : 0x20 ≤ w / 2 ^ 26) (hi : w / 2 ^ 26 ≤ 0x26) : queueCounts w = (0, 0, 0) := by
  unfold queueCounts
  dsimp only
  rw [if_neg (by omega), if_neg (by omega), if_neg (by omega), if_neg (by omega), if_neg (by omega)]

theorem unitRow_arith {c : VArith} (wf : wellFormedRow (.arith c) = true) : UnitRow (.arith c) (scalarDest c) where
  decoded := decodeToRow_arith wf
  counts := queueCounts_unit (encodeArith_major c).1 (by have := encodeArith_major c; simp only [encodeRow]; omega)
  dest := queueDest_arith c
  shaped _ _ _ := ⟨_, rfl⟩

/-- The compares (05_vector R137). -/
def IsCompare (i : Instr) : Prop := ∃ d a m k, (∃ b, i = .vcmp d a b m k ∨ i = .vfcmp d a b m k) ∨ ∃ b, i = .vcmpVs d a b m k ∨ i = .vfcmpVs d a b m k

theorem compare_word {i : Instr} (h : IsCompare i) : ∃ w, encode i = some w ∧ w / 2 ^ 26 = 0x26 ∧ i.ctorIdx < (VArith.vadd 0 0 0 0).toInstr.ctorIdx ∧
    ∀ c vl p, ∃ g, rowShape c vl p (.instr i) = some g := by
  obtain ⟨d, a, m, k, ⟨b, rfl | rfl⟩ | ⟨b, rfl | rfl⟩⟩ := h
  all_goals exact ⟨_, rfl, by omega, Nat.le_of_ble_eq_true rfl, fun _ _ _ => ⟨_, rfl⟩⟩

theorem unitRow_compare {i : Instr} (h : IsCompare i) (wf : wellFormedRow (.instr i) = true) : UnitRow (.instr i) none := by
  obtain ⟨w, henc, major, before, shaped⟩ := compare_word h
  have word : encodeRow (.instr i) = w := by simp [encodeRow, henc]
  refine ⟨decodeToRow_instr henc wf before, ?_, ?_, shaped⟩
  · rw [word]
    exact queueCounts_unit (by omega) (by omega)
  · rw [word]
    exact queueDest_none (by omega) (by omega)

end Sys2Proof.Proofs

/-! One issue of a core's only entry (05_vector R128 to R130; 14_queue R338): what VECTOR_ISSUE comes to where nothing holds the entry back. -/

namespace Sys2Proof.Proofs

open Sys2Proof.Machine Sys2Proof.Laws

/-- The slots of a core. -/
theorem mem_slotsOfCore {k q : Nat} : q ∈ slotsOfCore k ↔ coreOf q = k := by
  simp only [slotsOfCore, coreOf, List.mem_map, List.mem_range]
  exact ⟨fun ⟨i, hi, he⟩ => by omega, fun h => ⟨q % 8, by omega, by omega⟩⟩

/-- The order in which slots issue holds each of them once it is inserted. -/
theorem mem_insertIssue (s : State) (q : Nat) {x : Nat} {l : List Nat} : x ∈ insertIssue s q l ↔ x = q ∨ x ∈ l := by
  induction l with
  | nil => simp [insertIssue]
  | cons p ps ih =>
    unfold insertIssue
    split
    · simp
    · simp only [List.mem_cons, ih]
      tauto

/-- So it holds the slots of the core. -/
theorem mem_issueOrder (s : State) {x : Nat} (qs : List Nat) : ∀ l : List Nat, x ∈ qs.foldl (fun l q => insertIssue s q l) l ↔ x ∈ qs ∨ x ∈ l := by
  induction qs with
  | nil => simp
  | cons p ps ih =>
    intro l
    rw [List.foldl_cons, ih, mem_insertIssue]
    simp only [List.mem_cons]
    tauto

/-- A search finds the only place where there is something. -/
theorem findSome?_only {α β : Type} {f : α → Option β} {l : List α} {a : α} {b : β} (ha : a ∈ l) (hb : f a = some b)
    (others : ∀ x ∈ l, x ≠ a → f x = none) : l.findSome? f = some b := by
  obtain ⟨c, hc⟩ := Option.isSome_iff_exists.mp (List.findSome?_isSome_iff.mpr ⟨a, ha, Option.isSome_iff_exists.mpr ⟨b, hb⟩⟩)
  obtain ⟨x, hx, found⟩ := List.exists_of_findSome?_eq_some hc
  by_cases same : x = a
  · rw [hc, ← found, same, hb]
  · rw [others x hx same] at found
    cases found

/-- A slot without entries issues nothing. -/
theorem issueSlot_idle {s : State} {q : Nat} (idle : (s.slot q).vq = []) : issueSlot s q 0 = none := by
  have head : issueHead s q = none := by simp [issueHead, idle, nextWork]
  simp [issueSlot, head, idle]

/-- The only slot with work wins, where it can issue. -/
theorem issueWinner_only {s t : State} {k q : Nat} (core : coreOf q = k) (alone : ∀ j, coreOf j = k → j ≠ q → (s.slot j).vq = [])
    (issues : issueHead s q = some t) : issueWinner s k 0 = some (q, t) := by
  unfold issueWinner
  refine findSome?_only (a := q) ?_ ?_ ?_
  · exact (mem_issueOrder s _ _).mpr (.inl (mem_slotsOfCore.mpr core))
  · simp [issueSlot, issues]
  · intro j hj other
    have inCore : coreOf j = k := by
      rcases (mem_issueOrder s _ _).mp hj with hj | hj
      · exact mem_slotsOfCore.mp hj
      · cases hj
    rw [issueSlot_idle (alone j inCore other)]
    rfl

/-- Where no SSTAT of a core waits, none lands. -/
theorem landCoreStats_idle {s : State} {k : Nat} (idle : ∀ p, ((s.core k).port p).stats = []) : landCoreStats s k = s := by
  have slot {j : Nat} (hj : coreOf j = k) : landStats s j = s := by
    unfold landStats
    refine List.foldl_fixed' (fun p => ?_) _
    simp [hj, idle]
  unfold landCoreStats
  have all : ∀ l : List Nat, (∀ j ∈ l, coreOf j = k) → l.foldl landStats s = s := by
    intro l
    induction l with
    | nil => exact fun _ => rfl
    | cons j l ih =>
      intro hl
      rw [List.foldl_cons, slot (hl j List.mem_cons_self)]
      exact ih fun i hi => hl i (List.mem_cons_of_mem _ hi)
  exact all _ fun j hj => mem_slotsOfCore.mp hj

/-- With no mismatch of a residue check, what an issue has done stands. -/
theorem residue_none (s t : State) (k q : Nat) : residue s t k q [] = t := rfl

/-- VECTOR_ISSUE comes to the issue of the only slot with work, where no recheck and no SSTAT waits and no trap is raised. -/
theorem vectorIssue_only {s t : State} {k q : Nat} (core : coreOf q = k) (alone : ∀ j, coreOf j = k → j ≠ q → (s.slot j).vq = [])
    (unchecked : (s.core k).rechecks = []) (issues : issueHead s q = some t) (due : (t.slot q).due = (s.slot q).due)
    (idle : ∀ p, ((t.core k).port p).stats = []) : exec (.vectorIssue k ⟨0, []⟩) s = .next t := by
  change execVectorIssue k ⟨0, []⟩ s = _
  have young : recheckAged (s.core k) = false := by simp [recheckAged, unchecked]
  simp only [execVectorIssue, young, issueWinner_only core alone issues, due, ne_eq, not_true_eq_false, if_false, Bool.false_eq_true, residue_none,
    landCoreStats_idle idle]

section ready

variable {s : State} {k q : Nat} {e : VEntry} {r : Row} {dest : Option Nat}

/-- The work of a ready slot is its entry. -/
theorem nextWork_ready (h : BeatReady s k q e r) : nextWork (s.slot q).vq = some (0, e) := by
  obtain ⟨-, -, kind, -⟩ := h.word
  rw [h.head]
  simp [nextWork, kind]

/-- What the slot keeps of an issue: the queue without the entry, or with it further on, the flags, and the scalar register that is written. -/
def issuedSlot (x : Slot) (e : VEntry) (y : VStep) (vdirty : BitVec 6) (charge : Nat) : Slot :=
  let x1 : Slot := { x with
    vq := match y.more with | some p => [{ e with p := p, probed := none }] | none => []
    fflags := x.fflags ||| y.flags, vdirty := vdirty, charge := charge }
  match (if y.more.isSome then none else e.lands x y.scalar) with
  | some d => x1.landAt d.1 d.2.val d.2.poison
  | none => x1

/-- The state after an issue of the only entry of a core: the core as the step leaves it, the slot, and the shares. -/
structure Issued (s t : State) (k q : Nat) (e : VEntry) (y : VStep) : Prop where
  device : t = { s with slots := t.slots, cores := t.cores, shares := t.shares }
  slots : ∀ j, j ≠ q → t.slot j = s.slot j
  cores : ∀ j, j ≠ k → t.core j = s.core j
  core : t.core k = y.core
  slot : ∃ vdirty charge, t.slot q = issuedSlot (s.slot q) e y vdirty charge

/-- What lands after a step of a ready entry is such a state. -/
theorem issued_issueLand (h : BeatReady s k q e r) (counts : queueCounts e.word = (0, 0, 0)) (y : VStep) (gs : List VGrp) (mask : Bool) (cost : Nat) :
    Issued s (issueLand (s.setCore k y.core) q 0 e gs mask y.flags y.more none e.vl (if y.more.isSome then none else e.lands (s.slot q) y.scalar) cost)
      k q e y where
  device := rfl
  slots _ other := State.slot_setSlot_ne _ _ other
  cores _ other := State.core_setCore_ne _ _ other
  core := State.core_setCore _ _ _
  slot := by
    refine ⟨(s.slot q).vdirty ||| dirtyBits gs mask, (s.slot q).charge + cost * 2 ^ vGroup e.vcfg, ?_⟩
    refine (State.slot_setSlot _ _ _).trans ?_
    have head : (s.slot q).vq = [e] := h.head
    simp only [issuedSlot, State.slot_setCore, counts, Nat.lt_irrefl, if_false, head, Nat.sub_zero, List.set_cons_zero, List.eraseIdx_cons_zero,
      ite_self] <;> rfl

/-- The entry of a ready slot issues its step. -/
theorem issueHead_ready (h : BeatReady s k q e r) (row : UnitRow r dest) {a : VAct} {factor whole : Nat}
    (act : entryAct (s.core k) (VView.of (s.slot q) e) e r = some (a, factor, whole)) :
    ∃ t, issueHead s q = some t ∧ Issued s t k q e (a.step (VView.of (s.slot q) e) (s.core k)) := by
  obtain ⟨word, wf, kind, fresh⟩ := h.word
  obtain ⟨-, -, -, vl⟩ := h.captured
  obtain ⟨busy, due, recheck, frozen⟩ := h.slot
  obtain ⟨ports, tiles, unchecked, -⟩ := h.idle
  have core : coreOf q = k := h.core
  have free : ¬ ((s.slot q).st = .free ∨ unitHeld s q = true) := by simp [busy, unitHeld, frozenUnit, frozen]
  have noFence : e.kind ≠ .fenceVV := by simp [kind]
  have unheld : heldByDue (s.slot q) e.ord = false := by simp [heldByDue, due]
  obtain ⟨sh, shape⟩ := row.shaped e.vcfg e.vl e.p
  have decoded : decodeToRow e.word = .ok r := word ▸ row.decoded
  have counts : queueCounts e.word = (0, 0, 0) := word ▸ row.counts
  have noPorts : entryPorts s q sh = [] := by simp [entryPorts, ports]
  have retired : unretired s q = false := by simp [unretired, core, unchecked]
  have noMeta (gs : List VGrp) : metaHeld s q e.ord gs = false := by simp [metaHeld, tiles]
  have flags (f : FFlags) : 0 ||| f = f := BitVec.zero_or
  have row' : issueHead s q = issueRow s q 0 e r sh := by
    have stands (b : Bool) : ¬ (e.restored && !b) = true := by simp [fresh]
    simp only [issueHead, free, if_false, nextWork_ready h, Nat.min_eq_left vl, unheld, decoded, noFence, stands, shape, Bool.false_eq_true]
  refine ⟨_, row'.trans ?_, issued_issueLand h counts _ (if e.vl ≤ e.p then [] else sh.dsts) (writesMask r && decide (e.p < e.vl))
    (a.cost (s.core k) (VView.of (s.slot q) e) factor whole)⟩
  simp only [issueRow, noPorts, ite_self, retired, noMeta, Bool.and_false, Bool.or_false, Bool.false_eq_true, if_false, List.map_nil, List.append_nil,
    if_true, core, act, issueArith, recheck, flags] <;> rfl

/-- An issue raises no trap. -/
theorem issuedSlot_due (x : Slot) (e : VEntry) (y : VStep) (vdirty : BitVec 6) (charge : Nat) : (issuedSlot x e y vdirty charge).due = x.due := by
  unfold issuedSlot Slot.landAt
  dsimp only
  split
  · split
    · rfl
    · split <;> rfl
  · rfl

/-- VECTOR_ISSUE of a ready entry: the state after its step. -/
theorem vectorIssue_ready (h : BeatReady s k q e r) (row : UnitRow r dest) {a : VAct} {factor whole : Nat}
    (act : entryAct (s.core k) (VView.of (s.slot q) e) e r = some (a, factor, whole))
    (only : (a.step (VView.of (s.slot q) e) (s.core k)).core = { s.core k with vec := (a.step (VView.of (s.slot q) e) (s.core k)).core.vec }) :
    ∃ t, exec (.vectorIssue k ⟨0, []⟩) s = .next t ∧ Issued s t k q e (a.step (VView.of (s.slot q) e) (s.core k)) := by
  obtain ⟨t, issues, done⟩ := issueHead_ready h row act
  obtain ⟨-, -, unchecked, stats⟩ := h.idle
  obtain ⟨vdirty, charge, slot⟩ := done.slot
  refine ⟨t, vectorIssue_only h.core h.alone unchecked issues ?_ ?_, done⟩
  · rw [slot, issuedSlot_due]
  · intro p
    rw [done.core, only]
    exact stats p

end ready

end Sys2Proof.Proofs

/-! Elements in the chunks of a core (05_vector R124, R126): a field of bits read after a field is written, the places of a destination's elements, and
elements written one after the other. -/

namespace Sys2Proof.Proofs

open Sys2Proof.Machine Sys2Proof.Laws

/-- The bits of a number's field. -/
theorem testBit_field (x lo n j : Nat) : (x / 2 ^ lo % 2 ^ n).testBit j = (decide (j < n) && x.testBit (lo + j)) := by
  rw [Nat.testBit_mod_two_pow, Nat.testBit_div_two_pow, Nat.add_comm j lo]

/-- The bits of a chunk with a field written. -/
theorem getLsbD_write (c : VChunk) {lo n : Nat} (x : Nat) (fits : lo + n ≤ 64) (j : Nat) :
    (c.write lo n x none).bits.getLsbD j = if lo ≤ j ∧ j < lo + n then x.testBit (j - lo) else c.bits.getLsbD j := by
  have bits : (c.write lo n x none).bits = (c.bits &&& ~~~ BitVec.ofNat 64 ((2 ^ n - 1) * 2 ^ lo)) |||
      (BitVec.ofNat 64 (x % 2 ^ n * 2 ^ lo) &&& BitVec.ofNat 64 ((2 ^ n - 1) * 2 ^ lo)) := by
    unfold VChunk.write
    dsimp only
    split <;> rfl
  rw [bits]
  by_cases hj : j < 64
  · simp only [BitVec.getLsbD_or, BitVec.getLsbD_and, BitVec.getLsbD_not, BitVec.getLsbD_ofNat, Nat.testBit_mul_two_pow, Nat.testBit_two_pow_sub_one,
      Nat.testBit_mod_two_pow, hj, decide_true, Bool.true_and]
    by_cases inside : lo ≤ j ∧ j < lo + n
    · obtain ⟨below, above⟩ := inside
      simp [below, above, show j - lo < n by omega]
    · by_cases below : lo ≤ j
      · simp [below, show ¬ j < lo + n by omega, show ¬ j - lo < n by omega]
      · simp [below]
  · have outside : ¬ (lo ≤ j ∧ j < lo + n) := by omega
    rw [if_neg outside, BitVec.getLsbD_of_ge _ _ (by omega), BitVec.getLsbD_of_ge _ _ (by omega)]

/-- A field that is written reads as what was written, cut to its width. -/
theorem field_write (c : VChunk) {lo n : Nat} (x : Nat) (fits : lo + n ≤ 64) : (c.write lo n x none).bits.toNat / 2 ^ lo % 2 ^ n = x % 2 ^ n := by
  refine Nat.eq_of_testBit_eq fun j => ?_
  rw [testBit_field, BitVec.testBit_toNat, getLsbD_write c x fits, Nat.testBit_mod_two_pow]
  by_cases h : j < n
  · simp [h]
  · simp [h]

/-- A field beside it keeps its bits. -/
theorem field_write_other (c : VChunk) {lo n lo' n' : Nat} (x : Nat) (fits : lo + n ≤ 64) (apart : lo + n ≤ lo' ∨ lo' + n' ≤ lo) :
    (c.write lo n x none).bits.toNat / 2 ^ lo' % 2 ^ n' = c.bits.toNat / 2 ^ lo' % 2 ^ n' := by
  refine Nat.eq_of_testBit_eq fun j => ?_
  rw [testBit_field, testBit_field, BitVec.testBit_toNat, BitVec.testBit_toNat, getLsbD_write c x fits]
  by_cases h : j < n'
  · rw [if_neg (by omega)]
  · simp [h]

/-- A clean chunk stays clean under a value without poison. -/
theorem write_clean {c : VChunk} (clean : c.poison = none) (lo n x : Nat) : (c.write lo n x none).poison = none := by
  simp [VChunk.write, clean]

/-- No chunk of the core is poisoned (05_vector R127). -/
def CleanCore (c : Core) : Prop := ∀ n, (c.chunk n).poison = none

/-- A field of a core's chunks at a chunk and a bit in it, and the core with it written. -/
def fieldOf (c : Core) (pl : Nat × Nat) (w : Nat) : Nat := (c.chunk pl.1).bits.toNat / 2 ^ pl.2 % 2 ^ w
def putField (c : Core) (pl : Nat × Nat) (w x : Nat) : Core := { c with vec := tabSet c.vec pl.1 ((c.chunk pl.1).write pl.2 w x none) }

/-- The chunk that is written, and every other. -/
theorem chunk_putField (c : Core) (pl : Nat × Nat) (w x : Nat) : (putField c pl w x).chunk pl.1 = (c.chunk pl.1).write pl.2 w x none := by
  simp [putField, Core.chunk]

theorem chunk_putField_ne (c : Core) (pl : Nat × Nat) (w x : Nat) {key : Nat} (other : key ≠ pl.1) : (putField c pl w x).chunk key = c.chunk key := by
  simp [putField, Core.chunk, tabFind_tabSet_ne _ _ other]

/-- A clean core stays clean. -/
theorem putField_clean {c : Core} (clean : CleanCore c) (pl : Nat × Nat) (w x : Nat) : CleanCore (putField c pl w x) := by
  intro n
  by_cases h : n = pl.1
  · rw [h, chunk_putField]
    exact write_clean (clean _) _ _ _
  · rw [chunk_putField_ne c pl w x h]
    exact clean n

/-- A field after it is written, and one apart from it. -/
theorem fieldOf_putField (c : Core) {pl : Nat × Nat} {w : Nat} (x : Nat) (fits : pl.2 + w ≤ 64) : fieldOf (putField c pl w x) pl w = x % 2 ^ w := by
  rw [fieldOf, chunk_putField]
  exact field_write _ _ fits

theorem fieldOf_putField_ne (c : Core) {pl pl' : Nat × Nat} {w w' : Nat} (x : Nat) (fits : pl.2 + w ≤ 64)
    (apart : pl.1 = pl'.1 → pl.2 + w ≤ pl'.2 ∨ pl'.2 + w' ≤ pl.2) : fieldOf (putField c pl w x) pl' w' = fieldOf c pl' w' := by
  unfold fieldOf
  by_cases h : pl'.1 = pl.1
  · rw [h, chunk_putField]
    exact field_write_other _ _ fits (apart h.symm)
  · rw [chunk_putField_ne c pl w x h]

/-- The elements of a destination below a number stand in fields of chunks that do not meet. -/
structure DstFits (v : VView) (d : VDst) (size w : Nat) (place : Nat → Nat × Nat) : Prop where
  put : ∀ i < size, ∀ (c : Core) (x : Nat), c.putDst v d i ⟨x, none⟩ = putField c (place i) w x
  bits : ∀ i < size, ∀ c : Core, dstBits c v d i = fieldOf c (place i) w
  fits : ∀ i, (place i).2 + w ≤ 64
  apart : ∀ i < size, ∀ j < size, i ≠ j → (place i).1 = (place j).1 → (place i).2 + w ≤ (place j).2 ∨ (place j).2 + w ≤ (place i).2

/-- n elements of a destination from i on, written in their order where g gives a value. -/
def writeFrom (v : VView) (d : VDst) (g : Nat → Option Nat) : Nat → Nat → Core → Core
  | 0, _, c => c
  | n + 1, i, c => writeFrom v d g n (i + 1) (match g i with | some x => c.putDst v d i ⟨x, none⟩ | none => c)

/-- More elements are written after fewer. -/
theorem writeFrom_add (v : VView) (d : VDst) (g : Nat → Option Nat) (m n i : Nat) (c : Core) :
    writeFrom v d g (n + m) i c = writeFrom v d g m (i + n) (writeFrom v d g n i c) := by
  induction n generalizing i c with
  | zero => simp [writeFrom]
  | succ n ih =>
    rw [Nat.add_right_comm, writeFrom, ih, writeFrom, Nat.add_right_comm i 1 n, Nat.add_assoc i n 1]

/-- Only the values in range count. -/
theorem writeFrom_congr (v : VView) (d : VDst) {g g' : Nat → Option Nat} {n i : Nat} (c : Core) (same : ∀ j, i ≤ j → j < i + n → g j = g' j) :
    writeFrom v d g n i c = writeFrom v d g' n i c := by
  induction n generalizing i c with
  | zero => rfl
  | succ n ih =>
    rw [writeFrom, writeFrom, same i (by omega) (by omega)]
    exact ih _ fun j lo hi => same j (by omega) (by omega)

/-- What writing elements in order leaves: the values where there are some, and everything else as it was. -/
structure Wrote (v : VView) (d : VDst) (size w : Nat) (place : Nat → Nat × Nat) (lo hi : Nat) (g : Nat → Option Nat) (c c' : Core) : Prop where
  core : c' = { c with vec := c'.vec }
  clean : CleanCore c'
  new : ∀ j, lo ≤ j → j < hi → dstBits c' v d j = (g j).elim (dstBits c v d j) (· % 2 ^ w)
  kept : ∀ j, j < lo ∨ hi ≤ j ∧ j < size → dstBits c' v d j = dstBits c v d j
  beside : ∀ key, (∀ j < size, (place j).1 ≠ key) → c'.chunk key = c.chunk key

/-- Nothing is written yet. -/
theorem wrote_nothing (v : VView) (d : VDst) (size w : Nat) (place : Nat → Nat × Nat) (i : Nat) (g : Nat → Option Nat) {c : Core}
    (clean : CleanCore c) : Wrote v d size w place i i g c c where
  core := rfl
  clean := clean
  new _ lo hi := absurd hi (Nat.not_lt.mpr lo)
  kept _ _ := rfl
  beside _ _ := rfl

section wrote

variable {v : VView} {d : VDst} {size w : Nat} {place : Nat → Nat × Nat} {lo i : Nat} {g : Nat → Option Nat} {c c' : Core}

/-- One more element that is written leaves the others. -/
theorem dstBits_putField (fits : DstFits v d size w place) {j : Nat} (hi : i < size) (hj : j < size) (c : Core) (x : Nat) :
    dstBits (putField c (place i) w x) v d j = if j = i then x % 2 ^ w else dstBits c v d j := by
  rw [fits.bits j hj, fits.bits j hj]
  by_cases same : j = i
  · rw [if_pos same, same, fieldOf_putField _ _ (fits.fits i)]
  · rw [if_neg same]
    exact fieldOf_putField_ne _ _ (fits.fits i) (fits.apart i hi j hj (Ne.symm same))

/-- One more element is done. -/
theorem Wrote.next (fits : DstFits v d size w place) (h : Wrote v d size w place lo i g c c') (hlo : lo ≤ i) (hi : i < size) :
    Wrote v d size w place lo (i + 1) g c (match g i with | some x => c'.putDst v d i ⟨x, none⟩ | none => c') := by
  cases value : g i with
  | none =>
    refine ⟨h.core, h.clean, fun j lo' hi' => ?_, fun j out => h.kept j (by omega), h.beside⟩
    by_cases last : j = i
    · rw [h.kept j (.inr (by omega)), last, value]
      rfl
    · exact h.new j lo' (by omega)
  | some x =>
    dsimp only
    rw [fits.put i hi]
    refine ⟨?_, putField_clean h.clean _ _ _, fun j lo' hi' => ?_, fun j out => ?_, fun key away => ?_⟩
    · rw [h.core]
      rfl
    · rw [dstBits_putField fits hi (by omega)]
      by_cases last : j = i
      · rw [if_pos last, last, value]
        rfl
      · rw [if_neg last]
        exact h.new j lo' (by omega)
    · by_cases inside : j < size
      · rw [dstBits_putField fits hi inside, if_neg (by omega)]
        exact h.kept j (by omega)
      · omega
    · rw [chunk_putField_ne _ _ _ _ (away i hi).symm]
      exact h.beside key away

/-- Elements that are written in order are all done. -/
theorem wrote_writeFrom (fits : DstFits v d size w place) {n : Nat} (h : Wrote v d size w place lo i g c c') (hlo : lo ≤ i) (hi : i + n ≤ size) :
    Wrote v d size w place lo (i + n) g c (writeFrom v d g n i c') := by
  induction n generalizing i c' with
  | zero => exact h
  | succ n ih =>
    have := ih (h.next fits hlo (by omega)) (by omega) (by omega)
    rwa [Nat.add_right_comm] at this

/-- So it is from the first on. -/
theorem wrote_of_writeFrom (fits : DstFits v d size w place) (clean : CleanCore c) {n : Nat} (hi : i + n ≤ size) :
    Wrote v d size w place i (i + n) g c (writeFrom v d g n i c) :=
  wrote_writeFrom fits (wrote_nothing v d size w place i g clean) le_rfl hi

end wrote

end Sys2Proof.Proofs

/-! The places of elements and mask bits (05_vector R124), and the ways in which instructions go over them (R126, R128, R130), as elements written one
after the other. -/

namespace Sys2Proof.Proofs

open Sys2Proof.Machine Sys2Proof.Laws

/-- A chunk's key tells its lane group, register and place. -/
theorem vecKey_inj {l r j l' r' j' : Nat} (hr : r < 40) (hr' : r' < 40) (hj : j < 32) (hj' : j' < 32) (h : vecKey l r j = vecKey l' r' j') :
    l = l' ∧ r = r' ∧ j = j' := by
  unfold vecKey at h
  omega

/-- VLEN in bits is a power of two of whole lane groups (05_vector R117). -/
def VlenOk (v : VView) : Prop := v.vlen = 2048 ∨ v.vlen = 4096 ∨ v.vlen = 8192 ∨ v.vlen = 16384

/-- The element widths (05_vector R119), and one more for what widens. -/
def WidthOk (w : Nat) : Prop := w ∣ 64 ∧ 0 < w

section places

variable {v : VView} {r w n : Nat}

/-- The chunk of an element, and the bit in it. -/
theorem place_eq (v : VView) (r w i : Nat) : v.place r w i =
    (vecKey (v.base + i * w % v.vlen / 2048) (r + i * w / v.vlen) (i * w % v.vlen % 2048 / 64), i * w % v.vlen % 64) := rfl

/-- Chunks hold whole elements: an element's bit in its chunk is a multiple of the width. -/
theorem place_bit (len : VlenOk v) {k : Nat} (hk : 64 = k * w) (i : Nat) : (v.place r w i).2 = i % k * w := by
  have whole : 64 ∣ v.vlen := by
    rcases len with h | h | h | h <;> rw [h] <;> decide
  rw [place_eq, Nat.mod_mod_of_dvd _ whole, hk, Nat.mul_mod_mul_right]

/-- The register of an element of a group of n. -/
theorem place_reg {i : Nat} (wpos : 0 < w) (hi : i < v.size n w) : r + i * w / v.vlen < r + n := by
  have below : i < v.vlen * n / w := lt_of_lt_of_le hi (min_le_left _ _)
  have bits : i * w < v.vlen * n := by
    have := (Nat.le_div_iff_mul_le wpos).mp below
    calc i * w < (i + 1) * w := Nat.mul_lt_mul_of_pos_right (Nat.lt_succ_self i) wpos
      _ ≤ v.vlen * n := this
  exact Nat.add_lt_add_left (Nat.div_lt_of_lt_mul bits) r

/-- The chunk of an element is none of a register outside its group. -/
theorem place_beside (wpos : 0 < w) (low : r + n ≤ 40) {i lane reg j : Nat} (hi : i < v.size n w) (hreg : reg < 40) (hj : j < 32)
    (out : reg < r ∨ r + n ≤ reg) : (v.place r w i).1 ≠ vecKey lane reg j := by
  intro same
  have inside := place_reg (r := r) wpos hi
  obtain ⟨-, group, -⟩ := vecKey_inj (by omega) hreg (by omega) hj same
  generalize i * w / v.vlen = x at inside group
  omega

/-- Two elements of a group stand apart. -/
theorem place_apart (len : VlenOk v) (width : WidthOk w) (low : r + n ≤ 40) {i j : Nat} (hi : i < v.size n w) (hj : j < v.size n w) (ne : i ≠ j)
    (same : (v.place r w i).1 = (v.place r w j).1) : (v.place r w i).2 + w ≤ (v.place r w j).2 ∨ (v.place r w j).2 + w ≤ (v.place r w i).2 := by
  obtain ⟨⟨k, hk⟩, wpos⟩ := width
  rw [Nat.mul_comm] at hk
  have hri := place_reg (r := r) wpos hi
  have hrj := place_reg (r := r) wpos hj
  obtain ⟨lane, reg, at_⟩ := vecKey_inj (by omega) (by omega) (by omega) (by omega) same
  have chunk : i * w / 64 = j * w / 64 := by
    generalize i * w = x at *
    generalize j * w = y at *
    rcases len with h | h | h | h <;> rw [h] at lane reg at_ <;> omega
  rw [hk, Nat.mul_div_mul_right _ _ wpos, Nat.mul_div_mul_right _ _ wpos] at chunk
  rw [place_bit len hk, place_bit len hk]
  have rest : i % k ≠ j % k := by
    intro eq
    apply ne
    rw [← Nat.div_add_mod i k, ← Nat.div_add_mod j k, chunk, eq]
  rcases Nat.lt_or_gt_of_ne rest with lt | gt
  · exact .inl (by have := Nat.mul_le_mul_right w lt; rwa [Nat.succ_mul] at this)
  · exact .inr (by have := Nat.mul_le_mul_right w gt; rwa [Nat.succ_mul] at this)

/-- An element ends within its chunk. -/
theorem place_fits (len : VlenOk v) (width : WidthOk w) (i : Nat) : (v.place r w i).2 + w ≤ 64 := by
  obtain ⟨⟨k, hk⟩, wpos⟩ := width
  rw [Nat.mul_comm] at hk
  rw [place_bit len hk]
  have kpos : 0 < k := Nat.pos_of_ne_zero (by rintro rfl; omega)
  calc i % k * w + w = (i % k + 1) * w := (Nat.succ_mul _ _).symm
    _ ≤ k * w := Nat.mul_le_mul_right w (Nat.mod_lt i kpos)
    _ = 64 := hk.symm

/-- The elements of a register group (05_vector R124). -/
theorem regFits (len : VlenOk v) (width : WidthOk w) (low : r + n ≤ 40) {size : Nat} (within : size ≤ v.size n w) :
    DstFits v (.reg r w) size w (v.place r w) where
  put _ _ _ _ := rfl
  bits _ _ _ := rfl
  fits := place_fits len width
  apart _ hi _ hj := place_apart len width low (lt_of_lt_of_le hi within) (lt_of_lt_of_le hj within)

/-- The bits of a mask register (05_vector R124; 13_group R314). -/
theorem maskFits {m : Nat} (writable : m ≠ 0) (reg : m < 8) : DstFits v (.mask m) v.maskSize 1 (v.maskPlace m) where
  put i hi c x := by simp [Core.putDst, Core.putMask, writable, Nat.not_le.mpr (show i < 1024 * v.count from hi), putField]
  bits i hi c := by simp [dstBits, Core.maskBit, writable, Nat.not_le.mpr (show i < 1024 * v.count from hi), fieldOf]
  fits i := by
    have := Nat.mod_lt i (show 0 < 64 by decide)
    simp only [VView.maskPlace]
    omega
  apart i _ j _ ne same := by
    obtain ⟨lane, -, at_⟩ := vecKey_inj (by omega) (by omega) (by omega) (by omega) same
    simp only [VView.maskPlace]
    omega

/-- The chunk of a mask bit is of its mask register. -/
theorem maskPlace_beside {m : Nat} (hm : m < 8) {i lane reg j : Nat} (hreg : reg < 40) (hj : j < 32) (out : reg ≠ 32 + m) :
    (v.maskPlace m i).1 ≠ vecKey lane reg j := by
  intro same
  have := vecKey_inj (by omega) hreg (by omega) hj same
  omega

end places

end Sys2Proof.Proofs

/-! The ways in which instructions go over elements (05_vector R126, R128, R130), as elements written one after the other. -/

namespace Sys2Proof.Proofs

open Sys2Proof.Machine Sys2Proof.Laws

section clean

variable {c : Core} (clean : CleanCore c)
include clean

/-- Nothing that is read of a clean core is poisoned (05_vector R127). -/
theorem elem_poison (v : VView) (r w i : Nat) : (c.elem v r w i).poison = none := by simp [Core.elem, clean _]

theorem maskBit_poison (v : VView) (m i : Nat) : (c.maskBit v m i).poison = none := by
  unfold Core.maskBit
  split
  · rfl
  · split
    · rfl
    · simp [clean _]

theorem maskBreaks_clean (v : VView) (m : Nat) : c.maskBreaks v m = [] := by
  unfold Core.maskBreaks
  split
  · rfl
  · simp [maskBit_poison clean]

end clean

/-- Under mask register 0 every element is active. -/
theorem active_zero (c : Core) (v : VView) (i : Nat) : c.active v 0 i = true := rfl

/-- What an element-wise instruction writes to an element: its value where it is active or computed all the same, zero under MP where it is not. -/
def elemValue? (c : Core) (v : VView) (m : Nat) (always : Bool) (f : Core → Nat → ElemRes) (i : Nat) : Option Nat :=
  if c.active v m i || always then some (f c i).elem.bits else if v.mp then some 0 else none

/-- The flags of the elements from lo to hi − 1 that are computed. -/
def flagsWhere (on : Nat → Bool) (lo hi : Nat) (f : Nat → FFlags) : FFlags :=
  (List.range hi).foldl (fun a i => if lo ≤ i ∧ on i = true then a ||| f i else a) 0

theorem flagsWhere_succ (on : Nat → Bool) (lo i : Nat) (f : Nat → FFlags) :
    flagsWhere on lo (i + 1) f = if lo ≤ i ∧ on i = true then flagsWhere on lo i f ||| f i else flagsWhere on lo i f := by
  simp only [flagsWhere, List.range_succ, List.foldl_append, List.foldl_cons, List.foldl_nil]

theorem flagsWhere_below (on : Nat → Bool) {lo : Nat} (f : Nat → FFlags) : ∀ n ≤ lo, flagsWhere on lo n f = 0
  | 0, _ => rfl
  | n + 1, h => by rw [flagsWhere_succ, if_neg (by omega), flagsWhere_below on f n (by omega)]

/-- Values without flags raise none. -/
theorem flagsWhere_zero (on : Nat → Bool) (lo : Nat) : ∀ hi, flagsWhere on lo hi (fun _ => 0) = 0
  | 0 => rfl
  | n + 1 => by
    rw [flagsWhere_succ, flagsWhere_zero on lo n]
    exact ite_self _

/-- Element by element is elements written in order, with the flags of those that are computed. -/
theorem runElems_eq {c0 : Core} (clean : CleanCore c0) {v : VView} {d : VDst} {m : Nat} {always : Bool} {f : Core → Nat → ElemRes}
    (pure : ∀ i, (f c0 i).elem.poison = none) {lo : Nat} (n i : Nat) (hlo : lo ≤ i) (c : Core) :
    runElems c0 v d m always f n i c (flagsWhere (fun j => c0.active v m j || always) lo i fun j => (f c0 j).flags) =
      (writeFrom v d (elemValue? c0 v m always f) n i c,
        flagsWhere (fun j => c0.active v m j || always) lo (i + n) fun j => (f c0 j).flags) := by
  induction n generalizing i c with
  | zero => rfl
  | succ n ih =>
    have bit : (if m = 0 then (⟨1, none⟩ : Elem) else c0.maskBit v m i) = c0.maskBit v m i := by
      split
      · next h => rw [h]; rfl
      · rfl
    have active : ((c0.maskBit v m i).bits == 1) = c0.active v m i := by
      unfold Core.active
      by_cases h : m = 0
      · rw [h]; rfl
      · simp [h]
    have value (hon : (c0.active v m i || always) = true) : (f c0 i).elem = ⟨(f c0 i).elem.bits, none⟩ := by
      rw [← pure i]
    rw [runElems, bit]
    simp only [maskBit_poison clean, active]
    rw [writeFrom, ← Nat.add_assoc, Nat.add_right_comm]
    by_cases on : (c0.active v m i || always) = true
    · have rest := ih (i + 1) (by omega) (c.putDst v d i (f c0 i).elem)
      rw [flagsWhere_succ, if_pos ⟨hlo, on⟩] at rest
      rw [if_pos on, rest, elemValue?, if_pos on]
      dsimp only
      rw [← value on]
    · have skipped : ¬ (lo ≤ i ∧ (c0.active v m i || always) = true) := fun h => on h.2
      have rest := ih (i + 1) (by omega) (if v.mp then c.putDst v d i ⟨0, none⟩ else c)
      rw [flagsWhere_succ, if_neg skipped] at rest
      rw [if_neg on, rest, elemValue?, if_neg on]
      by_cases mp : v.mp = true
      · simp only [mp, if_true]
      · simp only [mp, Bool.false_eq_true, if_false]

/-- So does one that ignores what it reads before it: no flag has been raised at the first element. -/
theorem runElems_from {c : Core} (clean : CleanCore c) {v : VView} {d : VDst} {m : Nat} {always : Bool} {f : Core → Nat → ElemRes}
    (pure : ∀ i, (f c i).elem.poison = none) (n i : Nat) :
    runElems c v d m always f n i c 0 =
      (writeFrom v d (elemValue? c v m always f) n i c, flagsWhere (fun j => c.active v m j || always) i (i + n) fun j => (f c j).flags) := by
  have run := runElems_eq clean pure n i le_rfl (d := d) (m := m) (always := always) (v := v) (lo := i) c
  rwa [flagsWhere_below _ _ i le_rfl] at run

/-- A cross-element instruction writes the elements that it gives, in order. -/
theorem crossRun_eq (c0 : Core) (v : VView) (d : VDst) {f : Nat → Option Elem} (pure : ∀ i, ∀ x ∈ f i, x.poison = none) (n i : Nat) (c : Core) :
    crossRun c0 v d [] f n i c = writeFrom v d (fun j => (f j).map Elem.bits) n i c := by
  induction n generalizing i c with
  | zero => rfl
  | succ n ih =>
    rw [crossRun, ih, writeFrom]
    cases value : f i with
    | none => rfl
    | some x =>
      have clean : x = ⟨x.bits, none⟩ := by rw [← pure i x value]
      simp only [breakAt, List.foldl_nil, Option.map_some]
      rw [← clean]

/-- Zeros from an element on. -/
theorem zeroFrom_eq (v : VView) (d : VDst) (n i : Nat) (c : Core) : c.zeroFrom v d i n = writeFrom v d (fun _ => some 0) n i c := by
  induction n generalizing i c with
  | zero => rfl
  | succ n ih => exact ih _ _

/-- What one issue leaves of a destination (05_vector R126): the elements from P to n, the tail where n is VL, and nothing else. -/
structure GroupWrote (v : VView) (d : VDst) (size w : Nat) (place : Nat → Nat × Nat) (lo n : Nat) (g : Nat → Option Nat) (c c' : Core) : Prop where
  core : c' = { c with vec := c'.vec }
  clean : CleanCore c'
  new : ∀ j, lo ≤ j → j < n → dstBits c' v d j = (g j).elim (dstBits c v d j) (· % 2 ^ w)
  kept : ∀ j, j < lo ∨ n ≤ j ∧ j < size ∧ ¬ (v.vl ≤ j ∧ n = v.vl ∧ v.tp = true) → dstBits c' v d j = dstBits c v d j
  tail : n = v.vl → v.tp = true → ∀ j, v.vl ≤ j → j < size → dstBits c' v d j = 0
  beside : ∀ key, (∀ j < size, (place j).1 ≠ key) → c'.chunk key = c.chunk key

section group

variable {v : VView} {d : VDst} {size w : Nat} {place : Nat → Nat × Nat} {lo n : Nat} {g : Nat → Option Nat} {c : Core}

/-- Part of the elements, with more to come. -/
theorem groupWrote_part (fits : DstFits v d size w place) (clean : CleanCore c) (hlo : lo ≤ n) (hn : n < v.vl) (hvl : v.vl ≤ size) :
    GroupWrote v d size w place lo n g c (writeFrom v d g (n - lo) lo c) := by
  have wrote := wrote_of_writeFrom fits clean (g := g) (i := lo) (n := n - lo) (by omega)
  rw [Nat.add_sub_cancel' hlo] at wrote
  exact ⟨wrote.core, wrote.clean, wrote.new, fun j out => wrote.kept j (by omega), fun last => by omega, wrote.beside⟩

/-- The last of the elements, and the tail. -/
theorem groupWrote_last (fits : DstFits v d size w place) (clean : CleanCore c) (hlo : lo ≤ v.vl) (hvl : v.vl ≤ size) :
    GroupWrote v d size w place lo v.vl g c ((writeFrom v d g (v.vl - lo) lo c).tail v d size) := by
  have before := wrote_of_writeFrom fits clean (g := g) (i := lo) (n := v.vl - lo) (by omega)
  rw [Nat.add_sub_cancel' hlo] at before
  unfold Core.tail
  by_cases tp : v.tp = true
  · -- the tail is written like more elements, all zero
    have all := wrote_of_writeFrom fits clean (g := fun j => if j < v.vl then g j else some 0) (i := lo) (n := (v.vl - lo) + (size - v.vl)) (by omega)
    have whole : writeFrom v d (fun j => if j < v.vl then g j else some 0) ((v.vl - lo) + (size - v.vl)) lo c =
        (writeFrom v d g (v.vl - lo) lo c).zeroFrom v d v.vl (size - v.vl) := by
      rw [writeFrom_add, Nat.add_sub_cancel' hlo, zeroFrom_eq,
        writeFrom_congr v d c (g' := g) fun j _ hi => if_pos (show j < v.vl by omega)]
      exact writeFrom_congr v d _ fun j lo' _ => if_neg (by omega)
    rw [whole, show lo + (v.vl - lo + (size - v.vl)) = size by omega] at all
    rw [if_pos tp]
    refine ⟨all.core, all.clean, fun j lo' hi => ?_, fun j out => all.kept j ?_, fun _ _ j lo' hi => ?_, all.beside⟩
    · rw [all.new j lo' (by omega), if_pos hi]
    · rcases out with before | ⟨after, inside, kept⟩
      · exact .inl before
      · exact absurd ⟨after, rfl, tp⟩ kept
    · rw [all.new j (by omega) hi, if_neg (by omega)]
      simp
  · rw [if_neg tp]
    exact ⟨before.core, before.clean, before.new, fun j out => before.kept j (by omega), fun _ on => absurd on tp, before.beside⟩

end group

/-- Of a sorted list of the numbers below n that meet a condition, those up to the one at place k − 1 are k. -/
theorem length_filter_range_of_drop {on : Nat → Bool} {n k i : Nat} {rest : List Nat} (hk : 0 < k)
    (at_ : ((List.range n).filter on).drop (k - 1) = i :: rest) : ((List.range (i + 1)).filter on).length = k := by
  have whole := List.take_append_drop (k - 1) ((List.range n).filter on)
  rw [at_] at whole
  have sorted : ((List.range n).filter on).Pairwise (· < ·) := List.pairwise_lt_range.filter _
  rw [← whole] at sorted
  obtain ⟨-, after, before⟩ := List.pairwise_append.mp sorted
  have more : k - 1 < ((List.range n).filter on).length := by
    by_contra short
    rw [List.drop_of_length_le (by omega)] at at_
    cases at_
  have member : i ∈ (List.range n).filter on := List.mem_of_mem_drop (at_ ▸ List.mem_cons_self)
  have bound : i < n := List.mem_range.mp (List.mem_filter.mp member).1
  have count : ((List.range n).filter on).countP (fun x => decide (x ≤ i)) = k := by
    have low : ∀ x ∈ ((List.range n).filter on).take (k - 1), decide (x ≤ i) = true := fun x hx =>
      decide_eq_true (before x hx i List.mem_cons_self).le
    have high : ∀ x ∈ rest, ¬ decide (x ≤ i) = true := fun x hx => by
      have := (List.pairwise_cons.mp after).1 x hx
      simp [this]
    rw [← whole, List.countP_append, List.countP_eq_length.mpr low, List.countP_cons, List.countP_eq_zero.mpr high, List.length_take]
    simp
    omega
  have split : List.range n = List.range (i + 1) ++ (List.range (n - (i + 1))).map (i + 1 + ·) := by
    rw [← List.range_add]
    congr 1
    omega
  rw [split, List.filter_append, List.countP_append] at count
  have low : ∀ x ∈ (List.range (i + 1)).filter on, decide (x ≤ i) = true := fun x hx => by
    have := List.mem_range.mp (List.mem_filter.mp hx).1
    exact decide_eq_true (by omega)
  have high : ∀ x ∈ ((List.range (n - (i + 1))).map (i + 1 + ·)).filter on, ¬ decide (x ≤ i) = true := fun x hx => by
    obtain ⟨y, -, rfl⟩ := List.mem_map.mp (List.mem_filter.mp hx).1
    simp only [decide_eq_true_eq]
    omega
  rwa [List.countP_eq_length.mpr low, List.countP_eq_zero.mpr high, Nat.add_zero] at count

/-- The elements that a group takes up, among those from P on (05_vector R128). -/
theorem groupEnd_spec {c : Core} (clean : CleanCore c) {v : VView} (m : Nat) (always : Bool) {k : Nat} (hk : 0 < k) (hp : v.p < v.vl) :
    v.p < c.groupEnd v m always k ∧ c.groupEnd v m always k ≤ v.vl ∧ (c.groupEnd v m always k < v.vl →
      ((List.range (c.groupEnd v m always k)).filter fun i => decide (v.p ≤ i) && (c.active v m i || always)).length = k) := by
  have all : c.collected v m always = (List.range v.vl).filter fun i => decide (v.p ≤ i) && (c.active v m i || always) := by
    simp [Core.collected, maskBit_poison clean, Bool.or_comm]
  have sorted : (c.collected v m always).Pairwise (· < ·) := all ▸ List.pairwise_lt_range.filter _
  unfold Core.groupEnd
  split
  · next i j rest at_ =>
    have member {x : Nat} (hx : x ∈ i :: j :: rest) : v.p ≤ x ∧ x < v.vl := by
      have inside : x ∈ c.collected v m always := List.mem_of_mem_drop (at_ ▸ hx)
      rw [all, List.mem_filter, List.mem_range, Bool.and_eq_true, decide_eq_true_eq] at inside
      exact ⟨inside.2.1, inside.1⟩
    have order : i < j := by
      have dropped := sorted.drop (i := k - 1)
      rw [at_] at dropped
      exact (List.pairwise_cons.mp dropped).1 j List.mem_cons_self
    have first := member List.mem_cons_self
    have second := member (List.mem_cons_of_mem _ List.mem_cons_self)
    rw [all] at at_
    exact ⟨by omega, by omega, fun _ => length_filter_range_of_drop hk at_⟩
  · exact ⟨hp, le_rfl, fun h => absurd h (lt_irrefl _)⟩

end Sys2Proof.Proofs

/-! From the elements that an issue writes to what it leaves of the device (05_vector R126, R128, R130). -/

namespace Sys2Proof.Proofs

open Sys2Proof.Machine Sys2Proof.Laws

/-- One step of an instruction has done the elements from P to n of a destination. -/
structure StepDone (v : VView) (d : VDst) (size w : Nat) (place : Nat → Nat × Nat) (n : Nat) (g : Nat → Option Nat) (fl : FFlags) (c : Core)
    (y : VStep) : Prop where
  group : GroupWrote v d size w place v.p n g c y.core
  range : v.p < n ∧ n ≤ v.vl
  more : y.more = if n = v.vl then none else some n
  scalar : y.scalar = none
  flags : y.flags = fl

section step

variable {v : VView} {d : VDst} {size w : Nat} {place : Nat → Nat × Nat} {c : Core}

/-- A step of an element-wise instruction (05_vector R126, R128). -/
theorem step_elems (fits : DstFits v d size w place) (clean : CleanCore c) (hp : v.p < v.vl) (hvl : v.vl ≤ size) {width m : Nat} {always : Bool}
    {f : Core → Nat → ElemRes} (pure : ∀ i, (f c i).elem.poison = none) (hw : 0 < 2048 / width) :
    ∃ n, StepDone v d size w place n (elemValue? c v m always f) (flagsWhere (fun j => c.active v m j || always) v.p n fun j => (f c j).flags) c
        ((VAct.elems width d size m always f).step v c) ∧
      (n < v.vl → ((List.range n).filter fun i => decide (v.p ≤ i) && (c.active v m i || always)).length = 2048 / width) := by
  obtain ⟨first, last, count⟩ := groupEnd_spec clean (v := v) m always hw hp
  refine ⟨c.groupEnd v m always (2048 / width), ?_, count⟩
  have run := runElems_from clean (v := v) (d := d) (m := m) (always := always) pure (c.groupEnd v m always (2048 / width) - v.p) v.p
  rw [Nat.add_sub_cancel' first.le] at run
  unfold VAct.step
  simp only [if_neg (Nat.not_le.mpr hp), run]
  generalize c.groupEnd v m always (2048 / width) = n at *
  by_cases part : n < v.vl
  · rw [if_pos part]
    exact ⟨groupWrote_part fits clean first.le part hvl, ⟨first, last⟩, (if_neg part.ne).symm, rfl, rfl⟩
  · obtain rfl : n = v.vl := by omega
    rw [if_neg part]
    exact ⟨groupWrote_last fits clean hp.le hvl, ⟨first, last⟩, (if_pos rfl).symm, rfl, rfl⟩

/-- An instruction that goes over a mask register or a group in one piece, from P on (05_vector R130). -/
theorem step_whole (fits : DstFits v d size w place) (clean : CleanCore c) (hp : v.p < v.vl) (hvl : v.vl ≤ size) {g : Nat → Option Nat}
    {f : Core → Core × FFlags × Option (Word × Option PTag)} {fl : FFlags}
    (run : f c = ((writeFrom v d g (v.vl - v.p) v.p c).tail v d size, fl, none)) :
    StepDone v d size w place v.vl g fl c ((VAct.whole f).step v c) where
  group := by
    simp only [VAct.step, run]
    exact groupWrote_last fits clean hp.le hvl
  range := ⟨hp, le_rfl⟩
  more := by simp [VAct.step]
  scalar := by simp [VAct.step, run]
  flags := by simp [VAct.step, run]

end step

section beat

variable {s : State} {k q : Nat} {e : VEntry} {r : Row}

/-- A register that a destination does not take up. -/
def OutsideDst (c : BitVec 14) (d : VDst) (reg : Nat) : Prop :=
  match d with
  | .reg r w => reg < r ∨ r + max 1 (2 ^ vGroup c * w / vWidth c) ≤ reg
  | .mask m => reg ≠ 32 + m

/-- The chunks of a destination's elements are of the registers that it takes up. -/
def PlacedIn (c : BitVec 14) (d : VDst) (size : Nat) (place : Nat → Nat × Nat) : Prop :=
  ∀ i < size, ∀ lane reg j, reg < 40 → j < 32 → OutsideDst c d reg → (place i).1 ≠ vecKey lane reg j

/-- Where an issue writes no scalar register, its slot keeps all but the queue, the flags, VDIRTY and the charge. -/
theorem issuedSlot_plain {x : Slot} {y : VStep} (none_ : queueDest e.word = none) (vdirty : BitVec 6) (charge : Nat) :
    issuedSlot x e y vdirty charge = { x with
      vq := match y.more with | some p => [{ e with p := p, probed := none }] | none => []
      fflags := x.fflags ||| y.flags, vdirty := vdirty, charge := charge } := by
  simp [issuedSlot, VEntry.lands, none_] <;> rfl

/-- One issue of a ready entry whose step is known (05_vector R126, R128, R130). -/
theorem beatDone_of_step (h : BeatReady s k q e r) (row : UnitRow r none) {a : VAct} {factor whole : Nat}
    (act : entryAct (s.core k) (VView.of (s.slot q) e) e r = some (a, factor, whole))
    {d : VDst} {size w n : Nat} {place : Nat → Nat × Nat} {g val : Nat → Option Nat} {fl : FFlags}
    (placed : PlacedIn e.vcfg d size place)
    (done : StepDone (VView.of (s.slot q) e) d size w place n g fl (s.core k) (a.step (VView.of (s.slot q) e) (s.core k)))
    (values : ∀ i, e.p ≤ i → i < n → (g i).map (· % 2 ^ w) = val i) :
    ∃ t, exec (.vectorIssue k ⟨0, []⟩) s = .next t ∧ BeatDone s t k q e d size n val fl := by
  obtain ⟨t, run, issued⟩ := vectorIssue_ready h row act done.group.core
  obtain ⟨vdirty, charge, slot⟩ := issued.slot
  obtain ⟨encoded, -⟩ := h.word
  have word : queueDest e.word = none := by rw [encoded, row.dest]
  rw [issuedSlot_plain word, done.more, done.flags] at slot
  have group := done.group
  rw [← issued.core] at group
  have queue : (t.slot q).vq = if n = e.vl then [] else [{ e with p := n, probed := none }] := by
    rw [slot]
    by_cases last : n = e.vl
    · simp [last, VView.of]
    · simp [last, VView.of]
  refine ⟨t, run, ⟨issued.device, issued.slots, issued.cores, group.core, done.range, fun i lo hi => ?_, group.kept, group.tail,
    fun lane reg j _ hreg hj out => group.beside _ fun i hi => placed i hi lane reg j hreg hj out, group.clean⟩, queue, ?_⟩
  · rw [group.new i lo hi, ← values i lo hi]
    cases g i <;> rfl
  · rw [queue, slot]
    by_cases last : n = e.vl
    · simp [last, VView.of]
    · simp [last, VView.of]

/-- What an element-wise instruction leaves of its destination: f gives the bits and the flags of an element (05_vector R126, R128). -/
theorem elems_beat (h : BeatReady s k q e r) (row : UnitRow r none) {width size m : Nat} {d : VDst} {F : Core → Nat → ElemRes} {factor whole : Nat}
    (act : entryAct (s.core k) (VView.of (s.slot q) e) e r = some (.elems width d size m false F, factor, whole))
    {w : Nat} {place : Nat → Nat × Nat} (fits : DstFits (VView.of (s.slot q) e) d size w place) (placed : PlacedIn e.vcfg d size place)
    (hvl : e.vl ≤ size) (hw : 0 < 2048 / width) {f : Nat → Nat × FFlags}
    (value : ∀ i, (F (s.core k) i).elem.poison = none ∧ (F (s.core k) i).elem.bits % 2 ^ w = (f i).1 ∧ (F (s.core k) i).flags = (f i).2) :
    ∃ t n, exec (.vectorIssue k ⟨0, []⟩) s = .next t ∧
      BeatDone s t k q e d size n (maskedValue (s.core k) (VView.of (s.slot q) e) m fun i => (f i).1)
        (flagsOf (s.core k) (VView.of (s.slot q) e) m e.p n fun i => (f i).2) ∧
      (n < e.vl → ((List.range n).filter fun i => decide (e.p ≤ i) && (s.core k).active (VView.of (s.slot q) e) m i).length = 2048 / width) := by
  obtain ⟨-, -, below, -⟩ := h.captured
  obtain ⟨n, done, count⟩ := step_elems fits h.clean below hvl (m := m) (always := false) (fun i => (value i).1) hw
  have flags : flagsWhere (fun j => (s.core k).active (VView.of (s.slot q) e) m j || false) e.p n (fun j => (F (s.core k) j).flags) =
      flagsOf (s.core k) (VView.of (s.slot q) e) m e.p n fun i => (f i).2 := by
    simp only [Bool.or_false, (value _).2.2]
    rfl
  have values (i : Nat) : (elemValue? (s.core k) (VView.of (s.slot q) e) m false F i).map (· % 2 ^ w) =
      maskedValue (s.core k) (VView.of (s.slot q) e) m (fun i => (f i).1) i := by
    unfold elemValue? maskedValue VView.mp
    rw [Bool.or_false]
    by_cases on : (s.core k).active (VView.of (s.slot q) e) m i = true
    · rw [if_pos on, if_pos on]
      exact congrArg some (value i).2.1
    · rw [if_neg on, if_neg on]
      by_cases mp : (VView.of (s.slot q) e).vcfg.getLsbD 6 = true
      · rw [if_pos mp]
        exact congrArg some (Nat.zero_mod _)
      · rw [if_neg mp]
        rfl
  obtain ⟨t, run, beat⟩ := beatDone_of_step h row act placed done fun i _ _ => values i
  refine ⟨t, n, run, flags ▸ beat, fun part => ?_⟩
  simp only [Bool.or_false] at count
  exact count part

/-- VLEN and the element width of a ready entry (05_vector R117, R119). -/
theorem ready_vlen (h : BeatReady s k q e r) : VlenOk (VView.of (s.slot q) e) := by
  have := h.vlen
  simpa [VlenOk, VView.of] using this

theorem width_code {c : BitVec 14} (h : wbits (c.setWidth 64) 2 0 ≤ 5) : ∃ n ≤ 5, vWidth c = 2 ^ (n + 1) := by
  refine ⟨c.toNat % 8, ?_, rfl⟩
  have := c.isLt
  simp only [wbits, BitVec.toNat_setWidth] at h
  omega

theorem widthOk_pow {n : Nat} (h : n ≤ 6) : WidthOk (2 ^ n) := ⟨Nat.pow_dvd_pow 2 h, Nat.two_pow_pos n⟩

theorem ready_width (h : BeatReady s k q e r) : WidthOk (vWidth e.vcfg) ∧ 2 ≤ vWidth e.vcfg ∧ vWidth e.vcfg ≤ 64 := by
  obtain ⟨n, hn, w⟩ := width_code h.width
  rw [w]
  exact ⟨widthOk_pow (by omega), Nat.pow_le_pow_right two_pos (show 1 ≤ n + 1 by omega), Nat.pow_le_pow_right two_pos (show n + 1 ≤ 6 by omega)⟩

/-- The chunks of a plain group's elements are of its registers (05_vector R124, R125). -/
theorem placedIn_reg (v : VView) {c : BitVec 14} {rd n w : Nat} (wpos : 0 < w) (low : rd + n ≤ 40) (group : n = max 1 (2 ^ vGroup c * w / vWidth c)) :
    PlacedIn c (.reg rd w) (v.size n w) (v.place rd w) := by
  intro i hi lane reg j hreg hj out
  exact place_beside wpos low hi hreg hj (group ▸ out)

/-- So are those of a mask register. -/
theorem placedIn_mask (v : VView) (c : BitVec 14) {m size : Nat} (hm : m < 8) : PlacedIn c (.mask m) size (v.maskPlace m) :=
  fun _ _ _ _ _ hreg hj out => maskPlace_beside hm hreg hj out

/-- A group at the plain width has its registers. -/
theorem plain_group {c : BitVec 14} (wpos : 0 < vWidth c) : 2 ^ vGroup c = max 1 (2 ^ vGroup c * vWidth c / vWidth c) := by
  rw [Nat.mul_div_cancel _ wpos, max_eq_right (Nat.one_le_two_pow)]

end beat

end Sys2Proof.Proofs

/-! Element-wise arithmetic instructions (05_vector R133 to R136): the shapes of their destinations. -/

namespace Sys2Proof.Proofs

open Sys2Proof.Machine Sys2Proof.Laws

section shapes

variable {s : State} {k q : Nat} {e : VEntry}

/-- The row of a ready arithmetic entry without a scalar register. -/
theorem ready_row {a : VArith} (h : BeatReady s k q e (.arith a)) (dest : scalarDest a = none) : UnitRow (.arith a) none := by
  obtain ⟨-, wf, -⟩ := h.word
  exact dest ▸ unitRow_arith wf

/-- What a ready arithmetic entry does: its scalar operands are not poisoned. -/
theorem ready_act {a : VArith} (h : BeatReady s k q e (.arith a)) {x : VAct}
    (act : arithAct (VView.of (s.slot q) e) e.op0 none e.op1 none a = x) :
    entryAct (s.core k) (VView.of (s.slot q) e) e (.arith a) = some (x, classFactor a, wholeBeats (s.core k) (VView.of (s.slot q) e) a) := by
  obtain ⟨first, second, -⟩ := h.captured
  rw [← act, entryAct, first, second]

/-- An element-wise instruction into a group at the plain width: F is what the model computes of an element. -/
theorem elementWise_plain {a : VArith} {rd m : Nat} {rs : List Nat} {ok : BitVec 14 → Prop} {f : Core → VView → VEntry → Nat → Nat × FFlags}
    {F : VView → VEntry → Core → Nat → ElemRes} (dest : scalarDest a = none)
    (act : ∀ (v : VView) (e : VEntry), arithAct v e.op0 none e.op1 none a = v.plain rd m (F v e))
    (value : ∀ (x : Slot) (e : VEntry) (c : Core), CleanCore c → WidthOk (vWidth e.vcfg) → 2 ≤ vWidth e.vcfg → ok e.vcfg → ∀ i,
      (F (VView.of x e) e c i).elem.poison = none ∧ (F (VView.of x e) e c i).elem.bits % 2 ^ vWidth e.vcfg = (f c (VView.of x e) e i).1 ∧
      (F (VView.of x e) e c i).flags = (f c (VView.of x e) e i).2) : ElementWise (.arith a) rd rs m ok f := by
  intro s k q e h okc placed
  obtain ⟨width, two, top⟩ := ready_width h
  obtain ⟨-, low⟩ := placed rd List.mem_cons_self
  obtain ⟨-, -, -, vl⟩ := h.captured
  exact elems_beat h (ready_row h dest) (ready_act h (act _ e)) (regFits (ready_vlen h) width (show rd + 2 ^ vGroup e.vcfg ≤ 40 by omega) le_rfl)
    (placedIn_reg _ width.2 (show rd + 2 ^ vGroup e.vcfg ≤ 40 by omega) (plain_group width.2)) vl
    (Nat.div_pos (by show vWidth e.vcfg ≤ 2048; omega) width.2) (value _ e _ h.clean width two okc)

end shapes

end Sys2Proof.Proofs

/-! The integer operations of the vector unit (05_vector R133) on words of every width. -/

namespace Sys2Proof.Proofs

open Sys2Proof.Machine Sys2Proof.Laws

/-- The low bits of an integer are those of its word. -/
theorem toNat_ofInt_eq_intBits (w : Nat) (z : Int) : (BitVec.ofInt w z).toNat = intBits w z := by
  rw [BitVec.toNat_ofInt, intBits]
  push_cast
  rfl

theorem intBits_mod (w : Nat) (z : Int) : intBits w z % 2 ^ w = intBits w z := by
  rw [← toNat_ofInt_eq_intBits, Nat.mod_eq_of_lt (BitVec.isLt _)]

/-- A number of a word's width read as a signed number. -/
theorem signedOf_toNat {w : Nat} (x : BitVec w) : signedOf w x.toNat = x.toInt := by
  rw [signedOf_eq_toInt, BitVec.ofNat_toNat, BitVec.setWidth_eq]

/-- The model's operation on numbers below 2^w is an operation on words of w bits. -/
def IntOp (op : Nat → Nat → Nat → Nat) (f : (w : Nat) → BitVec w → BitVec w → BitVec w) : Prop :=
  ∀ w, 2 ≤ w → ∀ x y : BitVec w, op w x.toNat y.toNat % 2 ^ w = (f w x y).toNat

theorem intOp_add : IntOp iAdd fun _ x y => x + y := fun _ _ x y => (BitVec.toNat_add x y).symm

theorem intOp_sub : IntOp iSub fun _ x y => x - y := by
  intro w _ x y
  dsimp only
  rw [BitVec.toNat_sub, iSub]
  congr 1
  have := y.isLt
  omega

theorem intOp_mul : IntOp iMul fun _ x y => x * y := fun _ _ x y => (BitVec.toNat_mul x y).symm

/-- The quotient by 2^w of an integer, cut to w bits, stands above the low w bits of its low 2w bits. -/
theorem high_half (w : Nat) (z : Int) : intBits w (z / 2 ^ w) = intBits (2 * w) z / 2 ^ w := by
  have pos : (0 : Int) < 2 ^ w := by positivity
  have square : (2 : Int) ^ (2 * w) = 2 ^ w * 2 ^ w := by rw [two_mul, pow_add]
  have low := Int.emod_nonneg z pos.ne'
  have low' := Int.emod_lt_of_pos z pos
  have high := Int.emod_nonneg (z / 2 ^ w) pos.ne'
  have high' := Int.emod_lt_of_pos (z / 2 ^ w) pos
  -- the low half of z, and the low half of what is above it
  have halves : z % (2 ^ w * 2 ^ w) = z % 2 ^ w + 2 ^ w * (z / 2 ^ w % 2 ^ w) := by
    refine ((Int.ediv_emod_unique (q := z / 2 ^ w / 2 ^ w) (by positivity)).mpr ⟨?_, by positivity, by nlinarith⟩).2
    have outer := Int.emod_add_mul_ediv z (2 ^ w)
    have inner := Int.emod_add_mul_ediv (z / 2 ^ w) (2 ^ w)
    linear_combination outer + 2 ^ w * inner
  have upper : intBits (2 * w) z / 2 ^ w = ((z % 2 ^ w + 2 ^ w * (z / 2 ^ w % 2 ^ w)) / 2 ^ w).toNat := by
    obtain ⟨n, hn⟩ := Int.eq_ofNat_of_zero_le (show 0 ≤ z % 2 ^ w + 2 ^ w * (z / 2 ^ w % 2 ^ w) by positivity)
    rw [intBits, square, halves, hn]
    norm_cast
  rw [upper, Int.add_mul_ediv_left _ _ pos.ne', Int.ediv_eq_zero_of_lt low low', zero_add, intBits]

theorem intOp_mulh : IntOp iMulh fun w x y => (x.signExtend (2 * w) * y.signExtend (2 * w)).extractLsb' w w := by
  intro w _ x y
  dsimp only
  have product : x.signExtend (2 * w) * y.signExtend (2 * w) = BitVec.ofInt (2 * w) (x.toInt * y.toInt) := by
    rw [BitVec.ofInt_mul]
    rfl
  have small : intBits (2 * w) (x.toInt * y.toInt) / 2 ^ w < 2 ^ w := by
    rw [← high_half, ← intBits_mod]
    exact Nat.mod_lt _ (Nat.two_pow_pos w)
  rw [iMulh, signedOf_toNat, signedOf_toNat, intBits_mod, product, BitVec.extractLsb'_toNat, toNat_ofInt_eq_intBits, Nat.shiftRight_eq_div_pow,
    Nat.mod_eq_of_lt small, high_half]

theorem intOp_mulhz : IntOp iMulhz fun w x y => (x.zeroExtend (2 * w) * y.zeroExtend (2 * w)).extractLsb' w w := by
  intro w _ x y
  dsimp only
  have product : (x.zeroExtend (2 * w) * y.zeroExtend (2 * w)).toNat = x.toNat * y.toNat := by
    have bound : x.toNat * y.toNat < 2 ^ (2 * w) := by
      rw [two_mul, pow_add]
      exact Nat.mul_lt_mul'' x.isLt y.isLt
    rw [BitVec.toNat_mul, BitVec.toNat_setWidth_of_le (by omega), BitVec.toNat_setWidth_of_le (by omega),
      Nat.mod_eq_of_lt bound]
  rw [iMulhz, BitVec.extractLsb'_toNat, product, Nat.shiftRight_eq_div_pow]

theorem intOp_div : IntOp iDiv fun w x y => if y = 0 then BitVec.allOnes w else x.sdiv y := by
  intro w _ x y
  dsimp only
  unfold iDiv
  by_cases zero : y = 0
  · rw [if_pos zero, if_pos (by simp [zero]), BitVec.toNat_allOnes, Nat.mod_eq_of_lt (Nat.sub_lt (Nat.two_pow_pos w) one_pos)]
  · have nonzero : y.toNat ≠ 0 := fun h => zero (BitVec.eq_of_toNat_eq h)
    have quotient : BitVec.ofInt w (x.toInt.tdiv y.toInt) = x.sdiv y := by
      apply BitVec.eq_of_toInt_eq
      rw [BitVec.toInt_sdiv, BitVec.toInt_ofInt]
    rw [if_neg zero, if_neg nonzero, signedOf_toNat, signedOf_toNat, intBits_mod, ← toNat_ofInt_eq_intBits, quotient]

/-- Of two equal words either may be taken. -/
theorem toNat_of_le_signed {w : Nat} {x y : BitVec w} (h : ¬ x.toInt < y.toInt) (h' : ¬ y.toInt < x.toInt) : x.toNat = y.toNat :=
  congrArg BitVec.toNat (BitVec.eq_of_toInt_eq (by omega))

theorem intOp_min : IntOp iMin fun _ x y => if x.slt y then x else y := by
  intro w _ x y
  dsimp only
  rw [iMin, signedOf_toNat, signedOf_toNat]
  by_cases lt : x.toInt < y.toInt
  · rw [if_neg (by omega), if_pos (BitVec.slt_iff_toInt_lt.mpr lt), Nat.mod_eq_of_lt x.isLt]
  · rw [if_neg (mt BitVec.slt_iff_toInt_lt.mp lt)]
    by_cases gt : y.toInt < x.toInt
    · rw [if_pos gt, Nat.mod_eq_of_lt y.isLt]
    · rw [if_neg gt, toNat_of_le_signed lt gt, Nat.mod_eq_of_lt y.isLt]

theorem intOp_max : IntOp iMax fun _ x y => if x.slt y then y else x := by
  intro w _ x y
  dsimp only
  rw [iMax, signedOf_toNat, signedOf_toNat]
  by_cases lt : x.toInt < y.toInt
  · rw [if_pos lt, if_pos (BitVec.slt_iff_toInt_lt.mpr lt), Nat.mod_eq_of_lt y.isLt]
  · rw [if_neg lt, if_neg (mt BitVec.slt_iff_toInt_lt.mp lt), Nat.mod_eq_of_lt x.isLt]

theorem intOp_minz : IntOp iMinz fun _ x y => if x.ult y then x else y := by
  intro w _ x y
  dsimp only
  rw [iMinz]
  by_cases lt : x.toNat < y.toNat
  · rw [Nat.min_eq_left lt.le, if_pos (by simpa [BitVec.ult] using lt), Nat.mod_eq_of_lt x.isLt]
  · rw [Nat.min_eq_right (by omega), if_neg (by simpa [BitVec.ult] using lt), Nat.mod_eq_of_lt y.isLt]

theorem intOp_maxz : IntOp iMaxz fun _ x y => if x.ult y then y else x := by
  intro w _ x y
  dsimp only
  rw [iMaxz]
  by_cases lt : x.toNat < y.toNat
  · rw [Nat.max_eq_right lt.le, if_pos (by simpa [BitVec.ult] using lt), Nat.mod_eq_of_lt y.isLt]
  · rw [Nat.max_eq_left (by omega), if_neg (by simpa [BitVec.ult] using lt), Nat.mod_eq_of_lt x.isLt]

theorem intOp_and : IntOp iAnd fun _ x y => x &&& y := by
  intro w _ x y
  dsimp only
  rw [iAnd, ← BitVec.toNat_and, Nat.mod_eq_of_lt (BitVec.isLt _)]

theorem intOp_or : IntOp iOr fun _ x y => x ||| y := by
  intro w _ x y
  dsimp only
  rw [iOr, ← BitVec.toNat_or, Nat.mod_eq_of_lt (BitVec.isLt _)]

theorem intOp_xor : IntOp iXor fun _ x y => x ^^^ y := by
  intro w _ x y
  dsimp only
  rw [iXor, ← BitVec.toNat_xor, Nat.mod_eq_of_lt (BitVec.isLt _)]

theorem intOp_shl : IntOp iShl fun w x y => x <<< (y.toNat % w) := by
  intro w _ x y
  dsimp only
  rw [iShl, BitVec.toNat_shiftLeft, Nat.shiftLeft_eq]

theorem intOp_shr : IntOp iShr fun w x y => x >>> (y.toNat % w) := by
  intro w _ x y
  dsimp only
  rw [iShr, ← Nat.shiftRight_eq_div_pow, ← BitVec.toNat_ushiftRight, Nat.mod_eq_of_lt (BitVec.isLt _)]

/-- A signed quotient by a power of two is an arithmetic shift. -/
theorem intBits_shift {w : Nat} (x : BitVec w) (n : Nat) : intBits w (x.toInt / 2 ^ n) = (x.sshiftRight n).toNat := by
  have shifted : BitVec.ofInt w (x.toInt / 2 ^ n) = x.sshiftRight n := by
    rw [← BitVec.ofInt_toInt (x := x.sshiftRight n), BitVec.toInt_sshiftRight, Int.shiftRight_eq_div_pow]
    push_cast
    rfl
  rw [← toNat_ofInt_eq_intBits, shifted]

theorem intOp_sar : IntOp iSar fun w x y => x.sshiftRight (y.toNat % w) := by
  intro w _ x y
  dsimp only
  rw [iSar, signedOf_toNat, intBits_mod, intBits_shift]

/-- The bounds of a signed type (02_numbers R36). -/
theorem intBits_clamp (w : Nat) (z : Int) :
    intBits w (clampInt true w z) = (BitVec.ofInt w (max (-2 ^ (w - 1)) (min (2 ^ (w - 1) - 1) z))).toNat := by
  rw [toNat_ofInt_eq_intBits]
  rfl

theorem intOp_adds : IntOp iAdds fun w x y => BitVec.ofInt w (max (-2 ^ (w - 1)) (min (2 ^ (w - 1) - 1) (x.toInt + y.toInt))) := by
  intro w _ x y
  dsimp only
  rw [iAdds, signedOf_toNat, signedOf_toNat, intBits_mod, intBits_clamp]

theorem intOp_subs : IntOp iSubs fun w x y => BitVec.ofInt w (max (-2 ^ (w - 1)) (min (2 ^ (w - 1) - 1) (x.toInt - y.toInt))) := by
  intro w _ x y
  dsimp only
  rw [iSubs, signedOf_toNat, signedOf_toNat, intBits_mod, intBits_clamp]

end Sys2Proof.Proofs

/-! Integer instructions of the vector unit (05_vector R133, R134). -/

namespace Sys2Proof.Proofs

open Sys2Proof.Machine Sys2Proof.Laws

/-- An element has the bits of its width. -/
theorem elem_lt (c : Core) (v : VView) (r w i : Nat) : (c.elem v r w i).bits < 2 ^ w := Nat.mod_lt _ (Nat.two_pow_pos w)

/-- An element as a word of its width, and back. -/
theorem toNat_elem (c : Core) (v : VView) (r w i : Nat) : (BitVec.ofNat w (c.elem v r w i).bits).toNat = (c.elem v r w i).bits := by
  rw [BitVec.toNat_ofNat, Nat.mod_eq_of_lt (elem_lt c v r w i)]

/-- Two unpoisoned operands give an unpoisoned result. -/
theorem lowerTag_clean {a b : Option PTag} (ha : a = none) (hb : b = none) : lowerTag a b = none := lowerTag_eq_none.mpr ⟨ha, hb⟩

/-- An integer operation on two groups. -/
theorem elementWise_int2 {i : VArith} {d a b m : Nat} {op : Nat → Nat → Nat → Nat} {f : (w : Nat) → BitVec w → BitVec w → BitVec w}
    (dest : scalarDest i = none) (opOk : IntOp op f)
    (act : ∀ (v : VView) (e : VEntry), arithAct v e.op0 none e.op1 none i = int2 v d a m (.reg b) op) :
    ElementWise (.arith i) d [a, b] m (fun _ => True) fun c v e n =>
      let w := vWidth e.vcfg
      ((f w (BitVec.ofNat w (c.elem v a w n).bits) (BitVec.ofNat w (c.elem v b w n).bits)).toNat, 0) := by
  refine elementWise_plain dest act fun x e c clean _ two _ n => ⟨?_, ?_, rfl⟩
  · exact lowerTag_clean (elem_poison clean _ _ _ _) (elem_poison clean _ _ _ _)
  · have value := opOk (vWidth e.vcfg) two (BitVec.ofNat _ (c.elem (VView.of x e) a (vWidth e.vcfg) n).bits)
      (BitVec.ofNat _ (c.elem (VView.of x e) b (vWidth e.vcfg) n).bits)
    rw [toNat_elem, toNat_elem] at value
    exact (Nat.mod_mod _ _).trans value

/-- An integer operation on a group and a scalar. -/
theorem elementWise_int2s {i : VArith} {d a m : Nat} {op : Nat → Nat → Nat → Nat} {f : (w : Nat) → BitVec w → BitVec w → BitVec w}
    (dest : scalarDest i = none) (opOk : IntOp op f)
    (act : ∀ (v : VView) (e : VEntry), arithAct v e.op0 none e.op1 none i = int2 v d a m (.scalar e.op0 none) op) :
    ElementWise (.arith i) d [a] m (fun _ => True) fun c v e n =>
      let w := vWidth e.vcfg
      ((f w (BitVec.ofNat w (c.elem v a w n).bits) (e.op0.setWidth w)).toNat, 0) := by
  refine elementWise_plain dest act fun x e c clean _ two _ n => ⟨?_, ?_, rfl⟩
  · exact lowerTag_clean (elem_poison clean _ _ _ _) rfl
  · have value := opOk (vWidth e.vcfg) two (BitVec.ofNat _ (c.elem (VView.of x e) a (vWidth e.vcfg) n).bits) (e.op0.setWidth _)
    rw [toNat_elem, BitVec.toNat_setWidth] at value
    exact (Nat.mod_mod _ _).trans value

/-- Both forms of an integer instruction. -/
theorem vectorInteger_of {i : BitVec 5 → BitVec 5 → BitVec 5 → BitVec 3 → VArith} {j : BitVec 5 → BitVec 5 → BitVec 6 → BitVec 3 → VArith}
    {op : Nat → Nat → Nat → Nat} {f : (w : Nat) → BitVec w → BitVec w → BitVec w} (opOk : IntOp op f)
    (dest : ∀ d a b m, scalarDest (i d a b m) = none := by exact fun _ _ _ _ => rfl)
    (dest' : ∀ d a b m, scalarDest (j d a b m) = none := by exact fun _ _ _ _ => rfl)
    (act : ∀ d a b m (v : VView) (e : VEntry), arithAct v e.op0 none e.op1 none (i d a b m) =
      int2 v d.toNat a.toNat m.toNat (.reg b.toNat) op := by exact fun _ _ _ _ _ _ => rfl)
    (act' : ∀ d a b m (v : VView) (e : VEntry), arithAct v e.op0 none e.op1 none (j d a b m) =
      int2 v d.toNat a.toNat m.toNat (.scalar e.op0 none) op := by exact fun _ _ _ _ _ _ => rfl) : VectorInteger i j f :=
  ⟨fun d a b m => elementWise_int2 (dest d a b m) opOk (act d a b m), fun d a b m => elementWise_int2s (dest' d a b m) opOk (act' d a b m)⟩

/-- VABS takes the magnitude, which of the least number is that number again. -/
theorem natAbs_toInt_mod {w : Nat} (x : BitVec w) : x.toInt.natAbs % 2 ^ w = (if x.toInt < 0 then -x else x).toNat := by
  by_cases neg : x.toInt < 0
  · have magnitude : (x.toInt.natAbs : Int) = -x.toInt := by omega
    have word : BitVec.ofInt w (-x.toInt) = -x := by rw [BitVec.ofInt_neg, BitVec.ofInt_toInt]
    rw [if_pos neg, ← word, toNat_ofInt_eq_intBits, intBits, ← magnitude]
    norm_cast
  · have same : x.toInt = x.toNat := by
      rw [BitVec.toInt_eq_toNat_cond] at neg ⊢
      have := x.isLt
      split at neg <;> omega
    rw [if_neg neg, same, Int.natAbs_natCast, Nat.mod_eq_of_lt x.isLt]

/-- VABS. -/
theorem elementWise_vabs (d a : BitVec 5) (m : BitVec 3) :
    ElementWise (.arith (.vabs d a m)) d.toNat [a.toNat] m.toNat (fun _ => True) fun c v e n =>
      let x := BitVec.ofNat (vWidth e.vcfg) (c.elem v a.toNat (vWidth e.vcfg) n).bits
      ((if x.toInt < 0 then -x else x).toNat, 0) := by
  refine elementWise_plain rfl (fun _ _ => rfl) fun x e c clean _ _ _ n => ⟨elem_poison clean _ _ _ _, ?_, rfl⟩
  refine (Nat.mod_mod _ _).trans ?_
  dsimp only
  rw [← natAbs_toInt_mod, ← signedOf_eq_toInt]
  rfl

/-- A signed field of a word. -/
theorem signedOf_field (w n x k : Nat) : signedOf n (x % 2 ^ w / 2 ^ k) = ((BitVec.ofNat w x).extractLsb' k n).toInt := by
  have field : BitVec.ofNat n (x % 2 ^ w / 2 ^ k) = (BitVec.ofNat w x).extractLsb' k n := by
    apply BitVec.eq_of_toNat_eq
    rw [BitVec.toNat_ofNat, BitVec.extractLsb'_toNat, BitVec.toNat_ofNat, Nat.shiftRight_eq_div_pow]
  rw [signedOf_eq_toInt, field]

/-- VDOT4's products are those of the four fields. -/
theorem dot4_eq (w x y : Nat) : dot4 w (x % 2 ^ w) (y % 2 ^ w) = fieldProducts w x y := by
  simp only [dot4, List.range_succ, List.range_zero, List.nil_append, List.cons_append, List.foldl_cons, List.foldl_nil, signedOf_field, fieldProducts,
    zero_add]

/-- VDOT4 with a group or a scalar: y is the number that the second operand stands for. -/
theorem elementWise_dot {i : VArith} {d a m : Nat} {rs : List Nat} (b : VEntry → VOpnd) (y : Core → VView → VEntry → Nat → Nat)
    (dest : scalarDest i = none) (act : ∀ (v : VView) (e : VEntry), arithAct v e.op0 none e.op1 none i = intDot v d a m (b e))
    (operand : ∀ (x : Slot) (e : VEntry) (c : Core) (n : Nat), CleanCore c → c.opnd (VView.of x e) (b e) (vWidth e.vcfg) n =
      ⟨y c (VView.of x e) e n % 2 ^ vWidth e.vcfg, none⟩) :
    ElementWise (.arith i) d rs m (fun c => 8 ≤ vWidth c) fun c v e n =>
      ((BitVec.ofInt (vWidth e.vcfg) ((c.elem v d (vWidth e.vcfg) n).bits +
        fieldProducts (vWidth e.vcfg) (c.elem v a (vWidth e.vcfg) n).bits (y c v e n))).toNat, (0 : FFlags)) := by
  refine elementWise_plain dest act fun x e c clean _ _ _ n => ⟨?_, ?_, rfl⟩
  · exact lowerTag_clean (elem_poison clean _ _ _ _)
      (lowerTag_clean (elem_poison clean _ _ _ _) (congrArg Elem.poison (operand x e c n clean)))
  · refine (intBits_mod _ _).trans ?_
    change intBits (vWidth e.vcfg) (((c.elem (VView.of x e) d (vWidth e.vcfg) n).bits : Int) +
      dot4 (vWidth e.vcfg) (c.elem (VView.of x e) a (vWidth e.vcfg) n).bits (c.opnd (VView.of x e) (b e) (vWidth e.vcfg) n).bits) = _
    rw [operand x e c n clean, toNat_ofInt_eq_intBits, ← dot4_eq, Nat.mod_eq_of_lt (elem_lt c _ _ _ _)]

/-- The second operand of an instruction as a group, and as a captured scalar. -/
theorem opnd_reg {c : Core} (clean : CleanCore c) (v : VView) (b w n : Nat) : c.opnd v (.reg b) w n = ⟨(c.elem v b w n).bits % 2 ^ w, none⟩ := by
  rw [Nat.mod_eq_of_lt (elem_lt c v b w n), ← elem_poison clean v b w n]
  rfl

theorem opnd_scalar (c : Core) (v : VView) (x : Word) (w n : Nat) : c.opnd v (.scalar x none) w n = ⟨x.toNat % 2 ^ w, none⟩ := rfl

/-- A signed number is that of its low bits. -/
theorem signedOf_mod (w x : Nat) : signedOf w (x % 2 ^ w) = (BitVec.ofNat w x).toInt := by
  rw [signedOf_eq_toInt]
  congr 1
  apply BitVec.eq_of_toNat_eq
  simp

section ready

variable {s : State} {k q : Nat} {e : VEntry} {r : Row}

/-- Twice the width of a ready entry up to 32. -/
theorem ready_double (h : BeatReady s k q e r) (half : vWidth e.vcfg ≤ 32) : WidthOk (2 * vWidth e.vcfg) := by
  obtain ⟨n, hn, w⟩ := width_code h.width
  rw [w] at half ⊢
  have below : n + 1 ≤ 5 := by
    by_contra above
    have := Nat.pow_le_pow_right (n := 2) two_pos (show 6 ≤ n + 1 by omega)
    omega
  rw [← pow_succ']
  exact widthOk_pow (by omega)

/-- No flag is raised by instructions that raise none. -/
theorem flagsOf_zero (c : Core) (v : VView) (m lo hi : Nat) : flagsOf c v m lo hi (fun _ => 0) = 0 := flagsWhere_zero _ _ _

end ready

/-- VWADD and VWMUL (05_vector R134): y is the number that the second operand stands for. -/
theorem wideElements_of {i : VArith} {d a m : Nat} {rs : List Nat} (b : VEntry → VOpnd) (y : Core → VView → VEntry → Nat → Nat) {f : Int → Int → Int}
    (dest : scalarDest i = none) (act : ∀ (v : VView) (e : VEntry), arithAct v e.op0 none e.op1 none i = intWide v d a m (b e) f)
    (operand : ∀ (x : Slot) (e : VEntry) (c : Core) (n : Nat), CleanCore c → c.opnd (VView.of x e) (b e) (vWidth e.vcfg) n =
      ⟨y c (VView.of x e) e n % 2 ^ vWidth e.vcfg, none⟩) :
    WideElements (.arith i) d rs m fun c v e n => (BitVec.ofInt (2 * vWidth e.vcfg)
      (f (BitVec.ofNat (vWidth e.vcfg) (c.elem v a (vWidth e.vcfg) n).bits).toInt (BitVec.ofNat (vWidth e.vcfg) (y c v e n)).toInt)).toNat := by
  intro s k q e h half group _ low _ c v
  obtain ⟨width, two, top⟩ := ready_width h
  obtain ⟨-, -, -, vl⟩ := h.captured
  have double := ready_double h half
  have size : v.size (2 * 2 ^ v.g) (2 * v.w) = (s.slot q).vlmax e.vcfg := by
    have twice : (s.slot q).vlen * (2 * 2 ^ vGroup e.vcfg) / (2 * vWidth e.vcfg) = (s.slot q).vlen * 2 ^ vGroup e.vcfg / vWidth e.vcfg := by
      rw [Nat.mul_left_comm, Nat.mul_div_mul_left _ _ two_pos]
    exact congrArg (min · ((s.slot q).vlen / 2)) twice
  have regs : 2 * 2 ^ vGroup e.vcfg = max 1 (2 ^ vGroup e.vcfg * (2 * vWidth e.vcfg) / vWidth e.vcfg) := by
    rw [← Nat.mul_assoc, Nat.mul_div_cancel _ width.2, Nat.mul_comm 2]
    exact (max_eq_right (Nat.mul_pos (Nat.two_pow_pos _) two_pos)).symm
  have beat := elems_beat h (ready_row h dest) (ready_act h (act v e))
    (regFits (ready_vlen h) double (show d + 2 * 2 ^ vGroup e.vcfg ≤ 40 by omega) le_rfl)
    (placedIn_reg v double.2 (show d + 2 * 2 ^ vGroup e.vcfg ≤ 40 by omega) regs) (vl.trans_eq size.symm)
    (Nat.div_pos (by show 2 * vWidth e.vcfg ≤ 2048; omega) double.2)
    (f := fun n => ((BitVec.ofInt (2 * vWidth e.vcfg)
      (f (BitVec.ofNat (vWidth e.vcfg) (c.elem v a (vWidth e.vcfg) n).bits).toInt (BitVec.ofNat (vWidth e.vcfg) (y c v e n)).toInt)).toNat, 0))
    (fun n => ⟨?_, ?_, rfl⟩)
  · simp only [size, flagsOf_zero] at beat
    exact beat
  · exact lowerTag_clean (elem_poison h.clean _ _ _ _) (congrArg Elem.poison (operand _ e c n h.clean))
  · refine (intBits_mod _ _).trans ?_
    rw [toNat_ofInt_eq_intBits, ← signedOf_mod _ (y c v e n), ← signedOf_eq_toInt]
    exact congrArg (fun z : Elem => intBits _ (f _ (signedOf _ z.bits))) (operand _ e c n h.clean)

/-- The low bits of an integer are those of more of its low bits. -/
theorem intBits_of_wider {w n : Nat} (h : w ≤ n) (z : Int) : intBits w z = intBits n z % 2 ^ w := by
  have part : z % 2 ^ w = z % 2 ^ n % 2 ^ w := (Int.emod_emod_of_dvd z (pow_dvd_pow 2 h)).symm
  obtain ⟨x, hx⟩ := Int.eq_ofNat_of_zero_le (Int.emod_nonneg z (show (2 : Int) ^ n ≠ 0 by positivity))
  rw [intBits, intBits, part, hx]
  norm_cast

/-- VNSHR (05_vector R134): y is the number that the second operand stands for. -/
theorem narrowElements_of {i : VArith} {d a m : Nat} {rs : List Nat} (b : VEntry → VOpnd) (y : Core → VView → VEntry → Nat → Nat)
    (dest : scalarDest i = none) (act : ∀ (v : VView) (e : VEntry), arithAct v e.op0 none e.op1 none i = intNarrow v d a m (b e))
    (operand : ∀ (x : Slot) (e : VEntry) (c : Core) (n : Nat), CleanCore c → c.opnd (VView.of x e) (b e) (vWidth e.vcfg) n =
      ⟨y c (VView.of x e) e n, none⟩) :
    NarrowElements (.arith i) d a rs m fun c v e n =>
      (((BitVec.ofNat (2 * vWidth e.vcfg) (c.elem v a (2 * vWidth e.vcfg) n).bits).sshiftRight (y c v e n % (2 * vWidth e.vcfg))).setWidth
        (vWidth e.vcfg)).toNat := by
  intro s k q e h half placed _ _ _ c v
  obtain ⟨width, two, top⟩ := ready_width h
  obtain ⟨-, -, -, vl⟩ := h.captured
  obtain ⟨-, low⟩ := placed d List.mem_cons_self
  have beat := elems_beat h (ready_row h dest) (ready_act h (act v e)) (regFits (ready_vlen h) width (show d + 2 ^ vGroup e.vcfg ≤ 40 by omega) le_rfl)
    (placedIn_reg v width.2 (show d + 2 ^ vGroup e.vcfg ≤ 40 by omega) (plain_group width.2)) vl
    (Nat.div_pos (by show 2 * vWidth e.vcfg ≤ 2048; omega) (by show 0 < 2 * vWidth e.vcfg; omega))
    (f := fun n => ((((BitVec.ofNat (2 * vWidth e.vcfg) (c.elem v a (2 * vWidth e.vcfg) n).bits).sshiftRight
      (y c v e n % (2 * vWidth e.vcfg))).setWidth (vWidth e.vcfg)).toNat, 0))
    (fun n => ⟨?_, ?_, rfl⟩)
  · simp only [flagsOf_zero] at beat
    exact beat
  · exact lowerTag_clean (elem_poison h.clean _ _ _ _) (congrArg Elem.poison (operand _ e c n h.clean))
  · change intBits (vWidth e.vcfg) (signedOf (2 * vWidth e.vcfg) (c.elem v a (2 * vWidth e.vcfg) n).bits /
      2 ^ ((c.opnd v (b e) (vWidth e.vcfg) n).bits % (2 * vWidth e.vcfg))) % 2 ^ vWidth e.vcfg = _
    rw [operand _ e c n h.clean, intBits_mod, signedOf_eq_toInt, BitVec.toNat_setWidth, ← intBits_shift]
    exact intBits_of_wider (by omega) _

end Sys2Proof.Proofs

namespace Sys2Proof.Settled

open Sys2Proof.Machine Sys2Proof.Proofs

/-- Settles O27: both forms of each integer operation, then VABS, VDOT4, and what widens and narrows, as element-wise instructions. -/
theorem vectorIntegerElements : Obligations.VectorIntegerElements := by
  refine ⟨vectorInteger_of intOp_add, vectorInteger_of intOp_sub, vectorInteger_of intOp_mul, vectorInteger_of intOp_mulh,
    vectorInteger_of intOp_mulhz, vectorInteger_of intOp_div, vectorInteger_of intOp_min, vectorInteger_of intOp_max, vectorInteger_of intOp_minz,
    vectorInteger_of intOp_maxz, vectorInteger_of intOp_and, vectorInteger_of intOp_or, vectorInteger_of intOp_xor, vectorInteger_of intOp_shl,
    vectorInteger_of intOp_shr, vectorInteger_of intOp_sar, vectorInteger_of intOp_adds, vectorInteger_of intOp_subs, elementWise_vabs,
    fun d a b x m => ⟨?dot, ?dotVs, ?wadd, ?wmul, ?waddVs, ?wmulVs, ?nshr, ?nshrVs⟩⟩
  case dot =>
    exact elementWise_dot (fun _ => .reg b.toNat) (fun c v e n => (c.elem v b.toNat (vWidth e.vcfg) n).bits) rfl (fun _ _ => rfl)
      fun _ _ _ _ clean => opnd_reg clean _ _ _ _
  case dotVs =>
    exact elementWise_dot (fun e => .scalar e.op0 none) (fun _ _ e _ => e.op0.toNat) rfl (fun _ _ => rfl)
      fun _ _ _ _ _ => opnd_scalar _ _ _ _ _
  case wadd =>
    exact wideElements_of (fun _ => .reg b.toNat) (fun c v e n => (c.elem v b.toNat (vWidth e.vcfg) n).bits) rfl (fun _ _ => rfl)
      fun _ _ _ _ clean => opnd_reg clean _ _ _ _
  case wmul =>
    exact wideElements_of (fun _ => .reg b.toNat) (fun c v e n => (c.elem v b.toNat (vWidth e.vcfg) n).bits) rfl (fun _ _ => rfl)
      fun _ _ _ _ clean => opnd_reg clean _ _ _ _
  case waddVs =>
    exact wideElements_of (fun e => .scalar e.op0 none) (fun _ _ e _ => e.op0.toNat) rfl (fun _ _ => rfl)
      fun _ _ _ _ _ => opnd_scalar _ _ _ _ _
  case wmulVs =>
    exact wideElements_of (fun e => .scalar e.op0 none) (fun _ _ e _ => e.op0.toNat) rfl (fun _ _ => rfl)
      fun _ _ _ _ _ => opnd_scalar _ _ _ _ _
  case nshr =>
    exact narrowElements_of (fun _ => .reg b.toNat) (fun c v e n => (c.elem v b.toNat (vWidth e.vcfg) n).bits) rfl (fun _ _ => rfl)
      fun _ _ _ _ clean => (opnd_reg clean _ _ _ _).trans (by rw [Nat.mod_eq_of_lt (elem_lt _ _ _ _ _)])
  case nshrVs =>
    exact narrowElements_of (fun e => .scalar e.op0 none) (fun _ _ e _ => e.op0.toNat % 2 ^ vWidth e.vcfg) rfl (fun _ _ => rfl)
      fun _ _ _ _ _ => opnd_scalar _ _ _ _ _

end Sys2Proof.Settled

/-! What the vector unit writes to mask registers and to scalar registers (05_vector R137 to R139): compares, mask logic, and searches over a mask. -/

namespace Sys2Proof.Proofs

open Sys2Proof.Machine Sys2Proof.Laws

section ready

variable {s : State} {k q : Nat} {e : VEntry} {r : Row}

/-- VL is no more than the bits of a mask register (05_vector R117). -/
theorem ready_maskSize (h : BeatReady s k q e r) : e.vl ≤ (VView.of (s.slot q) e).maskSize := by
  obtain ⟨-, -, -, vl⟩ := h.captured
  have len : (s.slot q).vlen ≤ 2048 * (s.slot q).laneCount := min_le_left _ _
  have half : e.vl ≤ (s.slot q).vlen / 2 := vl.trans (min_le_right _ _)
  show e.vl ≤ 1024 * (s.slot q).laneCount
  omega

/-- The bit of a truth value stands as it is. -/
theorem toNat_mod_two (b : Bool) : b.toNat % 2 ^ 1 = b.toNat := by cases b <;> rfl

/-- An element-wise instruction into a mask register: f tells whether an element's bit is set, and its flags. -/
theorem maskElems_beat (h : BeatReady s k q e r) (row : UnitRow r none) {d m : Nat} (hd : d ≠ 0) (hd8 : d < 8) {F : Core → Nat → ElemRes}
    {factor whole : Nat} (act : entryAct (s.core k) (VView.of (s.slot q) e) e r =
      some (.elems (VView.of (s.slot q) e).w (.mask d) (VView.of (s.slot q) e).maskSize m false F, factor, whole)) {f : Nat → Bool × FFlags}
    (value : ∀ i, F (s.core k) i = ⟨⟨(f i).1.toNat, none⟩, (f i).2⟩) :
    ∃ t n, exec (.vectorIssue k ⟨0, []⟩) s = .next t ∧
      BeatDone s t k q e (.mask d) (1024 * (s.slot q).laneCount) n (maskedValue (s.core k) (VView.of (s.slot q) e) m fun i => (f i).1.toNat)
        (flagsOf (s.core k) (VView.of (s.slot q) e) m e.p n fun i => (f i).2) := by
  obtain ⟨width, two, top⟩ := ready_width h
  obtain ⟨t, n, run, beat, -⟩ := elems_beat h row act (maskFits hd hd8) (placedIn_mask _ e.vcfg hd8) (ready_maskSize h)
    (Nat.div_pos (by show vWidth e.vcfg ≤ 2048; omega) width.2) (f := fun i => ((f i).1.toNat, (f i).2))
    fun i => by rw [value i]; exact ⟨rfl, toNat_mod_two _, rfl⟩
  exact ⟨t, n, run, beat⟩

end ready

/-- A compare: cond tells the condition of two elements' bits, y the number that the second operand stands for. -/
theorem vectorCompare_of {i : Instr} {d a m : Nat} {rs : List Nat} {ok : BitVec 14 → Prop} {f : Core → VView → VEntry → Nat → Bool × FFlags}
    (b : VEntry → VOpnd) (y : Core → VView → VEntry → Nat → Nat) {cond : VView → Nat → Nat → Bool × FFlags} (compare : IsCompare i) (hd8 : d < 8)
    (act : ∀ (v : VView) (e : VEntry), cmpActOf v e.op0 none i = some (cmpAct v d a m (b e) (cond v)))
    (operand : ∀ (x : Slot) (e : VEntry) (c : Core) (n : Nat), CleanCore c → c.opnd (VView.of x e) (b e) (vWidth e.vcfg) n =
      ⟨y c (VView.of x e) e n, none⟩)
    (value : ∀ (x : Slot) (e : VEntry) (c : Core) (n : Nat), cond (VView.of x e) (c.elem (VView.of x e) a (vWidth e.vcfg) n).bits
      (y c (VView.of x e) e n) = f c (VView.of x e) e n) : VectorCompare (.instr i) d rs m ok f := by
  intro s k q e h _ _ hd c v
  obtain ⟨-, wf, -⟩ := h.word
  obtain ⟨first, -⟩ := h.captured
  have act' : entryAct c v e (.instr i) = some (cmpAct v d a m (b e) (cond v), 1, 1) := by
    rw [entryAct, first, act]
    rfl
  refine maskElems_beat h (unitRow_compare compare wf) hd hd8 act' (f := f c v e) fun n => ?_
  have second : c.opnd v (b e) v.w n = ⟨y c v e n, none⟩ := operand _ e c n h.clean
  have first : (c.elem v a v.w n).poison = none := elem_poison h.clean _ _ _ _
  have both : cond v (c.elem v a v.w n).bits (y c v e n) = f c v e n := value _ e c n
  dsimp only
  rw [second, lowerTag_clean first rfl]
  dsimp only
  rw [both]

/-- The conditions of VCMP on words, by their code (05_vector R137). -/
def wordHolds {w : Nat} (k : Nat) (x y : BitVec w) : Bool :=
  match k with
  | 0 => x == y
  | 1 => x != y
  | 2 => x.slt y
  | 3 => y.sle x
  | 4 => x.ult y
  | _ => y.ule x

/-- They are the model's. -/
theorem intCond_words {w : Nat} (k : Nat) (x y : BitVec w) : intCond w k x.toNat y.toNat = (wordHolds k x y, 0) := by
  have same : (x.toNat == y.toNat) = (x == y) := by
    rw [Bool.eq_iff_iff, beq_iff_eq, beq_iff_eq]
    exact BitVec.toNat_inj
  refine congrArg (·, (0 : FFlags)) ?_
  rw [signedOf_toNat, signedOf_toNat]
  match k with
  | 0 => exact same
  | 1 => exact congrArg not same
  | 2 => rfl
  | 3 => rfl
  | 4 => rfl
  | k + 5 => rfl

/-- VCMP of two groups, and of a group and a scalar: y is the word that the second operand stands for. -/
theorem vectorCompare_int {d a m k : Nat} (hd : d < 8) {i : Instr} {rs : List Nat} (b : VEntry → VOpnd)
    (y : Core → VView → (e : VEntry) → Nat → BitVec (vWidth e.vcfg)) (compare : IsCompare i)
    (act : ∀ (v : VView) (e : VEntry), cmpActOf v e.op0 none i = some (cmpAct v d a m (b e) (intCond v.w k)))
    (operand : ∀ (x : Slot) (e : VEntry) (c : Core) (n : Nat), CleanCore c → c.opnd (VView.of x e) (b e) (vWidth e.vcfg) n =
      ⟨(y c (VView.of x e) e n).toNat, none⟩) :
    VectorCompare (.instr i) d rs m (fun _ => True) fun c v e n =>
      (wordHolds k (BitVec.ofNat (vWidth e.vcfg) (c.elem v a (vWidth e.vcfg) n).bits) (y c v e n), 0) := by
  refine vectorCompare_of b (fun c v e n => (y c v e n).toNat) (cond := fun v => intCond v.w k) compare hd act operand fun x e c n => ?_
  have words := intCond_words k (BitVec.ofNat (vWidth e.vcfg) (c.elem (VView.of x e) a (vWidth e.vcfg) n).bits) (y c (VView.of x e) e n)
  rw [toNat_elem] at words
  exact words

/-- The conditions of VFCMP are those of the extended numbers, with NV as the scalar compares raise it (05_vector R137; 04_sequencer R93). -/
theorem fltCond_eq {k : Nat} (hk : k ≤ 4) (f : Fmt) (x y : Nat) : fltCond f k x y = floatHolds k (f.decode x) (f.decode y) := by
  have code : k = 0 ∨ k = 1 ∨ k = 2 ∨ k = 3 ∨ k = 4 := by omega
  unfold fltCond floatHolds
  generalize f.decode x = a
  generalize f.decode y = b
  have signal := nv_or a b
  cases ha : a.extended with
  | none =>
    obtain ⟨s, rfl⟩ := extended_eq_none.mp ha
    have unordered : fCompare (.nan s) b = none := rfl
    rcases code with rfl | rfl | rfl | rfl | rfl <;> simp [fCondition, unordered, signal]
  | some u =>
    cases hb : b.extended with
    | none =>
      obtain ⟨s, rfl⟩ := extended_eq_none.mp hb
      have unordered : fCompare a (.nan s) = none := by cases a <;> rfl
      rcases code with rfl | rfl | rfl | rfl | rfl <;> simp [fCondition, unordered, signal]
    | some w =>
      have compared := fCompare_extended ha hb
      have quiet : a.nv ||| b.nv = 0 := by rw [nv_of_extended ha, nv_of_extended hb]; rfl
      have equal : (cmp u w == Ordering.eq) = decide (u = w) := by rw [Bool.eq_iff_iff, beq_iff_eq, decide_eq_true_iff, cmp_eq_eq_iff]
      have less : (cmp u w == Ordering.lt) = decide (u < w) := by rw [Bool.eq_iff_iff, beq_iff_eq, decide_eq_true_iff, cmp_eq_lt_iff]
      rcases code with rfl | rfl | rfl | rfl | rfl <;> simp [fCondition, compared, quiet, equal, less, le_iff_lt_or_eq]

/-- VFCMP of two groups, and of a group and a scalar. -/
theorem vectorCompare_flt {d a m k : Nat} (hd : d < 8) (hk : k ≤ 4) {i : Instr} {rs : List Nat} (b : VEntry → VOpnd)
    (y : Core → VView → VEntry → Nat → Nat) (compare : IsCompare i)
    (act : ∀ (v : VView) (e : VEntry), cmpActOf v e.op0 none i = some (cmpAct v d a m (b e) (fltCond v.fmt k)))
    (operand : ∀ (x : Slot) (e : VEntry) (c : Core) (n : Nat), CleanCore c → c.opnd (VView.of x e) (b e) (vWidth e.vcfg) n =
      ⟨y c (VView.of x e) e n, none⟩) {f : Core → VView → VEntry → Nat → FVal}
    (value : ∀ (x : Slot) (e : VEntry) (c : Core) (n : Nat),
      (VView.of x e).fmt.decode (y c (VView.of x e) e n) = f c (VView.of x e) e n) :
    VectorCompare (.instr i) d rs m (fun c => (floatType c).isSome) fun c v e n => floatHolds k (elemValue c v a n) (f c v e n) := by
  refine vectorCompare_of b y (cond := fun v => fltCond v.fmt k) compare hd act operand fun x e c n => ?_
  rw [fltCond_eq hk, value]
  rfl

/-- MFROMV (05_vector R139). -/
theorem vectorCompare_mfromv (d : BitVec 3) (a : BitVec 5) (m : BitVec 3) :
    VectorCompare (.arith (.mfromv d a m)) d.toNat [a.toNat] m.toNat (fun _ => True) fun c v e n =>
      ((c.elem v a.toNat (vWidth e.vcfg) n).bits != 0, 0) := by
  intro s k q e h _ _ hd c v
  refine maskElems_beat h (ready_row h rfl) hd d.isLt (ready_act h rfl) (f := fun n => ((c.elem v a.toNat (vWidth e.vcfg) n).bits != 0, 0)) fun n => ?_
  have clean : (c.elem v a.toNat (vWidth e.vcfg) n).poison = none := elem_poison h.clean _ _ _ _
  exact congrArg (fun p => (⟨⟨((c.elem v a.toNat (vWidth e.vcfg) n).bits != 0).toNat, p⟩, 0⟩ : ElemRes)) clean

/-- A mask bit is a bit. -/
theorem maskBit_lt (c : Core) (v : VView) (m i : Nat) : (c.maskBit v m i).bits < 2 := by
  unfold Core.maskBit
  split
  · exact Nat.one_lt_two
  · split
    · exact Nat.zero_lt_two
    · exact Nat.mod_lt _ Nat.zero_lt_two

/-- An instruction that writes a mask register in one piece, from P on: F is what the model computes of a bit (05_vector R130). -/
theorem whole_mask {a : VArith} {d m : Nat} {val : Core → VView → VEntry → Nat → Option Nat} {F : VView → Core → Core → Nat → ElemRes}
    (dest : scalarDest a = none) (hd : d ≠ 0) (hd8 : d < 8)
    (act : ∀ (v : VView) (e : VEntry), arithAct v e.op0 none e.op1 none a = .whole fun c =>
      if v.vl ≤ v.p then (c, 0, none)
      else ((runElems c v (.mask d) m false (F v c) (v.vl - v.p) v.p c 0).1.tail v (.mask d) v.maskSize, 0, none))
    (value : ∀ (x : Slot) (e : VEntry) (c : Core), CleanCore c → ∀ i, (F (VView.of x e) c c i).elem.poison = none ∧
      (i < e.vl → (elemValue? c (VView.of x e) m false (F (VView.of x e) c) i).map (· % 2) = val c (VView.of x e) e i)) :
    Whole (.arith a) (.mask d) false [] val := by
  intro s k q e h _ _ _
  obtain ⟨-, -, below, -⟩ := h.captured
  have run := runElems_from h.clean (v := VView.of (s.slot q) e) (d := .mask d) (m := m) (always := false)
    (f := F (VView.of (s.slot q) e) (s.core k)) (fun i => (value _ e _ h.clean i).1) (e.vl - e.p) e.p
  have step := step_whole (fits := maskFits hd hd8) h.clean below (ready_maskSize h)
    (f := fun c => if e.vl ≤ e.p then (c, 0, none) else ((runElems c (VView.of (s.slot q) e) (.mask d) m false (F (VView.of (s.slot q) e) c)
      (e.vl - e.p) e.p c 0).1.tail (VView.of (s.slot q) e) (.mask d) (VView.of (s.slot q) e).maskSize, 0, none)) (fl := 0)
    (g := elemValue? (s.core k) (VView.of (s.slot q) e) m false (F (VView.of (s.slot q) e) (s.core k))) (by
      rw [if_neg (Nat.not_le.mpr below), run]
      rfl)
  exact beatDone_of_step h (ready_row h dest) (ready_act h (act _ e)) (placedIn_mask _ e.vcfg hd8) step fun i _ hi => (value _ e _ h.clean i).2 hi

/-- Mask logic (05_vector R138): op works on two bits. -/
theorem whole_maskLogic {i : VArith} {d a b : Nat} {op : Nat → Nat → Nat} {val : Core → VView → Nat → Nat} (dest : scalarDest i = none) (hd : d ≠ 0)
    (hd8 : d < 8) (act : ∀ (v : VView) (e : VEntry), arithAct v e.op0 none e.op1 none i = maskLogic v d a b op)
    (value : ∀ (c : Core) (v : VView) (n : Nat), op (c.maskBit v a n).bits (c.maskBit v b n).bits % 2 = val c v n) :
    Whole (.arith i) (.mask d) false [] fun c v _ n => some (val c v n) := by
  refine whole_mask (m := 0) (F := fun v _ c i => Elem.res ⟨op (c.maskBit v a i).bits (c.maskBit v b i).bits,
    lowerTag (c.maskBit v a i).poison (c.maskBit v b i).poison⟩) dest hd hd8 act fun x e c clean n => ⟨?_, fun _ => ?_⟩
  · exact lowerTag_clean (maskBit_poison clean _ _ _) (maskBit_poison clean _ _ _)
  · exact congrArg some (value c _ n)

/-- The operations of mask logic on bits give bits. -/
theorem bit_op {op f : Nat → Nat → Nat} (h : ∀ x < 2, ∀ y < 2, op x y % 2 = f x y) (a b : Nat) (c : Core) (v : VView) (n : Nat) :
    op (c.maskBit v a n).bits (c.maskBit v b n).bits % 2 = f (c.maskBit v a n).bits (c.maskBit v b n).bits :=
  h _ (maskBit_lt c v a n) _ (maskBit_lt c v b n)

/-- The bits of mask a that are set and active under mask m. -/
def setBit (c : Core) (v : VView) (a m n : Nat) : Bool := c.active v m n && (c.maskBit v a n).bits == 1

/-- The first of them is the model's. -/
theorem firstSet_eq (c : Core) (v : VView) (a m : Nat) : firstSet c v a m = (List.range v.vl).find? (setBit c v a m) := by
  unfold firstSet Core.actives
  rw [List.find?_filter]
  congr 1
  funext i
  simp only [setBit, Bool.decide_and, Bool.decide_eq_true]

/-- The lowest of no tags is none. -/
theorem foldl_lowerTag_clean {α : Type} {p : α → Option PTag} (clean : ∀ i, p i = none) (l : List α) :
    l.foldl (fun t i => lowerTag t (p i)) none = none := by
  induction l with
  | nil => rfl
  | cons i l ih => rw [List.foldl_cons, lowerTag_clean rfl (clean i), ih]

/-- A search of a clean core is not poisoned. -/
theorem maskPoison_clean {c : Core} (clean : CleanCore c) (v : VView) (m n : Nat) : c.maskPoison v m n = none := by
  unfold Core.maskPoison
  split
  · rfl
  · exact foldl_lowerTag_clean (fun _ => maskBit_poison clean _ _ _) _

theorem searchPoison_clean {c : Core} (clean : CleanCore c) (v : VView) (a m : Nat) : searchPoison c v a m = none := by
  rw [searchPoison, maskPoison_clean clean]
  exact foldl_lowerTag_clean (fun _ => maskBit_poison clean _ _ _) _

/-- An index is below the first set bit when no bit up to it is set. -/
theorem below_first {n i : Nat} (p : Nat → Bool) (hi : i < n) :
    decide (i < ((List.range n).find? p).getD n) = (List.range (i + 1)).all fun j => !p j := by
  rw [Bool.eq_iff_iff, decide_eq_true_iff, List.all_eq_true]
  cases found : (List.range n).find? p with
  | none =>
    have clear := List.find?_range_eq_none.mp found
    exact ⟨fun _ j hj => clear j (by have := List.mem_range.mp hj; omega), fun _ => hi⟩
  | some f =>
    obtain ⟨set, -, clear⟩ := List.find?_range_eq_some.mp found
    refine ⟨fun lt j hj => clear j (by have := List.mem_range.mp hj; rw [Option.getD_some] at lt; omega), fun all => ?_⟩
    by_contra above
    have := all f (List.mem_range.mpr (by rw [Option.getD_some] at above; omega))
    simp [set] at this

/-- MSBF (05_vector R139). -/
theorem whole_msbf (d a m : BitVec 3) (hd : d.toNat ≠ 0) : Whole (.arith (.msbf d a m)) (.mask d.toNat) false [] fun c v _ n =>
    maskedValue c v m.toNat (fun j => ((List.range (j + 1)).all fun i => !setBit c v a.toNat m.toNat i).toNat) n := by
  refine whole_mask (m := m.toNat) (F := fun v c0 _ i => Elem.res ⟨(decide (i < (firstSet c0 v a.toNat m.toNat).getD v.vl)).toNat,
    searchPoison c0 v a.toNat m.toNat⟩) rfl hd d.isLt (fun _ _ => rfl) fun x e c clean n => ⟨searchPoison_clean clean _ _ _, fun hn => ?_⟩
  have first : decide (n < (firstSet c (VView.of x e) a.toNat m.toNat).getD e.vl) =
      (List.range (n + 1)).all fun i => !setBit c (VView.of x e) a.toNat m.toNat i := by
    rw [firstSet_eq]
    exact below_first (setBit c (VView.of x e) a.toNat m.toNat) hn
  have value : (decide (n < (firstSet c (VView.of x e) a.toNat m.toNat).getD e.vl)).toNat % 2 =
      ((List.range (n + 1)).all fun i => !setBit c (VView.of x e) a.toNat m.toNat i).toNat :=
    (toNat_mod_two _).trans (congrArg Bool.toNat first)
  unfold elemValue? maskedValue VView.mp
  rw [Bool.or_false]
  by_cases on : c.active (VView.of x e) m.toNat n = true
  · rw [if_pos on, if_pos on]
    exact congrArg some value
  · rw [if_neg on, if_neg on]
    by_cases mp : (VView.of x e).vcfg.getLsbD 6 = true
    · rw [if_pos mp]
      rfl
    · rw [if_neg mp]
      rfl

/-- What lands in a scalar register below 32 is read of it, and no other register changes. -/
theorem sreg_landAt (x : Slot) {d : Nat} (v : Word) (p : Option PTag) (hd : d ≠ 0) (low : d < 32) (r : Nat) :
    (x.landAt d v p).sreg r = if r = d then ⟨v, p, .ready⟩ else x.sreg r := by
  have land : x.landAt d v p = { x with regs := tabSet x.regs d ⟨v, p, .ready⟩ } := by
    rw [Slot.landAt, if_neg hd, if_pos (by omega)]
  rw [land]
  unfold Slot.sreg
  by_cases same : r = d
  · have bank : x.banked d = false := by
      have : ¬ 56 ≤ d := by omega
      simp [Slot.banked, this]
    rw [if_pos same, same, if_neg hd]
    change (if x.banked d = true then _ else tabGet (tabSet x.regs d _) _ d) = _
    rw [bank, if_neg Bool.false_ne_true, tabGet_tabSet]
  · rw [if_neg same]
    split
    · rfl
    · change (if x.banked r = true then _ else tabGet (tabSet x.regs d _) _ r) = _
      rw [tabGet_tabSet_ne _ _ _ same]

/-- An instruction of the vector unit that only writes a scalar register (05_vector R139, R140; 04_sequencer R81). -/
theorem writesScalar_of {a : VArith} {d : Nat} {rs : List Nat} {val : Core → VView → VEntry → Word} {F : VView → VEntry → Core →
    Core × FFlags × Option (Word × Option PTag)} (dest : scalarDest a = some d) (low : d < 32)
    (act : ∀ (v : VView) (e : VEntry), arithAct v e.op0 none e.op1 none a = .whole (F v e))
    (value : ∀ (x : Slot) (e : VEntry) (c : Core), CleanCore c → e.p < e.vl →
      F (VView.of x e) e c = (c, 0, some (val c (VView.of x e) e, none))) : WritesScalar (.arith a) d rs val := by
  intro s k q e h _ hd
  obtain ⟨encoded, wf, -⟩ := h.word
  obtain ⟨-, -, below, -⟩ := h.captured
  have row : UnitRow (.arith a) (some d) := dest ▸ unitRow_arith wf
  have stepped := value (s.slot q) e (s.core k) h.clean below
  have step : (VAct.whole (F (VView.of (s.slot q) e) e)).step (VView.of (s.slot q) e) (s.core k) =
      ⟨s.core k, 0, none, some (val (s.core k) (VView.of (s.slot q) e) e, none)⟩ := by simp only [VAct.step, stepped]
  obtain ⟨t, run, issued⟩ := vectorIssue_ready h row (ready_act h (act _ e)) (by rw [step])
  rw [step] at issued
  obtain ⟨vdirty, charge, slot⟩ := issued.slot
  have word : queueDest e.word = some d := by rw [encoded, row.dest]
  have landed : t.slot q = ({ s.slot q with vq := [], fflags := (s.slot q).fflags ||| 0, vdirty := vdirty, charge := charge } : Slot).landAt d
      (val (s.core k) (VView.of (s.slot q) e) e) none := by
    rw [slot]
    simp [issuedSlot, VEntry.lands, word]
  refine ⟨t, run, issued.device, issued.slots, fun j => ?_, ?_, ?_, fun r hr => ?_⟩
  · by_cases same : j = k
    · rw [same, issued.core]
    · exact issued.cores j same
  · rw [landed, Slot.landAt, if_neg hd, if_pos (by omega)]
  · rw [landed, sreg_landAt _ _ _ hd low, if_pos rfl]
  · rw [landed, sreg_landAt _ _ _ hd low, if_neg (by simpa using hr)]
    rfl

/-- MPOPC and MFFS (05_vector R139). -/
theorem writesScalar_mpopc (g : BitVec 5) (a m : BitVec 3) : WritesScalar (.arith (.mpopc g a m)) g.toNat [] fun c v _ =>
    BitVec.ofNat 64 ((List.range v.vl).countP fun i => setBit c v a.toNat m.toNat i) := by
  refine writesScalar_of rfl g.isLt (fun _ _ => rfl) fun x e c clean _ => ?_
  rw [searchPoison_clean clean, Core.actives, List.filter_filter, List.countP_eq_length_filter]
  congr 7
  funext i
  exact Bool.and_comm _ _

theorem writesScalar_mffs (g : BitVec 5) (a m : BitVec 3) : WritesScalar (.arith (.mffs g a m)) g.toNat [] fun c v _ =>
    match (List.range v.vl).find? fun i => setBit c v a.toNat m.toNat i with
    | some i => BitVec.ofNat 64 i
    | none => -1 := by
  refine writesScalar_of rfl g.isLt (fun _ _ => rfl) fun x e c clean _ => ?_
  rw [searchPoison_clean clean, firstSet_eq] <;> rfl

end Sys2Proof.Proofs

namespace Sys2Proof.Settled

open Sys2Proof.Machine Sys2Proof.Proofs

/-- Settles O29: compares and MFROMV as element-wise instructions into a mask, mask logic and MSBF in one piece, and the two searches. -/
theorem vectorMaskResults : Obligations.VectorMaskResults := by
  refine ⟨fun d a b m k _ => ?vcmp, fun d a b m k _ => ?vcmpVs, fun d a m k hk => ⟨fun b => ?vfcmp, fun b => ?vfcmpVs⟩, vectorCompare_mfromv,
    fun d a b hd => ?logic, fun g d a m => ⟨fun hd => ?msbf, writesScalar_mpopc g a m, writesScalar_mffs g a m⟩⟩
  case vcmp =>
    exact vectorCompare_int d.isLt (fun _ => .reg b.toNat) (fun c v e n => BitVec.ofNat _ (c.elem v b.toNat (vWidth e.vcfg) n).bits)
      ⟨d, a, m, k, .inl ⟨b, .inl rfl⟩⟩ (fun _ _ => rfl) fun _ _ _ _ clean => (opnd_reg clean _ _ _ _).trans (by rw [BitVec.toNat_ofNat])
  case vcmpVs =>
    exact vectorCompare_int d.isLt (fun e => .scalar e.op0 none) (fun _ _ e _ => e.op0.setWidth _)
      ⟨d, a, m, k, .inr ⟨b, .inl rfl⟩⟩ (fun _ _ => rfl) fun _ _ _ _ _ => (opnd_scalar _ _ _ _ _).trans (by rw [BitVec.toNat_setWidth])
  case vfcmp =>
    exact vectorCompare_flt d.isLt hk (fun _ => .reg b.toNat) (fun c v e n => (c.elem v b.toNat (vWidth e.vcfg) n).bits)
      ⟨d, a, m, k, .inl ⟨b, .inr rfl⟩⟩ (fun _ _ => rfl)
      (fun _ _ _ _ clean => (opnd_reg clean _ _ _ _).trans (by rw [Nat.mod_eq_of_lt (elem_lt _ _ _ _ _)]))
      fun _ _ _ _ => rfl
  case vfcmpVs =>
    exact vectorCompare_flt d.isLt hk (fun e => .scalar e.op0 none) (fun _ _ e _ => e.op0.toNat % 2 ^ vWidth e.vcfg)
      ⟨d, a, m, k, .inr ⟨b, .inr rfl⟩⟩ (fun _ _ => rfl) (fun _ _ _ _ _ => opnd_scalar _ _ _ _ _) fun _ _ _ _ => rfl
  case logic =>
    have writable : d.toNat ≠ 0 := fun h => hd (BitVec.eq_of_toNat_eq h)
    exact ⟨whole_maskLogic rfl writable d.isLt (fun _ _ => rfl) (bit_op (op := (· &&& ·)) (by decide) _ _),
      whole_maskLogic rfl writable d.isLt (fun _ _ => rfl) (bit_op (op := (· ||| ·)) (by decide) _ _),
      whole_maskLogic rfl writable d.isLt (fun _ _ => rfl) (bit_op (op := (· ^^^ ·)) (by decide) _ _),
      whole_maskLogic (op := fun x y => x * (1 - y)) rfl writable d.isLt (fun _ _ => rfl)
        (bit_op (op := fun x y => x * (1 - y)) (f := fun x y => x &&& (1 - y)) (by decide) _ _),
      whole_maskLogic (op := fun _ _ => 1) rfl writable d.isLt (fun _ _ => rfl) fun _ _ _ => rfl⟩
  case msbf =>
    exact whole_msbf d a m fun h => hd (BitVec.eq_of_toNat_eq h)

end Sys2Proof.Settled

/-! Floating-point instructions of the vector unit (05_vector R135): a rounded result is a code of its format. -/

namespace Sys2Proof.Proofs

open Sys2Proof.Machine Sys2Proof.Laws

/-- A format of a vector element: it has infinities and a NaN, and its codes below the sign bit hold them (02_numbers R27). -/
structure FullFmt (f : Fmt) : Prop where
  max : f.maxCode < f.signBit
  inf : ∃ i, f.infCode = some i ∧ i < f.signBit
  nan : ∃ n, f.nanCode = some n ∧ n < f.signBit
  canonical : f.nanCode.getD 0 = (2 ^ (f.ebits + 1) - 1) * 2 ^ (f.fbits - 1)
  wide : 4 ≤ f.fbits

/-- The four wide formats are. -/
theorem fullFmt_wide {f : Fmt} (h : f ∈ [fmtBF16, fmtF16, fmtF32, fmtF64]) : FullFmt f := by
  have all : ∀ f ∈ [fmtBF16, fmtF16, fmtF32, fmtF64], f.maxCode < f.signBit ∧ (f.infCode.any (· < f.signBit)) = true ∧
      (f.nanCode.any (· < f.signBit)) = true ∧ f.nanCode.getD 0 = (2 ^ (f.ebits + 1) - 1) * 2 ^ (f.fbits - 1) ∧ 4 ≤ f.fbits := by decide
  obtain ⟨max, inf, nan, canonical, wide⟩ := all f h
  simp only [Option.any_eq_true, decide_eq_true_eq] at inf nan
  exact ⟨max, inf, nan, canonical, wide⟩

/-- A magnitude with its sign has the bits of the format. -/
theorem withSign_lt {f : Fmt} (neg : Bool) {code : Nat} (h : code < f.signBit) : f.withSign neg code < 2 ^ (1 + f.ebits + f.fbits) := by
  have twice : 2 ^ (1 + f.ebits + f.fbits) = 2 * f.signBit := by rw [Fmt.signBit, Nat.add_assoc, Nat.pow_add, Nat.pow_one]
  unfold Fmt.withSign
  split <;> omega

section round

variable {f : Fmt} (full : FullFmt f)
include full

/-- So has the result of an overflow. -/
theorem overflow_lt (mode : RMode) (sat neg : Bool) : f.overflow mode sat neg < 2 ^ (1 + f.ebits + f.fbits) := by
  obtain ⟨i, hi, inf⟩ := full.inf
  simp only [Fmt.overflow, hi]
  split_ifs
  · exact withSign_lt neg full.max
  · exact withSign_lt neg inf

/-- A rounded result is a code of its format (00_scope R8). -/
theorem round_lt (mode : RMode) (sat : Bool) (x : FVal) : (f.round mode sat x).1 < 2 ^ (1 + f.ebits + f.fbits) := by
  obtain ⟨i, hi, inf⟩ := full.inf
  obtain ⟨n, hn, nan⟩ := full.nan
  have zero : 0 < f.signBit := Nat.two_pow_pos _
  cases x with
  | nan s =>
    simp only [Fmt.round, hn]
    exact withSign_lt false nan
  | inf neg =>
    simp only [Fmt.round, hi]
    split
    · exact withSign_lt neg full.max
    · exact withSign_lt neg inf
  | fin neg m e inexact =>
    unfold Fmt.round
    dsimp only
    split
    · exact withSign_lt neg zero
    · split
      · exact overflow_lt full mode sat neg
      · next within =>
        exact withSign_lt neg (lt_of_le_of_lt (Nat.not_lt.mp within) full.max)

end round

/-- The floating type of a configuration is a wide format of the element width (05_vector R135). -/
theorem floatType_width {c : BitVec 14} (h : (floatType c).isSome = true) :
    1 + ((floatType c).getD fmtF64).ebits + ((floatType c).getD fmtF64).fbits = vWidth c := by
  have width : vWidth c = 2 ^ (c.toNat % 8 + 1) := rfl
  unfold floatType at h ⊢
  rw [width]
  split at h
  · next code =>
    simp only [code, Option.getD_some]
    split <;> rfl
  · next code =>
    simp only [code]
    rfl
  · next code =>
    simp only [code]
    rfl
  · cases h

theorem fullFmt_floatType (c : BitVec 14) : FullFmt ((floatType c).getD fmtF64) := by
  refine fullFmt_wide ?_
  unfold floatType
  split
  · dsimp only [Option.getD_some]
    split <;> simp
  all_goals simp

/-- A result that is rounded to the floating type has the element width. -/
theorem vectorRound_lt {v : VView} (h : (floatType v.vcfg).isSome = true) (x : FVal × FFlags) : (vectorRound v x).1 < 2 ^ vWidth v.vcfg :=
  floatType_width h ▸ round_lt (fullFmt_floatType v.vcfg) v.frm false x.1

/-- An element-wise instruction at the plain width whose results have that width: F is what the model computes of an element. -/
theorem elementWise_of {a : VArith} {rd m : Nat} {rs : List Nat} {ok : BitVec 14 → Prop} {f : Core → VView → VEntry → Nat → Nat × FFlags}
    {F : VView → VEntry → Core → Nat → ElemRes} (dest : scalarDest a = none)
    (act : ∀ (v : VView) (e : VEntry), arithAct v e.op0 none e.op1 none a = v.plain rd m (F v e))
    (value : ∀ (x : Slot) (e : VEntry) (c : Core), CleanCore c → 2 ≤ vWidth e.vcfg → ok e.vcfg → ∀ i,
      F (VView.of x e) e c i = ⟨⟨(f c (VView.of x e) e i).1, none⟩, (f c (VView.of x e) e i).2⟩ ∧
      (f c (VView.of x e) e i).1 < 2 ^ vWidth e.vcfg) : ElementWise (.arith a) rd rs m ok f :=
  elementWise_plain dest act fun x e c clean _ two okc i => by
    obtain ⟨same, bound⟩ := value x e c clean two okc i
    rw [same]
    exact ⟨rfl, Nat.mod_eq_of_lt bound, rfl⟩

/-- A floating-point operation on two operands: y is the number that the second stands for. -/
theorem elementWise_flt2 {i : VArith} {d a m : Nat} {rs : List Nat} {f : Core → VView → VEntry → Nat → Nat × FFlags} (b : VEntry → VOpnd)
    (y : Core → VView → VEntry → Nat → Nat) {op : VView → Fmt → Nat → Nat → Nat × FFlags} (dest : scalarDest i = none)
    (act : ∀ (v : VView) (e : VEntry), arithAct v e.op0 none e.op1 none i = flt2 v d a m (b e) (op v))
    (operand : ∀ (x : Slot) (e : VEntry) (c : Core) (n : Nat), CleanCore c → c.opnd (VView.of x e) (b e) (vWidth e.vcfg) n =
      ⟨y c (VView.of x e) e n, none⟩)
    (value : ∀ (x : Slot) (e : VEntry) (c : Core) (n : Nat), (floatType e.vcfg).isSome = true →
      op (VView.of x e) (VView.of x e).fmt (c.elem (VView.of x e) a (vWidth e.vcfg) n).bits (y c (VView.of x e) e n) = f c (VView.of x e) e n ∧
      (f c (VView.of x e) e n).1 < 2 ^ vWidth e.vcfg) : ElementWise (.arith i) d rs m (fun c => (floatType c).isSome) f := by
  refine elementWise_of dest act fun x e c clean _ float n => ?_
  obtain ⟨same, bound⟩ := value x e c n float
  refine ⟨?_, bound⟩
  have first : (c.elem (VView.of x e) a (VView.of x e).w n).poison = none := elem_poison clean _ _ _ _
  have second : c.opnd (VView.of x e) (b e) (VView.of x e).w n = ⟨y c (VView.of x e) e n, none⟩ := operand x e c n clean
  dsimp only
  rw [second, lowerTag_clean first rfl, ← same]
  rfl

/-- VFMA and VFNMS. -/
theorem elementWise_flt3 {i : VArith} {d a m : Nat} {rs : List Nat} (b : VEntry → VOpnd) (y : Core → VView → VEntry → Nat → Nat) (neg : Bool)
    (dest : scalarDest i = none) (act : ∀ (v : VView) (e : VEntry), arithAct v e.op0 none e.op1 none i = flt3 v d a m (b e) neg)
    (operand : ∀ (x : Slot) (e : VEntry) (c : Core) (n : Nat), CleanCore c → c.opnd (VView.of x e) (b e) (vWidth e.vcfg) n =
      ⟨y c (VView.of x e) e n, none⟩) :
    ElementWise (.arith i) d rs m (fun c => (floatType c).isSome) fun c v e n =>
      vectorRound v (fFma v.frm (if neg then (elemValue c v a n).negate else elemValue c v a n) (v.fmt.decode (y c v e n)) (elemValue c v d n)) := by
  refine elementWise_of dest act fun x e c clean _ float n => ⟨?_, vectorRound_lt (v := VView.of x e) float _⟩
  have first : (c.elem (VView.of x e) a (VView.of x e).w n).poison = none := elem_poison clean _ _ _ _
  have second : c.opnd (VView.of x e) (b e) (VView.of x e).w n = ⟨y c (VView.of x e) e n, none⟩ := operand x e c n clean
  have third : (c.elem (VView.of x e) d (VView.of x e).w n).poison = none := elem_poison clean _ _ _ _
  dsimp only
  rw [second, lowerTag_clean third (lowerTag_clean first rfl)]
  rfl

/-- A floating-point operation on one operand. -/
theorem elementWise_flt1 {i : VArith} {d a m : Nat} {rs : List Nat} {f : VView → Nat → Nat × FFlags} {op : VView → Fmt → Nat → Nat × FFlags}
    (dest : scalarDest i = none) (act : ∀ (v : VView) (e : VEntry), arithAct v e.op0 none e.op1 none i = flt1 v d a m (op v))
    (value : ∀ (v : VView) (p : Nat), (floatType v.vcfg).isSome = true → op v v.fmt p = f v p ∧ (f v p).1 < 2 ^ vWidth v.vcfg) :
    ElementWise (.arith i) d rs m (fun c => (floatType c).isSome) fun c v _ n => f v (c.elem v a (vWidth v.vcfg) n).bits := by
  refine elementWise_of dest act fun x e c clean _ float n => ?_
  obtain ⟨same, bound⟩ := value (VView.of x e) (c.elem (VView.of x e) a (vWidth e.vcfg) n).bits float
  refine ⟨?_, bound⟩
  have first : (c.elem (VView.of x e) a (VView.of x e).w n).poison = none := elem_poison clean _ _ _ _
  dsimp only
  rw [first]
  exact congrArg (fun r : Nat × FFlags => (⟨⟨r.1, none⟩, r.2⟩ : ElemRes)) same

/-- The second operand of a ready instruction as an element of a group, and as the captured scalar. -/
theorem opnd_elem (x : Slot) (e : VEntry) (c : Core) (b n : Nat) (clean : CleanCore c) : c.opnd (VView.of x e) (.reg b) (vWidth e.vcfg) n =
    ⟨(c.elem (VView.of x e) b (vWidth (VView.of x e).vcfg) n).bits, none⟩ :=
  (opnd_reg clean _ _ _ _).trans (by rw [Nat.mod_eq_of_lt (elem_lt _ _ _ _ _)]; rfl)

/-- Both forms of a floating-point operation: op rounds the exact result g. -/
theorem vectorFloat_of {i : BitVec 5 → BitVec 5 → BitVec 5 → BitVec 3 → VArith} {j : BitVec 5 → BitVec 5 → BitVec 6 → BitVec 3 → VArith}
    {g : VView → FVal → FVal → FVal → FVal × FFlags} {op : VView → Fmt → Nat → Nat → Nat × FFlags}
    (rounds : ∀ (v : VView) (p q : Nat) (z : FVal), op v v.fmt p q = vectorRound v (g v (v.fmt.decode p) (v.fmt.decode q) z))
    (dest : ∀ d a b m, scalarDest (i d a b m) = none := by exact fun _ _ _ _ => rfl)
    (dest' : ∀ d a b m, scalarDest (j d a b m) = none := by exact fun _ _ _ _ => rfl)
    (act : ∀ d a b m (v : VView) (e : VEntry), arithAct v e.op0 none e.op1 none (i d a b m) =
      flt2 v d.toNat a.toNat m.toNat (.reg b.toNat) (op v) := by exact fun _ _ _ _ _ _ => rfl)
    (act' : ∀ d a b m (v : VView) (e : VEntry), arithAct v e.op0 none e.op1 none (j d a b m) =
      flt2 v d.toNat a.toNat m.toNat (.scalar e.op0 none) (op v) := by exact fun _ _ _ _ _ _ => rfl) : VectorFloat i j g where
  left d a b m := elementWise_flt2 (fun _ => .reg b.toNat) (fun c v _ n => (c.elem v b.toNat (vWidth v.vcfg) n).bits) (dest d a b m) (act d a b m)
    (fun x e c n clean => opnd_elem x e c _ n clean) fun x e _ _ float => ⟨rounds _ _ _ _, vectorRound_lt (v := VView.of x e) float _⟩
  right d a b m := elementWise_flt2 (fun e => .scalar e.op0 none) (fun _ v e _ => e.op0.toNat % 2 ^ vWidth v.vcfg) (dest' d a b m) (act' d a b m)
    (fun _ _ _ _ _ => rfl) fun x e _ _ float => ⟨rounds _ _ _ _, vectorRound_lt (v := VView.of x e) float _⟩

/-- Both forms of VFMA, and of VFNMS with the sign of the product changed. -/
theorem vectorFloat_vfma : VectorFloat .vfma .vfmaVs fun v x y z => fFma v.frm x y z where
  left _ _ b _ := elementWise_flt3 (fun _ => .reg b.toNat) (fun c v _ n => (c.elem v b.toNat (vWidth v.vcfg) n).bits) false rfl (fun _ _ => rfl)
    fun x e c n clean => opnd_elem x e c _ n clean
  right _ _ _ _ := elementWise_flt3 (fun e => .scalar e.op0 none) (fun _ v e _ => e.op0.toNat % 2 ^ vWidth v.vcfg) false rfl (fun _ _ => rfl)
    fun _ _ _ _ _ => rfl

theorem vectorFloat_vfnms : VectorFloat .vfnms .vfnmsVs fun v x y z => fFma v.frm x.negate y z where
  left _ _ b _ := elementWise_flt3 (fun _ => .reg b.toNat) (fun c v _ n => (c.elem v b.toNat (vWidth v.vcfg) n).bits) true rfl (fun _ _ => rfl)
    fun x e c n clean => opnd_elem x e c _ n clean
  right _ _ _ _ := elementWise_flt3 (fun e => .scalar e.op0 none) (fun _ v e _ => e.op0.toNat % 2 ^ vWidth v.vcfg) true rfl (fun _ _ => rfl)
    fun _ _ _ _ _ => rfl

/-- A minimum or maximum is one of its operands or the canonical NaN. -/
theorem fMinMax_lt {f : Fmt} (full : FullFmt f) (isMax : Bool) {p q : Nat} (hp : p < 2 ^ (1 + f.ebits + f.fbits))
    (hq : q < 2 ^ (1 + f.ebits + f.fbits)) : (fMinMax f isMax p q).1 < 2 ^ (1 + f.ebits + f.fbits) := by
  obtain ⟨n, hn, nan⟩ := full.nan
  simp only [fMinMax, hn, Option.getD_some]
  split
  · exact withSign_lt false nan
  · exact hq
  · exact hp
  · dsimp only
    split_ifs
    · exact hp
    · exact hq

/-- Minimum and maximum in the floating type of a view. -/
def viewPick (less : Bool) (v : VView) (p q : Nat) : Nat × FFlags := fMinMax ((floatType v.vcfg).getD fmtF64) (!less) p q

theorem picksOf_viewPick (less : Bool) (v : VView) (p q : Nat) : PicksOf ((floatType v.vcfg).getD fmtF64) less p q (viewPick less v p q) :=
  picksOf_fMinMax (fullFmt_floatType v.vcfg).canonical less p q

theorem viewPick_lt (less : Bool) {v : VView} (h : (floatType v.vcfg).isSome = true) {p q : Nat} (hp : p < 2 ^ vWidth v.vcfg)
    (hq : q < 2 ^ vWidth v.vcfg) : (viewPick less v p q).1 < 2 ^ vWidth v.vcfg := by
  have width := floatType_width h
  rw [← width] at hp hq ⊢
  exact fMinMax_lt (fullFmt_floatType v.vcfg) (!less) hp hq

/-- VFMIN and VFMAX of two groups, and of a group and a scalar. -/
theorem elementWise_pick (less : Bool) (d a b : BitVec 5) (m : BitVec 3) :
    ElementWise (.arith (if less then .vfmin d a b m else .vfmax d a b m)) d.toNat [a.toNat, b.toNat] m.toNat (fun c => (floatType c).isSome)
      fun c v _ n => viewPick less v (c.elem v a.toNat (vWidth v.vcfg) n).bits (c.elem v b.toNat (vWidth v.vcfg) n).bits :=
  elementWise_flt2 (fun _ => .reg b.toNat) (fun c v _ n => (c.elem v b.toNat (vWidth v.vcfg) n).bits) (op := fun _ f => fMinMax f (!less))
    (by cases less <;> rfl) (fun _ _ => by cases less <;> rfl) (fun x e c n clean => opnd_elem x e c _ n clean)
    fun x e c n float => ⟨rfl, viewPick_lt less (v := VView.of x e) float (elem_lt c _ _ _ _) (elem_lt c _ _ _ _)⟩

theorem elementWise_pickVs (less : Bool) (d a : BitVec 5) (x : BitVec 6) (m : BitVec 3) :
    ElementWise (.arith (if less then .vfminVs d a x m else .vfmaxVs d a x m)) d.toNat [a.toNat] m.toNat (fun c => (floatType c).isSome)
      fun c v e n => viewPick less v (c.elem v a.toNat (vWidth v.vcfg) n).bits (e.op0.toNat % 2 ^ vWidth v.vcfg) :=
  elementWise_flt2 (fun e => .scalar e.op0 none) (fun _ v e _ => e.op0.toNat % 2 ^ vWidth v.vcfg) (op := fun _ f => fMinMax f (!less))
    (by cases less <;> rfl) (fun _ _ => by cases less <;> rfl) (fun _ _ _ _ _ => rfl)
    fun x e c n float => ⟨rfl, viewPick_lt less (v := VView.of x e) float (elem_lt c _ _ _ _) (Nat.mod_lt _ (Nat.two_pow_pos _))⟩

/-- A rounded operation on one operand. -/
theorem elementWise_unary {i : VArith} {d a m : Nat} {rs : List Nat} {op : RMode → Fmt → Nat → Nat × FFlags} {g : FVal → FVal × FFlags}
    (dest : scalarDest i = none) (act : ∀ (v : VView) (e : VEntry), arithAct v e.op0 none e.op1 none i = flt1 v d a m (op v.frm))
    (rounds : ∀ (v : VView) (p : Nat), op v.frm v.fmt p = vectorRound v (g (v.fmt.decode p))) :
    ElementWise (.arith i) d rs m (fun c => (floatType c).isSome) fun c v _ n => vectorRound v (g (elemValue c v a n)) :=
  elementWise_flt1 (op := fun v => op v.frm) (f := fun v p => vectorRound v (g (v.fmt.decode p))) dest act
    fun v p float => ⟨rounds v p, vectorRound_lt float _⟩

/-- A number's fraction alone makes its magnitude when its exponent field is zero (02_numbers R27). -/
theorem decode_fin {f : Fmt} {code m : Nat} {neg inexact : Bool} {e : Int} (h : f.decode code = .fin neg m e inexact) :
    m < 2 ^ f.fbits ↔ code / 2 ^ f.fbits % 2 ^ f.ebits = 0 := by
  have field : code % f.signBit / 2 ^ f.fbits = code / 2 ^ f.fbits % 2 ^ f.ebits := by
    rw [Fmt.signBit, Nat.add_comm, Nat.pow_add, Nat.mod_mul_right_div_self]
  have frac : code % f.signBit % 2 ^ f.fbits < 2 ^ f.fbits := Nat.mod_lt _ (Nat.two_pow_pos _)
  unfold Fmt.decode at h
  dsimp only at h
  rw [field] at h
  split at h
  · split at h <;> cases h
  · split at h
    · cases h
    · split at h
      · next zero =>
        cases h
        exact ⟨fun _ => zero, fun _ => frac⟩
      · next normal =>
        cases h
        exact ⟨fun below => by omega, fun zero => absurd zero normal⟩

/-- The classes are the statement's (05_vector R135). -/
theorem fClass_eq (f : Fmt) (code : Nat) : fClass f code = floatClass f code := by
  unfold fClass floatClass
  cases value : f.decode code with
  | nan s => cases s <;> rfl
  | inf n => cases n <;> rfl
  | fin neg m e inexact => simp only [decode_fin value]

/-- A class is one of ten bits. -/
theorem floatClass_lt (f : Fmt) (code : Nat) : floatClass f code < 2 ^ 10 := by
  unfold floatClass
  split
  · decide
  · decide
  · decide
  · decide
  · split_ifs <;> decide

/-- VFCLASS. -/
theorem elementWise_vfclass (d a : BitVec 5) (m : BitVec 3) : ElementWise (.arith (.vfclass d a m)) d.toNat [a.toNat] m.toNat
    (fun c => (floatType c).isSome)
    fun c v _ n => (floatClass ((floatType v.vcfg).getD fmtF64) (c.elem v a.toNat (vWidth v.vcfg) n).bits, 0) := by
  refine elementWise_flt1 (op := fun _ f x => (fClass f x, 0)) (f := fun v p => (floatClass ((floatType v.vcfg).getD fmtF64) p, 0)) rfl (fun _ _ => rfl)
    fun v p float => ⟨congrArg (·, (0 : FFlags)) (fClass_eq _ p), lt_of_lt_of_le (floatClass_lt _ p) (Nat.pow_le_pow_right two_pos ?_)⟩
  have width := floatType_width float
  have wide : 10 ≤ 1 + ((floatType v.vcfg).getD fmtF64).ebits + ((floatType v.vcfg).getD fmtF64).fbits := by
    unfold floatType
    split
    · dsimp only [Option.getD_some]
      split <;> decide
    · decide
    · decide
    · decide
  omega

end Sys2Proof.Proofs

/-! VFCVT (05_vector R136; 02_numbers R34 to R36). -/

namespace Sys2Proof.Proofs

open Sys2Proof.Machine Sys2Proof.Laws

/-- The element format of a type that VFCVT converts to. -/
def convertFmt (t : Bool × Nat ⊕ Fmt) : EFmt :=
  match t with
  | .inl i => .int i.1 i.2
  | .inr f => .flt f

/-- Its code names it, its width is the type's, and a floating one is a wide format (03_encoding R67). -/
theorem convertTypes_spec {t : BitVec 5 × (Bool × Nat ⊕ Fmt)} (h : t ∈ convertTypes) : cvtFmt t.1.toNat = convertFmt t.2 ∧
    (∃ n ≤ 6, convertWidth t.2 = 2 ^ n) ∧ ∀ f, t.2 = .inr f → FullFmt f := by
  have all : ∀ t ∈ convertTypes, cvtFmt t.1.toNat = convertFmt t.2 ∧ (∃ n ≤ 6, convertWidth t.2 = 2 ^ n) ∧
      t.2.elim (fun _ => true) (fun f => decide (f ∈ [fmtBF16, fmtF16, fmtF32, fmtF64])) = true := by decide
  obtain ⟨name, width, wide⟩ := all t h
  refine ⟨name, width, fun f hf => fullFmt_wide ?_⟩
  rw [hf] at wide
  exact of_decide_eq_true wide

/-- The width of the element format. -/
theorem width_convertFmt (t : Bool × Nat ⊕ Fmt) : (convertFmt t).width = convertWidth t := by cases t <;> rfl

/-- The code of CVS in VCFG (05_vector R119). -/
theorem vCvs_eq (c : BitVec 14) : vCvs c = wbits (c.setWidth 64) 13 12 := by
  have := c.isLt
  simp only [vCvs, wbits, BitVec.toNat_setWidth]
  omega

/-- An integer of a type is clamped to itself, and its bits give its code back (02_numbers R37). -/
theorem clampInt_intValue (signed : Bool) (w x : Nat) : clampInt signed w (intValue signed w x) = intValue signed w x := by
  unfold clampInt intMin intMax intValue
  cases signed with
  | true =>
    have low := BitVec.le_toInt (BitVec.ofNat w x)
    have high := BitVec.toInt_lt (x := BitVec.ofNat w x)
    simp only [if_true, signedOf_eq_toInt]
    omega
  | false =>
    have below : x % 2 ^ w < 2 ^ w := Nat.mod_lt _ (Nat.two_pow_pos w)
    have high : ((x % 2 ^ w : Nat) : Int) < 2 ^ w := by exact_mod_cast below
    simp only [Bool.false_eq_true, if_false]
    omega

theorem intBits_intValue (signed : Bool) (w x : Nat) : intBits w (intValue signed w x) = x % 2 ^ w := by
  unfold intValue
  cases signed with
  | true => rw [if_pos rfl, signedOf_eq_toInt, ← toNat_ofInt_eq_intBits, BitVec.ofInt_toInt, BitVec.toNat_ofNat]
  | false =>
    rw [if_neg Bool.false_ne_true, ← toNat_ofInt_eq_intBits, BitVec.ofInt_natCast, BitVec.toNat_ofNat, Nat.mod_mod]

/-- The flag of a single value that is a signalling NaN. -/
theorem nv_eq (x : FVal) : x.nv = if x = .nan true then flagNV else 0 := by
  cases x with
  | nan s => cases s <;> rfl
  | inf n => rfl
  | fin n m e i => rfl

section source

variable {v : VView} {x : Nat}

/-- The integer that an element is read as, and the value that it has (05_vector R136). -/
def sourceInt (v : VView) (x : Nat) : Int := intValue (decide (vCvs v.vcfg = 1)) v.w x
def sourceValue (v : VView) (x : Nat) : FVal := if vCvs v.vcfg = 0 then v.fmt.decode x else .ofInt (sourceInt v x)

/-- A source that is no floating type is of integers. -/
theorem cvtSource_int (h : vCvs v.vcfg ≠ 0) : cvtSource v = .int (decide (vCvs v.vcfg = 1)) v.w := by
  unfold cvtSource
  split
  · next zero => exact absurd zero h
  · next one => rw [one]; rfl
  · next other => rw [decide_eq_false other]

theorem cvtSource_flt (h : vCvs v.vcfg = 0) : cvtSource v = .flt v.fmt := by simp only [cvtSource, h]

/-- The value of an element in the source's format is that. -/
theorem value_cvtSource : (cvtSource v).value x 127 false = sourceValue v x := by
  unfold sourceValue
  by_cases h : vCvs v.vcfg = 0
  · have wide : 4 ≤ v.fmt.fbits := (fullFmt_floatType v.vcfg).wide
    rw [if_pos h, cvtSource_flt h]
    simp only [EFmt.value, wide, decide_true, Bool.and_true]
    cases v.fmt.decode x <;> rfl
  · rw [if_neg h, cvtSource_int h]
    rfl

/-- What the model computes of an element under VFCVT. -/
def convertBits (v : VView) (dst : EFmt) (sat : Bool) (x : Nat) : Nat × FFlags :=
  if cvtSource v = dst ∧ (cvtSource v).isInt = false then dst.narrow v.frm sat ((cvtSource v).value x 127 false)
  else convertElem (cvtSource v) dst v.frm sat x

/-- From a floating type, or to one, a conversion narrows the value; the flag of a signalling NaN is among those of the format. -/
theorem convertBits_narrow {dst : EFmt} (sat : Bool) (h : vCvs v.vcfg = 0 ∨ dst.isInt = false) :
    convertBits v dst sat x = dst.narrow v.frm sat (sourceValue v x) := by
  unfold convertBits
  rw [value_cvtSource]
  split
  · rfl
  · next differ =>
    have apart : cvtSource v ≠ dst := fun same => by
      refine differ ⟨same, ?_⟩
      rcases h with zero | float
      · rw [cvtSource_flt zero]
        rfl
      · rw [same]
        exact float
    rw [← value_cvtSource]
    unfold convertElem
    rw [if_neg apart]
    split
    · next source =>
      rcases h with zero | float
      · rw [cvtSource_flt zero] at source
        cases source
      · cases float
    · rfl

/-- Among integers a conversion cuts, and with .sat clamps where the destination is not wider (log 89). -/
theorem convertBits_int (signed : Bool) (n : Nat) (sat : Bool) (h : vCvs v.vcfg ≠ 0) : convertBits v (.int signed n) sat x =
    (intBits n (if sat && decide (n ≤ v.w) then clampInt signed n (sourceInt v x) else sourceInt v x), 0) := by
  unfold convertBits convertElem
  rw [cvtSource_int h, if_neg fun both => by cases both.2]
  by_cases same : EFmt.int (decide (vCvs v.vcfg = 1)) v.w = .int signed n
  · rw [if_pos same]
    injection same with kind width
    rw [← kind, ← width, sourceInt, clampInt_intValue, ite_self, intBits_intValue]
    rfl
  · rw [if_neg same]
    rfl

/-- The conversions are the statement's. -/
theorem convertBits_eq (t : Bool × Nat ⊕ Fmt) (sat : Bool) : convertBits v (convertFmt t) sat x = converted v t sat x := by
  have int : sourceInt v x = if wbits (v.vcfg.setWidth 64) 13 12 = 1 then (BitVec.ofNat (vWidth v.vcfg) x).toInt
      else ((BitVec.ofNat (vWidth v.vcfg) x).toNat : Int) := by
    unfold sourceInt intValue
    rw [vCvs_eq, signedOf_eq_toInt, BitVec.toNat_ofNat]
    simp only [decide_eq_true_eq, VView.w]
  have value : sourceValue v x = if wbits (v.vcfg.setWidth 64) 13 12 = 0 then ((floatType v.vcfg).getD fmtF64).decode x
      else .ofInt (if wbits (v.vcfg.setWidth 64) 13 12 = 1 then (BitVec.ofNat (vWidth v.vcfg) x).toInt
        else ((BitVec.ofNat (vWidth v.vcfg) x).toNat : Int)) := by
    rw [sourceValue, int, vCvs_eq]
    rfl
  rcases t with ⟨signed, n⟩ | f
  · unfold converted
    dsimp only
    rw [← vCvs_eq] at int ⊢
    by_cases zero : vCvs v.vcfg = 0
    · rw [if_pos zero, if_pos zero, convertFmt, convertBits_narrow sat (.inl zero), sourceValue, if_pos zero]
      rfl
    · rw [if_neg zero, convertFmt, convertBits_int signed n sat zero, toNat_ofInt_eq_intBits, int]
      rfl
  · rw [convertFmt, convertBits_narrow sat (.inr rfl)]
    unfold converted
    dsimp only
    rw [← value]
    exact congrArg (fun fl => ((f.round v.frm sat (sourceValue v x)).1, (f.round v.frm sat (sourceValue v x)).2 ||| fl)) (nv_eq _)

/-- An integer result has the width of its type. -/
theorem toInteger_lt (mode : RMode) (signed : Bool) (n : Nat) (y : FVal) : (toInteger mode signed n y).1 < 2 ^ n := by
  have bits (z : Int) : intBits n z < 2 ^ n := toNat_ofInt_eq_intBits n z ▸ BitVec.isLt _
  unfold toInteger
  split
  · exact Nat.two_pow_pos n
  · exact bits _
  · dsimp only
    split
    · exact bits _
    · exact bits _

/-- A converted element has the width of the type. -/
theorem converted_lt {t : Bool × Nat ⊕ Fmt} (full : ∀ f, t = .inr f → FullFmt f) (sat : Bool) : (converted v t sat x).1 < 2 ^ convertWidth t := by
  rcases t with ⟨signed, n⟩ | f
  · unfold converted
    dsimp only
    split
    · exact toInteger_lt _ _ _ _
    · exact BitVec.isLt _
  · exact round_lt (full f rfl) v.frm sat _

end source

/-- The registers of VFCVT's destination hold VLMAX elements of the source's width (05_vector R136). -/
theorem convert_size (vlen : Nat) {g w wd : Nat} (hg : ∃ i, g = 2 ^ i) (hw : ∃ i, w = 2 ^ i) (hd : ∃ i, wd = 2 ^ i) :
    vlen * g / w ≤ vlen * max 1 (g * wd / w) / wd := by
  obtain ⟨i, rfl⟩ := hg
  obtain ⟨j, rfl⟩ := hw
  obtain ⟨l, rfl⟩ := hd
  have enough : 2 ^ i * 2 ^ l ≤ max 1 (2 ^ i * 2 ^ l / 2 ^ j) * 2 ^ j := by
    rw [← Nat.pow_add]
    by_cases fits : j ≤ i + l
    · rw [Nat.pow_div fits two_pos]
      calc 2 ^ (i + l) = 2 ^ (i + l - j) * 2 ^ j := by rw [← Nat.pow_add]; congr 1; omega
        _ ≤ _ := Nat.mul_le_mul_right _ (le_max_right _ _)
    · calc 2 ^ (i + l) ≤ 1 * 2 ^ j := by rw [Nat.one_mul]; exact Nat.pow_le_pow_right two_pos (by omega)
        _ ≤ _ := Nat.mul_le_mul_right _ (le_max_left _ _)
  rw [Nat.le_div_iff_mul_le (Nat.two_pow_pos l)]
  refine Nat.le_of_mul_le_mul_right ?_ (Nat.two_pow_pos j)
  calc vlen * 2 ^ i / 2 ^ j * 2 ^ l * 2 ^ j = vlen * 2 ^ i / 2 ^ j * 2 ^ j * 2 ^ l := Nat.mul_right_comm _ _ _
    _ ≤ vlen * 2 ^ i * 2 ^ l := Nat.mul_le_mul_right _ (Nat.div_mul_le_self _ _)
    _ = vlen * (2 ^ i * 2 ^ l) := Nat.mul_assoc _ _ _
    _ ≤ vlen * (max 1 (2 ^ i * 2 ^ l / 2 ^ j) * 2 ^ j) := Nat.mul_le_mul_left _ enough
    _ = _ := (Nat.mul_assoc _ _ _).symm

/-- What the model computes of an element of a core under VFCVT. -/
def convertRes (v : VView) (dst : EFmt) (sat : Bool) (a : Nat) (c : Core) (n : Nat) : ElemRes :=
  match (c.elem v a v.w n).poison with
  | some p => ⟨⟨0, some p⟩, 0⟩
  | none => ⟨⟨(convertBits v dst sat (c.elem v a v.w n).bits).1, none⟩, (convertBits v dst sat (c.elem v a v.w n).bits).2⟩

theorem convertRes_clean {c : Core} (clean : CleanCore c) (v : VView) (dst : EFmt) (sat : Bool) (a n : Nat) : convertRes v dst sat a c n =
    ⟨⟨(convertBits v dst sat (c.elem v a v.w n).bits).1, none⟩, (convertBits v dst sat (c.elem v a v.w n).bits).2⟩ := by
  rw [convertRes, elem_poison clean]

/-- VFCVT, with and without .sat. -/
theorem convertElements_of {t : BitVec 5 × (Bool × Nat ⊕ Fmt)} (ht : t ∈ convertTypes) (sat : Bool) (d a : BitVec 5) (m : BitVec 3) {i : VArith}
    {ok : BitVec 14 → Prop} (dest : scalarDest i = none)
    (act : ∀ (v : VView) (e : VEntry), arithAct v e.op0 none e.op1 none i = fltCvt v d.toNat a.toNat t.1.toNat m.toNat sat) :
    ConvertElements (.arith i) d.toNat a.toNat m.toNat (convertWidth t.2) ok
      fun c v _ n => converted v t.2 sat (c.elem v a.toNat (vWidth v.vcfg) n).bits := by
  intro s k q e h _ _ g _ _ low _ c v
  obtain ⟨name, ⟨p, hp, wd⟩, full⟩ := convertTypes_spec ht
  obtain ⟨width, two, top⟩ := ready_width h
  obtain ⟨pw, -, w⟩ := width_code h.width
  obtain ⟨-, -, -, vl⟩ := h.captured
  have dstWidth : (cvtFmt t.1.toNat).width = convertWidth t.2 := by rw [name, width_convertFmt]
  have dstOk : WidthOk (convertWidth t.2) := wd ▸ widthOk_pow hp
  have dstTop : convertWidth t.2 ≤ 64 := wd ▸ Nat.pow_le_pow_right two_pos hp
  have size : v.size (cvtGroup v.vcfg t.1.toNat) (cvtFmt t.1.toNat).width = v.size g (convertWidth t.2) := by
    rw [cvtGroup, dstWidth]
    rfl
  have room : e.vl ≤ v.size g (convertWidth t.2) :=
    vl.trans (min_le_min_right _ (convert_size (s.slot q).vlen ⟨_, rfl⟩ ⟨_, w⟩ ⟨_, wd⟩))
  have act' : arithAct v e.op0 none e.op1 none i = .elems (max v.w (convertWidth t.2)) (.reg d.toNat (convertWidth t.2)) (v.size g (convertWidth t.2))
      m.toNat false (convertRes v (cvtFmt t.1.toNat) sat a.toNat) := by
    rw [act, ← size, ← dstWidth]
    rfl
  refine elems_beat h (ready_row h dest) (ready_act h act') (regFits (ready_vlen h) dstOk (show d.toNat + g ≤ 40 by omega) le_rfl)
    (placedIn_reg v dstOk.2 (show d.toNat + g ≤ 40 by omega) rfl) room
    (Nat.div_pos (show max (vWidth e.vcfg) (convertWidth t.2) ≤ 2048 by omega) (lt_of_lt_of_le dstOk.2 (le_max_right _ _)))
    (f := fun n => converted v t.2 sat (c.elem v a.toNat (vWidth v.vcfg) n).bits) fun n => ?_
  rw [convertRes_clean h.clean, name, convertBits_eq]
  exact ⟨rfl, Nat.mod_eq_of_lt (converted_lt full sat), rfl⟩

end Sys2Proof.Proofs

namespace Sys2Proof.Settled

open Sys2Proof.Machine Sys2Proof.Proofs

/-- Settles O28: each operation rounds its exact result, minimum and maximum pick by the order of the extended numbers, and conversions narrow the
value of an element or cut an integer. -/
theorem vectorFloatElements : Obligations.VectorFloatElements := by
  refine ⟨vectorFloat_of (op := fun v => fltAdd v.frm) fun _ _ _ _ => rfl, vectorFloat_of (op := fun v => fltSub v.frm) fun _ _ _ _ => rfl,
    vectorFloat_of (op := fun v => fltMul v.frm) fun _ _ _ _ => rfl, vectorFloat_of (op := fun v => fltDiv v.frm) fun _ _ _ _ => rfl,
    vectorFloat_vfma, vectorFloat_vfnms, fun d a m => ⟨fun b x less => ?pick, ?sqrt, ?rec, ?rsqrt, ?exp2, elementWise_vfclass d a m,
      fun t ht sat => ?convert⟩⟩
  case pick => exact ⟨viewPick less, picksOf_viewPick less, elementWise_pick less d a b m, elementWise_pickVs less d a x m⟩
  case sqrt => exact elementWise_unary (op := fltSqrt) rfl (fun _ _ => rfl) fun _ _ => rfl
  case rec => exact elementWise_unary (op := fltRec) rfl (fun _ _ => rfl) fun _ _ => rfl
  case rsqrt => exact elementWise_unary (op := fltRsqrt) rfl (fun _ _ => rfl) fun _ _ => rfl
  case exp2 => exact elementWise_unary (op := fltExp2) rfl (fun _ _ => rfl) fun _ _ => rfl
  case convert =>
    exact convertElements_of ht sat d a m (by cases sat <;> rfl) fun _ _ => by cases sat <;> rfl

end Sys2Proof.Settled

/-! Cross-element instructions (05_vector R139, R140, R142): what they write to a group in one piece. -/

namespace Sys2Proof.Proofs

open Sys2Proof.Machine Sys2Proof.Laws

/-- An instruction that writes a group in one piece, from P on: g gives the new bits of the elements up to VL (05_vector R130). -/
theorem wholeWith_reg {i : VArith} {d : Nat} {again : Bool} {rs : List Nat} {ok : BitVec 14 → Prop} {val : Core → VView → VEntry → Nat → Option Nat}
    {fl : Core → VView → VEntry → FFlags} {F : VView → VEntry → Core → Core × FFlags × Option (Word × Option PTag)} (dest : scalarDest i = none)
    (act : ∀ (v : VView) (e : VEntry), arithAct v e.op0 none e.op1 none i = .whole (F v e))
    (value : ∀ (x : Slot) (e : VEntry) (c : Core), CleanCore c → ok e.vcfg → e.p < e.vl → e.vl ≤ 8192 → (again = true → e.p = 0) →
      e.vl ≤ (VView.of x e).size (2 ^ vGroup e.vcfg) (vWidth e.vcfg) →
      ∃ g, F (VView.of x e) e c = ((writeFrom (VView.of x e) (.reg d (vWidth e.vcfg)) g (e.vl - e.p) e.p c).tail (VView.of x e) (.reg d (vWidth e.vcfg))
          ((VView.of x e).size (2 ^ vGroup e.vcfg) (vWidth e.vcfg)), fl c (VView.of x e) e, none) ∧
        ∀ n, e.p ≤ n → n < e.vl → (g n).map (· % 2 ^ vWidth e.vcfg) = val c (VView.of x e) e n)
    (group : d ∈ rs) : WholeWith ok (.arith i) (.reg d 0) again rs val fl := by
  intro s k q e h okc placed again_
  obtain ⟨width, -, -⟩ := ready_width h
  obtain ⟨-, low⟩ := placed d group
  obtain ⟨-, -, below, vl⟩ := h.captured
  have top : e.vl ≤ 8192 := by
    have half : e.vl ≤ (s.slot q).vlen / 2 := vl.trans (min_le_right _ _)
    have len := ready_vlen h
    simp only [VlenOk, VView.of] at len
    omega
  obtain ⟨g, run, values⟩ := value (s.slot q) e (s.core k) h.clean okc below top again_ vl
  have step := step_whole (regFits (ready_vlen h) width (show d + 2 ^ vGroup e.vcfg ≤ 40 by omega) le_rfl) h.clean below vl run
  have beat := beatDone_of_step h (ready_row h dest) (ready_act h (act _ e))
    (placedIn_reg (VView.of (s.slot q) e) width.2 (show d + 2 ^ vGroup e.vcfg ≤ 40 by omega) (plain_group width.2)) step values
  exact beat

/-- A cross-element instruction (05_vector R140): f gives the elements that it writes. -/
theorem whole_cross {i : VArith} {d : Nat} {again : Bool} {rs : List Nat} {val : Core → VView → VEntry → Nat → Option Nat} {lo : VView → Nat}
    {brk : VView → Core → List (Nat × PTag)} {f : VView → VEntry → Core → Nat → Option Elem} (dest : scalarDest i = none)
    (act : ∀ (v : VView) (e : VEntry), arithAct v e.op0 none e.op1 none i = cross v d (lo v) (brk v) (f v e))
    (unbroken : ∀ (v : VView) (c : Core), CleanCore c → brk v c = []) (start : ∀ v : VView, (again = true → v.p = 0) → lo v = v.p)
    (value : ∀ (x : Slot) (e : VEntry) (c : Core), CleanCore c → ∀ n, (∀ y ∈ f (VView.of x e) e c n, y.poison = none) ∧
      (f (VView.of x e) e c n).map (·.bits % 2 ^ vWidth e.vcfg) = val c (VView.of x e) e n) (group : d ∈ rs) :
    Whole (.arith i) (.reg d 0) again rs val := by
  refine wholeWith_reg dest act (fun x e c clean _ below _ again_ _ => ⟨fun n => (f (VView.of x e) e c n).map Elem.bits, ?_, fun n _ _ => ?_⟩) group
  · have first : lo (VView.of x e) = e.p := start _ again_
    rw [first, if_neg (Nat.not_le.mpr (show e.p < (VView.of x e).vl from below)), unbroken _ c clean,
      crossRun_eq _ _ _ fun n => (value x e c clean n).1]
    rfl
  · rw [Option.map_map]
    exact (value x e c clean n).2

section governed

variable {c : Core} (clean : CleanCore c)
include clean

/-- What a mask governs in a clean core (05_vector R126). -/
theorem governed_clean (v : VView) (m i : Nat) (sel : Option PTag) (e : Option Elem) :
    governed c v m i sel e = if c.active v m i then e else v.inactive := by
  unfold governed Core.active
  by_cases h : m = 0
  · simp [h]
  · simp [h, maskBit_poison clean]

end governed

/-- An active position takes its element, an inactive one zero under MP. -/
theorem masked_elem {c : Core} {v : VView} {m i w : Nat} {e : Option Elem} {F : Nat → Nat}
    (he : c.active v m i = true → e.map (·.bits % 2 ^ w) = some (F i)) :
    (if c.active v m i then e else v.inactive).map (·.bits % 2 ^ w) = maskedValue c v m F i := by
  unfold maskedValue VView.inactive VView.mp
  by_cases on : c.active v m i = true
  · rw [if_pos on, if_pos on, he on]
  · rw [if_neg on, if_neg on]
    split
    · exact congrArg some (Nat.zero_mod _)
    · rfl

/-- Neither is poisoned. -/
theorem masked_clean {on : Bool} {v : VView} {e : Option Elem} (he : ∀ y ∈ e, y.poison = none) :
    ∀ y ∈ if on then e else v.inactive, y.poison = none := by
  intro y hy
  cases on with
  | true => exact he y hy
  | false =>
    simp only [VView.inactive, Bool.false_eq_true, if_false] at hy
    split at hy
    · cases hy
      rfl
    · cases hy

/-- An element of a group, and a zero, as they stand in a clean core. -/
theorem elem_spec {c : Core} (clean : CleanCore c) (v : VView) (r w i : Nat) :
    (∀ y ∈ some (c.elem v r w i), y.poison = none) ∧ (some (c.elem v r w i)).map (·.bits % 2 ^ w) = some (c.elem v r w i).bits := by
  refine ⟨fun y hy => ?_, congrArg some (Nat.mod_eq_of_lt (elem_lt c v r w i))⟩
  cases hy
  exact elem_poison clean _ _ _ _

theorem zero_spec (w : Nat) : (∀ y ∈ some (⟨0, none⟩ : Elem), y.poison = none) ∧ (some (⟨0, none⟩ : Elem)).map (·.bits % 2 ^ w) = some 0 := by
  refine ⟨fun y hy => ?_, congrArg some (Nat.zero_mod _)⟩
  cases hy
  rfl

/-- The element that a condition picks, or a zero. -/
theorem picked_spec {c : Core} (clean : CleanCore c) (v : VView) (r w i : Nat) (p : Prop) [Decidable p] :
    (∀ y ∈ if p then some (c.elem v r w i) else some ⟨0, none⟩, y.poison = none) ∧
      (if p then some (c.elem v r w i) else some ⟨0, none⟩).map (·.bits % 2 ^ w) = some (if p then (c.elem v r w i).bits else 0) := by
  by_cases h : p
  · simp only [if_pos h]
    exact elem_spec clean v r w i
  · simp only [if_neg h]
    exact zero_spec w

/-- VBCAST and MTOV (05_vector R139, R140). -/
theorem elementWise_vbcast (d x : BitVec 5) (m : BitVec 3) : ElementWise (.arith (.vbcast d x m)) d.toNat [] m.toNat (fun _ => True)
    fun _ _ e _ => (e.op0.toNat % 2 ^ vWidth e.vcfg, 0) :=
  elementWise_of rfl (fun _ _ => rfl) fun _ _ _ _ _ _ _ => ⟨rfl, Nat.mod_lt _ (Nat.two_pow_pos _)⟩

theorem elementWise_mtov (d : BitVec 5) (y m : BitVec 3) : ElementWise (.arith (.mtov d y m)) d.toNat [] m.toNat (fun _ => True)
    fun c v _ n => ((c.maskBit v y.toNat n).bits, 0) := by
  refine elementWise_of rfl (fun _ _ => rfl) fun x e c clean two _ n => ⟨?_, ?_⟩
  · exact congrArg (fun p => (⟨⟨(c.maskBit (VView.of x e) y.toNat n).bits, p⟩, 0⟩ : ElemRes)) (maskBit_poison clean _ _ _)
  · calc (c.maskBit (VView.of x e) y.toNat n).bits < 2 ^ 1 := maskBit_lt c _ _ n
      _ ≤ 2 ^ vWidth e.vcfg := Nat.pow_le_pow_right two_pos (by omega)

/-- VEXTR (05_vector R140). -/
theorem writesScalar_vextr (y a x : BitVec 5) : WritesScalar (.arith (.vextr y a x)) y.toNat [a.toNat] fun c v e =>
    if e.op0.toNat < v.vl then BitVec.ofNat 64 (c.elem v a.toNat (vWidth v.vcfg) e.op0.toNat).bits else 0 := by
  refine writesScalar_of rfl y.isLt (fun _ _ => rfl) fun x e c clean below => ?_
  rw [if_neg (Nat.not_le.mpr (show (VView.of x e).p < (VView.of x e).vl from below))]
  by_cases inside : e.op0.toNat < (VView.of x e).vl
  · simp only [if_pos inside, elem_poison clean]
    rfl
  · simp only [if_neg inside]

section permutations

variable (d a b x : BitVec 5) (m : BitVec 3)

/-- VSLUP. -/
theorem whole_vslup : Whole (.arith (.vslup d a x m)) (.reg d.toNat 0) true [d.toNat, a.toNat] fun c v e n =>
    if e.op0.toNat ≤ n then maskedValue c v m.toNat (fun i => (c.elem v a.toNat (vWidth v.vcfg) (i - e.op0.toNat)).bits) n
    else if c.active v m.toNat n then none else maskedValue c v m.toNat (fun _ => 0) n := by
  refine whole_cross (lo := fun _ => 0) rfl (fun _ _ => rfl) (fun _ _ _ => rfl) (fun _ h => (h rfl).symm) (fun x e c clean n => ?_) List.mem_cons_self
  dsimp only
  rw [governed_clean clean]
  by_cases low : e.op0.toNat ≤ n
  · simp only [if_pos low]
    obtain ⟨pure, bits⟩ := elem_spec clean (VView.of x e) a.toNat (vWidth e.vcfg) (n - e.op0.toNat)
    exact ⟨masked_clean pure, masked_elem fun _ => bits⟩
  · simp only [if_neg low]
    refine ⟨masked_clean fun y hy => (by cases hy), ?_⟩
    by_cases on : c.active (VView.of x e) m.toNat n = true
    · simp only [if_pos on]
      rfl
    · simp only [if_neg on]
      have skipped := masked_elem (c := c) (v := VView.of x e) (m := m.toNat) (i := n) (w := vWidth e.vcfg) (e := none) (F := fun _ => 0)
        fun h => absurd h on
      rwa [if_neg on] at skipped

/-- VSLDN. -/
theorem whole_vsldn : Whole (.arith (.vsldn d a x m)) (.reg d.toNat 0) true [d.toNat, a.toNat] fun c v e =>
    maskedValue c v m.toNat fun i => if i + e.op0.toNat < v.vl then (c.elem v a.toNat (vWidth v.vcfg) (i + e.op0.toNat)).bits else 0 := by
  refine whole_cross (lo := fun _ => 0) rfl (fun _ _ => rfl) (fun _ _ _ => rfl) (fun _ h => (h rfl).symm) (fun x e c clean n => ?_) List.mem_cons_self
  dsimp only
  rw [governed_clean clean]
  obtain ⟨pure, bits⟩ := picked_spec clean (VView.of x e) a.toNat (vWidth e.vcfg) (n + e.op0.toNat) (n + e.op0.toNat < e.vl)
  exact ⟨masked_clean pure, masked_elem fun _ => bits⟩

/-- VPERM. -/
theorem whole_vperm : Whole (.arith (.vperm d a b m)) (.reg d.toNat 0) false [d.toNat, a.toNat, b.toNat] fun c v _ =>
    maskedValue c v m.toNat fun i => if (c.elem v b.toNat (vWidth v.vcfg) i).bits < v.vl
      then (c.elem v a.toNat (vWidth v.vcfg) (c.elem v b.toNat (vWidth v.vcfg) i).bits).bits else 0 := by
  refine whole_cross (lo := fun v => v.p) rfl (fun _ _ => rfl) (fun _ _ _ => rfl) (fun _ _ => rfl) (fun x e c clean n => ?_) List.mem_cons_self
  have index : (c.elem (VView.of x e) b.toNat (VView.of x e).w n).poison = none := elem_poison clean _ _ _ _
  dsimp only
  rw [governed_clean clean, index]
  obtain ⟨pure, bits⟩ := picked_spec clean (VView.of x e) a.toNat (vWidth e.vcfg) (c.elem (VView.of x e) b.toNat (vWidth e.vcfg) n).bits
    ((c.elem (VView.of x e) b.toNat (vWidth e.vcfg) n).bits < e.vl)
  exact ⟨masked_clean pure, masked_elem fun _ => bits⟩

/-- VEXPD. -/
theorem whole_vexpd : Whole (.arith (.vexpd d a m)) (.reg d.toNat 0) true [d.toNat, a.toNat] fun c v _ =>
    maskedValue c v m.toNat fun i => (c.elem v a.toNat (vWidth v.vcfg) ((List.range i).filter fun j => c.active v m.toNat j).length).bits := by
  refine whole_cross (lo := fun _ => 0) rfl (fun _ _ => rfl) (fun v c clean => maskBreaks_clean clean v _) (fun _ h => (h rfl).symm)
    (fun x e c clean n => ?_) List.mem_cons_self
  obtain ⟨pure, bits⟩ := elem_spec clean (VView.of x e) a.toNat (vWidth e.vcfg)
    ((List.range n).filter fun j => c.active (VView.of x e) m.toNat j).length
  exact ⟨masked_clean pure, masked_elem fun _ => bits⟩

/-- VIOTA. -/
theorem whole_viota (y : BitVec 3) : Whole (.arith (.viota d y m)) (.reg d.toNat 0) false [d.toNat] fun c v _ =>
    maskedValue c v m.toNat fun i => (((List.range i).filter fun j => c.active v m.toNat j).countP fun j => (c.maskBit v y.toNat j).bits == 1) %
      2 ^ vWidth v.vcfg := by
  refine whole_cross (lo := fun v => v.p) rfl (fun _ _ => rfl) (fun v c clean => maskBreaks_clean clean v _) (fun _ _ => rfl)
    (fun x e c clean n => ?_) List.mem_cons_self
  dsimp only
  rw [foldl_lowerTag_clean fun j => maskBit_poison clean (VView.of x e) y.toNat j, ← List.countP_eq_length_filter]
  refine ⟨masked_clean fun y hy => (by cases hy; rfl), masked_elem fun _ => congrArg some (Nat.mod_mod _ _)⟩

end permutations

/-- What VCOMP writes past the active elements, and a reduction past its result: zeros under TP (05_vector R140, R141). -/
def tailed (v : VView) : Option Nat := if v.vcfg.getLsbD 5 then some 0 else none

/-- The element that VCOMP writes at an index. -/
def compElem (c : Core) (v : VView) (a m i : Nat) : Option Elem :=
  match (c.actives v m)[i]? with
  | some j => some (c.elem v a v.w j)
  | none => if v.tp then some ⟨0, none⟩ else none

theorem compElem_spec {c : Core} (clean : CleanCore c) (v : VView) (a m i : Nat) : (∀ y ∈ compElem c v a m i, y.poison = none) ∧
    (compElem c v a m i).map (·.bits % 2 ^ v.w) = match (c.actives v m)[i]? with
      | some j => some (c.elem v a v.w j).bits
      | none => tailed v := by
  unfold compElem tailed VView.tp
  split
  · exact elem_spec clean _ _ _ _
  · by_cases tp : v.vcfg.getLsbD 5 = true
    · simp only [if_pos tp]
      exact zero_spec _
    · simp only [if_neg tp]
      exact ⟨fun y hy => (by cases hy), rfl⟩

/-- VCOMP. -/
theorem whole_vcomp (d a : BitVec 5) (m : BitVec 3) : Whole (.arith (.vcomp d a m)) (.reg d.toNat 0) true [d.toNat, a.toNat] fun c v _ i =>
    match ((List.range v.vl).filter fun i => c.active v m.toNat i)[i]? with
    | some j => some (c.elem v a.toNat (vWidth v.vcfg) j).bits
    | none => tailed v := by
  refine wholeWith_reg (F := fun v _ c => if v.vl = 0 then (c, 0, none) else
      ((crossRun c v (.reg d.toNat v.w) ((c.maskBreaks v m.toNat).map fun b => (((c.actives v m.toNat).filter fun i => decide (i < b.1)).length, b.2))
        (compElem c v a.toNat m.toNat) v.vl 0 c).tail v (.reg d.toNat v.w) (v.size (2 ^ v.g) v.w), 0, none)) rfl (fun _ _ => rfl)
    (fun x e c clean _ below _ again_ _ => ⟨fun n => (compElem c (VView.of x e) a.toNat m.toNat n).map Elem.bits, ?_, fun n _ _ => ?_⟩)
    List.mem_cons_self
  · have first : e.p = 0 := again_ rfl
    have some_ : (VView.of x e).vl ≠ 0 := Nat.ne_of_gt (show 0 < e.vl by omega)
    rw [if_neg some_, maskBreaks_clean clean, List.map_nil, crossRun_eq _ _ _ fun n => (compElem_spec clean _ _ _ n).1, first]
    rfl
  · rw [Option.map_map]
    exact (compElem_spec clean _ _ _ n).2

/-- VSCAN's sum of the active elements below an index, cut to the element width (05_vector R142). -/
def scanSum (c : Core) (v : VView) (a m i : Nat) : Nat :=
  ((((List.range i).filter fun j => c.active v m j)).map fun j => (c.elem v a v.w j).bits).sum % 2 ^ v.w

/-- One more element enters the sum where it is active. -/
theorem scanSum_succ (c : Core) (v : VView) (a m i : Nat) : scanSum c v a m (i + 1) =
    if c.active v m i then (scanSum c v a m i + (c.elem v a v.w i).bits) % 2 ^ v.w else scanSum c v a m i := by
  unfold scanSum
  rw [List.range_succ, List.filter_append]
  by_cases on : c.active v m i = true
  · simp [on]
  · simp [on]

/-- One step of VSCAN. -/
def scanStep (c : Core) (v : VView) (d a m : Nat) (brk : List (Nat × PTag)) (st : Core × Nat × Option PTag) (i : Nat) : Core × Nat × Option PTag :=
  let e : Option Elem × Nat × Option PTag :=
    if c.active v m i then
      let x := c.elem v a v.w i
      let s := (st.2.1 + x.bits) % 2 ^ v.w
      let p := lowerTag st.2.2 x.poison
      (some ⟨s, p⟩, s, p)
    else (v.inactive, st.2.1, st.2.2)
  let w := match breakAt brk i with
    | some t => some (⟨0, lowerTag (some t) (e.1.bind Elem.poison)⟩ : Elem)
    | none => e.1
  ((match w with | some y => st.1.putElem v d v.w i y | none => st.1), e.2.1, e.2.2)

/-- In a clean core it writes a sum, or what MP has of an inactive position. -/
theorem scanStep_clean {c : Core} (clean : CleanCore c) (v : VView) (d a m : Nat) (c' : Core) (i : Nat) :
    scanStep c v d a m [] (c', scanSum c v a m i, none) i =
      ((match maskedValue c v m (fun i => scanSum c v a m (i + 1)) i with
        | some x => c'.putDst v (.reg d v.w) i ⟨x, none⟩
        | none => c'), scanSum c v a m (i + 1), none) := by
  have tag : lowerTag none (c.elem v a v.w i).poison = none := lowerTag_clean rfl (elem_poison clean _ _ _ _)
  unfold scanStep maskedValue VView.inactive VView.mp
  by_cases on : c.active v m i = true
  · simp only [if_pos on, scanSum_succ, tag]
    rfl
  · simp only [if_neg on, scanSum_succ]
    by_cases mp : v.vcfg.getLsbD 6 = true
    · simp only [if_pos mp]
      rfl
    · simp only [if_neg mp]
      rfl

/-- VSCAN writes the sums in order. -/
theorem foldl_scanStep {c : Core} (clean : CleanCore c) (v : VView) (d a m : Nat) (n : Nat) :
    (List.range n).foldl (scanStep c v d a m []) (c, 0, none) =
    (writeFrom v (.reg d v.w) (maskedValue c v m fun i => scanSum c v a m (i + 1)) n 0 c, scanSum c v a m n, none) := by
  induction n with
  | zero => simp [writeFrom, scanSum]
  | succ n ih =>
    rw [List.range_succ, List.foldl_append, ih, writeFrom_add, List.foldl_cons, List.foldl_nil, Nat.zero_add, writeFrom, writeFrom]
    exact scanStep_clean clean v d a m _ n

/-- VSCAN. -/
theorem whole_vscan (d a : BitVec 5) (m : BitVec 3) : Whole (.arith (.vscan d a m)) (.reg d.toNat 0) true [d.toNat, a.toNat] fun c v _ =>
    maskedValue c v m.toNat fun i => ((((List.range (i + 1)).filter fun j => c.active v m.toNat j)).map
      fun j => (c.elem v a.toNat (vWidth v.vcfg) j).bits).sum % 2 ^ vWidth v.vcfg := by
  refine wholeWith_reg (F := fun v _ c => if v.vl = 0 then (c, 0, none) else
      (((List.range v.vl).foldl (scanStep c v d.toNat a.toNat m.toNat (c.maskBreaks v m.toNat)) (c, 0, none)).1.tail v (.reg d.toNat v.w)
        (v.size (2 ^ v.g) v.w), 0, none)) rfl (fun _ _ => rfl)
    (fun x e c clean _ below _ again_ _ => ⟨maskedValue c (VView.of x e) m.toNat fun i => scanSum c (VView.of x e) a.toNat m.toNat (i + 1), ?_,
      fun n _ _ => ?_⟩) List.mem_cons_self
  · have first : e.p = 0 := again_ rfl
    have some_ : (VView.of x e).vl ≠ 0 := Nat.ne_of_gt (show 0 < e.vl by omega)
    rw [if_neg some_, maskBreaks_clean clean, foldl_scanStep clean, first]
    rfl
  · unfold maskedValue
    by_cases on : c.active (VView.of x e) m.toNat n = true
    · rw [if_pos on, if_pos on]
      exact congrArg some (Nat.mod_mod _ _)
    · rw [if_neg on, if_neg on]
      split
      · exact congrArg some (Nat.zero_mod _)
      · rfl

/-- What VMERGE computes of an element. -/
def mergeElem (v : VView) (a b m : Nat) (c : Core) (i : Nat) : ElemRes := Elem.res (if c.active v m i then c.elem v a v.w i else c.elem v b v.w i)

theorem mergeElem_spec {c : Core} (clean : CleanCore c) (v : VView) (a b : BitVec 5) (m i : Nat) :
    (mergeElem v a.toNat b.toNat m c i).elem.poison = none ∧ (elemValue? c v m true (mergeElem v a.toNat b.toNat m) i).map (· % 2 ^ v.w) =
      some (c.elem v (if c.active v m i then a else b).toNat v.w i).bits := by
  unfold elemValue? mergeElem
  rw [Bool.or_true, if_pos rfl]
  by_cases on : c.active v m i = true
  · simp only [if_pos on]
    exact elem_spec clean v a.toNat v.w i |>.imp (fun pure => pure _ rfl) id
  · simp only [if_neg on]
    exact elem_spec clean v b.toNat v.w i |>.imp (fun pure => pure _ rfl) id

/-- VMERGE (05_vector R140): every element is computed, from one source or the other. -/
theorem beat_vmerge {s : State} {k q : Nat} {e : VEntry} {d a b : BitVec 5} {m : BitVec 3} (h : BeatReady s k q e (.arith (.vmerge d a b m)))
    (placed : Placed e.vcfg d.toNat) : ∃ t n, exec (.vectorIssue k ⟨0, []⟩) s = .next t ∧
      BeatDone s t k q e (.reg d.toNat (vWidth e.vcfg)) ((s.slot q).vlmax e.vcfg) n
        (fun i => some ((s.core k).elem (VView.of (s.slot q) e) (if (s.core k).active (VView.of (s.slot q) e) m.toNat i then a else b).toNat
          (vWidth (VView.of (s.slot q) e).vcfg) i).bits) 0 := by
  obtain ⟨width, two, top⟩ := ready_width h
  obtain ⟨-, low⟩ := placed
  obtain ⟨-, -, below, vl⟩ := h.captured
  have low' : d.toNat + 2 ^ vGroup e.vcfg ≤ 40 := by omega
  obtain ⟨n, done, -⟩ := step_elems (regFits (ready_vlen h) width low' le_rfl) h.clean below vl (m := m.toNat) (always := true)
    (f := mergeElem (VView.of (s.slot q) e) a.toNat b.toNat m.toNat) (fun i => (mergeElem_spec h.clean _ a b _ i).1)
    (width := (VView.of (s.slot q) e).w) (Nat.div_pos (by show vWidth e.vcfg ≤ 2048; omega) width.2)
  obtain ⟨t, run, beat⟩ := beatDone_of_step h (ready_row h rfl) (ready_act h rfl)
    (placedIn_reg (VView.of (s.slot q) e) width.2 low' (plain_group width.2)) done fun i _ _ => (mergeElem_spec h.clean _ a b _ i).2
  have flags := flagsWhere_zero (fun j => (s.core k).active (VView.of (s.slot q) e) m.toNat j || true) e.p n
  exact ⟨t, n, run, flags ▸ beat⟩

end Sys2Proof.Proofs

/-! Reductions (05_vector R141; 02_numbers R55). -/

namespace Sys2Proof.Proofs

open Sys2Proof.Machine Sys2Proof.Laws

/-- What an instruction that issues in one piece does to a core. -/
def pieceOf (a : VAct) (c : Core) : Core × FFlags × Option (Word × Option PTag) :=
  match a with
  | .whole f => f c
  | .elems .. => (c, 0, none)

/-- Nothing is written where there are no values. -/
theorem writeFrom_none (v : VView) (d : VDst) (n i : Nat) (c : Core) : writeFrom v d (fun _ => none) n i c = c := by
  induction n generalizing i with
  | zero => rfl
  | succ n ih => exact ih _

/-- One element, and the zeros that TP has behind it, are a result with its tail. -/
theorem tail_single (v : VView) (d : VDst) {size : Nat} (x : Nat) (c : Core) (some_ : 0 < v.vl) (hvl : v.vl ≤ size) :
    (writeFrom v d (fun i => if i = 0 then some x else tailed v) v.vl 0 c).tail v d size =
      if v.tp then (c.putDst v d 0 ⟨x, none⟩).zeroFrom v d 1 (size - 1) else c.putDst v d 0 ⟨x, none⟩ := by
  have split : writeFrom v d (fun i => if i = 0 then some x else tailed v) v.vl 0 c =
      writeFrom v d (fun _ => tailed v) (v.vl - 1) 1 (c.putDst v d 0 ⟨x, none⟩) := by
    conv_lhs => rw [show v.vl = 1 + (v.vl - 1) by omega]
    rw [writeFrom_add]
    exact writeFrom_congr v d _ fun j lo _ => if_neg (by omega)
  rw [split, Core.tail]
  unfold tailed VView.tp
  by_cases tp : v.vcfg.getLsbD 5 = true
  · simp only [if_pos tp]
    rw [zeroFrom_eq, zeroFrom_eq, show size - 1 = (v.vl - 1) + (size - v.vl) by omega, writeFrom_add, show 1 + (v.vl - 1) = v.vl by omega]
  · simp only [if_neg tp]
    exact writeFrom_none v d _ _ _

/-- A reduction: res is its result and the flags, and R what the model computes of the items. -/
theorem whole_reduce {i : VArith} {d a b m : Nat} {ok : BitVec 14 → Prop} {R : VView → Option Nat → List (Nat × Option Nat) → Option Nat × FFlags}
    (res : Core → VView → Nat × FFlags) (dest : scalarDest i = none)
    (act : ∀ (v : VView) (e : VEntry), arithAct v e.op0 none e.op1 none i = reduceAct v d a b m (R v))
    (value : ∀ (x : Slot) (e : VEntry) (c : Core), ok e.vcfg → e.vl ≤ 8192 →
      R (VView.of x e) (some (c.elem (VView.of x e) b (vWidth e.vcfg) 0).bits)
        ((c.actives (VView.of x e) m).map fun j => (j, some (c.elem (VView.of x e) a (vWidth e.vcfg) j).bits)) =
        (some (res c (VView.of x e)).1, (res c (VView.of x e)).2) ∧ (res c (VView.of x e)).1 < 2 ^ vWidth e.vcfg) :
    WholeWith ok (.arith i) (.reg d 0) true [d, a, b] (fun c v _ j => if j = 0 then some (res c v).1 else tailed v) fun c v _ => (res c v).2 := by
  refine wholeWith_reg (F := fun v _ => pieceOf (reduceAct v d a b m (R v))) dest act
    (fun x e c clean okc below top again_ vl => ⟨fun j => if j = 0 then some (res c (VView.of x e)).1 else tailed (VView.of x e), ?_, fun n _ _ => ?_⟩)
    List.mem_cons_self
  · obtain ⟨result, -⟩ := value x e c okc top
    have first : e.p = 0 := again_ rfl
    have some_ : 0 < (VView.of x e).vl := show 0 < e.vl by omega
    have whole := tail_single (VView.of x e) (.reg d (vWidth e.vcfg)) (res c (VView.of x e)).1 c some_ vl
    have tags (l : List Nat) : l.foldl (fun t (_ : Nat) => lowerTag t none) none = none := foldl_lowerTag_clean (fun _ => rfl) l
    have sources : lowerTag (none : Option PTag) none = none := lowerTag_clean rfl rfl
    simp only [pieceOf, reduceAct, if_neg some_.ne', elem_poison clean, maskPoison_clean clean, maskBit_poison clean, ite_self, sources, tags,
      Option.isNone_none, Bool.and_self, if_true, Option.isSome_none, Bool.false_eq_true, if_false]
    change _ = (some _, _) at result
    rw [show (VView.of x e).w = vWidth e.vcfg from rfl, result, first]
    exact congrArg (fun c' => (c', (res c (VView.of x e)).2, none)) whole.symm
  · obtain ⟨-, bound⟩ := value x e c okc top
    by_cases first : n = 0
    · simp only [if_pos first]
      exact congrArg some (Nat.mod_eq_of_lt bound)
    · simp only [if_neg first]
      unfold tailed
      split
      · exact congrArg some (Nat.zero_mod _)
      · rfl

/-- An integer reduction folds words. -/
theorem reduceInt_words {w : Nat} {op : Nat → Nat → Nat} {f : BitVec w → BitVec w → BitVec w} (h : ∀ x y : BitVec w, op x.toNat y.toNat = (f x y).toNat)
    {el : Nat → Nat} (small : ∀ j, el j < 2 ^ w) (l : List Nat) (y : BitVec w) :
    reduceInt op (some y.toNat) (l.map fun j => (j, some (el j))) = (some (l.foldl (fun y j => f y (BitVec.ofNat w (el j))) y).toNat, 0) := by
  induction l generalizing y with
  | nil => rfl
  | cons j l ih =>
    have word : (BitVec.ofNat w (el j)).toNat = el j := by rw [BitVec.toNat_ofNat, Nat.mod_eq_of_lt (small j)]
    have next : op y.toNat (el j) = (f y (BitVec.ofNat w (el j))).toNat := by rw [← h, word]
    have rest := ih (f y (BitVec.ofNat w (el j)))
    rw [← next] at rest
    exact rest

/-- Values combined in ascending order, with the flags of each step (02_numbers R55). -/
def foldFlags (g : Nat → Nat → Nat × FFlags) (el : Nat → Nat) (l : List Nat) (r : Nat × FFlags) : Nat × FFlags :=
  l.foldl (fun r j => ((g r.1 (el j)).1, r.2 ||| (g r.1 (el j)).2)) r

/-- That is the model's ordered reduction. -/
theorem foldl_ordered (nv : Nat → FFlags) (g : Nat → Nat → Nat × FFlags) (el : Nat → Nat) (l : List Nat) (r : Nat × FFlags) :
    (l.map fun j => (j, some (el j))).foldl (fun (a : Option Nat × FFlags) x => ((reduceItem nv g a.1 x.2).1, a.2 ||| (reduceItem nv g a.1 x.2).2))
      (some r.1, r.2) = (some (foldFlags g el l r).1, (foldFlags g el l r).2) := by
  induction l generalizing r with
  | nil => rfl
  | cons j l ih => exact ih ((g r.1 (el j)).1, r.2 ||| (g r.1 (el j)).2)

theorem reduceOrdered_eq (t : Fmt) (g : Nat → Nat → Nat × FFlags) (el : Nat → Nat) (l : List Nat) (y : Nat) :
    reduceOrdered t g (some y) (l.map fun j => (j, some (el j))) = (some (foldFlags g el l (y, 0)).1, (foldFlags g el l (y, 0)).2) :=
  foldl_ordered _ g el l (y, 0)

/-- A result stays below a bound that each step keeps. -/
theorem foldFlags_lt {g : Nat → Nat → Nat × FFlags} {el : Nat → Nat} {N : Nat} (step : ∀ x y, x < N → y < N → (g x y).1 < N) (small : ∀ j, el j < N)
    (l : List Nat) (r : Nat × FFlags) (h : r.1 < N) : (foldFlags g el l r).1 < N := by
  induction l generalizing r with
  | nil => exact h
  | cons j l ih => exact ih _ (step _ _ h (small j))

/-! VFREDU's tree (02_numbers R55). -/

section tree

variable (add : Nat → Nat → Nat × FFlags)

/-- Two positions of a level become one of the next. -/
def joined (x y : Option Nat × FFlags) : Option Nat × FFlags :=
  match x.1, y.1 with
  | some a, some b => (some (add a b).1, x.2 ||| y.2 ||| (add a b).2)
  | some a, none => (some a, x.2 ||| y.2)
  | none, z => (z, x.2 ||| y.2)

/-- A level of the tree is made of the one below it. -/
theorem treeAt_succ (leaf : Nat → Option Nat) (l j : Nat) :
    treeAt add leaf (l + 1) j = joined add (treeAt add leaf l (2 * j)) (treeAt add leaf l (2 * j + 1)) := rfl

/-- Flags from below pass on. -/
theorem joined_flags (x y : Option Nat) (f g p q : FFlags) :
    joined add (x, f ||| p) (y, g ||| q) = ((joined add (x, f) (y, g)).1, (joined add (x, f) (y, g)).2 ||| (p ||| q)) := by
  cases x <;> cases y <;> simp only [joined, Prod.mk.injEq, true_and] <;> ac_rfl

/-- A position of the first level above the leaves. -/
def pairAt (leaf : Nat → Option Nat) (j : Nat) : Option Nat × FFlags := joined add (leaf (2 * j), 0) (leaf (2 * j + 1), 0)

/-- The flags of n positions of that level from lo on. -/
def pairFlags (leaf : Nat → Option Nat) (lo n : Nat) : FFlags := ((List.range' lo n).map fun j => (pairAt add leaf j).2).foldr (· ||| ·) 0

theorem pairFlags_succ (leaf : Nat → Option Nat) (lo n : Nat) :
    pairFlags add leaf lo (n + 1) = (pairAt add leaf lo).2 ||| pairFlags add leaf (lo + 1) n := rfl

theorem pairFlags_add (leaf : Nat → Option Nat) (lo m n : Nat) :
    pairFlags add leaf lo (m + n) = pairFlags add leaf lo m ||| pairFlags add leaf (lo + m) n := by
  induction m generalizing lo with
  | zero => simp [pairFlags]
  | succ m ih =>
    rw [Nat.add_right_comm, pairFlags_succ, ih, pairFlags_succ, BitVec.or_assoc, Nat.add_right_comm lo 1 m, Nat.add_assoc lo m 1]

/-- The tree over the leaves is the tree over the first level above them, with that level's flags. -/
theorem treeAt_pairs (leaf : Nat → Option Nat) (l j : Nat) : treeAt add leaf (l + 1) j =
    ((treeAt add (fun i => (pairAt add leaf i).1) l j).1,
      (treeAt add (fun i => (pairAt add leaf i).1) l j).2 ||| pairFlags add leaf (j * 2 ^ l) (2 ^ l)) := by
  induction l generalizing j with
  | zero =>
    have level : pairFlags add leaf (j * 2 ^ 0) (2 ^ 0) = (pairAt add leaf j).2 := by
      rw [Nat.pow_zero, Nat.mul_one, pairFlags_succ]
      exact BitVec.or_zero
    rw [level]
    exact Prod.ext rfl BitVec.zero_or.symm
  | succ l ih =>
    rw [treeAt_succ, ih, ih, joined_flags, treeAt_succ add (fun i => (pairAt add leaf i).1), Nat.pow_succ, Nat.mul_two, pairFlags_add]
    have left : j * (2 ^ l + 2 ^ l) = 2 * j * 2 ^ l := by ring
    have right : j * (2 ^ l + 2 ^ l) + 2 ^ l = (2 * j + 1) * 2 ^ l := by ring
    rw [right, left]

/-- The positions from lo on that hold a value, as the model lists them. -/
def entriesOf (leaf : Nat → Option Nat) (lo n : Nat) : List (Nat × Option Nat) :=
  (List.range' lo n).filterMap fun j => (leaf j).map fun x => (j, some x)

theorem entriesOf_succ (leaf : Nat → Option Nat) (lo n : Nat) : entriesOf leaf lo (n + 1) =
    match leaf lo with
    | some x => (lo, some x) :: entriesOf leaf (lo + 1) n
    | none => entriesOf leaf (lo + 1) n := by
  unfold entriesOf
  rw [List.range'_succ, List.filterMap_cons]
  cases leaf lo <;> rfl

theorem le_of_mem_entriesOf {leaf : Nat → Option Nat} {lo n : Nat} {p : Nat × Option Nat} (h : p ∈ entriesOf leaf lo n) : lo ≤ p.1 := by
  obtain ⟨j, hj, value⟩ := List.mem_filterMap.mp h
  obtain ⟨x, -, rfl⟩ := Option.map_eq_some_iff.mp value
  exact (List.mem_range'_1.mp hj).1

/-- An entry without a partner goes up alone. -/
theorem treeLevel_alone (f : Option Nat → Option Nat → Option Nat × FFlags) (i : Nat) (x : Option Nat) {l : List (Nat × Option Nat)}
    (apart : ∀ p ∈ l, i / 2 ≠ p.1 / 2) : treeLevel f ((i, x) :: l) = ((i / 2, x) :: (treeLevel f l).1, (treeLevel f l).2) := by
  cases l with
  | nil => rfl
  | cons p l =>
    obtain ⟨j, y⟩ := p
    rw [treeLevel, if_neg (apart (j, y) List.mem_cons_self)]

/-- One level of the model's tree. -/
theorem treeLevel_entriesOf (nv : Nat → FFlags) (leaf : Nat → Option Nat) (lo n : Nat) :
    treeLevel (reduceItem nv add) (entriesOf leaf (2 * lo) (2 * n)) =
    (entriesOf (fun j => (pairAt add leaf j).1) lo n, pairFlags add leaf lo n) := by
  induction n generalizing lo with
  | zero => rfl
  | succ n ih =>
    have rest := ih (lo + 1)
    rw [show 2 * (lo + 1) = 2 * lo + 1 + 1 by ring] at rest
    rw [show 2 * (n + 1) = 2 * n + 1 + 1 by ring, entriesOf_succ, entriesOf_succ, entriesOf_succ, pairFlags_succ]
    have later : ∀ p ∈ entriesOf leaf (2 * lo + 1 + 1) (2 * n), lo ≠ p.1 / 2 := fun p hp => by
      have := le_of_mem_entriesOf hp
      omega
    have even : 2 * lo / 2 = lo := by omega
    have odd : (2 * lo + 1) / 2 = lo := by omega
    rw [show pairAt add leaf lo = joined add (leaf (2 * lo), 0) (leaf (2 * lo + 1), 0) from rfl]
    cases left : leaf (2 * lo) with
    | none =>
      cases right : leaf (2 * lo + 1) with
      | none =>
        dsimp only [joined]
        rw [rest]
        simp
      | some y =>
        dsimp only [joined]
        rw [treeLevel_alone _ _ _ (by rw [odd]; exact later), rest, odd]
        simp
    | some x =>
      cases right : leaf (2 * lo + 1) with
      | none =>
        dsimp only [joined]
        rw [treeLevel_alone _ _ _ (by rw [even]; exact later), rest, even]
        simp
      | some y =>
        dsimp only [joined]
        rw [treeLevel, if_pos (even.trans odd.symm), rest, even]
        simp [reduceItem]

/-- All its levels. -/
theorem treeLevels_entriesOf (nv : Nat → FFlags) (n : Nat) (leaf : Nat → Option Nat) : treeLevels (reduceItem nv add) n (entriesOf leaf 0 (2 ^ n)) =
    (entriesOf (fun j => (treeAt add leaf n j).1) 0 1, (treeAt add leaf n 0).2) := by
  induction n generalizing leaf with
  | zero => rfl
  | succ n ih =>
    have level := treeLevel_entriesOf add nv leaf 0 (2 ^ n)
    rw [Nat.mul_zero, ← Nat.pow_succ'] at level
    rw [treeLevels, level, ih]
    simp only [treeAt_pairs, Nat.zero_mul, BitVec.or_comm]

end tree

/-- The active elements, as the leaves of the tree that hold a value. -/
theorem actives_entriesOf (c : Core) (v : VView) (m : Nat) (el : Nat → Nat) {N : Nat} (h : v.vl ≤ N) :
    ((c.actives v m).map fun j => (j, some (el j))) = entriesOf (fun j => if j < v.vl ∧ c.active v m j = true then some (el j) else none) 0 N := by
  have split : List.range' 0 N = List.range v.vl ++ List.range' v.vl (N - v.vl) := by
    have whole := List.range'_append_1 (s := 0) (m := v.vl) (n := N - v.vl)
    rw [Nat.zero_add, Nat.add_sub_cancel' h] at whole
    rw [List.range_eq_range', whole]
  have beyond : (List.range' v.vl (N - v.vl)).filterMap (fun j =>
      ((if j < v.vl ∧ c.active v m j = true then some (el j) else none).map fun x => (j, some x))) = [] := by
    refine List.filterMap_eq_nil_iff.mpr fun j hj => ?_
    have above := (List.mem_range'_1.mp hj).1
    rw [if_neg (by omega)]
    rfl
  unfold entriesOf Core.actives
  rw [split, List.filterMap_append, beyond, List.append_nil, ← List.filterMap_eq_map, List.filterMap_filter]
  refine List.filterMap_congr fun j hj => ?_
  have below := List.mem_range.mp hj
  by_cases on : c.active v m j = true
  · simp [on, below]
  · simp [on]

/-- A maximum or minimum of two words is one of them. -/
theorem iMax_words {w : Nat} (x y : BitVec w) : iMax w x.toNat y.toNat = (if x.slt y then y else x).toNat := by
  rw [iMax, signedOf_toNat, signedOf_toNat, BitVec.slt_eq_decide]
  simp only [decide_eq_true_eq]
  split <;> rfl

theorem iMin_words {w : Nat} (x y : BitVec w) : iMin w x.toNat y.toNat = (if y.slt x then y else x).toNat := by
  rw [iMin, signedOf_toNat, signedOf_toNat, BitVec.slt_eq_decide]
  simp only [decide_eq_true_eq]
  split <;> rfl

/-- The result of an integer reduction: f folds the active elements of a into element 0 of b. -/
def reducedWord (f : (w : Nat) → BitVec w → BitVec w → BitVec w) (a b m : Nat) (c : Core) (v : VView) : Nat :=
  ((c.actives v m).foldl (fun y j => f _ y (BitVec.ofNat (vWidth v.vcfg) (c.elem v a (vWidth v.vcfg) j).bits))
    (BitVec.ofNat (vWidth v.vcfg) (c.elem v b (vWidth v.vcfg) 0).bits)).toNat

/-- An integer reduction. -/
theorem whole_reduceInt {i : VArith} {d a b m : Nat} {op : Nat → Nat → Nat → Nat} {f : (w : Nat) → BitVec w → BitVec w → BitVec w}
    (words : ∀ (w : Nat) (y z : BitVec w), op w y.toNat z.toNat = (f w y z).toNat) (dest : scalarDest i = none)
    (act : ∀ (v : VView) (e : VEntry), arithAct v e.op0 none e.op1 none i = reduceAct v d a b m (reduceInt (op v.w))) :
    Whole (.arith i) (.reg d 0) true [d, a, b] fun c v _ j => if j = 0 then some (reducedWord f a b m c v) else tailed v := by
  refine whole_reduce (R := fun v => reduceInt (op v.w)) (fun c v => (reducedWord f a b m c v, 0)) dest act fun x e c _ _ => ⟨?_, BitVec.isLt _⟩
  have folded := reduceInt_words (words (vWidth e.vcfg)) (fun j => elem_lt c (VView.of x e) a (vWidth e.vcfg) j) (c.actives (VView.of x e) m)
    (BitVec.ofNat (vWidth e.vcfg) (c.elem (VView.of x e) b (vWidth e.vcfg) 0).bits)
  rw [toNat_elem] at folded
  exact folded

/-- The result of a floating-point reduction in ascending order, and its flags (02_numbers R55). -/
def reducedInOrder (g : VView → Nat → Nat → Nat × FFlags) (a b m : Nat) (c : Core) (v : VView) : Nat × FFlags :=
  foldFlags (g v) (fun j => (c.elem v a (vWidth v.vcfg) j).bits) (c.actives v m) ((c.elem v b (vWidth v.vcfg) 0).bits, 0)

/-- VFREDO and VFREDMAX: g keeps the element width. -/
theorem whole_reduceOrdered {i : VArith} {d a b m : Nat} (g : VView → Nat → Nat → Nat × FFlags) (dest : scalarDest i = none)
    (act : ∀ (v : VView) (e : VEntry), arithAct v e.op0 none e.op1 none i = reduceAct v d a b m (reduceOrdered v.fmt (g v)))
    (bound : ∀ (v : VView) (p q : Nat), (floatType v.vcfg).isSome = true → p < 2 ^ vWidth v.vcfg → q < 2 ^ vWidth v.vcfg →
      (g v p q).1 < 2 ^ vWidth v.vcfg) :
    WholeWith (fun c => (floatType c).isSome) (.arith i) (.reg d 0) true [d, a, b]
      (fun c v _ j => if j = 0 then some (reducedInOrder g a b m c v).1 else tailed v) fun c v _ => (reducedInOrder g a b m c v).2 := by
  refine whole_reduce (R := fun v => reduceOrdered v.fmt (g v)) (reducedInOrder g a b m) dest act fun x e c float _ => ⟨?_, ?_⟩
  · exact reduceOrdered_eq _ _ _ _ _
  · exact foldFlags_lt (fun p q hp hq => bound (VView.of x e) p q float hp hq) (fun _ => elem_lt _ _ _ _ _) _ _ (elem_lt _ _ _ _ _)

/-- VFREDU's addition (05_vector R141). -/
def viewAdd (v : VView) (p q : Nat) : Nat × FFlags :=
  vectorRound v (fAdd v.frm (((floatType v.vcfg).getD fmtF64).decode p) (((floatType v.vcfg).getD fmtF64).decode q))

/-- What stands at the root of the tree, added to a first value. -/
def rootSum (add : Nat → Nat → Nat × FFlags) (y : Nat) (t : Option Nat × FFlags) : Nat × FFlags :=
  match t.1 with
  | some x => ((add y x).1, t.2 ||| (add y x).2)
  | none => (y, 0)

theorem rootSum_lt {add : Nat → Nat → Nat × FFlags} {y N : Nat} (step : ∀ x, (add y x).1 < N) (h : y < N) (t : Option Nat × FFlags) :
    (rootSum add y t).1 < N := by
  unfold rootSum
  split
  · exact step _
  · exact h

/-- The result of VFREDU: the tree of the active elements, added to element 0 of b (02_numbers R55). -/
def reducedTree (a b m : Nat) (c : Core) (v : VView) : Nat × FFlags :=
  rootSum (viewAdd v) (c.elem v b (vWidth v.vcfg) 0).bits
    (treeAt (viewAdd v) (fun j => if j < v.vl ∧ c.active v m j = true then some (c.elem v a (vWidth v.vcfg) j).bits else none) 13 0)

/-- The model's tree of listed values. -/
theorem reduceTree_entriesOf (t : Fmt) (add : Nat → Nat → Nat × FFlags) (y : Nat) (leaf : Nat → Option Nat) :
    reduceTree t add (some y) (entriesOf leaf 0 (2 ^ 13)) =
      (some (rootSum add y (treeAt add leaf 13 0)).1, (rootSum add y (treeAt add leaf 13 0)).2) := by
  unfold reduceTree rootSum
  dsimp only
  rw [treeLevels_entriesOf, entriesOf_succ]
  cases (treeAt add leaf 13 0).1 with
  | none => rfl
  | some x => exact congrArg (some (add y x).1, ·) (BitVec.or_comm _ _)

/-- VFREDU. -/
theorem whole_reduceTree {i : VArith} {d a b m : Nat} (dest : scalarDest i = none)
    (act : ∀ (v : VView) (e : VEntry), arithAct v e.op0 none e.op1 none i = reduceAct v d a b m (reduceTree v.fmt (viewAdd v))) :
    WholeWith (fun c => (floatType c).isSome) (.arith i) (.reg d 0) true [d, a, b]
      (fun c v _ j => if j = 0 then some (reducedTree a b m c v).1 else tailed v) fun c v _ => (reducedTree a b m c v).2 := by
  refine whole_reduce (R := fun v => reduceTree v.fmt (viewAdd v)) (reducedTree a b m) dest act fun x e c float top => ⟨?_, ?_⟩
  · rw [actives_entriesOf c (VView.of x e) m _ (N := 2 ^ 13) top, reduceTree_entriesOf]
    rfl
  · exact rootSum_lt (fun p => vectorRound_lt (v := VView.of x e) float _) (elem_lt _ _ _ _ _) _

end Sys2Proof.Proofs

/-! VINS and VPRUNE48 (05_vector R140, R143). -/

namespace Sys2Proof.Proofs

open Sys2Proof.Machine Sys2Proof.Laws

/-- One issue of a ready instruction that works in one piece and has no scalar register: the core is what it makes of it, and the queue is empty. -/
theorem piece_ready {s : State} {k q : Nat} {e : VEntry} {i : VArith} (h : BeatReady s k q e (.arith i)) (dest : scalarDest i = none)
    {F : Core → Core × FFlags × Option (Word × Option PTag)} (act : arithAct (VView.of (s.slot q) e) e.op0 none e.op1 none i = .whole F)
    (only : (F (s.core k)).1 = { s.core k with vec := (F (s.core k)).1.vec }) :
    ∃ t, exec (.vectorIssue k ⟨0, []⟩) s = .next t ∧ t = { s with slots := t.slots, cores := t.cores, shares := t.shares } ∧
      (∀ j, j ≠ q → t.slot j = s.slot j) ∧ (∀ j, j ≠ k → t.core j = s.core j) ∧ (t.slot q).vq = [] ∧ t.core k = (F (s.core k)).1 := by
  have row := ready_row h dest
  obtain ⟨encoded, -⟩ := h.word
  obtain ⟨t, run, issued⟩ := vectorIssue_ready h row (ready_act h act) only
  obtain ⟨vdirty, charge, slot⟩ := issued.slot
  refine ⟨t, run, issued.device, issued.slots, issued.cores, ?_, issued.core⟩
  rw [slot, issuedSlot_plain (by rw [encoded, row.dest])]
  rfl

/-- VINS (05_vector R140). -/
theorem insert_ready {s : State} {k q : Nat} {e : VEntry} {d y x : BitVec 5} (h : BeatReady s k q e (.arith (.vins d y x)))
    (placed : Placed e.vcfg d.toNat) :
    ∃ t, exec (.vectorIssue k ⟨0, []⟩) s = .next t ∧ t = { s with slots := t.slots, cores := t.cores, shares := t.shares } ∧
      (∀ j, j ≠ q → t.slot j = s.slot j) ∧ (∀ j, j ≠ k → t.core j = s.core j) ∧ (t.slot q).vq = [] ∧
      (∀ i, i < (s.slot q).vlmax e.vcfg → ((t.core k).elem (VView.of (s.slot q) e) d.toNat (vWidth e.vcfg) i).bits =
        if i = e.op1.toNat ∧ e.p ≤ i ∧ i < e.vl then e.op0.toNat % 2 ^ vWidth e.vcfg
        else ((s.core k).elem (VView.of (s.slot q) e) d.toNat (vWidth e.vcfg) i).bits) ∧
      ∀ lane reg j, lane < 8 → reg < 40 → j < 32 → reg < d.toNat ∨ d.toNat + 2 ^ vGroup e.vcfg ≤ reg →
        (t.core k).chunk (vecKey lane reg j) = (s.core k).chunk (vecKey lane reg j) := by
  obtain ⟨width, -, -⟩ := ready_width h
  obtain ⟨-, low⟩ := placed
  obtain ⟨-, -, -, vl⟩ := h.captured
  have low' : d.toNat + 2 ^ vGroup e.vcfg ≤ 40 := by omega
  have fits := regFits (ready_vlen h) width low' le_rfl
  have act : arithAct (VView.of (s.slot q) e) e.op0 none e.op1 none (.vins d y x) = .whole fun c =>
      if e.p ≤ e.op1.toNat ∧ e.op1.toNat < e.vl then
        (c.putDst (VView.of (s.slot q) e) (.reg d.toNat (vWidth e.vcfg)) e.op1.toNat ⟨e.op0.toNat % 2 ^ vWidth e.vcfg, none⟩, 0, none)
      else (c, 0, none) := rfl
  by_cases inside : e.p ≤ e.op1.toNat ∧ e.op1.toNat < e.vl
  · have room : e.op1.toNat < (VView.of (s.slot q) e).size (2 ^ vGroup e.vcfg) (vWidth e.vcfg) := lt_of_lt_of_le inside.2 vl
    obtain ⟨t, run, device, slots, cores, queue, core⟩ := piece_ready h rfl act (by rw [if_pos inside, fits.put _ room]; rfl)
    rw [if_pos inside, fits.put _ room] at core
    refine ⟨t, run, device, slots, cores, queue, fun i hi => ?_, fun lane reg j _ hreg hj out => ?_⟩
    · rw [core]
      refine (dstBits_putField fits room hi (s.core k) _).trans ?_
      rw [Nat.mod_mod]
      by_cases same : i = e.op1.toNat
      · rw [if_pos same, if_pos ⟨same, same ▸ inside⟩]
      · rw [if_neg same, if_neg fun all => same all.1]
        rfl
    · rw [core]
      exact chunk_putField_ne _ _ _ _ (place_beside width.2 low' room hreg hj out).symm
  · obtain ⟨t, run, device, slots, cores, queue, core⟩ := piece_ready h rfl act (by rw [if_neg inside])
    rw [if_neg inside] at core
    refine ⟨t, run, device, slots, cores, queue, fun i _ => ?_, fun _ _ _ _ _ _ _ => by rw [core]⟩
    rw [core, if_neg fun (all : i = e.op1.toNat ∧ e.p ≤ i ∧ i < e.vl) => inside (all.1 ▸ all.2)]

/-! The four elements that VPRUNE48 keeps of a group of eight (05_vector R143). -/

section kept

variable (x : Nat → Int)

/-- An index comes before another: its magnitude is larger, or equal at a lower index. -/
def Before (i j : Nat) : Prop := (x j).natAbs < (x i).natAbs ∨ (x j).natAbs = (x i).natAbs ∧ i < j

/-- Inserting adds the index. -/
theorem insertMag_perm (j : Nat) (l : List Nat) : (insertMag x j l).Perm (j :: l) := by
  induction l with
  | nil => exact .refl _
  | cons k ks ih =>
    unfold insertMag
    split
    · exact .refl _
    · exact (ih.cons k).trans (.swap _ _ _)

/-- A later index is inserted in order. -/
theorem insertMag_sorted {j : Nat} {l : List Nat} (sorted : l.Pairwise (Before x)) (later : ∀ k ∈ l, k < j) :
    (insertMag x j l).Pairwise (Before x) := by
  induction l with
  | nil => exact List.pairwise_singleton _ _
  | cons k ks ih =>
    obtain ⟨first, rest⟩ := List.pairwise_cons.mp sorted
    unfold insertMag
    split
    · next larger =>
      refine List.pairwise_cons.mpr ⟨fun i hi => .inl ?_, sorted⟩
      rcases List.mem_cons.mp hi with rfl | hi
      · exact larger
      · rcases first i hi with below | ⟨same, -⟩ <;> omega
    · next smaller =>
      refine List.pairwise_cons.mpr ⟨fun i hi => ?_, ih rest fun i hi => later i (List.mem_cons_of_mem _ hi)⟩
      rcases List.mem_cons.mp ((insertMag_perm x j ks).mem_iff.mp hi) with rfl | hi
      · have := later k List.mem_cons_self
        unfold Before
        omega
      · exact first i hi

/-- The first n indexes in order. -/
theorem insertAll_spec (n : Nat) : ((List.range n).foldl (fun l j => insertMag x j l) []).Perm (List.range n) ∧
    ((List.range n).foldl (fun l j => insertMag x j l) []).Pairwise (Before x) := by
  induction n with
  | zero => exact ⟨.refl _, .nil⟩
  | succ n ih =>
    obtain ⟨perm, sorted⟩ := ih
    rw [List.range_succ, List.foldl_append, List.foldl_cons, List.foldl_nil]
    exact ⟨(insertMag_perm x n _).trans ((perm.cons n).trans (List.perm_append_singleton n _).symm),
      insertMag_sorted x sorted fun k hk => List.mem_range.mp (perm.mem_iff.mp hk)⟩

/-- Four are kept, in ascending order, and each comes before each of the others. -/
theorem keptFour_spec : ∃ k0 k1 k2 k3, keptFour x = [k0, k1, k2, k3] ∧ k0 < k1 ∧ k1 < k2 ∧ k2 < k3 ∧ k3 < 8 ∧
    ∀ i ∈ [k0, k1, k2, k3], ∀ j < 8, j ∉ [k0, k1, k2, k3] → Before x i j := by
  obtain ⟨perm, sorted⟩ := insertAll_spec x 8
  have member (i : Nat) : i ∈ keptFour x ↔ i ∈ ((List.range 8).foldl (fun l j => insertMag x j l) []).take 4 := by
    simp only [keptFour, List.mem_filter, List.contains_iff_mem]
    exact ⟨And.right, fun hi => ⟨perm.mem_iff.mp (List.mem_of_mem_take hi), hi⟩⟩
  generalize (List.range 8).foldl (fun l j => insertMag x j l) [] = l at *
  have ascending : (keptFour x).Pairwise (· < ·) := List.pairwise_lt_range.filter _
  have nodup : (l.take 4).Nodup := (perm.nodup_iff.mpr List.nodup_range).sublist (List.take_sublist 4 l)
  have same : (keptFour x).Perm (l.take 4) := (List.perm_ext_iff_of_nodup (ascending.imp Nat.ne_of_lt) nodup).mpr member
  have four : (keptFour x).length = 4 := by
    rw [same.length_eq, List.length_take, perm.length_eq]
    rfl
  have order : ∀ i ∈ keptFour x, ∀ j < 8, j ∉ keptFour x → Before x i j := by
    intro i hi j hj other
    have whole := List.take_append_drop 4 l
    rw [← whole] at sorted
    obtain ⟨-, -, apart⟩ := List.pairwise_append.mp sorted
    refine apart i ((member i).mp hi) j ?_
    have listed : j ∈ l.take 4 ++ l.drop 4 := by
      rw [List.take_append_drop]
      exact perm.mem_iff.mpr (List.mem_range.mpr hj)
    exact (List.mem_append.mp listed).resolve_left fun kept => other ((member j).mpr kept)
  have bound : ∀ i ∈ keptFour x, i < 8 := fun i hi => List.mem_range.mp (List.mem_of_mem_filter hi)
  obtain ⟨k0, k1, k2, k3, list⟩ := List.length_eq_four.mp four
  rw [list] at ascending order bound
  obtain ⟨lt0, ascending⟩ := List.pairwise_cons.mp ascending
  obtain ⟨lt1, ascending⟩ := List.pairwise_cons.mp ascending
  obtain ⟨lt2, -⟩ := List.pairwise_cons.mp ascending
  exact ⟨k0, k1, k2, k3, list, lt0 k1 (by simp), lt1 k2 (by simp), lt2 k3 (by simp), bound k3 (by simp), order⟩

end kept

/-- Two destinations of an instruction that do not meet, after some of their elements have been written. -/
structure PairDone (v : VView) (d1 : VDst) (size1 : Nat) (place1 : Nat → Nat × Nat) (d2 : VDst) (size2 : Nat) (place2 : Nat → Nat × Nat)
    (c c' : Core) (val1 val2 : Nat → Nat) : Prop where
  core : c' = { c with vec := c'.vec }
  clean : CleanCore c'
  first : ∀ i < size1, dstBits c' v d1 i = val1 i
  second : ∀ i < size2, dstBits c' v d2 i = val2 i
  beside : ∀ key, (∀ i < size1, (place1 i).1 ≠ key) → (∀ i < size2, (place2 i).1 ≠ key) → c'.chunk key = c.chunk key

section pair

variable {v : VView} {d1 d2 : VDst} {size1 size2 w1 w2 : Nat} {place1 place2 : Nat → Nat × Nat} {c c' : Core} {val1 val2 val : Nat → Nat}

/-- Which of the two is named first does not matter. -/
theorem PairDone.swap (h : PairDone v d1 size1 place1 d2 size2 place2 c c' val1 val2) : PairDone v d2 size2 place2 d1 size1 place1 c c' val2 val1 :=
  ⟨h.core, h.clean, h.second, h.first, fun key other own => h.beside key own other⟩

/-- Writing elements of one leaves the other. -/
theorem PairDone.write (fits1 : DstFits v d1 size1 w1 place1) (fits2 : DstFits v d2 size2 w2 place2)
    (apart : ∀ i < size1, ∀ j < size2, (place1 i).1 ≠ (place2 j).1) (h : PairDone v d1 size1 place1 d2 size2 place2 c c' val1 val2)
    {g : Nat → Nat} {n i : Nat} (hi : i + n ≤ size1) (new : ∀ j < size1, val j = if i ≤ j ∧ j < i + n then g j % 2 ^ w1 else val1 j) :
    PairDone v d1 size1 place1 d2 size2 place2 c (writeFrom v d1 (fun j => some (g j)) n i c') val val2 := by
  have wrote := wrote_of_writeFrom fits1 h.clean (g := fun j => some (g j)) hi
  refine ⟨?_, wrote.clean, fun j hj => ?_, fun j hj => ?_, fun key own other => ?_⟩
  · rw [wrote.core, h.core]
  · rw [new j hj]
    by_cases inside : i ≤ j ∧ j < i + n
    · rw [if_pos inside, wrote.new j inside.1 inside.2]
      rfl
    · rw [if_neg inside, wrote.kept j (by omega)]
      exact h.first j hj
  · rw [← h.second j hj, fits2.bits j hj, fits2.bits j hj, fieldOf, wrote.beside _ fun i' hi' => apart i' hi' j hj]
    rfl
  · rw [wrote.beside key own]
    exact h.beside key own other

end pair

/-- Element j of group g of VPRUNE48's source; past VL it counts as zero. -/
def pruneElem (c : Core) (v : VView) (a g j : Nat) : Elem := if 8 * g + j < v.vl then c.elem v a 8 (8 * g + j) else ⟨0, none⟩

/-- The kept indexes of a group. -/
def pruneKept (c : Core) (v : VView) (a g : Nat) : List Nat := keptFour fun j => signedOf 8 (pruneElem c v a g j).bits

/-- The kept values, four to a group, and the word that tells their indexes. -/
def pruneValue (c : Core) (v : VView) (a i : Nat) : Nat := (pruneElem c v a (i / 4) ((pruneKept c v a (i / 4)).getD (i % 4) 0)).bits
def pruneMeta (c : Core) (v : VView) (a g : Nat) : Nat :=
  (pruneKept c v a g).getD 0 0 + (pruneKept c v a g).getD 1 0 * 8 + (pruneKept c v a g).getD 2 0 * 64 + (pruneKept c v a g).getD 3 0 * 512

/-- One group of VPRUNE48. -/
def pruneStep (c : Core) (v : VView) (d a : Nat) (st : Core) (g : Nat) : Core :=
  let p := (List.range 8).foldl (fun t j => lowerTag t (pruneElem c v a g j).poison) none
  ((List.range 4).foldl (fun (s2 : Core) t => s2.putElem v d 8 (4 * g + t) ⟨(pruneElem c v a g ((pruneKept c v a g).getD t 0)).bits, p⟩) st).putElem v
    (d + 2 ^ v.g) 16 g ⟨pruneMeta c v a g, p⟩

/-- VPRUNE48 goes over the groups and writes the tails of both destinations. -/
theorem pieceOf_prune (c : Core) (v : VView) (d a : Nat) (some_ : v.vl ≠ 0) : (pieceOf (pruneAct v d a) c).1 =
    if v.tp then
      (((List.range ((v.vl + 7) / 8)).foldl (pruneStep c v d a) c).zeroFrom v (.reg d 8) (4 * ((v.vl + 7) / 8))
        (v.size (2 ^ v.g) 8 - 4 * ((v.vl + 7) / 8))).zeroFrom v (.reg (d + 2 ^ v.g) 16) ((v.vl + 7) / 8) (v.size (2 ^ v.g) 16 - (v.vl + 7) / 8)
    else (List.range ((v.vl + 7) / 8)).foldl (pruneStep c v d a) c := by
  unfold pieceOf pruneAct
  dsimp only
  rw [if_neg some_]
  split <;> rfl

/-- A group's values and its word are elements written in order. -/
theorem pruneStep_clean {c : Core} (clean : CleanCore c) (v : VView) (d a : Nat) (st : Core) (g : Nat) : pruneStep c v d a st g =
    writeFrom v (.reg (d + 2 ^ v.g) 16) (fun i => some (pruneMeta c v a i)) 1 g
      (writeFrom v (.reg d 8) (fun i => some (pruneValue c v a i)) 4 (4 * g) st) := by
  have pure (j : Nat) : (pruneElem c v a g j).poison = none := by
    unfold pruneElem
    split
    · exact elem_poison clean _ _ _ _
    · rfl
  have value (t : Nat) (ht : t < 4) : pruneValue c v a (4 * g + t) = (pruneElem c v a g ((pruneKept c v a g).getD t 0)).bits := by
    rw [pruneValue, show (4 * g + t) / 4 = g by omega, show (4 * g + t) % 4 = t by omega]
  unfold pruneStep
  rw [foldl_lowerTag_clean pure]
  simp only [List.range_succ, List.range_zero, List.nil_append, List.cons_append, List.foldl_cons, List.foldl_nil, writeFrom]
  rw [← value 0 (by omega), ← value 1 (by omega), ← value 2 (by omega), ← value 3 (by omega)]
  rfl

section prune

variable {v : VView} {d a : Nat} {c : Core}

/-- Both destinations of VPRUNE48 after some writes. -/
abbrev PruneDone (v : VView) (d : Nat) (c c' : Core) (val1 val2 : Nat → Nat) : Prop :=
  PairDone v (.reg d 8) (v.size (2 ^ v.g) 8) (v.place d 8) (.reg (d + 2 ^ v.g) 16) (v.size (2 ^ v.g) 16) (v.place (d + 2 ^ v.g) 16) c c' val1 val2

/-- The two groups do not meet. -/
theorem prune_apart (low : d + 2 * 2 ^ v.g ≤ 32) : ∀ i < v.size (2 ^ v.g) 8, ∀ j < v.size (2 ^ v.g) 16,
    (v.place d 8 i).1 ≠ (v.place (d + 2 ^ v.g) 16 j).1 := by
  intro i hi j hj
  have inside := place_reg (r := d + 2 ^ v.g) (show 0 < 16 by decide) hj
  rw [place_eq v (d + 2 ^ v.g)]
  exact place_beside (by decide) (by omega) hi (by omega) (by omega) (.inr (Nat.le_add_right _ _))

/-- VPRUNE48's groups fit its destinations. -/
theorem prune_sizes (len : VlenOk v) (hvl : v.vl ≤ v.size (2 ^ v.g) 8) :
    4 * ((v.vl + 7) / 8) ≤ v.size (2 ^ v.g) 8 ∧ (v.vl + 7) / 8 ≤ v.size (2 ^ v.g) 16 := by
  have group : 1 ≤ 2 ^ v.g := Nat.one_le_two_pow
  unfold VView.size at *
  generalize 2 ^ v.g = n at *
  rcases len with h | h | h | h <;> rw [h] at hvl ⊢ <;> omega

/-- What holds of the numbers below n and of the next k holds of those below n + k. -/
theorem ite_lt_add {α : Type} (x y : α) (n k i : Nat) : (if i < n + k then x else y) = if n ≤ i ∧ i < n + k then x else if i < n then x else y := by
  by_cases below : i < n
  · rw [if_pos (by omega), if_neg (by omega), if_pos below]
  · by_cases next : i < n + k
    · rw [if_pos next, if_pos ⟨by omega, next⟩]
    · rw [if_neg next, if_neg (by omega), if_neg below]

section writes

variable (len : VlenOk v) (low : d + 2 * 2 ^ v.g ≤ 32) {c' : Core} {val1 val2 val : Nat → Nat} (h : PruneDone v d c c' val1 val2)
include len low h

/-- Writing values, and writing the words that tell their indexes. -/
theorem PairDone.writeValues {g : Nat → Nat} {n i : Nat} (hi : i + n ≤ v.size (2 ^ v.g) 8)
    (new : ∀ j < v.size (2 ^ v.g) 8, val j = if i ≤ j ∧ j < i + n then g j % 2 ^ 8 else val1 j) :
    PruneDone v d c (writeFrom v (.reg d 8) (fun j => some (g j)) n i c') val val2 :=
  h.write (regFits len (widthOk_pow (n := 3) (by decide)) (show d + 2 ^ v.g ≤ 40 by omega) le_rfl)
    (regFits len (widthOk_pow (n := 4) (by decide)) (show d + 2 ^ v.g + 2 ^ v.g ≤ 40 by omega) le_rfl) (prune_apart low) hi new

theorem PairDone.writeMeta {g : Nat → Nat} {n i : Nat} (hi : i + n ≤ v.size (2 ^ v.g) 16)
    (new : ∀ j < v.size (2 ^ v.g) 16, val j = if i ≤ j ∧ j < i + n then g j % 2 ^ 16 else val2 j) :
    PruneDone v d c (writeFrom v (.reg (d + 2 ^ v.g) 16) (fun j => some (g j)) n i c') val1 val :=
  (h.swap.write (regFits len (widthOk_pow (n := 4) (by decide)) (show d + 2 ^ v.g + 2 ^ v.g ≤ 40 by omega) le_rfl)
    (regFits len (widthOk_pow (n := 3) (by decide)) (show d + 2 ^ v.g ≤ 40 by omega) le_rfl)
    (fun j hj i hi => (prune_apart low i hi j hj).symm) hi new).swap

end writes

/-- After n groups their values and words are written. -/
theorem pruneDone_groups (len : VlenOk v) (low : d + 2 * 2 ^ v.g ≤ 32) (clean : CleanCore c) (n : Nat) (room1 : 4 * n ≤ v.size (2 ^ v.g) 8)
    (room2 : n ≤ v.size (2 ^ v.g) 16) : PruneDone v d c ((List.range n).foldl (pruneStep c v d a) c)
      (fun i => if i < 4 * n then pruneValue c v a i % 2 ^ 8 else (c.elem v d 8 i).bits)
      (fun i => if i < n then pruneMeta c v a i % 2 ^ 16 else (c.elem v (d + 2 ^ v.g) 16 i).bits) := by
  induction n with
  | zero => exact ⟨rfl, clean, fun _ _ => rfl, fun _ _ => rfl, fun _ _ _ => rfl⟩
  | succ n ih =>
    rw [List.range_succ, List.foldl_append, List.foldl_cons, List.foldl_nil, pruneStep_clean clean]
    have before := ih (by omega) (by omega)
    have values := before.writeValues len low (n := 4) (i := 4 * n) (by omega) fun i _ => ite_lt_add _ _ (4 * n) 4 i
    exact values.writeMeta len low (n := 1) (i := n) (by omega) fun i _ => ite_lt_add _ _ n 1 i

/-- What VPRUNE48 leaves of its destinations. -/
theorem pruneDone_whole (len : VlenOk v) (low : d + 2 * 2 ^ v.g ≤ 32) (clean : CleanCore c) (some_ : v.vl ≠ 0) (hvl : v.vl ≤ v.size (2 ^ v.g) 8) :
    PruneDone v d c (pieceOf (pruneAct v d a) c).1
      (fun i => if i < 4 * ((v.vl + 7) / 8) then pruneValue c v a i % 2 ^ 8 else if v.tp then 0 else (c.elem v d 8 i).bits)
      (fun i => if i < (v.vl + 7) / 8 then pruneMeta c v a i % 2 ^ 16 else if v.tp then 0 else (c.elem v (d + 2 ^ v.g) 16 i).bits) := by
  obtain ⟨room1, room2⟩ := prune_sizes len hvl
  have groups := pruneDone_groups (a := a) len low clean ((v.vl + 7) / 8) room1 room2
  rw [pieceOf_prune c v d a some_]
  by_cases tp : v.tp = true
  · simp only [if_pos tp, zeroFrom_eq]
    have zeros := groups.writeValues len low (g := fun _ => 0) (n := v.size (2 ^ v.g) 8 - 4 * ((v.vl + 7) / 8)) (i := 4 * ((v.vl + 7) / 8))
      (val := fun i => if i < 4 * ((v.vl + 7) / 8) then pruneValue c v a i % 2 ^ 8 else 0) (by omega) fun i hi => by
        by_cases below : i < 4 * ((v.vl + 7) / 8)
        · rw [if_pos below, if_neg (by omega), if_pos below]
        · rw [if_neg below, if_pos (by omega), Nat.zero_mod]
    exact zeros.writeMeta len low (g := fun _ => 0) (n := v.size (2 ^ v.g) 16 - (v.vl + 7) / 8) (i := (v.vl + 7) / 8) (by omega) fun i hi => by
        by_cases below : i < (v.vl + 7) / 8
        · rw [if_pos below, if_neg (by omega), if_pos below]
        · rw [if_neg below, if_pos (by omega), Nat.zero_mod]
  · simp only [if_neg tp]
    exact groups

end prune

end Sys2Proof.Proofs

/-! One issue of VPRUNE48 (05_vector R143), and the permutations and reductions together. -/

namespace Sys2Proof.Proofs

open Sys2Proof.Machine Sys2Proof.Laws

/-- An element of VPRUNE48's source: zero past VL, and of 8 bits. -/
theorem pruneElem_bits (c : Core) (v : VView) (a g j : Nat) :
    (pruneElem c v a g j).bits = if 8 * g + j < v.vl then (c.elem v a 8 (8 * g + j)).bits else 0 := by
  unfold pruneElem
  split <;> rfl

theorem pruneElem_lt (c : Core) (v : VView) (a g j : Nat) : (pruneElem c v a g j).bits < 2 ^ 8 := by
  rw [pruneElem_bits]
  split
  · exact elem_lt _ _ _ _ _
  · decide

/-- The four kept elements of a group: their order, their values and their word. -/
theorem prune_group (c : Core) (v : VView) (a g : Nat) : ∃ k0 k1 k2 k3, k0 < k1 ∧ k1 < k2 ∧ k2 < k3 ∧ k3 < 8 ∧
    (∀ i ∈ [k0, k1, k2, k3], ∀ j < 8, j ∉ [k0, k1, k2, k3] → Before (fun j => (BitVec.ofNat 8 (pruneElem c v a g j).bits).toInt) i j) ∧
    (∀ i < 4, pruneValue c v a (4 * g + i) % 2 ^ 8 = (pruneElem c v a g ([k0, k1, k2, k3].getD i 0)).bits) ∧
    pruneMeta c v a g % 2 ^ 16 = k0 + 8 * k1 + 64 * k2 + 512 * k3 := by
  obtain ⟨k0, k1, k2, k3, list, h01, h12, h23, h3, order⟩ := keptFour_spec fun j => signedOf 8 (pruneElem c v a g j).bits
  have kept : pruneKept c v a g = [k0, k1, k2, k3] := list
  refine ⟨k0, k1, k2, k3, h01, h12, h23, h3, ?_, fun i hi => ?_, ?_⟩
  · simpa only [signedOf_eq_toInt] using order
  · rw [pruneValue, show (4 * g + i) / 4 = g by omega, show (4 * g + i) % 4 = i by omega, kept, Nat.mod_eq_of_lt (pruneElem_lt _ _ _ _ _)]
  · rw [pruneMeta, kept]
    simp only [List.getD_cons_zero, List.getD_cons_succ]
    omega

section ready

variable {s : State} {k q : Nat} {e : VEntry} {d a : BitVec 5}

/-- A ready VPRUNE48 writes the values and words of its groups and the tails of both destinations, empties its queue, and leaves everything else. -/
theorem prune_ready (h : BeatReady s k q e (.arith (.vprune48 d a))) (byte : vWidth e.vcfg = 8) (low : d.toNat + 2 * 2 ^ vGroup e.vcfg ≤ 32) :
    ∃ t, exec (.vectorIssue k ⟨0, []⟩) s = .next t ∧ t = { s with slots := t.slots, cores := t.cores, shares := t.shares } ∧
      (∀ j, j ≠ q → t.slot j = s.slot j) ∧ (∀ j, j ≠ k → t.core j = s.core j) ∧ (t.slot q).vq = [] ∧
      (∀ i < (s.slot q).vlmax e.vcfg, ((t.core k).elem (VView.of (s.slot q) e) d.toNat 8 i).bits =
        if i < 4 * ((e.vl + 7) / 8) then pruneValue (s.core k) (VView.of (s.slot q) e) a.toNat i % 2 ^ 8
        else if e.vcfg.getLsbD 5 then 0 else ((s.core k).elem (VView.of (s.slot q) e) d.toNat 8 i).bits) ∧
      (∀ i < min ((s.slot q).vlen * 2 ^ vGroup e.vcfg / 16) ((s.slot q).vlen / 2),
        ((t.core k).elem (VView.of (s.slot q) e) (d.toNat + 2 ^ vGroup e.vcfg) 16 i).bits =
          if i < (e.vl + 7) / 8 then pruneMeta (s.core k) (VView.of (s.slot q) e) a.toNat i % 2 ^ 16
          else if e.vcfg.getLsbD 5 then 0 else ((s.core k).elem (VView.of (s.slot q) e) (d.toNat + 2 ^ vGroup e.vcfg) 16 i).bits) ∧
      (4 * ((e.vl + 7) / 8) ≤ (s.slot q).vlmax e.vcfg ∧ (e.vl + 7) / 8 ≤ min ((s.slot q).vlen * 2 ^ vGroup e.vcfg / 16) ((s.slot q).vlen / 2)) ∧
      ∀ lane reg j, reg < 40 → j < 32 → reg < d.toNat ∨ d.toNat + 2 * 2 ^ vGroup e.vcfg ≤ reg →
        (t.core k).chunk (vecKey lane reg j) = (s.core k).chunk (vecKey lane reg j) := by
  obtain ⟨-, -, below, vl⟩ := h.captured
  have size : (s.slot q).vlmax e.vcfg = (VView.of (s.slot q) e).size (2 ^ (VView.of (s.slot q) e).g) 8 := by rw [← byte]; rfl
  have some_ : (VView.of (s.slot q) e).vl ≠ 0 := Nat.ne_of_gt (show 0 < e.vl by omega)
  rw [size] at vl ⊢
  have done := pruneDone_whole (a := a.toNat) (d := d.toNat) (ready_vlen h) low h.clean some_ vl
  obtain ⟨t, run, device, slots, cores, queue, core⟩ := piece_ready h rfl
    (F := pieceOf (pruneAct (VView.of (s.slot q) e) d.toNat a.toNat)) rfl done.core
  rw [← core] at done
  refine ⟨t, run, device, slots, cores, queue, done.first, done.second, prune_sizes (ready_vlen h) vl, fun lane reg j hreg hj out => ?_⟩
  have values : d.toNat + 2 ^ vGroup e.vcfg ≤ 40 := by omega
  have words : d.toNat + 2 ^ vGroup e.vcfg + 2 ^ vGroup e.vcfg ≤ 40 := by omega
  exact done.beside _ (fun i hi => place_beside (by decide) values hi hreg hj (by omega))
    fun i hi => place_beside (by decide) words hi hreg hj (by omega)

end ready

end Sys2Proof.Proofs

namespace Sys2Proof.Settled

open Sys2Proof.Machine Sys2Proof.Proofs

/-- Settles O30: cross-element instructions and reductions as elements written in order, VFREDU level by level, and VPRUNE48 by the order in which its
indexes are inserted. -/
theorem vectorPermutationResults : Obligations.VectorPermutationResults := by
  refine fun d a b x m => ⟨fun y => ⟨elementWise_vbcast d x m, writesScalar_vextr y a x⟩, fun y => elementWise_mtov d y m,
    whole_vslup d a x m, whole_vsldn d a x m, whole_vperm d a b m, ?sum, ?max, ?min, ?ordered, ?tree,
    ⟨viewPick false, picksOf_viewPick false, ?redmax⟩, ?prune, whole_vscan d a m, whole_vexpd d a m, whole_vcomp d a m, whole_viota d m, ?insert, ?merge⟩
  case sum =>
    exact whole_reduceInt (op := fun w x y => (x + y) % 2 ^ w) (f := fun _ y z => y + z) (fun _ y z => (BitVec.toNat_add y z).symm) rfl fun _ _ => rfl
  case max => exact whole_reduceInt (op := iMax) (f := fun _ y z => if y.slt z then z else y) (fun _ => iMax_words) rfl fun _ _ => rfl
  case min => exact whole_reduceInt (op := iMin) (f := fun _ y z => if z.slt y then z else y) (fun _ => iMin_words) rfl fun _ _ => rfl
  case ordered => exact whole_reduceOrdered viewAdd rfl (fun _ _ => rfl) fun v p q float _ _ => vectorRound_lt float _
  case tree => exact whole_reduceTree rfl fun _ _ => rfl
  case redmax => exact whole_reduceOrdered (viewPick false) rfl (fun _ _ => rfl) fun v p q float hp hq => viewPick_lt false float hp hq
  case insert => exact fun y s k q e h placed => insert_ready h placed
  case merge => exact fun s k q e h placed _ _ => beat_vmerge h placed
  case prune =>
    intro s k q e h byte _ _ _ low _ c v
    obtain ⟨t, run, device, slots, cores, queue, values, words, ⟨room, room'⟩, beside⟩ := prune_ready h byte low
    refine ⟨t, run, device, slots, cores, queue, fun g hg => ?_, fun i lo hi => ?_, fun i lo hi => ?_, fun lane reg j _ => beside lane reg j⟩
    · obtain ⟨k0, k1, k2, k3, h01, h12, h23, h3, order, value, word⟩ := prune_group c v a.toNat g
      simp only [Before, pruneElem_bits] at order value
      refine ⟨k0, k1, k2, k3, h01, h12, h23, h3, order, fun i hi => ?_, ?_⟩
      · rw [values (4 * g + i) (by omega), if_pos (by omega)]
        exact value i hi
      · rw [words g (by omega), if_pos hg]
        exact word
    · rw [values i hi, if_neg (by omega)]
      rfl
    · rw [words i hi, if_neg (by omega)]
      rfl

end Sys2Proof.Settled
